-- ==== Sys2Proof/Word.lean ====
section
/-! DEFINITION. The bit-vector types the spec's tables use, by width, and the plainest arithmetic on them. -/

namespace Sys2Proof

/-- One byte of memory. -/
abbrev Byte := BitVec 8

/-- One 32-bit control register (R11). -/
abbrev Word := BitVec 32

/-- One g register (R94). -/
abbrev DWord := BitVec 64

/-- One v register: 256 bits, byte 0 in bits 7:0 (R94). -/
abbrev Vec := BitVec 256

/-- A 40-bit distaff physical address (R29). -/
abbrev PAddr := BitVec 40

/-- A 26-bit offset into the boot array (R547). -/
abbrev ArrAddr := BitVec 26

end Sys2Proof
end

