-- ==== Sys2Proof/Machine/Map.lean ====
section
/-! DEFINITION. Sparse maps from numbers to values as plain data: a list of (key, value) pairs in one canonical
form, keys strictly rising and no value equal to what an unlisted key reads as. Every register file, table and
memory of the machine is one of these, so equal contents are equal data. -/

namespace Sys2Proof.Machine

/-- A sparse map: keys strictly rising, no value equal to the default. -/
abbrev SMap (α : Type) := List (Nat × α)

/-- The value at a key, `d` where the key is not listed. -/
def mget {α : Type} (d : α) : SMap α → Nat → α
  | [], _ => d
  | (k, v) :: rest, key => if k = key then v else mget d rest key

/-- Drop a key. -/
def mdel {α : Type} (key : Nat) : SMap α → SMap α
  | [] => []
  | (k, v) :: rest => if k = key then mdel key rest else (k, v) :: mdel key rest

/-- Insert at the place the rising order gives. -/
def mins {α : Type} (key : Nat) (v : α) : SMap α → SMap α
  | [] => [(key, v)]
  | (k, w) :: rest => if key < k then (key, v) :: (k, w) :: rest else (k, w) :: mins key v rest

/-- Write a key: the default removes the entry, any other value replaces it. -/
def mset {α : Type} [DecidableEq α] (d : α) (key : Nat) (v : α) (m : SMap α) : SMap α :=
  if v = d then mdel key m else mins key v (mdel key m)

/-- Change the value at a key. -/
def mmod {α : Type} [DecidableEq α] (d : α) (key : Nat) (f : α → α) (m : SMap α) : SMap α :=
  mset d key (f (mget d m key)) m

/-- Apply a function to every listed value (a value that becomes the default leaves the list). -/
def mmapv {α : Type} [DecidableEq α] (d : α) (f : α → α) : SMap α → SMap α
  | [] => []
  | (k, v) :: rest => if f v = d then mmapv d f rest else (k, f v) :: mmapv d f rest

/-- The keys strictly rise. -/
def mrising {α : Type} : SMap α → Bool
  | [] => true
  | [_] => true
  | (k, _) :: (k', w) :: rest => decide (k < k') && mrising ((k', w) :: rest)

/-- The canonical form: keys strictly rising, no listed default. -/
def mwf {α : Type} [DecidableEq α] (d : α) (m : SMap α) : Bool :=
  mrising m && m.all (fun e => decide (e.2 ≠ d))

end Sys2Proof.Machine
end

