-- ==== Sys2Proof/Machine/BlocksReel.lean ====
section
/-! DEFINITION. The state of the Reel, the image and the spindles, as plain data (chapters 2 to 5). A field's default
is its value at reset; where the spec gives none, a log entry names it. -/

namespace Sys2Proof.Machine

/-! ## Decks (R41, R187–R191) -/

/-- A slot entry (R188): a regular array of slots. -/
structure SlotEntry where
  typ    : Nat := 0
  long   : Bool := false
  owner  : Nat := 0x1FF
  base   : Nat := 0
  kind   : Nat := 0
  phases : BitVec 8 := 0
  cap    : Nat := 0
  first  : Nat := 0xFFFF
  start  : Nat := 0
  len    : Nat := 1
  icount : Nat := 1
  istep  : Nat := 0
  ishift : Nat := 0
  ocount : Nat := 1
  ostep  : Nat := 0
  oshift : Nat := 0
  deriving DecidableEq, Repr

/-- A place record (R190). -/
structure PlaceRec where
  owner    : Nat := 0
  plane    : Nat := 0
  hard     : Nat := 1
  recovery : Bool := false
  transfer : Nat := 0
  firstUnit : Nat := 0
  cipher   : Nat := 0
  transmit : Nat := 0
  pool     : Nat := 0xFFFF
  deriving DecidableEq, Repr

/-- A deck (R187–R191): mode, period code, slot entries, place records, entry table and class words. -/
structure Deck where
  mode    : BitVec 4 := 0
  period  : BitVec 2 := 0
  slots   : List SlotEntry := []
  places  : List PlaceRec := []
  entries : SMap (BitVec 13) := []
  cls     : SMap (BitVec 32) := []
  deriving DecidableEq, Repr

/-- An assumed-die record, or the figures and counts a die's parameter page advertises (R155, R156, R327, R380). -/
structure DieFig where
  model     : Nat := 0
  suspendNs : Nat := 8000
  hardNs    : Nat := 24000
  recovNs   : Nat := 40000
  resumeNs  : Nat := 2000
  qlcUs     : Nat := 2800
  slcUs     : Nat := 180
  eraseUs   : Nat := 12000
  susProg   : Nat := 24
  susErase  : Nat := 48
  tempNs    : Nat := 12000
  indep     : Bool := false
  extended  : Bool := false
  oneShot   : Bool := false
  maxRate   : BitVec 4 := 5
  planes    : Nat := 6
  wordLines : Nat := 342
  units     : Nat := 2048
  deriving DecidableEq, Repr

/-- What an owner has on some spindles (R166, R167): the spindles, the g, v and p registers, one bit each, and the scratch ranges (first
byte, length). -/
structure SpnPart where
  mask    : BitVec 64 := 0
  g       : BitVec 64 := 0
  v       : BitVec 16 := 0
  p       : BitVec 8 := 0
  scratch : List (Nat × Nat) := []
  deriving DecidableEq, Repr

/-- One owner's partitions (R160, R161, R167, R183): its DRAM ranges (first byte, length), key-slot ranges (first slot, count), and its
registers and scratch ranges on the spindles. -/
structure OwnerPart where
  owner : Nat := 0
  dram  : List (Nat × Nat) := []
  keys  : List (Nat × Nat) := []
  spns  : List SpnPart := []
  deriving DecidableEq, Repr

/-- A code section (R183, type 0x0006): spindle mask, first bundle index, owner, bundles. -/
structure CodeSec where
  mask  : BitVec 64 := 0
  addr  : Nat := 0
  owner : Nat := 0
  words : List (BitVec 128) := []
  deriving DecidableEq, Repr

/-- An initial-scratch section (R183, type 0x0007): spindle mask, address, bytes. -/
structure ScratchSec where
  mask  : BitVec 64 := 0
  addr  : Nat := 0
  bytes : List (BitVec 8) := []
  deriving DecidableEq, Repr

/-- A BRI target list (R165): the spindles, the bundle's byte address, and the targets. -/
structure BriList where
  mask    : BitVec 64 := 0
  addr    : Nat := 0
  targets : List Nat := []
  deriving DecidableEq, Repr

/-- What the sections say whose bytes the spec does not lay out (R183): the die records, the group layout (the dies of each group in
order), the owner partitions, code, initial scratch and BRI target lists; and what the spec places in no section: the spindle of each
queue pair (R231) and, for each deck, the classes whose writes go to the pool (R345). DESIGN CHOICE, log entry 65. -/
structure ImageRest where
  dies    : List DieFig := []
  groups  : List (List Nat) := []
  parts   : List OwnerPart := []
  code    : List CodeSec := []
  scratch : List ScratchSec := []
  bri     : List BriList := []
  qp      : SMap Nat := []
  pool    : SMap (List Nat) := []
  deriving DecidableEq, Repr

/-- Where a property of the checker fails (R164, R169): the property, what word 1 holds (0 a slot entry, 1 a program-memory address, 2 a
byte of the image) and word 1, the deck, the failing resource, the second slot entry, and the first failing cycle of the period. -/
structure Fail where
  verdict : Nat := 0
  what    : Nat := 2
  deck    : Nat := 0xF
  at_     : Nat := 0
  res     : Nat := 0xFFFF
  second  : Nat := 0xFFFF
  cycle   : Nat := 0
  deriving DecidableEq, Repr

/-- An image as its bytes are read (R181–R192): header fields, policy words, matrix and decks, with the rest. `secs` gives the first byte
of each keystone section by its type, and of each deck's header, `form` the first failure of the format (R164). -/
structure Image extends ImageRest where
  contract  : Nat := 1
  variant   : Nat := 0
  secver    : BitVec 16 := 0
  build     : BitVec 256 := 0
  keySlot   : Nat := 0
  digest    : BitVec 64 := 0
  bootMode  : BitVec 4 := 1
  spare     : BitVec 32 := 0
  limitGiB  : Nat := 1
  ports     : SMap (BitVec 2) := []
  matrix    : SMap (BitVec 16) := []
  decks     : List Deck := []
  secs      : SMap Nat := []
  form      : Option Fail := none
  deriving DecidableEq, Repr

/-! ## The sequencer (R38, R84–R92, R211–R215) -/

/-- The registers of one class (R89–R92) with the pending DEFER_LIM and this hank's count of unbound reads. -/
structure Cls where
  bounded : Bool := false
  lim     : BitVec 8 := 0
  limPend : Option (BitVec 8) := none
  failed  : BitVec 16 := 0
  unbound : BitVec 16 := 0
  places  : BitVec 20 := 0
  hankUnbound : Nat := 0
  deriving DecidableEq, Repr

/-- A pending mode request (R211–R214): the mode, whether the device made it, whether it takes effect at the very next
commit (R565, R626), the commits since its acceptance, the session and request that wait for its outcome, and whether RESULT reports it: a
management request made later and refused takes its place there (R215). -/
structure ModeReq where
  mode   : BitVec 4 := 0
  device : Bool := false
  soon   : Bool := false
  commits : Nat := 0
  tilost : Option (Nat × BitVec 32) := none
  latest : Bool := true
  deriving DecidableEq, Repr

/-- A slot held, or granted early (R20, R152): its entry with the entry's number and replica, the spindle whose code uses it, the
core cycle it begins, the entries that crossed with an early grant, and whether they reach the agent after its marker. -/
structure Grant where
  slot    : SlotEntry := {}
  entry   : Nat := 0
  i       : Nat := 0
  o       : Nat := 0
  spindle : Option Nat := none
  since   : Nat := 0
  pushed  : Nat := 0
  late    : Bool := false
  pin     : Bool := false
  deriving DecidableEq, Repr

/-- The Reel sequencer. `core` counts core cycles; `commitDue` marks a hank boundary reached and not yet committed. `xq` counts the entries
of early grants in each crossing queue (R158), `xfly` lists for each the core cycles at which the units pushed into it leave it.
`lossDue` is 1 from a slot violation until the commands whose data it cost have been named (R173). -/
structure Reel where
  run       : Bool := false
  pend      : BitVec 4 := 0xF
  deck      : BitVec 4 := 0
  byMgmt    : Bool := false
  phase     : BitVec 3 := 0
  period    : BitVec 2 := 0
  turn      : BitVec 6 := 0
  cycle     : BitVec 13 := 0
  core      : Nat := 0
  commitDue : Bool := false
  hanks     : BitVec 64 := 0
  hts       : BitVec 64 := 0
  vcount    : BitVec 16 := 0
  vbits     : BitVec 6 := 0
  viol      : BitVec 32 := 0
  cls       : SMap Cls := []
  modeReg   : BitVec 4 := 0xF
  result    : BitVec 8 := 0
  req       : Option ModeReq := none
  ret       : Option (BitVec 4) := none
  startMode : BitVec 4 := 0
  condThermal : Bool := false
  condReadOnly : Bool := false
  condRebuild : Bool := false
  tt        : Deck := {}
  grants    : List Grant := []
  early     : List Grant := []
  xq        : SMap Nat := []
  xfly      : SMap (List Nat) := []
  lossDue   : Bool := false
  ttBad     : SMap Bool := []
  deriving DecidableEq, Repr

/-! ## Spindles (R94–R96, R133–R138) -/

/-- The register a result lands in. -/
inductive RegId where
  | g (n : BitVec 6) | v (n : BitVec 4) | p (n : BitVec 3)
  deriving DecidableEq, Repr

/-- A result in flight (R100, R101): where it lands, its value, the core cycle it lands at, the cycle its bundle
issued and its slot. -/
structure Inflight where
  reg  : RegId := .g 0
  val  : BitVec 256 := 0
  due  : Nat := 0
  at_  : Nat := 0
  slot : Nat := 0
  deriving DecidableEq, Repr

/-- An open descriptor: units it still covers, where the next one goes (CIN: the key slot in `addr`, key and direction, the
descriptor's number on its lane in `fn`; DCMD write: the address, TXF: the kind in `fn`, both with `enc` 0 where the slot's work arrived
late and is not performed), the resource (`lane`) and entry number
of its slot, and the core cycle it opened at, or for DOUT of the last push. -/
structure OpenDesc where
  left : Nat := 0
  addr : Nat := 0
  key  : BitVec 256 := 0
  enc  : Bool := true
  since : Nat := 0
  units : List (BitVec 256) := []
  desc : BitVec 256 := 0
  fn   : Nat := 0
  lane : Nat := 0
  entry : Nat := 0
  deriving DecidableEq, Repr

/-- A unit waiting on PIN (R392–R396): its data, whether it belongs to an outcome item, its place's cipher entry and owner, and for a
soft-decoded item the core cycle from which a cipher slot of its owner delivers it (R402). `item` numbers the item of a read that the keystone
posted. -/
structure PinUnit where
  data    : BitVec 256 := 0
  outcome : Bool := false
  owner   : Nat := 0
  cipher  : Nat := 0xFFFF
  from_   : Nat := 0
  item    : Nat := 0
  deriving DecidableEq, Repr

/-- A unit on DIN: data and whether it was stored poisoned (R487). -/
structure DinUnit where
  data   : BitVec 256 := 0
  poison : Bool := false
  deriving DecidableEq, Repr

/-- An accepted DCMD read: the next unit's address, the units still to come, the port, and the core cycle by which the next unit is
ready at the latest, and the cycle the DCMD issued at (R122, R155). -/
structure DinRead where
  addr : Nat := 0
  left : Nat := 0
  port : Nat := 0
  due  : Nat := 0
  at_  : Nat := 0
  deriving DecidableEq, Repr

/-- An entry accepted on EVQ (R124): its unit, the time of acceptance, whether that is span time, and the core cycle of acceptance. -/
structure EvqEntry where
  unit  : BitVec 256 := 0
  time  : BitVec 64 := 0
  tbase : Bool := false
  at_   : Nat := 0
  deriving DecidableEq, Repr

/-- One spindle: registers, memories, fetch sequence, stream ports and SPN window. `state` is SPN_STAT.STATE, `fcore` the core cycle of
its last fault. `cmplAt` holds the core
cycles at which the units of CMPL were accepted, `cmplFree` and `evqFree` the first cycle in which the engine behind CMPL and EVQ may
remove its next unit, `lockDue` the cycle by which each result of `lockOut` is ready (R119). -/
structure Spindle where
  state   : BitVec 2 := 0
  ovr     : Bool := false
  lastEnd : BitVec 13 := 0
  lastIssue : BitVec 13 := 0
  fpc     : BitVec 17 := 0
  fcause  : BitVec 4 := 0
  fslot   : BitVec 2 := 0
  fturn   : BitVec 6 := 0
  fcycle  : BitVec 13 := 0
  fcore   : Nat := 0
  faddr   : BitVec 18 := 0
  corr    : BitVec 16 := 0
  restart : Bool := false
  g       : SMap (BitVec 64) := []
  v       : SMap (BitVec 256) := []
  p       : SMap Bool := []
  pm      : SMap (BitVec 128) := []
  pmBad   : SMap Bool := []
  scratch : SMap (BitVec 8) := []
  scBad   : SMap Bool := []
  fly     : List Inflight := []
  a0      : Nat := 0
  a1      : Nat := 0
  a2      : Nat := 0
  issuedAt : Option Nat := none
  endLeft : Option Nat := none
  rxq     : List (BitVec 256) := []
  cmpl    : List (BitVec 256) := []
  cmplAt  : List Nat := []
  cmplFree : Nat := 0
  post    : Nat := 0
  lockReq : Nat := 0
  lockRes : List (BitVec 256) := []
  lockOut : List (BitVec 256) := []
  lockDue : List Nat := []
  pin     : List PinUnit := []
  pout    : Option OpenDesc := none
  cin     : Option OpenDesc := none
  dout    : Option OpenDesc := none
  txf     : Option OpenDesc := none
  din     : List DinUnit := []
  dreads  : List DinRead := []
  evq     : List EvqEntry := []
  evqFree : Nat := 0
  deriving DecidableEq, Repr

/-- One cipher lane (R123, R436): units in the pipeline with the key slot, due cycle and withheld mark, the units
ready on COUT (none: withheld), and the core cycle of the last push. -/
structure LaneUnit where
  data : BitVec 256 := 0
  due  : Nat := 0
  kslot : Nat := 0
  desc : Nat := 0
  entry : Nat := 0
  deriving DecidableEq, Repr

/-- A cipher lane's pipeline and COUT side. -/
structure Lane where
  pipe : List LaneUnit := []
  out  : List (Option (BitVec 256)) := []
  last : Option Nat := none
  bad  : Option Nat := none
  descs : Nat := 0
  deriving DecidableEq, Repr

end Sys2Proof.Machine
end

