-- ==== Sys2Proof/Machine/BlocksSys.lean ====
section
/-! DEFINITION. The state of the system blocks, as plain data: SYS, image store, power, clocks, resets and boot, the
span block, the pins and the test access port (chapters 1, 5, 14, 15 and 16). A field's default is its value at reset;
where the spec gives none, a log entry names it. -/

namespace Sys2Proof.Machine

/-- The SYS block (R33, R34, R209, R210, R505–R508, R512, R639). -/
structure Sys where
  dramUp   : BitVec 4 := 0
  netUp    : Bool := false
  pierAUp  : Bool := false
  pierBUp  : Bool := false
  uncorr   : BitVec 8 := 0
  corrCnt  : BitVec 8 := 0
  lockv    : BitVec 16 := 0
  lockvAt  : BitVec 32 := 0
  bistDone : Bool := false
  bistPass : Bool := false
  bistFail : BitVec 14 := 0
  sramCorr : BitVec 16 := 0
  sramUnc  : BitVec 8 := 0
  sramUAddr : BitVec 32 := 0
  remNative : BitVec 10 := 0
  remFuse  : BitVec 10 := 0
  remIgn   : BitVec 8 := 0
  coreEntry : BitVec 40 := 0
  bootErr  : BitVec 8 := 0
  stage    : BitVec 8 := 1
  fwLevel  : BitVec 16 := 0
  rstc     : BitVec 2 := 0
  strap    : BitVec 2 := 0
  deriving DecidableEq, Repr

/-- CLK_STAT (R640) and, for each reference (0 crystal, 1 SYS, 2 NET0, 3 NET1), the consecutive good windows seen (R616). -/
structure Clk where
  netBad  : BitVec 2 := 0
  net1Rng : Bool := false
  net1Miss : Bool := false
  net0Rng : Bool := false
  net0Miss : Bool := false
  sysRng  : Bool := false
  sysMiss : Bool := false
  xtal    : Bool := false
  good    : SMap Nat := []
  deriving DecidableEq, Repr

/-- A flush record of bank 3 (R629). -/
structure FlushRec where
  kind    : BitVec 8 := 1
  trigger : BitVec 8 := 0
  seq     : BitVec 32 := 0
  earlier : BitVec 32 := 0
  digest  : BitVec 64 := 0
  bytes   : Nat := 0
  units   : Nat := 0
  keys    : BitVec 256 × BitVec 256 := (0, 0)
  deriving DecidableEq, Repr

/-- What the staging directory says of a flush unit in the emergency region (R626, R628): the flush and the unit's index in it, the staged block (a
key of `Media.buf`), which 4,096-byte piece of it and its length, and the plane page and codeword that hold its ciphertext. -/
structure FlushUnit where
  seq   : BitVec 32 := 0
  idx   : Nat := 0
  place : Nat := 0
  part  : Nat := 0
  len   : Nat := 0
  page  : Nat := 0
  cw    : Nat := 0
  deriving DecidableEq, Repr

/-- Supply, power-fail flush and its records (R613–R643). `warmAfter`, `graveAfter` and `thermAfter` say what a running
flush's end leads to (a warm reset of cause `warmCause`, the Grave record, the thermal shutdown's last steps). `emergency`
counts the units in the emergency region, `replaying` marks a replay that has begun, `replayRows` and `replayMoved` its
rows restored and members relocated, `keysReady` the flush keys, `aon` the supply of the always-on domain. -/
structure Pwr where
  flush   : BitVec 2 := 0
  damage  : Bool := false
  trigger : BitVec 4 := 0
  pfn     : Bool := true
  gib     : BitVec 5 := 0
  units   : BitVec 32 := 0
  mv      : BitVec 16 := 0
  irq     : BitVec 5 := 0
  seq     : BitVec 32 := 0
  since   : BitVec 64 := 0
  records : List FlushRec := []
  recCount : Nat := 0
  waitCommit : Bool := false
  warmAfter : Bool := false
  graveAfter : Bool := false
  thermAfter : Bool := false
  imageRan : Bool := false
  emergency : Nat := 0
  region  : List FlushUnit := []
  flushKeys : BitVec 256 × BitVec 256 := (0, 0)
  rails   : Bool := false
  aon     : Bool := true
  recompute : Bool := false
  keysReady : Bool := false
  warmCause : BitVec 2 := 0
  replayRows : Nat := 0
  replayMoved : Nat := 0
  replaying : Bool := false
  deriving DecidableEq, Repr

/-- One peer's last heartbeat (R596). -/
structure Beat where
  fresh  : Bool := false
  spanId : BitVec 16 := 0
  member : BitVec 4 := 0
  varB   : Bool := false
  digest : BitVec 384 := 0
  epoch  : BitVec 32 := 0
  fw     : BitVec 16 := 0
  image  : BitVec 64 := 0
  lock   : Bool := false
  fenced : Bool := false
  dirv   : BitVec 64 := 0
  deriving DecidableEq, Repr

/-- A span configuration record (R594) as the model keeps it. -/
structure SpanRec where
  spanId : BitVec 16 := 0
  epoch  : BitVec 32 := 0
  varB   : Bool := false
  count  : Nat := 1
  domain : BitVec 8 := 0
  driver : BitVec 4 := 0
  images : List (BitVec 64) := []
  fws    : List (BitVec 16) := []
  effect : BitVec 64 := 0
  digest : BitVec 384 := 0
  deriving DecidableEq, Repr

/-- A directory entry (R606). -/
structure DirEnt where
  home   : BitVec 8 := 0
  state  : BitVec 8 := 0
  target : BitVec 8 := 0xFF
  ver    : BitVec 64 := 0
  deriving DecidableEq, Repr

/-- A directory change proposed here (R607): NSID, the new entry (state 0 removes it), the members that voted, and the
command that proposed it. -/
structure Proposal where
  nsid  : BitVec 32 := 0
  ent   : DirEnt := {}
  votes : List Nat := []
  set_  : Option Nat := none
  create : Option (List (BitVec 32)) := none
  deriving DecidableEq, Repr

/-- The span block (R593–R612). `badQ` and `badOwn` count consecutive failed evaluations, `inSync` and `outSync`
consecutive Sync messages within 500 ns and beyond 1,000 ns, `badPulse` pulses out of place, `driven` the pulses driven,
`pulseAt` the span time of the last edge, `sent` the last heartbeat sent and `beatHank` its hank count, `acked` a peer's change
acknowledged and not yet known to have committed, `acks` the acknowledgments sent. -/
structure Span where
  cfgId   : BitVec 16 := 0
  epoch   : BitVec 32 := 0
  member  : BitVec 4 := 0
  count   : BitVec 4 := 0
  enable  : Bool := false
  domain  : BitVec 8 := 0
  port    : BitVec 6 := 0x3F
  state   : BitVec 2 := 0
  cause   : BitVec 6 := 0
  agreeN  : BitVec 5 := 0
  badu    : Bool := false
  syncf   : Bool := false
  lock    : Bool := false
  reach   : BitVec 16 := 0
  agree   : BitVec 16 := 0
  ofs     : BitVec 32 := 0
  dirv    : BitVec 64 := 0
  inForce : Option SpanRec := none
  nextRec : Option SpanRec := none
  pend    : BitVec 2 := 0
  pendCause : BitVec 6 := 0
  qOk     : Bool := false
  ownOk   : Bool := false
  badQ    : Nat := 0
  badOwn  : Nat := 0
  inSync  : Nat := 0
  outSync : Nat := 0
  badPulse : Nat := 0
  pulseTold : Bool := false
  base    : BitVec 64 := 0
  peers   : SMap Beat := []
  dir     : SMap DirEnt := []
  prop    : Option Proposal := none
  chState : Bool := false
  chAgree : Bool := false
  chLock  : Bool := false
  chDir   : Bool := false
  msgWait : Nat := 0
  switches : List (BitVec 4 × BitVec 64) := []
  driven  : Nat := 0
  sent    : Option Beat := none
  beatHank : Option (BitVec 64) := none
  acked   : Option (BitVec 32 × DirEnt) := none
  acks    : Nat := 0
  pulseAt : BitVec 64 := 0
  deriving DecidableEq, Repr

/-- A key-ring slot (R193, R194): the point of the P-384 key it holds. -/
structure RingKey where
  present : Bool := false
  revoked : Bool := false
  x : BitVec 384 := 0
  y : BitVec 384 := 0
  deriving DecidableEq, Repr

/-- Where an activation stands (R199, R320). -/
inductive ActStep where
  | none | accepted | stopped
  deriving DecidableEq, Repr

/-- The image store and the activation (R178–R200). `bank1` and `bank2` are the images programmed into banks 1 and 2 as their
bytes are read. `recBank`, `recDig`, `floor`, `ring`, `hashes`, `board` and `remap` are what the resident firmware holds of the records that
bank 3 keeps as two copies each. `inv` numbers the fitted-hardware inventory (R163); `verdict` is
the verdict of the staged image with the inventory it was given for. `loading` is the image under check for `purpose` (0 a load, 1 an
activation, 2 the boot), `loadFrom` the request that waits for it. `boot` marks an activation at power-up. `remap` lists the remap
table's entries as (array code, row, spare) (R490–R492). DESIGN CHOICE, log entry 64. -/
structure Store where
  bank1   : Option Image := none
  bank2   : Option Image := none
  recBank : BitVec 2 := 0
  recDig  : BitVec 64 := 0
  floor   : BitVec 16 := 0
  ring    : SMap RingKey := []
  hashes  : List (BitVec 384) := []
  staged  : Option (BitVec 2) := none
  verdict : Option (BitVec 32 × Nat) := none
  vwords  : List (BitVec 32) := []
  reason  : BitVec 8 := 0
  running : Option Image := none
  runBank : BitVec 2 := 0
  loading : Option Image := none
  loadBank : BitVec 2 := 0
  loadFrom : Option (Nat × BitVec 32) := none
  purpose : Nat := 0
  act     : ActStep := .none
  actBank : BitVec 2 := 0
  fromQuiesce : Bool := false
  boot    : Bool := false
  inv     : Nat := 0
  board   : List (BitVec 32) := []
  graveRecs : Nat := 0
  thermRecs : Nat := 0
  remap   : List (Nat × Nat × Nat) := []
  deriving DecidableEq, Repr

/-- The test access port's instruction (R666). -/
inductive TapIr where
  | bypass | idcode | sample | extest
  deriving DecidableEq, Repr

/-- The pins and the test access port. `ppsIn` is the level PTP_PPS_IN rests at: a pulse is one command. `reading` is what the instruction in force shifts out first. -/
structure Pins where
  resetN  : Bool := true
  pfN     : Bool := true
  bootSel : BitVec 2 := 0
  ppsIn   : Bool := false
  ppsOut  : Bool := false
  ppsTold : Bool := false
  tap     : TapIr := .idcode
  tapOut  : BitVec 32 := 0
  resetReady : Bool := true
  deriving DecidableEq, Repr

/-- What the last bus access through a control-register command answered: the word read, or a bus fault. -/
structure BusAns where
  data  : BitVec 32 := 0
  fault : Bool := false
  deriving DecidableEq, Repr

end Sys2Proof.Machine
end

