-- ==== Sys2Proof/Machine/OperandTypes.lean ====
section
/-! DEFINITION. The operand types of the commands: who issues an instruction and in which slot, and what the device's
surroundings show it (a decode's outcome, a temperature, a frame, an image's content). -/

namespace Sys2Proof.Machine

/-- The engine that issues a bundle: a spindle or a distaff core (R94, R141). -/
inductive Engine where
  | spindle (n : BitVec 6)
  | core (n : BitVec 4)
  deriving DecidableEq, Repr

/-- Why a Tilost session ends from outside: the host closes it, TLS fails, or a header breaks its rule (R555). -/
inductive CloseWhy where
  | host | tls | header
  deriving DecidableEq, Repr

/-- What a slot violation, a withheld unit or a poisoned staging unit cost: blocks of a write that were staged or to be staged, or the
data of a read (R173, R324, R439, R489). -/
inductive Loss where
  | staged (nsid : BitVec 32) (lba : BitVec 64) (blocks : BitVec 16)
  | read (conn cid : BitVec 16)
  deriving DecidableEq, Repr

/-- What an ECC check of a memory word finds (R116, R480). -/
inductive Ecc where
  | ok | corrected | uncorrectable
  deriving DecidableEq, Repr

/-- How one instruction is issued: the engine, the bundle slot it stands in, its guard PN and PR (R102), what ECC
finds in the program-memory bundle, and what it finds in the memory word the instruction reads (R116). -/
structure Iss where
  eng  : Engine
  slot : BitVec 2
  pn   : Bool := false
  pr   : BitVec 3 := 0
  prog : Ecc := .ok
  mem  : Ecc := .ok
  deriving DecidableEq, Repr

/-- What the hardware finds at the end of a boot stage (R494, R495, R619, R620): the accepted firmware copy's level and start
address, whether every die-to-die link trained, SYS_REMAP's counts of the fuse map, the failed checkers as SYS_BIST.FAIL, and each stack's
narrowest window and temperature. -/
structure BootIn where
  fw      : Option (BitVec 16 × BitVec 40) := none
  seq     : BitVec 32 := 0
  unread  : List Nat := []
  links   : Bool := true
  fuse    : BitVec 10 := 0
  ignored : BitVec 8 := 0
  fails   : BitVec 14 := 0
  perStack  : List (BitVec 8 × BitVec 8) := []
  deriving DecidableEq, Repr

/-- The far end of a connection: IP version and address, TCP port, queue pair, and the DSCP and ECN of its first frame (R232, R255). -/
structure Peer where
  v6   : Bool := false
  ip   : BitVec 128 := 0
  port : BitVec 16 := 0
  qp   : BitVec 24 := 0
  dscp : BitVec 6 := 0
  ecn  : Bool := false
  deriving DecidableEq, Repr

/-- What the headers of a received frame name (R227, R260): a destination queue pair of RoCEv2; the far address and port and the local port of a TCP
segment; a device frame, of a kind that the device answers or passes on, or of another; an address that is not the sub-port's. -/
inductive FrameHead where
  | roce (qp : BitVec 24)
  | tcp (v6 : Bool) (ip : BitVec 128) (rport port : BitVec 16) (syn : Bool)
  | device (served : Bool)
  | foreign
  deriving DecidableEq, Repr

/-- The TCP options of a segment (R244): MSS, window scale, SACK permitted, timestamp, and SACK blocks as (first, end). -/
structure TcpOpts where
  mss    : Option (BitVec 16) := none
  wscale : Option (BitVec 8) := none
  sackOk : Bool := false
  ts     : Option (BitVec 32) := none
  sacks  : List (BitVec 32 × BitVec 32) := []
  deriving DecidableEq, Repr

/-- What a TLS ClientHello offers and asks for (R246): cipher suite, group, whether an external pre-shared key comes with ECDHE, early data,
a resumption ticket, and the virtual controller whose tenant it is from. -/
structure Hello where
  suite  : BitVec 16 := 0x1302
  group  : BitVec 16 := 24
  psk    : Bool := true
  early  : Bool := false
  ticket : Bool := false
  vc     : BitVec 12 := 0
  deriving DecidableEq, Repr

/-- Who makes a distaff physical access (R24). -/
inductive Master where
  | core (n : BitVec 4)
  | dma (n : BitVec 4)
  | task | mgmt | boot
  deriving DecidableEq, Repr

/-- What a key-ring record changes (R194, R550). -/
inductive RingOp where
  | addKey (slot : BitVec 3) (x y : BitVec 384)
  | revokeKey (slot : BitVec 3)
  | addHash (hash : BitVec 384)
  | removeHash (hash : BitVec 384)
  deriving DecidableEq, Repr

end Sys2Proof.Machine
end

