-- ==== Sys2Proof/Syntax.lean ====
section
/-! DEFINITION. The commands of the IH964: one constructor for each row of the opcode table. Operands are what the row's rule
leaves to whoever sends the command: the fields of an instruction, an address, a value, or what the surroundings show. -/

namespace Sys2Proof

open Sys2Proof.Machine

/-- A command. -/
inductive Instr where
  /-- TURN_BOUNDARY (R71). -/
  | turnBoundary
  /-- HANK_COMMIT (R72). -/
  | hankCommit
  /-- EARLY_GRANT (R20). -/
  | earlyGrant (k : BitVec 16) (i o : BitVec 12) (late : Bool) (ecc : Ecc)
  /-- SLOT_START (R152). -/
  | slotStart (k : BitVec 16) (i o : BitVec 12) (late : Bool) (window temp : BitVec 8) (lost : List Loss)
  /-- SLOT_END (R157). -/
  | slotEnd (k : BitVec 16) (i o : BitVec 12) (lost : List Loss)
  /-- SUSPEND_COMPLETE (R45). -/
  | suspendComplete (d : BitVec 11) (inTime fits : Bool)
  /-- SENSE_COMPLETE (R45). -/
  | senseComplete (d : BitVec 11) (late : Bool)
  /-- INSTRUCTION_RESULT (R100). -/
  | instructionResult (e : Engine)
  /-- NOP (R105). -/
  | nop (x : Iss)
  /-- ADD (R105). -/
  | add (x : Iss) (d a b : BitVec 6)
  /-- SUB (R105). -/
  | sub (x : Iss) (d a b : BitVec 6)
  /-- AND (R105). -/
  | andOp (x : Iss) (d a b : BitVec 6)
  /-- OR (R105). -/
  | orOp (x : Iss) (d a b : BitVec 6)
  /-- XOR (R105). -/
  | xorOp (x : Iss) (d a b : BitVec 6)
  /-- SHL (R105). -/
  | shl (x : Iss) (d a b : BitVec 6)
  /-- SHR (R105). -/
  | shr (x : Iss) (d a b : BitVec 6)
  /-- SAR (R105). -/
  | sar (x : Iss) (d a b : BitVec 6)
  /-- MUL (R105). -/
  | mul (x : Iss) (d a b : BitVec 6)
  /-- MULHU (R105). -/
  | mulhu (x : Iss) (d a b : BitVec 6)
  /-- CLZ (R105). -/
  | clz (x : Iss) (d a : BitVec 6)
  /-- POPC (R105). -/
  | popc (x : Iss) (d a : BitVec 6)
  /-- BSWAP (R105). -/
  | bswap (x : Iss) (d a : BitVec 6) (fn : BitVec 3)
  /-- SEL (R105). -/
  | sel (x : Iss) (d a b : BitVec 6) (fn : BitVec 3)
  /-- ADDI (R105). -/
  | addi (x : Iss) (d a : BitVec 6) (i : BitVec 9)
  /-- ANDI (R105). -/
  | andi (x : Iss) (d a : BitVec 6) (i : BitVec 9)
  /-- ORI (R105). -/
  | ori (x : Iss) (d a : BitVec 6) (i : BitVec 9)
  /-- XORI (R105). -/
  | xori (x : Iss) (d a : BitVec 6) (i : BitVec 9)
  /-- SHLI (R105). -/
  | shli (x : Iss) (d a : BitVec 6) (i : BitVec 9)
  /-- SHRI (R105). -/
  | shri (x : Iss) (d a : BitVec 6) (i : BitVec 9)
  /-- SARI (R105). -/
  | sari (x : Iss) (d a : BitVec 6) (i : BitVec 9)
  /-- MOVI (R105). -/
  | movi (x : Iss) (d : BitVec 6) (i : BitVec 15)
  /-- MOVS (R105). -/
  | movs (x : Iss) (d : BitVec 6) (i : BitVec 15)
  /-- CMPEQ (R105). -/
  | cmpeq (x : Iss) (d : BitVec 3) (a b : BitVec 6)
  /-- CMPNE (R105). -/
  | cmpne (x : Iss) (d : BitVec 3) (a b : BitVec 6)
  /-- CMPLT (R105). -/
  | cmplt (x : Iss) (d : BitVec 3) (a b : BitVec 6)
  /-- CMPLTU (R105). -/
  | cmpltu (x : Iss) (d : BitVec 3) (a b : BitVec 6)
  /-- CMPGE (R105). -/
  | cmpge (x : Iss) (d : BitVec 3) (a b : BitVec 6)
  /-- CMPGEU (R105). -/
  | cmpgeu (x : Iss) (d : BitVec 3) (a b : BitVec 6)
  /-- CMPEQI (R105). -/
  | cmpeqi (x : Iss) (d : BitVec 3) (a : BitVec 6) (i : BitVec 12)
  /-- CMPLTI (R105). -/
  | cmplti (x : Iss) (d : BitVec 3) (a : BitVec 6) (i : BitVec 12)
  /-- CMPLTUI (R105). -/
  | cmpltui (x : Iss) (d : BitVec 3) (a : BitVec 6) (i : BitVec 12)
  /-- PLOG (R106). -/
  | plog (x : Iss) (d a b : BitVec 3) (fn : BitVec 3)
  /-- LDB (R112). -/
  | ldb (x : Iss) (d a : BitVec 6) (i : BitVec 9)
  /-- LDH (R113). -/
  | ldh (x : Iss) (d a : BitVec 6) (i : BitVec 9)
  /-- LDW (R113). -/
  | ldw (x : Iss) (d a : BitVec 6) (i : BitVec 9)
  /-- LDD (R113). -/
  | ldd (x : Iss) (d a : BitVec 6) (i : BitVec 9)
  /-- STB (R105). -/
  | stb (x : Iss) (d a : BitVec 6) (i : BitVec 9)
  /-- STH (R105). -/
  | sth (x : Iss) (d a : BitVec 6) (i : BitVec 9)
  /-- STW (R105). -/
  | stw (x : Iss) (d a : BitVec 6) (i : BitVec 9)
  /-- STD (R105). -/
  | std (x : Iss) (d a : BitVec 6) (i : BitVec 9)
  /-- VLD (R114). -/
  | vld (x : Iss) (v : BitVec 4) (a : BitVec 6) (i : BitVec 11)
  /-- VST (R114). -/
  | vst (x : Iss) (v : BitVec 4) (a : BitVec 6) (i : BitVec 11)
  /-- VXACC (R115). -/
  | vxacc (x : Iss) (v : BitVec 4) (a : BitVec 6) (i : BitVec 11)
  /-- LDL (R150). -/
  | ldl (x : Iss) (d a : BitVec 6) (i : BitVec 9)
  /-- STC (R150). -/
  | stc (x : Iss) (d a b : BitVec 6) (fn : BitVec 3)
  /-- VLOG (R106). -/
  | vlog (x : Iss) (d a b k : BitVec 4) (fn : BitVec 5)
  /-- VADD (R106). -/
  | vadd (x : Iss) (d a b : BitVec 4) (fn : BitVec 5)
  /-- VSHUF (R106). -/
  | vshuf (x : Iss) (d a b k : BitVec 4) (fn : BitVec 5)
  /-- VBREV (R106). -/
  | vbrev (x : Iss) (d a : BitVec 4) (fn : BitVec 5)
  /-- VCLMUL (R126). -/
  | vclmul (x : Iss) (d a b : BitVec 4) (fn : BitVec 5)
  /-- VGFMUL (R127). -/
  | vgfmul (x : Iss) (d a b : BitVec 4) (fn : BitVec 5)
  /-- VGFX (R128). -/
  | vgfx (x : Iss) (d a : BitVec 4) (fn : BitVec 5)
  /-- VMOVG (R105). -/
  | vmovg (x : Iss) (v : BitVec 4) (g : BitVec 6) (ln : BitVec 2)
  /-- VINSG (R105). -/
  | vinsg (x : Iss) (v : BitVec 4) (g : BitVec 6) (ln : BitVec 2)
  /-- VSPLAT (R105). -/
  | vsplat (x : Iss) (v : BitVec 4) (g : BitVec 6)
  /-- SPUSH (R117). -/
  | spush (x : Iss) (v port : BitVec 4) (pq : BitVec 3) (lost : List Loss)
  /-- SPOP (R117). -/
  | spop (x : Iss) (v port : BitVec 4) (pq : BitVec 3) (lost : List Loss)
  /-- SSTAT_READY (R120). -/
  | sstatReady (x : Iss) (g : BitVec 6) (port : BitVec 4)
  /-- SSTAT_ROOM (R120). -/
  | sstatRoom (x : Iss) (g : BitVec 6) (port : BitVec 4)
  /-- POST_READ (R390). -/
  | postRead (x : Iss) (v : BitVec 4) (pq : BitVec 3)
  /-- POST_PROGRAM (R391). -/
  | postProgram (x : Iss) (v : BitVec 4) (pq : BitVec 3)
  /-- POST_ERASE (R391). -/
  | postErase (x : Iss) (v : BitVec 4) (pq : BitVec 3)
  /-- POST_TEMPERATURE_READ (R404). -/
  | postTemperatureRead (x : Iss) (v : BitVec 4) (pq : BitVec 3)
  /-- POST_RAW_DIAGNOSTIC_READ (R389). -/
  | postRawDiagnosticRead (x : Iss) (v : BitVec 4) (pq : BitVec 3)
  /-- LOCK_ACQUIRE (R306). -/
  | lockAcquire (x : Iss) (v : BitVec 4) (pq : BitVec 3) (copies : BitVec 2)
  /-- LOCK_RELEASE (R306). -/
  | lockRelease (x : Iss) (v : BitVec 4) (pq : BitVec 3)
  /-- ABORT_MARK (R310). -/
  | abortMark (x : Iss) (v : BitVec 4) (pq : BitVec 3)
  /-- LOCK_RESULT (R119). -/
  | lockResult (n : BitVec 6)
  /-- LOCK_GRANT (R303). -/
  | lockGrant
  /-- CIN_ENCRYPT (R437). -/
  | cinEncrypt (x : Iss) (v : BitVec 4) (pq : BitVec 3) (lost : List Loss)
  /-- CIN_DECRYPT (R437). -/
  | cinDecrypt (x : Iss) (v : BitVec 4) (pq : BitVec 3) (lost : List Loss)
  /-- CIPHER_UNIT_READY (R436). -/
  | cipherUnitReady (k : BitVec 6) (differ : Bool)
  /-- DCMD_READ (R122). -/
  | dcmdRead (x : Iss) (v : BitVec 4) (pq : BitVec 3) (lost : List Loss)
  /-- DCMD_WRITE (R122). -/
  | dcmdWrite (x : Iss) (v : BitVec 4) (pq : BitVec 3) (lost : List Loss)
  /-- DRAM_READ_UNIT_READY (R155). -/
  | dramReadUnitReady (n : BitVec 6) (ecc : Ecc)
  /-- TXF_ROCEV2_PACKET (R252). -/
  | txfRocev2Packet (x : Iss) (v : BitVec 4) (pq : BitVec 3) (lost : List Loss)
  /-- TXF_TCP_SEGMENT (R252). -/
  | txfTcpSegment (x : Iss) (v : BitVec 4) (pq : BitVec 3) (lost : List Loss)
  /-- TXF_DEVICE_FRAME (R252). -/
  | txfDeviceFrame (x : Iss) (v : BitVec 4) (pq : BitVec 3) (lost : List Loss)
  /-- FRAME_TRANSMIT (R255). -/
  | frameTransmit (path : BitVec 5)
  /-- POUT_PLANE_PAGE (R398). -/
  | poutPlanePage (x : Iss) (v : BitVec 4) (pq : BitVec 3) (lost : List Loss)
  /-- EVENT_ENTRY (R124). -/
  | eventEntry (n : BitVec 6)
  /-- BR (R107). -/
  | br (x : Iss) (off : BitVec 21)
  /-- BRL (R107). -/
  | brl (x : Iss) (off : BitVec 21)
  /-- BRI (R108). -/
  | bri (x : Iss) (a : BitVec 6)
  /-- END (R109). -/
  | endOp (x : Iss)
  /-- MFSR (R140). -/
  | mfsr (x : Iss) (d : BitVec 6) (sn : BitVec 9)
  /-- MTSR (R140). -/
  | mtsr (x : Iss) (sn : BitVec 9) (a : BitVec 6)
  /-- SYSC (R144). -/
  | sysc (x : Iss) (sn : BitVec 9)
  /-- RFT (R145). -/
  | rft (x : Iss)
  /-- CACHE_FENCE (R149). -/
  | cacheFence (x : Iss) (a : BitVec 6)
  /-- CACHE_INVALIDATE_ICACHE (R149). -/
  | cacheInvalidateIcache (x : Iss) (a : BitVec 6)
  /-- CACHE_CLEAN (R149). -/
  | cacheClean (x : Iss) (a : BitVec 6)
  /-- CACHE_CLEAN_INVALIDATE (R149). -/
  | cacheCleanInvalidate (x : Iss) (a : BitVec 6)
  /-- CACHE_INVALIDATE_LINE (R149). -/
  | cacheInvalidateLine (x : Iss) (a : BitVec 6)
  /-- CACHE_INVALIDATE_ILINE (R149). -/
  | cacheInvalidateIline (x : Iss) (a : BitVec 6)
  /-- INTERRUPT_TAKEN (R147). -/
  | interruptTaken (n : BitVec 4)
  /-- CORE_WAKE (R527). -/
  | coreWake (n : BitVec 4)
  /-- SPINDLE_RESTART_REQUEST (R133). -/
  | spindleRestartRequest (n : BitVec 6)
  /-- CONTROL_REGISTER_WRITE (R13). -/
  | controlRegisterWrite (a : BitVec 40) (v : BitVec 32)
  /-- HIGH_WORD_LATCH (R86). -/
  | highWordLatch (a : BitVec 40)
  /-- CHECKER_VERDICT (R164). -/
  | checkerVerdict (stored : Bool)
  /-- REEL_MODE_REQUEST (R211). -/
  | reelModeRequest (m : BitVec 4)
  /-- REEL_MODE_CANCEL (R213). -/
  | reelModeCancel
  /-- REEL_HOLD_REQUEST (R204). -/
  | reelHoldRequest
  /-- SEQUENCER_STOP (R199). -/
  | sequencerStop (poisoned : Bool)
  /-- ACTIVATION_FIRST_COMMIT (R199). -/
  | activationFirstCommit (damaged : List (BitVec 32 × BitVec 64 × BitVec 32)) (members : List (BitVec 11 × BitVec 11))
  /-- ACKNOWLEDGMENT_TIMEOUT (R320). -/
  | acknowledgmentTimeout (conn : BitVec 16)
  /-- RECEIVER_LOCK (R223). -/
  | receiverLock (p : BitVec 3) (k : BitVec 2)
  /-- PMD_TRAINING_COMPLETE (R223). -/
  | pmdTrainingComplete (p : BitVec 3) (k : BitVec 2)
  /-- PCS_LOCK (R223). -/
  | pcsLock (p : BitVec 3) (k : BitVec 2) (inverted : BitVec 8) (reversed : Bool)
  /-- FEC_LOCK (R223). -/
  | fecLock (p : BitVec 3) (k : BitVec 2) (faults : Bool)
  /-- TRANSMIT_LANE_REVERSAL (R223). -/
  | transmitLaneReversal (p : BitVec 3) (k : BitVec 2)
  /-- BRING_UP_STEP_TIMEOUT (R225). -/
  | bringUpStepTimeout (p : BitVec 3) (k : BitVec 2)
  /-- LINK_LOST (R226). -/
  | linkLost (p : BitVec 3) (k : BitVec 2) (cause : BitVec 2) (unc : BitVec 16)
  /-- FRAME_RECEIVE (R227). -/
  | frameReceive (p : BitVec 3) (k : BitVec 2) (head : FrameHead) (len : BitVec 16) (tags : BitVec 2) (vid : BitVec 12) (pause bad cacheBad : Bool) (corr unc : BitVec 16)
  /-- CONNECTION_ENTRY_FILL (R234). -/
  | connectionEntryFill (conn : BitVec 16) (poisoned : Bool)
  /-- ROCE_SEND (R236). -/
  | roceSend (conn : BitVec 16) (op : BitVec 8) (q : BitVec 512) (data : List (BitVec 256)) (ecn : Bool)
  /-- RDMA_READ_RESPONSE (R236). -/
  | rdmaReadResponse (conn cid : BitVec 16) (op : BitVec 8) (data : List (BitVec 8)) (ecn : Bool)
  /-- ACKNOWLEDGE (R240). -/
  | acknowledge (conn : BitVec 16) (seq : BitVec 32) (nak ecn : Bool)
  /-- CNP_RECEIVE (R239). -/
  | cnpReceive (conn : BitVec 16)
  /-- REMOTE_ACCESS_REQUEST (R236). -/
  | remoteAccessRequest (conn : BitVec 16)
  /-- COMMUNICATION_MANAGEMENT_DATAGRAM (R237). -/
  | communicationManagementDatagram (sub : BitVec 5) (conn : BitVec 16) (peer : BitVec 48) (far : Peer) (mtu : BitVec 13) (ready : Bool)
  /-- LOCAL_ACK_TIMEOUT (R240). -/
  | localAckTimeout (conn : BitVec 16)
  /-- ICREQ (R241). -/
  | icreq (conn : BitVec 16) (pfv : BitVec 16) (hpda : BitVec 8) (maxr2t : BitVec 32) (hdgst ddgst : Bool)
  /-- CAPSULE_CMD (R241). -/
  | capsuleCmd (conn : BitVec 16) (typ : BitVec 8) (q : BitVec 512) (data : List (BitVec 256)) (hdBad ddBad : Bool)
  /-- H2C_DATA (R241). -/
  | h2cData (conn cid : BitVec 16) (off : BitVec 32) (data : List (BitVec 8)) (hdBad ddBad : Bool)
  /-- H2C_TERM_REQ (R241). -/
  | h2cTermReq (conn : BitVec 16)
  /-- TCP_SEGMENT (R244). -/
  | tcpSegment (sub : BitVec 5) (conn : BitVec 16) (peer : BitVec 48) (far : Peer) (port : BitVec 16) (syn fin rst data : Bool) (ack : BitVec 32) (window : BitVec 16) (opts : TcpOpts)
  /-- TCP_RETRANSMISSION_TIMEOUT (R244). -/
  | tcpRetransmissionTimeout (conn : BitVec 16)
  /-- PATH_MTU_MESSAGE (R244). -/
  | pathMtuMessage (conn : BitVec 16) (mtu : BitVec 16)
  /-- TLS_HANDSHAKE_RECORD (R247). -/
  | tlsHandshakeRecord (conn : BitVec 16) (hello : Option Hello)
  /-- TLS_HANDSHAKE_COMPLETE (R247). -/
  | tlsHandshakeComplete (conn : BitVec 16) (kTx kRx : BitVec 14) (ivTx ivRx : BitVec 96)
  /-- TLS_RECORD (R249). -/
  | tlsRecord (conn : BitVec 16) (rec_ : List (BitVec 8))
  /-- KEY_UPDATE (R251). -/
  | keyUpdate (conn : BitVec 16) (installed : Bool) (iv : BitVec 96)
  /-- KEY_UPDATE_SEND (R251). -/
  | keyUpdateSend (conn : BitVec 16) (iv : BitVec 96)
  /-- ARP_REQUEST (R260). -/
  | arpRequest (path : BitVec 5) (ip : BitVec 32) (mac : BitVec 48) (far : BitVec 32)
  /-- NEIGHBOR_SOLICITATION (R260). -/
  | neighborSolicitation (path : BitVec 5) (ip : BitVec 128) (mac : BitVec 48) (far : BitVec 128)
  /-- ECHO_REQUEST (R260). -/
  | echoRequest (path : BitVec 5) (v6 : Bool) (ip far : BitVec 128) (mac : BitVec 48) (body : List (BitVec 8))
  /-- PTP_MESSAGE (R261). -/
  | ptpMessage (path : BitVec 5) (isEvent : Bool)
  /-- COUNTER_CLEAR (R266). -/
  | counterClear (p : BitVec 3) (k : BitVec 2) (n : BitVec 3)
  /-- TRANSMIT_TIMESTAMP_READ (R267). -/
  | transmitTimestampRead (p : BitVec 3)
  /-- COMPLETION_POSTED (R284). -/
  | completionPosted (n : BitVec 6)
  /-- READ (R63). -/
  | read (conn cid : BitVec 16) (ranges : List (BitVec 64 × BitVec 32 × BitVec 32)) (sglBad : Bool)
  /-- WRITE (R288). -/
  | write (conn cid : BitVec 16) (ranges : List (BitVec 64 × BitVec 32 × BitVec 32)) (inCap sglBad : Bool)
  /-- WRITE_ZEROES (R278). -/
  | writeZeroes (conn cid : BitVec 16)
  /-- FLUSH (R291). -/
  | flush (conn cid : BitVec 16)
  /-- VERIFY (R278). -/
  | verify (conn cid : BitVec 16)
  /-- COPY (R307). -/
  | copy (conn cid : BitVec 16) (srcs : List (BitVec 64 × BitVec 17))
  /-- ZONE_APPEND (R295). -/
  | zoneAppend (conn cid : BitVec 16) (ranges : List (BitVec 64 × BitVec 32 × BitVec 32)) (inCap sglBad : Bool)
  /-- ZONE_OPEN (R292). -/
  | zoneOpen (conn cid : BitVec 16)
  /-- ZONE_CLOSE (R292). -/
  | zoneClose (conn cid : BitVec 16)
  /-- ZONE_FINISH (R341). -/
  | zoneFinish (conn cid : BitVec 16)
  /-- ZONE_RESET (R297). -/
  | zoneReset (conn cid : BitVec 16)
  /-- ZONE_OFFLINE (R292). -/
  | zoneOffline (conn cid : BitVec 16)
  /-- ZONE_MANAGEMENT_RECEIVE (R278). -/
  | zoneManagementReceive (conn cid : BitVec 16)
  /-- IO_MANAGEMENT_RECEIVE (R278). -/
  | ioManagementReceive (conn cid : BitVec 16)
  /-- IO_MANAGEMENT_SEND (R349). -/
  | ioManagementSend (conn cid : BitVec 16) (handles : List (BitVec 4))
  /-- GET_LOG_PAGE (R281). -/
  | getLogPage (conn cid : BitVec 16)
  /-- IDENTIFY (R279). -/
  | identify (conn cid : BitVec 16)
  /-- ABORT (R309). -/
  | abort (conn cid : BitVec 16)
  /-- SET_FEATURES (R280). -/
  | setFeatures (conn cid : BitVec 16)
  /-- GET_FEATURES (R280). -/
  | getFeatures (conn cid : BitVec 16)
  /-- ASYNCHRONOUS_EVENT_REQUEST (R278). -/
  | asynchronousEventRequest (conn cid : BitVec 16)
  /-- KEEP_ALIVE (R277). -/
  | keepAlive (conn cid : BitVec 16)
  /-- KEEP_ALIVE_TIMEOUT (R319). -/
  | keepAliveTimeout (v : BitVec 12)
  /-- SANITIZE (R435). -/
  | sanitize (conn cid : BitVec 16)
  /-- SANITIZE_SWEEP_END (R216). -/
  | sanitizeSweepEnd
  /-- FABRICS_CONNECT (R422). -/
  | fabricsConnect (conn cid : BitVec 16) (nqn : BitVec 4096) (cntlid : BitVec 16)
  /-- PROPERTY_SET (R319). -/
  | propertySet (conn cid : BitVec 16)
  /-- PROPERTY_GET (R278). -/
  | propertyGet (conn cid : BitVec 16)
  /-- FABRICS_DISCONNECT (R243). -/
  | fabricsDisconnect (conn cid : BitVec 16)
  /-- DEFERRED_COMMAND_RETRY (R63). -/
  | deferredCommandRetry (cls : BitVec 8)
  /-- ORDERED_COMMAND_RELEASE (R300). -/
  | orderedCommandRelease (conn cid : BitVec 16)
  /-- NAMESPACE_CREATE (R312). -/
  | namespaceCreate (k : BitVec 6)
  /-- NAMESPACE_DELETE (R311). -/
  | namespaceDelete (k : BitVec 6)
  /-- NAMESPACE_ATTACH (R434). -/
  | namespaceAttach (k : BitVec 6)
  /-- NAMESPACE_DETACH (R311). -/
  | namespaceDetach (k : BitVec 6)
  /-- INTERNAL_SANITIZE (R311). -/
  | internalSanitize (k : BitVec 6)
  /-- INTERNAL_GET_LOG_PAGE (R311). -/
  | internalGetLogPage (k : BitVec 6)
  /-- TASK_GO (R316). -/
  | taskGo (k : BitVec 6) (chain : Bool)
  /-- TASK_CANCEL (R314). -/
  | taskCancel (k : BitVec 6)
  /-- TASK_COMMAND_COMPLETE (R318). -/
  | taskCommandComplete (k : BitVec 6)
  /-- TASK_DONE_CLEAR (R315). -/
  | taskDoneClear (k : BitVec 6)
  /-- ERASE_COMPLETE (R394). -/
  | eraseComplete (d : BitVec 11) (ok : Bool)
  /-- PROGRAM_COMPLETE (R396). -/
  | programComplete (d : BitVec 11) (ok : Bool)
  /-- HARD_DECODE_COMPLETE (R400). -/
  | hardDecodeComplete (d : BitVec 11) (plane : BitVec 3) (ok : Bool) (errs : BitVec 16)
  /-- SOFT_DECODE_COMPLETE (R402). -/
  | softDecodeComplete (d : BitVec 11) (plane : BitVec 3) (ok : Bool) (errs : BitVec 16)
  /-- TEMPERATURE_READ_COMPLETE (R404). -/
  | temperatureReadComplete (d : BitVec 11) (t : BitVec 8)
  /-- DIE_READY_TIMEOUT (R405). -/
  | dieReadyTimeout (d : BitVec 11)
  /-- DIE_RESET_COMPLETE (R405). -/
  | dieResetComplete (d : BitVec 11) (result : BitVec 2)
  /-- DIE_ID_CHECK (R405). -/
  | dieIdCheck (d : BitVec 11) (ident : BitVec 64)
  /-- BUS_TIMEOUT (R406). -/
  | busTimeout (c : BitVec 7)
  /-- BRING_UP_START (R381). -/
  | bringUpStart (c : BitVec 7)
  /-- PIN_TEST_COMPLETE (R382). -/
  | pinTestComplete (c : BitVec 7) (kind : BitVec 4) (a b : BitVec 8)
  /-- TARGET_IDENTIFICATION_COMPLETE (R383). -/
  | targetIdentificationComplete (c : BitVec 7) (found differ invalid ext : BitVec 16) (toggle : Bool) (ident : BitVec 64) (fig : DieFig) (bad : List (BitVec 4 × BitVec 11))
  /-- TRAINING_ATTEMPT_COMPLETE (R384). -/
  | trainingAttemptComplete (c : BitVec 7) (ok : Bool) (centres : BitVec 48) (dqs re : BitVec 6) (margin : BitVec 8)
  /-- CHANNEL_FENCE (R386). -/
  | channelFence (c : BitVec 7)
  /-- DESKEW_CHECK (R388). -/
  | deskewCheck (c : BitVec 7) (margin : BitVec 8) (drift : Bool) (centres : BitVec 48)
  /-- POOL_FOLD (R346). -/
  | poolFold (g : BitVec 8)
  /-- RECLAIM (R350). -/
  | reclaim (n : BitVec 32) (h : BitVec 4)
  /-- MEMBER_RELOCATION (R357). -/
  | memberRelocation
  /-- RELOCATION_COMMIT (R358). -/
  | relocationCommit
  /-- REFRESH_AGE_EXPIRY (R356). -/
  | refreshAgeExpiry (d : BitVec 11) (b : BitVec 11)
  /-- REBUILD_COMPLETE (R355). -/
  | rebuildComplete
  /-- TABLE_CHECKPOINT (R371). -/
  | tableCheckpoint
  /-- VIRTUAL_CONTROLLER_CREATE (R423). -/
  | virtualControllerCreate (cls : BitVec 8)
  /-- VIRTUAL_CONTROLLER_DELETE (R423). -/
  | virtualControllerDelete
  /-- VIRTUAL_CONTROLLER_DELETED (R423). -/
  | virtualControllerDeleted (v : BitVec 12)
  /-- VIRTUAL_CONTROLLER_BIND (R423). -/
  | virtualControllerBind (cls : BitVec 8)
  /-- KEY_LOAD (R430). -/
  | keyLoad (use : BitVec 4) (limit : BitVec 6)
  /-- KEY_GENERATE (R430). -/
  | keyGenerate (use : BitVec 4) (limit : BitVec 6)
  /-- KEY_ZEROIZE (R430). -/
  | keyZeroize (use : BitVec 4) (limit : BitVec 6)
  /-- KEY_COPY (R430). -/
  | keyCopy (use : BitVec 4) (limit : BitVec 6)
  /-- KEY_MOVE (R430). -/
  | keyMove (use : BitVec 4) (limit : BitVec 6)
  /-- KEY_WRAP (R430). -/
  | keyWrap (use : BitVec 4) (limit : BitVec 6)
  /-- KEY_UNWRAP (R430). -/
  | keyUnwrap (use : BitVec 4) (limit : BitVec 6)
  /-- RANDOM_GENERATOR_FAILURE (R460). -/
  | randomGeneratorFailure
  /-- DIRTY_ACKNOWLEDGMENT (R451). -/
  | dirtyAcknowledgment (v : BitVec 12)
  /-- REFRESH_PERIOD_START (R475). -/
  | refreshPeriodStart (n : BitVec 2)
  /-- SELF_TIMED_REPAIR (R474). -/
  | selfTimedRepair (n : BitVec 2) (training : Bool) (window temp : BitVec 8)
  /-- CONTROL_PORT_REQUEST (R468). -/
  | controlPortRequest (n : BitVec 2) (code : BitVec 3) (who : BitVec 4) (off : BitVec 35) (len : BitVec 10) (data : Option (List (BitVec 8))) (ecc : Ecc)
  /-- ECC_WRITE_BACK (R481). -/
  | eccWriteBack (n : BitVec 2) (ecc : Ecc)
  /-- MERGE_DRAIN (R484). -/
  | mergeDrain (n : BitVec 2) (ecc : Ecc)
  /-- CORE_RUN (R512). -/
  | coreRun (n : BitVec 4)
  /-- CORE_STOP (R512). -/
  | coreStop (n : BitVec 4)
  /-- INTERRUPT_LINE_CHANGE (R521). -/
  | interruptLineChange (k : BitVec 10)
  /-- SET_PENDING (R521). -/
  | setPending (w : BitVec 5) (v : BitVec 32)
  /-- CLEAR_PENDING (R521). -/
  | clearPending (w : BitVec 5) (v : BitVec 32)
  /-- CLAIM (R523). -/
  | claim (t : BitVec 4)
  /-- INTERRUPT_COMPLETE (R523). -/
  | interruptComplete (t : BitVec 4) (k : BitVec 10)
  /-- HOLD_OFF_END (R526). -/
  | holdOffEnd (g : BitVec 6)
  /-- WATCHER_INPUT (R530). -/
  | watcherInput (n : BitVec 5) (asserted : Bool)
  /-- WATCHER_SOFTWARE_INPUT (R530). -/
  | watcherSoftwareInput (v : BitVec 4)
  /-- WATCHDOG_KICK (R531). -/
  | watchdogKick (n : BitVec 4)
  /-- WATCHDOG_EXPIRY (R531). -/
  | watchdogExpiry (n : BitVec 4)
  /-- DMA_GO (R535). -/
  | dmaGo (n : BitVec 4) (chain : Bool)
  /-- DMA_CANCEL (R537). -/
  | dmaCancel (n : BitVec 4)
  /-- DMA_DESCRIPTOR_COMPLETE (R533). -/
  | dmaDescriptorComplete (n : BitVec 4)
  /-- DMA_ERROR_CLEAR (R538). -/
  | dmaErrorClear (n : BitVec 4)
  /-- BAC_PROGRAM_PAGE (R543). -/
  | bacProgramPage
  /-- BAC_ERASE_SECTOR (R541). -/
  | bacEraseSector
  /-- BAC_ERASE_BANK (R541). -/
  | bacEraseBank
  /-- BAC_OPERATION_COMPLETE (R541). -/
  | bacOperationComplete (ok : Bool)
  /-- TILOST_SESSION_OPEN (R550). -/
  | tilostSessionOpen (cert : BitVec 384)
  /-- TILOST_SESSION_CLOSE (R551). -/
  | tilostSessionClose (sess : BitVec 2) (w : CloseWhy)
  /-- STATUS (R552). -/
  | status (sess : BitVec 2) (ident : BitVec 32)
  /-- EVENT_READ (R552). -/
  | eventRead (sess : BitVec 2) (ident first count : BitVec 32)
  /-- EVENT_RELEASE (R552). -/
  | eventRelease (sess : BitVec 2) (ident x : BitVec 32)
  /-- SUBSCRIBE (R554). -/
  | subscribe (sess : BitVec 2) (ident mask : BitVec 32)
  /-- IMAGE_LOAD_BEGIN (R552). -/
  | imageLoadBegin (sess : BitVec 2) (ident : BitVec 32) (len : BitVec 64)
  /-- IMAGE_DATA (R552). -/
  | imageData (sess : BitVec 2) (ident : BitVec 32) (off : BitVec 64) (bytes : List (BitVec 8))
  /-- IMAGE_LOAD_END (R196). -/
  | imageLoadEnd (sess : BitVec 2) (ident : BitVec 32) (x : ImageRest)
  /-- ACTIVATE (R198). -/
  | activate (sess : BitVec 2) (ident : BitVec 32)
  /-- RAISE_FLOOR (R195). -/
  | raiseFloor (sess : BitVec 2) (ident : BitVec 32) (v : BitVec 16)
  /-- MODE_REQUEST (R552). -/
  | modeRequest (sess : BitVec 2) (ident mode : BitVec 32)
  /-- SPAN_SWITCH (R605). -/
  | spanSwitch (sess : BitVec 2) (ident : BitVec 32) (mode : BitVec 32) (t : BitVec 64)
  /-- SPAN_SWITCH_TIME (R605). -/
  | spanSwitchTime
  /-- KEY_RING_RECORD (R194). -/
  | keyRingRecord (sess : BitVec 2) (ident : BitVec 32) (op : RingOp) (signer : BitVec 3) (signed : List (BitVec 8)) (r sg : BitVec 384)
  /-- BOARD_DESCRIPTION (R552). -/
  | boardDescription (sess : BitVec 2) (ident : BitVec 32) (ws : List (BitVec 32))
  /-- SPAN_CONFIGURATION_RECORD (R595). -/
  | spanConfigurationRecord (sess : BitVec 2) (ident : BitVec 32) (r : SpanRec)
  /-- CLEAR_RECORDS (R567). -/
  | clearRecords (sess : BitVec 2) (ident : BitVec 32)
  /-- REGISTER_READ (R552). -/
  | registerRead (sess : BitVec 2) (ident : BitVec 32) (a : BitVec 64) (count : BitVec 32)
  /-- REGISTER_WRITE (R552). -/
  | registerWrite (sess : BitVec 2) (ident : BitVec 32) (a : BitVec 64) (vs : List (BitVec 32))
  /-- INTERNAL_COMMAND (R552). -/
  | internalCommand (sess : BitVec 2) (ident : BitVec 32) (q : BitVec 512) (buf : List (BitVec 8))
  /-- VIRTUAL_CONTROLLER_OPERATION (R552). -/
  | virtualControllerOperation (sess : BitVec 2) (ident : BitVec 32) (op : BitVec 4) (cls : BitVec 8) (index : BitVec 12) (rcd : BitVec 512) (nqn : BitVec 4096)
  /-- KEY_OPERATION (R552). -/
  | keyOperation (sess : BitVec 2) (ident : BitVec 32) (op use : BitVec 4) (limit : BitVec 6) (slot : BitVec 14) (vc : BitVec 12) (dst : BitVec 14) (wrapped : BitVec 320)
  /-- DEVICE_RESET (R552). -/
  | deviceReset (sess : BitVec 2) (ident : BitVec 32)
  /-- DISCARD_FLUSH (R635). -/
  | discardFlush (sess : BitVec 2) (ident : BitVec 32) (seq : BitVec 32)
  /-- ESCALATION_WINDOW_END (R561). -/
  | escalationWindowEnd (g : BitVec 6)
  /-- REACTION_DEADLINE (R562). -/
  | reactionDeadline
  /-- REACTION_ACK (R562). -/
  | reactionAck (firmware : Bool)
  /-- REACTIONS_ENABLE (R673). -/
  | reactionsEnable
  /-- GROUP_CLEAR (R563). -/
  | groupClear (g : BitVec 6)
  /-- FAULT_INJECT (R577). -/
  | faultInject (c : BitVec 3) (g : BitVec 6)
  /-- FAULT_N_READ_BACK (R568). -/
  | faultNReadBack (high : Bool)
  /-- THERM_N_READ_BACK (R569). -/
  | thermNReadBack (high : Bool)
  /-- RECORD_WRITE (R572). -/
  | recordWrite (full : BitVec 4)
  /-- READ_INDEX_WRITE (R574). -/
  | readIndexWrite (x : BitVec 32)
  /-- SENSOR_SAMPLE (R580). -/
  | sensorSample (n : BitVec 5) (r : BitVec 8)
  /-- THROTTLING_END (R583). -/
  | throttlingEnd
  /-- FLASH_TEMPERATURE_ROUND (R584). -/
  | flashTemperatureRound
  /-- TEMPERATURE_AGE_EXPIRY (R583). -/
  | temperatureAgeExpiry (d : BitVec 11)
  /-- COMPARATOR_TRIP (R586). -/
  | comparatorTrip (n : BitVec 5)
  /-- THERMAL_RESTART (R589). -/
  | thermalRestart
  /-- HEARTBEAT (R597). -/
  | heartbeat (late : BitVec 16)
  /-- HEARTBEAT_RECEIVE (R596). -/
  | heartbeatReceive (b : Beat) (known : Bool)
  /-- SPAN_FENCE (R599). -/
  | spanFence
  /-- UNFENCE (R601). -/
  | unfence
  /-- SYNC_MESSAGE (R603). -/
  | syncMessage (ofs : BitVec 32) (base : BitVec 64)
  /-- SYNC_TIMEOUT (R603). -/
  | syncTimeout
  /-- SYNC_PULSE_DRIVE (R604). -/
  | syncPulseDrive
  /-- SYNC_PULSE (R604). -/
  | syncPulse (err ns : BitVec 32)
  /-- DIRECTORY_PROPOSAL (R607). -/
  | directoryProposal (nsid : BitVec 32) (ent : DirEnt)
  /-- DIRECTORY_ACKNOWLEDGE (R607). -/
  | directoryAcknowledge (m : BitVec 4)
  /-- DIRECTORY_TIMEOUT (R607). -/
  | directoryTimeout
  /-- POWER_UP (R613). -/
  | powerUp
  /-- VIN_LOW (R613). -/
  | vinLow (mv : BitVec 16)
  /-- INTERNAL_POWER_FAIL (R613). -/
  | internalPowerFail (mv : BitVec 16)
  /-- BROWN_OUT (R613). -/
  | brownOut
  /-- RAIL_OUT_OF_REGULATION (R615). -/
  | railOutOfRegulation (rail : BitVec 3) (mv : BitVec 16)
  /-- REFERENCE_CLOCK_CHECK (R616). -/
  | referenceClockCheck (bad : BitVec 7)
  /-- STATUS_FRAME (R617). -/
  | statusFrame
  /-- BOOT_STAGE_COMPLETE (R619). -/
  | bootStageComplete (b : BootIn)
  /-- BOOT_RETRY (R621). -/
  | bootRetry
  /-- WARM_RESET (R622). -/
  | warmReset (ns : BitVec 32)
  /-- SOFTWARE_RESET (R622). -/
  | softwareReset
  /-- POWER_FAIL (R625). -/
  | powerFail (ns : BitVec 32)
  /-- FLUSH_END (R626). -/
  | flushEnd (units : BitVec 32)
  /-- REPLAY_RETIRE (R638). -/
  | replayRetire
  /-- PPS_INPUT (R665). -/
  | ppsInput (ns : BitVec 32)
  /-- PPS_OUTPUT (R665). -/
  | ppsOutput (rise : Bool)
  /-- DIE_LINK_FLIT_ERROR (R18). -/
  | dieLinkFlitError (k : BitVec 3) (uncorrectable : Bool)
  /-- DIE_LINK_TRAINING_LOST (R18). -/
  | dieLinkTrainingLost (k : BitVec 3)
  /-- BYPASS (R666). -/
  | bypass
  /-- IDCODE (R666). -/
  | idcode
  /-- SAMPLE_PRELOAD (R666). -/
  | samplePreload
  /-- EXTEST (R666). -/
  | extest
  /-- RESET_N_RELEASE (R624). -/
  | resetNRelease
  /-- PWR_FAIL_N_RISE (R633). -/
  | pwrFailNRise
  /-- CONTROL_REGISTER_READ (R460). -/
  | controlRegisterRead (a : BitVec 40)
  /-- INVALID_COMMAND_OPCODE (R278). -/
  | invalidCommandOpcode (conn cid : BitVec 16)
  /-- UNKNOWN_REQUEST_TYPE (R553). -/
  | unknownRequestType (sess : BitVec 2) (ident : BitVec 32) (typ : BitVec 16)
  /-- RECEIVER_NOT_READY_RETRY (R240). -/
  | receiverNotReadyRetry (conn : BitVec 16) (ecn : Bool)
  /-- MANAGEMENT_LINK_CHANGE (R35). -/
  | managementLinkChange (up : Bool)
  deriving DecidableEq, Repr

end Sys2Proof
end

