-- ==== Sys2Proof/Decode.lean ====
section
/-! DEFINITION. The commands that a table word spells. The rows of this hardware's opcode table give no bits: a command reaches
the block as a write, a read, a message or an event, not as a word. (Instruction words of the spindles and of the distaff cores are
decoded in Machine/SlotWord.lean.) -/

namespace Sys2Proof

/-- The command a word of the table spells: none, for no row of the table gives bits. -/
def decodeTableWord (_nbits _w : Nat) : Option Instr := none

end Sys2Proof
end

