-- ==== Sys2Proof/Machine/Digest.lean ====
section
/-! DEFINITION. The standard functions that images and records are checked by: SHA-384 (FIPS 180-4), the verification of an ECDSA P-384
signature (FIPS 186-5), and CRC-32 (R179, R192, R193). PRESUMED: the spec names the standards and does not restate them, log entry 141. -/

namespace Sys2Proof.Machine

/-! ## SHA-384 -/

/-- The first `n` primes from `p` on, the newest first; fuel bounds the numbers looked at. -/
def primesFrom (n : Nat) : Nat → Nat → List Nat → List Nat
  | 0, _, l => l
  | f + 1, p, l => if l.length = n then l else primesFrom n f (p + 1) (if l.any (fun q => decide (p % q = 0)) then l else p :: l)

/-- The first 80 primes: the last of them is 409. -/
def shaPrimes : List Nat := (primesFrom 80 409 2 []).reverse

/-- The whole `k`-th root of `n`, found from its highest bit down. -/
def wholeRoot (k n : Nat) : Nat → Nat → Nat
  | 0, r => r
  | b + 1, r => wholeRoot k n b (if (r + 2 ^ b) ^ k ≤ n then r + 2 ^ b else r)

/-- The first 64 bits of the fraction of a prime's `k`-th root, as the standard defines its constants. -/
def rootFraction (k p : Nat) : BitVec 64 := BitVec.ofNat 64 (wholeRoot k (p * 2 ^ (64 * k)) 68 0)

/-- The initial hash value: square roots of the ninth to the sixteenth prime. -/
def shaInit : List (BitVec 64) := ((shaPrimes.drop 8).take 8).map (rootFraction 2)

/-- The round constants: cube roots of the first 80 primes. -/
def shaK : List (BitVec 64) := shaPrimes.map (rootFraction 3)

/-- The big-endian word that 8 bytes spell. -/
def beWord (l : List (BitVec 8)) : BitVec 64 := l.foldl (fun (w : BitVec 64) b => (w <<< 8) ||| b.setWidth 64) 0

/-- A byte string as words of 8 bytes; fuel is their number. -/
def beWords : Nat → List (BitVec 8) → List (BitVec 64)
  | 0, _ => []
  | n + 1, l => beWord (l.take 8) :: beWords n (l.drop 8)

/-- The XOR of a word's rotations to the right. -/
def turned (ks : List Nat) (w : BitVec 64) : BitVec 64 := ks.foldl (fun x k => x ^^^ w.rotateRight k) 0

/-- The schedule's next word from the words before it, the newest first. -/
def shaNext (w : List (BitVec 64)) : BitVec 64 :=
  let back := fun (k : Nat) => w.getD (k - 1) 0
  [back 16, turned [1, 8] (back 15) ^^^ (back 15 >>> 7), back 7, turned [19, 61] (back 2) ^^^ (back 2 >>> 6)].sum

/-- Extend a schedule by `n` words, the newest first. -/
def shaExtend : Nat → List (BitVec 64) → List (BitVec 64)
  | 0, w => w
  | n + 1, w => shaExtend n (shaNext w :: w)

/-- The two sequences that a block's rounds make, the newest first: the standard's a to d are the last four words of one, its e to h those of the
other. -/
abbrev ShaRows := List (BitVec 64) × List (BitVec 64)

/-- One round lengthens both sequences by a word. -/
def shaRound (v : ShaRows) (kw : BitVec 64) : ShaRows :=
  let up := fun (k : Nat) => v.1.getD k 0
  let low := fun (k : Nat) => v.2.getD k 0
  let pick := low 2 ^^^ (low 0 &&& (low 1 ^^^ low 2))
  let most := (up 0 &&& up 1) ||| (up 2 &&& (up 0 ||| up 1))
  let t := [low 3, kw, pick, turned [14, 18, 41] (low 0)].sum
  ((most + turned [28, 34, 39] (up 0) + t) :: v.1, (up 3 + t) :: v.2)

/-- One block of 128 bytes. -/
def shaBlock (h : List (BitVec 64)) (block : List (BitVec 8)) : List (BitVec 64) :=
  let w := (shaExtend 64 (beWords 16 block).reverse).reverse
  let v := (List.zipWith (· + ·) w shaK).foldl shaRound (h.take 4, h.drop 4)
  List.zipWith (· + ·) h (v.1.take 4 ++ v.2.take 4)

/-- The blocks of a padded message; fuel is their number. -/
def shaBlocks : Nat → List (BitVec 64) → List (BitVec 8) → List (BitVec 64)
  | 0, h, _ => h
  | n + 1, h, l => shaBlocks n (shaBlock h (l.take 128)) (l.drop 128)

/-- A number as `n` bytes, the most significant first. -/
def beBytes (n v : Nat) : List (BitVec 8) := (List.range n).map (fun k => BitVec.ofNat 8 (v / 256 ^ (n - 1 - k)))

/-- The number that bytes spell, the most significant first. -/
def beNat (l : List (BitVec 8)) : Nat := l.foldl (fun n b => 256 * n + b.toNat) 0

/-- A message with its padding and its length in bits. -/
def shaPad (m : List (BitVec 8)) : List (BitVec 8) :=
  m ++ [0x80] ++ List.replicate ((239 - m.length % 128) % 128) 0 ++ beBytes 16 (8 * m.length)

/-- SHA-384: 48 bytes. -/
def sha384 (m : List (BitVec 8)) : List (BitVec 8) :=
  let p := shaPad m
  ((shaBlocks (p.length / 128) shaInit p).map (fun w => beBytes 8 w.toNat)).flatten.take 48

/-! ## ECDSA P-384 -/

/-- The prime of the field. -/
def ecP : Nat := 2 ^ 384 - 2 ^ 128 - 2 ^ 96 + 2 ^ 32 - 1
/-- The order of the base point. -/
def ecN : Nat := 0xFFFFFFFFFFFFFFFFFFFFFFFFFFFFFFFFFFFFFFFFFFFFFFFFC7634D81F4372DDF581A0DB248B0A77AECEC196ACCC52973
/-- The constant of the curve y² = x³ − 3x + b. -/
def ecB : Nat := 0xB3312FA7E23EE7E4988E056BE3F82D19181D9C6EFE8141120314088F5013875AC656398D8A2ED19D2A85C8EDD3EC2AEF
/-- The base point. -/
def ecG : Nat × Nat :=
  (0xAA87CA22BE8B05378EB1C71EF320AD746E1D3B628BA79B9859F741E082542A385502F25DBF55296C3A545E3872760AB7,
   0x3617DE4A96262C6F5D9E98BF9292DC29F8F41DBD289A147CE9DA3113B5F0B8C00A60B1CE1D7E819D7A431D7C90EA0E5F)

/-- A power modulo m; fuel is the exponent's bits. -/
def powMod (m : Nat) : Nat → Nat → Nat → Nat
  | 0, _, _ => 1 % m
  | f + 1, b, e =>
    let r := powMod m f (b * b % m) (e / 2)
    if e % 2 = 1 then b * r % m else r

/-- The inverse modulo a prime of 384 bits. -/
def invMod (m a : Nat) : Nat := powMod m 384 (a % m) (m - 2)

/-- A point of the curve; none for the point at infinity. -/
abbrev EcPoint := Option (Nat × Nat)

/-- The third point on a line of slope l, mirrored. -/
def ecThird (l : Nat) (p q : Nat × Nat) : Nat × Nat :=
  let x := (l * l + 2 * ecP - p.1 - q.1) % ecP
  (x, (l * (p.1 + ecP - x) + ecP - p.2) % ecP)

/-- The sum of two points. -/
def ecAdd (p q : EcPoint) : EcPoint :=
  match p, q with
  | none, q => q
  | p, none => p
  | some a, some b =>
    if a.1 = b.1 then
      if (a.2 + b.2) % ecP = 0 then none
      else some (ecThird ((3 * a.1 * a.1 + ecP - 3) * invMod ecP (2 * a.2) % ecP) a b)
    else some (ecThird ((b.2 + ecP - a.2) * invMod ecP (b.1 + ecP - a.1) % ecP) a b)

/-- A multiple of a point; fuel is the factor's bits. -/
def ecMul : Nat → Nat → EcPoint → EcPoint
  | 0, _, _ => none
  | f + 1, k, p =>
    let r := ecMul f (k / 2) (ecAdd p p)
    if k % 2 = 1 then ecAdd p r else r

/-- A point lies on the curve. -/
def ecOn (q : Nat × Nat) : Bool :=
  q.1 < ecP && q.2 < ecP && (q.2 * q.2) % ecP = (q.1 * q.1 * q.1 + 3 * (ecP - q.1) + ecB) % ecP

/-- The signature (r, s) over a digest verifies under a key. -/
def ecdsaVerify (key : Nat × Nat) (digest : List (BitVec 8)) (r s : Nat) : Bool :=
  let w := invMod ecN s
  let z := beNat digest
  ecOn key && 1 ≤ r && r < ecN && 1 ≤ s && s < ecN &&
    (match ecAdd (ecMul 384 (z * w % ecN) (some ecG)) (ecMul 384 (r * w % ecN) (some key)) with
     | none => false
     | some p => p.1 % ecN = r)

/-! ## CRC-32 -/

/-- One bit of a reflected CRC of 32 bits with some polynomial. -/
def crcBit (poly c : BitVec 32) : BitVec 32 := (c >>> 1) ^^^ (if c.getLsbD 0 then poly else 0)

/-- One byte. -/
def crcByte (poly c : BitVec 32) (b : BitVec 8) : BitVec 32 :=
  (List.range 8).foldl (fun c _ => crcBit poly c) (c ^^^ b.setWidth 32)

/-- A reflected CRC of a byte string. -/
def crcOf (poly : BitVec 32) (m : List (BitVec 8)) : BitVec 32 := ~~~ (m.foldl (crcByte poly) (BitVec.allOnes 32))

/-- CRC-32 of a byte string, which is the FCS of a frame too. -/
def crc32 (m : List (BitVec 8)) : BitVec 32 := crcOf 0xEDB88320 m

/-- CRC-32C of a byte string (R242). -/
def crc32c (m : List (BitVec 8)) : BitVec 32 := crcOf 0x82F63B78 m

end Sys2Proof.Machine
end

