-- ==== Sys2Proof/Config.lean ====
section
/-! DEFINITION. What an implementation fixes and what the spec leaves open. Every constant here is opaque: it has no
body, so no proof can see a value of it, and a claim about the machine holds whatever it is. -/

namespace Sys2Proof.Config

/-- SYS_ID.STEP (R33) is per silicon: the stepping less 1. DESIGN CHOICE, log entry 128. -/
opaque stepLessOne : BitVec 7

/-- The manufacturer identity of IDCODE (R666). -/
opaque manufacturer : BitVec 11

/-- The management port's MAC address (R555). -/
opaque mgmtMac : BitVec 48

/-- A free value, by draw number. -/
opaque freeBits : Nat → BitVec 256

/-- A free truth value, by draw number. -/
opaque freeBool : Nat → Bool

/-- Nanoseconds that pass before the n-th time reading (R571): the model has no clock of wall time. -/
opaque elapsed : Nat → BitVec 32

/-- The random generator of the key store (R430), by draw number. DESIGN CHOICE, log entry 129. -/
opaque random256 : Nat → BitVec 256

/-- The device key's wrapping of a key (R430): 40 bytes with a 64-bit integrity check. -/
opaque wrapKey : BitVec 256 → BitVec 320

/-- What the device key unwraps 40 bytes to; none on a failed integrity check (R430). -/
opaque unwrapKey : BitVec 320 → Option (BitVec 256)

/-- Zeluk's image key as the device is made with it (R193): the coordinates of its point. DEDUCED, log entry 147. -/
opaque zelukKeyX : BitVec 384

/-- The other coordinate. DEDUCED, log entry 147. -/
opaque zelukKeyY : BitVec 384

/-- The SHA-384 hash of Zeluk's key that is fused into the device (R193). -/
opaque fusedHash : BitVec 384

end Sys2Proof.Config
end

