-- ==== Sys2Proof/Machine/BlocksControl.lean ====
section
/-! DEFINITION. The state of the control complex, as plain data: event recorder, fault collection, thermal
management, interrupt controller, watcher, memory protection, DMA, boot array controller and cores
(chapters 12 and 13). A field's default is its value at reset; where the spec gives none, a log entry names it. -/

namespace Sys2Proof.Machine

/-! ## Event recorder (R37, R570–R576) -/

/-- One 32-byte event record (R37). -/
structure EventRec where
  code  : BitVec 16 := 0
  flags : BitVec 16 := 0
  time  : BitVec 64 := 0
  w0    : BitVec 32 := 0
  w1    : BitVec 32 := 0
  w2    : BitVec 32 := 0
  w3    : BitVec 32 := 0
  w4    : BitVec 32 := 0
  deriving DecidableEq, Repr

/-- The recorder (R570–R575): the slots, the registers, the 64-entry input queue and the mark that the next record
written follows a drop. -/
structure Evr where
  recs  : SMap EventRec := []
  widx  : BitVec 32 := 0
  ridx  : BitVec 32 := 0
  stop  : Bool := false
  badw  : Bool := false
  full  : BitVec 16 := 0
  qdrop : BitVec 16 := 0
  thr   : BitVec 17 := 49152
  cur   : BitVec 16 := 0
  queue : List EventRec := []
  loss  : Bool := false
  deriving DecidableEq, Repr

/-! ## Fault collection (R557–R578) -/

/-- One fault group: FCR_GCFG, FCR_GSTAT and whether its counting window is open (R561, R577). -/
structure FcrGroup where
  n       : BitVec 8 := 16
  esc     : BitVec 2 := 3
  winMs   : BitVec 16 := 1000
  cls     : BitVec 3 := 0
  wcount  : BitVec 8 := 0
  total   : BitVec 16 := 0
  winOpen : Bool := false
  deriving DecidableEq, Repr

/-- The fault collection unit (R562–R577). `selfTest` is 1 once the self-test of R494 has passed (R568). -/
structure Fcr where
  groups     : SMap FcrGroup := []
  grave      : Bool := false
  reactOpen  : Bool := false
  reactCount : BitVec 8 := 0
  reactGroup : BitVec 6 := 0
  reactSince : BitVec 64 := 0
  ren        : Bool := false
  reactMs    : BitVec 16 := 100
  more       : BitVec 8 := 0
  steps      : BitVec 4 := 0
  graveCause : BitVec 2 := 0
  graveGroup : BitVec 6 := 0
  injClass   : BitVec 3 := 0
  injGroup   : BitVec 6 := 0
  selfTest   : Bool := false
  fpin       : Bool := false
  fpinBad    : Nat := 0
  tpin       : Bool := false
  tpinBad    : Nat := 0
  deriving DecidableEq, Repr

/-! ## Thermal management (R579–R592) -/

/-- One junction sensor: THM_SENS, its own last reading and its count of disagreeing samples (R580, R581). -/
structure Sensor where
  valid    : Bool := false
  faulty   : Bool := false
  fast     : Bool := false
  temp     : BitVec 8 := 0
  raw      : BitVec 8 := 0
  disagree : Nat := 0
  deriving DecidableEq, Repr

/-- Thermal management (R583–R591). -/
structure Thm where
  throt     : Bool := false
  crit      : Bool := false
  warn      : Bool := false
  hot       : BitVec 8 := 0
  comp      : BitVec 8 := 0
  cfgFlash  : BitVec 8 := 80
  cfgThrot  : BitVec 8 := 95
  flashDie  : BitVec 11 := 0
  flashTemp : BitVec 8 := 0
  irq       : BitVec 6 := 0
  sens      : SMap Sensor := []
  hanks     : Nat := 0
  cool      : Nat := 0
  reported  : SMap Bool := []
  shutdown  : Bool := false
  tripped   : BitVec 8 := 0
  deriving DecidableEq, Repr

/-! ## Interrupt controller and watcher (R520–R531) -/

/-- One interrupt source (R520, R521, R524). `line` is the line as last sampled; `forced` is a level source's PEND
set by INTC_SETP; `claimT` is the target that claimed it; `edgeReq` an EDGE change waiting for completion. -/
structure IntSrc where
  pend    : Bool := false
  active  : Bool := false
  wake    : Bool := false
  edge    : Bool := false
  group   : BitVec 6 := 0
  gen     : Bool := false
  target  : BitVec 4 := 0
  prio    : BitVec 4 := 0
  line    : Bool := false
  forced  : Bool := false
  claimT  : BitVec 4 := 0
  edgeReq : Option Bool := none
  deriving DecidableEq, Repr

/-- One hold-off group: TIME and the running timer; RUN is 1 while the timer is not 0 (R525, R526). -/
structure HoldOff where
  time  : BitVec 16 := 0
  timer : BitVec 16 := 0
  deriving DecidableEq, Repr

/-- The interrupt controller (R520–R526). -/
structure Intc where
  src  : SMap IntSrc := []
  thr  : SMap (BitVec 4) := []
  hold : SMap HoldOff := []
  deriving DecidableEq, Repr

/-- The always-on watcher (R529–R531). `input` holds the inputs asserted now, `kicked`
the model's time of each watchdog's last kick or period write. -/
structure Watch where
  stat  : BitVec 32 := 0
  en    : BitVec 32 := 0x00FF0000
  esc   : BitVec 32 := 0x00FF0000
  input : BitVec 32 := 0
  wdp   : SMap (BitVec 16) := []
  kicked : SMap (BitVec 64) := []
  deriving DecidableEq, Repr

/-! ## Memory protection (R514–R519) -/

/-- One region (R514). Bits 31:16 of `mask` are DMA channels, bits 15:0 cores. -/
structure Region where
  base  : BitVec 28 := 0
  limit : BitVec 28 := 0
  valid : Bool := false
  c     : Bool := false
  x     : Bool := false
  w     : Bool := false
  r     : Bool := false
  mask  : BitVec 32 := 0
  deriving DecidableEq, Repr

/-- The memory protection block (R514–R519). -/
structure Memp where
  regions : SMap Region := []
  valid   : Bool := false
  kind    : BitVec 2 := 0
  master  : BitVec 4 := 0
  vaddr   : BitVec 40 := 0
  vpend   : BitVec 32 := 0
  deriving DecidableEq, Repr

/-! ## DMA (R532–R538) -/

/-- A 64-byte DMA descriptor as read (R532); `addr` is where it was read, 0 for a single transfer, and `rest` says that its bytes
36–63 are 0. -/
structure DmaDesc where
  addr : BitVec 40 := 0
  src  : BitVec 64 := 0
  dst  : BitVec 64 := 0
  len  : BitVec 32 := 0
  ctl  : BitVec 32 := 0
  next : BitVec 64 := 0
  rest : Bool := true
  deriving DecidableEq, Repr

/-- One DMA channel (R535–R538). `run` is the descriptor in progress and `moved` says that its data has moved and its
completion is to come. -/
structure DmaCh where
  src    : BitVec 40 := 0
  dst    : BitVec 40 := 0
  len    : BitVec 32 := 0
  flags  : BitVec 32 := 0
  chain  : BitVec 40 := 0
  last   : BitVec 40 := 0
  eaddr  : BitVec 40 := 0
  remain : BitVec 32 := 0
  cnt    : BitVec 32 := 0
  chained : Bool := false
  cancel : Bool := false
  state  : BitVec 2 := 0
  busyw  : Bool := false
  err    : Bool := false
  cause  : BitVec 4 := 0
  dir    : Bool := false
  run    : Option DmaDesc := none
  moved  : Bool := false
  deriving DecidableEq, Repr

/-! ## Boot array (R539–R548) -/

/-- The operation in progress in the boot array (R541). -/
structure BacOp where
  op   : BitVec 4 := 0
  addr : BitVec 26 := 0
  mask : BitVec 16 := 0
  data : SMap (BitVec 32) := []
  deriving DecidableEq, Repr

/-- The boot array and its controller (R539–R548). `arr` lists the bytes that differ from 0xFF, `marks` the code
words that carry the written mark, `bad` the uncorrectable code words, `lost` those whose content is undefined. -/
structure Bac where
  op     : BitVec 4 := 0
  addr   : BitVec 26 := 0
  mask   : BitVec 16 := 0
  busy   : Bool := false
  busyw  : Bool := false
  bank   : BitVec 2 := 0
  done   : Bool := false
  result : BitVec 3 := 0
  wp     : BitVec 4 := 1
  corr   : BitVec 16 := 0
  uncorr : BitVec 8 := 0
  uaddr  : BitVec 26 := 0
  pbuf   : SMap (BitVec 32) := []
  arr    : SMap (BitVec 8) := []
  marks  : SMap Bool := []
  bad    : SMap Bool := []
  cur    : Option BacOp := none
  told   : Bool := false
  deriving DecidableEq, Repr

/-! ## Distaff cores (R141–R150, R511–R513) -/

/-- One distaff core: the registers of R94 and R140, the fetch sequence a(t), a(t+1), a(t+2) of R107, the LDL
reservation (the 64-byte granule's number), for each WAIT that has issued the bundles left before it sleeps (R147), the DST cycle at
which each register's result lands (R101, R141: g registers from 0, v from 64, p from 128), the double-trap mark
of SYS_CORE_STAT, and the caches of R148: `dirty` holds, for each data-cache line written and not yet cleaned, the
bytes memory held before, `dbad` which of its two units were poisoned; `bline` the boot-array lines held; `iline` the instruction-cache lines held. -/
structure CoreSt where
  running  : Bool := false
  sleeping : Bool := false
  g        : SMap (BitVec 64) := []
  v        : SMap (BitVec 256) := []
  p        : SMap Bool := []
  priv     : Bool := false
  ie       : Bool := false
  ppriv    : Bool := false
  pie      : Bool := false
  intrap   : Bool := false
  tvec     : BitVec 64 := 0
  tcause   : BitVec 64 := 0
  tval     : BitVec 64 := 0
  tpc0     : BitVec 64 := 0
  tpc1     : BitVec 64 := 0
  tpc2     : BitVec 64 := 0
  scr      : SMap (BitVec 64) := []
  a0       : BitVec 64 := 0
  a1       : BitVec 64 := 0
  a2       : BitVec 64 := 0
  cycles   : BitVec 64 := 0
  resv     : Option Nat := none
  waits    : List Nat := []
  due      : SMap Nat := []
  dtrap    : Bool := false
  dirty    : SMap (List (BitVec 8)) := []
  dbad     : SMap (BitVec 2) := []
  bline    : SMap (List (BitVec 8)) := []
  iline    : SMap (List (BitVec 8)) := []
  deriving DecidableEq, Repr

end Sys2Proof.Machine
end

