-- ==== Sys2Proof/Machine/BlocksFabric.lean ====
section
/-! DEFINITION. The state of the ports, the transport engine, the command and range-lock tables, the task register
sets, the NVMe controllers and the management port, as plain data (chapters 6, 7 and 12). A field's default is its
value at reset; where the spec gives none, a log entry names it. -/

namespace Sys2Proof.Machine

/-! ## Ports (R219–R230, R262–R268) -/

/-- One port. Counter k (R266) of sub-port s is at key 8s + k; `step` is a sub-port's bring-up step (0: not in
bring-up), `tried` whether it has reversed its transmit lanes once, `uncHank` its uncorrectable codewords this hank,
`unc64` and `drop` the conditions of sources 257 + 4p and 258 + 4p, `rx` and `share` the receive-buffer bytes used
and divided per class, `frames` the bytes of the frames in its receive buffer that no connection holds, oldest first (R229). -/
structure Port where
  vlanEn  : BitVec 4 := 0
  mode    : BitVec 2 := 3
  retry   : BitVec 8 := 0
  chg     : BitVec 4 := 0
  up      : BitVec 4 := 0
  step    : SMap Nat := []
  tried   : BitVec 4 := 0
  txRev   : Bool := false
  rxRev   : Bool := false
  txRevLock : Bool := false
  txPol   : BitVec 8 := 0
  rxPol   : BitVec 8 := 0
  vlan    : SMap (BitVec 12) := []
  cnt     : SMap (BitVec 64) := []
  txts    : BitVec 64 := 0
  txtsId  : BitVec 18 := 0
  txtsWait : Bool := false
  uncHank : SMap Nat := []
  unc64   : BitVec 4 := 0
  drop    : BitVec 4 := 0
  rx      : SMap Nat := []
  share   : SMap Nat := []
  frames  : List Nat := []
  deriving DecidableEq, Repr

/-- The addresses of one sub-port (R272). -/
structure SubAddr where
  mac : BitVec 48 := 0
  ip4 : BitVec 32 := 0
  ip6 : BitVec 128 := 0
  deriving DecidableEq, Repr

/-! ## Transport engine (R231–R259, R269–R274) -/

/-- Where the read data of a frame comes from (R256, R257): the namespace and the LBAs of the place it is of, the byte of the command's
transfer that they begin at, the byte of the place's message or PDU that the frame begins at, and how many bytes it carries. `serial` is the command's arrival number, `fin` marks the last PDU of the
command's data, `tseq`, `key` and `iv` protect the TLS record that carries it (R445). -/
structure FrameSrc where
  serial : Nat := 0
  nsid : BitVec 32 := 0
  lba  : Nat := 0
  cnt  : Nat := 0
  off  : Nat := 0
  at_  : Nat := 0
  len  : Nat := 0
  fin  : Bool := false
  tseq : BitVec 64 := 0
  key  : BitVec 256 := 0
  iv   : BitVec 96 := 0
  deriving DecidableEq, Repr

/-- A frame waiting in a transmit path (R252–R255): path 4p + s, kind (0 RoCEv2, 1 TCP, 2 device, 3 completion,
4 acknowledgment, 5 NAK, 6 CNP, 8 reply built by the device, 9 PDU built by the device, in `units`), connection, and descriptor. `data` is what
the spec states of the data a device answer carries, as (byte offset, bytes, value); DESIGN CHOICE, log entry 96. `seq` is the sequence number
of a frame sent `again` (R257); `inval` the key a completion invalidates (R286); `src` where read data comes from. `raw` is a frame whose bytes are
built when it is queued, untagged and without FCS, and `cls` the class in whose slots a frame of no connection leaves; `pushed` says that its units have crossed to its port already (R21). -/
structure TxFrame where
  path : BitVec 5 := 0
  kind : BitVec 4 := 0
  conn : Option (BitVec 16) := none
  desc : BitVec 256 := 0
  units : List (BitVec 256) := []
  cid  : Option (BitVec 16) := none
  seq  : BitVec 32 := 0
  ptp  : Option (BitVec 16) := none
  data : List (Nat × Nat × Nat) := []
  again : Bool := false
  inval : Option (BitVec 32) := none
  src  : Option FrameSrc := none
  raw  : List (BitVec 8) := []
  cls  : Nat := 0
  pushed : Bool := false
  deriving DecidableEq, Repr

/-- A retransmit record (R256): the sequence number, the command, the payload's bytes, and the frame: with its payload, or for read data with
where it comes from. `blocks` holds the blocks read again so far (R257), and `sacked` says that the peer has reported the segment received (R244). -/
structure RtxRec where
  seq   : BitVec 32 := 0
  cid   : Option (BitVec 16) := none
  off   : BitVec 64 := 0
  len   : BitVec 32 := 0
  tries : Nat := 0
  rnr   : Nat := 0
  last  : Bool := false
  frame : TxFrame := {}
  blocks : SMap (List (BitVec 8)) := []
  sacked : Bool := false
  deriving DecidableEq, Repr

/-- One connection-table entry (R232) with its transport state: `v6`, `ip`, `rport` and `dqp` are the peer's address, TCP port and queue pair,
`dscp` that of the connection's first frame, `ecn` whether TCP negotiated ECN (R255), `hpda` what the ICReq asks for (R241), `ivTx` and `ivRx`
the static IVs of TLS (R445), `pdu` the payload sent of a PDU that more segments follow (R253). `frames` are the frames in its port's receive
buffer, oldest first, as (class, bytes) (R229), `maxr2t` what the ICReq gives (R241), and `cwnd`, `ssth`, `dups` and `recover` the congestion
window, the slow-start threshold, the duplicate acknowledgments and the recovery point of TCP (R244). Of the peer's TCP options, `mss` is its segment
size, `wscale` its window scale, `sackOk` whether it permits SACK, `tsOk` and `tsPeer` whether timestamps are used and its last one (R244). `tlsVc`
is the controller that its ClientHello named, `osWait` counts its records that wait for the resident OS (R273), `recs` holds records that wait for
their slots or for a key, as (class, after a KeyUpdate, bytes) (R250, R251), `plain` the verified bytes that no PDU has been taken from (R249), and
`unb` how many of them had to wait for a key (R251). `cur` is the last frame that a spindle pushed of a message or PDU that goes on, without its
payload (R252, R256). `late` counts the frames it holds that waited for its entry, and `lateNow` says that the one last handled did (R234). -/
structure Conn where
  isOpen : Bool := false
  tcp    : Bool := false
  sub    : BitVec 5 := 0
  peer   : BitVec 48 := 0
  vc     : Option (BitVec 12) := none
  qid    : BitVec 16 := 0
  sqSize : Nat := 32
  icDone : Bool := false
  hdgst  : Bool := false
  ddgst  : Bool := false
  tls    : Bool := false
  hand   : Bool := false
  kTx    : BitVec 14 := 0
  kRx    : BitVec 14 := 0
  txSeq  : BitVec 64 := 0
  rxSeq  : BitVec 64 := 0
  keyWait : Bool := false
  kuSent : Bool := false
  held   : Nat := 0
  cached : Bool := false
  pinned : Bool := false
  mtu    : Nat := 1024
  ecnNs  : Option Nat := none
  ackDue : Nat := 0
  unack  : List RtxRec := []
  told   : Bool := false
  seqNo  : BitVec 32 := 0
  wnd    : Nat := 0
  port   : BitVec 16 := 0
  v6     : Bool := false
  ip     : BitVec 128 := 0
  rport  : BitVec 16 := 0
  dqp    : BitVec 24 := 0
  dscp   : BitVec 6 := 0
  ecn    : Bool := false
  hpda   : BitVec 8 := 0
  ivTx   : BitVec 96 := 0
  ivRx   : BitVec 96 := 0
  pdu    : List (BitVec 8) := []
  frames : List (Nat × Nat) := []
  maxr2t : BitVec 32 := 0
  cwnd   : Nat := 0
  ssth   : Nat := 0
  dups   : Nat := 0
  recover : Option (BitVec 32) := none
  mss    : Nat := 536
  wscale : Nat := 0
  sackOk : Bool := false
  tsOk   : Bool := false
  tsPeer : BitVec 32 := 0
  tlsVc  : Option (BitVec 12) := none
  osWait : Nat := 0
  recs   : List (Nat × Bool × List (BitVec 8)) := []
  plain  : List (BitVec 8) := []
  unb    : Nat := 0
  cur    : Option TxFrame := none
  late   : Nat := 0
  lateNow : Bool := false
  deriving DecidableEq, Repr

/-- A capsule held in its class share (R200, R321, R323): the spindle and the connection it is for, its RXQ units, and the bytes it takes of a
class's share of a port. -/
structure HeldCap where
  spindle : Nat := 0
  conn  : BitVec 16 := 0
  units : List (BitVec 256) := []
  port  : Nat := 0
  cls   : Nat := 0
  bytes : Nat := 0
  deriving DecidableEq, Repr

/-- The transport engine (R269–R273). `tlsWait`, `qp1` and `ptp` are what sources 289 to 291 report, `ptpAt` the time of the last PTP message
received (R261); `takes` is 1 while capsules are passed on (R320, R565), and `waitCaps` the capsules held. `wire` holds, for each path, the bytes of the frame last
sent, from destination address to FCS (R253). -/
structure Xpt where
  conns   : SMap Conn := []
  miss    : BitVec 16 := 0
  listen  : BitVec 16 := 4420
  addrs   : SMap SubAddr := []
  tlsWait : Nat := 0
  qp1     : Nat := 0
  ptp     : Nat := 0
  ptpAt   : BitVec 64 := 0
  tx      : List TxFrame := []
  takes   : Bool := true
  cnps    : BitVec 64 := 0
  wire    : SMap (List (BitVec 8)) := []
  waitCaps : List HeldCap := []
  deriving DecidableEq, Repr

/-! ## Command and range-lock tables (R284, R302–R310) -/

/-- Where an outstanding command stands. -/
inductive Phase where
  | received | waitLock | waitOrder | deferred | held | waitData | posted | staged | waiting | ended
  deriving DecidableEq, Repr

/-- One command-table entry (R284) with what the keystone keeps of the command. Internal commands carry their task
set in `cid` and `internal`. `order` numbers the commands of a submission queue and `predFrom` is where the predecessor
set of an ordered command begins (R300). `sqe` is the submission entry as received; `wait` what a Flush
waits for (zone key or reclaim-unit key, offset); `ru` the reclaim unit it writes; `charged` and `resv` the units and
staging bytes it was charged and reserved; `ranges` its keyed SGL ranges (address, R_Key, bytes); `srcs` a Copy's
source ranges; `locs` the places (reclaim unit × 2^32 + offset) that an FDP write's blocks take; `inCap` whether a write's data came in its capsule; `slots` the parse issue slots
of its class that have begun on its spindle since it arrived (R65), `late` whether it has been deferred, and `deferAt` the hank count at its
first deferral (R63). `got` counts the blocks of a read or of a Copy's sources that have come, `blocks` holds those of a Copy, and `rx` is the
write data received (R288). `asked` are the open requests for it, as (next byte, end), and
`nextAsk` the first byte not yet asked for (R289). `came` are the runs of its data that are staged, as (first, end) (R288, R296). `locks` lists its lock
entries; 65535 stands for a null request granted. `bad` says that an SGL descriptor of it cannot be used (R238), `fail` that some of its blocks
cannot be read (R283). -/
structure Cmd where
  conn     : BitVec 16 := 0
  cid      : BitVec 16 := 0
  internal : Bool := false
  opcode   : BitVec 8 := 0
  admin    : Bool := false
  cls      : BitVec 8 := 0
  vc       : Option (BitVec 12) := none
  nsid     : BitVec 32 := 0
  slba     : Nat := 0
  nlb      : Nat := 0
  zone     : Option Nat := none
  fua      : Bool := false
  ordered  : Bool := false
  order    : Nat := 0
  predFrom : Nat := 0
  phase    : Phase := .received
  waited   : Nat := 0
  arrival  : Nat := 0
  sent     : Bool := false
  left     : Nat := 0
  status   : BitVec 16 := 0
  dw0      : BitVec 32 := 0
  dw1      : BitVec 32 := 0
  locks    : List Nat := []
  closed   : Bool := false
  staged   : Nat := 0
  unbound  : Bool := false
  handle   : Nat := 0
  sqe      : BitVec 512 := 0
  wait     : List (Nat × Nat) := []
  ru       : Nat := 0
  charged  : Nat := 0
  resv     : Nat := 0
  ranges   : List (BitVec 64 × BitVec 32 × BitVec 32) := []
  srcs     : List (Nat × Nat) := []
  locs     : List Nat := []
  inCap    : Bool := false
  slots    : Nat := 0
  late     : Bool := false
  deferAt  : BitVec 64 := 0
  got      : Nat := 0
  blocks   : SMap (List (BitVec 8)) := []
  rx       : List (BitVec 8) := []
  asked    : List (Nat × Nat) := []
  nextAsk  : Nat := 0
  came    : List (Nat × Nat) := []
  bad      : Bool := false
  fail     : Bool := false
  deriving DecidableEq, Repr

/-- One range-lock entry (R302–R306). `seq` orders the requests. -/
structure LockEnt where
  nsid    : BitVec 15 := 0
  excl    : Bool := false
  start   : BitVec 64 := 0
  count   : BitVec 64 := 0
  owner   : Nat := 0
  conn    : BitVec 16 := 0
  cid     : BitVec 16 := 0
  internal : Bool := false
  granted : Bool := false
  tag     : BitVec 32 := 0
  spindle : Option Nat := none
  seq     : Nat := 0
  deriving DecidableEq, Repr

/-- The command table and the range-lock table. `ends` lists, per submission queue (connection), the order numbers of
commands that completed with a status other than success (R300); `nextOrder` the next order number. `done` gives for each controller (4096: internal
commands) and each zone or reclaim unit the offset up to which its completed writes reach (R291). -/
structure Tables where
  cmds   : List Cmd := []
  locks  : SMap (Option LockEnt) := []
  marks  : List (BitVec 16 × BitVec 16) := []
  shares : SMap Nat := []
  seq    : Nat := 0
  arrivals : Nat := 0
  nextOrder : SMap Nat := []
  lastOrd : SMap (Option Nat) := []
  fails  : List (Nat × Nat) := []
  done   : SMap (SMap Nat) := []
  deriving DecidableEq, Repr

/-! ## Task register sets (R313–R318) -/

/-- A chain descriptor or register command now running; `spindle` is the one whose RXQ its kind 5 item went to. -/
structure TaskRun where
  desc : BitVec 40 := 0
  chain : Bool := false
  ctl  : BitVec 32 := 0
  next : BitVec 64 := 0
  buf  : BitVec 40 := 0
  spindle : Nat := 0
  deriving DecidableEq, Repr

/-- One task register set (R313–R316). -/
structure TaskSet where
  cmd    : SMap (BitVec 32) := []
  res    : SMap (BitVec 32) := []
  buf    : BitVec 40 := 0
  chain  : BitVec 40 := 0
  last   : BitVec 40 := 0
  chained : Bool := false
  cancel : Bool := false
  state  : BitVec 2 := 0
  busyw  : Bool := false
  done   : Bool := false
  lastSts : BitVec 15 := 0
  run    : Option TaskRun := none
  deriving DecidableEq, Repr

/-! ## NVMe controllers (R277–R281, R319) -/

/-- An entry of a controller's Error Information log (R281, R296): the error's number, the queue and identifier of its command, its status, and
the first LBA and namespace it is about. -/
structure ErrEnt where
  count  : Nat := 0
  sqid   : BitVec 16 := 0
  cid    : BitVec 16 := 0
  status : BitVec 16 := 0
  lba    : Nat := 0
  nsid   : BitVec 32 := 0
  deriving DecidableEq, Repr

/-- One NVMe controller as the keystone keeps it: CC, CSTS.RDY and CSTS.SHST, ACQ attributes, Keep Alive Timeout in
ms, features, outstanding Asynchronous Event Requests and Aborts, error log and the host counters (R372). -/
structure Ctrl where
  errLog  : List ErrEnt := []
  cc      : BitVec 32 := 0
  rdy     : Bool := false
  shst    : BitVec 2 := 0
  admin   : Option (BitVec 16) := none
  ios     : List (BitVec 16 × BitVec 16) := []
  kato    : Nat := 0
  kaRuns  : Bool := false
  f05     : BitVec 32 := 0
  f07     : BitVec 32 := 0
  f0B     : BitVec 32 := 0
  ordered : Bool := false
  errs    : Nat := 0
  busyHanks : Nat := 0
  reads   : Nat := 0
  writes  : Nat := 0
  unitsRd : Nat := 0
  unitsWr : Nat := 0
  notices : Nat := 0
  kaSince : BitVec 64 := 0
  deriving DecidableEq, Repr

/-! ## Management port (R549–R555) -/

/-- A Tilost message sent: session, type, flags, identifier, status and payload words (R551–R554). -/
structure TMsg where
  session : Nat := 0
  typ     : BitVec 16 := 0
  flags   : BitVec 16 := 0
  ident   : BitVec 32 := 0
  status  : BitVec 16 := 0
  payload : List (BitVec 32) := []
  deriving DecidableEq, Repr

/-- One Tilost session (R550, R551, R554). `order` holds the identifiers of the requests that await their responses, in
the order they came, and `answers` the responses that wait for an earlier one to leave. -/
structure Session where
  isOpen   : Bool := false
  enrolled : Bool := false
  mask     : BitVec 32 := 0
  order    : List (BitVec 32) := []
  answers  : List TMsg := []
  dropped  : Bool := false
  deriving DecidableEq, Repr

/-- The management port: sessions, the receive area of R196 (owner session, announced length, the ranges received), messages sent,
and what sources 12 to 15 report (receive, transmit, link, PTP). `reply` is the session, the request and the
buffer length of the internal command that runs on task set 63. `frames` counts the status frames of R617 and `frame` is the payload of
the last one. -/
structure Mgmt where
  link     : Bool := false
  linkIrq  : Bool := false
  rxIrq    : Bool := false
  txIrq    : Bool := false
  ptpIrq   : Bool := false
  sessions : SMap Session := []
  load     : Option Nat := none
  loadLen  : Nat := 0
  got      : List (Nat × Nat) := []
  out      : List TMsg := []
  reply    : Option (Nat × BitVec 32 × Nat) := none
  frames   : Nat := 0
  frame    : List (BitVec 32) := []
  deriving DecidableEq, Repr

end Sys2Proof.Machine
end

