-- ==== Sys2Proof/Machine/BlocksMedia.lean ====
section
/-! DEFINITION. The state of the piers, the media, the key store, the virtual controllers and the DRAM stacks, as
plain data (chapters 8 to 11). A field's default is its value at reset; where the spec gives none, a log entry names
it. -/

namespace Sys2Proof.Machine

/-! ## Piers (R374–R416) -/

/-- What a read that the keystone posts is for (R63, R82, R257): the command or internal command, the namespace, the LBA of its first codeword and
that LBA's offset in the command's transfer, and for data sent again the sequence number of the frame. `serial` is the command's arrival number;
`check` marks a codeword reconstructed because its tag failed (R444). -/
structure Job where
  conn  : BitVec 16 := 0
  cid   : BitVec 16 := 0
  int   : Bool := false
  serial : Nat := 0
  check : Bool := false
  nsid  : BitVec 32 := 0
  lba   : Nat := 0
  off   : Nat := 0
  regen : Option (BitVec 32) := none
  deriving DecidableEq, Repr

/-- A die-operation descriptor (R389) with its owner tag (R159) and the command the keystone posted it for. `recov` marks the recovery of
a failed read, which needs a recovery place (R46, R82), `lim` is the codewords of its command's data that one cipher slot carries (R443), and
`lone` says that only normal places serve it (R83). `job` is what the keystone
posted a read for, `recon` the reconstruction a read serves, and `row` the row whose program it is (0 for an erase that media management posts). -/
structure DieDesc where
  fn      : Nat := 0
  die     : Nat := 0
  block   : Nat := 0
  page    : Nat := 0
  cws     : BitVec 8 := 0
  flags   : BitVec 8 := 0
  entry   : Nat := 0xFFFF
  inner   : Nat := 0
  outer   : Nat := 0
  phase   : Nat := 0
  spindle : Nat := 0
  tag     : BitVec 32 := 0
  owner   : Nat := 0
  cmd     : Option (BitVec 16 × BitVec 16) := none
  recov   : Bool := false
  lim     : Nat := 4
  lone    : Bool := false
  job     : Option Job := none
  recon   : Option Nat := none
  row     : Option Nat := none
  deriving DecidableEq, Repr

/-- A booked read (R390): its descriptor, the place it is booked into (entry, replica, place record with its number), the core cycle the
window starts at, whether it has lost its tier bound, whether its sense has been issued, and whether that sense has ended (R45). The place record is the one of the deck that
planned the window (R73). -/
structure Booking where
  desc    : DieDesc := {}
  entry   : Nat := 0
  i       : Nat := 0
  o       : Nat := 0
  place   : Nat := 0
  prec    : PlaceRec := {}
  at_     : Nat := 0
  unbound : Bool := false
  recovery : Bool := false
  soft    : Bool := false
  issued  : Bool := false
  sensed  : Bool := false
  deriving DecidableEq, Repr

/-- A reconstruction in progress (R82, R83, R355): the read whose page is formed, how many of the ply's other pages are still to come, and the XOR
of the units of those that have come. -/
structure Recon where
  ident : Nat := 0
  desc  : DieDesc := {}
  left  : Nat := 0
  acc   : List (BitVec 256) := []
  deriving DecidableEq, Repr

/-- The item of a read that the keystone posted, on its way through PIN to the cipher slot (R19, R392), with its status code; `units` holds the
ciphertext of a page that was reconstructed (R82), and `due` marks a failure that the next parse issue slot of its class deals with. -/
structure KsItem where
  ident   : Nat := 0
  desc    : DieDesc := {}
  code    : Nat := 0
  units   : List (BitVec 256) := []
  due     : Bool := false
  deriving DecidableEq, Repr

/-- A program or erase in flight on a die (R45, R49, R391), with the cycles of slice that its plan still gives it (R48, R70). -/
structure DieOp where
  desc      : DieDesc := {}
  left      : Nat := 0
  suspends  : Nat := 0
  suspended : Bool := false
  late      : Bool := false
  deriving DecidableEq, Repr

/-- One die: fitted and answering, its identity and the figures its parameter page advertises, its operation, its read-retry entries at key
plane × 4 + level (R401), whether the pier owes it a reset and whether that has been issued (R405), and whether a temperature read is in
progress on it (R404). -/
structure Die where
  fitted : Bool := false
  ident  : BitVec 64 := 0
  fig    : Option DieFig := none
  op     : Option DieOp := none
  reset  : Bool := false
  resetting : Bool := false
  retry  : SMap Nat := []
  reading : Bool := false
  deriving DecidableEq, Repr

/-- PIER_TEMP of one target (R415). -/
structure PTemp where
  valid : Bool := false
  age   : BitVec 16 := 0
  temp  : BitVec 8 := 0
  deriving DecidableEq, Repr

/-- One flash channel (R407–R415). `step` is the bring-up step (R381), `told` the targets whose overrun event this
hank has been recorded (R416), `toggle` the standard interface its dies report, `tryRate` the rate code in training. A run of housekeeping
transfers began at core cycle `houseFrom` and has been granted to `houseEnd`; `swept` is 1 and the number of 1,024 hanks in which the receive sweep was last repeated (R388). -/
structure Chan where
  tgtExp  : BitVec 16 := 0
  slew    : BitVec 2 := 1
  loads   : BitVec 3 := 0
  rateMax : BitVec 4 := 8
  state   : BitVec 2 := 0
  cause   : BitVec 4 := 0
  iface   : BitVec 2 := 0
  rate    : BitVec 4 := 0
  slewUsed : BitVec 2 := 0
  found   : BitVec 16 := 0
  pinKind : BitVec 4 := 0
  pinA    : BitVec 8 := 0
  pinB    : BitVec 8 := 0
  skew    : SMap (BitVec 6) := []
  dqs     : BitVec 6 := 0
  re      : BitVec 6 := 0
  margin  : BitVec 8 := 0
  hfail   : BitVec 16 := 0
  softOk  : BitVec 8 := 0
  uncorr  : BitVec 8 := 0
  ovrCount : BitVec 16 := 0
  ovrCase : BitVec 4 := 0
  ovrTgt  : BitVec 4 := 0
  lost    : BitVec 16 := 0
  irq     : BitVec 10 := 0
  temps   : SMap PTemp := []
  dies    : SMap Die := []
  told    : BitVec 16 := 0
  step    : Nat := 0
  toggle  : Bool := false
  tryRate : BitVec 4 := 0
  houseFrom : Nat := 0
  houseEnd : Nat := 0
  swept   : Nat := 0
  deriving DecidableEq, Repr

/-- The piers: channels, booked reads, descriptors of operations waiting for their slice or window (a read that found
no place too), plane pages of program data received (die, block unit, plane page, spindle), the 521 units of each plane
page by page number (a page received and not yet programmed is listed 2^60 higher), outcome items waiting for a grant (delivery spindle, owner,
the row whose program it was, unit), the staged blocks of reads that wait for a DRAM port slot of their class, in order (R290), the reconstructions and the items of the keystone's reads with the next of their numbers, recoveries held for a soft-decode engine, and the recovery each engine of the pool decodes, with the cycle its pool slot ends in
`at_` (R54, R402). -/
structure Piers where
  chans    : SMap Chan := []
  booked   : List Booking := []
  ops      : List DieDesc := []
  planes   : List (Nat × Nat × Nat × Nat) := []
  data     : SMap (List (BitVec 256)) := []
  outcomes : List (Nat × Nat × Option Nat × BitVec 256) := []
  ready    : List (Job × List (BitVec 8)) := []
  recons   : List Recon := []
  items    : List KsItem := []
  nextId   : Nat := 1
  soft     : List Booking := []
  engines  : SMap (Option Booking) := []
  deriving DecidableEq, Repr

/-! ## Media (R326–R373) -/

/-- What the summary pages of a block unit hold (R328): its owner's key, its zone-table index, the number of its binding, and the time of its first
program. -/
structure Summary where
  owner   : Option Nat := none
  index   : BitVec 32 := 0
  binding : BitVec 40 := 0
  firstAt : BitVec 32 := 0
  deriving DecidableEq, Repr

/-- A block-table entry (R367), with what its summary pages hold once they are programmed. State 15 is the model's mark for an entry never written: the state the layout gives. -/
structure Block where
  state    : BitVec 4 := 15
  pslc     : Bool := false
  poisoned : Bool := false
  refreshQ : Bool := false
  recon    : Bool := false
  relocSrc : Bool := false
  standin  : BitVec 16 := 0xFFFF
  wear     : BitVec 32 := 0
  reads    : BitVec 32 := 0
  zone     : Option Nat := none
  progAt   : BitVec 32 := 0
  softs    : BitVec 16 := 0
  recons   : BitVec 16 := 0
  pages    : BitVec 32 := 0
  temp     : BitVec 8 := 0
  summary  : Option Summary := none
  deriving DecidableEq, Repr

/-- A zone-table entry (R369) of kind 1. `resv` is the offset staging is reserved up to, `stagedTo` the offset
up to which rows have been handed to programming, `qlcTo` the offset up to which they have been handed to QLC rows (the rest went to the pool,
R345), `lastSeq` numbers its last accepted write (R294, R340), `binding` is the binding number (R442). -/
structure Zone where
  state    : BitVec 4 := 1
  group    : Nat := 0
  skeins   : List Nat := []
  moving   : Bool := false
  poisoned : Bool := false
  parked   : Bool := false
  finValid : Bool := false
  degraded : Bool := false
  acc      : Nat := 0
  prog     : Nat := 0
  fin      : Nat := 0
  lastWrite : BitVec 32 := 0
  lastSeq  : Nat := 0
  resv     : Nat := 0
  stagedTo : Nat := 0
  qlcTo    : Nat := 0
  binding  : BitVec 40 := 0
  poison   : List (Nat × Nat) := []
  deriving DecidableEq, Repr

/-- A reclaim unit (R347, R369 kind 2); `map` marks one that holds map pages (R349). -/
structure Ru where
  nsid   : BitVec 32 := 0
  handle : Nat := 0
  group  : Nat := 0
  skein  : Nat := 0
  copy   : Bool := false
  full   : Bool := false
  wp     : Nat := 0
  valid  : Nat := 0
  stagedTo : Nat := 0
  qlcTo  : Nat := 0
  map    : Bool := false
  deriving DecidableEq, Repr

/-- A run of LBAs that a pool skein holds (R345, R346): the key of their zone or reclaim unit, the offset of the first of them in it, how many,
and the ply of the pool skein that they begin on. -/
structure PoolExt where
  key   : Nat := 0
  from_ : Nat := 0
  cnt   : Nat := 0
  ply   : Nat := 0
  deriving DecidableEq, Repr

/-- A pool skein (R343, R369 kind 3): the class whose writes it takes, its plies in use, and the live data it holds in the order in which it was
written. -/
structure PoolSkein where
  group : Nat := 0
  skein : Nat := 0
  cls   : BitVec 8 := 0
  plies : Nat := 0
  exts  : List PoolExt := []
  deriving DecidableEq, Repr

/-- A namespace (R275, R276, R312, R334, R434): its parameters, its committed skeins per group and how many of those
are bound, the controllers attached, and its key home; of an FDP namespace its map, the map as its map pages hold it, and where the system region records that
each map page lies (R349). -/
structure Ns where
  fdp     : Bool := false
  fmt1    : Bool := false
  cls     : BitVec 8 := 0
  span    : Bool := false
  sanPerm : Bool := false
  skeins  : Nat := 0
  actLim  : Nat := 0
  openLim : Nat := 0
  handles : Nat := 0
  spz     : Nat := 1
  group8  : Bool := false
  commit  : SMap Nat := []
  bound   : SMap Nat := []
  attached : List (BitVec 12) := []
  home    : Option (BitVec 12) := none
  changed : List Nat := []
  map     : SMap Nat := []
  fdpEvents : Nat := 0
  saved   : SMap Nat := []
  mapPages : SMap Nat := []
  deriving DecidableEq, Repr

/-- A die group's own state (R344, R353, R363). -/
structure Grp where
  degraded  : Bool := false
  dissolved : List Nat := []
  used      : List Nat := []
  exhausted : Bool := false
  deriving DecidableEq, Repr

/-- A member relocation (R357, R358): die, source and target block units, plies copied, and its cause
(1 refresh, 2 wear move, 3 replacement). -/
structure Reloc where
  die    : Nat := 0
  src    : Nat := 0
  tgt    : Nat := 0
  copied : Nat := 0
  cause  : Nat := 1
  deriving DecidableEq, Repr

/-- A row staged and waiting for its programs (R338, R339): namespace, zone (or reclaim-unit key), class, the LBA offset it begins at and the
first past it, how many of its programs have not yet given a code 8 item, the staged bytes and the reservation it releases, and for a row of the
pool its group, pool skein and first ply (R345). `ident` is its number, `group`, `skein` and `wl` where its programs go, `sent` whether they have
been posted. -/
structure Row where
  ident : Nat := 0
  group : Nat := 0
  skein : Nat := 0
  wl    : Nat := 0
  sent  : Bool := false
  nsid  : BitVec 32 := 0
  zone  : Nat := 0
  ru    : Bool := false
  cls   : BitVec 8 := 0
  from_ : Nat := 0
  upto    : Nat := 0
  left  : Nat := 0
  bytes : Nat := 0
  resv  : Nat := 0
  pool  : Option (Nat × Nat × Nat) := none
  lbas  : List (Nat × Nat) := []
  deriving DecidableEq, Repr

/-- The media tables and queues. Zones are at key NSID × 2^20 + zone number; `staged` is the staged bytes,
`share` and `used` the staging limit per class and its use. For reclaim unit k, `journalRu` is the offset that has
reached the FUA point, `ruLbas` the (LBA, unit and offset) pairs staged and
not yet in a row. `writeSeq` counts the accepted writes, and `fdpHost`, `fdpMedia` and `fdpErased` the bytes of page 22h (R281). `rawDone` holds the media statuses of raw diagnostic reads that were answered, by tag (R337). `erCls` is the class whose erase began last (R336). `onHanks`, `warmHanks` and `hotHanks` count the hanks
of R372's times. `buf` holds the bytes of each staged logical block, at key (zone or reclaim-unit key) × 2^32 + offset (R288). -/
structure Media where
  blocks  : SMap Block := []
  zones   : SMap Zone := []
  rus     : SMap Ru := []
  pool    : List PoolSkein := []
  nss     : SMap (Option Ns) := []
  groups  : SMap Grp := []
  relocs  : List Reloc := []
  refresh : List (Nat × Nat × Nat) := []
  erases  : List (Nat × Nat × Nat) := []
  erCls   : Nat := 0
  writeSeq : Nat := 0
  fdpHost : Nat := 0
  fdpMedia : Nat := 0
  fdpErased : Nat := 0
  rawDone   : SMap (Option Nat) := []
  rows    : List Row := []
  nextRow : Nat := 1
  buf     : SMap (List (BitVec 8)) := []
  staged  : Nat := 0
  limit   : Nat := 0
  share   : SMap Nat := []
  used    : SMap Nat := []
  binding : BitVec 40 := 0
  nextRu  : Nat := 1
  journal : Nat := 0
  journalRu : SMap Nat := []
  ruLbas  : SMap (List (Nat × Nat)) := []
  ckptHank : BitVec 64 := 0
  rebuild : Bool := false
  moved   : Nat := 0
  offlined : Nat := 0
  lastDie : Nat := 0
  sanitize : Bool := false
  sanLog  : BitVec 16 := 0
  sanNs   : List Nat := []
  mediaErrs : Nat := 0
  cycles  : Nat := 0
  onHanks : Nat := 0
  warmHanks : Nat := 0
  hotHanks : Nat := 0
  unsafeShut : Nat := 0
  unrecov : Bool := false
  poisonLbas : List (Nat × Nat × Nat) := []
  deriving DecidableEq, Repr

/-! ## Key store and virtual controllers (R417–R461) -/

/-- A pending key operation (R431): what the slot becomes at the commit. -/
structure KeyPend where
  op    : BitVec 4 := 0
  key   : BitVec 256 := 0
  use   : BitVec 4 := 0
  limit : BitVec 6 := 0
  vc    : BitVec 12 := 0
  deriving DecidableEq, Repr

/-- One key slot (R428, R432, R454); `flagged` says that the resident OS has refused its controller's writes for its warning (R433). -/
structure KeySlot where
  key    : BitVec 256 := 0
  use    : BitVec 4 := 0
  vc     : BitVec 12 := 0
  cnt    : BitVec 56 := 0
  limit  : BitVec 6 := 0
  failed : Bool := false
  warned : Bool := false
  flagged : Bool := false
  told   : Bool := false
  pend   : Option KeyPend := none
  deriving DecidableEq, Repr

/-- The CIPH block (R452–R456, R460). `stored` holds the keys whose wrapped forms the resident OS keeps in the system
region and unwraps at boot (R430). DEDUCED, log entry 120. -/
structure Ciph where
  slots  : SMap KeySlot := []
  stored : SMap KeySlot := []
  ksel   : BitVec 14 := 0
  kvc    : BitVec 12 := 0
  kdst   : BitVec 14 := 0
  op     : BitVec 4 := 0
  use    : BitVec 4 := 0
  limit  : BitVec 6 := 35
  result : BitVec 4 := 0
  kdata  : SMap (BitVec 32) := []
  kwrap  : SMap (BitVec 32) := []
  cmp0   : BitVec 32 := 0
  cmp1   : BitVec 16 := 0
  cmpcnt : BitVec 16 := 0
  ended  : Bool := false
  limRef : Bool := false
  rngBad : Bool := false
  deriving DecidableEq, Repr

/-- The fields of a controller's record in force (R419, R420). -/
structure VcRec where
  flags   : BitVec 8 := 0
  ioq     : BitVec 8 := 0
  slotA   : BitVec 16 := 0
  slotB   : BitVec 16 := 0
  tlsBase : BitVec 16 := 0
  tlsCnt  : BitVec 16 := 0
  rdRefill : BitVec 32 := 0
  rdCap   : BitVec 32 := 0
  wrRefill : BitVec 32 := 0
  wrCap   : BitVec 32 := 0
  logAddr : BitVec 64 := 0
  logSize : BitVec 32 := 0
  bm0     : BitVec 64 := 0
  bm1     : BitVec 64 := 0
  deriving DecidableEq, Repr

/-- One virtual-controller entry (R418, R458) with its record in force, the record as read since the last hank commit (R420), and its buckets
(R62). -/
structure Vc where
  state  : BitVec 2 := 0
  cls    : BitVec 8 := 0
  pcls   : BitVec 8 := 0
  recAddr : BitVec 40 := 0
  inForce : VcRec := {}
  next   : Option VcRec := none
  rd     : Nat := 0
  wr     : Nat := 0
  deriving DecidableEq, Repr

/-- The VCT block (R457–R460) and the NQN table (R422: the 512 bytes of each controller's entry as one number). -/
structure Vct where
  ents   : SMap Vc := []
  idx    : BitVec 12 := 0
  recReg : BitVec 40 := 0
  op     : BitVec 4 := 0
  cls    : BitVec 8 := 0
  result : BitVec 4 := 0
  ended  : Bool := false
  bound  : Bool := false
  nqn    : SMap (BitVec 4096) := []
  deriving DecidableEq, Repr

/-! ## DRAM stacks (R462–R509) -/

/-- A control-port request waiting (R467, R468): requester code and number, age in turns, address and bytes, the data of
a write, and what the check of the units it reads finds (0 nothing, 1 corrected, 2 uncorrectable). -/
structure CpReq where
  code : BitVec 3 := 0
  who  : Nat := 0
  age  : Nat := 0
  addr : Nat := 0
  len  : Nat := 0
  wr   : Option (List (BitVec 8)) := none
  ecc  : Nat := 0
  deriving DecidableEq, Repr

/-- A merge-buffer entry (R484): unit address, byte mask and bytes. -/
structure MergeEnt where
  unit  : Nat := 0
  mask  : BitVec 32 := 0
  bytes : List (BitVec 8) := []
  deriving DecidableEq, Repr

/-- One bank's row-activation counting (R475, R476): at most 64 (row, count) entries and the neighbour-refresh
queue. -/
structure Bank where
  rows  : List (Nat × Nat) := []
  queue : List Nat := []
  deriving DecidableEq, Repr

/-- A unit written over DOUT that a later DCMD may not see yet (R155): its address, what it held before, the port it came by, and the core cycle
from which it is visible (none: its DCMD still owes units). -/
structure FreshUnit where
  addr   : Nat := 0
  old    : BitVec 256 := 0
  port   : Nat := 0
  until_ : Option Nat := none
  deriving DecidableEq, Repr

/-- One DRAM controller (R497–R504). `row` is the regular refresh sequence's next row, `corrs` the corrections of
R483 (row key, hank). -/
structure Drc where
  state  : BitVec 2 := 0
  trange : BitVec 2 := 0
  temp   : BitVec 8 := 0
  margin : BitVec 8 := 0
  init   : Bool := false
  corr   : BitVec 16 := 0
  uncorr : BitVec 8 := 0
  poison : BitVec 8 := 0
  uaddr  : BitVec 40 := 0
  caddr  : BitVec 40 := 0
  trig   : BitVec 16 := 0
  qmax   : BitVec 8 := 0
  rmw    : BitVec 16 := 0
  merged : BitVec 16 := 0
  late   : BitVec 16 := 0
  lateReq : BitVec 3 := 0
  irq    : BitVec 5 := 0
  lt0    : BitVec 8 := 2
  lt1    : BitVec 8 := 8
  lt2    : BitVec 8 := 4
  lt3    : BitVec 8 := 16
  lt4    : BitVec 8 := 1
  queue  : List CpReq := []
  merge  : List MergeEnt := []
  wback  : List Nat := []
  banks  : SMap Bank := []
  row    : Nat := 0
  corrs  : List (Nat × Nat) := []
  fresh  : List FreshUnit := []
  deriving DecidableEq, Repr

end Sys2Proof.Machine
end

