-- ==== Sys2Proof/Machine/State.lean ====
section
/-! DEFINITION. The machine's state, its reset value, and the two ways a step can stop without a next state. -/

namespace Sys2Proof.Machine

/-- Why a step stops with a fault. -/
inductive Fault where
  /-- Raised by a command that names a unit the part does not have (a sensor above 28, a group of lanes that does not
  exist). Safe: the spec gives no such command, so no run of the part contains one. -/
  | noSuchUnit
  deriving DecidableEq, Repr

/-- Why a step is refused. -/
inductive Refusal where
  /-- Raised by an arm of exec whose command has no meaning yet. Safe: nothing is claimed of that command. -/
  | notModelled (mnemonic : String)
  deriving DecidableEq, Repr

/-- The whole machine. `varB` is 1 on the IH964-B; `draws`, `now` and `bus` are the model's own: the number of free
values drawn, the time of R571 as far as readings of it have advanced it, and what the last control-register command
answered. `latch` holds the high words latched by a read of a low word, by the high word's address. `mem` is SRAM and
DRAM by distaff physical address, `poison` the poisoned 32-byte units by unit number, `unc` the units once counted as
uncorrectable (R482). `pending` is the queue of waiting commands, first in, first out. -/
structure State where
  varB     : Bool := false
  draws    : Nat := 0
  now      : BitVec 64 := 0
  bus      : BusAns := {}
  latch    : SMap (Option (BitVec 32)) := []
  reel     : Reel := {}
  spindles : SMap Spindle := []
  lanes    : SMap Lane := []
  cores    : SMap CoreSt := []
  evr      : Evr := {}
  fcr      : Fcr := {}
  thm      : Thm := {}
  intc     : Intc := {}
  watch    : Watch := {}
  memp     : Memp := {}
  dma      : SMap DmaCh := []
  bac      : Bac := {}
  sys      : Sys := {}
  clk      : Clk := {}
  pwr      : Pwr := {}
  span     : Span := {}
  store    : Store := {}
  pins     : Pins := {}
  ports    : SMap Port := []
  xpt      : Xpt := {}
  tables   : Tables := {}
  tasks    : SMap TaskSet := []
  ctrls    : SMap Ctrl := []
  mgmt     : Mgmt := {}
  piers    : Piers := {}
  media    : Media := {}
  ciph     : Ciph := {}
  vct      : Vct := {}
  drcs     : SMap Drc := []
  mem      : SMap (BitVec 8) := []
  poison   : SMap Bool := []
  unc      : SMap Bool := []
  pending  : List Instr := []
  deriving DecidableEq, Repr

/-- The machine right after the reset of a power-up (R622, R623). -/
def State.reset : State := {}

end Sys2Proof.Machine
end

