-- ==== Sys2Proof/Machine/Ops.lean ====
section
/-! DEFINITION. The named operations every command is built from: reading and changing one unit of State, drawing a
free value, recording an event, writing the boot array's records, requesting a mode, starting a flush, and raising a
fault with its escalation, its reaction and the Grave sequence (chapters 2, 5, 12, 13 and 15). -/

namespace Sys2Proof.Machine

/-- What a command answers. -/
abbrev Out := Host.Outcome State Fault Refusal

/-! ## Numbers and fields -/

/-- Add 1, staying at the largest value. -/
def satInc {w : Nat} (x : BitVec w) : BitVec w := if x = BitVec.allOnes w then x else x + 1

/-- Add a number, staying at the largest value. -/
def satAdd {w : Nat} (x : BitVec w) (n : Nat) : BitVec w :=
  if x.toNat + n < 2 ^ w then BitVec.ofNat w (x.toNat + n) else BitVec.allOnes w

/-- A field of a register word: `v` at bit `lo`. -/
def fld {w : Nat} (v : BitVec w) (lo : Nat) : BitVec 32 := v.setWidth 32 <<< lo

/-- A one-bit field of a register word. -/
def bfld (b : Bool) (lo : Nat) : BitVec 32 := if b then 1#32 <<< lo else 0

/-- Bit `n` of a word, as a truth value. -/
def bit {w : Nat} (v : BitVec w) (n : Nat) : Bool := v.getLsbD n

/-- A word with bit `n` set. -/
def setBit {w : Nat} (v : BitVec w) (n : Nat) : BitVec w := v ||| (1#w <<< n)

/-- A word with bit `n` clear. -/
def clrBit {w : Nat} (v : BitVec w) (n : Nat) : BitVec w := v &&& ~~~ (1#w <<< n)

/-- A word with bit `n` as given. -/
def putBit {w : Nat} (v : BitVec w) (n : Nat) (b : Bool) : BitVec w := if b then setBit v n else clrBit v n

/-- A count field of type W1C (R669): cleared when all of its bits are written as 1, else unchanged. -/
def w1cCount {w : Nat} (v wr : BitVec w) : BitVec w := if wr = BitVec.allOnes w then 0 else v

/-- Separate flags of type W1C (R13). -/
def w1c {w : Nat} (v wr : BitVec w) : BitVec w := v &&& ~~~ wr

/-- The bytes of a number, least significant first. -/
def leBytes : Nat → Nat → List (BitVec 8)
  | 0, _ => []
  | k + 1, n => BitVec.ofNat 8 n :: leBytes k (n / 256)

/-- The number that bytes spell, least significant first. -/
def leNat : List (BitVec 8) → Nat
  | [] => 0
  | b :: bs => b.toNat + 256 * leNat bs

/-! ## One block of State -/

/-- Change the sequencer. -/
def modReel (f : Reel → Reel) (s : State) : State := { s with reel := f s.reel }
/-- Change the event recorder. -/
def modEvr (f : Evr → Evr) (s : State) : State := { s with evr := f s.evr }
/-- Change fault collection. -/
def modFcr (f : Fcr → Fcr) (s : State) : State := { s with fcr := f s.fcr }
/-- Change thermal management. -/
def modThm (f : Thm → Thm) (s : State) : State := { s with thm := f s.thm }
/-- Change the interrupt controller. -/
def modIntc (f : Intc → Intc) (s : State) : State := { s with intc := f s.intc }
/-- Change the watcher. -/
def modWatch (f : Watch → Watch) (s : State) : State := { s with watch := f s.watch }
/-- Change memory protection. -/
def modMemp (f : Memp → Memp) (s : State) : State := { s with memp := f s.memp }
/-- Change the boot array. -/
def modBac (f : Bac → Bac) (s : State) : State := { s with bac := f s.bac }
/-- Change the SYS block. -/
def modSys (f : Sys → Sys) (s : State) : State := { s with sys := f s.sys }
/-- Change the clock monitor. -/
def modClk (f : Clk → Clk) (s : State) : State := { s with clk := f s.clk }
/-- Change the supply. -/
def modPwr (f : Pwr → Pwr) (s : State) : State := { s with pwr := f s.pwr }
/-- Change the span block. -/
def modSpan (f : Span → Span) (s : State) : State := { s with span := f s.span }
/-- Change the image store. -/
def modStore (f : Store → Store) (s : State) : State := { s with store := f s.store }
/-- Change the pins. -/
def modPins (f : Pins → Pins) (s : State) : State := { s with pins := f s.pins }
/-- Change the transport engine. -/
def modXpt (f : Xpt → Xpt) (s : State) : State := { s with xpt := f s.xpt }
/-- Change the command and lock tables. -/
def modTables (f : Tables → Tables) (s : State) : State := { s with tables := f s.tables }
/-- Change the management port. -/
def modMgmt (f : Mgmt → Mgmt) (s : State) : State := { s with mgmt := f s.mgmt }
/-- Change the piers. -/
def modPiers (f : Piers → Piers) (s : State) : State := { s with piers := f s.piers }
/-- Change the media. -/
def modMedia (f : Media → Media) (s : State) : State := { s with media := f s.media }
/-- Change the key store. -/
def modCiph (f : Ciph → Ciph) (s : State) : State := { s with ciph := f s.ciph }
/-- Change the virtual-controller table. -/
def modVct (f : Vct → Vct) (s : State) : State := { s with vct := f s.vct }

/-! ## One unit of State -/

/-- Spindle n. -/
def spn (s : State) (n : Nat) : Spindle := mget {} s.spindles n
/-- Change spindle n. -/
def modSpn (n : Nat) (f : Spindle → Spindle) (s : State) : State := { s with spindles := mmod {} n f s.spindles }
/-- Cipher lane n. -/
def lane (s : State) (n : Nat) : Lane := mget {} s.lanes n
/-- Change cipher lane n. -/
def modLane (n : Nat) (f : Lane → Lane) (s : State) : State := { s with lanes := mmod {} n f s.lanes }
/-- Core n. -/
def coreOf (s : State) (n : Nat) : CoreSt := mget {} s.cores n
/-- Change core n. -/
def modCore (n : Nat) (f : CoreSt → CoreSt) (s : State) : State := { s with cores := mmod {} n f s.cores }
/-- Port p. -/
def portOf (s : State) (p : Nat) : Port := mget {} s.ports p
/-- Change port p. -/
def modPort (p : Nat) (f : Port → Port) (s : State) : State := { s with ports := mmod {} p f s.ports }
/-- Flash channel c. -/
def chan (s : State) (c : Nat) : Chan := mget {} s.piers.chans c
/-- Change flash channel c. -/
def modChan (c : Nat) (f : Chan → Chan) (s : State) : State :=
  modPiers (fun u => { u with chans := mmod {} c f u.chans }) s
/-- Die d, numbered channel × 16 + target (R189). -/
def dieOf (s : State) (d : Nat) : Die := mget {} (chan s (d / 16)).dies (d % 16)
/-- Change die d. -/
def modDie (d : Nat) (f : Die → Die) (s : State) : State :=
  modChan (d / 16) (fun c => { c with dies := mmod {} (d % 16) f c.dies }) s
/-- DRAM controller n. -/
def drcOf (s : State) (n : Nat) : Drc := mget {} s.drcs n
/-- Change DRAM controller n. -/
def modDrc (n : Nat) (f : Drc → Drc) (s : State) : State := { s with drcs := mmod {} n f s.drcs }
/-- DMA channel n. -/
def dmaOf (s : State) (n : Nat) : DmaCh := mget {} s.dma n
/-- Change DMA channel n. -/
def modDma (n : Nat) (f : DmaCh → DmaCh) (s : State) : State := { s with dma := mmod {} n f s.dma }
/-- Task register set k. -/
def taskOf (s : State) (k : Nat) : TaskSet := mget {} s.tasks k
/-- Change task register set k. -/
def modTask (k : Nat) (f : TaskSet → TaskSet) (s : State) : State := { s with tasks := mmod {} k f s.tasks }
/-- The NVMe controller of virtual controller v. -/
def ctrlOf (s : State) (v : Nat) : Ctrl := mget {} s.ctrls v
/-- Change the NVMe controller of virtual controller v. -/
def modCtrl (v : Nat) (f : Ctrl → Ctrl) (s : State) : State := { s with ctrls := mmod {} v f s.ctrls }
/-- Service class n. -/
def clsOf (s : State) (n : Nat) : Cls := mget {} s.reel.cls n
/-- Change service class n. -/
def modCls (n : Nat) (f : Cls → Cls) (s : State) : State :=
  modReel (fun u => { u with cls := mmod {} n f u.cls }) s
/-- Fault group g. -/
def groupOf (s : State) (g : Nat) : FcrGroup := mget {} s.fcr.groups g
/-- Change fault group g. -/
def modGroup (g : Nat) (f : FcrGroup → FcrGroup) (s : State) : State :=
  modFcr (fun u => { u with groups := mmod {} g f u.groups }) s
/-- Key slot k. -/
def keyOf (s : State) (k : Nat) : KeySlot := mget {} s.ciph.slots k
/-- Change key slot k. -/
def modKey (k : Nat) (f : KeySlot → KeySlot) (s : State) : State :=
  modCiph (fun u => { u with slots := mmod {} k f u.slots }) s
/-- Virtual controller v. -/
def vcOf (s : State) (v : Nat) : Vc := mget {} s.vct.ents v
/-- Change virtual controller v. -/
def modVc (v : Nat) (f : Vc → Vc) (s : State) : State :=
  modVct (fun u => { u with ents := mmod {} v f u.ents }) s
/-- Connection c. -/
def connOf (s : State) (c : Nat) : Conn := mget {} s.xpt.conns c
/-- Change connection c. -/
def modConn (c : Nat) (f : Conn → Conn) (s : State) : State :=
  modXpt (fun u => { u with conns := mmod {} c f u.conns }) s
/-- Tilost session n. -/
def sessOf (s : State) (n : Nat) : Session := mget {} s.mgmt.sessions n
/-- Change Tilost session n. -/
def modSess (n : Nat) (f : Session → Session) (s : State) : State :=
  modMgmt (fun u => { u with sessions := mmod {} n f u.sessions }) s
/-- Interrupt source i. -/
def srcOf (s : State) (i : Nat) : IntSrc := mget {} s.intc.src i
/-- Change interrupt source i. -/
def modSrc (i : Nat) (f : IntSrc → IntSrc) (s : State) : State :=
  modIntc (fun u => { u with src := mmod {} i f u.src }) s
/-- Block-table entry of block unit b of die d (R367). -/
def blockOf (s : State) (d b : Nat) : Block := mget {} s.media.blocks (d * 2048 + b)
/-- Change a block-table entry. -/
def modBlock (d b : Nat) (f : Block → Block) (s : State) : State :=
  modMedia (fun u => { u with blocks := mmod {} (d * 2048 + b) f u.blocks }) s
/-- The key of zone z of namespace n in the zone table. -/
def zoneKey (n : BitVec 32) (z : Nat) : Nat := n.toNat * 2 ^ 20 + z
/-- A zone-table entry. -/
def zoneOf (s : State) (n : BitVec 32) (z : Nat) : Zone := mget {} s.media.zones (zoneKey n z)
/-- Change a zone-table entry. -/
def modZone (n : BitVec 32) (z : Nat) (f : Zone → Zone) (s : State) : State :=
  modMedia (fun u => { u with zones := mmod {} (zoneKey n z) f u.zones }) s
/-- Namespace n, if there is one. -/
def nsOf (s : State) (n : Nat) : Option Ns := mget none s.media.nss n
/-- Change namespace n where there is one. -/
def modNs (n : Nat) (f : Ns → Ns) (s : State) : State :=
  modMedia (fun u => { u with nss := mmod none n (fun o => o.map f) u.nss }) s

/-! ## Limits of the variant (R4, R6) -/

/-- Spindles 0–63, or 0–31 on the IH964-B. -/
def nSpindles (s : State) : Nat := if s.varB then 32 else 64
/-- Flash channels. -/
def nChannels (s : State) : Nat := if s.varB then 64 else 128
/-- Ethernet ports. -/
def nPorts (s : State) : Nat := if s.varB then 4 else 8
/-- DRAM stacks. -/
def nStacks (s : State) : Nat := if s.varB then 2 else 4
/-- Cipher lanes. -/
def nLanes (s : State) : Nat := if s.varB then 24 else 48
/-- Key slots. -/
def nKeys (s : State) : Nat := if s.varB then 8192 else 16384
/-- Virtual controllers. -/
def nVcs (s : State) : Nat := if s.varB then 2048 else 4096
/-- Transport connections. -/
def nConns (s : State) : Nat := if s.varB then 32768 else 65536
/-- Namespaces. -/
def nNamespaces (s : State) : Nat := if s.varB then 8192 else 16384
/-- Range-lock table entries. -/
def nLocks (s : State) : Nat := if s.varB then 4096 else 8192

/-! ## Free values and time -/

/-- A free truth value; each draw is a new one. DESIGN CHOICE, log entry 8. -/
def drawBool (s : State) : Bool × State := (Config.freeBool s.draws, { s with draws := s.draws + 1 })

/-- A free word; each draw is a new one. DESIGN CHOICE, log entry 8. -/
def drawBits (s : State) : BitVec 256 × State := (Config.freeBits s.draws, { s with draws := s.draws + 1 })

/-- Time passes by a free amount (R571: the spec gives each event a time and the model has no wall clock). DESIGN CHOICE, log entry 7. -/
def passTime (s : State) : State :=
  { s with now := s.now + (Config.elapsed s.draws).setWidth 64, draws := s.draws + 1 }

/-- Span time: PTP time, the model's time plus the span block's base (R602). -/
def spanTime (s : State) : BitVec 64 := s.now + s.span.base

/-- The member is fenced, by a joining fence or another (R599). DEDUCED, log entry 115. -/
def fenced (s : State) : Bool := s.span.state = 1 || s.span.state = 3

/-- The time of R571 and R78: span time while PTP is locked, else nanoseconds since power-up. DESIGN CHOICE, log entry 7. -/
def eventTime (s : State) : BitVec 64 := if s.span.lock then spanTime s else s.now

/-! ## Events (R37, R571, R572) -/

/-- The recorder takes an event: dropped and counted while stopped or with a full input queue, else queued (R572). -/
def evrTake (e : EventRec) (v : Evr) : Evr :=
  if v.stop then { v with full := satInc v.full, loss := true }
  else if 64 ≤ v.queue.length then { v with qdrop := satInc v.qdrop, loss := true }
  else { v with queue := v.queue ++ [e] }

/-- The flags word of R571 without LOSS, which the recorder adds. -/
def evFlags (tbase : Bool) (cls : Nat) (sw : Bool) : BitVec 16 :=
  BitVec.ofNat 16 ((if tbase then 1 else 0) + 2 * cls + (if sw then 16 else 0))

/-- The record of an event now: code, class of the fault raised with it, SW flag, parameter words. -/
def mkEvent (s : State) (code : BitVec 16) (cls : Nat) (sw : Bool) (ws : List (BitVec 32)) : EventRec :=
  { code := code, flags := evFlags s.span.lock cls sw, time := eventTime s,
    w0 := ws.getD 0 0, w1 := ws.getD 1 0, w2 := ws.getD 2 0, w3 := ws.getD 3 0, w4 := ws.getD 4 0 }

/-- Record an event with all its flags. -/
def eventF (code : BitVec 16) (cls : Nat) (sw : Bool) (ws : List (BitVec 32)) (s : State) : State :=
  let s := passTime s
  (modEvr (fun _ => evrTake (mkEvent s code cls sw ws) s.evr) s)

/-- Record an event that no fault accompanies. -/
def event (code : BitVec 16) (ws : List (BitVec 32)) (s : State) : State := eventF code 0 false ws s

/-- Record an event raised with a fault of class `cls`. -/
def eventC (code : BitVec 16) (cls : Nat) (ws : List (BitVec 32)) (s : State) : State := eventF code cls false ws s

/-- A number as a parameter word. -/
def w32 (n : Nat) : BitVec 32 := BitVec.ofNat 32 n
/-- The low word of 64 bits. -/
def lo32 (v : BitVec 64) : BitVec 32 := v.setWidth 32
/-- The high word of 64 bits. -/
def hi32 (v : BitVec 64) : BitVec 32 := (v >>> 32).setWidth 32

/-! ## The boot array's own record path (R539, R544, R545, R567, R629) -/

/-- The byte at an array offset: 0xFF where nothing is written (R539). -/
def bacByte (b : Bac) (off : Nat) : BitVec 8 := mget 0xFF b.arr off

/-- Write bytes into the array from an offset on. -/
def bacPut (off : Nat) : List (BitVec 8) → Bac → Bac
  | [], b => b
  | x :: xs, b => bacPut (off + 1) xs { b with arr := mset 0xFF off x b.arr }

/-- Set the written mark of `n` code words from an offset on (R543). -/
def bacMark (off : Nat) : Nat → Bac → Bac
  | 0, b => b
  | n + 1, b => bacMark (off + 32) n { b with marks := mset false (off / 32) true b.marks }

/-- Erase: every byte of a range reads 0xFF and its code words lose their marks and errors. -/
def bacErase (off len : Nat) (b : Bac) : Bac :=
  let out := fun (k : Nat) => decide (k < off ∨ off + len ≤ k)
  let outw := fun (k : Nat) => decide (k < off / 32 ∨ (off + len) / 32 ≤ k)
  { b with arr := b.arr.filter (fun e => out e.1), marks := b.marks.filter (fun e => outw e.1),
           bad := b.bad.filter (fun e => outw e.1) }

/-- The array offset of word line `wl` of sector `sec` of bank 3 (R539). -/
def bank3 (sec wl : Nat) : Nat := 3 * 2 ^ 24 + sec * 65536 + wl * 1024

/-- Give code words an undefined content (R544): a free byte in each, unreadable or not as a free truth value says. DESIGN CHOICE, log entry 93. -/
def bacSpoil (off : Nat) : Nat → State → State
  | 0, s => s
  | n + 1, s =>
    let (u, s) := drawBool s
    let (k, s) := drawBool s
    let (v, s) := drawBits s
    let s := modBac (fun _ => bacPut off (leBytes 32 v.toNat) s.bac) s
    let s := modBac (fun z => { z with bad := mset false (off / 32) u z.bad, marks := mset false (off / 32) k z.marks }) s
    bacSpoil (off + 32) n s

/-- The code words an abandoned operation spoils, as (offset, count) ranges (R544). -/
def bacRanges (o : BacOp) : List (Nat × Nat) :=
  let a := o.addr.toNat
  if o.op = 1 then
    if (a / 512) % 2 = 1 then [(a, 16), (a - 512, 16)] else [(a, 16)]
  else if o.op = 2 then [(a, 2048)]
  else [(a, 524288)]

/-- Abandon the operation in progress with the effects of R544: its code words are undefined. -/
def bacAbandon (s : State) : State :=
  match s.bac.cur with
  | none => s
  | some o =>
    let s := (bacRanges o).foldl (fun s r => bacSpoil r.1 r.2 s) s
    (modBac (fun u => { u with busy := false, cur := none, told := false }) s)

/-- Write one word line of bank 3, lower page first (R545, R567). -/
def bacLine (sec wl : Nat) (bytes : List (BitVec 8)) (s : State) : State :=
  modBac (fun _ => bacMark (bank3 sec wl) 32 (bacPut (bank3 sec wl) bytes s.bac)) s

/-! ## What the record and flush layouts need -/

/-- Bits 63:0 of the active image's digest; 0 with no image (R567). -/
def activeDigest (s : State) : BitVec 64 := (s.store.running.map (·.digest)).getD 0

/-- Staged bytes (R288). -/
def stagedBytes (s : State) : Nat := s.media.staged

/-- An event record as its 32 bytes (R37). -/
def eventBytes (e : EventRec) : List (BitVec 8) :=
  leBytes 2 e.code.toNat ++ leBytes 2 e.flags.toNat ++ leBytes 8 e.time.toNat ++ leBytes 4 e.w0.toNat ++
  leBytes 4 e.w1.toNat ++ leBytes 4 e.w2.toNat ++ leBytes 4 e.w3.toNat ++ leBytes 4 e.w4.toNat

/-- The record in a recorder slot (R570). -/
def evrSlot (s : State) (k : Nat) : EventRec := mget {} s.evr.recs (k % 65536)

/-- The 16 most recent records, oldest first, as bytes; zeros where fewer exist (R567). -/
def recentEvents (s : State) : List (BitVec 8) :=
  ((List.range 16).map (fun k =>
    if s.evr.widx.toNat + k < 16 then leBytes 32 0
    else eventBytes (evrSlot s (s.evr.widx.toNat + k - 16)))).flatten

/-- The signed value of a temperature byte. -/
def degC (v : BitVec 8) : Int := v.toInt

/-- The hottest valid junction sensor (R567). -/
def hottest (s : State) : BitVec 8 :=
  (s.thm.sens.foldl (fun (m : Option (BitVec 8)) e =>
    if e.2.valid then (match m with | none => some e.2.temp | some t => if degC t < degC e.2.temp then some e.2.temp else m)
    else m) none).getD 0

/-! ## FAULT_N, classes held and REEL fields -/

/-- The highest class any fault group holds (R577). -/
def highClass (s : State) : BitVec 3 := s.fcr.groups.foldl (fun m e => if m < e.2.cls then e.2.cls else m) 0

/-- The number of groups that hold a class. -/
def activeGroups (s : State) : Nat := (s.fcr.groups.filter (fun e => e.2.cls ≠ 0)).length

/-- Whether FAULT_N is driven low (R568, R617). -/
def faultN (s : State) : Bool :=
  !s.fcr.selfTest || s.fcr.grave || highClass s ≠ 0 || s.thm.shutdown ||
    (s.clk.xtal && (s.clk.sysRng || s.clk.sysMiss))

/-- Whether THERM_N is driven low (R569, R588). -/
def thermN (s : State) : Bool := s.thm.throt || s.thm.shutdown

/-- FCR_STAT (R577). -/
def fcrStat (s : State) : BitVec 32 :=
  bfld s.fcr.grave 31 ||| bfld s.fcr.reactOpen 30 ||| fld (highClass s) 27 ||| bfld (faultN s) 26 |||
    bfld s.fcr.fpin 25 ||| w32 (activeGroups s)

/-- The record of R567 as its 1,024 bytes. -/
def recordBytes (s : State) (kind b5 b6 steps : Nat) (lost : Nat) : List (BitVec 8) :=
  leBytes 4 0x544C465A ++ leBytes 1 kind ++ leBytes 1 b5 ++ leBytes 1 b6 ++ leBytes 1 steps ++
  leBytes 8 (eventTime s).toNat ++ leBytes 8 s.reel.hanks.toNat ++ leBytes 8 (activeDigest s).toNat ++
  leBytes 4 (fcrStat s).toNat ++ leBytes 1 (hottest s).toNat ++ leBytes 3 0 ++ leBytes 8 lost ++
  leBytes 464 0 ++ recentEvents s

/-- Record n of a kind goes into its sector, and is counted. -/
def putRecord (kind n : Nat) (bytes : List (BitVec 8)) (s : State) : State :=
  let s := bacLine (if kind = 1 then 6 else 7) n bytes s
  let s := if kind = 1 then modStore (fun u => { u with graveRecs := n + 1 }) s
           else modStore (fun u => { u with thermRecs := n + 1 }) s
  event 0x0F06 [w32 kind, w32 n] s

/-- Write a Grave record (kind 1) or a thermal-shutdown record (kind 2) in its sector, unless that is full (R567). -/
def writeRecord (kind b5 b6 steps lost : Nat) (s : State) : State :=
  let s := bacAbandon s
  let n := if kind = 1 then s.store.graveRecs else s.store.thermRecs
  if n < 64 then putRecord kind n (recordBytes s kind b5 b6 steps lost) s
  else event 0x0F06 [w32 kind, 0xFFFFFFFF] s

/-! ## Modes (R211–R218) -/

/-- The rank of a mode (R214), 1 the highest; the recovery deck ranks above Hold (R626). -/
def modeRank (m : BitVec 4) : Nat :=
  if m = 0xE then 0 else if m = 0 then 1 else if m = 7 then 2 else if m = 9 then 3 else if m = 5 then 4 else 5

/-- The device is in Hold (R201). -/
def inHold (s : State) : Bool := s.reel.deck = 0

/-- The deck numbered `m` of an image. -/
def deckOf (im : Image) (m : BitVec 4) : Option Deck := im.decks.find? (fun d => d.mode = m)

/-- The running image holds deck `m`. -/
def hasDeck (s : State) (m : BitVec 4) : Bool := ((s.store.running.bind (deckOf · m))).isSome

/-- The matrix permits a switch (R186). -/
def permits (s : State) (m n : BitVec 4) : Bool :=
  match s.store.running with
  | none => false
  | some im => bit (mget 0 im.matrix m.toNat) n.toNat

/-- The rank of a mode that management (`mgmt`) or the device itself asked for (R214): a mode other than Hold entered by management
request has the lowest, pending or active. DEDUCED, log entry 156. -/
def enteredRank (mgmt : Bool) (m : BitVec 4) : Nat := if mgmt && (m = 5 || m = 7 || m = 9) then 5 else modeRank m

/-- The rank of the active mode. -/
def activeRank (s : State) : Nat := enteredRank s.reel.byMgmt s.reel.deck

/-- The rank of the pending request, 6 where none is pending. -/
def pendRank (s : State) : Nat := match s.reel.req with | none => 6 | some q => enteredRank (!q.device) q.mode

/-- The rank that binds a management request: that of the active mode or of the pending one, the higher (R213, R214). -/
def boundRank (s : State) : Nat := min (activeRank s) (pendRank s)

/-- A message of the device to a Tilost session (R551). -/
def tilostSend (m : TMsg) (s : State) : State := modMgmt (fun u => { u with out := u.out ++ [m], txIrq := true }) s

/-- The responses that may leave now: the first requests of the order, as far as their responses are known. -/
def readyAnswers : List (BitVec 32) → List TMsg → List TMsg × List (BitVec 32) × List TMsg
  | [], as => ([], [], as)
  | k :: ks, as =>
    match as.find? (fun m => m.ident = k) with
    | none => ([], k :: ks, as)
    | some m =>
      let r := readyAnswers ks (as.erase m)
      (m :: r.1, r.2.1, r.2.2)

/-- Answer a request (R551, R553): flag bit 0, the request's type and identifier, status and payload. Responses leave in
the order of their requests; a session closed meanwhile gets none. -/
def tilostAnswer (sess : Nat) (typ : BitVec 16) (ident : BitVec 32) (status : BitVec 16) (pay : List (BitVec 32))
    (s : State) : State :=
  let x := sessOf s sess
  if !x.isOpen then s
  else
    let m : TMsg := { session := sess, typ := typ, flags := 1, ident := ident, status := status, payload := pay }
    let r := readyAnswers x.order (x.answers ++ [m])
    r.1.foldl (fun s m => tilostSend m s) (modSess sess (fun y => { y with order := r.2.1, answers := r.2.2 }) s)

/-- Answer the Tilost mode request that a pending request carries, with a RESULT code (R552, type 0x0020). -/
def answerMode (q : ModeReq) (status : BitVec 16) (result : BitVec 32) (s : State) : State :=
  match q.tilost with
  | none => s
  | some (sess, ident) => tilostAnswer sess 0x0020 ident status [result] s

/-- Drop the pending request because another takes its place: a management request ends with RESULT 6 when a device
request replaces it, as far as RESULT still reports it (R215), and its Tilost request is answered so in every case (R552). One that an activation
or a flush discards (R199, R626), for which the spec gives no code, ends in the same way. DESIGN CHOICE, log entry 165. -/
def dropRequest (byDevice : Bool) (s : State) : State :=
  match s.reel.req with
  | none => s
  | some q =>
    let s := modReel (fun u => { u with req := none, pend := 0xF, result := if byDevice && !q.device && q.latest then 6 else u.result }) s
    answerMode q 6 6 s

/-- A mode request accepted now (R212): one accepted at the very start of a hank has one full hank until the next commit. -/
def newRequest (m : BitVec 4) (device soon : Bool) (tilost : Option (Nat × BitVec 32)) (s : State) : ModeReq :=
  { mode := m, device := device, soon := soon, tilost := tilost
    commits := if s.reel.turn = 0 && s.reel.cycle = 0 && !s.reel.commitDue then 1 else 0 }

/-- A request of the device itself (R214, R218): it takes the pending place unless the active mode or the pending
request ranks higher, or the image lacks the deck. A mode that is active already becomes device-entered and stays. -/
def deviceRequest (m : BitVec 4) (soon : Bool) (s : State) : State :=
  let already := match s.reel.req with | none => false | some q => q.device && decide (q.mode = m) && (q.soon || !soon)
  if already || pendRank s < modeRank m || activeRank s < modeRank m then s
  else if s.reel.deck = m then modReel (fun u => { u with byMgmt := false }) (dropRequest true s)
  else if !(m = 0 || (hasDeck s m && permits s s.reel.deck m)) then s
  else
    let s := dropRequest true s
    (modReel (fun u => { u with req := some (newRequest m true soon none s), pend := m }) s)

/-- The return mode of R214. -/
def returnMode (s : State) : BitVec 4 := s.reel.ret.getD s.reel.startMode

/-- Where the device goes when a device-entered mode ends (R214): the highest-ranked whose condition holds, mode 11 while a sweep has not ended
(R216) the last of them. -/
def nextDeviceMode (s : State) : BitVec 4 :=
  if s.reel.condThermal && hasDeck s 7 then 7
  else if s.reel.condReadOnly && hasDeck s 9 then 9
  else if s.reel.condRebuild && hasDeck s 5 then 5
  else if s.media.sanitize && hasDeck s 11 then 11
  else returnMode s

/-- The device leaves mode `m` for the mode R214 gives. It acts while `m` is active or pending. -/
def leaveMode (m : BitVec 4) (s : State) : State :=
  let pendIs := match s.reel.req with | some q => decide (q.mode = m) && q.device | none => false
  if s.reel.deck = m then
    let n := nextDeviceMode s
    if n = m then modReel (fun u => { u with byMgmt := true }) s
    else if pendRank s < modeRank n then s
    else
      let s := dropRequest true s
      (modReel (fun u => { u with req := some (newRequest n true false none s), pend := n }) s)
  else if pendIs then
    let n := nextDeviceMode s
    let s := modReel (fun u => { u with req := none, pend := 0xF }) s
    if n = s.reel.deck then s
    else modReel (fun u => { u with req := some (newRequest n true false none s), pend := n }) s
  else s

/-- The condition of a device-entered mode holds (R216). -/
def conditionHolds (s : State) (m : BitVec 4) : Bool :=
  if m = 7 then s.reel.condThermal else if m = 9 then s.reel.condReadOnly else if m = 5 then s.reel.condRebuild
  else m = 11 && s.media.sanitize

/-- The active mode is device-entered and its condition has ended. -/
def modeEnded (s : State) : Bool :=
  !s.reel.byMgmt && (s.reel.deck = 5 || s.reel.deck = 7 || s.reel.deck = 9 || s.reel.deck = 11) && !conditionHolds s s.reel.deck

/-- With no request pending, what the conditions ask for is requested (R214, R218): the mode is left whose condition has ended, and one that was
recorded is entered once nothing of higher rank is active. -/
def meetConditions (s : State) : State :=
  let n := nextDeviceMode s
  if s.reel.req.isSome || n = s.reel.deck then s
  else if modeEnded s then leaveMode s.reel.deck s
  else if conditionHolds s n && decide (modeRank n ≤ activeRank s) then deviceRequest n false s
  else s

/-! ## The built-in decks (R52, R203, R627) -/

/-- The slots R52 asks of every deck: repair windows, retraining, control-port slots, on every stack. -/
def reservedSlots (s : State) : List SlotEntry :=
  [{ typ := 0x0B, owner := 0x101, kind := 8, phases := 1, start := 0, len := 1024, icount := nStacks s, istep := 1,
     ocount := 64, oshift := 128 },
   { typ := 0x0B, owner := 0x101, kind := 8, phases := 1, start := 63 * 8192 + 1024, len := 4096, icount := nStacks s, istep := 1 },
   { typ := 7, owner := 0x102, kind := 4, phases := 1, base := 8, start := 5120, len := 3072, icount := nStacks s, istep := 16,
     ocount := 64, oshift := 128 }]

/-- The built-in Hold deck (R203). DESIGN CHOICE, log entry 52. -/
def holdDeck (s : State) : Deck :=
  { mode := 0, period := 0, slots := reservedSlots s ++
    [{ typ := 0x0A, owner := 0x100, kind := 1, phases := 1, start := 0, len := 32768, icount := 16, istep := 1, ishift := 512,
       ocount := nChannels s, ostep := 16 },
     { typ := 5, owner := 0x100, kind := 2, phases := 1, cap := 1, start := 3 * 8192, len := 8192, icount := 16, ishift := 512,
       ocount := nChannels s, ostep := 1 },
     { typ := 3, owner := 0x100, kind := 1, phases := 1, start := 4 * 8192, len := 16384, icount := 16, istep := 1, ishift := 512,
       ocount := nChannels s, ostep := 16 }] }

/-- The built-in recovery deck (R627). DEDUCED, log entry 51. DESIGN CHOICE, log entry 52. -/
def recoveryDeck (s : State) : Deck :=
  let dies := ((s.store.running.map (fun im => im.groups.flatten)).getD [])
  { mode := 0xE, period := 0, slots := reservedSlots s ++
    [{ typ := 5, owner := 0x100, kind := 2, phases := 1, cap := 341, start := 0, len := 524288, icount := nChannels s, istep := 1 },
     { typ := 6, owner := 0x100, kind := 3, phases := 1, start := 0, len := 524288, icount := (if s.varB then 12 else 24), istep := 1 }] ++
    (List.range (nStacks s)).map (fun n =>
      { typ := 7, owner := 0x100, kind := 4, base := 16 * n, phases := 1, start := 5120, len := 3072, icount := 8, istep := 1,
        ocount := 64, oshift := 128 }) ++
    dies.map (fun d => { typ := 3, owner := 0x100, kind := 1, base := d, phases := 1, start := 0, len := 524288 }) }

/-- The sequencer starts with a built-in deck at a hank boundary. -/
def startBuiltIn (m : BitVec 4) (dk : Deck) (s : State) : State :=
  modReel (fun u => { u with
        run := true, deck := m, tt := dk, phase := 0, period := 0, turn := 0, cycle := 0, req := none,
        pend := 0xF, commitDue := false, grants := [], early := [] }) s

/-! ## The power-fail flush (R625–R629) -/

/-- A flush record as its bytes (R629); a begin record ends in its two wrapped keys (R628). -/
def flushBytes (f : FlushRec) (keys : List (BitVec 8)) : List (BitVec 8) :=
  leBytes 4 0x4853465A ++ leBytes 1 f.kind.toNat ++ leBytes 1 f.trigger.toNat ++ leBytes 2 0 ++
  leBytes 4 f.seq.toNat ++ leBytes 4 f.earlier.toNat ++ leBytes 8 f.digest.toNat ++ leBytes 8 f.bytes ++
  leBytes 8 f.units ++ keys ++ leBytes (1024 - 40 - keys.length) 0

/-- The bytes of flush record n go into sectors 8 and 9 in turn; a sector is erased before its first record. -/
def putFlushRec (n : Nat) (bytes : List (BitVec 8)) (s : State) : State :=
  let sec := 8 + (n / 64) % 2
  let s := if n % 64 = 0 then modBac (bacErase (bank3 sec 0) 65536) s else s
  bacLine sec (n % 64) bytes s

/-- Program a flush record (R629). -/
def writeFlushRec (f : FlushRec) (keys : List (BitVec 8)) (s : State) : State :=
  let n := s.pwr.recCount
  modPwr (fun u => { u with records := u.records ++ [f], recCount := n + 1 }) (putFlushRec n (flushBytes f keys) s)

/-- A flush is in force: a begin record with no later retire record of its number (R634). -/
def flushInForce (s : State) : Option FlushRec :=
  (s.pwr.records.filter (fun f => f.kind = 1 &&
    !(s.pwr.records.any (fun g => g.kind = 3 && g.seq = f.seq)))).getLast?

/-- The image digest a begin record carries (R626, R629). -/
def flushDigest (s : State) : BitVec 64 :=
  match s.store.act with
  | .stopped => s.store.recDig
  | _ => activeDigest s

/-- The begin record of a flush, with its two wrapped keys (R628, R629). -/
def writeBegin (trigger : BitVec 4) (staged : Nat) (s : State) : State :=
  let f : FlushRec :=
    { kind := 1, trigger := trigger.setWidth 8, seq := s.pwr.seq,
      earlier := ((flushInForce s).map (·.seq)).getD 0, digest := flushDigest s, bytes := staged, keys := s.pwr.flushKeys }
  writeFlushRec f (leBytes 40 (Config.wrapKey f.keys.1).toNat ++ leBytes 40 (Config.wrapKey f.keys.2).toNat) s

/-- A flush is in force from here on: commands are no longer taken, and it is reported (R626 steps 1 and 2). -/
def openFlush (trigger : BitVec 4) (staged : Nat) (s : State) : State :=
  let s := modXpt (fun u => { u with takes := false }) s
  let s := modPwr (fun u => { u with flush := 1, trigger := trigger, irq := setBit u.irq 0, waitCommit := true, seq := u.seq + 1 }) s
  let s := event 0x0202 [trigger.setWidth 32, w32 staged, w32 (staged / 2 ^ 32)] s
  modPwr (fun u => { u with since := s.now }) s

/-- With the sequencer stopped for an activation, it starts at a hank boundary, which is due for the commit that switches to the recovery
deck, and the activation is abandoned (R626 step 3). -/
def flushStopped (s : State) : State :=
  match s.store.act with
  | .stopped => modReel (fun u => { u with run := true, turn := 0, cycle := 0, commitDue := true, grants := [], early := [] })
      (modStore (fun u => { u with act := .none }) s)
  | _ => s

/-- Start a flush (R625, R626 steps 1 to 3) unless no image has run since power-up; a trigger during one joins it. -/
def startFlush (trigger : BitVec 4) (s : State) : State :=
  if !s.pwr.imageRan || s.pwr.flush = 1 then s
  else flushStopped (writeBegin trigger (stagedBytes s) (bacAbandon (openFlush trigger (stagedBytes s) s)))

/-! ## Faults (R557–R566) -/

/-- Steps 4 and 5 of the Grave sequence (R565): request Hold for the next commit, then write the Grave record. -/
def graveFinish (s : State) : State :=
  let s := if s.reel.run then
      let s := deviceRequest 0 true s
      (modFcr (fun u => { u with steps := setBit u.steps 3 }) s)
    else s
  writeRecord 1 s.fcr.graveGroup.toNat s.fcr.graveCause.toNat s.fcr.steps.toNat 0 s

/-- A fault becomes Grave (R564, R565): the group takes class 4; the first one runs the Grave sequence. A flush that
runs counts as steps 2 and 3, whose bits are set at its end (R633). -/
def becomeGrave (g : Nat) (cause : BitVec 2) (s : State) : State :=
  let s := modGroup g (fun x => { x with cls := 4 }) s
  if s.fcr.grave then modFcr (fun u => { u with more := satInc u.more }) s
  else
    let s := modFcr (fun u => { u with grave := true, graveGroup := BitVec.ofNat 6 g, graveCause := cause }) s
    let rg : BitVec 32 := if s.fcr.reactOpen then s.fcr.reactGroup.setWidth 32 else 0xFFFFFFFF
    let s := eventC 0x0F05 4 [w32 g, cause.setWidth 32, rg] s
    if s.pwr.flush = 1 then modPwr (fun u => { u with graveAfter := true }) s
    else
      let s := modXpt (fun u => { u with takes := false }) (modFcr (fun u => { u with steps := setBit u.steps 0 }) s)
      if stagedBytes s = 0 then graveFinish (modFcr (fun u => { u with steps := setBit u.steps 2 }) s)
      else
        let s := startFlush 4 s
        if s.pwr.flush = 1 then (modPwr (fun u => { u with graveAfter := true }) s) else graveFinish s

/-- A Severe fault arrives at group g (R562, R673). -/
def severeArrive (g : Nat) (s : State) : State :=
  if !s.fcr.ren then s
  else if !s.fcr.reactOpen then
    let s := modFcr (fun u => { u with reactOpen := true, reactCount := 0, reactGroup := BitVec.ofNat 6 g }) s
    let s := event 0x0F03 [w32 g] s
    (modFcr (fun u => { u with reactSince := s.now }) s)
  else if s.fcr.reactGroup.toNat = g then
    modFcr (fun u => { u with reactCount := satInc u.reactCount }) s
  else becomeGrave g 2 s

/-- The escalation class of a group: 2 or 3 (R577). DEDUCED, log entry 85. -/
def escOf (x : FcrGroup) : BitVec 3 := if x.esc = 2 then 2 else 3

/-- A fault of class `c` on group `g` (R560–R562, R564). -/
def raiseFault (g : Nat) (c : BitVec 3) (s : State) : State :=
  let s := modGroup g (fun x => { x with
      cls := if x.cls < c then c else x.cls
      total := satInc x.total
      wcount := if x.winOpen then satInc x.wcount else 1
      winOpen := true }) s
  if c = 4 then becomeGrave g 1 s
  else
    let x := groupOf s g
    let esc := x.n ≠ 0 && x.wcount = x.n && x.cls < escOf x
    let s := if esc then eventC 0x0F02 (escOf x).toNat [w32 g, (escOf x).setWidth 32, x.wcount.setWidth 32]
                           (modGroup g (fun y => { y with cls := escOf x }) s) else s
    if c = 3 || (esc && escOf x = 3) then severeArrive g s else s

/-! ## Slot violations and crossing queues (R21, R87, R88, R158, R172) -/

/-- A slot violation: kind 1–6, index and slot entry as in REEL_VIOL_AT, and the bit of REEL_VIOL (R172). -/
def slotViolation (kind : Nat) (index slot : Nat) (s : State) : State :=
  let at_ : BitVec 32 := fld (BitVec.ofNat 4 kind) 28 ||| fld (BitVec.ofNat 12 index) 16 ||| fld (BitVec.ofNat 16 slot) 0
  let pos : BitVec 32 := fld s.reel.turn 16 ||| fld s.reel.cycle 0
  let s := modReel (fun u => { u with
        vcount := satInc u.vcount, lossDue := true, viol := if u.vbits = 0 then at_ else u.viol,
        vbits := setBit u.vbits (kind - 1) }) s
  raiseFault 7 3 (eventC 0x0602 3 [at_, pos] s)

/-- The depth of a crossing queue (R158), by its code of R88: 0 CORE to pier, 1 pier to CORE, 2 CORE to NET, 3 CORE to DRAM, 4 DRAM to CORE. -/
def crossingDepth (x : Nat) : Nat := if x = 0 then 320 else if x = 1 then 288 else 2048

/-- The maximum window of a crossing in core cycles (R26). -/
def crossingMax (x : Nat) : Nat := if x = 0 then 72 else if x = 1 then 88 else if x = 2 then 48 else 36

/-- The minimum window of a crossing in core cycles (R26). -/
def crossingMin (x : Nat) : Nat := if x = 0 then 48 else if x = 1 then 56 else if x = 2 then 32 else 20

/-- The key of a crossing queue: its code and its channel, port or stack. -/
def crossingKey (x n : Nat) : Nat := x * 256 + n

/-- The entries in a crossing queue at a core cycle: those of early grants, and the units pushed by then and not yet drained. -/
def crossingLoad (s : State) (x n at_ : Nat) : Nat :=
  mget 0 s.reel.xq (crossingKey x n) + ((mget [] s.reel.xfly (crossingKey x n)).filter (fun t => decide (at_ < t ∧ t ≤ at_ + crossingMax x))).length

/-- The entries that are in a crossing queue at a core cycle whatever their crossings take within the window: those of early grants, and the
units not yet drained at the minimum window (R26, R177). -/
def crossingSure (s : State) (x n at_ : Nat) : Nat :=
  mget 0 s.reel.xq (crossingKey x n) +
    ((mget [] s.reel.xfly (crossingKey x n)).filter (fun t =>
      decide (at_ + (crossingMax x - crossingMin x) < t ∧ t ≤ at_ + crossingMax x))).length

/-- A crossing queue is full at a core cycle: what it holds at the least and at the most decides, and between the two it is free (R158, R177). -/
def crossingFull (x n at_ : Nat) (s : State) : Bool × State :=
  if crossingLoad s x n at_ < crossingDepth x then (false, s)
  else if crossingDepth x ≤ crossingSure s x n at_ then (true, s)
  else drawBool s

/-- The room of a crossing queue now: free between what it holds at the most and at the least (R120, R177). -/
def crossingRoom (pre : State) (x n : Nat) (s : State) : Nat × State :=
  let most := crossingLoad pre x n pre.reel.core
  let free := most - crossingSure pre x n pre.reel.core
  if free = 0 then (crossingDepth x - most, s)
  else
    let (v, s) := drawBits s
    (crossingDepth x - (most - v.toNat % (free + 1)), s)

/-- One unit is pushed into a crossing queue, `k` cycles from now, and the receiver drains it within the crossing's window (R26, R158). A full
queue does not accept it, which is a slot violation (R21, R88). Answers whether it is accepted. DEDUCED, log entry 34. -/
def pushUnit (x n slot k : Nat) (s : State) : Bool × State :=
  let at_ := s.reel.core + k
  match crossingFull x n at_ s with
  | (true, s) => (false, slotViolation 6 (crossingKey x n) slot s)
  | (false, s) =>
    let old := (mget [] s.reel.xfly (crossingKey x n)).filter (fun t => decide (s.reel.core < t))
    (true, modReel (fun u => { u with xfly := mset [] (crossingKey x n) (old ++ [at_ + crossingMax x]) u.xfly }) s)

/-- The units of an item are pushed one in each cycle; those a full queue does not accept are lost. -/
def pushUnits (x n slot : Nat) : Nat → List (BitVec 256) → State → List (BitVec 256) × State
  | _, [], s => ([], s)
  | k, u :: us, s =>
    let (ok, s) := pushUnit x n slot k s
    let (rest, s) := pushUnits x n slot (k + 1) us s
    (if ok then u :: rest else rest, s)

/-- A run of units is pushed one in each cycle, the first `k` cycles from now, as far as the queue accepts them; answers whether it took them all. -/
def pushRun (x n slot : Nat) : Nat → Nat → State → Bool × State
  | _, 0, s => (true, s)
  | k, m + 1, s =>
    match pushUnit x n slot k s with
    | (false, s) => (false, s)
    | (true, s) => pushRun x n slot (k + 1) m s

end Sys2Proof.Machine
end

