-- ==== Sys2Proof/Machine/Twin.lean ====
section
/-! DEFINITION. The records of bank 3 that are kept as two copies which alternate: the image-select record, the remap table, the key ring
and the board description (R178, R179, R193, R490, R540, R619). The spec lays no byte of them out. DESIGN CHOICE, log entry 142. -/

namespace Sys2Proof.Machine

/-! ## Two copies (R179, R540) -/

/-- The bytes of one copy: sequence number, length, CRC-32 of all the rest, payload. -/
def copyBytes (seq : Nat) (pay : List (BitVec 8)) : List (BitVec 8) :=
  leBytes 4 seq ++ leBytes 4 pay.length ++ leBytes 4 (crc32 (leBytes 4 seq ++ leBytes 4 pay.length ++ pay)).toNat ++ pay

/-- A byte of a copy's sector. -/
def copyByte (b : Bac) (sec k : Nat) : BitVec 8 := bacByte b (bank3 sec 0 + k)

/-- The number that `n` bytes of a copy's sector spell. -/
def copyNat (b : Bac) (sec off n : Nat) : Nat := leNat ((List.range n).map (fun k => copyByte b sec (off + k)))

/-- The copy in a sector, with its sequence number: none where a code word of it cannot be read or its CRC-32 is wrong. -/
def copyAt (b : Bac) (sec : Nat) : Option (Nat × List (BitVec 8)) :=
  let seq := copyNat b sec 0 4
  let n := copyNat b sec 4 4
  let words := (n + 43) / 32
  if 65536 < n + 12 then none
  else
    let pay := (List.range n).map (fun k => copyByte b sec (12 + k))
    if (List.range words).any (fun k => mget false b.bad (bank3 sec 0 / 32 + k)) then none
    else if copyNat b sec 8 4 = (crc32 (leBytes 4 seq ++ leBytes 4 n ++ pay)).toNat then some (seq, pay) else none

/-- The copy in force of the two in sectors `sec` and `sec + 1`: the valid one with the higher sequence number. -/
def copyInForce (b : Bac) (sec : Nat) : Option (Nat × List (BitVec 8)) :=
  match copyAt b sec, copyAt b (sec + 1) with
  | some x, some y => if x.1 < y.1 then some y else some x
  | some x, none => some x
  | none, y => y

/-- The sector of the older copy, which the next one takes. -/
def olderSector (b : Bac) (sec : Nat) : Nat :=
  match copyAt b sec, copyAt b (sec + 1) with
  | some x, some y => if x.1 < y.1 then sec else sec + 1
  | some _, none => sec + 1
  | none, _ => sec

/-- A new copy is written: the older copy's sector is erased and programmed (R540). -/
def writeCopy (sec : Nat) (pay : List (BitVec 8)) (s : State) : State :=
  let b := s.bac
  let k := olderSector b sec
  let bytes := copyBytes (((copyInForce b sec).map (·.1)).getD 0 + 1) pay
  modBac (fun _ => bacMark (bank3 k 0) ((bytes.length + 31) / 32) (bacPut (bank3 k 0) bytes (bacErase (bank3 k 0) 65536 b))) s

/-- The payload of the copy in force. -/
def readCopy (s : State) (sec : Nat) : Option (List (BitVec 8)) := (copyInForce s.bac sec).map (·.2)

/-- The number that `n` bytes of a payload from `off` spell. -/
def payNat (p : List (BitVec 8)) (off n : Nat) : Nat := leNat ((p.drop off).take n)

/-! ## The image-select record (R179) -/

/-- The record as the firmware holds it, as a payload. -/
def selectPay (u : Store) : List (BitVec 8) := leBytes 1 u.recBank.toNat ++ leBytes 8 u.recDig.toNat ++ leBytes 2 u.floor.toNat

/-- Write the image-select record. -/
def writeSelect (s : State) : State := writeCopy 0 (selectPay s.store) s

/-- The record that the copy in force holds; no bank where neither copy is valid. -/
def readSelect (s : State) : State :=
  let p := (readCopy s 0).getD []
  modStore (fun u => { u with
    recBank := BitVec.ofNat 2 (payNat p 0 1), recDig := BitVec.ofNat 64 (payNat p 1 8), floor := BitVec.ofNat 16 (payNat p 9 2) }) s

/-! ## The remap table (R490) -/

/-- Write the remap table. -/
def writeRemapTable (s : State) : State :=
  writeCopy 2 ((s.store.remap.map (fun e => leBytes 2 e.1 ++ leBytes 4 e.2.1 ++ leBytes 2 e.2.2)).flatten) s

/-- The table that the copy in force holds. -/
def readRemapTable (s : State) : State :=
  let p := (readCopy s 2).getD []
  modStore (fun u => { u with
    remap := (List.range (p.length / 8)).map (fun k => (payNat p (8 * k) 2, payNat p (8 * k + 2) 4, payNat p (8 * k + 6) 2)) }) s

/-! ## The key ring (R193, R194, R550) -/

/-- A slot of the ring as bytes. -/
def ringBytes (k : RingKey) : List (BitVec 8) :=
  leBytes 1 ((if k.present then 1 else 0) + (if k.revoked then 2 else 0)) ++ leBytes 48 k.x.toNat ++ leBytes 48 k.y.toNat

/-- A slot of the ring (R193): slot 0 holds Zeluk's key, as the device is made with it while no copy of the ring gives it. DEDUCED, log entry 147. -/
def ringSlot (s : State) (k : Nat) : RingKey :=
  if k = 0 && !(mget {} s.store.ring 0).present then { present := true, x := Config.zelukKeyX, y := Config.zelukKeyY }
  else mget {} s.store.ring k

/-- Write the key ring: its five slots and the management hashes. -/
def writeRing (s : State) : State :=
  writeCopy 4 (((List.range 5).map (fun k => ringBytes (ringSlot s k))).flatten ++
    (s.store.hashes.map (fun h => leBytes 48 h.toNat)).flatten) s

/-- A slot that a payload holds from `off` on. -/
def ringAt (p : List (BitVec 8)) (off : Nat) : RingKey :=
  { present := decide (payNat p off 1 % 2 = 1), revoked := decide (payNat p off 1 / 2 % 2 = 1)
    x := BitVec.ofNat 384 (payNat p (off + 1) 48), y := BitVec.ofNat 384 (payNat p (off + 49) 48) }

/-- The ring that the copy in force holds. -/
def readRing (s : State) : State :=
  let p := (readCopy s 4).getD []
  modStore (fun u => { u with
    ring := (List.range 5).foldl (fun m k => mset {} k (ringAt p (97 * k)) m) []
    hashes := (List.range ((p.length - 485) / 48)).map (fun k => BitVec.ofNat 384 (payNat p (485 + 48 * k) 48)) }) s

/-! ## The board description (R619) -/

/-- Write the board description. -/
def writeBoard (s : State) : State := writeCopy 10 ((s.store.board.map (fun w => leBytes 4 w.toNat)).flatten) s

/-- The description that the copy in force holds. -/
def readBoard (s : State) : State :=
  let p := (readCopy s 10).getD []
  modStore (fun u => { u with board := (List.range (p.length / 4)).map (fun k => BitVec.ofNat 32 (payNat p (4 * k) 4)) }) s

end Sys2Proof.Machine
end

