-- ==== Sys2Proof/Machine/Memory.lean ====
section
/-! DEFINITION. The distaff physical address space (R29–R32), memory protection (R514–R519), SRAM and DRAM with their
ECC and poison (R475–R488), and the boot-array window (R539–R542). -/

namespace Sys2Proof.Machine

/-! ## The address map (R29, R30, R6) -/

/-- Where an address lies. -/
inductive Place where
  | boot (off : Nat)
  | sram
  | control
  | dram (stack : Nat)
  | nowhere
  deriving DecidableEq, Repr

/-- The decoded spans of control space, as offsets from 0x01_0000_0000. -/
def controlSpans : List (Nat × Nat) :=
  [(0x0, 0xDFFFF), (0x100000, 0x10FFFF), (0x200000, 0x23FFFF), (0x300000, 0x30FFFF), (0x400000, 0x4FFFFF),
   (0x800000, 0x8FFFFF), (0x1000000, 0x17FFFFF), (0x2000000, 0x200FFFF), (0x2100000, 0x210FFFF),
   (0x2200000, 0x220FFFF), (0x2300000, 0x230FFFF)]

/-- The spans absent on the IH964-B (R6): PIERB, NET windows 4–7 and SPN windows 32–63. -/
def absentSpans : List (Nat × Nat) :=
  [(0x1400000, 0x17FFFFF), (0x440000, 0x47FFFF), (0x220000, 0x23FFFF)]

/-- An offset lies in one of some spans. -/
def inSpans (l : List (Nat × Nat)) (o : Nat) : Bool := l.any (fun r => decide (r.1 ≤ o ∧ o ≤ r.2))

/-- The base of control space. -/
def ctlBase : Nat := 0x100000000

/-- Decode an address (R29, R6). -/
def placeOf (s : State) (a : Nat) : Place :=
  if a < 0x4000000 then .boot a
  else if 0x10000000 ≤ a ∧ a < 0x10800000 then .sram
  else if ctlBase ≤ a ∧ a ≤ 0x10230FFFF then
    if inSpans controlSpans (a - ctlBase) && !(s.varB && inSpans absentSpans (a - ctlBase)) then .control else .nowhere
  else if 0x1000000000 ≤ a ∧ a < 0x1000000000 + nStacks s * 0x600000000 then .dram ((a - 0x1000000000) / 0x600000000)
  else .nowhere

/-! ## Bytes of SRAM and DRAM -/

/-- One byte of SRAM or DRAM: 0 where nothing is listed (R494 writes every word with zeros). DESIGN CHOICE, log entry 12. -/
def memByte (s : State) (a : Nat) : BitVec 8 := mget 0 s.mem a

/-- Bytes of SRAM or DRAM in address order. -/
def memBytes (s : State) (a n : Nat) : List (BitVec 8) := (List.range n).map (fun k => memByte s (a + k))

/-- Write bytes of SRAM or DRAM in address order. DESIGN CHOICE, log entry 13. -/
def putBytes (a : Nat) : List (BitVec 8) → SMap (BitVec 8) → SMap (BitVec 8)
  | [], m => m
  | b :: bs, m => putBytes (a + 1) bs (mset 0 a b m)

/-- The canonical form of memory. DESIGN CHOICE, log entry 13. -/
def Memory.wf (m : SMap (BitVec 8)) : Bool := mwf 0 m

/-- The unit numbers an access of `n` bytes at `a` touches. -/
def unitsOf (a n : Nat) : List Nat := (List.range ((a + n + 31) / 32 - a / 32)).map (fun k => a / 32 + k)

/-- Unit `u` lies whole inside the access. -/
def wholeUnit (a n u : Nat) : Bool := decide (a ≤ 32 * u ∧ 32 * u + 32 ≤ a + n)

/-- An access touches a poisoned unit. -/
def poisoned (s : State) (a n : Nat) : Bool := (unitsOf a n).any (fun u => mget false s.poison u)

/-- Set or clear the poison of a unit. -/
def setPoison (u : Nat) (b : Bool) (s : State) : State := { s with poison := mset false u b s.poison }

/-- A write, whatever agent makes it, ends every reservation it touches but those of the writer (R150). DEDUCED, log entry 160. -/
def dropResv (a n : Nat) (writer : Option Nat) (s : State) : State :=
  { s with cores := mmapv {} id (s.cores.map (fun e =>
      if writer = some e.1 then e
      else match e.2.resv with
        | some g => if decide (a < 64 * g + 64 ∧ 64 * g < a + n) then (e.1, { e.2 with resv := none }) else e
        | none => e)) }

/-- The bytes of a line with those of a write put over them. -/
def lineOver (a : Nat) (bs : List (BitVec 8)) (line : Nat) (old : List (BitVec 8)) : List (BitVec 8) :=
  (List.range 64).map (fun k =>
    if a ≤ 64 * line + k ∧ 64 * line + k < a + bs.length then bs.getD (64 * line + k - a) 0 else old.getD k 0)

/-- A write by another agent also counts as made under a line that a core's data cache holds stored to: discarding the line undoes the core's
stores alone (R149). -/
def underDirty (a : Nat) (bs : List (BitVec 8)) (s : State) : State :=
  let clear := fun (line : Nat) (b : BitVec 2) =>
    [0, 1].foldl (fun m k => if wholeUnit a bs.length (2 * line + k) then clrBit m k else m) b
  { s with cores := mmapv {} (fun (x : CoreSt) =>
      { x with dirty := x.dirty.map (fun e => (e.1, lineOver a bs e.1 e.2)), dbad := mmapv 0 id (x.dbad.map (fun e => (e.1, clear e.1 e.2))) }) s.cores }

/-- The bytes of a write land: a unit written whole loses its poison, any other keeps it (R488), and write-backs of the units are cancelled
(R481). -/
def landBytes (a : Nat) (bs : List (BitVec 8)) (s : State) : State :=
  let n := bs.length
  let s := { s with mem := putBytes a bs s.mem }
  let s := (unitsOf a n).foldl (fun s u => if wholeUnit a n u then setPoison u false s else s) s
  { s with drcs := mmapv {} (fun (d : Drc) =>
      { d with wback := d.wback.filter (fun u => !((unitsOf a n).contains u)) }) s.drcs }

/-- A write of memory: its bytes land, under the lines that cores hold where no core makes it, and other cores' reservations on the granule end
(R150). -/
def writeMem (writer : Option Nat) (a : Nat) (bs : List (BitVec 8)) (s : State) : State :=
  let s := landBytes a bs s
  dropResv a bs.length writer (if writer.isNone then underDirty a bs s else s)

/-- The caches of the other cores give up the lines a write touches, without losing what was stored there (R148). DESIGN CHOICE, log entry 37. -/
def cleanLines (a n : Nat) (writer : Option Nat) (s : State) : State :=
  { s with cores := mmapv {} id (s.cores.map (fun e =>
      if writer = some e.1 then e
      else (e.1, { e.2 with dirty := e.2.dirty.filter (fun l => decide (l.1 * 64 + 64 ≤ a ∨ a + n ≤ l.1 * 64)) }))) }

/-! ## Row-activation counting (R462, R475–R477) -/

/-- The bank index of an offset in a stack (R462, R463). -/
def bankOf (o : Nat) : Nat := (o / 2 ^ 8 % 32) * 64 + (o / 2 ^ 17 % 4) * 16 + o / 2 ^ 13 % 16

/-- The row of an offset in a stack (R462). -/
def rowOf (o : Nat) : Nat := o / 2 ^ 21

/-- The smallest count of a table. -/
def minCount : List (Nat × Nat) → Nat
  | [] => 0
  | [e] => e.2
  | e :: es => min e.2 (minCount es)

/-- Give the first entry with count `c` to row `r` with count `c + 1`. -/
def takeEntry (r c : Nat) : List (Nat × Nat) → List (Nat × Nat)
  | [] => []
  | e :: es => if e.2 = c then (r, c + 1) :: es else e :: takeEntry r c es

/-- Count an activation of row `r`; answers the table and the row's new count (R475). -/
def countRow (r : Nat) (t : List (Nat × Nat)) : List (Nat × Nat) × Nat :=
  match t.find? (fun e => e.1 = r) with
  | some e => (t.map (fun x => if x.1 = r then (r, x.2 + 1) else x), e.2 + 1)
  | none =>
    if t.length < 64 then (t ++ [(r, 1)], 1)
    else (takeEntry r (minCount t) t, minCount t + 1)

/-- One activation at offset `o` of stack `n`: counted, and at each multiple of 8,192 a neighbour refresh is queued, or
dropped at a full queue with event 0x0506 and a Severe fault (R476, R477). -/
def activate (n o : Nat) (s : State) : State :=
  let d := drcOf s n
  let k := bankOf o
  let b := mget {} d.banks k
  let (t, c) := countRow (rowOf o) b.rows
  if c % 8192 = 0 then
    if b.queue.length < 64 then
      let q := b.queue ++ [rowOf o]
      modDrc n (fun d => { d with banks := mset {} k { b with rows := t, queue := q } d.banks
                                  trig := satInc d.trig
                                  qmax := if d.qmax.toNat < q.length then BitVec.ofNat 8 q.length else d.qmax }) s
    else
      let s := modDrc n (fun d => { d with banks := mset {} k { b with rows := t } d.banks }) s
      raiseFault 17 3 (eventC 0x0506 3 [w32 n, w32 k, w32 (rowOf o)] s)
  else modDrc n (fun d => { d with banks := mset {} k { b with rows := t } d.banks }) s

/-- The activations of an access of `len` bytes at DRAM address `a`: one for each unit (R464). -/
def activateSpan (a len : Nat) (s : State) : State :=
  (unitsOf a len).foldl (fun s u =>
    let o := 32 * u - 0x1000000000
    activate (o / 0x600000000) (o % 0x600000000) s) s

/-! ## What ECC finds (R481–R483, R506, R507) -/

/-- Spare rows of an array, or of a bank of a DRAM stack (R491). -/
def spareRows (code : Nat) : Nat :=
  if 0x100 ≤ code ∧ code < 0x140 then 8 else if 0x200 ≤ code ∧ code < 0x240 then 4 else if code = 0x300 then 64
  else if 0x400 ≤ code ∧ code < 0x410 then 4 else if code = 0x500 ∨ code = 0x600 then 16
  else if 0x700 ≤ code ∧ code < 0x704 then 2 else 0

/-- The resident firmware writes a remap entry for a candidate, for the next power-up (R490–R492): event 0x0132 with what came of
it. A row that has its entry gets no second one. DEDUCED, log entry 126. -/
def writeRemap (code row : Nat) (s : State) : State :=
  let mine := s.store.remap.filter (fun e => e.1 = code && (decide (code < 0x700) || e.2.1 / 16384 = row / 16384))
  if mine.any (fun e => e.2.1 = row) then s
  else if mine.length < spareRows code ∧ s.store.remap.length < 1024 then
    event 0x0132 [w32 code, w32 row, w32 mine.length, 2]
      (writeRemapTable (modStore (fun u => { u with remap := u.remap ++ [(code, row, mine.length)] }) s))
  else event 0x0132 [w32 code, w32 row, 0xFF, 3] s

/-- A word of an on-package array was corrected: whether this makes its row a candidate (R483) is free, for the spec does not lay out
the arrays' rows; so is the row. DEDUCED, log entry 126. -/
def sramCandidate (code : Nat) (s : State) : State :=
  let (b, s) := drawBool s
  let (r, s) := drawBits s
  let row := r.toNat % 65536
  if b then writeRemap code row (event 0x0132 [w32 code, w32 row, 0xFF, 1] s) else s

/-- A corrected word of an array of R480 other than scratch (R483, R506). DESIGN CHOICE, log entry 38. -/
def sramCorrected (code : Nat) (s : State) : State :=
  sramCandidate code (modSys (fun u => { u with sramCorr := satInc u.sramCorr }) s)

/-- A remap candidate of stack `n` (R483). -/
def candidate (n o : Nat) (s : State) : State :=
  writeRemap (0x700 + n) (bankOf o * 16384 + rowOf o)
    (event 0x0502 [w32 n, w32 (bankOf o), w32 (rowOf o)] (modDrc n (fun d => { d with irq := setBit d.irq 0 }) s))

/-- A corrected read of the DRAM unit at `a` (R481, R483): counted, its address latched, a write-back queued, and the
row a candidate at its third correction within 65,536 hanks. -/
def dramCorrected (n a : Nat) (s : State) : State :=
  let o := (a - 0x1000000000) % 0x600000000
  let key := bankOf o * 16384 + rowOf o
  let h := s.reel.hanks.toNat
  let old := (drcOf s n).corrs.filter (fun e => decide (h < e.2 + 65536))
  let s := modDrc n (fun d => { d with corr := satInc d.corr, caddr := BitVec.ofNat 40 a,
                                       wback := if d.wback.contains (a / 32) then d.wback else d.wback ++ [a / 32],
                                       corrs := old ++ [(key, h)] }) s
  if (old.filter (fun e => e.1 = key)).length = 2 then candidate n o s else s

/-- A DRAM unit found uncorrectable (R482, R483): poisoned, counted, latched, event 0x0501, Degraded fault; a unit that
had been found so before is a remap candidate. `who` is the event's requester word. -/
def dramUncorrectable (n a who : Nat) (s : State) : State :=
  let u := a / 32
  let again := mget false s.unc u
  let s := setPoison u true s
  let s := { s with unc := mset false u true s.unc }
  let s := modDrc n (fun d => { d with uaddr := if d.uncorr = 0 then BitVec.ofNat 40 (32 * u) else d.uaddr,
                                       uncorr := satInc d.uncorr, irq := setBit d.irq 1 }) s
  let s := eventC 0x0501 2 [w32 n, w32 (32 * u), w32 (32 * u / 2 ^ 32), w32 who] s
  let s := raiseFault 15 2 s
  if again then candidate n ((32 * u - 0x1000000000) % 0x600000000) s else s

/-- A word of an on-package array found uncorrectable for the first time (R482, R507, R510): array code, row, word. -/
def sramUncorrectable (code row word : Nat) (s : State) : State :=
  let s := modSys (fun u => { u with
        sramUAddr := if u.sramUnc = 0 then fld (BitVec.ofNat 16 code) 16 ||| w32 (row % 65536) else u.sramUAddr,
        sramUnc := satInc u.sramUnc }) s
  raiseFault 15 2 (eventC 0x0131 2 [w32 code, w32 row, w32 word] s)

/-- A word of an array whose rows the spec does not lay out is found uncorrectable: its row and word are free values. -/
def arrayUncorrectable (code : Nat) (s : State) : State :=
  let (r, s) := drawBits s
  sramUncorrectable code (r.toNat % 65536) (r.toNat / 65536 % 256) s

/-- A unit of distaff SRAM found uncorrectable: poisoned and reported. -/
def sramUnitUncorrectable (a : Nat) (s : State) : State := arrayUncorrectable 0x0300 (setPoison (a / 32) true s)

/-- What a read of one unit finds, applied to the state: `who` names the requester of R509. A unit stored poisoned
counts in DRC_ECC.POISON only. DESIGN CHOICE, log entry 38. -/
def eccRead (a : Nat) (ecc : Ecc) (who : Nat) (s : State) : State :=
  match placeOf s a with
  | .dram n =>
    if mget false s.poison (a / 32) then modDrc n (fun d => { d with poison := satInc d.poison }) s
    else match ecc with
      | .ok => s
      | .corrected => dramCorrected n a s
      | .uncorrectable => dramUncorrectable n a who s
  | .sram =>
    if mget false s.poison (a / 32) then s
    else match ecc with
      | .ok => s
      | .corrected => sramCorrected 0x0300 s
      | .uncorrectable => sramUnitUncorrectable a s
  | _ => s

/-- A narrow write into a DRAM unit meets the merge rule (R486): a poisoned unit stays poisoned and event 0x0505 is
recorded with a Degraded fault (R559). -/
def mergeNotice (a n : Nat) (s : State) : State :=
  (unitsOf a n).foldl (fun s u =>
    if mget false s.poison u && !(wholeUnit a n u) then
      match placeOf s (32 * u) with
      | .dram k => raiseFault 15 2 (eventC 0x0505 2 [w32 k, w32 (32 * u), w32 (32 * u / 2 ^ 32)] s)
      | _ => s
    else s) s

/-! ## The boot-array window (R539, R542) -/

/-- The bank that an operation holds busy, if any (R541). -/
def busyBank (s : State) : Option Nat := if s.bac.busy then some s.bac.bank.toNat else none

/-- An access to offset `o` reaches a busy bank. -/
def bankBusy (s : State) (o : Nat) : Bool := busyBank s = some (o / 2 ^ 24)

/-- The parameter word that names a master (R556). DESIGN CHOICE, log entry 37. -/
def masterWord : Master → BitVec 32
  | .core n => n.setWidth 32
  | .dma n => 0x10 + n.setWidth 32
  | _ => 0xFFFFFFFF

/-- Event 0x0D04, once per operation (R542). -/
def busyNotice (m : Master) (a : Nat) (s : State) : State :=
  if s.bac.told then s
  else event 0x0D04 [0, w32 a, masterWord m] (modBac (fun u => { u with told := true }) s)

/-- A code word of the window is uncorrectable. -/
def bootBad (s : State) (o n : Nat) : Bool := (unitsOf o n).any (fun u => mget false s.bac.bad u)

/-- An uncorrectable code word is read (R539). -/
def bootUncorrectable (o : Nat) (s : State) : State :=
  let w : BitVec 26 := BitVec.ofNat 26 (o / 32 * 32)
  let s := modBac (fun u => { u with uaddr := if u.uncorr = 0 then w else u.uaddr, uncorr := satInc u.uncorr }) s
  event 0x0D02 [0, w.setWidth 32] s

/-! ## Memory protection (R515–R519) -/

/-- What an access needs (R514). -/
inductive Need where
  | read | write | fetch
  deriving DecidableEq, Repr

/-- MEMP_VIOL.KIND of a need (R519). -/
def Need.code : Need → BitVec 2
  | .read => 1
  | .write => 2
  | .fetch => 3

/-- The bit of a master in MEMP_MASK is at this place: cores in 15:0, DMA channels in 31:16 (R514). -/
def maskBit : Master → Nat
  | .core n => n.toNat
  | .dma n => 16 + n.toNat
  | _ => 32

/-- One region allows an access: valid, holding every byte, granting the master and the need (R515). -/
def regionAllows (r : Region) (m : Master) (a n : Nat) (k : Need) : Bool :=
  r.valid && decide (r.base.toNat * 4096 ≤ a ∧ a + n ≤ r.limit.toNat * 4096 + 4096) && bit r.mask (maskBit m) &&
    (match k with | .read => r.r | .write => r.w | .fetch => r.x)

/-- Some region allows the access (R515). -/
def protAllows (s : State) (m : Master) (a n : Nat) (k : Need) : Bool :=
  s.memp.regions.any (fun e => regionAllows e.2 m a n k)

/-- An address is cacheable (R516): by the lowest-numbered valid region that contains it; never control space. -/
def cacheable (s : State) (a : Nat) : Bool :=
  match placeOf s a with
  | .control => false
  | .nowhere => false
  | _ =>
    match s.memp.regions.find? (fun e => e.2.valid && decide (e.2.base.toNat * 4096 ≤ a ∧ a < e.2.limit.toNat * 4096 + 4096)) with
    | some e => e.2.c
    | none => false

/-- A refused access (R518): MEMP_VPEND, MEMP_VIOL when free, and event 0x0401 once per master until its VPEND bit is
cleared. -/
def protRefuse (m : Master) (a : Nat) (k : Need) (s : State) : State :=
  let b := maskBit m
  let had := bit s.memp.vpend b
  let num : BitVec 4 := BitVec.ofNat 4 b
  let s := modMemp (fun u => { u with
        vpend := setBit u.vpend b, valid := true, kind := if u.valid then u.kind else k.code,
        master := if u.valid then u.master else num,
        vaddr := if u.valid then u.vaddr else BitVec.ofNat 40 a }) s
  if had then s else event 0x0401 [masterWord m, k.code.setWidth 32, w32 a, w32 (a / 2 ^ 32)] s

end Sys2Proof.Machine
end

