-- ==== Sys2Proof/Machine/Bac.lean ====
section
/-! DEFINITION. The boot array controller: starting an operation, its refusals, and its end (R539–R548). -/

namespace Sys2Proof.Machine

/-- An operation is refused or ends (R541, R543, R556): DONE and RESULT; any result but success records event 0x0D01. -/
def bacEnd (op : BitVec 4) (r : BitVec 3) (s : State) : State :=
  let s := modBac (fun u => { u with done := true, result := r }) s
  if r = 0 then s else event 0x0D01 [0, op.setWidth 32, s.bac.addr.setWidth 32, r.setWidth 32] s

/-- The unit an operation's address is aligned to. -/
def bacUnit (op : BitVec 4) : Nat := if op = 1 then 512 else if op = 2 then 65536 else 16777216

/-- A code word carries the written mark. -/
def written (b : Bac) (off : Nat) : Bool := mget false b.marks (off / 32)

/-- A code word that the mask names carries the mark (R543). -/
def doubleProgram (b : Bac) : Bool :=
  (List.range 16).any (fun k => bit b.mask k && written b (b.addr.toNat + 32 * k))

/-- A lower page whose upper page carries a mark (R539, R543). -/
def lowerAfterUpper (b : Bac) : Bool :=
  (b.addr.toNat / 512) % 2 = 0 && (List.range 16).any (fun k => written b (b.addr.toNat + 512 + 32 * k))

/-- The RESULT a refusal gives, 0 where the operation starts (R543). DEDUCED, log entry 92. -/
def bacCheck (b : Bac) : BitVec 3 :=
  if b.addr.toNat % bacUnit b.op ≠ 0 || (b.op = 1 && b.mask = 0) then 6
  else if bit b.wp (b.addr.toNat / 2 ^ 24) then 4
  else if b.op = 1 && doubleProgram b then 2
  else if b.op = 1 && lowerAfterUpper b then 3
  else 0

/-- GO of BAC_CMD (R541, R543, R547): ignored with BUSYW while busy; an OP that is none starts nothing. DEDUCED, log entry 92. -/
def bacGo (op : BitVec 4) (s : State) : State :=
  if s.bac.busy then modBac (fun u => { u with busyw := true }) s
  else
    let s := modBac (fun u => { u with op := op }) s
    if op = 0 || 3 < op.toNat then s
    else
      let r := bacCheck s.bac
      let s := modBac (fun u => { u with bank := (u.addr >>> 24).setWidth 2 }) s
      if r ≠ 0 then bacEnd op r s
      else
        let o : BacOp := { op := op, addr := s.bac.addr, mask := s.bac.mask, data := s.bac.pbuf }
        (modBac (fun u => { u with busy := true, cur := some o, told := false }) s)

/-- BAC_PROGRAM_PAGE (R541, R543, R547): GO with OP 1. -/
def execBacProgramPage (s : State) : Out := .next (bacGo 1 s)
/-- BAC_ERASE_SECTOR (R541, R547): GO with OP 2. -/
def execBacEraseSector (s : State) : Out := .next (bacGo 2 s)
/-- BAC_ERASE_BANK (R541, R547): GO with OP 3. -/
def execBacEraseBank (s : State) : Out := .next (bacGo 3 s)

/-- The 32 bytes of a code word of the page buffer. -/
def pbufWord (d : SMap (BitVec 32)) (k : Nat) : List (BitVec 8) :=
  ((List.range 8).map (fun i => leBytes 4 (mget 0 d (8 * k + i)).toNat)).flatten

/-- Program the masked code words of a page (R543): data and written marks. -/
def programPage (o : BacOp) (b : Bac) : Bac :=
  (List.range 16).foldl (fun b k =>
    if bit o.mask k then bacMark (o.addr.toNat + 32 * k) 1 (bacPut (o.addr.toNat + 32 * k) (pbufWord o.data k) b) else b) b

/-- Spoil the code words a failed operation leaves undefined: the masked ones of a program, whose marks stay set (R544),
or those of the erase. DESIGN CHOICE, log entry 93. -/
def bacFailed (o : BacOp) (s : State) : State :=
  if o.op = 1 then
    (List.range 16).foldl (fun s k =>
      if bit o.mask k then
        let s := bacSpoil (o.addr.toNat + 32 * k) 1 s
        (modBac (fun _ => bacMark (o.addr.toNat + 32 * k) 1 s.bac) s)
      else s) s
  else (bacRanges o).foldl (fun s r => bacSpoil r.1 r.2 s) s

/-- BAC_OPERATION_COMPLETE (R541, R544): `ok` is the verify's outcome; a failed verify reports RESULT 1. -/
def execBacOperationComplete (ok : Bool) (s : State) : Out :=
  match s.bac.cur with
  | none => .next s
  | some o =>
    let s := modBac (fun u => { u with busy := false, cur := none, told := false }) s
    if ok then
      let b := if o.op = 1 then programPage o s.bac else bacErase o.addr.toNat (bacUnit o.op) s.bac
      .next (bacEnd o.op 0 (modBac (fun _ => b) s))
    else .next (bacEnd o.op 1 (bacFailed o s))

end Sys2Proof.Machine
end

