-- ==== Sys2Proof/Machine/ImageBytes.lean ====
section
/-! DEFINITION. An image as its bytes are read: header, section directory, policy words, transition matrix, decks and the signature block,
and what in them breaks the layout (R163, R175, R178–R192). -/

namespace Sys2Proof.Machine

/-- The bytes of an image, by offset. -/
abbrev ImBytes := Nat → BitVec 8

/-- The number that `n` bytes of an image from `off` spell. -/
def imNat (rd : ImBytes) (off n : Nat) : Nat := leNat ((List.range n).map (fun k => rd (off + k)))

/-- A range of an image's bytes is 0. -/
def imZero (rd : ImBytes) (off n : Nat) : Bool := (List.range n).all (fun k => rd (off + k) = 0)

/-! ## The section directory (R182, R183) -/

/-- An entry of the section directory. -/
structure DirEntry where
  typ  : Nat := 0
  deck : Nat := 0
  off  : Nat := 0
  len  : Nat := 0
  deriving DecidableEq, Repr

/-- The first byte of directory entry k. -/
def dirAt (k : Nat) : Nat := 0x100 + 16 * k

/-- The number of sections. -/
def dirCount (rd : ImBytes) : Nat := imNat rd 0x12 2

/-- Directory entry k. -/
def dirEntry (rd : ImBytes) (k : Nat) : DirEntry :=
  { typ := imNat rd (dirAt k) 2, deck := imNat rd (dirAt k + 2) 1, off := imNat rd (dirAt k + 4) 4, len := imNat rd (dirAt k + 8) 4 }

/-- The first section of a type and deck. -/
def dirSection (rd : ImBytes) (typ deck : Nat) : Option DirEntry :=
  ((List.range (dirCount rd)).map (dirEntry rd)).find? (fun e => e.typ = typ && e.deck = deck)

/-- The first byte of a section, 0 where the image has none. -/
def sectionOff (rd : ImBytes) (typ deck : Nat) : Nat := ((dirSection rd typ deck).map (·.off)).getD 0

/-- A keystone section type. -/
def keystoneType (t : Nat) : Bool := decide (1 ≤ t ∧ t ≤ 8)

/-- A deck section type. -/
def deckType (t : Nat) : Bool := decide (0x10 ≤ t ∧ t ≤ 0x13)

/-- Sections of one type and deck. -/
def sectionCount (rd : ImBytes) (typ deck : Nat) : Nat :=
  (((List.range (dirCount rd)).map (dirEntry rd)).filter (fun e => e.typ = typ && e.deck = deck)).length

/-- The most sections of a keystone type (R183). -/
def mostSections (t : Nat) : Nat := if t = 6 ∨ t = 7 then 256 else 1

/-- The fewest sections of a keystone type (R183). -/
def fewestSections (t : Nat) : Nat := if t = 7 ∨ t = 8 then 0 else 1

/-- The decks that have a section. -/
def decksNamed (rd : ImBytes) : List Nat :=
  (List.range 12).filter (fun m => ((List.range (dirCount rd)).map (dirEntry rd)).any (fun e => deckType e.typ && e.deck = m))

/-! ## Slot entries, place records, decks (R187–R191) -/

/-- A slot entry (R188). -/
def readSlot (rd : ImBytes) (o : Nat) : SlotEntry :=
  { typ := imNat rd o 1, long := decide (imNat rd (o + 1) 1 % 2 = 1), owner := imNat rd (o + 2) 2 % 512, base := imNat rd (o + 4) 2
    kind := imNat rd (o + 6) 1, phases := rd (o + 7), cap := imNat rd (o + 8) 2, first := imNat rd (o + 10) 2
    start := imNat rd (o + 12) 4 % 524288, len := imNat rd (o + 16) 4, icount := imNat rd (o + 20) 2, istep := imNat rd (o + 22) 2
    ishift := imNat rd (o + 24) 2, ocount := imNat rd (o + 26) 2, ostep := imNat rd (o + 28) 2, oshift := imNat rd (o + 30) 2 }

/-- A place record (R190). -/
def readPlace (rd : ImBytes) (o : Nat) : PlaceRec :=
  let c := imNat rd (o + 3) 1
  { owner := imNat rd o 2, plane := imNat rd (o + 2) 1, hard := c % 8, recovery := decide (128 ≤ c), transfer := imNat rd (o + 4) 2
    firstUnit := imNat rd (o + 6) 2, cipher := imNat rd (o + 8) 2, transmit := imNat rd (o + 10) 2, pool := imNat rd (o + 12) 2 }

/-- Words of `n` bytes as a map, zeros not listed. -/
def readWords (w : Nat) (rd : ImBytes) (o n count : Nat) : SMap (BitVec w) :=
  (List.range count).filterMap (fun k =>
    let v := BitVec.ofNat w (imNat rd (o + n * k) n)
    if v = 0 then none else some (k, v))

/-- The deck numbered `m`. -/
def readDeck (rd : ImBytes) (m : Nat) : Deck :=
  let h := sectionOff rd 0x10 m
  let period := rd (h + 1)
  { mode := BitVec.ofNat 4 m, period := period.setWidth 2
    slots := (List.range (imNat rd (h + 4) 4)).map (fun k => readSlot rd (sectionOff rd 0x11 m + 32 * k))
    places := (List.range (imNat rd (h + 8) 4)).map (fun k => readPlace rd (sectionOff rd 0x12 m + 16 * k))
    entries := readWords 13 rd (sectionOff rd 0x13 m) 2 (4096 * 2 ^ (period.toNat % 4))
    cls := readWords 32 rd (h + 64) 4 256 }

/-! ## What breaks the layout (R164, property 0x01) -/

/-- A field of the image at byte `o` must keep its rule. -/
def must (o : Nat) (ok : Bool) : Option Fail := if ok then none else some { verdict := 1, at_ := o }

/-- The first failure of a list. -/
def firstFail (l : List (Option Fail)) : Option Fail := l.findSome? id

/-- The bytes of the build identifier are ASCII, with zeros after its end (R181). -/
def buildOk (rd : ImBytes) : Bool :=
  (List.range 32).all (fun k => (rd (0x20 + k)).toNat < 128 && (rd (0x20 + k) ≠ 0 || imZero rd (0x20 + k) (32 - k)))

/-- The header's fields that the checker judges (R175, R181, R196). -/
def headerFails (rd : ImBytes) : List (Option Fail) := [must 6 (imNat rd 6 1 = 1), must 0x20 (buildOk rd)]

/-- Two byte ranges (first, length) share a byte. -/
def bytesMeet (a b : Nat × Nat) : Bool := decide (a.1 < b.1 + b.2 ∧ b.1 < a.1 + a.2)

/-- The length a section must have; none where its content decides (R185–R191). -/
def sectionLen (rd : ImBytes) (e : DirEntry) : Option Nat :=
  let h := sectionOff rd 0x10 e.deck
  if e.typ = 1 then some 64 else if e.typ = 2 then some 24 else if e.typ = 0x10 then some 1088
  else if e.typ = 0x11 then some (32 * imNat rd (h + 4) 4) else if e.typ = 0x12 then some (16 * imNat rd (h + 8) 4)
  else if e.typ = 0x13 then some (8192 * 2 ^ imNat rd (h + 1) 1) else none

/-- Directory entry k keeps R182 and R183. -/
def dirFails (rd : ImBytes) (k : Nat) : List (Option Fail) :=
  let o := dirAt k
  let e := dirEntry rd k
  let before := (List.range k).map (dirEntry rd)
  let same := (before.filter (fun b => b.typ = e.typ && b.deck = e.deck)).length
  [must o (keystoneType e.typ || deckType e.typ), must o (decide (same < (if deckType e.typ then 1 else mostSections e.typ))),
   must (o + 2) (if deckType e.typ then decide (1 ≤ e.deck ∧ e.deck ≤ 11) else e.deck = 0xF), must (o + 3) (imZero rd (o + 3) 1),
   must (o + 4) (e.off % 32 = 0 && decide (dirAt (dirCount rd) ≤ e.off ∧ e.off + e.len ≤ imNat rd 0x18 4) &&
     before.all (fun b => !bytesMeet (b.off, b.len) (e.off, e.len))),
   must (o + 8) (match sectionLen rd e with | some n => e.len = n | none => true), must (o + 12) (imZero rd (o + 12) 4)]

/-- Every section that R183 requires is there. -/
def sectionFails (rd : ImBytes) : List (Option Fail) :=
  ((List.range 9).filter keystoneType).map (fun t => must 0x12 (fewestSections t ≤ sectionCount rd t 0xF)) ++
  ((decksNamed rd).map (fun m => [0x10, 0x11, 0x12, 0x13].map (fun t => must 0x12 (sectionCount rd t m = 1)))).flatten

/-- The policy words (R185). -/
def policyFails (rd : ImBytes) : List (Option Fail) :=
  let o := sectionOff rd 1 0xF
  let w := fun k => imNat rd (o + 4 * k) 4
  [must o (decide (1 ≤ w 0 ∧ w 0 ≤ 3)), must (o + 4) (decide (w 1 ≤ 1)),
   must (o + 8) (decide (1 ≤ w 2 ∧ w 2 ≤ (if imNat rd 7 1 = 0 then 16 else 8)))] ++
  [3, 4, 5, 6, 7].map (fun k => must (o + 4 * k) (w k = 0)) ++
  [8, 9, 10, 11, 12, 13, 14, 15].map (fun k => must (o + 4 * k) (decide (w k ≤ 3)))

/-- The decks that R184 requires. -/
def deckSetFails (rd : ImBytes) : List (Option Fail) :=
  let has := fun m => (decksNamed rd).contains m
  let o := sectionOff rd 1 0xF
  [must 0x12 (has 5 && has 7 && has 10 && (has 1 || has 2 || has 3)), must 0x12 (imNat rd (o + 4) 4 ≠ 1 || has 9),
   must o (has (imNat rd o 4))]

/-- The transition matrix (R186): a deck's switches into modes 0, 5, 7, 10 and 9, and from 5, 7, 9 and 10 into it. -/
def matrixFails (rd : ImBytes) : List (Option Fail) :=
  let o := sectionOff rd 2 0xF
  let ds := decksNamed rd
  let b := fun (m n : Nat) => imNat rd (o + 2 * m) 2 / 2 ^ n % 2 = 1
  must o (imNat rd o 2 = 0) :: ((List.range 12).map (fun m => ds.map (fun n =>
    must (o + 2 * m) ((!ds.contains m || ((n ≠ 5 && n ≠ 7 && n ≠ 9 && n ≠ 10) || b m n)) &&
      (!ds.contains m || (m ≠ 5 && m ≠ 7 && m ≠ 9 && m ≠ 10) || b m n) && (!ds.contains m || b m 0))))).flatten

/-- The class words of a deck (R187) hold nothing but bit 31 and bits 7:0. -/
def clsWordOk (rd : ImBytes) (o : Nat) : Bool := imNat rd o 4 % 2 ^ 31 < 256

/-- A failure in slot entry `k` of deck `m`. -/
def mustSlot (v m k : Nat) (ok : Bool) : Option Fail := if ok then none else some { verdict := v, what := 0, deck := m, at_ := k }

/-- A deck's header, and the reserved bits of its slot entries, place records and entry table (R187, R188, R190, R191). -/
def deckFails (rd : ImBytes) (m : Nat) : List (Option Fail) :=
  let h := sectionOff rd 0x10 m
  let so := sectionOff rd 0x11 m
  let po := sectionOff rd 0x12 m
  let eo := sectionOff rd 0x13 m
  let here := fun (x : Option Fail) => x.map (fun f => { f with deck := m })
  let n := imNat rd (h + 4) 4
  let np := imNat rd (h + 8) 4
  [here (must h (imNat rd h 1 = m)), here (must (h + 1) (imNat rd (h + 1) 1 ≤ 3)), here (must (h + 2) (imZero rd (h + 2) 2)),
   here (must (h + 4) (decide (1 ≤ n ∧ n ≤ 65535))), here (must (h + 8) (decide (np ≤ 65535))), here (must (h + 12) (imZero rd (h + 12) 52))] ++
  (List.range 256).map (fun k => here (must (h + 64 + 4 * k) (clsWordOk rd (h + 64 + 4 * k)))) ++
  (List.range n).map (fun k =>
    let o := so + 32 * k
    mustSlot 1 m k (imNat rd (o + 1) 1 < 2 && imNat rd (o + 2) 2 < 512 && imNat rd (o + 12) 4 < 524288)) ++
  (List.range np).map (fun k =>
    let o := po + 16 * k
    here (must o (imNat rd (o + 3) 1 / 8 % 16 = 0 && imZero rd (o + 14) 2))) ++
  (List.range (4096 * 2 ^ (imNat rd (h + 1) 1 % 4))).map (fun k => here (must (eo + 2 * k) (imNat rd (eo + 2 * k) 2 < 8192)))

/-- An owner of code or of a partition is a class or a device owner (R56). -/
def ownerOk (c : Nat) : Bool := decide (c ≤ 0x102)

/-- An owner's ranges: at most 16 on each stack, each inside one stack, its key slots in the store (R160, R161, R166). -/
def partOk (p : OwnerPart) : Bool :=
  let stack := fun (a : Nat) => (a - 0x1000000000) / 0x600000000
  ownerOk p.owner &&
  p.dram.all (fun r => decide (0x1000000000 ≤ r.1) && decide (1 ≤ r.2) && stack r.1 = stack (r.1 + r.2 - 1) && decide (stack r.1 < 4)) &&
  (List.range 4).all (fun n => (p.dram.filter (fun r => stack r.1 = n)).length ≤ 16) &&
  p.keys.all (fun r => decide (r.1 + r.2 ≤ 16384)) && p.spns.all (fun x => x.scratch.all (fun r => decide (r.1 + r.2 ≤ 0x40000)))

/-- The sections whose bytes the spec does not lay out: what they say keeps its limits, and agrees with the directory's counts (R183). -/
def restFails (rd : ImBytes) (x : ImageRest) : List (Option Fail) :=
  let o := fun t => sectionOff rd t 0xF
  [must (o 3) (decide (1 ≤ x.dies.length ∧ x.dies.length ≤ 8)),
   must (o 4) (x.groups.all (fun g => decide (g.length = 8 ∨ g.length = 16)) && x.groups.flatten.all (fun d => decide (d < 2048)) &&
     decide x.groups.flatten.Nodup),
   must (o 5) (x.parts.all partOk),
   must (o 6) (x.code.length = sectionCount rd 6 0xF && x.code.all (fun c =>
     c.addr % 16 = 0 && ownerOk c.owner && decide (c.addr + 16 * c.words.length ≤ 0x20000))),
   must (o 7) (x.scratch.length = sectionCount rd 7 0xF && x.scratch.all (fun c => decide (c.addr + c.bytes.length ≤ 0x40000))),
   must (o 8) (sectionCount rd 8 0xF = 1 || x.bri.isEmpty)]

/-- The first failure of the format, the keystone before the decks in their order (R164). DEDUCED, log entry 59. -/
def formatFail (rd : ImBytes) (x : ImageRest) : Option Fail :=
  firstFail (headerFails rd ++ ((List.range (dirCount rd)).map (dirFails rd)).flatten ++ sectionFails rd ++ policyFails rd ++
    deckSetFails rd ++ matrixFails rd ++ restFails rd x ++ ((decksNamed rd).map (deckFails rd)).flatten)

/-! ## The image -/

/-- The key of a deck's header among the sections. -/
def headerKey (m : Nat) : Nat := 0x1000 + m

/-- The image that the bytes spell, with the content of the sections the spec does not lay out. DESIGN CHOICE, log entry 65. -/
def readImage (rd : ImBytes) (x : ImageRest) : Image :=
  let p := sectionOff rd 1 0xF
  let sig := imNat rd 0x18 4
  { toImageRest := x
    contract := imNat rd 6 1, variant := imNat rd 7 1, secver := BitVec.ofNat 16 (imNat rd 0x10 2)
    build := BitVec.ofNat 256 (imNat rd 0x20 32), keySlot := imNat rd (sig + 4) 2, digest := BitVec.ofNat 64 (imNat rd (sig + 8) 8)
    bootMode := BitVec.ofNat 4 (imNat rd p 4), spare := BitVec.ofNat 32 (imNat rd (p + 4) 4), limitGiB := imNat rd (p + 8) 4
    ports := readWords 2 rd (p + 32) 4 8, matrix := readWords 16 rd (sectionOff rd 2 0xF) 2 12
    decks := (decksNamed rd).map (readDeck rd)
    secs := ((List.range 9).filter keystoneType).filterMap (fun t => if sectionOff rd t 0xF = 0 then none else some (t, sectionOff rd t 0xF)) ++
      (decksNamed rd).map (fun m => (headerKey m, sectionOff rd 0x10 m))
    form := formatFail rd x }

end Sys2Proof.Machine
end

