-- ==== Sys2Proof/Machine/Slots.lean ====
section
/-! DEFINITION. The slots of the active timetable: which resource a replica of a slot entry holds and when it starts,
a class's die set, the places of a class on a die, and booking a read into the earliest of them (R42–R60, R188–R190,
R389, R390). -/

namespace Sys2Proof.Machine

/-- Core cycles of one hank: 64 turns of 8,192 (R38). -/
def hankCycles : Nat := 524288

/-- The resource a replica holds (R188). -/
def slotRes (e : SlotEntry) (i o : Nat) : Nat := e.base + i * e.istep + o * e.ostep

/-- The cycle of the hank a replica starts at (R188). -/
def slotBegin (e : SlotEntry) (i o : Nat) : Nat := (e.start + 64 * (i * e.ishift + o * e.oshift)) % hankCycles

/-- A grant runs now. -/
def grantRuns (s : State) (g : Grant) : Bool := decide (g.since ≤ s.reel.core) && decide (s.reel.core < g.since + g.slot.len)

/-- The resource a grant holds. -/
def grantRes (g : Grant) : Nat := slotRes g.slot g.i g.o

/-- A slot's number: entry and replica in one. -/
def slotKey (entry i o : Nat) : Nat := entry + 65536 * (i + 4096 * o)

/-- The replicas (i, o) of an entry. -/
def replicas (e : SlotEntry) : List (Nat × Nat) :=
  ((List.range e.ocount).map (fun o => (List.range e.icount).map (fun i => (i, o)))).flatten

/-- The number of hanks in a deck's period (R39, R187). -/
def periodHanks (p : BitVec 2) : Nat := 2 ^ p.toNat

/-- Core cycles since the current hank began. -/
def hankCycle (s : State) : Nat := s.reel.turn.toNat * 8192 + s.reel.cycle.toNat

/-- The core cycle the current hank began at. -/
def hankBase (s : State) : Nat := s.reel.core - hankCycle s

/-- The first core cycle, at or after `t`, at which replica (i, o) of an entry starts under the active deck: the hanks
of one period are tried in turn, and after them the period repeats. None where the entry has no phase. -/
def nextStart (s : State) (e : SlotEntry) (i o : Nat) (t : Nat) : Option Nat :=
  let n := periodHanks s.reel.tt.period
  let cand := fun (h : Nat) =>
    if bit e.phases ((s.reel.phase.toNat + h) % n) then
      let c := hankBase s + h * hankCycles + slotBegin e i o
      if t ≤ c then some c else none
    else none
  (List.range (n + 1)).findSome? cand

/-- The first start at or after `t`, for any later `t`: whole periods are skipped first. -/
def startFrom (s : State) (e : SlotEntry) (i o : Nat) (t : Nat) : Option Nat :=
  let len := periodHanks s.reel.tt.period * hankCycles
  let k := (t - hankBase s) / len
  (nextStart s e i o (t - k * len)).map (· + k * len)

/-- The slot entry numbered k of the active timetable. -/
def slotEntry (s : State) (k : Nat) : Option SlotEntry := s.reel.tt.slots[k]?

/-- An entry is a read window. -/
def isWindow (e : SlotEntry) : Bool := e.typ = 1 || e.typ = 2

/-- The indices of the place records of a window (R190). -/
def windowPlaces (e : SlotEntry) : List Nat := (List.range e.cap).map (e.first + ·)

/-- A deck gives class `c` a place on die `d` (R58). -/
def deckPlaceOn (dk : Deck) (c d : Nat) : Bool :=
  dk.slots.any (fun e => isWindow e && (replicas e).any (fun r => slotRes e r.1 r.2 = d) &&
    (windowPlaces e).any (fun k => (dk.places[k]?.map (·.owner)) = some c))

/-- A class owns a slot of a type in the active deck. -/
def classHasSlot (s : State) (c typ : Nat) : Bool :=
  s.reel.tt.slots.any (fun e => e.typ = typ && e.owner = c)

/-- A class owns places in the active deck. -/
def classHasPlace (s : State) (c : Nat) : Bool :=
  s.reel.tt.slots.any (fun e => isWindow e && (windowPlaces e).any (fun k => (s.reel.tt.places[k]?.map (·.owner)) = some c))

/-- The total length of the slots of a type that a class owns in a deck, over one hank period. -/
def classSlotTime (dk : Deck) (c typ : Nat) : Nat :=
  dk.slots.foldl (fun n e =>
    if e.typ = typ && e.owner = c then
      n + e.len * e.icount * e.ocount * ((List.range (periodHanks dk.period)).filter (fun p => bit e.phases p)).length
    else n) 0

/-! ## The group layout (R326) -/

/-- The die groups of the image that runs, or of the one being activated. -/
def imgGroups (s : State) : List (List Nat) :=
  match s.store.running with
  | some im => im.groups
  | none => (s.store.loading.map (·.groups)).getD []

/-- The dies in groups, by position. -/
def diesInGroups (s : State) : List Nat := (imgGroups s).flatten

/-- The dies of a group, by position. -/
def groupDies (s : State) (g : Nat) : List Nat := (imgGroups s).getD g []

/-- The group of a die. -/
def groupOfDie (s : State) (d : Nat) : Option Nat := (imgGroups s).findIdx? (fun l => l.contains d)

/-- The groups all of whose dies are in a class's die set in every deck of the image (R60). -/
def classGroups (s : State) (c : Nat) : List Nat :=
  let dks := (s.store.running.map (·.decks)).getD []
  (List.range (imgGroups s).length).filter (fun g =>
    dks.all (fun dk => (groupDies s g).all (fun d => deckPlaceOn dk c d)))

/-! ## Booking a read (R390) -/

/-- The codewords a place holds: a recovery place takes its hard and soft units together (R46). -/
def placeHolds (r : PlaceRec) : Nat := if r.recovery then min 4 (2 * r.hard) else r.hard

/-- The first start of one place, at or after `t`, that is not taken, trying no more starts than there are bookings and one. -/
def freeStart (taken : Nat → Bool) (s : State) (e : SlotEntry) (i o : Nat) : Nat → Nat → Option Nat
  | 0, _ => none
  | n + 1, t =>
    match startFrom s e i o t with
    | none => none
    | some c => if taken c then freeStart taken s e i o n (c + 1) else some c

/-- Every place of an owner on a die that a condition on the place record admits, at its first start whose cutoff, 80 cycles before, has not
passed (R47) and that no booking of the `busy` kind holds. -/
def placesFor (busy : Booking → Bool) (s : State) (owner die : Nat) (ok : PlaceRec → Bool) : List Booking :=
  ((List.range s.reel.tt.slots.length).map (fun k =>
    match slotEntry s k with
    | none => []
    | some e =>
      if isWindow e && e.kind = 1 then
        ((replicas e).filter (fun r => slotRes e r.1 r.2 = die)).map (fun r =>
          (windowPlaces e).filterMap (fun pl =>
            match s.reel.tt.places[pl]? with
            | none => none
            | some rec_ =>
              if rec_.owner = owner && ok rec_ then
                let taken := fun (c : Nat) => s.piers.booked.any (fun b =>
                  busy b && b.entry = k && b.i = r.1 && b.o = r.2 && b.place = pl && b.at_ = c)
                (freeStart taken s e r.1 r.2 (s.piers.booked.length + 1) (s.reel.core + 80)).map
                  (fun c => ({ entry := k, i := r.1, o := r.2, place := pl, prec := rec_, at_ := c } : Booking))
              else none))
        |>.flatten
      else [])).flatten

/-- The free places: no booking at all holds them. -/
def freePlaces (s : State) (owner die : Nat) (ok : PlaceRec → Bool) : List Booking := placesFor (fun _ => true) s owner die ok

/-- The booking of a list with the earliest start. -/
def earliest : List Booking → Option Booking
  | [] => none
  | b :: rest =>
    match earliest rest with
    | none => some b
    | some c => if b.at_ ≤ c.at_ then some b else some c

/-- The plane a descriptor reads: q mod 6 (R328, R390). -/
def descPlane (d : DieDesc) : Nat := d.page % 6

/-- The codewords a descriptor reads (R389). -/
def descCount (d : DieDesc) : Nat := (d.cws.toNat / 4) % 8

/-- The cipher units that one codeword of a read needs, by the largest place its protection and transport allow (R443, R445). -/
def codewordUnits (lim : Nat) : Nat := if lim = 4 then 128 else if lim = 3 then 130 else if lim = 2 then 256 else 260

/-- The codewords of a read that the cipher slot of a place carries, one unit every two cycles after the first 32 (R46, R51, R443). -/
def cipherTakes (s : State) (d : DieDesc) (r : PlaceRec) : Nat :=
  match slotEntry s r.cipher with
  | none => placeHolds r
  | some e => min d.lim ((e.len - 32) / 2 / codewordUnits d.lim)

/-- The keystone posted a read. -/
def ksRead (d : DieDesc) : Bool := d.job.isSome || d.recon.isSome

/-- The codewords of a read that a place takes: of a read that the keystone posts for its own data, in a recovery place, no more than the
place's cipher slot carries (R46, R443). -/
def placeTakes (s : State) (d : DieDesc) (r : PlaceRec) : Nat :=
  if r.recovery && d.job.isSome && d.recon.isNone then min (placeHolds r) (cipherTakes s d r) else placeHolds r

/-- A place record serves a read descriptor, whatever its count (R46, R83, R390). -/
def placeServes (d : DieDesc) (r : PlaceRec) : Bool :=
  r.plane = descPlane d && (!bit d.flags 2 || r.recovery) && (!d.lone || !r.recovery)

/-- The earliest place for a read descriptor (R390). -/
def bookFor (s : State) (d : DieDesc) : Option Booking :=
  earliest (freePlaces s d.owner d.die (fun r => placeServes d r && descCount d ≤ placeTakes s d r))

/-- The command a descriptor was posted for. -/
def forCmd (d : DieDesc) (c : Cmd) : Bool := !c.internal && !c.closed && decide (d.cmd = some (c.conn, c.cid))

/-- A read served without a bound counts in the registers of a bounded class (R81, R91): a command of several parts once. -/
def countUnbound (d : DieDesc) (s : State) : State :=
  let told := s.tables.cmds.any (fun c => forCmd d c && c.unbound)
  let s := modTables (fun u => { u with cmds := u.cmds.map (fun c => if forCmd d c then { c with unbound := true } else c) }) s
  if told || 256 ≤ d.owner || !(clsOf s d.owner).bounded then s
  else modCls d.owner (fun c => { c with hankUnbound := c.hankUnbound + 1, unbound := satInc c.unbound }) s

/-- Post a read: booked into its earliest place, or waiting in its class queue where the deck has none (R61, R74). -/
def postRead (d : DieDesc) (unbound : Bool) (s : State) : State :=
  match bookFor s d with
  | some b => modPiers (fun u => { u with booked := u.booked ++ [{ b with desc := d, unbound := unbound }] }) s
  | none => modPiers (fun u => { u with ops := u.ops ++ [d] }) s

/-- A descriptor of some of a read's codewords: `n` of them, after the first `k`. -/
def descSlice (d : DieDesc) (k n : Nat) : DieDesc :=
  { d with cws := BitVec.ofNat 8 (d.cws.toNat % 4 + k + 4 * n), job := d.job.map (fun j => { j with lba := j.lba + k, off := j.off + k }) }

/-- The earliest free place for a part that the keystone posts, which may hold only some of it (R63). -/
def partFor (s : State) (d : DieDesc) : Option Booking :=
  earliest (freePlaces s d.owner d.die (fun r => placeServes d r && decide (1 ≤ placeTakes s d r)))

/-- The place a read is booked into next: of a read that a spindle posts it holds all (R390), of one that the keystone posts it may hold some
(R63). -/
def nextPlace (s : State) (d : DieDesc) : Option Booking := if ksRead d then partFor s d else bookFor s d

/-- A read of a ply is cut in two: one more is to come (R82, R83). -/
def onePlyMore (d : DieDesc) (s : State) : State :=
  match d.recon with
  | none => s
  | some k => modPiers (fun u => { u with recons := u.recons.map (fun r => if r.ident = k then { r with left := r.left + 1 } else r) }) s

/-- A read is posted: by a spindle into one place, by the keystone into the earliest free place, and what that place does not hold into the
places that follow (R63, R390). Fuel bounds the places: a part has at most four codewords. -/
def postSplit (unbound : Bool) : Nat → DieDesc → State → State
  | 0, d, s => modPiers (fun u => { u with ops := u.ops ++ [d] }) s
  | f + 1, d, s =>
    if !ksRead d then postRead d unbound s
    else match partFor s d with
      | none => modPiers (fun u => { u with ops := u.ops ++ [d] }) s
      | some b =>
        let n := placeTakes s d b.prec
        if descCount d ≤ n then modPiers (fun u => { u with booked := u.booked ++ [{ b with desc := d, unbound := unbound }] }) s
        else
          let s := modPiers (fun u => { u with booked := u.booked ++ [{ b with desc := descSlice d 0 n, unbound := unbound }] }) (onePlyMore d s)
          postSplit unbound f (descSlice d n (descCount d - n)) s

/-- The first place of a class on a die whose cutoff follows now, whether taken or not (R65). -/
def firstPlace (s : State) (d : DieDesc) : Option Booking := earliest (placesFor (fun _ => false) s d.owner d.die (fun _ => true))

/-- A part is posted to the first place of its class on its die (R65, third condition). -/
def getsFirst (s : State) (d : DieDesc) : Bool :=
  match nextPlace s d, firstPlace s d with
  | some b, some f => b.at_ = f.at_
  | _, _ => false

/-- The keystone posts a part of a read that is within its tenant's admitted rate, `unb` being false, or not (R63, R65, R81). DEDUCED, log
entry 135. -/
def postNew (unb : Bool) (d : DieDesc) (s : State) : State :=
  let u := unb || !getsFirst s d
  postSplit u 4 d (if u then countUnbound d s else s)

/-- Some place of its owner on its die can serve a read, in whole or in part (R61). -/
def placeable (s : State) (d : DieDesc) : Bool :=
  !(placesFor (fun _ => false) s d.owner d.die (fun r => placeServes d r && decide (1 ≤ placeTakes s d r))).isEmpty

/-- Drop a booking. -/
def unbook (b : Booking) (s : State) : State :=
  modPiers (fun u => { u with booked := u.booked.filter (fun x => decide (x ≠ b)) }) s

/-- The reads of the same owner on the same die that were posted after a read and whose windows have not begun: the list of bookings
is in posting order. -/
def laterReads (b : Booking) (s : State) : List Booking :=
  ((s.piers.booked.dropWhile (fun x => decide (x ≠ b))).drop 1).filter (fun x =>
    x.desc.die = b.desc.die && x.desc.owner = b.desc.owner && !x.issued && !x.recovery && decide (s.reel.core + 80 ≤ x.at_))

/-- A read is posted again into its owner's next place. -/
def bookAgain (b : Booking) (s : State) : State :=
  postSplit true 4 b.desc (if b.unbound then s else countUnbound b.desc s)

/-- A later read of the same owner makes room: it takes the next place after that, and keeps its bound only where it keeps its place.
DEDUCED, log entry 131. -/
def bookAfter (b : Booking) (s : State) : State :=
  match nextPlace s b.desc with
  | none => bookAgain b s
  | some n =>
    if n.at_ = b.at_ && n.place = b.place && n.entry = b.entry then
      modPiers (fun u => { u with booked := u.booked ++ [b] }) s
    else bookAgain b s

/-- A read lost its place: it is posted again to the owner's next place on that die, ahead of the reads posted after it, without its tier
bound (R70). The first loss of a class's read counts it as unbound in the class's registers (R91). DEDUCED, log entry 131. -/
def repostRead (b : Booking) (s : State) : State :=
  let later := laterReads b s
  let s := later.foldl (fun s x => unbook x s) (unbook b s)
  later.foldl (fun s x => bookAfter x s) (bookAgain b s)

end Sys2Proof.Machine
end

