-- ==== Sys2Proof/Machine/CheckForm.lean ====
section
/-! DEFINITION. The image checker's properties of the timetable: fitted hardware, slot form, exclusivity, reservations, slicing, chains,
partitions, bounded gaps, seams and placement (R41–R60, R73, R75, R155, R156, R163, R164, R188–R190, R388). -/

namespace Sys2Proof.Machine

/-! ## The decks that are checked, and their slots -/

/-- The decks in the order of the check, the built-in Hold deck as deck 0 (R164, R184). -/
def checkedDecks (s : State) (im : Image) : List Deck := holdDeck s :: im.decks

/-- Cycles of a deck's period. -/
def periodCycles (d : Deck) : Nat := periodHanks d.period * hankCycles

/-- One occurrence of a slot: its entry and replica, and its first cycle in the period. -/
structure Held where
  entry : Nat := 0
  slot  : SlotEntry := {}
  i     : Nat := 0
  o     : Nat := 0
  at_   : Nat := 0
  deriving DecidableEq, Repr

/-- The resource an occurrence holds. -/
def heldRes (h : Held) : Nat := slotRes h.slot h.i h.o

/-- The hank phases an entry names, within a period. -/
def phasesOf (d : Deck) (e : SlotEntry) : List Nat := (List.range (periodHanks d.period)).filter (fun p => bit e.phases p)

/-- The occurrences of entry `k` over the period. -/
def entryHeld (d : Deck) (k : Nat) (e : SlotEntry) : List Held :=
  ((phasesOf d e).map (fun p => (replicas e).map (fun r =>
    ({ entry := k, slot := e, i := r.1, o := r.2, at_ := p * hankCycles + slotBegin e r.1 r.2 } : Held)))).flatten

/-- Every occurrence of a deck's slots over its period, by entry. -/
def occurrences (d : Deck) : List Held := (d.slots.zipIdx.map (fun x => entryHeld d x.2 x.1)).flatten

/-- What word 2 names a resource by: a die by its channel, a stack port by its stack, a transmit path by its port; none for an engine (R169). -/
def resWord (kind res : Nat) : Nat :=
  if kind = 1 ∨ kind = 4 then res / 16 else if kind = 7 then res / 4 else if kind = 6 then 0xFFFF else res

/-- A failure at an occurrence. -/
def heldFail (v : Nat) (d : Deck) (h : Held) : Fail :=
  { verdict := v, what := 0, deck := d.mode.toNat, at_ := h.entry, res := resWord h.slot.kind (heldRes h), cycle := h.at_ }

/-- A failure at slot entry `k`. -/
def slotFail (v : Nat) (d : Deck) (k : Nat) (res : Nat) : Fail :=
  { verdict := v, what := 0, deck := d.mode.toNat, at_ := k, res := res }

/-- A deck fails a property for want of a slot: the byte of its header that asks for it, `off` bytes into it (R169, R187). DEDUCED, log entry 59. -/
def deckFail (v : Nat) (im : Image) (d : Deck) (off res cycle : Nat) : Fail :=
  { verdict := v, deck := d.mode.toNat, at_ := mget 0 im.secs (headerKey d.mode.toNat) + off, res := res, cycle := cycle }

/-- A condition that must hold, or a failure. -/
def need (ok : Bool) (f : Fail) : Option Fail := if ok then none else some f

/-- Insert into a rising list of numbers. -/
def natInsert (n : Nat) : List Nat → List Nat
  | [] => [n]
  | x :: xs => if n ≤ x then n :: x :: xs else x :: natInsert n xs

/-- A list of numbers in rising order, each once. -/
def natSort (l : List Nat) : List Nat := (l.foldr natInsert []).eraseDups

/-! ## Figures of the dies (R67, R155, R156) -/

/-- Cycles of a time in nanoseconds at the fastest clock, rounded up (R67). -/
def nsCycles (ns : Nat) : Nat := (ns * 2048 + 999) / 1000

/-- A die's figures meet an assumed-die record (R156), and its counts those of the reference die (R327), which every record plans for. DEDUCED, log
entry 187. -/
def figMeets (f r : DieFig) : Bool :=
  decide (f.suspendNs ≤ r.suspendNs ∧ f.hardNs ≤ r.hardNs ∧ f.recovNs ≤ r.recovNs ∧ f.resumeNs ≤ r.resumeNs ∧
    f.qlcUs ≤ r.qlcUs ∧ f.slcUs ≤ r.slcUs ∧ f.eraseUs ≤ r.eraseUs ∧ f.tempNs ≤ r.tempNs ∧
    r.susProg ≤ f.susProg ∧ r.susErase ≤ f.susErase ∧ r.planes ≤ f.planes ∧ r.wordLines ≤ f.wordLines ∧ r.units ≤ f.units) && (!r.indep || f.indep) && (!r.extended || f.extended)

/-- A die by its number: what its parameter page said at bring-up; none on a fenced channel or where it is not fitted (R163). -/
def dieFound (s : State) (die : Nat) : Option DieFig :=
  if (chan s (die / 16)).state ≠ 2 then none
  else match (chan s (die / 16)).dies.find? (fun e => e.1 = die % 16) with
    | some e => if e.2.fitted then e.2.fig else none
    | none => none

/-- The record that binds for a die: the first that the die meets; for a die that was not found, which fails no property (R163), the image's first.
DEDUCED, log entry 59. -/
def dieRecord (s : State) (im : Image) (die : Nat) : DieFig :=
  match dieFound s die with
  | some f => (im.dies.find? (figMeets f)).getD {}
  | none => im.dies.head?.getD {}

/-! ## 0x02 Fitted hardware (R6, R156, R163) -/

/-- Indices of a resource kind on the variant (R189). -/
def kindLimit (s : State) (k : Nat) : Nat :=
  if k = 1 then 16 * nChannels s else if k = 2 then nChannels s else if k = 3 then nLanes s
  else if k = 4 then 16 * nStacks s else if k = 5 then nSpindles s else if k = 6 then (if s.varB then 8 else 16)
  else if k = 7 then 4 * nPorts s else if k = 8 then nStacks s else 0

/-- The unit length at a rate code (R375). -/
def unitLen (code : Nat) : Nat := [0, 11904, 6016, 4032, 3072, 2688, 2048, 1536, 1280].getD code 0

/-- The rate code a transfer is planned at: the lowest whose units fit into it (R50, R375). DEDUCED, log entry 59. -/
def entryRate (e : SlotEntry) : Option Nat := [1, 2, 3, 4, 5, 6, 7, 8].find? (fun c => decide (unitLen c * e.cap ≤ e.len))

/-- A transfer on a channel bus. -/
def busTransfer (e : SlotEntry) : Bool := e.typ = 5 && e.kind = 2

/-- No spindle of a mask is absent. -/
def maskFits (s : State) (m : BitVec 64) : Bool := decide (m.toNat < 2 ^ nSpindles s)

/-- The first byte of a keystone section. -/
def secAt (im : Image) (t : Nat) : Nat := mget 0 im.secs t

/-- An image for a variant leaves the ports that it lacks disabled (R6, R185). -/
def portsFit (s : State) (im : Image) : List (Option Fail) :=
  (List.range 8).map (fun p => need (decide (p < nPorts s) || mget 0 im.ports p = 3) { verdict := 2, at_ := secAt im 1 + 32 + 4 * p, res := p })

/-- The keystone's part of property 0x02: the variant, every fitted die, and no absent resource in the policy words, the group layout, the
partitions, the code, the scratch, the BRI target lists or the queue pairs' spindles (R6). -/
def keystoneFits (s : State) (im : Image) : List (Option Fail) :=
  let at_ := fun (t : Nat) (ok : Bool) => need ok { verdict := 2, at_ := secAt im t }
  need (im.variant = (if s.varB then 1 else 0)) { verdict := 2, at_ := 7 } ::
  s.piers.chans.map (fun c => need (c.2.state ≠ 2 || c.2.dies.all (fun d => !d.2.fitted || match d.2.fig with
    | none => true
    | some f => im.dies.any (figMeets f))) { verdict := 2, at_ := secAt im 3, res := c.1 }) ++
  [at_ 4 (im.groups.flatten.all (fun d => d < 16 * nChannels s)),
   at_ 5 (im.parts.all (fun p => p.dram.all (fun r => r.1 + r.2 ≤ 0x1000000000 + nStacks s * 0x600000000) &&
     p.keys.all (fun r => r.1 + r.2 ≤ nKeys s) && p.spns.all (fun x => maskFits s x.mask))),
   at_ 6 (im.code.all (fun c => maskFits s c.mask)), at_ 7 (im.scratch.all (fun c => maskFits s c.mask)),
   at_ 8 (im.bri.all (fun l => maskFits s l.mask)),
   at_ 5 (im.qp.all (fun e => decide (e.1 < nConns s) && decide (e.2 < nSpindles s)))] ++ portsFit s im

/-- A slot entry plans no absent resource, and no channel above its trained rate (R6, R163). -/
def slotFits (s : State) (d : Deck) (k : Nat) (e : SlotEntry) : Option Fail :=
  (replicas e).findSome? (fun r =>
    let n := slotRes e r.1 r.2
    need (decide (n < kindLimit s e.kind) &&
      (!busTransfer e || d.mode = 0 || (chan s n).state ≠ 2 || decide ((entryRate e).getD 0 ≤ (chan s n).rate.toNat)))
      (slotFail 2 d k (resWord e.kind n)))

/-- Property 0x02. -/
def fittedFail (s : State) (im : Image) : Option Fail :=
  firstFail (keystoneFits s im ++ ((checkedDecks s im).map (fun d => d.slots.zipIdx.map (fun x => slotFits s d x.2 x.1))).flatten)

/-! ## 0x04 Slot form (R41–R44, R50, R51, R54, R188–R190) -/

/-- The resource kind of a slot type (R42, R189). -/
def typeKind (t k : Nat) : Bool :=
  if t = 1 || t = 2 || t = 3 || t = 4 || t = 0x0A then k = 1
  else if t = 5 then k = 2 || k = 7
  else if t = 6 then k = 3 else if t = 7 then k = 4 else if t = 8 then k = 5 else if t = 9 then k = 6
  else t = 0x0B && k = 8

/-- A resource index that R189 gives its kind. -/
def indexOk (k r : Nat) : Bool :=
  if k = 1 then r < 2048 else if k = 2 then r < 128 else if k = 3 then r < 48 else if k = 4 then r < 64 && r % 16 ≤ 8
  else if k = 5 then r < 64 else if k = 6 then r < 16 else if k = 7 then r < 32 else r < 4

/-- A window's length (R44). -/
def windowLen (e : SlotEntry) : Nat :=
  if e.typ = 1 then (if e.long then 81920 else 49152) else (if e.long then 98304 else 65536)

/-- The sense portion of a window (R44). -/
def senseLen (e : SlotEntry) : Nat := if e.long then 81920 else 49152

/-- The place records of a window. -/
def windowRecs (d : Deck) (e : SlotEntry) : List PlaceRec := (windowPlaces e).filterMap (fun k => d.places[k]?)

/-- A chained entry is there, of a type and kind, with the window's counts (R190). -/
def chainedOk (d : Deck) (w : SlotEntry) (k typ kind : Nat) : Bool :=
  match d.slots[k]? with
  | none => false
  | some e => e.typ = typ && e.kind = kind && e.icount = w.icount && e.ocount = w.ocount

/-- A place keeps R43, R46, R51 and R190 in its window: its cipher slot carries its hard units. -/
def placeOk (d : Deck) (w : SlotEntry) (p : PlaceRec) : Bool :=
  decide (p.plane ≤ 5 ∧ 1 ≤ p.hard ∧ p.hard ≤ 4 ∧ p.owner ≤ 0xFF) && (p.recovery = w.long) &&
  chainedOk d w p.transfer 5 2 && chainedOk d w p.cipher 6 3 && chainedOk d w p.transmit 5 7 &&
  (if p.recovery then chainedOk d w p.pool 9 6 else p.pool = 0xFFFF) &&
  (match d.slots[p.cipher]? with | some c => decide (256 * p.hard + 32 ≤ c.len) | none => false)

/-- The dies of a window let it be as it is: independent plane reads for more than one place, and a sense that fits its portion (R43, R44,
R156). DEDUCED, log entry 59. -/
def windowDie (s : State) (im : Image) (e : SlotEntry) (die : Nat) : Bool :=
  match dieFound s die with
  | none => true
  | some f =>
    let r := dieRecord s im die
    (decide (e.cap ≤ 1) || (r.indep && f.indep)) && decide (nsCycles (if e.long then r.recovNs else r.hardNs) ≤ senseLen e) &&
      (e.typ = 1 || decide (nsCycles r.suspendNs ≤ 16384))

/-- A window keeps R43, R44 and R190. -/
def windowOk (s : State) (im : Image) (d : Deck) (e : SlotEntry) : Bool :=
  let ps := windowRecs d e
  decide (e.len = windowLen e) && decide (1 ≤ e.cap ∧ e.cap ≤ 6) && decide (ps.length = e.cap) &&
  decide ((ps.map (fun p => p.plane)).Nodup) && ps.all (placeOk d e) && ((ps.head?.map (fun p => p.owner)) = some e.owner) &&
  (replicas e).all (fun r => windowDie s im e (slotRes e r.1 r.2))

/-- A slot entry's fields are in range and its type matches its resource. -/
def entryOk (s : State) (im : Image) (d : Deck) (e : SlotEntry) : Bool :=
  typeKind e.typ e.kind && (ownerOk e.owner || e.owner = 0x1FF) && e.phases ≠ 0 && decide (e.phases.toNat < 2 ^ periodHanks d.period) &&
  decide (e.start < 524288 ∧ 1 ≤ e.len ∧ e.len ≤ 524288 ∧ 1 ≤ e.icount ∧ e.icount ≤ 2048 ∧ 1 ≤ e.ocount ∧ e.ocount ≤ 2048) &&
  (replicas e).all (fun r => indexOk e.kind (slotRes e r.1 r.2)) &&
  (if isWindow e then windowOk s im d e else !e.long && e.first = 0xFFFF &&
    (if e.typ = 5 then decide (1 ≤ e.cap ∧ e.cap ≤ 409) && (e.kind ≠ 2 || (entryRate e).isSome) else e.cap = 0)) &&
  (e.typ ≠ 9 || decide (e.len = 221184))

/-- The units a deck plans on a channel in a hank phase, and the highest rate it plans there. -/
def channelPlan (d : Deck) (c p : Nat) : Nat × Nat :=
  d.slots.foldl (fun a e =>
    let n := ((replicas e).filter (fun r => slotRes e r.1 r.2 = c)).length
    if busTransfer e && bit e.phases p && decide (0 < n) then (a.1 + e.cap * n, max a.2 ((entryRate e).getD 0)) else a) (0, 0)

/-- The first transfer entry of a channel with which its plan in a hank phase exceeds what its rate carries. -/
def overEntry (d : Deck) (c p : Nat) : Nat :=
  ((List.range d.slots.length).find? (fun k =>
    let x := channelPlan { d with slots := d.slots.take (k + 1) } c p
    decide (hankCycles < x.1 * unitLen x.2))).getD 0

/-- The units of every channel in every hank are no more than its rate carries (R50, R375). -/
def unitsFail (s : State) (d : Deck) : Option Fail :=
  (List.range (nChannels s)).findSome? (fun c => (List.range (periodHanks d.period)).findSome? (fun p =>
    let x := channelPlan d c p
    need (decide (x.1 * unitLen x.2 ≤ hankCycles)) { slotFail 4 d (overEntry d c p) c with cycle := p * hankCycles }))

/-- Property 0x04. -/
def slotFormFail (s : State) (im : Image) : Option Fail :=
  (checkedDecks s im).findSome? (fun d =>
    (d.slots.zipIdx.findSome? (fun x => need (entryOk s im d x.1) (slotFail 4 d x.2 (resWord x.1.kind x.1.base)))).or (unitsFail s d))

/-! ## 0x05 Exclusivity, 0x07 Slicing (R48, R49) -/

/-- Two occurrences name one resource; a whole stack holds each of its ports. DEDUCED, log entry 58. -/
def sameRes (a b : Held) : Bool :=
  let k := a.slot.kind
  let l := b.slot.kind
  (k = l && heldRes a = heldRes b) || (k = 8 && l = 4 && heldRes a = heldRes b / 16) || (k = 4 && l = 8 && heldRes a / 16 = heldRes b)

/-- Two occurrences share a cycle of a period of `t` cycles. -/
def shareCycle (t : Nat) (a b : Held) : Bool :=
  decide ((b.at_ + t - a.at_) % t < a.slot.len) || decide ((a.at_ + t - b.at_) % t < b.slot.len)

/-- The first cycle that two occurrences share. -/
def sharedAt (t : Nat) (a b : Held) : Nat := if (b.at_ + t - a.at_) % t < a.slot.len then b.at_ else a.at_

/-- The first clash of a list. -/
def clashFail (d : Deck) : List Held → Option Fail
  | [] => none
  | a :: rest =>
    match rest.find? (fun b => sameRes a b && shareCycle (periodCycles d) a b) with
    | some b => some { heldFail 5 d a with second := b.entry, cycle := sharedAt (periodCycles d) a b }
    | none => clashFail d rest

/-- A slice of a die's program or erase. -/
def isSlice (h : Held) : Bool := h.slot.typ = 3 || h.slot.typ = 4

/-- What happens on a die in the order of the period: the slices and the windows with a suspend point. -/
def dieEvents (d : Deck) (die : Nat) : List Held :=
  let l := (occurrences d).filter (fun h => h.slot.kind = 1 && heldRes h = die && (isSlice h || h.slot.typ = 2))
  (natSort (l.map (·.at_))).filterMap (fun t => l.find? (fun h => h.at_ = t))

/-- How a planned operation ends: it fits its slices, it meets a slice of another kind or owner first, or it is suspended too often. -/
inductive OpEnd where
  | fits | meets (entry : Nat) | often
  deriving DecidableEq, Repr

/-- Follow an operation through its slices: `left` cycles to go, `pen` more for each suspend, `sus` suspends so far and `pend` windows since
the last slice, at most `lim`. Fuel bounds the events. DEDUCED, log entry 143. -/
def opWalk (pen lim : Nat) (first : Held) : Nat → List Held → Nat → Nat → Nat → OpEnd
  | 0, _, _, _, _ => .often
  | _ + 1, [], _, _, _ => .often
  | f + 1, h :: rest, left, sus, pend =>
    if !isSlice h then opWalk pen lim first f (rest ++ [h]) left sus (pend + 1)
    else if h.slot.typ ≠ first.slot.typ || h.slot.owner ≠ first.slot.owner then .meets h.entry
    else if lim < sus + pend then .often
    else if left + pen * pend ≤ h.slot.len then .fits
    else opWalk pen lim first f (rest ++ [h]) (left + pen * pend - h.slot.len) (sus + pend) 0

/-- The cycles of a slice's operation: an erase, or a program of the rows the owner's class writes to in the deck (R48, R155, R345). -/
def opCycles (im : Image) (d : Deck) (r : DieFig) (h : Held) : Nat :=
  nsCycles (1000 * (if h.slot.typ = 4 then r.eraseUs
    else if (mget [] im.pool d.mode.toNat).contains h.slot.owner then r.slcUs else r.qlcUs))

/-- How the operation that starts with event k of a die ends; a die that is not found fails nothing (R163). -/
def opEnd (s : State) (im : Image) (d : Deck) (die : Nat) (ev : List Held) (k : Nat) : OpEnd :=
  match ev[k]?, dieFound s die with
  | none, _ => .fits
  | _, none => .fits
  | some h, some _ =>
    let r := dieRecord s im die
    let lim := if h.slot.typ = 4 then r.susErase else r.susProg
    let n := opCycles im d r h
    opWalk (nsCycles r.resumeNs) lim h (ev.length * (n + lim + 2)) (ev.drop k ++ ev.take k) n 0 0

/-- The dies that a deck gives slices. -/
def slicedDies (d : Deck) : List Nat := natSort (((occurrences d).filter isSlice).map heldRes)

/-- Every operation that a deck may start on a die. -/
def dieOps (s : State) (im : Image) (d : Deck) (die : Nat) : List (Held × OpEnd) :=
  let ev := dieEvents d die
  ev.zipIdx.filterMap (fun x => if isSlice x.1 then some (x.1, opEnd s im d die ev x.2) else none)

/-- No die has two programs or erases in flight at once (R49). The Hold deck starts none (R75). DEDUCED, log entry 143. -/
def inFlightFail (s : State) (im : Image) (d : Deck) : Option Fail :=
  if d.mode = 0 then none
  else (slicedDies d).findSome? (fun die => (dieOps s im d die).findSome? (fun x => match x.2 with
    | .meets k => some { heldFail 5 d x.1 with second := k }
    | _ => none))

/-- Property 0x05. -/
def exclusiveFail (s : State) (im : Image) : Option Fail :=
  (checkedDecks s im).findSome? (fun d => (clashFail d (occurrences d)).or (inFlightFail s im d))

/-- Property 0x07. -/
def slicingFail (s : State) (im : Image) : Option Fail :=
  im.decks.findSome? (fun d => (slicedDies d).findSome? (fun die => (dieOps s im d die).findSome? (fun x => match x.2 with
    | .often => some (heldFail 7 d x.1)
    | _ => none)))

/-! ## 0x06 Reservations (R23, R52, R75, R388) -/

/-- The repair windows of a stack of at least a length, in a span of cycles. -/
def repairs (o : List Held) (n len lo hi : Nat) : List Held :=
  o.filter (fun h => h.slot.kind = 8 && heldRes h = n && decide (len ≤ h.slot.len) && decide (lo ≤ h.at_ ∧ h.at_ < hi))

/-- In every turn of every phase, a stack has a repair window of 1,024 cycles for refresh and a control-port slot, and in every hank one of
4,096 cycles for retraining, which is no refresh window. DEDUCED, log entry 136. -/
def stackFail (im : Image) (d : Deck) (n : Nat) : Option Fail :=
  let o := occurrences d
  ((List.range (64 * periodHanks d.period)).findSome? (fun t =>
    need ((repairs o n 1024 (8192 * t) (8192 * t + 8192)).any (fun h => decide (h.slot.len < 4096)) &&
      o.any (fun h => h.slot.kind = 4 && heldRes h = 16 * n + 8 && decide (h.at_ / 8192 = t))) (deckFail 6 im d 0 n (8192 * t)))).or
  ((List.range (periodHanks d.period)).findSome? (fun p =>
    need (!(repairs o n 4096 (p * hankCycles) (p * hankCycles + hankCycles)).isEmpty) (deckFail 6 im d 0 n (p * hankCycles))))

/-- Each die of the layout has two turns of slice in every hank (R75). -/
def slicesFail (im : Image) (d : Deck) : Option Fail :=
  im.groups.flatten.findSome? (fun k => (List.range (periodHanks d.period)).findSome? (fun p =>
    need (decide (16384 ≤ (d.slots.map (fun e =>
      if (e.typ = 3 || e.typ = 4) && bit e.phases p then
        e.len * ((replicas e).filter (fun r => slotRes e r.1 r.2 = k)).length else 0)).sum)) (deckFail 6 im d 0 (k / 16) (p * hankCycles))))

/-- The channels that an image plans at an extended rate (R374, R388). -/
def extendedChannels (s : State) (im : Image) : List Nat :=
  (List.range (nChannels s)).filter (fun c => im.decks.any (fun d =>
    (List.range (periodHanks d.period)).any (fun p => decide (6 ≤ (channelPlan d c p).2))))

/-- The longest run of consecutive housekeeping transfers of a channel that starts with an occurrence: fuel bounds the transfers. -/
def runLen (t : Nat) (l : List Held) : Nat → Held → Nat
  | 0, h => h.slot.len
  | f + 1, h =>
    match l.find? (fun x => x.at_ = (h.at_ + h.slot.len) % t) with
    | none => h.slot.len
    | some x => h.slot.len + runLen t l f x

/-- Every channel at an extended rate has a run of housekeeping transfer units of 4,096 cycles (R388). -/
def sweepFail (s : State) (im : Image) (d : Deck) : Option Fail :=
  (extendedChannels s im).findSome? (fun c =>
    let l := (occurrences d).filter (fun h => busTransfer h.slot && heldRes h = c && h.slot.owner = 0x100)
    need (l.any (fun h => decide (4096 ≤ runLen (periodCycles d) l l.length h))) (deckFail 6 im d 0 c 0))

/-- Property 0x06. -/
def reservedFail (s : State) (im : Image) : Option Fail :=
  (checkedDecks s im).findSome? (fun d =>
    ((List.range (nStacks s)).findSome? (stackFail im d)).or ((slicesFail im d).or (sweepFail s im d)))

/-! ## 0x08 Chains (R55, R155) -/

/-- Cycles from one cycle of a period to another. -/
def cyclesTo (t from_ to_ : Nat) : Nat := (to_ + t - from_) % t

/-- The offset from a window's start to the next start of its chained entry's replica. -/
def chainOffset (d : Deck) (w : Held) (k : Nat) : Option Nat :=
  match d.slots[k]? with
  | none => none
  | some e =>
    (natSort ((phasesOf d e).map (fun p => cyclesTo (periodCycles d) w.at_ (p * hankCycles + slotBegin e w.i w.o)))).head?

/-- The units of a place: hard and soft. -/
def placeUnits (p : PlaceRec) : Nat := if p.recovery then 2 * p.hard else p.hard

/-- The cycles of one unit of a transfer. -/
def transferUnit (e : SlotEntry) : Nat := unitLen ((entryRate e).getD 0)

/-- The transmit slot of a place follows its cipher slot (R55): it starts no earlier than that ends. -/
def cipherBefore (d : Deck) (p : PlaceRec) (c x : Nat) : Bool :=
  match d.slots[p.cipher]? with | some e => decide (c + e.len ≤ x) | none => false

/-- A place's chain starts in order, each slot once its input is ready, and belongs to the place's owner. DEDUCED, log entry 144. -/
def placeChain (d : Deck) (w : Held) (p : PlaceRec) : Bool :=
  let owned := fun k => (d.slots[k]?.map (·.owner)) = some p.owner
  match chainOffset d w p.transfer, chainOffset d w p.cipher, chainOffset d w p.transmit, d.slots[p.transfer]? with
  | some t, some c, some x, some e =>
    let u := transferUnit e
    let last := t + (p.firstUnit + placeUnits p) * u
    owned p.transfer && owned p.cipher && owned p.transmit && decide (p.firstUnit + placeUnits p ≤ e.cap) &&
    decide (w.slot.len ≤ t + p.firstUnit * u) && decide (last + 3160 ≤ c) && cipherBefore d p c x &&
    (!p.recovery || (owned p.pool && (match chainOffset d w p.pool with | some q => decide (last ≤ q) | none => false) &&
      (match d.slots[p.pool]? with | some q => decide (slotRes q w.i w.o / 8 = heldRes w / 1024) | none => false))) &&
    decide (slotRes e w.i w.o = heldRes w / 16)
  | _, _, _, _ => false

/-- Every occurrence of a window has its chained slots at one offset. -/
def chainFixed (d : Deck) (l : List Held) (k : Nat) : Bool :=
  l.all (fun a => l.all (fun b => chainOffset d a k = chainOffset d b k))

/-- Property 0x08. -/
def chainFail (s : State) (im : Image) : Option Fail :=
  (checkedDecks s im).findSome? (fun d => d.slots.zipIdx.findSome? (fun x =>
    if isWindow x.1 then
      let l := entryHeld d x.2 x.1
      (windowRecs d x.1).findSome? (fun p => l.findSome? (fun w =>
        need (placeChain d w p && ([p.transfer, p.cipher, p.transmit] ++ (if p.recovery then [p.pool] else [])).all (chainFixed d (l.filter (fun a => a.i = w.i && a.o = w.o))))
          (heldFail 8 d w)))
    else none))

/-! ## 0x09 Partitions (R160, R161, R166, R167) -/

/-- Two ranges (first, length) share a number. -/
def rangesMeet (a b : Nat × Nat) : Bool := decide (a.1 < b.1 + b.2 ∧ b.1 < a.1 + a.2)

/-- Two owners' register sets and scratch ranges are apart on the spindles they share; every owner may read g0 and p0 (R167). -/
def spnApart (a b : SpnPart) : Bool :=
  a.mask &&& b.mask = 0 ||
    (a.g &&& b.g &&& ~~~ 1#64 = 0 && a.v &&& b.v = 0 && a.p &&& b.p &&& ~~~ 1#8 = 0 &&
      a.scratch.all (fun x => b.scratch.all (fun y => !rangesMeet x y)))

/-- Two owners share nothing. -/
def partApart (p q : OwnerPart) : Bool :=
  p.dram.all (fun a => q.dram.all (fun b => !rangesMeet a b)) && p.keys.all (fun a => q.keys.all (fun b => !rangesMeet a b)) &&
    p.spns.all (fun a => q.spns.all (spnApart a))

/-- No two owners of a list share anything. -/
def partsApart : List OwnerPart → Bool
  | [] => true
  | p :: rest => rest.all (fun q => p.owner = q.owner || partApart p q) && partsApart rest

/-- Property 0x09. -/
def partsFail (im : Image) : Option Fail := need (partsApart im.parts) { verdict := 9, at_ := secAt im 5 }

/-! ## 0x0D Bounded gaps (R58) -/

/-- The first of some cycles of a period after which the next comes later than `lim` cycles on; the cycles rise. -/
def wideGap (t lim : Nat) (l : List Nat) : Option Nat :=
  let next := l.drop 1 ++ (l.take 1).map (· + t)
  ((l.zip next).find? (fun x => decide (lim < x.2 - x.1))).map (·.1)

/-- The occurrences of a kind leave class `c` no wider gap than a limit; none at all is a failure of the class word that marks it bounded (R187). -/
def gapFail (im : Image) (d : Deck) (c lim res : Nat) (l : List Held) : Option Fail :=
  let ts := natSort (l.map (·.at_))
  if ts.isEmpty then some (deckFail 13 im d (64 + 4 * c) res 0)
  else (wideGap (periodCycles d) lim ts).bind (fun t => (l.find? (fun h => h.at_ = t)).map (fun h => heldFail 13 d h))

/-- The windows that give a class a place on a die. -/
def classWindows (d : Deck) (c die : Nat) (recovery : Bool) : List Held :=
  (occurrences d).filter (fun h => isWindow h.slot && heldRes h = die &&
    (windowRecs d h.slot).any (fun p => p.owner = c && (!recovery || p.recovery)))

/-- A class's die set in a deck (R58). -/
def classDies (s : State) (d : Deck) (c : Nat) : List Nat := (List.range (16 * nChannels s)).filter (deckPlaceOn d c)

/-- The classes that a deck marks bounded. -/
def boundedClasses (d : Deck) : List Nat := (List.range 256).filter (fun c => bit (mget 0 d.cls c) 31)

/-- The resources, or what `f` makes of them, that a class holds slots of a type on. -/
def classUses (d : Deck) (c typ kind : Nat) (f : Nat → Nat) : List Nat :=
  natSort (((occurrences d).filter (fun h => h.slot.typ = typ && h.slot.kind = kind && h.slot.owner = c)).map (fun h => f (heldRes h)))

/-- The slots of a type that a class holds on one resource, as `f` names it. -/
def classSlots (d : Deck) (c typ kind n : Nat) (f : Nat → Nat) : List Held :=
  (occurrences d).filter (fun h => h.slot.typ = typ && h.slot.kind = kind && h.slot.owner = c && f (heldRes h) = n)

/-- A bounded class's gaps in a deck. The wait for a place runs from a cycle whose cutoff has just passed, 79 cycles before the start. -/
def classGapFail (s : State) (im : Image) (d : Deck) (c : Nat) : Option Fail :=
  let dies := classDies s d c
  let gap := gapFail im d c
  (dies.findSome? (fun die => (gap (14 * 8192 - 79) (die / 16) (classWindows d c die false)).or
    (gap (54 * 8192 - 79) (die / 16) (classWindows d c die true)))).or
  (((natSort (dies.map (· / 1024))).findSome? (fun p => gap (32 * 8192) 0xFFFF (classSlots d c 9 6 p (· / 8)))).or
  (((classUses d c 5 7 (· / 4)).findSome? (fun p => gap 8192 p (classSlots d c 5 7 p (· / 4)))).or
  ((classUses d c 8 5 id).findSome? (fun n => gap 8192 n (classSlots d c 8 5 n id)))))

/-- Property 0x0D. -/
def gapsFail (s : State) (im : Image) : Option Fail :=
  (checkedDecks s im).findSome? (fun d => (boundedClasses d).findSome? (classGapFail s im d))

/-! ## 0x0F Seams (R73) -/

/-- The slots of a deck that run on across a hank boundary, with the cycles they hold beyond it; `last` for the end of the period alone. -/
def runOn (d : Deck) (last : Bool) : List (Held × Nat) :=
  (occurrences d).filterMap (fun h =>
    let edge := (h.at_ / hankCycles + 1) * hankCycles
    if edge < h.at_ + h.slot.len && (!last || edge = periodCycles d) then some (h, h.at_ + h.slot.len - edge) else none)

/-- The deck that takes over grants nothing that a slot of the old one still holds. DEDUCED, log entry 145. -/
def seamFail (a b : Deck) (last : Bool) : Option Fail :=
  let o := occurrences b
  (runOn a last).findSome? (fun x => (o.find? (fun h => sameRes x.1 h && decide (h.at_ < x.2))).map (fun h =>
    { heldFail 15 a x.1 with second := h.entry, cycle := h.at_ }))

/-- Property 0x0F: every permitted switch, the switch into Hold, and the wrap of each deck. -/
def seamsFail (s : State) (im : Image) : Option Fail :=
  (checkedDecks s im).findSome? (fun a =>
    (im.decks.findSome? (fun b =>
      if a.mode ≠ 0 && a.mode ≠ b.mode && bit (mget 0 im.matrix a.mode.toNat) b.mode.toNat then seamFail a b false else none)).or
    ((if a.mode = 0 then none else seamFail a (holdDeck s) false).or (seamFail a a true)))

/-! ## 0x10 Placement (R60) -/

/-- Owners that hold places in some deck. -/
def placeOwners (im : Image) : List Nat := ((im.decks.map (fun d => d.places.map (fun p => p.owner))).flatten).eraseDups

/-- A group lies wholly inside or wholly outside a class's die set in a deck. -/
def groupWhole (d : Deck) (c : Nat) (g : List Nat) : Bool := g.all (deckPlaceOn d c) || g.all (fun k => !deckPlaceOn d c k)

/-- A class's die set in a deck is a union of whole groups: no die of it lies outside every group. -/
def dieSetWhole (s : State) (im : Image) (d : Deck) (c : Nat) : Bool :=
  im.groups.all (groupWhole d c) && (classDies s d c).all (fun k => im.groups.any (fun g => g.contains k))

/-- The first window that gives a class a place on a die whose group is not whole in the class's die set. -/
def strayWindow (im : Image) (d : Deck) (c : Nat) : Nat :=
  ((d.slots.zipIdx.find? (fun x => isWindow x.1 && (windowRecs d x.1).any (fun p => p.owner = c) &&
    (replicas x.1).any (fun r => !im.groups.any (fun g => g.contains (slotRes x.1 r.1 r.2) && g.all (deckPlaceOn d c))))).map (·.2)).getD 0

/-- Property 0x10: whole groups, and a common group for every class that namespaces are bound to. The Hold deck, which owns no slot for any
class (R203), is left out. DEDUCED, log entry 59. -/
def placementFail (s : State) (im : Image) : Option Fail :=
  (im.decks.findSome? (fun d => (placeOwners im).findSome? (fun c => need (dieSetWhole s im d c) (slotFail 16 d (strayWindow im d c) 0xFFFF)))).or
  (s.media.nss.findSome? (fun e => match e.2 with
    | none => none
    | some x => need (im.groups.any (fun g => im.decks.all (fun d => g.all (deckPlaceOn d x.cls.toNat)))) { verdict := 16, at_ := secAt im 4 }))

end Sys2Proof.Machine
end

