-- ==== Sys2Proof/Machine/Alu.lean ====
section
/-! DEFINITION. The arithmetic of the integer and vector instructions (R105, R106, R125–R128), on values alone. -/

namespace Sys2Proof.Machine

/-! ## 64-bit integers (R105) -/

/-- Shift left by the low six bits of the count. -/
def shl64 (a c : BitVec 64) : BitVec 64 := a <<< (c.setWidth 6).toNat
/-- Shift right with zero fill. -/
def shr64 (a c : BitVec 64) : BitVec 64 := a >>> (c.setWidth 6).toNat
/-- Shift right with sign fill. -/
def sar64 (a c : BitVec 64) : BitVec 64 := BitVec.sshiftRight a (c.setWidth 6).toNat
/-- The high 64 bits of the unsigned product. -/
def mulhu64 (a b : BitVec 64) : BitVec 64 := BitVec.ofNat 64 (a.toNat * b.toNat / 2 ^ 64)
/-- Leading zeros of the low `n` bits. -/
def clzAux (a : BitVec 64) : Nat → Nat
  | 0 => 0
  | n + 1 => if a.getLsbD n then 0 else clzAux a n + 1
/-- The count of leading zeros; 64 when A is 0. -/
def clz64 (a : BitVec 64) : BitVec 64 := BitVec.ofNat 64 (clzAux a 64)
/-- One bits among the low `n`. -/
def popAux (a : BitVec 64) : Nat → Nat
  | 0 => 0
  | n + 1 => popAux a n + (if a.getLsbD n then 1 else 0)
/-- The count of one bits. -/
def popc64 (a : BitVec 64) : BitVec 64 := BitVec.ofNat 64 (popAux a 64)
/-- The low `n` bytes of A in reverse order, zero-extended. -/
def revBytes (a : BitVec 64) (n : Nat) : BitVec 64 :=
  (List.range n).foldl (fun r k => r ||| ((a >>> (8 * k)).setWidth 8).setWidth 64 <<< (8 * (n - 1 - k))) 0
/-- BSWAP by FN; none for FN 3–7 (R670). -/
def bswap64 (fn : BitVec 3) (a : BitVec 64) : Option (BitVec 64) :=
  match fn.toNat with
  | 0 => some (revBytes a 8)
  | 1 => some (revBytes a 4)
  | 2 => some (revBytes a 2)
  | _ => none

/-! ## Parts of a v register (R94) -/

/-- Byte i. -/
def vbyte (v : BitVec 256) (i : Nat) : BitVec 8 := (v >>> (8 * i)).setWidth 8
/-- 64-bit lane k. -/
def vlane (v : BitVec 256) (k : Nat) : BitVec 64 := (v >>> (64 * k)).setWidth 64
/-- Half h. -/
def vhalf (v : BitVec 256) (h : Nat) : BitVec 128 := (v >>> (128 * h)).setWidth 128
/-- A v register from its halves. -/
def ofHalves (h0 h1 : BitVec 128) : BitVec 256 := h0.setWidth 256 ||| h1.setWidth 256 <<< 128
/-- A v register with lane k replaced. -/
def setLane (v : BitVec 256) (k : Nat) (x : BitVec 64) : BitVec 256 :=
  (v &&& ~~~ ((BitVec.allOnes 64).setWidth 256 <<< (64 * k))) ||| x.setWidth 256 <<< (64 * k)
/-- A v register built byte by byte from byte 0 up. -/
def ofBytes (f : Nat → BitVec 8) : BitVec 256 :=
  (List.range 32).foldl (fun r i => r ||| (f i).setWidth 256 <<< (8 * i)) 0

/-! ## Vector logic, add, shuffle and reversal (R106) -/

/-- VLOG by FN; none for an FN that R106 does not list. -/
def vlogFn (fn : BitVec 5) (a b c : BitVec 256) : Option (BitVec 256) :=
  match fn.toNat with
  | 0 => some (a &&& b)
  | 1 => some (a ||| b)
  | 2 => some (a ^^^ b)
  | 3 => some (a &&& ~~~ b)
  | 4 => some (a ^^^ b ^^^ c)
  | 5 => some ((a &&& c) ||| (b &&& ~~~ c))
  | 6 => some (~~~ a)
  | 7 => some a
  | _ => none

/-- Lane-wise add or subtract at `w` bits, lane `k` of the result, each lane modulo 2^w. -/
def laneOp (sub : Bool) (w : Nat) (a b : BitVec 256) (k : Nat) : BitVec 256 :=
  let x := (a >>> (w * k)).toNat % 2 ^ w
  let y := (b >>> (w * k)).toNat % 2 ^ w
  let r := if sub then (x + 2 ^ w - y) % 2 ^ w else (x + y) % 2 ^ w
  BitVec.ofNat 256 (r * 2 ^ (w * k))

/-- VADD by FN; none where FN[4:3] is not 0. -/
def vaddFn (fn : BitVec 5) (a b : BitVec 256) : Option (BitVec 256) :=
  if fn.toNat < 8 then
    let w := 8 * 2 ^ (fn.toNat % 4)
    some ((List.range (256 / w)).foldl (fun r k => r ||| laneOp (fn.getLsbD 2) w a b k) 0)
  else none

/-- VSHUF: byte i of the result; zero where bit 7 of the control byte is 1, else byte j of VA followed by VB. -/
def vshufByte (a b c : BitVec 256) (i : Nat) : BitVec 8 :=
  let k := vbyte c i
  if k.getLsbD 7 then 0
  else
    let j := k.toNat % 64
    if j < 32 then vbyte a j else vbyte b (j - 32)

/-- VSHUF by FN; only FN 0 exists. -/
def vshufFn (fn : BitVec 5) (a b c : BitVec 256) : Option (BitVec 256) :=
  if fn = 0 then some (ofBytes (vshufByte a b c)) else none

/-- The bits of a byte in reverse order. -/
def revBits (x : BitVec 8) : BitVec 8 :=
  (List.range 8).foldl (fun r k => if x.getLsbD k then r ||| (1#8 <<< (7 - k)) else r) 0

/-- The place a byte takes when the order within its half is reversed. -/
def revIdx (i : Nat) : Nat := if i < 16 then 15 - i else 47 - i

/-- VBREV by FN; none for an FN that R106 does not list. -/
def vbrevFn (fn : BitVec 5) (a : BitVec 256) : Option (BitVec 256) :=
  match fn.toNat with
  | 0 => some (ofBytes (fun i => vbyte a (revIdx i)))
  | 1 => some (ofBytes (fun i => revBits (vbyte a i)))
  | 2 => some (ofBytes (fun i => revBits (vbyte a (revIdx i))))
  | _ => none

/-! ## Carry-less and GF(2¹²⁸) products (R125–R128) -/

/-- The carry-less product of two 64-bit values in plain order, over the low `n` bits of the second. -/
def clmulAux (a b : BitVec 64) : Nat → BitVec 128
  | 0 => 0
  | n + 1 => clmulAux a b n ^^^ (if b.getLsbD n then a.setWidth 128 <<< n else 0)

/-- The carry-less product (R126). -/
def clmul64 (a b : BitVec 64) : BitVec 128 := clmulAux a b 64

/-- VCLMUL by FN; none where FN[4:2] is not 0 (R126, R670). -/
def vclmulFn (fn : BitVec 5) (a b : BitVec 256) : Option (BitVec 256) :=
  if fn.toNat < 4 then
    let i := fn.toNat % 2
    let j := fn.toNat / 2
    some (ofHalves (clmul64 (vlane a i) (vlane b j)) (clmul64 (vlane a (2 + i)) (vlane b (2 + j))))
  else none

/-- Multiplication by α in XTS order (R128): a left shift, with 0x87 in byte 0 when bit 127 was 1. -/
def xtsTimesAlpha (x : BitVec 128) : BitVec 128 := (x <<< 1) ^^^ (if x.getLsbD 127 then 0x87 else 0)

/-- Multiplication by α^n in XTS order. -/
def xtsAlphaPow (x : BitVec 128) : Nat → BitVec 128
  | 0 => x
  | n + 1 => xtsTimesAlpha (xtsAlphaPow x n)

/-- The product in GF(2¹²⁸) in XTS order, over the low `n` coefficients of the second factor (R127). -/
def xtsMulAux (a b : BitVec 128) : Nat → BitVec 128
  | 0 => 0
  | n + 1 => xtsMulAux a b n ^^^ (if b.getLsbD n then xtsAlphaPow a n else 0)

/-- The product in GF(2¹²⁸) in XTS order. -/
def xtsMul (a b : BitVec 128) : BitVec 128 := xtsMulAux a b 128

/-- The bit order within each byte reversed: GCM order read as XTS order (R125). -/
def gcmSwap (x : BitVec 128) : BitVec 128 :=
  (List.range 16).foldl (fun r i => r ||| (revBits ((x >>> (8 * i)).setWidth 8)).setWidth 128 <<< (8 * i)) 0

/-- The product in GF(2¹²⁸) in GCM order. -/
def gcmMul (a b : BitVec 128) : BitVec 128 := gcmSwap (xtsMul (gcmSwap a) (gcmSwap b))

/-- VGFMUL by FN: 0 GCM order, 1 XTS order (R127). -/
def vgfmulFn (fn : BitVec 5) (a b : BitVec 256) : Option (BitVec 256) :=
  match fn.toNat with
  | 0 => some (ofHalves (gcmMul (vhalf a 0) (vhalf b 0)) (gcmMul (vhalf a 1) (vhalf b 1)))
  | 1 => some (ofHalves (xtsMul (vhalf a 0) (vhalf b 0)) (xtsMul (vhalf a 1) (vhalf b 1)))
  | _ => none

/-- VGFX by FN (R128). -/
def vgfxFn (fn : BitVec 5) (a : BitVec 256) : Option (BitVec 256) :=
  match fn.toNat with
  | 0 => some (ofHalves (xtsAlphaPow (vhalf a 0) 1) (xtsAlphaPow (vhalf a 1) 1))
  | 1 => some (ofHalves (xtsAlphaPow (vhalf a 0) 2) (xtsAlphaPow (vhalf a 1) 2))
  | 2 => some (ofHalves (xtsAlphaPow (vhalf a 0) 4) (xtsAlphaPow (vhalf a 1) 4))
  | 3 => some (ofHalves (vhalf a 0) (xtsAlphaPow (vhalf a 1) 1))
  | _ => none

end Sys2Proof.Machine
end

