-- ==== Sys2Proof/Machine/Faults.lean ====
section
/-! DEFINITION. Fault collection, the event recorder, junction sensors and throttling (chapter 13), and the always-on
watcher's latch (R529, R530). -/

namespace Sys2Proof.Machine

/-! ## Watcher (R529, R530, R559) -/

/-- The group and class of a watcher input (R559); none for the inputs that reach no group. -/
def watchFault (n : Nat) : Option (Nat × BitVec 3) :=
  if n < 16 then some (4, 3)
  else if n = 16 then some (2, 1)
  else if n = 17 then some (2, 2)
  else if 19 ≤ n ∧ n ≤ 21 then some (1, 4)
  else if n = 22 ∨ n = 23 then some (3, 2)
  else if 28 ≤ n ∧ n ≤ 31 then some (25, 3)
  else none

/-- An input latches (R530): its WATCH_STAT bit, event 0x0150, and fault collection while its WATCH_ESC bit is set. -/
def watchLatch (n : Nat) (s : State) : State :=
  let s := modWatch (fun u => { u with stat := setBit u.stat n }) s
  let ws := [w32 n, s.watch.stat]
  match watchFault n with
  | some (g, c) =>
    if bit s.watch.esc n then raiseFault g c (eventC 0x0150 c.toNat ws s) else event 0x0150 ws s
  | none => event 0x0150 ws s

/-- An input asserts: it latches while its WATCH_STAT bit is 0 (R530). -/
def watchAssert (n : Nat) (s : State) : State :=
  let s := modWatch (fun u => { u with input := setBit u.input n }) s
  if bit s.watch.stat n then s else watchLatch n s

/-- An input deasserts. -/
def watchRelease (n : Nat) (s : State) : State :=
  modWatch (fun u => { u with input := clrBit u.input n }) s

/-- An input asserts for one AON cycle (R530). -/
def watchPulse (n : Nat) (s : State) : State := if bit s.watch.stat n then s else watchLatch n s

/-- A write of 1 to bits of WATCH_STAT (R530): each input still asserted latches again at once, as a new latch. -/
def watchClear (v : BitVec 32) (s : State) : State :=
  let had := s.watch.stat
  let s := modWatch (fun u => { u with stat := w1c u.stat v }) s
  (List.range 32).foldl (fun s n =>
    if bit had n && bit v n && bit s.watch.input n then watchLatch n s else s) s

/-! ## Fault collection rows -/

/-- ESCALATION_WINDOW_END (R561). DESIGN CHOICE, log entry 6. -/
def execEscalationWindowEnd (g : BitVec 6) (s : State) : Out :=
  .next (modGroup g.toNat (fun x => { x with wcount := 0, winOpen := false }) s)

/-- The time the open reaction's deadline passes, FCR_CTL.REACT_MS after it opened; 0 is taken as 1 ms (R562, R577). -/
def reactDue (s : State) : BitVec 64 :=
  s.fcr.reactSince + (if s.fcr.reactMs = 0 then 1 else s.fcr.reactMs.setWidth 64) * 1000000

/-- REACTION_DEADLINE (R562, R564): the open reaction becomes Grave with cause 3, once; the time is not before the deadline. -/
def execReactionDeadline (s : State) : Out :=
  .next (if s.fcr.reactOpen && (groupOf s s.fcr.reactGroup.toNat).cls ≠ 4 then
      becomeGrave s.fcr.reactGroup.toNat 3 { s with now := if s.now < reactDue s then reactDue s else s.now } else s)

/-- Microseconds since a time. -/
def usSince (s : State) (t : BitVec 64) : BitVec 32 := w32 ((s.now - t).toNat / 1000)

/-- A write of ACK (R562, R578). -/
def reactionAck (s : State) : State :=
  if s.fcr.reactOpen then
    let s := passTime s
    let s := event 0x0F04 [s.fcr.reactGroup.setWidth 32, s.fcr.reactCount.setWidth 32, usSince s s.fcr.reactSince] s
    (modFcr (fun u => { u with reactOpen := false }) s)
  else s

/-- REACTIONS_ENABLE (R673). -/
def execReactionsEnable (s : State) : Out := .next (modFcr (fun u => { u with ren := true }) s)

/-- A write of 1 to FCR_GSTAT.CLEAR (R563). -/
def groupClear (g : Nat) (s : State) : State :=
  if (s.fcr.reactOpen && s.fcr.reactGroup.toNat = g) || (groupOf s g).cls = 4 then s
  else modGroup g (fun x => { x with cls := 0, wcount := 0, winOpen := false }) s

/-- GROUP_CLEAR (R563). -/
def execGroupClear (g : BitVec 6) (s : State) : Out := .next (groupClear g.toNat s)

/-- A write to FCR_INJ with GO (R577). -/
def faultInject (c : BitVec 3) (g : BitVec 6) (s : State) : State :=
  let s := modFcr (fun u => { u with injClass := c, injGroup := g }) s
  if 1 ≤ c.toNat ∧ c.toNat ≤ 4 then
    raiseFault g.toNat c (eventC 0x0F07 c.toNat [g.setWidth 32, c.setWidth 32] s)
  else s

/-- FAULT_INJECT (R577). -/
def execFaultInject (c : BitVec 3) (g : BitVec 6) (s : State) : Out := .next (faultInject c g s)

/-- FAULT_N_READ_BACK (R568): the pin reads high or low. The third disagreeing read in a row asserts watcher input 22,
which the first agreeing read releases. -/
def execFaultNReadBack (high : Bool) (s : State) : Out :=
  let s := modFcr (fun u => { u with fpin := high }) s
  .next (if high = faultN s then
      let n := s.fcr.fpinBad + 1
      let s := modFcr (fun u => { u with fpinBad := n }) s
      if 3 ≤ n then watchAssert 22 s else s
    else watchRelease 22 (modFcr (fun u => { u with fpinBad := 0 }) s))

/-- THERM_N_READ_BACK (R569), as FAULT_N on watcher input 23. -/
def execThermNReadBack (high : Bool) (s : State) : Out :=
  let s := modFcr (fun u => { u with tpin := high }) s
  .next (if high = thermN s then
      let n := s.fcr.tpinBad + 1
      let s := modFcr (fun u => { u with tpinBad := n }) s
      if 3 ≤ n then watchAssert 23 s else s
    else watchRelease 23 (modFcr (fun u => { u with tpinBad := 0 }) s))

/-! ## Event recorder (R570–R576) -/

/-- EVR_STAT.FILL: records written and not released. -/
def evrFill (v : Evr) : Nat := (v.widx - v.ridx).toNat

/-- EVR_STAT (R575). -/
def evrStat (v : Evr) : BitVec 32 := bfld v.stop 31 ||| bfld v.badw 30 ||| w32 (evrFill v)

/-- A record as eight words. -/
def eventWords (e : EventRec) : List (BitVec 32) :=
  [e.code.setWidth 32 ||| fld e.flags 16, lo32 e.time, hi32 e.time, e.w0, e.w1, e.w2, e.w3, e.w4]

/-- The class in an event's flags (R571). -/
def eventClass (e : EventRec) : Nat := (e.flags.toNat / 2) % 8

/-- The notifications an event calls for (R554), as types. -/
def noticesOf (e : EventRec) : List (BitVec 16) :=
  let c := e.code.toNat
  (if c = 0x0F02 ∨ c = 0x0F03 ∨ c = 0x0F05 ∨ eventClass e = 3 ∨ eventClass e = 4 then [0x8001] else []) ++
  (if c = 0x0601 ∨ c = 0x0606 then [0x8003] else []) ++
  (if c = 0x0202 ∨ c = 0x0203 ∨ c = 0x0205 then [0x8004] else []) ++
  (if c = 0x0C02 ∨ c = 0x0C03 ∨ c = 0x0C04 then [0x8005] else [])

/-- Send one notification on one session: dropped where its send buffer is full, and the next one sent then carries
flag bit 2 (R554). -/
def notifyOne (full : BitVec 4) (typ : BitVec 16) (pay : List (BitVec 32)) (k : Nat) (s : State) : State :=
  let x := sessOf s k
  if x.isOpen && bit x.mask (typ.toNat - 0x8001) then
    if bit full k then modSess k (fun x => { x with dropped := true }) s
    else
      modSess k (fun x => { x with dropped := false })
        (tilostSend { session := k, typ := typ, flags := if x.dropped then 6 else 2, payload := pay } s)
  else s

/-- Send one notification on every session that subscribes to it. -/
def notifyAll (full : BitVec 4) (typ : BitVec 16) (pay : List (BitVec 32)) (s : State) : State :=
  (List.range 4).foldl (fun s k => notifyOne full typ pay k s) s

/-- The next queued event becomes a record, with LOSS after a drop; the recorder stops at 65,536 unread records
(R570–R572, R554). `full` marks the sessions whose send buffer is full. -/
def recordWrite (full : BitVec 4) (s : State) : State :=
  match s.evr.queue with
  | [] => s
  | e :: rest =>
    if s.evr.stop then s
    else
      let e := if s.evr.loss then { e with flags := e.flags ||| 0x20 } else e
      let was := evrFill s.evr
      let v := { s.evr with queue := rest, loss := false, widx := s.evr.widx + 1,
                            recs := mset {} (s.evr.widx.toNat % 65536) e s.evr.recs }
      let v := { v with stop := decide (65536 ≤ evrFill v) }
      let s := modEvr (fun _ => v) s
      let s := (noticesOf e).foldl (fun s t => notifyAll full t (eventWords e) s) s
      if was < v.thr.toNat ∧ v.thr.toNat ≤ evrFill v then notifyAll full 0x8002 [v.widx, v.ridx, evrStat v] s else s

/-- RECORD_WRITE (R570–R572, R554). -/
def execRecordWrite (full : BitVec 4) (s : State) : Out := .next (recordWrite full s)

/-- The recorder writes every event of its input queue (R570). -/
def recordAll (s : State) : State := s.evr.queue.foldl (fun s _ => recordWrite 0 s) s

/-- A write to EVR_RIDX (R574). -/
def writeRidx (x : BitVec 32) (s : State) : State :=
  if (s.evr.widx - x).toNat ≤ 65536 then
    let v := { s.evr with ridx := x }
    (modEvr (fun _ => { v with stop := v.stop && decide (65536 ≤ evrFill v) }) s)
  else modEvr (fun u => { u with badw := true }) s

/-- READ_INDEX_WRITE (R574). -/
def execReadIndexWrite (x : BitVec 32) (s : State) : Out := .next (writeRidx x s)

/-! ## Junction sensors and throttling (R579–R585) -/

/-- Sensor n. -/
def sensorOf (s : State) (n : Nat) : Sensor := mget {} s.thm.sens n

/-- The neighbours of a sensor (R579). -/
def neighbours (n : Nat) : List Nat :=
  if n < 16 then
    (if 4 ≤ n then [n - 4] else []) ++ (if n % 4 ≠ 0 then [n - 1] else []) ++
    (if n % 4 ≠ 3 then [n + 1] else []) ++ (if n < 12 then [n + 4] else [])
  else if n < 28 then
    (if n % 4 ≠ 0 then [n - 1] else []) ++ (if n % 4 ≠ 3 then [n + 1] else [])
  else [5, 6, 9, 10]

/-- The highest of some readings. -/
def maxTemp : List (BitVec 8) → Option (BitVec 8)
  | [] => none
  | t :: ts => match maxTemp ts with
    | none => some t
    | some u => if degC u < degC t then some t else some u

/-- The readings of the valid neighbours. -/
def neighbourReadings (s : State) (n : Nat) : List (BitVec 8) :=
  ((neighbours n).filter (fun k => (sensorOf s k).valid)).map (fun k => (sensorOf s k).raw)

/-- A reading differs by more than 15 °C from every neighbour's (R581). -/
def disagrees (s : State) (n : Nat) (r : BitVec 8) : Bool :=
  let ns := neighbourReadings s n
  !ns.isEmpty && ns.all (fun t => decide (15 < (degC r - degC t).natAbs))

/-- The composite temperature and the sensor that holds it: the highest of sensors 0–27 (R582). -/
def composite (s : State) : Option (Nat × BitVec 8) :=
  (List.range 28).foldl (fun m k =>
    let x := sensorOf s k
    if x.valid then
      match m with
      | none => some (k, x.temp)
      | some (_, t) => if degC t < degC x.temp then some (k, x.temp) else m
    else m) none

/-- More than half the sensors of one die are faulty (R581). -/
def dieSensorsFaulty (s : State) : Bool :=
  let bad := fun (lo n : Nat) => decide (n < 2 * ((List.range n).filter (fun k => (sensorOf s (lo + k)).faulty)).length)
  bad 0 16 || bad 16 4 || bad 20 4 || bad 24 4

/-- PIER_TEMP of die d (R415). -/
def pierTemp (s : State) (d : Nat) : PTemp := mget {} (chan s (d / 16)).temps (d % 16)

/-- The flash dies' temperature readings, with the die's number. -/
def flashTemps (s : State) : List (Nat × PTemp) :=
  (s.piers.chans.map (fun e => e.2.temps.map (fun t => (e.1 * 16 + t.1, t.2)))).flatten

/-- Some flash die's valid reading is at or above `t` °C. -/
def flashAtLeast (s : State) (t : Int) : Bool :=
  (flashTemps s).any (fun e => e.2.valid && decide (t ≤ degC e.2.temp))

/-- The cause that begins throttling and its temperature (R583, R592); none while the condition does not hold. -/
def throttleCause (s : State) : Option (Nat × BitVec 8) :=
  let comp := (composite s).filter (fun e => decide (degC s.thm.cfgThrot ≤ degC e.2))
  let flash := (flashTemps s).find? (fun e => e.2.valid && decide (degC s.thm.cfgFlash ≤ degC e.2.temp))
  let dram := s.drcs.find? (fun e => e.2.trange = 1 || e.2.trange = 2)
  match comp with
  | some e => some (1, e.2)
  | none => match flash with
    | some e => some (2, e.2.temp)
    | none => match dram with
      | some e => some (3, e.2.temp)
      | none =>
        if dieSensorsFaulty s then some (4, s.thm.comp)
        else match (flashTemps s).find? (fun e => decide (8192 < e.2.age.toNat)) with
          | some e => some (5, e.2.temp)
          | none => none

/-- The throttling condition begins if a cause holds (R583): mode 7 requested, THERM_N low, THM_IRQ.THROT, event. -/
def throttleBegin (s : State) : State :=
  if s.thm.throt then s
  else match throttleCause s with
    | none => s
    | some (c, t) =>
      let s := modThm (fun u => { u with throt := true, irq := setBit u.irq 0, hanks := 0, cool := 0 })
          (modReel (fun u => { u with condThermal := true }) s)
      deviceRequest 7 false (event 0x0301 [w32 c, t.signExtend 32] s)

/-- All release conditions of R583 hold now. -/
def coolNow (s : State) : Bool :=
  (match composite s with | some e => decide (degC e.2 < degC s.thm.cfgThrot - 5) | none => true) &&
  !(flashAtLeast s (degC s.thm.cfgFlash - 5)) && !(s.drcs.any (fun e => e.2.trange ≠ 0)) &&
  !(dieSensorsFaulty s) && !((flashTemps s).any (fun e => decide (8192 < e.2.age.toNat)))

/-- THM_STAT.COMP, HOT, CRIT and WARN follow the composite temperature (R582, R585). -/
def compositeUpdate (s : State) : State :=
  match composite s with
  | none => s
  | some (k, t) =>
    let crit := decide (105 ≤ degC t)
    let warn := decide (110 ≤ degC t)
    let newCrit := crit && !s.thm.crit
    let newWarn := warn && !s.thm.warn
    let irq := if newCrit then setBit s.thm.irq 1 else s.thm.irq
    let irq := if newWarn then setBit irq 5 else irq
    let s := modThm (fun u => { u with comp := t, hot := BitVec.ofNat 8 k, crit := crit, warn := warn, irq := irq }) s
    let s := if newCrit then raiseFault 22 3 (eventC 0x0303 3 [w32 k, t.signExtend 32] s) else s
    if newWarn then event 0x0306 [w32 k, t.signExtend 32] s else s

/-- One sample of sensor n (R580, R581). -/
def sensorSample (n : Nat) (r : BitVec 8) (s : State) : State :=
  let x := sensorOf s n
  let bad := if disagrees s n r then x.disagree + 1 else 0
  let faulty := x.faulty || decide (3 ≤ bad)
  let top := (maxTemp (neighbourReadings s n)).getD r
  let fast := decide (85 ≤ degC r) || (x.valid && decide (degC x.raw + 2 ≤ degC r))
  let y : Sensor := { valid := true, faulty := faulty, fast := fast, temp := if faulty then top else r, raw := r,
                      disagree := bad }
  let s := modThm (fun u => { u with sens := mset {} n y u.sens }) s
  let s := if faulty && !x.faulty then
      let s := modThm (fun u => { u with irq := setBit u.irq 2 }) s
      raiseFault 22 2 (eventC 0x0304 2 [w32 n, r.signExtend 32, top.signExtend 32] s)
    else s
  throttleBegin (compositeUpdate s)

/-- SENSOR_SAMPLE (R580–R585). Sensors 20–23 are absent on the IH964-B and read VALID 0 (R579). DESIGN CHOICE, log entry 127. -/
def execSensorSample (n : BitVec 5) (r : BitVec 8) (s : State) : Out :=
  if 28 < n.toNat then .fault .noSuchUnit
  else if s.varB && decide (20 ≤ n.toNat ∧ n.toNat ≤ 23) then .next s
  else .next (sensorSample n.toNat r s)

/-- THROTTLING_END (R583): after 64 hanks of every release condition. -/
def execThrottlingEnd (s : State) : Out :=
  if s.thm.throt && decide (64 ≤ s.thm.cool) && (throttleCause s).isNone then
    let h := if s.thm.hanks < 2 ^ 32 then w32 s.thm.hanks else 0xFFFFFFFF
    let s := modThm (fun u => { u with throt := false, irq := setBit u.irq 0 }) (modReel (fun u => { u with condThermal := false }) s)
    .next (leaveMode 7 (event 0x0302 [h] s))
  else .next s

/-- TEMPERATURE_AGE_EXPIRY (R583, R591): a die's reading is older than 8,192 hanks. -/
def execTemperatureAgeExpiry (d : BitVec 11) (s : State) : Out :=
  if 8192 < (pierTemp s d.toNat).age.toNat then
    .next (throttleBegin (modThm (fun u => { u with irq := setBit u.irq 4 }) s))
  else .next s

/-- A flash die's temperature arrives (R404, R415, R583, R591): PIER_TEMP, THM_FLASH, FLASH_HI and throttling. -/
def flashReading (d : Nat) (t : BitVec 8) (s : State) : State :=
  let s := modChan (d / 16) (fun c => { c with temps := mset {} (d % 16) { valid := true, age := 0, temp := t } c.temps }) s
  let hot := (flashTemps s).foldl (fun (m : Option (Nat × BitVec 8)) e =>
    if e.2.valid then
      match m with
      | none => some (e.1, e.2.temp)
      | some (_, u) => if degC u < degC e.2.temp then some (e.1, e.2.temp) else m
    else m) none
  let (hd, ht) := hot.getD (d, t)
  let s := modThm (fun u => { u with flashDie := BitVec.ofNat 11 hd, flashTemp := ht }) s
  let s := if degC s.thm.cfgFlash ≤ degC t then
      let s := modThm (fun u => { u with irq := setBit u.irq 3 }) s
      if mget false s.thm.reported d then s
      else event 0x0305 [w32 d, t.signExtend 32] (modThm (fun u => { u with reported := mset false d true u.reported }) s)
    else s
  throttleBegin s

end Sys2Proof.Machine
end

