-- ==== Sys2Proof/Machine/Drc.lean ====
section
/-! DEFINITION. The DRAM controllers: repair windows, refresh and retraining, control-port requests and their urgency,
write-backs and the merge buffer (R464–R488). -/

namespace Sys2Proof.Machine

/-! ## Repair (R470–R476) -/

/-- A refresh period starts: every counting table is cleared; queued neighbour refreshes stay (R475). -/
def refreshStart (n : Nat) (s : State) : State :=
  modDrc n (fun d => { d with banks := mmapv {} (fun (b : Bank) => { b with rows := [] }) d.banks }) s

/-- The work of one per-turn window: the next 6 rows, and at most one neighbour refresh on every bank (R470, R476). A new
period starts when the sequence comes round (R471). -/
def repairTurn (n : Nat) (s : State) : State :=
  let r := (drcOf s n).row + 6
  let s := modDrc n (fun d => { d with
    row := r % 12288, banks := mmapv {} (fun (b : Bank) => { b with queue := b.queue.drop 1 }) d.banks }) s
  if 12288 ≤ r then refreshStart n s else s

/-- TRANGE of a stack temperature (R497). -/
def trangeOf (t : BitVec 8) : BitVec 2 := if 105 < degC t then 2 else if 85 < degC t then 1 else 0

/-- A stack's temperature is read (R471, R472): a changed range sets DRC_IRQ.TRANGE and records event 0x0504, and range 2
is a Severe fault; a range above 0 is a throttling cause (R583). -/
def stackTemp (n : Nat) (t : BitVec 8) (s : State) : State :=
  let old := (drcOf s n).trange
  let new := trangeOf t
  let s := modDrc n (fun d => { d with temp := t, trange := new }) s
  let s := if old = new then s
    else
      let cls := if new = 2 then 3 else 0
      let s := modDrc n (fun d => { d with irq := setBit d.irq 4 }) s
      let s := eventC 0x0504 cls [w32 n, old.setWidth 32, new.setWidth 32, t.setWidth 32] s
      if new = 2 then raiseFault 18 3 s else s
  throttleBegin s

/-- A stack is lost (R472, R494): STATE 3, event 0x0507, a Grave fault. -/
def stackLost (n : Nat) (w : BitVec 8) (s : State) : State :=
  let s := modDrc n (fun d => { d with state := 3, margin := w }) s
  let s := modSys (fun u => { u with dramUp := clrBit u.dramUp n }) s
  raiseFault 16 4 (eventC 0x0507 4 [w32 n, w.setWidth 32] s)

/-- A retraining that finds a narrowest window of `w` (0: none) at a temperature (R472). -/
def retrain (n : Nat) (w t : BitVec 8) (s : State) : State :=
  if w = 0 then stackLost n 0 s
  else
    let s := stackTemp n t (modDrc n (fun d => { d with margin := w }) s)
    if w < 16 then
      raiseFault 16 1 (eventC 0x0503 1 [w32 n, w.setWidth 32] (modDrc n (fun d => { d with irq := setBit d.irq 3 }) s))
    else s

/-- A controller works: trained and not lost. -/
def drcRuns (s : State) (n : Nat) : Bool := (drcOf s n).state = 2

/-- REFRESH_PERIOD_START (R471, R475). -/
def execRefreshPeriodStart (n : BitVec 2) (s : State) : Out :=
  if drcRuns s n.toNat then .next (refreshStart n.toNat (modDrc n.toNat (fun d => { d with row := 0 }) s)) else .next s

/-- SELF_TIMED_REPAIR (R474): while the sequencer does not run, the work of a per-turn window, or a retraining that finds
the narrowest window and the temperature given. -/
def execSelfTimedRepair (n : BitVec 2) (training : Bool) (window temp : BitVec 8) (s : State) : Out :=
  if s.reel.run || !drcRuns s n.toNat then .next s
  else if training then .next (retrain n.toNat window temp s)
  else .next (repairTurn n.toNat s)

/-! ## The merge buffer (R484–R486) -/

/-- The bytes of a unit an access covers, as a mask. -/
def byteMask (a n u : Nat) : BitVec 32 :=
  (List.range 32).foldl (fun m k => if a ≤ 32 * u + k ∧ 32 * u + k < a + n then setBit m k else m) 0

/-- Put an access's bytes over a unit's 32. -/
def overlay (a : Nat) (bs : List (BitVec 8)) (u : Nat) (old : List (BitVec 8)) : List (BitVec 8) :=
  (List.range 32).map (fun k =>
    if a ≤ 32 * u + k ∧ 32 * u + k < a + bs.length then bs.getD (32 * u + k - a) 0 else old.getD k 0)

/-- Take a narrow write of one unit into the buffer: it merges into that unit's entry, or opens one (R484). -/
def mergeIn (n a : Nat) (bs : List (BitVec 8)) (u : Nat) (s : State) : State :=
  modDrc n (fun d =>
    let d := { d with merged := satInc d.merged }
    if d.merge.any (fun e => e.unit = u) then
      { d with merge := d.merge.map (fun e => if e.unit = u then
          { e with mask := e.mask ||| byteMask a bs.length u, bytes := overlay a bs u e.bytes } else e) }
    else { d with merge := d.merge ++ [{ unit := u, mask := byteMask a bs.length u, bytes := overlay a bs u (leBytes 32 0) }] }) s

/-- A later write of the control port takes its bytes out of an open merge entry. -/
def mergeCut (a n : Nat) (s : State) : State :=
  match placeOf s a with
  | .dram k => modDrc k (fun d => { d with merge :=
      (d.merge.map (fun e => { e with mask := e.mask &&& ~~~ (byteMask a n e.unit) })).filter (fun e => e.mask ≠ 0) }) s
  | _ => s

/-- The buffer takes a narrow write to a unit: an open entry of the unit, or room for another (R484, R485). `left` is the
cycles left in the slot. -/
def mergeRoom (s : State) (n u left : Nat) : Bool :=
  let m := (drcOf s n).merge
  m.any (fun e => e.unit = u) || (decide (m.length < 16) && decide (192 * (m.length + 1) ≤ left))

/-- The bytes of a unit that an entry's mask covers land in memory, as runs of single bytes; their writes ended the reservations on them when they
were made (R150). -/
def writeMasked (e : MergeEnt) (s : State) : State :=
  let put := fun (a : Nat) (bs : List (BitVec 8)) (s : State) => underDirty a bs (landBytes a bs s)
  if e.mask = BitVec.allOnes 32 then put (32 * e.unit) e.bytes s
  else (List.range 32).foldl (fun s k => if bit e.mask k then put (32 * e.unit + k) [e.bytes.getD k 0] s else s) s

/-- The cycles left in a control-port slot of a stack held now; none where no such slot is held. While the sequencer does
not run, the control port is served at all other times than repair (R474). -/
def controlSlot (s : State) (n : Nat) : Option Nat :=
  if !s.reel.run then some hankCycles
  else
    (s.reel.grants.filterMap (fun g =>
      if g.slot.kind = 4 && slotRes g.slot g.i g.o = 16 * n + 8 && g.slot.owner = 0x102 then some (g.since + g.slot.len - s.reel.core)
      else none)).head?

/-- What a control-port write replaces may still be read by a data port until 128 cycles after its slot ends, `left` cycles from now (R486). -/
def keepOld (n u left : Nat) (s : State) : State :=
  let old : FreshUnit := { addr := 32 * u, old := BitVec.ofNat 256 (leNat (memBytes s (32 * u) 32)), port := 16 * n + 8
                           until_ := some (s.reel.core + left + 128) }
  if s.reel.run then modDrc n (fun d => { d with fresh := d.fresh ++ [old] }) s else s

/-- Drain an entry (R484, R486): a plain write when all 32 bytes are valid; else a read, merge and write, which a unit
found uncorrectable or poisoned leaves poisoned. -/
def drainEntry (n : Nat) (e : MergeEnt) (ecc : Ecc) (s : State) : State :=
  let s := modDrc n (fun d => { d with merge := d.merge.filter (fun x => decide (x ≠ e)) }) s
  let s := activateSpan (32 * e.unit) 32 (keepOld n e.unit ((controlSlot s n).getD 0) s)
  if e.mask = BitVec.allOnes 32 then writeMasked e s
  else
    let s := modDrc n (fun d => { d with rmw := satInc d.rmw }) s
    let s := eccRead (32 * e.unit) ecc 0x10 s
    writeMasked e (mergeNotice (32 * e.unit) 1 s)

/-! ## Control-port requests (R467–R469) -/

/-- The latency target of a requester code (R467, R504). -/
def latTarget (d : Drc) (code : BitVec 3) : Nat :=
  (if code = 0 then d.lt0 else if code = 1 then d.lt1 else if code = 2 then d.lt2 else if code = 3 then d.lt3 else d.lt4).toNat

/-- Urgency of an age against a target (R468). -/
def urgency (a l : Nat) : Nat := if 2 * a < l then 0 else if 4 * a < 3 * l then 1 else if a < l then 2 else 3

/-- A request may be served: the first of its requester (R468). -/
def firstOf (q : List CpReq) (r : CpReq) : Bool :=
  (q.find? (fun x => x.code = r.code && x.who = r.who)) = some r

/-- The request served next of those that `ok` admits: the highest urgency, and the oldest of those (R468). The queue is oldest first. -/
def nextReq (ok : CpReq → Bool) (d : Drc) : Option CpReq :=
  ((d.queue.filter (firstOf d.queue)).filter ok).foldl (fun (m : Option CpReq) r => match m with
    | none => some r
    | some x => if urgency x.age (latTarget d x.code) < urgency r.age (latTarget d r.code) then some r else some x) none

/-- MERGE_DRAIN (R484): the oldest open entry of a stack's buffer drains, in its control-port slot. -/
def execMergeDrain (n : BitVec 2) (ecc : Ecc) (s : State) : Out :=
  match (drcOf s n.toNat).merge with
  | [] => .next s
  | e :: _ => if controlSlot s n.toNat = none then .next s else .next (drainEntry n.toNat e ecc s)

/-- A control-port slot ends: every entry still open has drained (R484). DESIGN CHOICE, log entry 138. -/
def drainAll (n : Nat) (s : State) : State := (drcOf s n).merge.foldl (fun s e => drainEntry n e .ok s) s

/-- What the check of a request's units finds, as an ECC outcome. -/
def reqEcc (r : CpReq) : Ecc := if r.ecc = 1 then .corrected else if r.ecc = 2 then .uncorrectable else .ok

/-- A write of one unit's part of a request: whole units at once, over what an open entry holds of them, narrow ones through the
merge buffer. -/
def writeUnit (n a : Nat) (bs : List (BitVec 8)) (writer : Option Nat) (s : State) (u : Nat) : State :=
  if wholeUnit a bs.length u then
    activateSpan (32 * u) 32 (writeMem writer (32 * u) ((bs.drop (32 * u - a)).take 32) (mergeCut (32 * u) 32 s))
  else mergeIn n a bs u s

/-- The core that makes a request. -/
def reqCore (r : CpReq) : Option Nat := if r.code = 0 then some r.who else none

/-- A write request reaches memory: the other cores' caches give up its lines (R148), and their reservations on it end (R150), a narrow part's too,
which the merge buffer holds from now on (R486). -/
def writeReq (n : Nat) (r : CpReq) (bs : List (BitVec 8)) (s : State) : State :=
  let s := dropResv r.addr bs.length (reqCore r) (cleanLines r.addr bs.length (reqCore r) s)
  (unitsOf r.addr bs.length).foldl (writeUnit n r.addr bs (reqCore r)) s

/-- The units of a request. -/
def reqUnits (r : CpReq) : Nat := (unitsOf r.addr (match r.wr with | none => r.len | some bs => bs.length)).length

/-- A request can be served in the cycles left of the slot, one unit in each (R468, R469), and its narrow units find room in the buffer. -/
def reqFits (s : State) (n : Nat) (left : Nat) (r : CpReq) : Bool :=
  decide (reqUnits r ≤ left) && match r.wr with
  | none => true
  | some bs => (unitsOf r.addr bs.length).all (fun u => wholeUnit r.addr bs.length u || mergeRoom s n u left)

/-- Serve a request: a served age of its target or more is late (R469); reads are checked, writes land or merge. -/
def serveReq (n : Nat) (r : CpReq) (s : State) : State :=
  let late := latTarget (drcOf s n) r.code ≤ r.age
  let s := modDrc n (fun d => { d with queue := d.queue.erase r }) s
  let s := if late then modDrc n (fun d => { d with late := satInc d.late, lateReq := r.code, irq := setBit d.irq 2 }) s else s
  match r.wr with
  | none => (unitsOf r.addr r.len).foldl (fun s u => activateSpan (32 * u) 32 (eccRead (32 * u) (reqEcc r) (0x10 + r.code.toNat) s)) s
  | some bs => writeReq n r bs s

/-- Serve a stack's requests in a control-port slot with `left` cycles, the most urgent first; one that does not fit waits, and what its requester
sent after it. Fuel is their number. -/
def serveAll (n : Nat) : Nat → Nat → State → State
  | 0, _, s => s
  | f + 1, left, s =>
    match nextReq (reqFits s n left) (drcOf s n) with
    | none => s
    | some r => serveAll n f (left - reqUnits r) (serveReq n r s)

/-- A control-port slot of a stack begins, or a request meets an open one. -/
def serveControl (n : Nat) (s : State) : State :=
  match controlSlot s n with
  | none => s
  | some left => if drcRuns s n then serveAll n (drcOf s n).queue.length left s else s

/-- A size of an access that DRAM takes (R32). -/
def accessSize (n : Nat) : Bool := [1, 2, 4, 8, 16, 32, 64].contains n

/-- CONTROL_PORT_REQUEST (R467–R469, R484, R485): a request of a requester (code, number) reaches the controller of stack
n; `data` is what it writes, none for a read of `len` bytes. DRAM takes aligned accesses of 1, 2, 4, 8, 16, 32 and 64 bytes only (R32). It is served
at once where a control-port slot is open. -/
def execControlPortRequest (n : BitVec 2) (code : BitVec 3) (who : BitVec 4) (off : BitVec 35) (len : BitVec 10)
    (data : Option (List (BitVec 8))) (ecc : Ecc) (s : State) : Out :=
  let bytes := match data with | some l => l.length | none => len.toNat
  if !drcRuns s n.toNat || 4 < code.toNat || !accessSize bytes || off.toNat % bytes ≠ 0 || 24 * 2 ^ 30 < off.toNat + bytes then .next s
  else
    let e := match ecc with | .ok => 0 | .corrected => 1 | .uncorrectable => 2
    let r : CpReq := { code := code, who := who.toNat, addr := 0x1000000000 + n.toNat * 0x600000000 + off.toNat,
                       len := bytes, wr := data, ecc := e }
    .next (serveControl n.toNat (modDrc n.toNat (fun d => { d with queue := d.queue ++ [r] }) s))

/-- A turn ends: every waiting request is one turn older (R468). -/
def ageRequests (s : State) : State :=
  { s with drcs := mmapv {} (fun (d : Drc) => { d with queue := d.queue.map (fun r => { r with age := r.age + 1 }) }) s.drcs }

/-- ECC_WRITE_BACK (R481, R509): the oldest queued write-back of a stack is performed in a control-port slot of the stack; a unit found uncorrectable now is
reported with word 3 = 0x20. -/
def execEccWriteBack (n : BitVec 2) (ecc : Ecc) (s : State) : Out :=
  match (drcOf s n.toNat).wback with
  | [] => .next s
  | u :: rest =>
    if controlSlot s n.toNat = none then .next s else
    let s := activateSpan (32 * u) 32 (modDrc n.toNat (fun d => { d with wback := rest }) s)
    match ecc with
    | .uncorrectable => .next (dramUncorrectable n.toNat (32 * u) 0x20 s)
    | _ => .next s

end Sys2Proof.Machine
end

