-- ==== Sys2Proof/Machine/Intc.lean ====
section
/-! DEFINITION. The interrupt controller: source lines, pending and active bits, claims, completions and hold-off
(R35, R520–R528); core start and stop (R511–R513); software watcher inputs and watchdogs (R530, R531). -/

namespace Sys2Proof.Machine

/-! ## Source lines (R35 and the chapters of the blocks) -/

/-- A record of a code waits in the recorder unread. -/
def unreadEvent (s : State) (code : BitVec 16) : Bool :=
  s.evr.queue.any (fun e => e.code = code) ||
  s.evr.recs.any (fun e => e.2.code = code &&
    decide ((BitVec.ofNat 16 e.1 - s.evr.ridx.setWidth 16).toNat < evrFill s.evr))

/-- The line of a PIER source (R35). -/
def pierLine (s : State) (k : Nat) : Bool :=
  let c := chan s (k / 2)
  if k % 2 = 0 then (c.irq >>> 8).setWidth 2 ≠ 0#2 else c.irq.setWidth 5 ≠ 0#5

/-- The line of a NET source (R268). -/
def netLine (s : State) (k : Nat) : Bool :=
  let p := portOf s (k / 4)
  if k % 4 = 0 then p.chg ≠ 0 else if k % 4 = 1 then p.unc64 ≠ 0 else if k % 4 = 2 then p.drop ≠ 0 else p.txtsWait

/-- The line of an XPT source (R273). The table gives 292 no end: it falls once every event 0x0810 has been read, as 288 does. DESIGN CHOICE, log entry
181. -/
def xptLine (s : State) (k : Nat) : Bool :=
  if k = 0 then unreadEvent s 0x0811
  else if k = 1 then decide (s.xpt.tlsWait ≠ 0)
  else if k = 2 then decide (s.xpt.qp1 ≠ 0)
  else if k = 3 then decide (s.xpt.ptp ≠ 0)
  else k = 4 && unreadEvent s 0x0810

/-- The line of a DRC source (R503): UNCORR, CAND, LATE, MARGIN, TRANGE. -/
def drcLine (s : State) (n k : Nat) : Bool :=
  let q := (drcOf s n).irq
  if k = 0 then bit q 1 else if k = 1 then bit q 0 else if k = 2 then bit q 2 else if k = 3 then bit q 3
  else k = 4 && bit q 4

/-- The line of a CIPH or VCT source (R460). -/
def ciphLine (s : State) (k : Nat) : Bool :=
  if k = 768 then s.ciph.ended
  else if k = 769 then unreadEvent s 0x0A02
  else if k = 770 then s.ciph.limRef
  else if k = 771 then s.ciph.cmp0 ≠ 0 || s.ciph.cmp1 ≠ 0
  else if k = 772 then s.ciph.slots.any (fun e => e.2.failed)
  else if k = 773 then s.ciph.rngBad
  else if k = 800 then s.vct.ended
  else k = 801 && s.vct.bound

/-- The line of a span source (R611). -/
def spanLine (s : State) (k : Nat) : Bool :=
  if k = 0 then s.span.chState else if k = 1 then s.span.chAgree else if k = 2 then s.span.chLock
  else if k = 3 then s.span.syncf else if k = 4 then s.span.chDir else k = 5 && decide (s.span.msgWait ≠ 0)

/-- The line of a BAC source (R548). -/
def bacLineOf (s : State) (k : Nat) : Bool :=
  if k = 0 then s.bac.done && s.bac.result = 0 else if k = 1 then s.bac.done && s.bac.result ≠ 0
  else if k = 2 then s.bac.uncorr ≠ 0 else k = 3 && s.bac.busyw

/-- The line of a recorder source (R576). -/
def evrLine (s : State) (k : Nat) : Bool :=
  if k = 0 then decide (s.evr.thr.toNat ≤ evrFill s.evr) else if k = 1 then s.evr.stop
  else k = 2 && decide (evrFill s.evr ≠ 0)

/-- A low-numbered source: SYS, CLK, MGMT, PWR and THM (R35, R506, R530, R591, R640, R641). -/
def sysLine (s : State) (k : Nat) : Bool :=
  if k = 5 then s.watch.stat &&& s.watch.en ≠ 0
  else if k = 6 then s.sys.sramUnc ≠ 0
  else if k = 8 then s.clk.netBad ≠ 0 && decide (3 < s.sys.stage.toNat)
  else if k = 12 then s.mgmt.rxIrq else if k = 13 then s.mgmt.txIrq else if k = 14 then s.mgmt.linkIrq
  else if k = 15 then s.mgmt.ptpIrq
  else if 16 ≤ k ∧ k ≤ 20 then bit s.pwr.irq (k - 16)
  else if 24 ≤ k ∧ k ≤ 29 then bit s.thm.irq (k - 24)
  else false

/-- The line of source k as its block drives it now. Pulse sources and sources 896–1023 have none (R521, R533). -/
def lineLevel (s : State) (k : Nat) : Bool :=
  if k < 32 then sysLine s k
  else if k < 96 then (groupOf s (k - 32)).cls ≠ 0
  else if k < 128 then k % 2 = 1 && (dmaOf s ((k - 96) / 2)).state = 3
  else if k < 256 then k % 2 = 1 && (spn s ((k - 128) / 2)).state = 3
  else if k < 288 then netLine s (k - 256)
  else if k < 320 then xptLine s (k - 288)
  else if k < 384 then (taskOf s (k - 320)).done
  else if k < 640 then pierLine s (k - 384)
  else if k < 704 then drcLine s ((k - 640) / 16) ((k - 640) % 16)
  else if k < 736 then bit s.memp.vpend (k - 704)
  else if k < 768 then false
  else if k < 832 then ciphLine s k
  else if k < 864 then spanLine s (k - 832)
  else if k < 880 then bacLineOf s (k - 864)
  else if k < 896 then evrLine s (k - 880)
  else false

/-- A source of a resource the variant lacks (R6): spindles 32–63, ports 4–7, channels 064–127, DRAM2 and DRAM3. -/
def srcAbsent (s : State) (k : Nat) : Bool :=
  s.varB && ((decide (192 ≤ k ∧ k ≤ 255)) || decide (272 ≤ k ∧ k ≤ 287) || decide (512 ≤ k ∧ k ≤ 639) ||
    decide (672 ≤ k ∧ k ≤ 703))

/-- A pulse source (R124, R533). DEDUCED, log entry 159. -/
def isPulse (k : Nat) : Bool := decide (96 ≤ k ∧ k < 256) && k % 2 = 0

/-- A source's EDGE as it reads (R520). -/
def isEdge (s : State) (k : Nat) : Bool := isPulse k || decide (896 ≤ k) || (srcOf s k).edge

/-! ## Pending bits (R521) -/

/-- Set PEND of a source by a pulse. -/
def pulse (k : Nat) (s : State) : State := if srcAbsent s k then s else modSrc k (fun x => { x with pend := true }) s

/-- Sample a source's line (R521, R523). -/
def sampleLine (k : Nat) (s : State) : State :=
  let lvl := lineLevel s k && !srcAbsent s k
  let e := isEdge s k
  modSrc k (fun x =>
    let pend := if e then x.pend || (lvl && !x.line) else if x.active then x.pend else lvl || x.forced
    { x with line := lvl, pend := pend }) s

/-- INTERRUPT_LINE_CHANGE (R521): source k's line is sampled after a change at its block. -/
def execInterruptLineChange (k : BitVec 10) (s : State) : Out :=
  if k = 0 then .next s else .next (sampleLine k.toNat s)

/-- A write of INTC_SETP word w (R521): PEND of present sources is set; a level source's stays until claimed. -/
def setPending (w : Nat) (v : BitVec 32) (s : State) : State :=
  (List.range 32).foldl (fun s b =>
    let k := 32 * w + b
    if bit v b && k ≠ 0 && !srcAbsent s k then
      modSrc k (fun x => { x with pend := true, forced := !(isEdge s k) }) s
    else s) s

/-- SET_PENDING (R6, R521). -/
def execSetPending (w : BitVec 5) (v : BitVec 32) (s : State) : Out := .next (setPending w.toNat v s)

/-- A write of INTC_PEND word w (R521): PEND is cleared; a level source still asserted is pending again. -/
def clearPending (w : Nat) (v : BitVec 32) (s : State) : State :=
  (List.range 32).foldl (fun s b =>
    let k := 32 * w + b
    if bit v b && k ≠ 0 then
      let s := modSrc k (fun x => { x with pend := false, forced := false }) s
      if isEdge s k then s else sampleLine k s
    else s) s

/-- CLEAR_PENDING (R521). -/
def execClearPending (w : BitVec 5) (v : BitVec 32) (s : State) : Out := .next (clearPending w.toNat v s)

/-! ## Claims and completions (R522–R526) -/

/-- A hold-off group is in hold-off. -/
def inHoldOff (s : State) (g : BitVec 6) : Bool := (mget {} s.intc.hold g.toNat).timer ≠ 0

/-- A source is eligible for target t (R522). -/
def eligible (s : State) (t : Nat) (x : IntSrc) : Bool :=
  x.pend && !x.active && x.target.toNat = t && decide ((mget 0 s.intc.thr t).toNat < x.prio.toNat) &&
    (!x.gen || !inHoldOff s x.group)

/-- The controller signals core t (R522). -/
def signalled (s : State) (t : Nat) : Bool := s.intc.src.any (fun e => eligible s t e.2)

/-- A wake-enabled source is eligible for core t (R527). -/
def wakes (s : State) (t : Nat) : Bool := s.intc.src.any (fun e => e.2.wake && eligible s t e.2)

/-- The eligible source of highest priority, the lowest number among equals (R523). -/
def bestSource (s : State) (t : Nat) : Option (Nat × IntSrc) :=
  (s.intc.src.filter (fun e => eligible s t e.2)).foldl (fun (m : Option (Nat × IntSrc)) e => match m with
    | none => some e
    | some x => if x.2.prio < e.2.prio then some e else some x) none

/-- A read of INTC_CLAIM of target t (R523, R526): the source claimed, 0 for none, and the state after. -/
def claim (t : Nat) (s : State) : BitVec 32 × State :=
  match bestSource s t with
  | none => (0, s)
  | some (k, x) =>
    let s := modSrc k (fun y => { y with pend := false, forced := false, active := true, claimT := BitVec.ofNat 4 t }) s
    let g := x.group.toNat
    let h := mget {} s.intc.hold g
    let s := if x.gen && h.time ≠ 0 then
        modIntc (fun u => { u with hold := mset {} g { h with timer := h.time } u.hold }) s
      else s
    (w32 k, s)

/-- CLAIM (R523): the number claimed is the word read. -/
def execClaim (t : BitVec 4) (s : State) : Out :=
  let (v, s) := claim t.toNat s
  .next { s with bus := { data := v } }

/-- What the resident OS has taken when it completes the source that reports it (sources 12–15, 289–291, 837). DEDUCED, log entry 80. -/
def osTakes (k : Nat) (s : State) : State :=
  if k = 12 then modMgmt (fun u => { u with rxIrq := false }) s
  else if k = 13 then modMgmt (fun u => { u with txIrq := false }) s
  else if k = 14 then modMgmt (fun u => { u with linkIrq := false }) s
  else if k = 15 then modMgmt (fun u => { u with ptpIrq := false }) s
  else if k = 289 then modXpt (fun u => { u with tlsWait := 0, conns := mmapv {} (fun c => { c with osWait := 0 }) u.conns }) s
  else if k = 290 then modXpt (fun u => { u with qp1 := 0 }) s
  else if k = 291 then modXpt (fun u => { u with ptp := 0 }) s
  else if k = 837 then modSpan (fun u => { u with msgWait := 0 }) s
  else s

/-- A write of source k to INTC_DONE of target t (R523, R524): ACTIVE clears, a held EDGE change takes effect, and a level
source is sampled at once. DEDUCED, log entry 80. -/
def completeSrc (t k : Nat) (s : State) : State :=
  let x := srcOf s k
  if !x.active || x.claimT.toNat ≠ t then s
  else
    let s := osTakes k s
    let s := modSrc k (fun y => { y with active := false, edge := y.edgeReq.getD y.edge, edgeReq := none }) s
    if isEdge s k then s else sampleLine k s

/-- INTERRUPT_COMPLETE (R523). -/
def execInterruptComplete (t : BitVec 4) (k : BitVec 10) (s : State) : Out := .next (completeSrc t.toNat k.toNat s)

/-- HOLD_OFF_END (R526): a group's timer reaches 0. -/
def execHoldOffEnd (g : BitVec 6) (s : State) : Out :=
  .next (modIntc (fun u => { u with hold := mmod {} g.toNat (fun h => { h with timer := 0 }) u.hold }) s)

/-- A write of INTC_SRC of source k (R520, R524). -/
def writeSrc (k : Nat) (v : BitVec 32) (s : State) : State :=
  if k = 0 then s
  else
    let e := bit v 22
    let fixed := isPulse k || decide (896 ≤ k)
    let x := srcOf s k
    let s := modSrc k (fun y => { y with wake := bit v 23, group := (v >>> 16).setWidth 6, gen := bit v 15,
                                         target := (v >>> 8).setWidth 4, prio := v.setWidth 4 }) s
    if fixed || e = x.edge then modSrc k (fun y => { y with edgeReq := none }) s
    else if x.active then modSrc k (fun y => { y with edgeReq := some e }) s
    else
      let lvl := lineLevel s k && !srcAbsent s k
      modSrc k (fun y => { y with edge := e, line := lvl, pend := if e then y.pend else lvl || y.forced }) s

/-- INTC_SRC of source k as it reads (R520). -/
def readSrc (s : State) (k : Nat) : BitVec 32 :=
  if k = 0 then 0
  else
    let x := srcOf s k
    bfld x.pend 31 ||| bfld x.active 30 ||| bfld x.wake 23 ||| bfld (isEdge s k) 22 ||| fld x.group 16 |||
      bfld x.gen 15 ||| fld x.target 8 ||| x.prio.setWidth 32

/-! ## Starting and stopping a core (R511–R513) -/

/-- The state a core starts in at an address (R511). DESIGN CHOICE, log entry 140. -/
def startedCore (a : BitVec 64) : CoreSt :=
  { running := true, priv := true, a0 := a, a1 := a + 16, a2 := a + 32 }

/-- Start a stopped core at SYS_CORE_ENTRY (R512). DESIGN CHOICE, log entry 14. -/
def runCore (n : Nat) (s : State) : State :=
  modCore n (fun x => if x.running then x else { startedCore (s.sys.coreEntry.setWidth 64) with dtrap := x.dtrap }) s

/-- A write of WATCH_WDP n (R530, R531): the period, counted from the write. -/
def writeWdp (n : Nat) (v : BitVec 16) (s : State) : State :=
  modWatch (fun u => { u with wdp := mset 0 n v u.wdp, kicked := mset 0 n s.now u.kicked }) s

/-- The watchdog the standard resident firmware gives a core it starts (R671): 1,000 ms, enabled and escalated. -/
def firmwareWatch (n : Nat) (s : State) : State :=
  let s := writeWdp n 1000 s
  (modWatch (fun u => { u with en := setBit u.en n, esc := setBit u.esc n }) s)

/-- CORE_RUN (R512, R671): the standard resident firmware starts a stopped core, its watchdog set before. -/
def execCoreRun (n : BitVec 4) (s : State) : Out :=
  if (coreOf s n.toNat).running then .next s else .next (runCore n.toNat (firmwareWatch n.toNat s))

/-- Stop a running core between bundles (R512, R513): its reservation is cleared; event 0x0140. DESIGN CHOICE, log entry 14. -/
def stopCore (n : Nat) (s : State) : State :=
  let x := coreOf s n
  if !x.running then s
  else
    event 0x0140 [w32 n, 1, lo32 x.tpc0, lo32 x.tcause]
      (modCore n (fun x => { x with running := false, sleeping := false, resv := none, waits := [] }) s)

/-- CORE_STOP (R512, R513, R671): the standard resident firmware stops a core, its watchdog's period 0 before. -/
def execCoreStop (n : BitVec 4) (s : State) : Out :=
  if (coreOf s n.toNat).running then .next (stopCore n.toNat (writeWdp n.toNat 0 s)) else .next s

/-! ## Software watcher inputs and watchdogs (R530, R531) -/

/-- A write of WATCH_SW (R530): each bit of 31:28 asserts its input once. -/
def watchSw (v : BitVec 4) (s : State) : State :=
  (List.range 4).foldl (fun s k => if bit v k then watchPulse (28 + k) s else s) s

/-- WATCHER_SOFTWARE_INPUT (R530). -/
def execWatcherSoftwareInput (v : BitVec 4) (s : State) : Out := .next (watchSw v s)

/-- A kick of watchdog n, or a write of its period, restarts it (R530, R531). -/
def watchKick (n : Nat) (s : State) : State :=
  modWatch (fun u => { u with kicked := mset 0 n s.now u.kicked }) s

/-- WATCHDOG_KICK (R530, R531). -/
def execWatchdogKick (n : BitVec 4) (s : State) : Out := .next (watchKick n.toNat s)

/-- The time that watchdog n's period ends at, its period being in ms (R531). -/
def watchDue (s : State) (n : Nat) : BitVec 64 := mget 0 s.watch.kicked n + (mget 0 s.watch.wdp n).setWidth 64 * 1000000

/-- WATCHDOG_EXPIRY (R529, R531): an enabled watchdog not kicked within its period asserts its input; the time is not before the period's end. -/
def execWatchdogExpiry (n : BitVec 4) (s : State) : Out :=
  if mget 0 s.watch.wdp n.toNat = 0 then .next s
  else .next (watchPulse n.toNat { s with now := if s.now < watchDue s n.toNat then watchDue s n.toNat else s.now })

end Sys2Proof.Machine
end

