-- ==== Sys2Proof/Machine/Bus.lean ====
section
/-! DEFINITION. Accesses of the distaff's masters to SRAM, DRAM and the boot array (R29–R32, R148, R484–R488, R542), and
the start and the end of a DMA descriptor (R532–R538). -/

namespace Sys2Proof.Machine

/-! ## Bytes as a master sees them -/

/-- A byte of the boot array, SRAM or DRAM at the control port: an open merge entry lies on top of DRAM (R486). -/
def portByte (s : State) (a : Nat) : BitVec 8 :=
  match placeOf s a with
  | .boot o => bacByte s.bac o
  | .dram n =>
    match (drcOf s n).merge.find? (fun e => e.unit = a / 32) with
    | some e => if bit e.mask (a % 32) then e.bytes.getD (a % 32) 0 else memByte s a
    | none => memByte s a
  | _ => memByte s a

/-- Bytes in address order as a master sees them. -/
def portBytes (s : State) (a n : Nat) : List (BitVec 8) := (List.range n).map (fun k => portByte s (a + k))

/-- A master writes bytes of SRAM or DRAM (R148, R486, R488). -/
def busWrite (writer : Option Nat) (a : Nat) (bs : List (BitVec 8)) (s : State) : State :=
  let n := bs.length
  writeMem writer a bs (cleanLines a n writer (mergeCut a n (mergeNotice a n s)))

/-- A master reads a unit's bytes that ECC may find wrong: what the read delivers is poisoned where this is true. Stored
poison is counted (R483), an uncorrectable code word of the boot array reported (R539). -/
def readPoison (a n : Nat) (s : State) : Bool × State :=
  match placeOf s a with
  | .boot o => if bootBad s o n then (true, bootUncorrectable o s) else (false, s)
  | _ => (poisoned s a n, if poisoned s a n then eccRead a .ok 0x10 s else s)

/-! ## DMA: what an access meets (R536) -/

/-- What a DMA access within one unit meets first: 1 bus, 2 protection; none when it may go on (R515, R536). -/
def dmaBar (s : State) (n : BitVec 4) (a len : Nat) (k : Need) (fixed : Bool) : Option (BitVec 4) :=
  let prot : Option (BitVec 4) := if protAllows s (.dma n) a len k then none else some 2
  match placeOf s a with
  | .nowhere => some 1
  | .control => if fixed then prot else some 1
  | .boot o => if k = .write || bankBusy s o then some 1 else prot
  | _ => prot

/-- The channel halts (R536): its registers, event 0x0E01; the refusal of a protected access and the notice of a busy
bank are made as for any master. -/
def dmaHalt (n : BitVec 4) (cause : BitVec 4) (a : Nat) (k : Need) (remain : Nat) (s : State) : State :=
  let s := if cause = 2 then protRefuse (.dma n) a k s else s
  let s := match placeOf s a with
    | .boot o => if cause = 1 && k ≠ .write && bankBusy s o then busyNotice (.dma n) a s else s
    | _ => s
  let dir := k = .write
  let s := modDma n.toNat (fun c => { c with
    state := 3, err := true, cause := cause, dir := dir, eaddr := BitVec.ofNat 40 a, remain := w32 remain
    run := none, moved := false, cancel := false }) s
  event 0x0E01 [n.setWidth 32, fld cause 0 ||| bfld dir 8, w32 a, w32 (a % 2 ^ 40 / 2 ^ 32), w32 remain] s

/-! ## DMA: descriptors (R532, R535) -/

/-- Control bits of a descriptor: END 0, IRQ 1, FILL 2, SFIX 3, DFIX 4. -/
def dmaFlag (d : DmaDesc) (k : Nat) : Bool := bit d.ctl k

/-- A fixed side is 4-byte aligned, with a length that is a multiple of 4. -/
def dmaFixedOk (a : BitVec 64) (d : DmaDesc) : Bool := a.toNat % 4 = 0 && d.len.toNat % 4 = 0

/-- The fields of a descriptor meet R532. DEDUCED, log entry 88. -/
def dmaDescOk (d : DmaDesc) : Bool :=
  d.len ≠ 0 && d.rest && (d.ctl >>> 5) = 0 && !(dmaFlag d 2 && dmaFlag d 3) && (!dmaFlag d 3 || dmaFixedOk d.src d) &&
    (!dmaFlag d 4 || dmaFixedOk d.dst d)

/-- A descriptor address that can be used: 64-byte aligned, in SRAM or DRAM (R532). -/
def dmaDescAt (s : State) (a : Nat) : Bool :=
  a % 64 = 0 && (match placeOf s a with | .sram => true | .dram _ => true | _ => false)

/-- The descriptor in memory at an address. -/
def readDesc (s : State) (a : Nat) : DmaDesc :=
  let v := fun (o n : Nat) => leNat (portBytes s (a + o) n)
  { addr := BitVec.ofNat 40 a, src := BitVec.ofNat 64 (v 0 8), dst := BitVec.ofNat 64 (v 8 8), len := w32 (v 16 4),
    ctl := w32 (v 20 4), next := BitVec.ofNat 64 (v 24 8), rest := decide (v 36 28 = 0) }

/-- Take a descriptor whose fields stand: its data is to move, or it breaks R532 (cause 4). -/
def dmaTake (n : BitVec 4) (d : DmaDesc) (s : State) : State :=
  if dmaDescOk d then modDma n.toNat (fun c => { c with run := some d, moved := false }) s
  else dmaHalt n 4 d.addr.toNat .read d.len.toNat s

/-- Read the descriptor at an address whole (R535, R536). DEDUCED, log entry 88. -/
def dmaFetch (n : BitVec 4) (a : Nat) (s : State) : State :=
  if !dmaDescAt s a then dmaHalt n 4 a .read 0 s
  else if !protAllows s (.dma n) a 64 .read then dmaHalt n 2 a .read 0 s
  else if poisoned s a 64 then dmaHalt n 4 a .read 0 (readPoison a 64 s).2
  else dmaTake n (readDesc s a) s

/-- GO of a channel (R535, R537, R538): ignored in STATE 1, with BUSYW, and in STATE 3. -/
def dmaGo (n : BitVec 4) (s : State) : State :=
  let c := dmaOf s n.toNat
  if c.state = 1 then modDma n.toNat (fun c => { c with busyw := true }) s
  else if c.state = 3 then s
  else
    let s := modDma n.toNat (fun c => { c with state := 1, cancel := false }) s
    if c.chained then dmaFetch n c.chain.toNat s
    else dmaTake n { src := c.src.setWidth 64, dst := c.dst.setWidth 64, len := c.len, ctl := c.flags ||| 1 } s

/-- CANCEL of a channel (R537): it stops after its current descriptor. -/
def dmaCancel (n : BitVec 4) (s : State) : State :=
  modDma n.toNat (fun c => if c.state = 1 then { c with cancel := true } else c) s

/-- Clearing ERR sets STATE to 0 (R538). -/
def dmaErrClear (n : BitVec 4) (s : State) : State :=
  modDma n.toNat (fun c => if c.err then { c with err := false, state := 0 } else c) s

/-! ## DMA: the end of a descriptor (R533, R535) -/

/-- The channel stops with STATE 2. -/
def dmaStop (n : BitVec 4) (s : State) : State :=
  modDma n.toNat (fun c => { c with state := 2, run := none, moved := false, cancel := false }) s

/-- Pulse a channel's completion source (R533). -/
def dmaPulse (n : BitVec 4) (s : State) : State := pulse (96 + 2 * n.toNat) s

/-- The second read of a descriptor's control word and Next, once END was read as 1 (R318, R535). -/
def dmaAgain (s : State) (d : DmaDesc) : DmaDesc := if dmaFlag d 0 && d.addr ≠ 0 then readDesc s d.addr.toNat else d

/-- Proceed after a descriptor (R533 step 4, R535). -/
def dmaNext (n : BitVec 4) (d : DmaDesc) (s : State) : State :=
  let c := dmaOf s n.toNat
  let e := dmaAgain s d
  if c.cancel || dmaFlag e 0 then dmaPulse n (dmaStop n s)
  else dmaFetch n e.next.toNat (if dmaFlag d 1 then dmaPulse n s else s)

/-- Count a completed descriptor. -/
def dmaCount (n : BitVec 4) (d : DmaDesc) (s : State) : State :=
  modDma n.toNat (fun c => { c with cnt := c.cnt + 1, last := if d.addr = 0 then c.last else d.addr }) s

/-- Complete the descriptor whose data has moved: its Status field, DMA_CNT, DMA_LAST, the pulse, and what follows. -/
def dmaEnd (n : BitVec 4) (d : DmaDesc) (s : State) : State :=
  if d.addr = 0 then dmaNext n d (dmaCount n d s)
  else if protAllows s (.dma n) (d.addr.toNat + 32) 4 .write then
    dmaNext n d (dmaCount n d (busWrite none (d.addr.toNat + 32) (leBytes 4 0x80000000) s))
  else dmaHalt n 2 (d.addr.toNat + 32) .write 0 s

end Sys2Proof.Machine
end

