-- ==== Sys2Proof/Machine/Modes.lean ====
section
/-! DEFINITION. Management requests for a mode, their refusal and their cancelling (R204, R211–R215). -/

namespace Sys2Proof.Machine

/-- A refused management request (R215): event 0x0606, and RESULT, which reports it from now on and no longer one that is pending. -/
def refuseMode (m : BitVec 4) (result : BitVec 8) (s : State) : State :=
  event 0x0606 [m.setWidth 32, result.setWidth 32]
    (modReel (fun u => { u with result := result, req := u.req.map (fun q => { q with latest := false }) }) s)

/-- An accepted management request replaces a pending one and waits for its commit (R212, R213). -/
def acceptMode (m : BitVec 4) (tilost : Option (Nat × BitVec 32)) (s : State) : State :=
  let s := dropRequest false s
  (modReel (fun u => { u with req := some (newRequest m false false tilost s), pend := m, result := 1 }) s)

/-- A management request binds under R214: no active or pending mode of higher rank. -/
def rankBars (s : State) (m : BitVec 4) : Bool := decide (boundRank s ≤ 4) && decide (boundRank s ≤ modeRank m)

/-- What a management request for a mode answers (R204, R211, R215): 1 accepted, 3 matrix, 4 deck, 5 rank, 7 no such mode,
8 Hold not accepted. Where several tests fail, the order of the tests is the model's. DESIGN CHOICE, log entry 162. -/
def modeVerdict (s : State) (m : BitVec 4) : BitVec 8 :=
  if 12 ≤ m.toNat then 7
  else if !permits s s.reel.deck m then 3
  else if m ≠ 0 && !hasDeck s m then 4
  else if m ≠ 0 && rankBars s m then 5
  else if m = 0 && s.reel.deck ≠ 10 && stagedBytes s ≠ 0 then 8
  else 1

/-- A management request for a mode (R211). -/
def mgmtRequest (m : BitVec 4) (tilost : Option (Nat × BitVec 32)) (s : State) : State :=
  let v := modeVerdict s m
  if v = 1 then acceptMode m tilost s else refuseMode m v s

/-- Cancel a pending management request (R213): what the conditions ask for is requested again (R218). -/
def cancelMode (s : State) : State :=
  match s.reel.req with
  | none => s
  | some q => if q.device then s else
    let s := dropRequest false s
    meetConditions (modReel (fun u => { u with result := 0 }) s)

/-- A write of REEL_MODE_REQ.MODE (R215). -/
def writeMode (m : BitVec 4) (s : State) : State :=
  let s := modReel (fun u => { u with modeReg := m }) s
  if m = 0xF then cancelMode s else mgmtRequest m none s

end Sys2Proof.Machine
end

