-- ==== Sys2Proof/Machine/Aes.lean ====
section
/-! DEFINITION. The AES-256 block function of FIPS 197 that a cipher lane computes (R436), both directions, on 16 bytes
in FIPS order. PRESUMED: the spec names the standard and does not restate it. -/

namespace Sys2Proof.Machine

/-- Multiplication by x in GF(2⁸). -/
def gfDouble (b : BitVec 8) : BitVec 8 := (b <<< 1) ^^^ (if b.getLsbD 7 then 0x1B else 0)

/-- The product in GF(2⁸) over the low `n` bits of the second factor, the first one doubled at each step. -/
def gfMulAux (a b : BitVec 8) : Nat → BitVec 8
  | 0 => 0
  | n + 1 => (if b.getLsbD (7 - n) then a else 0) ^^^ gfMulAux (gfDouble a) b n

/-- The product in GF(2⁸). -/
def gfMul (a b : BitVec 8) : BitVec 8 := gfMulAux a b 8

/-- The inverse in GF(2⁸), the 254th power; 0 for 0. -/
def gfInv (a : BitVec 8) : BitVec 8 :=
  let a2 := gfMul a a
  let a4 := gfMul a2 a2
  let a8 := gfMul a4 a4
  let a16 := gfMul a8 a8
  let a32 := gfMul a16 a16
  let a64 := gfMul a32 a32
  let a128 := gfMul a64 a64
  gfMul a2 (gfMul a4 (gfMul a8 (gfMul a16 (gfMul a32 (gfMul a64 a128)))))

/-- The substitution box. -/
def aesSub (a : BitVec 8) : BitVec 8 :=
  let i := gfInv a
  i ^^^ i.rotateLeft 1 ^^^ i.rotateLeft 2 ^^^ i.rotateLeft 3 ^^^ i.rotateLeft 4 ^^^ 0x63

/-- The inverse substitution box. -/
def aesInvSub (b : BitVec 8) : BitVec 8 :=
  gfInv (b.rotateLeft 1 ^^^ b.rotateLeft 3 ^^^ b.rotateLeft 6 ^^^ 0x05)

/-- XOR of two byte strings. -/
def xorBytes (a b : List (BitVec 8)) : List (BitVec 8) := List.zipWith (· ^^^ ·) a b

/-- One byte of a string. -/
def byteAt (a : List (BitVec 8)) (i : Nat) : BitVec 8 := a.getD i 0

/-- Rotate row r left by r places, or right for the inverse. -/
def shiftRows (inv : Bool) (a : List (BitVec 8)) : List (BitVec 8) :=
  (List.range 16).map (fun i =>
    let r := i % 4
    let c := i / 4
    byteAt a (r + 4 * ((if inv then c + 4 - r else c + r) % 4)))

/-- Multiply each column by the fixed polynomial whose coefficients are given. -/
def mixColumns (k : List (BitVec 8)) (a : List (BitVec 8)) : List (BitVec 8) :=
  (List.range 16).map (fun i =>
    let r := i % 4
    let c := 4 * (i / 4)
    (List.range 4).foldl (fun x j => x ^^^ gfMul (byteAt k ((j + 4 - r) % 4)) (byteAt a (c + j))) 0)

/-- One word of the key schedule from the word before and the word eight before. -/
def keyWord (i : Nat) (rc : BitVec 8) (prev old : List (BitVec 8)) : List (BitVec 8) :=
  let t := if i % 8 = 0 then
      xorBytes (([byteAt prev 1, byteAt prev 2, byteAt prev 3, byteAt prev 0]).map aesSub) [rc, 0, 0, 0]
    else if i % 8 = 4 then prev.map aesSub else prev
  xorBytes old t

/-- The key schedule, the words in reverse order, `n` words beyond the first eight. -/
def keySchedule (ws : List (List (BitVec 8))) (i : Nat) (rc : BitVec 8) : Nat → List (List (BitVec 8))
  | 0 => ws
  | n + 1 =>
    let w := keyWord i rc (ws.headD []) (ws.getD 7 [])
    keySchedule (w :: ws) (i + 1) (if i % 8 = 0 then gfDouble rc else rc) n

/-- The fifteen round keys of a 32-byte key. -/
def roundKeys (key : List (BitVec 8)) : List (List (BitVec 8)) :=
  let first := (List.range 8).map (fun i => (List.range 4).map (fun j => byteAt key (4 * i + j)))
  let ws := (keySchedule first.reverse 8 1 52).reverse
  (List.range 15).map (fun r => ((List.range 4).map (fun j => ws.getD (4 * r + j) [])).flatten)

/-- Rounds 1 to 13 of encryption, then the last. -/
def encRounds : List (List (BitVec 8)) → List (BitVec 8) → List (BitVec 8)
  | [], a => a
  | [k], a => xorBytes (shiftRows false (a.map aesSub)) k
  | k :: ks, a => encRounds ks (xorBytes (mixColumns [2, 3, 1, 1] (shiftRows false (a.map aesSub))) k)

/-- The rounds of decryption after the first key addition, the keys in reverse order. -/
def decRounds : List (List (BitVec 8)) → List (BitVec 8) → List (BitVec 8)
  | [], a => a
  | [k], a => xorBytes ((shiftRows true a).map aesInvSub) k
  | k :: ks, a => decRounds ks (mixColumns [14, 11, 13, 9] (xorBytes ((shiftRows true a).map aesInvSub) k))

/-- The bytes of a 128-bit half, byte 0 first (R94). -/
def halfBytes (x : BitVec 128) : List (BitVec 8) := (List.range 16).map (fun i => (x >>> (8 * i)).setWidth 8)

/-- A 128-bit half from its bytes. -/
def bytesHalf (l : List (BitVec 8)) : BitVec 128 :=
  (List.range 16).foldl (fun r i => r ||| (byteAt l i).setWidth 128 <<< (8 * i)) 0

/-- AES-256 on one block: encrypt or decrypt under a key whose byte 0 is bits 7:0. PRESUMED, log entry 31. -/
def aes256 (enc : Bool) (key : BitVec 256) (x : BitVec 128) : BitVec 128 :=
  let ks := roundKeys ((List.range 32).map (fun i => (key >>> (8 * i)).setWidth 8))
  let a := halfBytes x
  bytesHalf (if enc then
      match ks with
      | [] => a
      | k :: rest => encRounds rest (xorBytes a k)
    else
      match ks.reverse with
      | [] => a
      | k :: rest => decRounds rest (xorBytes a k))

/-- A cipher unit: two independent blocks under one key (R123). PRESUMED, log entry 31. -/
def cipherUnit (enc : Bool) (key u : BitVec 256) : BitVec 256 :=
  let h0 := aes256 enc key (u.setWidth 128)
  let h1 := aes256 enc key ((u >>> 128).setWidth 128)
  h0.setWidth 256 ||| h1.setWidth 256 <<< 128

end Sys2Proof.Machine
end

