-- ==== Sys2Proof/Machine/Protect.lean ====
section
/-! DEFINITION. What the standard keystone computes from raw AES blocks: XTS and GCM protection of stored data and TLS record protection (R440–R446),
with the checks and the count of the key slots they use (R428, R432, R437). XTS, GCM and TLS 1.3 are the standards the spec names. PRESUMED, log
entry 149. -/

namespace Sys2Proof.Machine

/-! ## Blocks and bytes -/

/-- The 16-byte blocks of a byte string, the last one filled up with zeros. Fuel is the number of blocks. -/
def toBlocks : Nat → List (BitVec 8) → List (BitVec 128)
  | 0, _ => []
  | n + 1, l => bytesHalf (l.take 16) :: toBlocks n (l.drop 16)

/-- The blocks of a byte string. -/
def blocksOf (l : List (BitVec 8)) : List (BitVec 128) := toBlocks ((l.length + 15) / 16) l

/-- The bytes of a list of blocks. -/
def blockBytes (l : List (BitVec 128)) : List (BitVec 8) := (l.map halfBytes).flatten

/-- The 32 bytes of a unit from a list of bytes. -/
def unitOf (bs : List (BitVec 8)) : BitVec 256 := BitVec.ofNat 256 (leNat bs)

/-- The units of a byte string, the last one filled up with zeros. Fuel is the number of units. -/
def toUnits : Nat → List (BitVec 8) → List (BitVec 256)
  | 0, _ => []
  | n + 1, l => unitOf (l.take 32) :: toUnits n (l.drop 32)

/-- The units of a byte string. -/
def bytesUnits (l : List (BitVec 8)) : List (BitVec 256) := toUnits ((l.length + 31) / 32) l

/-- The bytes of a list of units. -/
def unitsBytes (l : List (BitVec 256)) : List (BitVec 8) := (l.map (fun u => leBytes 32 u.toNat)).flatten

/-! ## XTS-AES-256 (R440) -/

/-- The tweak of a data unit: LBA + 2^64 × NSID, encrypted under the tweak key. -/
def xtsTweak (key : BitVec 256) (nsid : BitVec 32) (lba : Nat) : BitVec 128 := aes256 true key (BitVec.ofNat 128 (lba + 2 ^ 64 * nsid.toNat))

/-- The blocks of a data unit under the data key, the tweak multiplied by α from block to block (R127, R128). -/
def xtsBlocks (enc : Bool) (key : BitVec 256) : BitVec 128 → List (BitVec 128) → List (BitVec 128)
  | _, [] => []
  | t, b :: rest => (aes256 enc key (b ^^^ t) ^^^ t) :: xtsBlocks enc key (xtsTimesAlpha t) rest

/-- One XTS data unit of whole blocks. -/
def xtsUnit (enc : Bool) (dataKey tweakKey : BitVec 256) (nsid : BitVec 32) (lba : Nat) (l : List (BitVec 8)) : List (BitVec 8) :=
  blockBytes (xtsBlocks enc dataKey (xtsTweak tweakKey nsid lba) (blocksOf l))

/-! ## GCM-AES-256 (R441, R444, R445) -/

/-- The counter block of an IV: the 12 bytes of the IV and the counter, big-endian. -/
def ctrBlock (iv : List (BitVec 8)) (n : Nat) : BitVec 128 := bytesHalf (iv ++ beBytes 4 n)

/-- The keystream of some counters. -/
def keystream (key : BitVec 256) (iv : List (BitVec 8)) (ns : List Nat) : List (BitVec 8) :=
  blockBytes (ns.map (fun n => aes256 true key (ctrBlock iv n)))

/-- A text under the keystream of the counters from 2 on: encryption and decryption alike. -/
def gcmText (key : BitVec 256) (iv l : List (BitVec 8)) : List (BitVec 8) :=
  xorBytes l (keystream key iv ((List.range ((l.length + 15) / 16)).map (· + 2)))

/-- GHASH under a hash key (R127, R128). -/
def ghash (h : BitVec 128) (l : List (BitVec 128)) : BitVec 128 := l.foldl (fun y x => gcmMul (y ^^^ x) h) 0

/-- The tag of a ciphertext with its additional data. -/
def gcmTag (key : BitVec 256) (iv aad ct : List (BitVec 8)) : List (BitVec 8) :=
  let lens := beBytes 8 (8 * aad.length) ++ beBytes 8 (8 * ct.length)
  halfBytes (ghash (aes256 true key 0) (blocksOf aad ++ blocksOf ct ++ blocksOf lens) ^^^ aes256 true key (ctrBlock iv 1))

/-! ## Stored data (R434, R440–R442) -/

/-- How a logical block is protected: its place, its format, and the two keys of its key home. -/
structure Guard where
  nsid    : BitVec 32 := 0
  lba     : Nat := 0
  binding : BitVec 40 := 0
  fmt1    : Bool := false
  gcm     : Bool := false
  keyA    : BitVec 256 := 0
  keyB    : BitVec 256 := 0
  deriving DecidableEq, Repr

/-- The 96-bit IV of a block under GCM: NSID, LBA and binding number, big-endian (R441). -/
def storedIv (g : Guard) : List (BitVec 8) := beBytes 2 g.nsid.toNat ++ beBytes 5 g.lba ++ beBytes 5 g.binding.toNat

/-- What is stored of a logical block: 4,096 bytes of data and 64 of metadata, as ciphertext (R397, R440, R441). -/
def sealBlock (g : Guard) (host : List (BitVec 8)) : List (BitVec 8) :=
  if g.gcm then
    let ct := gcmText g.keyA (storedIv g) (host.take 4144)
    ct ++ gcmTag g.keyA (storedIv g) [] ct
  else if g.fmt1 then xtsUnit true g.keyA g.keyB g.nsid g.lba (host.take 4160)
  else xtsUnit true g.keyA g.keyB g.nsid g.lba (host.take 4096) ++ List.replicate 64 0

/-- The logical block that stored bytes hold; metadata bytes 48–63 are zeros under GCM (R440, R441). -/
def openBlock (g : Guard) (stored : List (BitVec 8)) : List (BitVec 8) :=
  if g.gcm then gcmText g.keyB (storedIv g) (stored.take 4144) ++ List.replicate 16 0
  else if g.fmt1 then xtsUnit false g.keyA g.keyB g.nsid g.lba (stored.take 4160)
  else xtsUnit false g.keyA g.keyB g.nsid g.lba (stored.take 4096)

/-- The record of a namespace's key home, if it has one (R434). -/
def homeRecord (s : State) (x : Ns) : Option VcRec := x.home.map (fun v => (vcOf s v.toNat).inForce)

/-- The protection of a block of a namespace (R434). -/
def guardOf (s : State) (x : Ns) (nsid : BitVec 32) (lba : Nat) (binding : BitVec 40) : Guard :=
  let r := (homeRecord s x).getD {}
  { nsid := nsid, lba := lba, binding := binding, fmt1 := x.fmt1, gcm := bit r.flags 2,
    keyA := (keyOf s r.slotA.toNat).key, keyB := (keyOf s r.slotB.toNat).key }

/-! ## Key slots in use (R428, R432, R437) -/

/-- A use's blocks are counted (R428): FN 0 of uses 1, 3 and 5. -/
def countedUse (use : BitVec 4) : Bool := use = 1 || use = 3 || use = 5

/-- The highest count of a usage counter, where it stays: a LIMIT of 56 is reached there (R432). DEDUCED, log entry 190. -/
def keyCountMax : Nat := 2 ^ 56 - 1

/-- Add AES blocks to a slot's usage counter (R432); at the warning level source 769 is raised and event 0x0A02 recorded
once. -/
def keyCount (k n : Nat) (s : State) : State :=
  let x := keyOf s k
  if !countedUse x.use then s
  else
    let c := x.cnt.toNat + n
    let warn := 2 ^ x.limit.toNat - 2 ^ (x.limit.toNat - 4)
    let s := modKey k (fun y => { y with cnt := BitVec.ofNat 56 (min c keyCountMax) }) s
    if warn ≤ c && !x.warned then
      event 0x0A02 [w32 k, x.vc.setWidth 32]
        (modKey k (fun y => { y with warned := true }) s)
    else s

/-- Check 3 of R437: the reason the slot is refused, 1 empty, 2 failed, 3 limit. -/
def keyRefusal (x : KeySlot) : Option Nat :=
  if x.use = 0 then some 1 else if x.failed then some 2
  else if countedUse x.use && decide (min (2 ^ x.limit.toNat) keyCountMax ≤ x.cnt.toNat) then some 3 else none

/-- A refused CIN descriptor (R437, R461): event 0x0A03 at most once per slot per hank, a Notice, and source 770 for one at its
limit (R460). -/
def cinRefused (k r : Nat) (s : State) : State :=
  let told := (keyOf s k).told
  let s := modKey k (fun x => { x with told := true }) s
  let s := modCiph (fun u => { u with limRef := u.limRef || decide (r = 3) }) s
  raiseFault 13 1 (if told then s else eventC 0x0A03 1 [w32 k, w32 r] s)

/-- Use a slot for `n` blocks of encryption, or for decryption (`n` = 0): none where check 3 refuses it. -/
def useKey (k n : Nat) (s : State) : Bool × State :=
  match keyRefusal (keyOf s k) with
  | some r => (false, cinRefused k r s)
  | none => (true, keyCount k n s)

/-- Use both slots of a namespace's key home for so many logical blocks, to write or to read them. -/
def useHome (x : Ns) (blocks : Nat) (wr : Bool) (s : State) : Bool × State :=
  match homeRecord s x with
  | none => (false, s)
  | some r =>
    let per := if x.fmt1 then 260 else 256
    if bit r.flags 2 then (if wr then useKey r.slotA.toNat (blocks * per) s else useKey r.slotB.toNat 0 s)
    else
      let (a, s) := useKey r.slotA.toNat (if wr then blocks * per else 0) s
      if !a then (false, s) else useKey r.slotB.toNat 0 s

/-! ## TLS records (R250, R445, R446) -/

/-- The nonce of a record: its sequence number XOR the connection's static IV. -/
def tlsNonce (iv : BitVec 96) (seq : BitVec 64) : List (BitVec 8) := beBytes 12 (iv ^^^ seq.setWidth 96).toNat

/-- A record of a content type: its 5-byte header, which is the additional data, the ciphertext of the content and its type, and the tag. -/
def tlsRecordOf (typ : BitVec 8) (key : BitVec 256) (iv : BitVec 96) (seq : BitVec 64) (text : List (BitVec 8)) : List (BitVec 8) :=
  let n := text.length + 17
  let head : List (BitVec 8) := [0x17, 3, 3] ++ beBytes 2 n
  let ct := gcmText key (tlsNonce iv seq) (text ++ [typ])
  head ++ ct ++ gcmTag key (tlsNonce iv seq) head ct

/-- A record that carries one PDU as application data. -/
def tlsRecord (key : BitVec 256) (iv : BitVec 96) (seq : BitVec 64) (pdu : List (BitVec 8)) : List (BitVec 8) := tlsRecordOf 0x17 key iv seq pdu

/-- A received record is opened (R249, R250): its content type and its text, none where the tag is wrong. Padding after the content is zeros. -/
def tlsOpen (key : BitVec 256) (iv : BitVec 96) (seq : BitVec 64) (rec_ : List (BitVec 8)) : Option (BitVec 8 × List (BitVec 8)) :=
  let ct := (rec_.drop 5).take (rec_.length - 21)
  let text := (gcmText key (tlsNonce iv seq) ct).reverse.dropWhile (fun b => decide (b = 0))
  if rec_.length < 22 || gcmTag key (tlsNonce iv seq) (rec_.take 5) ct ≠ rec_.drop (rec_.length - 16) then none
  else match text with
    | [] => none
    | t :: rest => some (t, rest.reverse)

/-- The AES blocks of a record with a PDU of so many bytes: its counter blocks, J0 and the hash key. -/
def tlsBlocks (n : Nat) : Nat := (n + 1 + 15) / 16 + 2

/-- A text of a content type is sent as the connection's next record (R445): its bytes, none where the send key is refused. -/
def tlsSendOf (typ : BitVec 8) (conn : BitVec 16) (text : List (BitVec 8)) (s : State) : Option (List (BitVec 8)) × State :=
  let c := connOf s conn.toNat
  match useKey c.kTx.toNat (tlsBlocks text.length) s with
  | (false, s) => (none, s)
  | (true, s) =>
    (some (tlsRecordOf typ (keyOf s c.kTx.toNat).key c.ivTx c.txSeq text),
     modConn conn.toNat (fun x => { x with txSeq := x.txSeq + 1 }) s)

/-- A PDU is sent as the connection's next record (R250, R445). -/
def tlsSend (conn : BitVec 16) (pdu : List (BitVec 8)) (s : State) : Option (List (BitVec 8)) × State := tlsSendOf 0x17 conn pdu s

end Sys2Proof.Machine
end

