-- ==== Sys2Proof/Machine/Tables.lean ====
section
/-! DEFINITION. The command table and the range-lock table: outstanding commands, the posting of a completion, lock
acquire, release, grant and abort mark (R282–R287, R300–R306, R309, R310). -/

namespace Sys2Proof.Machine

/-! ## Statuses (R282, R283) -/

/-- A 15-bit status field: SC in bits 7:0, SCT in bits 10:8, DNR in bit 14. -/
def status (sct sc : Nat) (dnr : Bool := false) : BitVec 16 :=
  BitVec.ofNat 16 (sc + 256 * sct + (if dnr then 16384 else 0))

/-- A completion queue entry (R286): DW0, DW1, the SQ head and identifier the engine fills, and DW3. -/
def cqe (dw0 dw1 : BitVec 32) (qid : BitVec 16) (cid st : BitVec 16) : BitVec 256 :=
  dw0.setWidth 256 ||| (dw1.setWidth 256 <<< 32) ||| (qid.setWidth 256 <<< 80) ||| (cid.setWidth 256 <<< 96) |||
    (st.setWidth 256 <<< 113)

/-! ## Outstanding commands (R284) -/

/-- The entry of an outstanding tenant command. -/
def liveCmd (s : State) (conn cid : BitVec 16) : Option Cmd :=
  s.tables.cmds.find? (fun c => !c.internal && !c.closed && c.conn = conn && c.cid = cid)

/-- The entry of a tenant command, whether or not its connection has closed; where a new connection has one under the same key, that one.
DESIGN CHOICE, log entry 168. -/
def findCmd (s : State) (conn cid : BitVec 16) : Option Cmd :=
  match liveCmd s conn cid with
  | some c => some c
  | none => s.tables.cmds.find? (fun c => !c.internal && c.conn = conn && c.cid = cid)

/-- The entry that a command has now. -/
def cmdEntry (s : State) (c : Cmd) : Option Cmd :=
  s.tables.cmds.find? (fun x => !x.internal && x.conn = c.conn && x.cid = c.cid && x.arrival = c.arrival)

/-- The entry of the internal command that task register set k runs. -/
def setCmd (s : State) (k : Nat) : Option Cmd := s.tables.cmds.find? (fun c => c.internal && c.cid.toNat = k)

/-- Replace the command table. -/
def putCmds (l : List Cmd) (s : State) : State := modTables (fun u => { u with cmds := l }) s

/-- Change the entries equal to a given one. -/
def updCmd (c : Cmd) (f : Cmd → Cmd) (s : State) : State :=
  putCmds (s.tables.cmds.map (fun x => if x = c then f x else x)) s

/-- Free the entries equal to a given one. -/
def freeCmd (c : Cmd) (s : State) : State := putCmds (s.tables.cmds.filter (fun x => decide (x ≠ c))) s

/-- Free lock entries (R302, R306). -/
def freeLocks (l : List Nat) (s : State) : State :=
  modTables (fun u => { u with locks := l.foldl (fun m k => mset none k none m) u.locks }) s

/-- The lock entries a command holds or waits for. -/
def locksOf (s : State) (conn cid : BitVec 16) (internal : Bool) : List Nat :=
  s.tables.locks.filterMap (fun e => match e.2 with
    | some l => if l.conn = conn && l.cid = cid && l.internal = internal then some e.1 else none
    | none => none)

/-- The transmit path of a connection. -/
def connPath (s : State) (conn : BitVec 16) : BitVec 5 := (connOf s conn.toNat).sub

/-- Queue a frame on a transmit path (R252). -/
def queueFrame (f : TxFrame) (s : State) : State := modXpt (fun u => { u with tx := u.tx ++ [f] }) s

/-- The order numbers of a queue's commands that completed with another status than success (R300). -/
def noteOrder (c : Cmd) (st : BitVec 16) (s : State) : State :=
  if st = 0 then s else modTables (fun u => { u with fails := u.fails ++ [(c.conn.toNat, c.order)] }) s

/-- A command of the class waits in deferral: for tokens or staging, a lock or an ordered predecessor (R64, R301, R302). DEDUCED, log entry 91. -/
def isDeferred (c : Cmd) : Bool :=
  c.phase = .deferred || c.phase = .waitLock || c.phase = .waitOrder || c.phase = .held

/-- CLS_WAIT (R90). -/
def clsWait (s : State) (n : Nat) : BitVec 32 :=
  let l := s.tables.cmds.filter (fun c => isDeferred c && c.cls.toNat = n)
  fld (BitVec.ofNat 8 (min 255 (l.foldl (fun m c => max m c.waited) 0))) 24 ||| w32 (min l.length 0xFFFFF)

/-- CLS_CNT (R91). -/
def clsCnt (c : Cls) : BitVec 32 := fld c.failed 16 ||| fld c.unbound 0

/-- An error enters a controller's Error Information log, newest first, of 64 entries (R281). -/
def logError (v : Nat) (e : ErrEnt) (s : State) : State :=
  modCtrl v (fun x => { x with errs := x.errs + 1, errLog := ({ e with count := x.errs + 1 } :: x.errLog).take 64 }) s

/-- The 512-byte units of host data that a command which succeeds has moved by some opcodes (R372). -/
def hostUnits (c : Cmd) (st : BitVec 16) (ops : List (BitVec 8)) : Nat := if st = 0 && ops.contains c.opcode && !c.admin then 8 * c.nlb else 0

/-- What the host counters of R372 gain at a completion, and the damage count of a 2h / 81h status. -/
def countDone (c : Cmd) (st : BitVec 16) (s : State) : State :=
  let s := if st.setWidth 11 = 0x281 then (modMedia (fun u => { u with mediaErrs := u.mediaErrs + 1 }) s) else s
  match c.vc with
  | none => s
  | some v =>
    let e : ErrEnt := { sqid := (connOf s c.conn.toNat).qid, cid := c.cid, status := st, lba := c.slba, nsid := c.nsid }
    let s := if st = 0 then s else logError v.toNat e s
    modCtrl v.toNat (fun x => { x with
      reads := if c.opcode = 2 && !c.admin then x.reads + 1 else x.reads
      writes := if (c.opcode = 1 || c.opcode = 0x7D) && !c.admin then x.writes + 1 else x.writes
      unitsRd := x.unitsRd + hostUnits c st [2]
      unitsWr := x.unitsWr + hostUnits c st [1, 0x7D] }) s

/-- The status a tenant command's completion carries: Device in Hold in Hold, whatever it would be elsewhere (R202). -/
def sentStatus (s : State) (st : BitVec 16) : BitVec 16 := if inHold s then status 7 0x83 else st

/-- A completion entry with its status field replaced (R286). -/
def withStatus (entry : BitVec 256) (st : BitVec 16) : BitVec 256 :=
  (entry &&& ~~~ (BitVec.ofNat 256 (0x7FFF * 2 ^ 113))) ||| ((st.setWidth 15).setWidth 256 <<< 113)

/-- The SQ head that a completion carries (R286): the capsules of the queue that the device has taken, within its size. DEDUCED, log entry 171. -/
def sqHead (s : State) (conn : BitVec 16) : Nat := mget 0 s.tables.nextOrder conn.toNat % (connOf s conn.toNat).sqSize

/-- A completion entry with its SQ head (R286). -/
def withHead (entry : BitVec 256) (n : Nat) : BitVec 256 :=
  (entry &&& ~~~ (BitVec.ofNat 256 (0xFFFF * 2 ^ 64))) ||| ((BitVec.ofNat 16 n).setWidth 256 <<< 64)

/-- The 16 bytes of a completion queue entry. -/
def cqeBytes (entry : BitVec 256) : List (BitVec 8) := leBytes 16 (entry.toNat % 2 ^ 128)

/-- A CapsuleResp PDU (R241): the common header of NVMe/TCP, with or without a header digest to follow, and the completion queue entry. PRESUMED,
log entry 151. -/
def capsuleResp (hd : Bool) (entry : BitVec 256) : List (BitVec 8) :=
  [5, if hd then 1 else 0, 24, 0] ++ leBytes 4 (if hd then 28 else 24) ++ cqeBytes entry

/-- The completion of a command is queued on its connection's path (R286): a SEND Only or a CapsuleResp that the transport engine frames, on a
TLS connection as the connection's next record (R250). -/
def queueCompletion (conn cid : BitVec 16) (entry : BitVec 256) (inval : Option (BitVec 32)) (s : State) : State :=
  let f : TxFrame := { path := connPath s conn, kind := 3, conn := some conn, desc := entry, cid := some cid, inval := inval }
  if (connOf s conn.toNat).tls then
    match tlsSend conn (capsuleResp false entry) s with
    | (none, s) => s
    | (some bs, s) => queueFrame { f with units := bytesUnits bs } s
  else queueFrame f s

/-- The table accepts the completion unit of an entry (R284): the entry is freed, and the completion sent; that of a closed connection is discarded.
With `self` set, the spindle frames and sends the completion itself (R286). -/
def acceptEntry (c : Cmd) (entry : BitVec 256) (st : BitVec 16) (self : Bool) (inval : Option (BitVec 32)) (s : State) : State :=
  let st := sentStatus s st
  let s := freeCmd c s
  if c.closed then s
  else
    let s := countDone c st (noteOrder c st s)
    if self then s
    else queueCompletion c.conn c.cid (withHead (withStatus entry st) (sqHead s c.conn)) inval s

/-- The table accepts a completion unit (R284): the first for an outstanding command is accepted for its entry; any other is discarded with event
0x0820. -/
def acceptCompletion (conn cid : BitVec 16) (entry : BitVec 256) (st : BitVec 16) (self : Bool) (inval : Option (BitVec 32)) (s : State) :
    State :=
  match findCmd s conn cid with
  | none => event 0x0820 [0xFFFFFFFF, conn.setWidth 32, cid.setWidth 32] s
  | some c => acceptEntry c entry st self inval s

/-- A Read or Verify of an open connection keeps its locks until its data and its completion are acknowledged (R258, R302). -/
def keepsLocks (c : Cmd) : Bool := !c.internal && !c.admin && !c.closed && (c.opcode = 2 || c.opcode = 0x0C)

/-- The key that a command's keyed SGL descriptor asks to invalidate (R236): sub-type Fh of descriptor type 4. PRESUMED, log entry 151. -/
def invalidKey (s : State) (c : Cmd) : Option (BitVec 32) :=
  if !(connOf s c.conn.toNat).tcp && (c.sqe >>> 312).setWidth 8 = 0x4F#8 then some ((c.sqe >>> 280).setWidth 32) else none

/-- Complete a tenant command from the keystone's own handling: its unit is accepted, its marks go, and its locks are released, those of a read
once all is acknowledged (R258, R302). DESIGN CHOICE, log entry 112. -/
def completeCmd (c : Cmd) (st : BitVec 16) (dw0 dw1 : BitVec 32) (s : State) : State :=
  let s := if keepsLocks c then s else freeLocks (locksOf s c.conn c.cid c.internal) s
  let s := modTables (fun u => { u with marks := u.marks.filter (fun m => !(m = (c.conn, c.cid))) }) s
  if c.internal then updCmd c (fun x => { x with phase := Phase.ended, status := st, dw0 := dw0, dw1 := dw1 }) s
  else match cmdEntry s c with
    | none => event 0x0820 [0xFFFFFFFF, c.conn.setWidth 32, c.cid.setWidth 32] s
    | some d => acceptEntry d (cqe dw0 dw1 (connOf s c.conn.toNat).qid c.cid st) st false (invalidKey s c) s

/-- The engine behind CMPL may take the oldest unit: no earlier than the cycle after its acceptance, and at most one in a cycle (R119). -/
def cmplDrains (s : State) (n : Nat) : Bool :=
  decide ((spn s n).cmplAt.headD 0 < s.reel.core) && decide ((spn s n).cmplFree ≤ s.reel.core)

/-- COMPLETION_POSTED (R119, R284, R286): the engine takes the oldest unit of a spindle's CMPL port. -/
def execCompletionPosted (n : BitVec 6) (s : State) : Out :=
  match (spn s n.toNat).cmpl with
  | [] => .next s
  | u :: rest =>
    if !cmplDrains s n.toNat then .next s else
    let s := modSpn n.toNat (fun x => { x with cmpl := rest, cmplAt := x.cmplAt.drop 1, cmplFree := s.reel.core + 1 }) s
    let conn : BitVec 16 := (u >>> 128).setWidth 16
    let cid : BitVec 16 := (u >>> 96).setWidth 16
    let st : BitVec 16 := ((u >>> 113).setWidth 15 : BitVec 15).setWidth 16
    let qid := (connOf s conn.toNat).qid
    let entry := (u &&& (BitVec.ofNat 256 (2 ^ 64 - 1))) ||| (qid.setWidth 256 <<< 80) ||| (u &&& (BitVec.ofNat 256 (0xFFFFFFFF * 2 ^ 96)))
    .next (acceptCompletion conn cid entry st (bit u 144) (if bit u 145 then some ((u >>> 160).setWidth 32) else none) s)

/-! ## Range locks (R302–R306) -/

/-- Two lock entries conflict (R303). -/
def lockConflict (a b : LockEnt) : Bool :=
  a.nsid = b.nsid && (a.excl || b.excl) && a.count ≠ 0 && b.count ≠ 0 &&
    decide (a.start.toNat < b.start.toNat + b.count.toNat) && decide (b.start.toNat < a.start.toNat + a.count.toNat)

/-- A request waits: some conflicting entry is held or was requested earlier (R303). -/
def lockBlocked (s : State) (e : LockEnt) : Bool :=
  s.tables.locks.any (fun x => match x.2 with
    | some l => lockConflict l e && (l.granted || decide (l.seq < e.seq)) && decide (l.seq ≠ e.seq)
    | none => false)

/-- Entries a class holds or waits with. -/
def lockUse (s : State) (owner : Nat) : Nat :=
  (s.tables.locks.filter (fun x => match x.2 with | some l => decide (l.owner = owner) | none => false)).length

/-- The lowest free entry of the table. -/
def freeLockEntry (s : State) : Option Nat :=
  (List.range (s.tables.locks.length + 1)).find? (fun k => mget none s.tables.locks k = none && decide (k < nLocks s))

/-- What an acquire answers: 0 granted, 1 waiting, 2 share full, 3 aborted, with the entry index. -/
structure LockAns where
  code : Nat := 0
  entry : Nat := 0
  deriving DecidableEq, Repr

/-- The command an acquire names is outstanding (R306). -/
def acquireCmd (s : State) (conn cid : BitVec 16) (internal : Bool) : Option Cmd :=
  if internal then setCmd s cid.toNat else liveCmd s conn cid

/-- An acquire (R303, R304, R306, R310): decided at once. -/
def lockAcquire (e : LockEnt) (s : State) : LockAns × State :=
  match acquireCmd s e.conn e.cid e.internal with
  | none => ({ code := 3 }, s)
  | some c =>
    if !e.internal && s.tables.marks.contains (e.conn, e.cid) then ({ code := 3 }, s)
    else if e.count = 0 then ({}, updCmd c (fun x => { x with locks := x.locks ++ [65535] }) s)
    else if mget 0 s.tables.shares e.owner ≤ lockUse s e.owner then ({ code := 2 }, s)
    else
      match freeLockEntry s with
      | none => ({ code := 2 }, s)
      | some k =>
        let e := { e with seq := s.tables.seq, granted := false }
        let g := !lockBlocked s e
        let s := modTables (fun u => { u with seq := u.seq + 1, locks := mset none k (some { e with granted := g }) u.locks }) s
        let s := updCmd c (fun x => { x with locks := x.locks ++ [k] }) s
        ({ code := if g then 0 else 1, entry := k }, s)

/-- A LOCK result unit (R306). -/
def lockResult (tag : BitVec 32) (a : LockAns) : BitVec 256 :=
  tag.setWidth 256 ||| ((BitVec.ofNat 256 a.entry) <<< 32) ||| ((BitVec.ofNat 256 a.code) <<< 48)

/-- Queue a result for a spindle's LOCK port; it is placed by LOCK_RESULT. -/
def queueResult (n : Nat) (u : BitVec 256) (s : State) : State :=
  modSpn n (fun x => { x with lockOut := x.lockOut ++ [u], lockDue := x.lockDue ++ [s.reel.core + 64] }) s

/-- The entry an acquire descriptor asks for (R306). -/
def lockDesc (n owner : Nat) (v : BitVec 256) : LockEnt :=
  { nsid := v.setWidth 15, excl := bit v 16, start := (v >>> 64).setWidth 64, count := (v >>> 128).setWidth 64,
    owner := owner, conn := (v >>> 192).setWidth 16, cid := (v >>> 208).setWidth 16, internal := bit v 24,
    tag := (v >>> 32).setWidth 32, spindle := some n }

/-- The release of an entry (R306). A release of an entry the owner does not hold is a fault, met before. -/
def lockRelease (k : Nat) (s : State) : State := freeLocks [k] s

/-- The issuing owner holds an entry. -/
def holdsEntry (s : State) (owner k : Nat) : Bool :=
  match mget none s.tables.locks k with | some l => l.owner = owner && l.granted | none => false

/-- An abort mark (R310): 4 taken or 5 refused. -/
def abortMark (conn cid : BitVec 16) (s : State) : Nat × State :=
  match liveCmd s conn cid with
  | none => (5, s)
  | some c =>
    let mine := locksOf s conn cid false
    let held := c.locks.contains 65535 || mine.any (fun k => match mget none s.tables.locks k with | some l => l.granted | none => false)
    if held then (5, s)
    else
      let s := freeLocks mine s
      let s := updCmd c (fun x => { x with locks := [] }) s
      (4, (modTables (fun u => { u with marks := u.marks ++ [(conn, cid)] }) s))

/-- LOCK_RESULT (R119): the table places the oldest decided result on a spindle's LOCK port, unless 16 wait there. -/
def execLockResult (n : BitVec 6) (s : State) : Out :=
  match (spn s n.toNat).lockOut with
  | [] => .next s
  | u :: rest =>
    if 16 ≤ (spn s n.toNat).lockRes.length then .next s
    else .next (modSpn n.toNat (fun x => { x with lockOut := rest, lockDue := x.lockDue.drop 1, lockRes := x.lockRes ++ [u] }) s)

/-- The waiting request that is next to be granted: the earliest that nothing conflicting precedes (R303). -/
def nextGrant (s : State) : Option (Nat × LockEnt) :=
  (s.tables.locks.filterMap (fun x => match x.2 with
    | some l => if !l.granted && !lockBlocked s l then some (x.1, l) else none
    | none => none)).foldl (fun (m : Option (Nat × LockEnt)) x =>
      match m with
      | none => some x
      | some y => if x.2.seq < y.2.seq then some x else some y) none

/-- Grant a waiting request: a second result with its tag follows (R306). -/
def grantLock (k : Nat) (l : LockEnt) (s : State) : State :=
  let s := modTables (fun u => { u with locks := mset none k (some { l with granted := true }) u.locks }) s
  match l.spindle with
  | none => s
  | some n => queueResult n (lockResult l.tag { code := 0, entry := k }) s

end Sys2Proof.Machine
end

