-- ==== Sys2Proof/Machine/Wire.lean ====
section
/-! DEFINITION. The bytes of a frame on the wire: Ethernet, IP, UDP with RoCEv2 headers, and TCP, with the digests, checksums, ICRC and FCS that
the transport engine adds (R235, R236, R241, R242, R252, R253, R255). The layouts are those of the standards the spec names. PRESUMED, log entry
151. A header field that neither the spec nor this state gives is a free value. -/

namespace Sys2Proof.Machine

/-! ## Sums -/

/-- One's-complement addition of 16-bit numbers. -/
def onesAdd (a b : Nat) : Nat := (a + b) % 65536 + (a + b) / 65536

/-- The one's-complement sum of a byte string's 16-bit words, an odd last byte filled up with zeros. -/
def onesSum (l : List (BitVec 8)) : Nat := l.zipIdx.foldl (fun n b => onesAdd n (if b.2 % 2 = 0 then 256 * b.1.toNat else b.1.toNat)) 0

/-- A checksum field: the complement of a sum. -/
def checkField (n : Nat) : List (BitVec 8) := beBytes 2 (65535 - n)

/-! ## Ethernet and IP -/

/-- The addresses of a sub-port, by transmit path (R272). -/
def subAddr (s : State) (path : Nat) : SubAddr := mget {} s.xpt.addrs path

/-- The VLAN tag of a sub-port where one is set (R222, R262). -/
def subTag (s : State) (path : Nat) : List (BitVec 8) :=
  let p := portOf s (path / 4)
  if bit p.vlanEn (path % 4) then [0x81, 0x00] ++ beBytes 2 (mget 0 p.vlan (path % 4)).toNat else []

/-- A frame as its sub-port sends it: with its tag after the two addresses. -/
def tagged (s : State) (path : Nat) (l : List (BitVec 8)) : List (BitVec 8) := l.take 12 ++ subTag s path ++ l.drop 12

/-- An untagged Ethernet header from a sub-port. -/
def etherTo (s : State) (path : Nat) (dst : BitVec 48) (typ : Nat) : List (BitVec 8) :=
  beBytes 6 dst.toNat ++ beBytes 6 (subAddr s path).mac.toNat ++ beBytes 2 typ

/-- The Ethernet header of a connection's frame (R222, R235): the address that the peer sent from. -/
def etherHeader (s : State) (path : Nat) (c : Conn) : List (BitVec 8) := etherTo s path c.peer (if c.v6 then 0x86DD else 0x0800)

/-- Bits of a free value, as a number. -/
def freeField (h : BitVec 256) (at_ bits : Nat) : Nat := (h >>> at_).toNat % 2 ^ bits

/-- The source and destination addresses of a connection's IP headers. -/
def ipAddrs (s : State) (path : Nat) (c : Conn) : List (BitVec 8) :=
  if c.v6 then beBytes 16 (subAddr s path).ip6.toNat ++ beBytes 16 c.ip.toNat
  else beBytes 4 (subAddr s path).ip4.toNat ++ beBytes 4 (c.ip.toNat % 2 ^ 32)

/-- An IP header with its DSCP and ECN (R255); `h` gives the identification, the fragment field, the time to live and the flow label. -/
def ipHeader (s : State) (path : Nat) (c : Conn) (h : BitVec 256) (proto ecn len : Nat) : List (BitVec 8) :=
  let tos := c.dscp.toNat * 4 + ecn
  if c.v6 then
    beBytes 4 (6 * 2 ^ 28 + tos * 2 ^ 20 + freeField h 0 20) ++ beBytes 2 len ++ beBytes 1 proto ++ beBytes 1 (freeField h 32 8) ++ ipAddrs s path c
  else
    let a := [0x45, BitVec.ofNat 8 tos] ++ beBytes 2 (20 + len) ++ beBytes 2 (freeField h 0 16) ++ beBytes 2 (freeField h 16 16) ++
      beBytes 1 (freeField h 32 8) ++ beBytes 1 proto
    let b := ipAddrs s path c
    a ++ checkField (onesSum (a ++ b)) ++ b

/-- The IP header as the ICRC covers it: the fields that a router may change are all ones. -/
def maskIp (c : Conn) (l : List (BitVec 8)) : List (BitVec 8) :=
  if c.v6 then [0x6F, 0xFF, 0xFF, 0xFF] ++ (l.drop 4).take 3 ++ [0xFF] ++ l.drop 8
  else l.take 1 ++ [0xFF] ++ (l.drop 2).take 6 ++ [0xFF] ++ (l.drop 9).take 1 ++ [0xFF, 0xFF] ++ l.drop 12

/-! ## RoCEv2 (R236, R252) -/

/-- The base transport header: opcode, solicited event, pad count, destination queue pair, packet sequence number. -/
def bth (c : Conn) (h : BitVec 256) (op : BitVec 8) (se : Bool) (pad : Nat) (psn : BitVec 32) : List (BitVec 8) :=
  [op, BitVec.ofNat 8 ((if se then 128 else 0) + 64 * freeField h 40 1 + 16 * pad)] ++ beBytes 2 (freeField h 48 16) ++ [0] ++
    beBytes 3 c.dqp.toNat ++ [BitVec.ofNat 8 (128 * freeField h 41 1)] ++ beBytes 3 (psn.toNat % 2 ^ 24)

/-- A RoCEv2 packet after the Ethernet header, with its ICRC: `ext` are the headers after the base transport header. -/
def rocePacket (s : State) (path : Nat) (c : Conn) (h : BitVec 256) (op : BitVec 8) (se : Bool) (psn : BitVec 32) (ext pay : List (BitVec 8)) :
    List (BitVec 8) :=
  let pad := (4 - pay.length % 4) % 4
  let b := bth c h op se pad psn
  let rest := ext ++ pay ++ List.replicate pad 0
  let n := 8 + b.length + rest.length + 4
  let ip := ipHeader s path c h 17 2 n
  let udp := beBytes 2 (freeField h 64 16) ++ beBytes 2 4791 ++ beBytes 2 n
  let cover := List.replicate 8 0xFF ++ maskIp c ip ++ udp ++ [0xFF, 0xFF] ++ b.take 4 ++ [0xFF] ++ b.drop 5 ++ rest
  ip ++ udp ++ beBytes 2 (freeField h 80 16) ++ b ++ rest ++ leBytes 4 (crc32 cover).toNat

/-- The RDMA extended header of a descriptor (R252), for the packets that carry one. -/
def rethOf (d : BitVec 256) (op : BitVec 8) : List (BitVec 8) :=
  if op = 6 || op = 0x0A || op = 0x0B || op = 0x0C then
    beBytes 8 (freeField d 64 64) ++ beBytes 4 (freeField d 128 32) ++ beBytes 4 (freeField d 160 32)
  else []

/-! ## TCP (R244, R253) -/

/-- The pseudo-header of a TCP checksum. -/
def pseudoHeader (s : State) (path : Nat) (c : Conn) (len : Nat) : List (BitVec 8) :=
  ipAddrs s path c ++ (if c.v6 then beBytes 4 len ++ [0, 0, 0, 6] else [0, 6] ++ beBytes 2 len)

/-- A TCP segment after the Ethernet header, with its flags and options. Its checksum is that of the headers, the digests and the payload's sum, which the
spindle gives: a wrong one makes a wrong checksum (R253). -/
def tcpPacket (s : State) (path : Nat) (c : Conn) (h : BitVec 256) (flags : Nat) (seq : BitVec 32) (opts pay : List (BitVec 8)) (sum : Nat) :
    List (BitVec 8) :=
  let a := beBytes 2 c.port.toNat ++ beBytes 2 c.rport.toNat ++ beBytes 4 seq.toNat ++ beBytes 4 (freeField h 64 32) ++
    [BitVec.ofNat 8 (16 * (5 + opts.length / 4)), BitVec.ofNat 8 flags] ++ beBytes 2 (freeField h 96 16)
  let n := 20 + opts.length + pay.length
  let total := onesAdd (onesSum (pseudoHeader s path c n ++ a ++ [0, 0, 0, 0] ++ opts)) sum
  ipHeader s path c h 6 (if c.ecn then 2 else 0) n ++ a ++ checkField total ++ [0, 0] ++ opts ++ pay

/-- The timestamp option of a segment, where the connection uses it (R244); the device's own time stamp is free. -/
def tsOption (c : Conn) (h : BitVec 256) : List (BitVec 8) :=
  if c.tsOk then [1, 1, 8, 10] ++ beBytes 4 (freeField h 160 32) ++ beBytes 4 c.tsPeer.toNat else []

/-- A segment of data, with or without PSH. -/
def tcpSegment (s : State) (path : Nat) (c : Conn) (h : BitVec 256) (psh : Bool) (seq : BitVec 32) (pay : List (BitVec 8)) (sum : Nat) :
    List (BitVec 8) := tcpPacket s path c h (if psh then 0x18 else 0x10) seq (tsOption c h) pay sum

/-- The largest segment that the device offers (R244): its sub-port's MTU less headers, at most 8,960 bytes. -/
def offeredMss (v6 : Bool) : Nat := min 8960 (9198 - if v6 then 60 else 40)

/-- The options of the answer to a SYN (R244): MSS, and window scale, SACK permitted and timestamps where the peer offers them; the device's own
scale is free. PRESUMED, log entry 151. -/
def synOptions (c : Conn) (o : TcpOpts) (h : BitVec 256) : List (BitVec 8) :=
  [2, 4] ++ beBytes 2 (offeredMss c.v6) ++ (if o.wscale.isSome then [1, 3, 3, BitVec.ofNat 8 (freeField h 192 4 % 15)] else []) ++
    (if o.sackOk then [1, 1, 4, 2] else []) ++ tsOption c h

/-- The payload of a frame as the spindle pushed it. -/
def pushedBytes (f : TxFrame) : List (BitVec 8) := (unitsBytes f.units).take (freeField f.desc 16 16)

/-- A transmit descriptor (R252): connection, payload length, opcode, flags, PDU header length, remote address, R_Key, and length or sum. -/
def frameDesc (conn : BitVec 16) (len op flags hdr addr key w : Nat) : BitVec 256 :=
  BitVec.ofNat 256 (conn.toNat + 2 ^ 16 * len + 2 ^ 32 * op + 2 ^ 40 * flags + 2 ^ 48 * hdr + 2 ^ 64 * addr + 2 ^ 128 * key + 2 ^ 160 * w)

/-- The digests that the transport engine adds to a segment (R242, R252): the header digest after the PDU header, and the data digest of the whole
PDU's data after the payload, with the payload that carries them. `pdu` is what earlier segments sent of the PDU; its data begins at the data
offset that its header gives, which counts the header digest (`hd`). -/
def withDigests (hd : Bool) (pdu : List (BitVec 8)) (f : TxFrame) : List (BitVec 8) × List (BitVec 8) :=
  let pay := pushedBytes f
  let flags := freeField f.desc 40 8
  let n := freeField f.desc 48 8
  let whole := pdu ++ pay
  let start := max n ((whole.getD 3 0).toNat - (if hd then 4 else 0))
  let h := if flags / 4 % 2 = 1 then leBytes 4 (crc32c (pay.take n)).toNat else []
  let d := if flags / 8 % 2 = 1 then leBytes 4 (crc32c (whole.drop start)).toNat else []
  (pay.take n ++ h ++ pay.drop n ++ d, h ++ d)

/-- The payload of a completion on TCP (R241, R242, R286): a CapsuleResp with its header digest, or the record that carries it. -/
def responseBytes (c : Conn) (f : TxFrame) : List (BitVec 8) :=
  if f.units ≠ [] then
    let l := unitsBytes f.units
    l.take (5 + beNat ((l.drop 3).take 2))
  else
    let p := capsuleResp c.hdgst f.desc
    if c.hdgst then p ++ leBytes 4 (crc32c p).toNat else p

/-- The TCP payload of a frame, and the sum its checksum is made from: for a spindle's segment the digests' and the descriptor's (R253). -/
def tcpPayload (c : Conn) (f : TxFrame) : List (BitVec 8) × Nat :=
  if f.kind = 1 then
    let (pay, dg) := withDigests c.hdgst c.pdu f
    (pay, onesAdd (onesSum dg) (freeField f.desc 160 16))
  else if f.kind = 9 then (pushedBytes f, onesSum (pushedBytes f))
  else (responseBytes c f, onesSum (responseBytes c f))

/-- How far a frame moves its connection's sequence number: the payload bytes of a TCP segment, one packet of a queue pair, for an RDMA READ request
the packets of its response. -/
def seqLen (c : Conn) (f : TxFrame) : Nat :=
  if c.tcp then (tcpPayload c f).1.length
  else if f.kind = 0 && freeField f.desc 32 8 = 0x0C then max 1 ((freeField f.desc 160 32 + c.mtu - 1) / max 1 c.mtu)
  else 1

/-- The parts of the host's memory that a run of a command's transfer goes to, as (address, R_Key, length): what its keyed ranges give after the
first `skip` bytes (R238). -/
def rangeSlices : List (BitVec 64 × BitVec 32 × BitVec 32) → Nat → Nat → List (Nat × BitVec 32 × Nat)
  | [], _, _ => []
  | (a, k, n) :: rest, skip, len =>
    if len = 0 then []
    else if n.toNat ≤ skip then rangeSlices rest (skip - n.toNat) len
    else (a.toNat + skip, k, min (n.toNat - skip) len) :: rangeSlices rest 0 (len - min (n.toNat - skip) len)

/-- The largest segment that a connection sends (R244): what the path MTU and the peer's MSS leave, less the timestamp option. -/
def smss (k : Conn) : Nat := max 10 (min (k.mtu - (if k.v6 then 60 else 40)) k.mss - (if k.tsOk then 12 else 0))

/-- The payload that a segment of a connection may have (R252): its MTU less headers. -/
def payloadRoom (k : Conn) : Nat := k.mtu - (if k.v6 then 60 else 40) - (if k.tsOk then 12 else 0)

/-- The bytes that a device frame may have before its FCS on a sub-port (R222, R252). DEDUCED, log entry 183. -/
def deviceRoom (s : State) (path : Nat) : Nat := 9212 - (subTag s path).length

/-- The payload bytes of one TCP segment of a connection: room for the digests left, an even number. -/
def segmentBytes (k : Conn) : Nat := max 2 ((smss k - (if k.hdgst then 4 else 0) - (if k.ddgst then 4 else 0)) / 2 * 2)

/-- Bytes that the device builds for a TCP connection's stream are queued. -/
def queueStream (conn : BitVec 16) (l : List (BitVec 8)) (s : State) : State :=
  queueFrame { path := connPath s conn, kind := 9, conn := some conn, desc := frameDesc conn l.length 0 3 0 0 0 0, units := bytesUnits l } s

/-- A text of a content type is queued as a TLS connection's next record. -/
def queueRecord (typ : BitVec 8) (conn : BitVec 16) (text : List (BitVec 8)) (s : State) : State :=
  match tlsSendOf typ conn text s with
  | (none, s) => s
  | (some l, s) => queueStream conn l s

/-- A PDU that the device builds is queued (R241): on a TLS connection in the connection's next record (R250). -/
def queuePdu (conn : BitVec 16) (p : List (BitVec 8)) (s : State) : State :=
  if (connOf s conn.toNat).tls then queueRecord 0x17 conn p s else queueStream conn p s

/-- An ICResp PDU (R241, R242): PFV 0, CPDA 0, the digests in force, MAXH2CDATA 131,072. PRESUMED, log entry 151. -/
def icResp (c : Conn) : List (BitVec 8) :=
  [1, 0, 128, 0] ++ leBytes 4 128 ++ [0, 0, 0, BitVec.ofNat 8 ((if c.hdgst then 1 else 0) + (if c.ddgst then 2 else 0))] ++ leBytes 4 131072 ++
    List.replicate 112 0

/-- A Ready-to-Transfer PDU (R241) for bytes of a command's data, with its header digest; the transfer tag is free. PRESUMED, log entry 151. -/
def r2tPdu (c : Conn) (cid tag : BitVec 16) (off len : Nat) : List (BitVec 8) :=
  let p := [9, if c.hdgst then 1 else 0, 24, 0] ++ leBytes 4 (if c.hdgst then 28 else 24) ++ leBytes 2 cid.toNat ++ leBytes 2 tag.toNat ++
    leBytes 4 off ++ leBytes 4 len ++ [0, 0, 0, 0]
  if c.hdgst then p ++ leBytes 4 (crc32c p).toNat else p

/-- A C2HTermReq PDU with its error status (R241, R242). PRESUMED, log entry 182. -/
def termReq (fes : BitVec 16) : List (BitVec 8) := [3, 0, 24, 0] ++ leBytes 4 24 ++ leBytes 2 fes.toNat ++ List.replicate 14 0

/-! ## Frames whose bytes are built when they are queued -/

/-- A frame of an open connection that does not depend on it any more, in its class's slots: what follows the Ethernet header is given. -/
def queueRaw (conn : BitVec 16) (cls : Nat) (packet : List (BitVec 8)) (s : State) : State :=
  let path := connPath s conn
  queueFrame { path := path, kind := 8, raw := etherHeader s path.toNat (connOf s conn.toNat) ++ packet, cls := cls } s

/-- A TCP segment outside the stream's records: an answer to a SYN, a reset, or the last of a connection. -/
def queueSegment (conn : BitVec 16) (cls flags : Nat) (seq : BitVec 32) (opts : BitVec 256 → List (BitVec 8)) (pay : List (BitVec 8)) (s : State) :
    State :=
  let (h, s) := drawBits s
  let path := connPath s conn
  queueRaw conn cls (tcpPacket s path.toNat (connOf s conn.toNat) h flags seq (opts h) pay (onesSum pay)) s

/-- A negative acknowledgment of a remote access (R236): its sequence numbers are free. PRESUMED, log entry 151. -/
def queueNak (conn : BitVec 16) (cls : Nat) (s : State) : State :=
  let (h, s) := drawBits s
  let path := connPath s conn
  queueRaw conn cls (rocePacket s path.toNat (connOf s conn.toNat) h 0x11 false (BitVec.ofNat 32 (freeField h 128 24))
    ([0x62] ++ beBytes 3 (freeField h 168 24)) []) s

/-! ## Frames -/

/-- What follows the Ethernet header of a frame whose content the spec gives (R236, R239, R241, R252). -/
def framePacket (s : State) (c : Conn) (f : TxFrame) (h : BitVec 256) (seq : BitVec 32) : Option (List (BitVec 8)) :=
  let path := f.path.toNat
  let op : BitVec 8 := BitVec.ofNat 8 (freeField f.desc 32 8)
  if c.tcp then
    if f.kind = 1 || f.kind = 3 || f.kind = 9 then
      let (pay, sum) := tcpPayload c f
      some (tcpSegment s path c h (f.kind ≠ 1 || freeField f.desc 41 1 = 1) seq pay sum)
    else none
  else if f.kind = 0 then some (rocePacket s path c h op (freeField f.desc 41 1 = 1) seq (rethOf f.desc op) (pushedBytes f))
  else if f.kind = 3 then
    match f.inval with
    | none => some (rocePacket s path c h 4 false seq [] (cqeBytes f.desc))
    | some k => some (rocePacket s path c h 0x17 false seq (beBytes 4 k.toNat) (cqeBytes f.desc))
  else if f.kind = 4 then some (rocePacket s path c h 0x11 false (BitVec.ofNat 32 (freeField h 128 24)) (beBytes 1 (freeField h 160 7 % 32) ++
    beBytes 3 (freeField h 168 24)) [])
  else if f.kind = 6 then some (rocePacket s path c h 0x81 false (BitVec.ofNat 32 (freeField h 128 24)) [] (List.replicate 16 0))
  else none

/-- A whole frame: at least 60 bytes, then its FCS. -/
def withFcs (l : List (BitVec 8)) : List (BitVec 8) :=
  let l := l ++ List.replicate (60 - l.length) 0
  l ++ leBytes 4 (crc32 l).toNat

/-- The bytes of a frame, from destination address to FCS (R253), where its content is given: one built when it was queued, a device frame as code
pushed it (log entry 183), or one of an open connection. -/
def wireBytes (f : TxFrame) (seq : BitVec 32) (s : State) : Option (List (BitVec 8)) × State :=
  let send := fun (l : List (BitVec 8)) => withFcs (tagged s f.path.toNat l)
  if f.raw ≠ [] then (some (send f.raw), s)
  else
    match f.conn with
    | none => (if f.kind = 2 then some (send (pushedBytes f)) else none, s)
    | some k =>
      let c := connOf s k.toNat
      let (h, s) := drawBits s
      (if c.isOpen then (framePacket s c f h seq).map (fun l => send (etherHeader s f.path.toNat c ++ l)) else none, s)

end Sys2Proof.Machine
end

