-- ==== Sys2Proof/Machine/Logs.lean ====
section
/-! DEFINITION. The dirty-zone log (R348, R450): the bits of a controller's bitmaps and marking them. -/

namespace Sys2Proof.Machine

/-- LBAs of ZCAP per skein, by group size (R331). -/
def skeinZcap (n : Nat) : Nat := if n = 8 then 229376 else 491520

/-- The number of zones of a namespace (R334). -/
def zoneCount (x : Ns) : Nat := if x.fdp || x.spz = 0 then 0 else x.skeins / x.spz

/-- Bytes lie in the DRAM of one stack. -/
def inDram (s : State) (a n : Nat) : Bool :=
  match placeOf s a, placeOf s (a + n - 1) with
  | .dram i, .dram j => decide (i = j)
  | _, _ => false

/-- The number n bytes of memory spell at an address. -/
def memNat (s : State) (a n : Nat) : Nat := leNat (memBytes s a n)

/-- The namespaces attached to a controller, by NSID. -/
def vcNamespaces (s : State) (v : Nat) : List (Nat × Ns) :=
  s.media.nss.filterMap (fun e => match e.2 with
    | some x => if x.attached.contains (BitVec.ofNat 12 v) then some (e.1, x) else none
    | none => none)

/-- LBAs an FDP namespace exports (R348). -/
def fdpLbas (x : Ns) : Nat := 7 * x.skeins * skeinZcap (if x.group8 then 8 else 16) / 8

/-- The bits of a namespace in the dirty bitmap (R450). -/
def dirtyBits (x : Ns) : Nat := if x.fdp then (fdpLbas x + 16383) / 16384 else zoneCount x

/-- The first bit of a namespace in a controller's bitmap: after those of attached namespaces of lower NSID (R450). -/
def dirtyBase (s : State) (v : Nat) (n : Nat) : Nat :=
  ((vcNamespaces s v).filter (fun e => decide (e.1 < n))).foldl (fun k e => k + dirtyBits e.2) 0

/-- Set one bit in the active dirty bitmap of a controller with flag bit 5 (R450). -/
def dirtySet (v n k : Nat) (s : State) : State :=
  let i := (vcOf s v).inForce
  if !bit i.flags 5 then s
  else
    let b := dirtyBase s v n + k
    let a := (if bit i.flags 6 then i.bm1 else i.bm0).toNat + b / 8
    if inDram s a 1 then writeMem none a [memByte s a ||| (1#8 <<< (b % 8))] s else s

/-- Mark a zone, or an FDP range's bit, for every controller attached to the namespace (R450). -/
def dirtyMark (n k : Nat) (s : State) : State :=
  (((nsOf s n).map (·.attached)).getD []).foldl (fun s v => dirtySet v.toNat n k s) s

/-- Mark what a write to `n` LBAs at an offset changed: its zone, or the FDP ranges of 16,384 LBAs it touches (R450). -/
def dirtyWrite (nsid : BitVec 32) (zone : Option Nat) (lba n : Nat) (s : State) : State :=
  match zone with
  | some z => dirtyMark nsid.toNat z s
  | none => (List.range ((lba + n + 16383) / 16384 - lba / 16384)).foldl (fun s k => dirtyMark nsid.toNat (lba / 16384 + k) s) s

end Sys2Proof.Machine
end

