-- ==== Sys2Proof/Machine/Media.lean ====
section
/-! DEFINITION. Zones, skeins, plies and media management: the states of block units and skeins, commitment and
binding, retirement and stand-ins, spare exhaustion, lost dies and Rebuild, relocation, folding, reclaim, refresh and
the table checkpoint (chapter 8). -/

namespace Sys2Proof.Machine

/-! ## Geometry (R327–R332) -/

/-- LBAs of ZSZE per skein, by group size (R331). -/
def skeinZsze (n : Nat) : Nat := if n = 8 then 262144 else 524288
/-- LBAs a ply holds: four for each data page (R332). -/
def plyLbas (n : Nat) : Nat := (n - 1) * 4
/-- LBAs of one row: 24 plies in QLC, 6 in pSLC (R338). -/
def rowLbas (n : Nat) (pslc : Bool) : Nat := plyLbas n * (if pslc then 6 else 24)
/-- Bytes of staging a row reserves: 16 KiB for each data page of its plies (R338). -/
def rowBytes (n : Nat) (pslc : Bool) : Nat := (if pslc then 6 else 24) * (n - 1) * 16384

/-- The number of a plane page over the whole device. DEDUCED, log entry 28. -/
def pageNumber (d b p : Nat) : Nat := (d * 2048 + b) * 8208 + p

/-- The pages of a block unit are copied to another, where it does not hold them yet (R342, R355, R358). -/
def copyBlock (d b d' b' : Nat) (s : State) : State :=
  modPiers (fun u => { u with data := (u.data.filter (fun e => e.1 / 8208 = d * 2048 + b)).foldl (fun m e =>
    if mget [] m (pageNumber d' b' (e.1 % 8208)) = [] then mset [] (pageNumber d' b' (e.1 % 8208)) e.2 m else m) u.data }) s

/-- Bytes an LBA takes in staging: data, and metadata in format 1 (R276). -/
def lbaBytes (x : Ns) : Nat := if x.fmt1 then 4160 else 4096
/-- Dies per group of a zone or reclaim unit's group. -/
def grpSize (s : State) (g : Nat) : Nat := (groupDies s g).length
/-- The zone capacity of a namespace's zone (R331). -/
def zcapOf (x : Ns) : Nat := x.spz * skeinZcap (if x.group8 then 8 else 16)
/-- The zone size of a namespace's zones (R331). -/
def zszeOf (x : Ns) : Nat := x.spz * skeinZsze (if x.group8 then 8 else 16)
/-- Dies per group that a namespace's zones lie in. DEDUCED, log entry 105. -/
def nsGroup (x : Ns) : Nat := if x.group8 then 8 else 16
/-- The key of the zone or reclaim unit a row belongs to. -/
def rowKey (r : Row) : Nat := if r.ru then 2 ^ 60 + r.zone else zoneKey r.nsid r.zone

/-- The ply, die position, codeword and parity position of an LBA offset in a zone with `n` dies per group, with the
skein's number within the zone first (R332). -/
def locate (n o : Nat) : Nat × Nat × Nat × Nat × Nat :=
  let c := skeinZcap n
  let p := (o % c) / plyLbas n
  let j := (o % c) % plyLbas n
  let i := j / 4
  let par := p % n
  (o / c, p, (if i < par then i else i + 1), j % 4, par)

/-- The block units of a die (R327). -/
def blockUnits : List Nat := List.range 2048
/-- The provisionable skein indices of a group (R330). -/
def skeinIndices : List Nat := List.range 1984

/-- k of R329: emergency block units per die, from the unsafe staged-write limit and the dies in groups. -/
def emergK (s : State) : Nat :=
  let d := ((imgGroups s).map List.length).sum
  let l := ((s.store.running.map (·.limitGiB)).getD 1)
  if d = 0 then 32 else min 32 ((l * 1024 + 512 + d * 32 - 1) / (d * 32))

/-- The state the layout gives a block unit never written in the block table (R329, R330, R368). -/
def layoutState (s : State) (d b : Nat) : Nat :=
  if !(dieOf s d).fitted || (groupOfDie s d).isNone then 0
  else if b ≤ 1983 then 1
  else if b = 2047 then 7
  else if 2047 ≤ b + emergK s then 8
  else 6

/-- The state of a block unit (R368). -/
def blockState (s : State) (d b : Nat) : Nat :=
  let e := blockOf s d b
  if e.state = 15 then layoutState s d b else e.state.toNat

/-- Give a block unit a state. -/
def setBlockState (d b : Nat) (st : BitVec 4) (s : State) : State := modBlock d b (fun e => { e with state := st }) s

/-- The block unit that serves as skein k's member on die d (R330). -/
def memberOf (s : State) (d k : Nat) : Nat :=
  let e := blockOf s d k
  if e.standin = 0xFFFF then k else e.standin.toNat

/-- The skein whose member on die d is block unit b. -/
def skeinOf (s : State) (d b : Nat) : Option Nat := skeinIndices.find? (fun k => memberOf s d k = b)

/-! ## Spares, commitment and binding (R334, R335, R357, R363) -/

/-- The spare pool of a die. -/
def sparesOf (s : State) (d : Nat) : List Nat := blockUnits.filter (fun b => blockState s d b = 6)

/-- The least-worn of a list of block units of a die; ties go to the lower index. -/
def leastWorn (s : State) (d : Nat) : List Nat → Option Nat
  | [] => none
  | b :: rest =>
    match leastWorn s d rest with
    | none => some b
    | some c => if (blockOf s d b).wear ≤ (blockOf s d c).wear then some b else some c

/-- The most-worn of a list of block units of a die; ties go to the lower index. -/
def mostWorn (s : State) (d : Nat) : List Nat → Option Nat
  | [] => none
  | b :: rest =>
    match mostWorn s d rest with
    | none => some b
    | some c => if (blockOf s d c).wear ≤ (blockOf s d b).wear then some b else some c

/-- A die group's own state. -/
def grpOf (s : State) (g : Nat) : Grp := mget {} s.media.groups g
/-- Change a die group's own state. -/
def modGrp (g : Nat) (f : Grp → Grp) (s : State) : State :=
  modMedia (fun u => { u with groups := mmod {} g f u.groups }) s

/-- The skeins of a group that are committed to namespaces. -/
def committed (s : State) (g : Nat) : Nat :=
  s.media.nss.foldl (fun n e => match e.2 with | none => n | some x => n + mget 0 x.commit g) 0

/-- The uncommitted skeins of a group; a degraded group has none (R353). -/
def uncommitted (s : State) (g : Nat) : Nat :=
  if (grpOf s g).degraded then 0 else 1984 - (grpOf s g).dissolved.length - committed s g

/-- The group with the most uncommitted skeins; ties go to the lower number (R334). -/
def mostFree (s : State) : List Nat → Option Nat
  | [] => none
  | g :: rest =>
    match mostFree s rest with
    | none => if uncommitted s g = 0 then none else some g
    | some h => if uncommitted s h ≤ uncommitted s g then some g else some h

/-- Commit `n` skeins to namespace `ns`, one at a time, from a list of groups; none where too few remain (R334). -/
def commitSkeins (ns : Nat) (gs : List Nat) : Nat → State → Option State
  | 0, s => some s
  | n + 1, s =>
    match mostFree s gs with
    | none => none
    | some g => commitSkeins ns gs n (modNs ns (fun x => { x with commit := mmod 0 g (· + 1) x.commit }) s)

/-- A skein is free and erased: unused, not dissolved, every member in state 1 (R335). -/
def skeinFree (s : State) (g k : Nat) : Bool :=
  !(grpOf s g).degraded && !(grpOf s g).dissolved.contains k && !(grpOf s g).used.contains k &&
    (groupDies s g).all (fun d => blockState s d (memberOf s d k) = 1)

/-- The wear of a skein's most-worn member (R335). -/
def skeinWear (s : State) (g k : Nat) : Nat :=
  (groupDies s g).foldl (fun m d => max m (blockOf s d (memberOf s d k)).wear.toNat) 0

/-- The free erased skeins of a group, the least worn first and the lower index first among equals (R335). -/
def freeSkeins (s : State) (g : Nat) : List Nat :=
  (skeinIndices.filter (fun k => skeinFree s g k)).mergeSort (fun a b => skeinWear s g a ≤ skeinWear s g b)

/-- The unbound commitment of a namespace in a group. -/
def unboundCommit (x : Ns) (g : Nat) : Nat := mget 0 x.commit g - mget 0 x.bound g

/-- The mean wear of a group's free erased skeins, in thousandths (R335): a skein's wear is that of its most-worn member. DESIGN CHOICE, log entry
185. -/
def meanWear (s : State) (g : Nat) : Nat :=
  let l := freeSkeins s g
  if l.length = 0 then 0 else 1000 * (l.map (skeinWear s g)).sum / l.length

/-- `a` comes before `b` in the order of R335, point 1. -/
def bindBefore (s : State) (x : Ns) (a b : Nat) : Bool :=
  unboundCommit x b < unboundCommit x a ||
  (unboundCommit x a = unboundCommit x b && (meanWear s a < meanWear s b || (meanWear s a = meanWear s b && a < b)))

/-- The first group in the order of R335 that can give `n` skeins. -/
def bindGroup (s : State) (x : Ns) (n : Nat) : List Nat → Option Nat
  | [] => none
  | g :: rest =>
    let here := n ≤ unboundCommit x g && n ≤ (freeSkeins s g).length
    match bindGroup s x n rest with
    | none => if here then some g else none
    | some h => if here && bindBefore s x g h then some g else some h

/-- The namespace's commitment can no longer be met: no group of its class's die set has `n` unbound
committed skeins (R60, R335); a degraded group binds none (R353). -/
def commitSpent (s : State) (x : Ns) (n : Nat) : Bool :=
  !(classGroups s x.cls.toNat).any (fun g => !(grpOf s g).degraded && decide (n ≤ unboundCommit x g))

/-- Give every member of skein k of group g a state. -/
def setSkein (g k : Nat) (st : BitVec 4) (s : State) : State :=
  (groupDies s g).foldl (fun s d => setBlockState d (memberOf s d k) st s) s

/-- Bind `n` skeins of a group to an owner's index: the members become Bound (R335, R368). -/
def takeSkeins (ns g n owner : Nat) (s : State) : List Nat × State :=
  let ks := (freeSkeins s g).take n
  let s := ks.foldl (fun s k =>
    (groupDies s g).foldl (fun s d => modBlock d (memberOf s d k) (fun e => { e with state := 4, zone := some owner }) s)
      (modGrp g (fun y => { y with used := y.used ++ [k] }) s)) s
  (ks, modNs ns (fun x => { x with bound := mmod 0 g (· + ks.length) x.bound }) s)

/-! ## Erasing (R336) -/

/-- Queue the erases of a skein's members: each passes to Erasing (R336, R368). -/
def eraseSkein (g k : Nat) (cls : Nat) (s : State) : State :=
  (groupDies s g).foldl (fun s d =>
    let b := memberOf s d k
    if blockState s d b = 4 || blockState s d b = 5 || blockState s d b = 9 then
      let s := modBlock d b (fun e => { e with state := 3, zone := none, poisoned := false }) s
      (modMedia (fun u => { u with erases := u.erases ++ [(d, b, cls)] }) s)
    else s) s

/-- The key under which the pool holds the pages of a member that is copied through it (R357): above every other key. -/
def memberKey (d b : Nat) : Nat := 2 ^ 62 + d * 2048 + b

/-- A relocation is abandoned: its target is erased, and the pool no longer serves its member (R357, R358). -/
def dropReloc (cls : Nat) (s : State) (r : Reloc) : State :=
  let s := modMedia (fun u => { u with pool := u.pool.map (fun p => { p with exts := p.exts.filter (fun x => x.key ≠ memberKey r.die r.src) }) }) s
  if r.tgt = r.src then s
  else modMedia (fun u => { u with erases := u.erases ++ [(r.die, r.tgt, cls)] }) (setBlockState r.die r.tgt 3 s)

/-- A skein whose members are all erased is free (R336). -/
def skeinErased (g k : Nat) (s : State) : State :=
  if (grpOf s g).used.contains k && (groupDies s g).all (fun d => blockState s d (memberOf s d k) = 1) then
    modGrp g (fun y => { y with used := y.used.filter (· ≠ k) }) s
  else s

/-- The relocations of a skein's member end with its binding (R358): the targets are erased, and that of a retired member is its stand-in. -/
def dropMember (cls d k : Nat) (s : State) : State :=
  let b := memberOf s d k
  let hit := s.media.relocs.filter (fun r => r.die = d && r.src = b)
  let s := hit.foldl (dropReloc cls) s
  let s := match hit.head? with
    | some r => if blockState s d b = 10 || blockState s d b = 11 then modBlock d k (fun e => { e with standin := BitVec.ofNat 16 r.tgt }) s else s
    | none => s
  modMedia (fun u => { u with relocs := u.relocs.filter (fun r => !(r.die = d && r.src = b)) }) s

/-- Unbind skeins of a group from a namespace: the zone table names none and every member is erased later (R336). A
relocation of a member is abandoned and its target erased too (R358). -/
def unbindSkeins (ns : Nat) (g : Nat) (ks : List Nat) (cls : Nat) (s : State) : State :=
  let s := ks.foldl (fun s k => (groupDies s g).foldl (fun s d => dropMember cls d k s) (eraseSkein g k cls s)) s
  modNs ns (fun x => { x with bound := mmod 0 g (· - ks.length) x.bound }) s

/-! ## Namespace notices -/

/-- A zone joins the Changed Zone List, its dirty bits are set, and its controllers get a Zone Descriptor Changed notice
(R364, R450). -/
def zoneChanged (n : BitVec 32) (z : Nat) (s : State) : State :=
  let s := dirtyMark n.toNat z s
  let s := modNs n.toNat (fun x => { x with changed := if x.changed.contains z then x.changed else x.changed ++ [z] }) s
  ((nsOf s n.toNat).map (·.attached)).getD [] |>.foldl
    (fun s v => modCtrl v.toNat (fun c => { c with notices := c.notices + 1 }) s) s

/-- Put a zone in a state and report it (R364). -/
def forceZone (n : BitVec 32) (z : Nat) (st : BitVec 4) (s : State) : State :=
  zoneChanged n z (modZone n z (fun e => { e with state := st }) s)

/-! ## Spare exhaustion (R363–R366) -/

/-- A zone-table index as an event reports it: the table's order is the firmware's, so the index is a free value. -/
def zoneIndexWord (s : State) : BitVec 32 × State :=
  let (v, s) := drawBits s
  ((v.setWidth 19).setWidth 32, s)

/-- Spare policy 1 of the running image (R185). -/
def readOnlyPolicy (s : State) : Bool := ((s.store.running.map (·.spare)).getD 0) = 1

/-- The highest-numbered Empty zone of a namespace. -/
def lastEmptyZone (s : State) (n : BitVec 32) (x : Ns) : Option Nat :=
  ((List.range (zoneCount x)).reverse).find? (fun z => (zoneOf s n z).state = 1)

/-- The zone whose skein holds a block unit as its member, from the block table's owner index (key of the zone). -/
def zoneOfBlock (s : State) (d b : Nat) : Option (BitVec 32 × Nat) :=
  ((blockOf s d b).zone.filter (fun k => decide (k < 2 ^ 59))).map (fun k => (BitVec.ofNat 32 (k / 2 ^ 20), k % 2 ^ 20))

/-- Exhaustion met by a zone's bound member under policy 0: the zone is relocated within the namespace's commitment,
and its highest-numbered Empty zone goes Offline in payment; without an Empty zone it becomes Read Only (R364). -/
def shrinkFor (n : BitVec 32) (z : Nat) (s : State) : State :=
  match nsOf s n.toNat with
  | none => s
  | some x =>
    match lastEmptyZone s n x with
    | some e =>
      if e = z then forceZone n z 0xD s
      else modZone n z (fun y => { y with moving := true }) (forceZone n e 0xF s)
    | none => forceZone n z 0xD s

/-- Spare exhaustion on a die (R363–R365): event 0x0942, and then the policy. -/
def exhaustion (d : Nat) (zone : Option (BitVec 32 × Nat)) (s : State) : State :=
  let g := (groupOfDie s d).getD 0
  let (w, s) := match zone with | none => ((0xFFFFFFFF : BitVec 32), s) | some _ => zoneIndexWord s
  let pol := readOnlyPolicy s
  let s := event 0x0942 [w32 (d / 16), w32 (d % 16), w32 g, if pol then 1 else 0, w] s
  let s := modGrp g (fun y => { y with exhausted := true }) s
  if pol then
    deviceRequest 9 false (modReel (fun u => { u with condReadOnly := true }) s)
  else match zone with
    | none => s
    | some (n, z) => shrinkFor n z s

/-- Dissolve the highest-index skein of a group that is uncommitted, unbound and outside the pool; each member passes
to its die's spare pool (R363). -/
def dissolveSkein (g : Nat) (s : State) : Option State :=
  if uncommitted s g = 0 then none
  else
    match (skeinIndices.reverse).find? (fun k => skeinFree s g k) with
    | none => none
    | some k => some (modGrp g (fun y => { y with dissolved := k :: y.dissolved }) (setSkein g k 6 s))

/-- A spare for a die: its least-worn, after dissolving a skein if the pool is empty (R357, R363). -/
def getSpare (d : Nat) (s : State) : Option Nat × State :=
  match leastWorn s d (sparesOf s d) with
  | some b => (some b, s)
  | none =>
    match (groupOfDie s d).bind (fun g => dissolveSkein g s) with
    | some t => (leastWorn t d (sparesOf t d), t)
    | none => (none, s)

/-! ## Retirement and relocation (R342, R357–R362) -/

/-- Event 0x0940: a block unit is retired, with its stand-in (R362). -/
def retireEvent (d b cause sp : Nat) (s : State) : State := event 0x0940 [w32 (d / 16), w32 (d % 16), w32 b, w32 cause, w32 sp] s

/-- A retired block unit that was in state `st` is replaced (R329, R362): a reserved one passes its role to the lowest-numbered spare, a member of a
skein gets a stand-in, and with no spare the spare policy decides. What was programmed on a bound member is copied to the stand-in as a member
relocation (R342). A skein whose last member is replaced by an erased one is free (R336). -/
def replaceUnit (d b st cause : Nat) (s : State) : State :=
  let owner := (blockOf s d b).zone
  let g := (groupOfDie s d).getD 0
  match skeinOf s d b with
  | none =>
    match (if st = 7 || st = 8 then (sparesOf s d).head? else none) with
    | some sp => retireEvent d b cause sp (setBlockState d sp (BitVec.ofNat 4 st) s)
    | none => retireEvent d b cause 0xFFFF s
  | some k =>
    if (grpOf s g).dissolved.contains k then retireEvent d b cause 0xFFFF s
    else
      match getSpare d s with
      | (none, s) => exhaustion d (zoneOfBlock s d b) (retireEvent d b cause 0xFFFF s)
      | (some sp, s) =>
        if (st = 4 || st = 5) && (blockOf s d b).pages ≠ 0 then
          let s := setBlockState d sp 9 s
          let s := modMedia (fun u => { u with relocs := u.relocs ++ [{ die := d, src := b, tgt := sp, copied := 0, cause := 3 }] }) s
          retireEvent d b cause sp s
        else
          let st' : BitVec 4 := if st = 4 then 4 else if st = 5 then 5 else 1
          let s := modBlock d sp (fun e => { e with state := st', zone := owner }) s
          skeinErased g k (retireEvent d b cause sp (modBlock d k (fun e => { e with standin := BitVec.ofNat 16 sp }) s))

/-- Retire a block unit (R362). Causes: 1 program, 2 erase, 3 reconstruction, 4 factory bad. A unit that a die in no group yet marks bad is replaced
when a group takes the die. -/
def retireBlock (d b : Nat) (cause : Nat) (s : State) : State :=
  let st := blockState s d b
  let t := setBlockState d b (if cause = 4 then 11 else 10) s
  if cause = 4 && (groupOfDie s d).isNone then t else replaceUnit d b st cause t

/-- A factory-bad unit of a die in a group has not been replaced: a member without stand-in, or a reserved unit whose role no other has (R329, R330).
DEDUCED, log entry 188. -/
def badWaits (s : State) (d b : Nat) : Bool :=
  let role := layoutState s d b
  if b ≤ 1983 then (blockOf s d b).standin = 0xFFFF && !(grpOf s ((groupOfDie s d).getD 0)).dissolved.contains b
  else
    let have_ := (blockUnits.filter (fun c => blockState s d c = role)).length
    (role = 7 && have_ = 0) || (role = 8 && decide (have_ < emergK s))

/-- The factory-bad units of the dies that are in groups are replaced (R329, R362). -/
def replaceBad (s : State) : State :=
  let bad := s.media.blocks.filterMap (fun e =>
    if e.2.state = 11 && (groupOfDie s (e.1 / 2048)).isSome then some (e.1 / 2048, e.1 % 2048) else none)
  bad.foldl (fun s e => if badWaits s e.1 e.2 then replaceUnit e.1 e.2 (layoutState s e.1 e.2) 4 s else s) s

/-- A program or erase of a relocation target failed: the target is retired and the copy restarts onto a new least-worn
target; with none, the source stays the member (R361), and where the pool is the source it stays that (R357). -/
def retargetReloc (r : Reloc) (s : State) : State :=
  let d := r.die
  let s := setBlockState d r.tgt 10 s
  let rest := s.media.relocs.filter (fun x => decide (x ≠ r))
  match getSpare d s with
  | (some sp, s) =>
    let s := modMedia (fun u => { u with relocs := rest ++ [{ r with tgt := sp, copied := 0 }] }) s
    event 0x0941 [w32 (d / 16), w32 (d % 16), w32 r.src, w32 r.tgt, w32 sp] (setBlockState d sp 9 s)
  | (none, s) =>
    let s := if r.tgt = r.src then s else modMedia (fun u => { u with relocs := rest }) s
    let s := event 0x0941 [w32 (d / 16), w32 (d % 16), w32 r.src, w32 r.tgt, 0xFFFF] s
    exhaustion d none s

/-- Start copying a member to its least-worn spare (R357); with no spare the relocation waits and the source stays the
member (R364, R365). -/
def startReloc (d src cause : Nat) (tgt : Option Nat) (s : State) : State :=
  if s.media.relocs.any (fun r => r.die = d && r.src = src) then s
  else
    let (t, s) := match tgt with | some t => (some t, s) | none => getSpare d s
    match t with
    | none => s
    | some t =>
      let s := setBlockState d t 9 s
      let s := modBlock d src (fun e => { e with relocSrc := true }) s
      (modMedia (fun u => { u with relocs := u.relocs ++ [{ die := d, src := src, tgt := t, copied := 0, cause := cause }] }) s)

/-- Queue a refresh of a block unit, the oldest first (R356). -/
def queueRefresh (d b : Nat) (s : State) : State :=
  if (blockOf s d b).refreshQ then s
  else
    let s := modBlock d b (fun e => { e with refreshQ := true }) s
    (modMedia (fun u => { u with refresh := u.refresh ++ [(d, b, 1)] }) s)

/-- The source's plies that are programmed: one for each plane page of a member (R332). -/
def plyCount (e : Block) : Nat := e.pages.toNat

/-- Commit a relocation (R358): the target becomes the member, the source passes to Erasing unless it was retired, and
the target's state becomes the source's. -/
def commitReloc (r : Reloc) (s : State) : State :=
  let d := r.die
  let src := blockOf s d r.src
  let st : BitVec 4 := if src.state = 5 then 5 else 4
  let s := match skeinOf s d r.src with
    | none => s
    | some k => modBlock d k (fun e => { e with standin := if r.tgt = k then 0xFFFF else BitVec.ofNat 16 r.tgt }) s
  let s := modBlock d r.tgt (fun e => { e with
      state := st, zone := src.zone, pages := src.pages, poisoned := src.poisoned, progAt := e.progAt, summary := src.summary }) s
  let s := copyBlock d r.src d r.tgt (modBlock d r.src (fun e => { e with relocSrc := false, refreshQ := false, zone := none }) s)
  let s := if src.state = 10 then s
    else
      let s := setBlockState d r.src 3 s
      (modMedia (fun u => { u with erases := u.erases ++ [(d, r.src, 0)] }) s)
  (modMedia (fun u => { u with
        relocs := u.relocs.filter (fun x => decide (x ≠ r)),
        refresh := u.refresh.filter (fun x => !(x.1 = d && x.2.1 = r.src)), journal := u.journal + 1 }) s)

/-! ## Lost dies and Rebuild (R353–R355) -/

/-- Move a namespace's commitment on a group, one skein at a time, to the uncommitted skeins of other groups of its
class die set; what cannot move stays (R353). -/
def moveCommit (ns g : Nat) : Nat → State → State
  | 0, s => s
  | n + 1, s =>
    match nsOf s ns with
    | none => s
    | some x =>
      match mostFree s ((classGroups s x.cls.toNat).filter (· ≠ g)) with
      | none => s
      | some h =>
        moveCommit ns g n (modNs ns (fun x => { x with
          commit := mmod 0 h (· + 1) (mmod 0 g (· - 1) x.commit) }) s)

/-- A group is degraded from now on (R353). -/
def degradeGroup (g : Nat) (s : State) : State :=
  if (grpOf s g).degraded then s
  else
    let s := modGrp g (fun y => { y with degraded := true }) s
    let s := s.media.nss.foldl (fun s e =>
      match e.2 with | none => s | some x => moveCommit e.1 g (mget 0 x.commit g) s) s
    (modMedia (fun u => { u with zones := mmapv {} (fun z => if z.group = g && z.skeins ≠ [] then { z with degraded := true } else z) u.zones }) s)

/-- The bound members, pool members and parked rows a die holds (R354). -/
def boundOn (s : State) (d : Nat) : Nat :=
  (blockUnits.filter (fun b => blockState s d b = 4 || blockState s d b = 5)).length

/-- Enter Rebuild for a lost die that held zone data: not while mode 9 is active (R218, R354). DEDUCED, log entry 163. -/
def wantRebuild (s : State) : State :=
  let s := modMedia (fun u => { u with rebuild := true }) s
  if s.reel.deck = 9 then s else deviceRequest 5 false (modReel (fun u => { u with condRebuild := true }) s)

/-- Every block unit of a die passes to Lost (R368). -/
def loseBlocks (d : Nat) (s : State) : State :=
  modDie d (fun x => { x with op := none }) (blockUnits.foldl (fun s b => setBlockState d b 12 s) s)

/-- The inventory changed: the verdict and the staged-write limit are taken anew (R163, R631). -/
def inventoryChanged (s : State) : State :=
  modStore (fun u => { u with inv := u.inv + 1 }) (modPwr (fun u => { u with recompute := true }) s)

/-- A die is lost (R353, R354, R405): its block units are Lost, its group is degraded, and Rebuild is requested when it
held a bound member, pool data or a parked row. Event 0x0943. -/
def dieLost (d : Nat) (s : State) : State :=
  match groupOfDie s d with
  | none => inventoryChanged (modDie d (fun x => { x with op := none }) s)
  | some g =>
    let n := (blockUnits.filter (fun b => blockState s d b = 4)).length
    let held := boundOn s d
    let s := degradeGroup g (loseBlocks d s)
    let s := event 0x0943 [w32 (d / 16), w32 (d % 16), w32 g, w32 n] s
    let s := inventoryChanged (modMedia (fun u => { u with lastDie := d }) s)
    if held = 0 then s else wantRebuild s

/-! ## Relocation, refresh and checkpoint rows -/

/-- REFRESH_AGE_EXPIRY (R356): the data of a block unit is older than 90 days. -/
def execRefreshAgeExpiry (d : BitVec 11) (b : BitVec 11) (s : State) : Out :=
  let st := blockState s d.toNat b.toNat
  if st = 4 || st = 5 then .next (queueRefresh d.toNat b.toNat s) else .next s

/-- The tables are written to the system region and the journal starts again (R371). -/
def tableCheckpoint (s : State) : State := modMedia (fun u => { u with journal := 0, ckptHank := s.reel.hanks }) s

/-- TABLE_CHECKPOINT (R371): not in Hold, where no flash program starts (R202). -/
def execTableCheckpoint (s : State) : Out := if inHold s then .next s else .next (tableCheckpoint s)

/-! ## The pSLC pool (R343–R346) -/

/-- The pool skeins of a group. -/
def poolOf (s : State) (g : Nat) : List PoolSkein := s.media.pool.filter (fun p => p.group = g)

/-- P of group g: at most 64, and 16 unbound skeins stay outside the pool (R344). -/
def poolLimit (s : State) (g : Nat) : Nat :=
  let y := grpOf s g
  let bound := y.used.length - (poolOf s g).length
  min 64 ((1984 - y.dissolved.length - bound) - 16)

/-- The pool of a group can take one more skein (R344, R353). -/
def poolGrows (s : State) (g : Nat) : Bool :=
  !(grpOf s g).degraded && decide ((poolOf s g).length < poolLimit s g) && decide (freeSkeins s g ≠ [])

/-- The pool skein of a class in a group that has room for `n` plies more, while the pool holds no surplus (R344). Which skein of the pool takes
a class's plies is the model's choice, log entry 148. -/
def poolWith (s : State) (g cls n : Nat) : Option PoolSkein :=
  if (grpOf s g).degraded || poolLimit s g < (poolOf s g).length then none
  else (poolOf s g).find? (fun p => p.cls.toNat = cls && decide (p.plies + n ≤ 2048))

/-- The pool of a group has room for `n` plies of a class (R340, R345). -/
def poolRoom (s : State) (g cls n : Nat) : Bool := (poolWith s g cls n).isSome || (decide (n ≤ 2048) && poolGrows s g)

/-- Change a pool skein. -/
def modPool (g k : Nat) (f : PoolSkein → PoolSkein) (s : State) : State :=
  modMedia (fun u => { u with pool := u.pool.map (fun p => if p.group = g && p.skein = k then f p else p) }) s

/-- The owner index of a pool skein's members: above every zone and reclaim-unit key. -/
def poolKey (g k : Nat) : Nat := 2 ^ 61 + g * 2048 + k

/-- Take a new pool skein in a group for a class, if the pool has room (R343, R344, R353). -/
def addPool (g cls : Nat) (s : State) : Option State :=
  if !poolGrows s g then none
  else
    match (freeSkeins s g).head? with
    | none => none
    | some k =>
      let s := modGrp g (fun y => { y with used := y.used ++ [k] }) s
      let s := (groupDies s g).foldl (fun s d =>
        modBlock d (memberOf s d k) (fun e => { e with state := 5, pslc := true, zone := some (poolKey g k) }) s) s
      some (modMedia (fun u => { u with pool := u.pool ++ [{ group := g, skein := k, cls := BitVec.ofNat 8 cls }] }) s)

/-- `n` plies of the pool of a group for a class: the pool skein and the first ply, in one that has room or in a new one (R343, R345). -/
def takePlies (g cls n : Nat) (s : State) : Option (Nat × Nat × State) :=
  match poolWith s g cls n with
  | some p => some (p.skein, p.plies, modPool g p.skein (fun q => { q with plies := q.plies + n }) s)
  | none =>
    match addPool g cls s with
    | none => none
    | some t => (poolWith t g cls n).map (fun p => (p.skein, p.plies, modPool g p.skein (fun q => { q with plies := q.plies + n }) t))

/-- What is left of a run of a pool skein when the offsets `lo` to `hi` of its zone are served from elsewhere. -/
def cutExt (n key lo hi : Nat) (x : PoolExt) : List PoolExt :=
  if x.key ≠ key || hi ≤ x.from_ || x.from_ + x.cnt ≤ lo then [x]
  else
    (if x.from_ < lo then [{ x with cnt := lo - x.from_ }] else []) ++
    (if hi < x.from_ + x.cnt then
      [{ x with from_ := hi, cnt := x.from_ + x.cnt - hi, ply := x.ply + (hi - x.from_) / plyLbas n }] else [])

/-- A row in programming that goes to a pool skein. -/
def poolBusy (s : State) (p : PoolSkein) : Bool :=
  s.media.rows.any (fun r => match r.pool with | some (g, k, _) => g = p.group && k = p.skein | none => false)

/-- A pool skein with no live data and no row on its way is erased under R336 and leaves the pool (R346). -/
def dropEmptyPool (s : State) : State :=
  let gone := s.media.pool.filter (fun p => p.exts = [] && !poolBusy s p)
  let s := gone.foldl (fun s p => eraseSkein p.group p.skein p.cls.toNat s) s
  modMedia (fun u => { u with pool := u.pool.filter (fun p => !gone.contains p) }) s

/-- The offsets `lo` to `hi` of a zone or reclaim unit are no longer served from the pool. -/
def cutPool (key lo hi : Nat) (s : State) : State :=
  modMedia (fun u => { u with pool := u.pool.map (fun p =>
    { p with exts := (p.exts.map (cutExt (groupDies s p.group).length key lo hi)).flatten }) }) s

/-- A run of LBAs is live in a pool skein from now on, in place of what the pool held of them. -/
def putExt (g k : Nat) (x : PoolExt) (s : State) : State :=
  modPool g k (fun p => { p with exts := p.exts ++ [x] }) (cutPool x.key x.from_ (x.from_ + x.cnt) s)

/-- The pool skein and the LBA offset within it that serve an offset of a zone or reclaim unit (R346). -/
def poolAt (s : State) (key o : Nat) : Option (PoolSkein × Nat) :=
  s.media.pool.findSome? (fun p =>
    (p.exts.find? (fun x => x.key = key && decide (x.from_ ≤ o) && decide (o < x.from_ + x.cnt))).map (fun x =>
      (p, x.ply * plyLbas (groupDies s p.group).length + (o - x.from_))))

/-- The deck the device runs designates a class's writes to the pool (R345). -/
def toPool (s : State) (cls : Nat) : Bool :=
  match s.store.running with
  | none => false
  | some im => (mget [] im.pool s.reel.deck.toNat).contains cls

/-! ## Flexible Data Placement (R347–R350) -/

/-- A reclaim unit. -/
def ruOf (s : State) (k : Nat) : Ru := mget {} s.media.rus k
/-- Change a reclaim unit. -/
def modRu (k : Nat) (f : Ru → Ru) (s : State) : State := modMedia (fun u => { u with rus := mmod {} k f u.rus }) s

/-- The open reclaim unit of a handle, for host writes or for reclaim copies (R347). -/
def openRu (s : State) (n : BitVec 32) (h : Nat) (copy : Bool) : Option Nat :=
  (s.media.rus.find? (fun e => e.2.nsid = n && e.2.handle = h && e.2.copy = copy && !e.2.full && !e.2.map)).map (·.1)

/-- Bind a new reclaim unit for a handle (R347, R349); none where no committed free skein is left. The owner index of a
reclaim unit's blocks is its key above all zone keys. -/
def bindRu (n : BitVec 32) (h : Nat) (copy : Bool) (s : State) : Option State :=
  match nsOf s n.toNat with
  | none => none
  | some x =>
    match bindGroup s x 1 (classGroups s x.cls.toNat) with
    | none => none
    | some g =>
      let k := s.media.nextRu
      let (ks, s) := takeSkeins n.toNat g 1 (2 ^ 60 + k) s
      let s := modRu k (fun _ => { nsid := n, handle := h, group := g, skein := ks.headD 0, copy := copy }) s
      some (modMedia (fun u => { u with nextRu := k + 1, binding := u.binding + 1 }) s)

/-- The raw size of a reclaim unit in LBAs (R347). -/
def ruLbas (s : State) (r : Ru) : Nat := skeinZcap (groupDies s r.group).length

/-- The full reclaim unit of a handle with the fewest valid LBAs, one that is not wholly valid (R350). -/
def victimOf (s : State) (n : BitVec 32) (h : Nat) : Option (Nat × Ru) :=
  (s.media.rus.filter (fun e => e.2.nsid = n && e.2.handle = h && e.2.full && !e.2.map && decide (e.2.valid < ruLbas s e.2))).foldl
    (fun m e => match m with | none => some e | some b => if e.2.valid < b.2.valid then some e else some b) none

/-- The free committed skeins of a namespace. -/
def freeCommitted (s : State) (x : Ns) : Nat :=
  (List.range (imgGroups s).length).foldl (fun n g => n + min (unboundCommit x g) (freeSkeins s g).length) 0

/-! ## Map pages (R349) -/

/-- The map pages of a namespace whose entries have changed since they were written, 4,096 LBAs to a page. DESIGN CHOICE, log entry 189. -/
def mapStale (x : Ns) : List Nat :=
  ((((x.map ++ x.saved).map (·.1)).filter (fun l => mget 0 x.map l ≠ mget 0 x.saved l)).map (· / 4096)).eraseDups

/-- The map reclaim unit of a namespace that has room for a page, one bound for it where there is none. -/
def mapUnit (n : Nat) (s : State) : Option (Nat × State) :=
  let nsid : BitVec 32 := BitVec.ofNat 32 n
  match s.media.rus.find? (fun e => e.2.nsid = nsid && e.2.map && !e.2.full) with
  | some e => some (e.1, s)
  | none =>
    let k := s.media.nextRu
    (bindRu nsid 0 true s).map (fun s => (k, modRu k (fun r => { r with map := true }) s))

/-- Map page `p` of a namespace is written to its map reclaim unit, a page of four codewords, and its place recorded (R349). -/
def writeMapPage (n : Nat) (s : State) (p : Nat) : State :=
  match mapUnit n s with
  | none => s
  | some (k, s) =>
    let wp := (ruOf s k).wp
    let s := modRu k (fun r => { r with wp := wp + 4, full := decide (ruLbas s r < wp + 8) }) s
    modNs n (fun x => { x with
      mapPages := mset 0 p (k * 2 ^ 32 + wp + 1) x.mapPages
      saved := x.saved.filter (fun e => e.1 / 4096 ≠ p) ++ x.map.filter (fun e => e.1 / 4096 = p) }) s

/-- Map reclaim units that hold no map page in force are unbound (R336). -/
def dropMapUnits (n : Nat) (x : Ns) (s : State) : State :=
  let gone := s.media.rus.filter (fun e => e.2.nsid.toNat = n && e.2.map && e.2.full && !x.mapPages.any (fun p => (p.2 - 1) / 2 ^ 32 = e.1))
  gone.foldl (fun s e => modMedia (fun u => { u with rus := mdel e.1 u.rus }) (unbindSkeins n e.2.group [e.2.skein] x.cls.toNat s)) s

/-- The maps of the FDP namespaces are persisted (R349). When is the firmware's choice: with the periodic checkpoint. DESIGN CHOICE, log entry
189. -/
def saveMaps (s : State) : State :=
  s.media.nss.foldl (fun s e => match e.2 with
    | none => s
    | some x =>
      if !x.fdp then s
      else
        let s := (mapStale x).foldl (writeMapPage e.1) s
        dropMapUnits e.1 ((nsOf s e.1).getD x) s) s

/-! ## Reads of a page (R356, R359) -/

/-- Count a page read of a block unit; at 50,000 a refresh is queued (R356). -/
def countRead (d b : Nat) (s : State) : State :=
  let s := modBlock d b (fun e => { e with reads := satInc e.reads }) s
  if 50000 ≤ (blockOf s d b).reads.toNat && (blockState s d b = 4 || blockState s d b = 5) then queueRefresh d b s else s

/-- A reconstruction is recorded in the block table and a refresh queued (R351). -/
def noteReconstruction (d b : Nat) (s : State) : State :=
  queueRefresh d b (modBlock d b (fun e => { e with recon := true, recons := satInc e.recons }) s)

end Sys2Proof.Machine
end

