-- ==== Sys2Proof/Machine/Piers.lean ====
section
/-! DEFINITION. The piers: bring-up and fencing of a channel, lost dies, overruns, the reads of a place from its
suspend point to its item on PIN, recovery and soft decode, program and erase outcomes, and die temperatures
(chapter 9). -/

namespace Sys2Proof.Machine

/-! ## A channel's registers (R408–R410) -/

/-- PIER_STAT of a channel (R408). -/
def pierStat (c : Chan) : BitVec 32 :=
  fld c.state 30 ||| fld c.cause 26 ||| fld c.iface 24 ||| fld c.rate 20 ||| fld c.slewUsed 18 ||| fld c.found 0

/-- PIER_PIN of a channel (R409). -/
def pierPin (c : Chan) : BitVec 32 := fld c.pinKind 28 ||| fld c.pinA 16 ||| fld c.pinB 8

/-- PIER_SKEW0 (k = 0) and PIER_SKEW1 (k = 1) of a channel (R410). -/
def pierSkew (c : Chan) (k : Nat) : BitVec 32 :=
  fld (mget 0 c.skew (4 * k)) 0 ||| fld (mget 0 c.skew (4 * k + 1)) 8 ||| fld (mget 0 c.skew (4 * k + 2)) 16 |||
    fld (mget 0 c.skew (4 * k + 3)) 24

/-- PIER_SKEW2 of a channel (R410). -/
def pierSkew2 (c : Chan) : BitVec 32 := fld c.dqs 0 ||| fld c.re 8 ||| fld c.margin 16

/-- The targets of a channel that count as expected (R383). -/
def expected (c : Chan) : BitVec 16 := if c.tgtExp = 0 then c.found else c.tgtExp

/-- A die is lost, or its channel is fenced. -/
def isLost (s : State) (d : Nat) : Bool := (chan s (d / 16)).state = 3 || bit (chan s (d / 16)).lost (d % 16)

/-! ## Fencing and lost dies (R385, R405) -/

/-- A status unit (R393). -/
def statusUnit (tag : BitVec 32) (code cws retry susp : Nat) (d b p errs : Nat) : BitVec 256 :=
  unitOf (leBytes 4 tag.toNat ++ leBytes 1 code ++ leBytes 1 cws ++ leBytes 1 retry ++ leBytes 1 susp ++ leBytes 2 d ++
    leBytes 2 b ++ leBytes 2 p ++ leBytes 2 errs)

/-- An outcome item waits for its owner's next PIN grant (R396). -/
def outcomeItem (o : DieOp) (code : Nat) (s : State) : State :=
  let x := o.desc
  let item := (x.spindle, x.owner, x.row, statusUnit x.tag code 0 0 o.suspends x.die x.block x.page 0)
  (modPiers (fun u => { u with outcomes := u.outcomes ++ [item] }) s)

/-- The program or erase in flight on a die that is lost ends without success: its owner gets code 9 or 11. DESIGN CHOICE, log entry 191. -/
def lostOp (d : Nat) (s : State) : State :=
  match (dieOf s d).op with
  | none => s
  | some o => outcomeItem o (if o.desc.fn = 2 then 11 else 9) s

/-- Fence a channel with a cause (R385): its registers, event 0x0902 and a Degraded fault, and each of its dies Lost. -/
def fenceChannel (c : Nat) (cause : BitVec 4) (s : State) : State :=
  if (chan s c).state = 3 then s
  else
    let s := modChan c (fun x => { x with state := 3, cause := cause, step := 0, irq := setBit x.irq 0 }) s
    let x := chan s c
    let s := raiseFault 11 2 (eventC 0x0902 2 [w32 c, cause.setWidth 32, pierPin x, x.found.setWidth 32] s)
    let who := expected x ||| x.found
    inventoryChanged ((List.range 16).foldl (fun s t => if bit who t then dieLost (c * 16 + t) (lostOp (c * 16 + t) s) else s) s)

/-- A die has failed and is lost (R405): its bit of PIER_LOST, event 0x0904, a Degraded fault, and R353. Causes: 1 no
ready, 2 reset failed, 3 ID mismatch. -/
def failDie (d : Nat) (cause : Nat) (s : State) : State :=
  if isLost s d then s
  else
    let s := modChan (d / 16) (fun x => { x with lost := setBit x.lost (d % 16), irq := setBit x.irq 1 }) s
    dieLost d (lostOp d (raiseFault 11 2 (eventC 0x0904 2 [w32 (d / 16), w32 (d % 16), w32 cause] s)))

/-- An overrun of a row of R70, or 6 for R403: counted, recorded at most once per target per hank as event 0x0903, and
a Notice fault (R70, R412, R416). DEDUCED, log entry 55. -/
def overrun (d : Nat) (row : Nat) (slot : Nat) (s : State) : State :=
  let c := d / 16
  let t := d % 16
  let told := bit (chan s c).told t
  let s := modChan c (fun x => { x with
      ovrCount := satInc x.ovrCount, ovrCase := BitVec.ofNat 4 row, ovrTgt := BitVec.ofNat 4 t
      told := setBit x.told t, irq := setBit x.irq 3 }) s
  let s := if told then s else eventC 0x0903 1 [w32 c, w32 t, w32 row, w32 slot] s
  raiseFault 10 1 s

/-! ## Bring-up (R381–R388) -/

/-- BRING_UP_START (R381, R407): a write of 1 to PIER_CFG.START begins the pin test, once. -/
def execBringUpStart (c : BitVec 7) (s : State) : Out :=
  if nChannels s ≤ c.toNat then .next s
  else if (chan s c.toNat).state = 0 then .next (modChan c.toNat (fun x => { x with state := 1, step := 1 }) s)
  else .next s

/-- PIN_TEST_COMPLETE (R382): with a fault, PIER_PIN and cause 1; else the targets are reset. -/
def execPinTestComplete (c : BitVec 7) (kind : BitVec 4) (a b : BitVec 8) (s : State) : Out :=
  let x := chan s c.toNat
  if x.state = 1 && x.step = 1 then
    if kind = 0 then .next (modChan c.toNat (fun x => { x with step := 2 }) s)
    else
      .next (fenceChannel c.toNat 1 (modChan c.toNat (fun x => { x with
        pinKind := kind, pinA := a, pinB := if kind = 3 then b else 0 }) s))
  else .next s

/-- The least slew the trained rate needs (R378). -/
def rateSlew (r : BitVec 4) : BitVec 2 := if r = 8 then 3 else if r = 7 || r = 6 then 2 else 1

/-- The larger of PIER_CFG.SLEW and what the rate needs (R378). -/
def useSlew (x : Chan) (r : BitVec 4) : BitVec 2 := if x.slew < rateSlew r then rateSlew r else x.slew

/-- The smaller of two rate codes. -/
def minRate (a b : BitVec 4) : BitVec 4 := if a < b then a else b

/-- The rate training starts at (R376, R384). -/
def startRate (x : Chan) (ext : Bool) (adv : BitVec 4) : BitVec 4 :=
  let loads := if x.loads = 0 then 4 else x.loads.toNat
  let top : BitVec 4 := if ext then (if loads ≤ 2 then 8 else 7) else 5
  minRate top (minRate x.rateMax adv)

/-- TARGET_IDENTIFICATION_COMPLETE (R379, R380, R383, R384). `found` are the targets that answer, `differ` those whose
ID differs from target 0's, `invalid` those with no valid parameter page, `ext` those with the extended-rate flag of a
valid record; the target check fences with cause 2, or the interface and rate are chosen. Block units the dies mark bad
are Factory bad (R362). -/
def execTargetIdentificationComplete (c : BitVec 7) (found differ invalid ext : BitVec 16) (toggle : Bool)
    (ident : BitVec 64) (fig : DieFig) (bad : List (BitVec 4 × BitVec 11)) (s : State) : Out :=
  let x := chan s c.toNat
  if x.state = 1 && x.step = 2 then
    let s := modChan c.toNat (fun x => { x with found := found, toggle := toggle }) s
    let s := (List.range 16).foldl (fun s t =>
      if bit found t then modDie (c.toNat * 16 + t) (fun y => { y with fitted := true, ident := ident, fig := some fig }) s
      else s) s
    let x := chan s c.toNat
    let exp := expected x
    if exp ≠ found || (differ ||| invalid) &&& found ≠ 0 then .next (fenceChannel c.toNat 2 s)
    else
      let s := bad.foldl (fun s e => retireBlock (c.toNat * 16 + e.1.toNat) e.2.toNat 4 s) s
      let isExt := exp ≠ 0 && ext &&& exp = exp
      let r := startRate x isExt fig.maxRate
      .next (modChan c.toNat (fun x => { x with
        step := 4, tryRate := r, iface := if isExt && 6 ≤ r.toNat then 3 else if toggle then 2 else 1 }) s)
  else .next s

/-- The deskew centres of DQ0 to DQ7, six bits each. -/
def putSkew (centres : BitVec 48) (x : Chan) : Chan :=
  { x with skew := (List.range 8).foldl (fun m k => mset 0 k ((centres >>> (6 * k)).setWidth 6) m) x.skew }

/-- TRAINING_ATTEMPT_COMPLETE (R384, R387): success ends bring-up with STATE 2 and event 0x0901; a failed attempt
drops one rate code, and failure at rate code 5 or below fences with cause 3. DEDUCED, log entry 192. -/
def execTrainingAttemptComplete (c : BitVec 7) (ok : Bool) (centres : BitVec 48) (dqs re : BitVec 6) (margin : BitVec 8)
    (s : State) : Out :=
  let x := chan s c.toNat
  if x.state = 1 && x.step = 4 then
    let good := ok && (x.iface ≠ 3 || 24 ≤ margin.toNat)
    if good then
      let s := modChan c.toNat (fun x => putSkew centres { x with
        state := 2, step := 5, rate := x.tryRate, slewUsed := useSlew x x.tryRate, dqs := dqs, re := re,
        margin := margin, irq := setBit x.irq 8 }) s
      let x := chan s c.toNat
      .next (inventoryChanged (event 0x0901 [c.setWidth 32, pierStat x, pierSkew2 x] s))
    else if x.tryRate.toNat ≤ 5 then .next (fenceChannel c.toNat 3 s)
    else
      .next (modChan c.toNat (fun x => { x with
        tryRate := x.tryRate - 1
        iface := if x.iface = 3 && x.tryRate.toNat ≤ 6 then (if x.toggle then 2 else 1) else x.iface }) s)
  else .next s

/-- CHANNEL_FENCE (R386, R407): a write of 1 to PIER_CFG.FENCE fences the channel with cause 5. -/
def execChannelFence (c : BitVec 7) (s : State) : Out :=
  if nChannels s ≤ c.toNat then .next s else .next (fenceChannel c.toNat 5 s)

/-- A housekeeping transfer slot of a channel (R388). -/
def houseSlot (e : SlotEntry) : Bool := e.typ = 5 && e.kind = 2 && e.owner = 0x100

/-- A housekeeping transfer unit of a channel runs (R388). -/
def houseTransfer (s : State) (c : Nat) : Bool := s.reel.grants.any (fun g => grantRuns s g && houseSlot g.slot && grantRes g = c)

/-- A housekeeping transfer of a channel begins: it joins the run that ends where it begins, or begins another (R388). -/
def noteHouse (g : Grant) (s : State) : State :=
  if houseSlot g.slot then
    modChan (grantRes g) (fun x => { x with
      houseFrom := if x.houseEnd = g.since then x.houseFrom else g.since, houseEnd := g.since + g.slot.len }) s
  else s

/-- The cycles of housekeeping transfers of a channel that follow one another from core cycle `t` on; fuel bounds the transfers. -/
def houseAhead (s : State) (c : Nat) : Nat → Nat → Nat
  | 0, _ => 0
  | f + 1, t =>
    match s.reel.tt.slots.find? (fun e => houseSlot e && (replicas e).any (fun r => slotRes e r.1 r.2 = c && startFrom s e r.1 r.2 t = some t)) with
    | none => 0
    | some e => e.len + houseAhead s c f (t + e.len)

/-- The receive sweep of a channel may be repeated now: in a run of housekeeping transfers of 4,096 cycles or more, and once in every 1,024 hanks
(R388). -/
def sweepDue (s : State) (c : Nat) : Bool :=
  let x := chan s c
  houseTransfer s c && x.swept ≠ s.reel.hanks.toNat / 1024 + 1 && decide (4096 ≤ x.houseEnd + houseAhead s c 4 x.houseEnd - x.houseFrom)

/-- DESKEW_CHECK (R388): in a run of the channel's housekeeping transfer units, the receive sweep on target 0 finds the narrowest window and whether
a pin drifted 4 steps or more; it is repeated once in every 1,024 hanks. -/
def execDeskewCheck (c : BitVec 7) (margin : BitVec 8) (drift : Bool) (centres : BitVec 48) (s : State) : Out :=
  let x := chan s c.toNat
  if x.state = 2 && x.iface = 3 && sweepDue s c.toNat then
    let before := pierSkew2 x
    let n := s.reel.hanks.toNat / 1024 + 1
    let s := modChan c.toNat (fun x => { x with margin := margin, swept := n }) s
    if margin.toNat < 16 then .next (fenceChannel c.toNat 4 s)
    else if drift then
      let s := modChan c.toNat (fun x => putSkew centres { x with irq := setBit x.irq 9 }) s
      .next (event 0x0906 [c.setWidth 32, before, pierSkew2 (chan s c.toNat)] s)
    else .next s
  else .next s

/-- BUS_TIMEOUT (R406): the bus answers no command for 1 ms, or all expected targets fail at once: cause 6. -/
def execBusTimeout (c : BitVec 7) (s : State) : Out :=
  if (chan s c.toNat).state = 2 then .next (fenceChannel c.toNat 6 s) else .next s

/-! ## Items on PIN (R392–R396) -/

/-- The unit numbered k of a plane page as programmed; a page with no such unit reads as a free value. -/
def mediaUnit (d b p k : Nat) (s : State) : BitVec 256 × State :=
  match (mget [] s.piers.data (pageNumber d b p))[k]? with
  | some u => (u, s)
  | none => drawBits s

/-- Several units of a plane page. -/
def mediaUnits (d b p : Nat) : List Nat → State → List (BitVec 256) × State
  | [], s => ([], s)
  | k :: ks, s =>
    let (u, s) := mediaUnit d b p k s
    let (us, s) := mediaUnits d b p ks s
    (u :: us, s)

/-- The units of an item cross to CORE through their channel's queue (R158, R395), and reach a spindle's PIN; a faulted spindle discards them
(R131). `slot` is the slot entry whose work pushes them (R88). -/
def toPin (c slot n : Nat) (f : BitVec 256 → PinUnit) (us : List (BitVec 256)) (s : State) : State :=
  let (us, s) := pushUnits 1 c slot 0 us s
  if (spn s n).state = 3 then s else modSpn n (fun x => { x with pin := x.pin ++ us.map f }) s

/-- Add units of one item to a spindle's PIN. -/
def deliver (c slot n owner cipher item : Nat) (outcome : Bool) (us : List (BitVec 256)) (s : State) : State :=
  toPin c slot n (fun u => { data := u, outcome := outcome, owner := owner, cipher := cipher, item := item }) us s

/-- The number of a read's item: the items of the reads that the keystone posted are kept until it has dealt with them (R82, R392); any other is
numbered 0. -/
def keepItem (d : DieDesc) (code : Nat) (s : State) : Nat × State :=
  if (d.job.isSome || d.recon.isSome) && (spn s d.spindle).state ≠ 3 then
    (s.piers.nextId, modPiers (fun u => { u with items := u.items ++ [{ ident := u.nextId, desc := d, code := code }], nextId := u.nextId + 1 }) s)
  else (0, s)

/-- The media status of a pier's status code (R394). -/
def mediaStatus (code : Nat) : Nat := if code ≤ 2 then 0 else if code = 3 then 1 else if code = 4 then 2 else if code = 5 then 3 else 5

/-- A raw diagnostic read is answered with its media status (R337); a refused one records event 0x0946. -/
def rawAnswer (d : DieDesc) (st : Nat) (s : State) : State :=
  let s := modMedia (fun u => { u with rawDone := mset none d.tag.toNat (some st) u.rawDone }) s
  if st < 2 then s else event 0x0946 [w32 (d.die / 16), w32 (d.die % 16), w32 d.block, w32 st] s

/-- The item of a read reaches PIN of its delivery spindle (R392–R395); a raw diagnostic read is answered (R337). -/
def deliverRead (b : Booking) (code cipher : Nat) (us : List (BitVec 256)) (s : State) : State :=
  let s := if b.desc.fn = 4 then rawAnswer b.desc (mediaStatus code) s else s
  let (k, s) := keepItem b.desc code s
  deliver (b.desc.die / 16) b.entry b.desc.spindle b.desc.owner cipher k false us s

/-- The full item of a read (R392): data units, metadata units where flag bit 1 asks for them, the record unit and the
status unit. -/
def readItem (d : DieDesc) (code retry errs : Nat) (s : State) : List (BitVec 256) × State :=
  let first := (d.cws.setWidth 2).toNat
  let n := descCount d
  let cws := (List.range n).map (first + ·)
  let (data, s) := mediaUnits d.die d.block d.page ((cws.map (fun c => (List.range 128).map (130 * c + ·))).flatten) s
  let (meta_, s) := if bit d.flags 1 then
      mediaUnits d.die d.block d.page ((cws.map (fun c => [130 * c + 128, 130 * c + 129])).flatten) s else ([], s)
  let (rec_, s) := mediaUnit d.die d.block d.page 520 s
  let recs := ((rec_ >>> (64 * first)) &&& (BitVec.ofNat 256 (2 ^ (64 * n) - 1)))
  (data ++ meta_ ++ [recs, statusUnit d.tag code n retry 0 d.die d.block d.page errs], s)

/-- A status-only item of a read (R392). -/
def statusItem (d : DieDesc) (code errs : Nat) : List (BitVec 256) :=
  [statusUnit d.tag code 0 0 0 d.die d.block d.page errs]

/-- The cipher entry of a booking's place. -/
def placeCipher (_s : State) (b : Booking) : Nat := if b.prec.cipher = 0xFFFF then 0xFFFF else slotKey b.prec.cipher b.i b.o

/-! ## Reads of a window (R45, R70, R394, R400–R403) -/

/-- The code that answers a read without touching the die (R394): 5 lost, 4 erase in flight or suspended on the block
unit, 6 program in flight or suspended on the word line. -/
def refusal (s : State) (d : DieDesc) : Option Nat :=
  if isLost s d.die then some 5
  else
    match (dieOf s d.die).op with
    | none => none
    | some o =>
      if o.desc.block ≠ d.block then none
      else if o.desc.fn = 2 then some 4
      else if o.desc.fn = 1 && o.desc.page = d.page / (if bit d.flags 0 then 6 else 24) then some 6
      else none

/-- The bookings on a die whose window has begun and whose sense has not ended. -/
def openBookings (s : State) (d : Nat) : List Booking :=
  s.piers.booked.filter (fun b => b.desc.die = d && b.at_ ≤ s.reel.core && !b.sensed)

/-- The posted reads of a die's window that wait to be issued (R45). -/
def toIssue (s : State) (d : Nat) : List Booking := (openBookings s d).filter (fun b => !b.issued)

/-- Mark the bookings of a die whose window has begun as issued (R45). -/
def issueReads (d : Nat) (s : State) : State :=
  let bs := s.piers.booked.map (fun b => if b.desc.die = d && b.at_ ≤ s.reel.core then { b with issued := true } else b)
  (modPiers (fun u => { u with booked := bs }) s)

/-- Re-post every read of a die whose window has begun and that is not issued, or all of them (R70). -/
def repostOpen (d : Nat) (all : Bool) (s : State) : State :=
  ((openBookings s d).filter (fun b => all || !b.issued)).foldl (fun s b => repostRead b s) s

/-- The slot entry of a die's open window. -/
def openSlot (s : State) (d : Nat) : Nat := ((openBookings s d).head?.map (·.entry)).getD 0xFFFF

/-- The suspended operation of a die resumes (R45). -/
def resumeOp (d : Nat) (s : State) : State := modDie d (fun x => { x with op := x.op.map (fun o => { o with suspended := false }) }) s

/-- SUSPEND_COMPLETE (R45, R70): the die reports ready in time and the posted reads are issued; a late die overruns, and
its reads are issued if the sense can still end by the window's end, else re-posted, and with no sense left in the window the
operation resumes. -/
def execSuspendComplete (d : BitVec 11) (inTime fits : Bool) (s : State) : Out :=
  if openBookings s d.toNat = [] then .next s
  else if inTime then .next (issueReads d.toNat s)
  else
    let s := overrun d.toNat 1 (openSlot s d.toNat) s
    if fits then .next (issueReads d.toNat s) else .next (resumeOp d.toNat (repostOpen d.toNat false s))

/-- The senses of a die's window have ended (R45): its reads await their hard decode. -/
def endSenses (d : Nat) (s : State) : State :=
  let f := fun (b : Booking) => if b.desc.die = d && decide (b.at_ ≤ s.reel.core) && b.issued then { b with sensed := true } else b
  modPiers (fun u => { u with booked := u.booked.map f }) s

/-- SENSE_COMPLETE (R45, R70): the last sense of the window ends and the suspended operation resumes; a sense that had
not ended at the window's end leaves its units idle and the reads are re-posted. -/
def execSenseComplete (d : BitVec 11) (late : Bool) (s : State) : Out :=
  if (openBookings s d.toNat).any (·.issued) then
    let s := if late then repostOpen d.toNat true (overrun d.toNat 2 (openSlot s d.toNat) s) else endSenses d.toNat s
    .next (resumeOp d.toNat s)
  else .next s

/-- The read-retry entry of a page's plane and level (R401): entry 1 if none has been kept. -/
def retryKey (d : DieDesc) : Nat := (d.page % 6) * 4 + (if bit d.flags 0 then 0 else (d.page % 24) / 6)

/-- The entry the pier uses. -/
def retryEntry (s : State) (d : DieDesc) : Nat := mget 0 (dieOf s d.die).retry (retryKey d) + 1

/-- Move to the next entry after a failure (R401). -/
def retryNext (d : DieDesc) (s : State) : State :=
  modDie d.die (fun x => { x with retry := mmod 0 (retryKey d) (· + 1) x.retry }) s

/-- The bookings of the place a booking has. -/
def samePlace (b x : Booking) : Bool := x.entry = b.entry && x.i = b.i && x.o = b.o && x.place = b.place && x.at_ = b.at_

/-- Post the recovery of a failed read to its owner's next recovery place on the die that no recovery holds, displacing a booked read, which
is re-posted without its tier bound (R46, R82, R390). A recovery that finds the first such place taken by another is served without a bound
(R81). Where the deck has no such place it waits in its class queue as a recovery. `unb`: the read has already lost its bound. -/
def postRecovery (unb : Bool) (d : DieDesc) (s : State) : State :=
  let d := { d with flags := setBit d.flags 2, recov := true }
  let ok := fun (r : PlaceRec) => r.recovery && r.plane = descPlane d
  match earliest (placesFor (·.recovery) s d.owner d.die ok) with
  | none => modPiers (fun u => { u with ops := u.ops ++ [d] }) (if unb then s else countUnbound d s)
  | some b =>
    let first := earliest (placesFor (fun _ => false) s d.owner d.die ok)
    let taken := decide (first.map (·.at_) ≠ some b.at_)
    let s := if taken && !unb then countUnbound d s else s
    let out := s.piers.booked.filter (samePlace b)
    let s := modPiers (fun u => { u with booked := u.booked.filter (fun x => !samePlace b x) ++
      [{ b with desc := d, unbound := unb || taken, recovery := true }] }) s
    out.foldl (fun s x => bookAgain x s) s

/-- The booking a place's ready time concerns: of those of the die and plane whose windows have begun, the one of the earliest window. -/
def readyBooking (s : State) (d pl : Nat) : Option Booking :=
  earliest (s.piers.booked.filter (fun b => b.desc.die = d && b.at_ ≤ s.reel.core && descPlane b.desc = pl))

/-- A place's ready time (R394, R395, R400). A refused read gets its status; a success its item
(code 0, or 1 from a recovery sense); a failure posts the recovery, or passes a recovery to the soft-decode pool. -/
def hardDecoded (d : BitVec 11) (plane : BitVec 3) (ok : Bool) (errs : BitVec 16) (s : State) : State :=
  match readyBooking s d.toNat plane.toNat with
  | none => s
  | some b =>
    let x := b.desc
    let ci := placeCipher s b
    match refusal s x with
    | some code => deliverRead b code ci (statusItem x code 0) (unbook b s)
    | none =>
      if !b.issued then s
      else
        let s := unbook b s
        let s := countRead x.die x.block s
        if ok then
          let entry := retryEntry s x
          let (us, s) := readItem x (if b.recovery then 1 else 0) (if b.recovery then entry else 0) errs.toNat s
          deliverRead b (if b.recovery then 1 else 0) ci us s
        else
          let s := modChan (x.die / 16) (fun c => { c with hfail := satInc c.hfail }) s
          if b.recovery then
            modPiers (fun u => { u with soft := u.soft ++ [b] }) s
          else postRecovery b.unbound x s

/-- The owner's index of a skein of a group: that of any of its members which has one (R367). -/
def skeinOwner (s : State) (g k : Nat) : Option Nat := (groupDies s g).findSome? (fun d => (blockOf s d (memberOf s d k)).zone)

/-- A member cannot be read: its die is lost, or it failed and nothing replaces it (R83, R364, R365). -/
def memberDown (s : State) (d b : Nat) : Bool :=
  isLost s d || (blockState s d b = 10 && (blockOf s d b).zone.isSome && !s.media.relocs.any (fun r => r.die = d && r.src = b))

/-- The four places of a data page, as (key of the zone or reclaim unit, offset in it) (R332, R345): of a pool skein's page what its runs hold,
of another that of its block unit's owner. -/
def flashPlaces (s : State) (d b p : Nat) : List (Nat × Nat) :=
  match groupOfDie s d, skeinOf s d b with
  | some g, some k =>
    let ds := groupDies s g
    match ds.findIdx? (· = d) with
    | none => []
    | some pos =>
      if pos = p % ds.length then []
      else
        let base := p * plyLbas ds.length + (if pos < p % ds.length then pos else pos - 1) * 4
        let qs := (List.range 4).map (base + ·)
        match s.media.pool.find? (fun x => x.group = g && x.skein = k), skeinOwner s g k with
        | some x, _ => qs.filterMap (fun q => x.exts.findSome? (fun e =>
            let o := e.ply * plyLbas ds.length
            if o ≤ q ∧ q < o + e.cnt then some (e.key, e.from_ + (q - o)) else none))
        | none, some key =>
          if key < 2 ^ 59 then
            let sk := ((zoneOf s (BitVec.ofNat 32 (key / 2 ^ 20)) (key % 2 ^ 20)).skeins.findIdx? (· = k)).getD 0
            qs.map (fun q => (key, sk * skeinZcap ds.length + q))
          else qs.map (fun q => (key, q))
        | none, none => []
  | _, _ => []

/-- The same, with a page that the pool holds for a member on its way through it given as that member's (R357). -/
def pagePlaces (s : State) (d b p : Nat) : List (Nat × Nat) :=
  ((flashPlaces s d b p).map (fun x =>
    if x.1 < 2 ^ 62 then [x]
    else
      let l := flashPlaces s ((x.1 - 2 ^ 62) / 2048) ((x.1 - 2 ^ 62) % 2048) (x.2 / 4)
      (l.drop (x.2 % 4)).take 1)).flatten

/-- The LBA at a place can no longer be read (R352): in a zone its offset is poisoned, in a reclaim unit what the map has there. -/
def poisonPlace (s : State) (x : Nat × Nat) : State :=
  if x.1 < 2 ^ 59 then modZone (BitVec.ofNat 32 (x.1 / 2 ^ 20)) (x.1 % 2 ^ 20) (fun e => { e with poisoned := true, poison := e.poison ++ [(x.2, 1)] }) s
  else
    let n := (ruOf s (x.1 - 2 ^ 60)).nsid
    let l := ((nsOf s n.toNat).map (fun y => y.map.filter (fun e => e.2 = (x.1 - 2 ^ 60) * 2 ^ 32 + x.2 + 1))).getD []
    modMedia (fun u => { u with poisonLbas := u.poisonLbas ++ l.map (fun e => (n.toNat, e.1, 1)) }) s

/-- The codewords of a page are unrecoverable (R352). -/
def poisonPage (d b p : Nat) (s : State) : State :=
  (pagePlaces s d b p).foldl poisonPlace (modBlock d b (fun e => { e with poisoned := true }) s)

/-- A ply cannot be reconstructed (R352): event 0x0945, and the LBAs of the page are marked poisoned. -/
def plyLost (d b p : Nat) (s : State) : State :=
  let s := event 0x0945 [w32 (d / 16), w32 (d % 16), w32 b, w32 p] s
  poisonPage d b p (modMedia (fun u => { u with unrecov := true }) s)

/-- The pier of a soft-decode engine and of a die (R54): pier A has engines 0–7 and channels 0–63. -/
def enginePier (r : Nat) : Nat := r / 8
/-- The pier of a die. -/
def diePier (d : Nat) : Nat := d / 1024

/-- A pool slot of engine `r` starts for an owner (R42, R54, R402): the owner's oldest recovery held on that pier is given to the engine, for
the length of the slot. -/
def poolStart (r owner end_ : Nat) (s : State) : State :=
  if (mget none s.piers.engines r).isSome then s
  else match s.piers.soft.find? (fun b => b.desc.owner = owner && diePier b.desc.die = enginePier r) with
    | none => s
    | some b => modPiers (fun u => { u with soft := u.soft.erase b, engines := mset none r (some { b with at_ := end_ }) u.engines }) s

/-- The recovery that a soft-decode engine works on, by die and plane, with its engine. -/
def softEngine (s : State) (d : BitVec 11) (plane : BitVec 3) : Option (Nat × Booking) :=
  s.piers.engines.findSome? (fun e => match e.2 with
    | some b => if b.desc.die = d.toNat && descPlane b.desc = plane.toNat then some (e.1, b) else none
    | none => none)

/-- The recovery that a soft-decode engine works on, by die and plane. -/
def softBooking (s : State) (d : BitVec 11) (plane : BitVec 3) : Option Booking := (softEngine s d plane).map (·.2)

/-- An engine of the pool is free again. -/
def freeEngine (r : Nat) (s : State) : State := modPiers (fun u => { u with engines := mset none r none u.engines }) s

/-- A soft-decoded item waits on PIN for the first cipher slot of its owner that begins at least 88 cycles after the pool slot's end
(R402). -/
def deliverSoft (b : Booking) (code : Nat) (us : List (BitVec 256)) (s : State) : State :=
  let s := if b.desc.fn = 4 then rawAnswer b.desc (mediaStatus code) s else s
  let (k, s) := keepItem b.desc code s
  toPin (b.desc.die / 16) b.entry b.desc.spindle (fun u => { data := u, owner := b.desc.owner, from_ := b.at_ + 88, item := k }) us s

/-- A soft-decode engine ends (R82, R402, R411). Success is code 2; at the iteration cap the item is code 3 and an overrun of row 5 of R70. -/
def softDecoded (d : BitVec 11) (plane : BitVec 3) (ok : Bool) (errs : BitVec 16) (s : State) : State :=
  match softEngine s d plane with
  | none => s
  | some (r, b) =>
    let x := b.desc
    let s := freeEngine r s
    let s := modBlock x.die x.block (fun e => { e with softs := satInc e.softs }) s
    if ok then
      let entry := retryEntry s x
      let (us, s) := readItem x 2 entry errs.toNat s
      let s := modChan (x.die / 16) (fun c => { c with softOk := satInc c.softOk }) s
      deliverSoft b 2 us s
    else
      let s := retryNext x s
      let s := overrun x.die 5 b.entry s
      let s := modChan (x.die / 16) (fun c => { c with uncorr := satInc c.uncorr, irq := setBit c.irq 4 }) s
      deliverSoft b 3 (statusItem x 3 0xFFFF) s

/-! ## Outcomes of programs and erases (R360, R394, R396, R405) -/

/-- Event 0x0905 and PIER_IRQ.OPFAIL for a failed operation (R414, R416). -/
def opFailed (x : DieDesc) (s : State) : State :=
  let s := modChan (x.die / 16) (fun c => { c with irq := setBit c.irq 2 }) s
  event 0x0905 [w32 (x.die / 16), w32 (x.die % 16), w32 x.block, if x.fn = 2 then 0xFFFF else w32 x.page] s

/-- The relocation whose target a block unit is. -/
def relocOf (s : State) (d b : Nat) : Option Reloc := s.media.relocs.find? (fun r => r.die = d && r.tgt = b)

/-- A program or erase failed: the block unit is retired, or the relocation it was the target of restarts (R361,
R362). -/
def opRetire (x : DieDesc) (s : State) : State :=
  match relocOf s x.die x.block with
  | some r => retargetReloc r s
  | none => retireBlock x.die x.block (if x.fn = 2 then 2 else 1) s

/-- The plane pages of a program: one word line on the planes of its mask, with every level in QLC (R327, R328). -/
def programPages (x : DieDesc) : List Nat :=
  let pslc := bit x.flags 0
  let planes := (List.range 6).filter (fun p => bit x.cws p)
  if pslc then planes.map (fun p => x.page * 6 + p)
  else ((List.range 4).map (fun l => planes.map (fun p => x.page * 24 + l * 6 + p))).flatten

/-- What a program's units become on success: the content of its plane pages (R399). -/
def landPages (x : DieDesc) (s : State) : State :=
  let s := (programPages x).foldl (fun s p =>
    let k := pageNumber x.die x.block p
    let m := mset [] k (mget [] s.piers.data (2 ^ 60 + k)) (mdel (2 ^ 60 + k) s.piers.data)
    (modPiers (fun u => { u with data := m }) s)) s
  let ps := s.piers.planes.filter (fun q => !(q.1 = x.die && q.2.1 = x.block && (programPages x).contains q.2.2.1))
  (modPiers (fun u => { u with planes := ps }) s)

/-- Bits 43:12 of the hank count (R367). -/
def hankStamp (s : State) : BitVec 32 := (s.reel.hanks >>> 12).setWidth 32

/-- The summary of a block unit whose last program unit is programmed (R328). The index is the firmware's (a free value). -/
def summaryOf (d b : Nat) (s : State) : Summary × State :=
  let e := blockOf s d b
  let (w, s) := zoneIndexWord s
  let z := zoneOfBlock s d b
  ({ owner := e.zone, index := w, binding := (z.map (fun k => (zoneOf s k.1 k.2).binding)).getD 0, firstAt := e.progAt }, s)

/-- The last program unit of a block unit has been programmed: its summary pages hold its summary. -/
def noteSummary (x : DieDesc) (s : State) : State :=
  if x.page ≠ 341 then s
  else
    let (m, s) := summaryOf x.die x.block s
    modBlock x.die x.block (fun e => { e with summary := some m }) s

/-- PROGRAM_COMPLETE (R328, R342, R362, R396, R399): the program in flight on a die completes or fails; its outcome item waits
for the owner's next grant. -/
def execProgramComplete (d : BitVec 11) (ok : Bool) (s : State) : Out :=
  match (dieOf s d.toNat).op with
  | none => .next s
  | some o =>
    if o.desc.fn ≠ 1 || o.suspended then .next s
    else
      let x := o.desc
      let s := modDie d.toNat (fun y => { y with op := none }) s
      let s := outcomeItem o (if ok then 8 else 9) s
      if ok then
        let s := landPages x s
        let stamp := hankStamp s
        let t := (mget {} (chan s (x.die / 16)).temps (x.die % 16)).temp
        let n := (programPages x).length
        let s := modBlock x.die x.block (fun e => { e with
          pslc := bit x.flags 0
          progAt := if e.pages = 0 then stamp else e.progAt
          temp := if e.pages = 0 then t else e.temp
          pages := satAdd e.pages n }) s
        let rs := s.media.relocs.map (fun r =>
          if r.die = x.die && r.tgt = x.block then { r with copied := r.copied + n } else r)
        .next (noteSummary x (modMedia (fun u => { u with relocs := rs }) s))
      else .next (opRetire x (opFailed x s))

/-- A wear move on a die (R360): when its most-worn erased block unit exceeds its least-worn bound one by more than 2,000 wear
units, the member of the Full zone longest without a write moves onto that spare. -/
def wearMove (d : Nat) (s : State) : State :=
  let bound := blockUnits.filter (fun b => blockState s d b = 4)
  match mostWorn s d (blockUnits.filter (fun b => blockState s d b = 1 || blockState s d b = 6)), leastWorn s d bound with
  | some m, some l =>
    if (blockOf s d m).wear.toNat - (blockOf s d l).wear.toNat ≤ 2000 then s
    else
      let full := bound.filter (fun b => match zoneOfBlock s d b with
        | some (n, z) => decide ((zoneOf s n z).state = 0xE)
        | none => false)
      let age : Nat → Nat := fun b => match zoneOfBlock s d b with
        | some (n, z) => (zoneOf s n z).lastWrite.toNat
        | none => 0
      match full.foldl (fun (m : Option Nat) b => match m with
          | none => some b
          | some c => if age b < age c then some b else some c) none with
      | none => s
      | some b =>
        if (blockOf s d b).refreshQ then s
        else
          let s := modBlock d b (fun e => { e with refreshQ := true }) s
          (modMedia (fun u => { u with refresh := u.refresh ++ [(d, b, 2)] }) s)
  | _, _ => s

/-- An erased block unit's table entry, before its new state (R360, R367). -/
def erasedEntry (pslc : Bool) (e : Block) : Block :=
  { e with pslc := false, poisoned := false, refreshQ := false, recon := false, relocSrc := false,
           wear := satAdd e.wear (if pslc then 1 else 4), reads := 0, zone := none, softs := 0, recons := 0, pages := 0,
           summary := none }

/-- Where an erased block unit goes (R336, R351, R357, R358): retired if a page of it needed reconstruction, ready as a relocation's target, back
to its reserved role, free as a skein's member, else a spare. -/
def erasedPlace (d b : Nat) (st : Nat) (recon : Bool) (s : State) : State :=
  if recon then (match relocOf s d b with | some r => retargetReloc r s | none => retireBlock d b 3 s)
  else if (relocOf s d b).isSome then setBlockState d b 9 s
  else if st = 7 || st = 8 || st = 9 then setBlockState d b (BitVec.ofNat 4 st) s
  else
    match skeinOf s d b, groupOfDie s d with
    | some k, some g =>
      if (grpOf s g).dissolved.contains k then setBlockState d b 6 s
      else skeinErased g k (setBlockState d b 1 s)
    | _, _ => setBlockState d b 6 s

/-- The content of a block unit is gone. -/
def wipePages (d b : Nat) (s : State) : State :=
  modPiers (fun u => { u with data := u.data.filter (fun e => !(e.1 / 8208 = d * 2048 + b)) }) s

/-- ERASE_COMPLETE (R336, R351, R360, R362, R394): the erase in flight on a die completes or fails; its outcome item waits
for the owner's next grant. -/
def execEraseComplete (d : BitVec 11) (ok : Bool) (s : State) : Out :=
  match (dieOf s d.toNat).op with
  | none => .next s
  | some o =>
    if o.desc.fn ≠ 2 || o.suspended then .next s
    else
      let x := o.desc
      let s := modDie d.toNat (fun y => { y with op := none }) s
      let s := outcomeItem o (if ok then 10 else 11) s
      let s := modMedia (fun u => { u with erases := u.erases.filter (fun e => !(e.1 = x.die && e.2.1 = x.block)) }) s
      if ok then
        let e := blockOf s x.die x.block
        let st := blockState s x.die x.block
        let s := modBlock x.die x.block (erasedEntry (e.pslc || st = 7 || st = 8)) (wipePages x.die x.block s)
        .next (wearMove x.die (erasedPlace x.die x.block st e.recon s))
      else .next (opRetire x (opFailed x s))

/-! ## Failures at run time and temperatures (R404, R405) -/

/-- DIE_READY_TIMEOUT (R405): a die with an operation in flight is not ready within twice the maximum; the pier resets it
in its next housekeeping window. -/
def execDieReadyTimeout (d : BitVec 11) (s : State) : Out :=
  if (dieOf s d.toNat).op.isSome && !isLost s d.toNat then .next (modDie d.toNat (fun x => { x with reset := true }) s)
  else .next s

/-- The operation in flight on a die is reported as failed (R405). -/
def failOp (d : Nat) (s : State) : State :=
  match (dieOf s d).op with
  | none => s
  | some o =>
    let s := modDie d (fun y => { y with op := none }) s
    let s := outcomeItem o (if o.desc.fn = 2 then 11 else 9) s
    opRetire o.desc (opFailed o.desc s)

/-- DIE_RESET_COMPLETE (R405): of a reset issued in a housekeeping window, 0 the reset and the ID read succeed and the die stays in use; 1 no ready, 2 reset failed,
3 ID mismatch, and the die is lost. -/
def execDieResetComplete (d : BitVec 11) (result : BitVec 2) (s : State) : Out :=
  if (dieOf s d.toNat).resetting && !isLost s d.toNat then
    let s := modDie d.toNat (fun x => { x with reset := false, resetting := false }) s
    if result = 0 then .next (failOp d.toNat s) else .next (failDie d.toNat result.toNat s)
  else .next s

/-- DIE_ID_CHECK (R405): a die whose Read ID no longer matches the one found at bring-up is lost. -/
def execDieIdCheck (d : BitVec 11) (ident : BitVec 64) (s : State) : Out :=
  let x := dieOf s d.toNat
  if x.fitted && (chan s (d.toNat / 16)).state = 2 && ident ≠ x.ident then .next (failDie d.toNat 3 s) else .next s

/-- Queue the refresh of every block unit of a die whose temperature moved more than 40 °C since it was programmed
(R356). -/
def refreshByTemp (d : Nat) (t : BitVec 8) (s : State) : State :=
  blockUnits.foldl (fun s b =>
    let e := blockOf s d b
    let delta := degC t - degC e.temp
    if e.pages ≠ 0 && (blockState s d b = 4 || blockState s d b = 5) && (40 < delta || delta < -40) then queueRefresh d b s
    else s) s

/-- TEMPERATURE_READ_COMPLETE (R404): the temperature of a die whose read began in a housekeeping window (R42, R391) reaches PIER_TEMP and
thermal management. -/
def execTemperatureReadComplete (d : BitVec 11) (t : BitVec 8) (s : State) : Out :=
  if (dieOf s d.toNat).fitted && !isLost s d.toNat && (dieOf s d.toNat).reading then
    let s := modDie d.toNat (fun x => { x with reading := false })
      (modPiers (fun u => { u with ops := u.ops.filter (fun x => !(x.fn = 3 && x.die = d.toNat)) }) s)
    .next (refreshByTemp d.toNat t (flashReading d.toNat t s))
  else .next s

end Sys2Proof.Machine
end

