-- ==== Sys2Proof/Machine/Seal.lean ====
section
/-! DEFINITION. From staging to flash: the codewords of a row as ciphertext, the parity of its plies, the programs of its pages, and the copies
that move ciphertext unchanged (R332, R338, R339, R342, R346, R350, R355, R358, R397, R398, R440–R442). -/

namespace Sys2Proof.Machine

/-- The XOR of two lists of units. -/
def xorUnits (a b : List (BitVec 256)) : List (BitVec 256) := List.zipWith (· ^^^ ·) a b

/-! ## Plane pages (R397, R398) -/

/-- A plane page of 521 units, all zeros where nothing is listed. -/
def wholePage (l : List (BitVec 256)) : List (BitVec 256) := if l = [] then List.replicate 521 0 else l

/-- Change a plane page: on flash (`base` 0), or as program data that the pier has received (2^60). -/
def modPage (base d b p : Nat) (f : List (BitVec 256) → List (BitVec 256)) (s : State) : State :=
  modPiers (fun u => { u with data := mset [] (base + pageNumber d b p) (f (wholePage (mget [] u.data (base + pageNumber d b p)))) u.data }) s

/-- Put the 130 units of codeword `cw` into a page. -/
def putCw (cw : Nat) (us page : List (BitVec 256)) : List (BitVec 256) := page.take (130 * cw) ++ us ++ page.drop (130 * cw + 130)

/-- The 130 units of codeword `cw` of a page. -/
def cwOf (cw : Nat) (page : List (BitVec 256)) : List (BitVec 256) := (page.drop (130 * cw)).take 130

/-- Put the 8-byte page record of codeword `cw` into a page's record unit (R397). -/
def putCwRecord (cw : Nat) (r : BitVec 64) (page : List (BitVec 256)) : List (BitVec 256) :=
  let clear : BitVec 256 := ~~~ ((BitVec.allOnes 64).setWidth 256 <<< (64 * cw))
  page.take 520 ++ [((page.getD 520 0) &&& clear) ||| (r.setWidth 256 <<< (64 * cw))]

/-- The die position of data page `i` of ply `p` in a group of `n` dies (R332). -/
def dataPos (n p i : Nat) : Nat := if i < p % n then i else i + 1

/-- A codeword of skein `k` of a group is written at data page `i` of ply `p`, and the ply's parity page follows it (R332). -/
def putCodeword (base g k p i cw : Nat) (us : List (BitVec 256)) (r : BitVec 64) (s : State) : State :=
  let ds := groupDies s g
  let n := ds.length
  let d := ds.getD (dataPos n p i) 0
  let q := ds.getD (p % n) 0
  let b := memberOf s d k
  let old := cwOf cw (wholePage (mget [] s.piers.data (base + pageNumber d b p)))
  let s := modPage base d b p (fun l => putCwRecord cw r (putCw cw us l)) s
  modPage base q (memberOf s q k) p (fun l => putCw cw (xorUnits (cwOf cw l) (xorUnits old us)) l) s

/-- Where an LBA offset of a skein lies: ply, data page and codeword (R332). -/
def plyPlace (n o : Nat) : Nat × Nat × Nat := (o / plyLbas n, o % plyLbas n / 4, o % 4)

/-- The units and the record of a codeword on flash, at an LBA offset of a skein; a page with no content reads as free values. -/
def flashCodeword (g k o : Nat) (s : State) : List (BitVec 256) × State :=
  let ds := groupDies s g
  let (p, i, cw) := plyPlace ds.length o
  let d := ds.getD (dataPos ds.length p i) 0
  mediaUnits d (memberOf s d k) p ((List.range 130).map (130 * cw + ·)) s

/-- A codeword moves, its ciphertext unchanged (R350, R355, R442). -/
def copyCodeword (g k o g' k' o' : Nat) (r : BitVec 64) (s : State) : State :=
  let (us, s) := flashCodeword g k o s
  let (p, i, cw) := plyPlace (groupDies s g').length o'
  putCodeword 0 g' k' p i cw us r s

/-! ## Rows (R338, R339, R345) -/

/-- The page record of a codeword (R397): LBA offset, zone-table index, poison mark. -/
def pageRecord (o : Nat) (index : BitVec 32) (poison : Bool) : BitVec 64 :=
  BitVec.ofNat 64 o ||| ((index.setWidth 19 : BitVec 19).setWidth 64 <<< 32) ||| (if poison then 1#64 <<< 63 else 0)

/-- The first ply of a row in its skein, and its plies (R328, R338). -/
def rowPlies (r : Row) : Nat × Nat := if r.pool.isSome then (r.wl * 6, 6) else (r.wl * 24, 24)

/-- The data plane pages of a row's block units; the summary pages follow them (R327, R328). -/
def dataPages (r : Row) : Nat := if r.pool.isSome then 2048 else 8192

/-- The key of a staged block in `Media.buf`. -/
def bufKey (key o : Nat) : Nat := key * 2 ^ 32 + o

/-- A block of a row is poisoned (R296, R397). -/
def rowPoison (s : State) (r : Row) (o : Nat) : Bool :=
  !r.ru && (zoneOf s r.nsid r.zone).poison.any (fun p => decide (p.1 ≤ o ∧ o < p.1 + p.2))

/-- The LBA that a row's offset holds. -/
def rowLba (x : Ns) (r : Row) (o : Nat) : Nat :=
  if r.ru then ((r.lbas.find? (fun l => l.2 = r.zone * 2 ^ 32 + o)).map (·.1)).getD 0 else r.zone * zszeOf x + o

/-- The stored codeword of a row's offset: what the pool holds of it moves unchanged (R346, R442); a staged block, or the zeros a row is padded
with, is encrypted (R341, R440, R441). -/
def rowCodeword (x : Ns) (r : Row) (o : Nat) (s : State) : List (BitVec 256) × State :=
  match (if r.pool.isSome then none else poolAt s (rowKey r) o) with
  | some (p, q) => flashCodeword p.group p.skein q s
  | none =>
    let host := mget [] s.media.buf (bufKey (rowKey r) o)
    let host := host ++ List.replicate (lbaBytes x - host.length) 0
    (bytesUnits (sealBlock (guardOf s x r.nsid (rowLba x r o) (if r.ru then 0 else (zoneOf s r.nsid r.zone).binding)) host), s)

/-- Offset `o` of a row is written into its plies. -/
def putRowBlock (base : Nat) (x : Ns) (r : Row) (index : BitVec 32) (o : Nat) (s : State) : State :=
  let n := (groupDies s r.group).length
  let j := o - r.from_
  let (us, s) := rowCodeword x r o s
  putCodeword base r.group r.skein ((rowPlies r).1 + j / plyLbas n) (j % plyLbas n / 4) (j % 4) us (pageRecord o index (rowPoison s r o)) s

/-- The pages of a row as ciphertext and parity, those of the summary left to the media management (R328), where its key home's keys may be used (R432, R437, R440): none where they are refused. The
zone-table index is the firmware's (a free value). -/
def sealPages (base : Nat) (r : Row) (s : State) : Bool × State :=
  match nsOf s r.nsid.toNat with
  | none => (false, s)
  | some x =>
    let os := (List.range (r.upto - r.from_)).map (r.from_ + ·)
    let fresh := os.filter (fun o => r.pool.isSome || (poolAt s (rowKey r) o).isNone)
    let (ok, s) := useHome x fresh.length true s
    if !ok then (false, s)
    else
      let (index, s) := zoneIndexWord s
      let (p0, n) := rowPlies r
      let s := (groupDies s r.group).foldl (fun s d =>
        ((List.range n).filter (fun p => decide (p0 + p < dataPages r))).foldl (fun s p => modPage base d (memberOf s d r.skein) (p0 + p) (fun _ => List.replicate 521 0) s) s) s
      (true, os.foldl (fun s o => putRowBlock base x r index o s) s)

/-- The program of a row on one die (R389, R391): all planes of the word line. The first slice it names is any later one of its owner.
DESIGN CHOICE, log entry 150. -/
def rowProgram (r : Row) (d b : Nat) : DieDesc :=
  { fn := 1, die := d, block := b, page := r.wl, cws := 0x3F, flags := if r.pool.isSome then 1 else 0, owner := r.cls.toNat, row := some r.ident }

/-- The units of a row's pages cross to the piers (R21, R158): those of one channel one after another, 521 for each page. -/
def crossRow (slot pages : Nat) (ds : List Nat) (s : State) : Bool × State :=
  ds.zipIdx.foldl (fun (a : Bool × State) e =>
    let before := ((ds.take e.2).filter (fun d => d / 16 = e.1 / 16)).length
    if !a.1 then a else pushRun 0 (e.1 / 16) slot (before * pages * 521) (pages * 521) a.2) (true, s)

/-- A staged row is encrypted and its pages are sent to the pier, one program for each die of the group that is not lost (R338, R339). Where the
keys are refused, or a crossing queue does not accept the pages (R21), it waits for a later cipher slot. -/
def sendRow (slot : Nat) (r : Row) (s : State) : State :=
  let ds := (groupDies s r.group).filter (fun d => !isLost s d)
  match sealPages (2 ^ 60) r s with
  | (false, s) => s
  | (true, s) =>
    match crossRow slot (rowPlies r).2 ds s with
    | (false, s) => s
    | (true, s) =>
    let s := modPiers (fun u => { u with ops := u.ops ++ ds.map (fun d => rowProgram r d (memberOf s d r.skein)) }) s
    modMedia (fun u => { u with rows := u.rows.map (fun x => if x = r then { x with sent := true, left := ds.length } else x) }) s

/-- The rows of a class that wait for its cipher slots, in order, in its slot entry `slot`. -/
def sendRows (slot cls : Nat) (s : State) : State :=
  (s.media.rows.filter (fun r => r.cls.toNat = cls && !r.sent)).foldl (fun s r => sendRow slot r s) s

/-- The block unit that takes a row's program on a die after a failure: the target of the failed member's relocation, or its stand-in (R342). -/
def rowTarget (s : State) (r : Row) (d b : Nat) : Nat :=
  ((s.media.relocs.find? (fun c => c.die = d && c.src = b)).map (·.tgt)).getD (memberOf s d r.skein)

/-- A program of a row failed: the staged pages go to the stand-in (R342). -/
def resendRow (r : Row) (d b : Nat) (s : State) : State :=
  let t := rowTarget s r d b
  let (p0, n) := rowPlies r
  let s := (List.range n).foldl (fun s p =>
    let page := mget [] s.piers.data (2 ^ 60 + pageNumber d b (p0 + p))
    modPiers (fun u => { u with data := mset [] (2 ^ 60 + pageNumber d t (p0 + p)) page (mdel (2 ^ 60 + pageNumber d b (p0 + p)) u.data) }) s) s
  modPiers (fun u => { u with ops := u.ops ++ [rowProgram r d t] }) s

end Sys2Proof.Machine
end

