-- ==== Sys2Proof/Machine/Zones.lean ====
section
/-! DEFINITION. Writing a zone: staging and its release, rows and their programs, parking, the end of a partial write,
and the states of a zone (R288–R296, R338–R341, R345). -/

namespace Sys2Proof.Machine

/-! ## Staging (R288, R289, R338) -/

/-- Staging a class still has of its share (R289): none while the staged bytes exceed the limit in use (R631). -/
def stageRoom (s : State) (c : Nat) : Nat :=
  if s.media.limit < s.media.staged then 0 else mget 0 s.media.share c - mget 0 s.media.used c

/-- Reserve staging for a class. -/
def reserve (c n : Nat) (s : State) : State := modMedia (fun u => { u with used := mmod 0 c (· + n) u.used }) s
/-- Return reserved staging. -/
def unreserve (c n : Nat) (s : State) : State := modMedia (fun u => { u with used := mmod 0 c (· - n) u.used }) s

/-- A command's class as an owner. -/
def cmdCls (c : Cmd) : Nat := c.cls.toNat

/-- The first offset past the row that holds an offset: rows of 24 plies, or of 6 in the pool, that do not cross a skein (R338). -/
def rowEnd (n : Nat) (pslc : Bool) (o : Nat) : Nat :=
  let c := skeinZcap n
  let r := rowLbas n pslc
  let k := o / c
  min (k * c + ((o % c) / r + 1) * r) ((k + 1) * c)

/-! ## Rows (R339) -/

/-- A write whose data is incomplete lies below an offset of a zone. -/
def stagingBelow (s : State) (n : BitVec 32) (z o : Nat) : Bool :=
  s.tables.cmds.any (fun c => c.nsid = n && c.zone = some z && c.phase = Phase.waitData && decide (c.slba < o))

/-- A row of a zone or reclaim unit handed to QLC programming, one program on each die of the group (R338, R339): what of it lies beyond
`staged_` came from staging, the rest is read from the pool (R346). -/
def qlcRow (r : Row) (g staged_ lba : Nat) : Row :=
  { r with left := g, bytes := (r.upto - max r.from_ staged_) * lba, resv := (r.upto - max r.from_ staged_) * 4096 }

/-- A row is handed to programming: it is numbered, and its programs go to a skein's word line (R330, R338). -/
def addRow (r : Row) (s : State) : State :=
  let (g, k, wl) := match r.pool with
    | some (g, k, ply) => (g, k, ply / 6)
    | none =>
      let g := if r.ru then (ruOf s r.zone).group else (zoneOf s r.nsid r.zone).group
      let n := grpSize s g
      let c := skeinZcap n
      (g, if r.ru then (ruOf s r.zone).skein else (zoneOf s r.nsid r.zone).skeins.getD (r.from_ / c) 0, (r.from_ % c) / rowLbas n false)
  modMedia (fun u => { u with rows := u.rows ++ [{ r with ident := u.nextRow, group := g, skein := k, wl := wl }], nextRow := u.nextRow + 1 }) s

/-- Hand every row that is wholly staged to programming (R338, R339, R345): to the pool where the deck sends the class's writes there and the pool
has room, else to QLC rows, which take what the pool holds of them along (R346). Fuel bounds the rows one write can complete. -/
def programRows (n : BitVec 32) (z : Nat) : Nat → State → State
  | 0, s => s
  | f + 1, s =>
    match nsOf s n.toNat with
    | none => s
    | some x =>
      let e := zoneOf s n z
      let g := nsGroup x
      let pool := toPool s x.cls.toNat
      let at_ := if pool then e.stagedTo else e.qlcTo
      let upto := rowEnd g pool at_
      if !(decide (upto ≤ e.acc) && decide (at_ < zcapOf x) && !stagingBelow s n z upto) then s
      else
        let row : Row := { nsid := n, zone := z, cls := x.cls, from_ := at_, upto := upto }
        if pool then
          match takePlies e.group x.cls.toNat 6 s with
          | none => s
          | some (k, ply, s) =>
            let row := { qlcRow row g e.stagedTo (lbaBytes x) with pool := some (e.group, k, ply) }
            programRows n z f (modZone n z (fun y => { y with stagedTo := upto }) (addRow row s))
        else
          let s := addRow (qlcRow row g e.stagedTo (lbaBytes x)) s
          programRows n z f (modZone n z (fun y => { y with stagedTo := max y.stagedTo upto, qlcTo := upto }) s)

/-- The marks of a command that changed data or state, made before its completion (R450). A Flush changed nothing. -/
def dirtyDone (c : Cmd) (s : State) : State :=
  if c.opcode = 0 then s else dirtyWrite c.nsid c.zone c.slba c.nlb s

/-- The offsets past what FDP blocks at some places take, by their reclaim units (R288). -/
def ruEnds (locs : List Nat) : List (Nat × Nat) :=
  let ks := (locs.map (· / 2 ^ 32)).eraseDups
  ks.map (fun k => (2 ^ 60 + k, (locs.filter (fun l => l / 2 ^ 32 = k)).foldl (fun m l => max m (l % 2 ^ 32 + 1)) 0))

/-- What a command's data has to reach for its FUA point: the offsets past its blocks, by zone or reclaim unit (R288). -/
def writeEnds (x : Ns) (c : Cmd) : List (Nat × Nat) :=
  if x.fdp then ruEnds c.locs else [(zoneKey c.nsid (c.zone.getD 0), c.slba + c.nlb)]

/-- The controller of a command as `Tables.done` keys it. -/
def doneKey (c : Cmd) : Nat := (c.vc.map (·.toNat)).getD 4096

/-- A write completes short of its FUA point: a later Flush of the same controller covers it (R291). -/
def noteDone (x : Ns) (c : Cmd) (s : State) : State :=
  let m := (writeEnds x c).foldl (fun m e => mset 0 e.1 (max (mget 0 m e.1) e.2) m) (mget [] s.tables.done (doneKey c))
  modTables (fun u => { u with done := mset [] (doneKey c) m u.done }) s

/-- A zone or reclaim unit has lost what it held: no command waits for it to be programmed. -/
def forgetDone (key : Nat) (s : State) : State :=
  modTables (fun u => { u with done := u.done.map (fun e => (e.1, mdel key e.2)), cmds := u.cmds.map (fun c => if c.phase = Phase.waiting then { c with wait := c.wait.filter (fun w => decide (w.1 ≠ key)) } else c) }) s

/-- What a zone or reclaim unit holds up to an offset has reached the FUA point (R288, R339). -/
def reached (s : State) (w : Nat × Nat) : Bool :=
  if w.1 < 2 ^ 59 then decide (w.2 ≤ (mget {} s.media.zones w.1).prog) else decide (w.2 ≤ mget 0 s.media.journalRu (w.1 - 2 ^ 60))

/-- Commands whose data has reached the FUA point complete: a FUA write, and a Flush that waits for nothing more (R288,
R291). -/
def releaseWaiters (s : State) : State :=
  let ready := s.tables.cmds.filter (fun c => c.phase = Phase.waiting && c.wait.all (reached s))
  ready.foldl (fun s c => completeCmd c 0 c.dw0 c.dw1 (dirtyDone c s)) s

/-- An LBA of an FDP namespace takes a new place (reclaim unit × 2^32 + offset); the old one is no longer valid there
(R349, R350). -/
def mapLba (n lba loc : Nat) (s : State) : State :=
  let old := ((nsOf s n).map (fun x => mget 0 x.map lba)).getD 0
  let s := if old = 0 then s else modRu ((old - 1) / 2 ^ 32) (fun r => { r with valid := r.valid - 1 }) s
  let s := modNs n (fun x => { x with map := mset 0 lba (loc + 1) x.map }) s
  modRu (loc / 2 ^ 32) (fun r => { r with valid := r.valid + 1 }) s

/-- The staged bytes of a range of a zone or reclaim unit are released (R339). -/
def dropBuf (key lo hi : Nat) (s : State) : State :=
  modMedia (fun u => { u with buf := u.buf.filter (fun e => !(e.1 / 2 ^ 32 = key && decide (lo ≤ e.1 % 2 ^ 32 ∧ e.1 % 2 ^ 32 < hi))) }) s

/-- Where the programmed pointer of a zone or reclaim unit stands once a row has been programmed (R339): at the first row that is still in
programming, with none at `last`. -/
def progTo (s : State) (key prog last : Nat) : Nat :=
  max prog (((s.media.rows.filter (fun r => rowKey r = key && decide (prog < r.upto))).map (·.from_)).foldl min last)

/-- The offset up to which a zone's data has been handed to programming. -/
def handedTo (e : Zone) : Nat := if e.parked then e.acc else e.stagedTo

/-- A row reaches the FUA point (R339, R345): the programmed pointer advances, staging is released, and what waited for it
completes. A row of the pool serves its LBAs from there; a QLC row ends that (R346). For an FDP row the map takes its LBAs (R349). -/
def rowDone (r : Row) (s : State) : State :=
  let s := modMedia (fun u => { u with
        rows := u.rows.filter (fun x => decide (x ≠ r)), staged := u.staged - r.bytes,
        journal := u.journal + 1 }) s
  let s := unreserve r.cls.toNat r.resv (dropBuf (rowKey r) r.from_ r.upto s)
  let s := match r.pool with
    | some (g, k, ply) => putExt g k { key := rowKey r, from_ := r.from_, cnt := r.upto - r.from_, ply := ply } s
    | none => cutPool (rowKey r) r.from_ r.upto s
  let s := dropEmptyPool s
  let s := if r.ru then
      let s := r.lbas.foldl (fun s l => mapLba r.nsid.toNat l.1 l.2 s) s
      modMedia (fun u => { u with
        journalRu := mset 0 r.zone (progTo s (rowKey r) (mget 0 u.journalRu r.zone) (ruOf s r.zone).stagedTo) u.journalRu
        fdpMedia := u.fdpMedia + r.bytes }) s
    else modZone r.nsid r.zone (fun e => { e with prog := progTo s (rowKey r) e.prog (handedTo e) }) s
  releaseWaiters s

/-- A program of a die, block unit and word line is one of a row's (R328, R330, R332). -/
def rowHas (s : State) (d b wl : Nat) (r : Row) : Bool := groupOfDie s d = some r.group && memberOf s d r.skein = b && r.wl = wl

/-- A row has one program fewer to come, and at none left it reaches the FUA point (R396). -/
def rowProgrammed (r : Row) (s : State) : State :=
  if r.left ≤ 1 then rowDone r s
  else
    let rs := s.media.rows.map (fun x => if x = r then { x with left := x.left - 1 } else x)
    (modMedia (fun u => { u with rows := rs }) s)

/-- The keystone pops a code 8 item: the row of its die, block unit and word line has one program fewer to come (R396). -/
def popProgrammed (d b wl : Nat) (s : State) : State :=
  match s.media.rows.find? (rowHas s d b wl) with
  | none => s
  | some r => rowProgrammed r s

/-- The outcome of a program of a row, by the row's number (R342, R396): code 8, or code 9, after which the staged page goes to the stand-in. -/
def rowOutcome (k code d b : Nat) (s : State) : State :=
  match s.media.rows.find? (fun r => r.ident = k) with
  | none => s
  | some r => if code = 8 then rowProgrammed r s else if isLost s d then rowProgrammed r s else resendRow r d b s

/-- Staged data of a command counts (R288). -/
def countStaged (n : Nat) (s : State) : State := modMedia (fun u => { u with staged := u.staged + n }) s

/-- A write whose data is incomplete goes to a reclaim unit. -/
def ruStaging (s : State) (k : Nat) : Bool :=
  s.tables.cmds.any (fun c => c.phase = Phase.waitData && !c.closed && c.locs.any (fun l => decide (l / 2 ^ 32 = k)))

/-- The bytes of a block of the namespace that a reclaim unit belongs to. -/
def ruBytes (s : State) (r : Ru) : Nat := ((nsOf s r.nsid.toNat).map lbaBytes).getD 4096

/-- A row of a reclaim unit handed to programming: it releases the reservation of the writes that filled it (R289). -/
def ruRow (s : State) (r : Ru) (row : Row) (g : Nat) : Row :=
  let w := qlcRow row g r.stagedTo (ruBytes s r)
  { w with resv := w.bytes }

/-- A reclaim unit's rows that are wholly staged are programmed (R345, R349), as those of a zone are. Fuel bounds the rows. -/
def programRu (k : Nat) : Nat → State → State
  | 0, s => s
  | f + 1, s =>
    let r := ruOf s k
    let g := grpSize s r.group
    let cls := ((nsOf s r.nsid.toNat).map (·.cls)).getD 0
    let pool := toPool s cls.toNat
    let at_ := if pool then r.stagedTo else r.qlcTo
    let upto := rowEnd g pool at_
    if r.wp < upto || ruLbas s r ≤ at_ || ruStaging s k then s
    else
      let lbas := (mget [] s.media.ruLbas k).filter (fun l => decide (l.2 < k * 2 ^ 32 + upto))
      let row : Row := { nsid := r.nsid, zone := k, ru := true, cls := cls, from_ := at_, upto := upto, lbas := lbas }
      let keep := fun (s : State) => modMedia (fun u => { u with
        ruLbas := mset [] k ((mget [] u.ruLbas k).filter (fun l => !decide (l.2 < k * 2 ^ 32 + upto))) u.ruLbas }) s
      if pool then
        match takePlies r.group cls.toNat 6 s with
        | none => s
        | some (q, ply, s) =>
          let row := { ruRow s r row g with pool := some (r.group, q, ply) }
          programRu k f (modRu k (fun y => { y with stagedTo := upto }) (keep (addRow row s)))
      else
        let s := addRow (ruRow s r row g) s
        programRu k f (modRu k (fun y => { y with stagedTo := max y.stagedTo upto, qlcTo := upto }) (keep s))

/-- Where block `i` of a write goes in staging: its place in its zone, or in the reclaim unit that took its LBA. -/
def stagePlace (x : Ns) (c : Cmd) (i : Nat) : Nat :=
  let k := c.locs.getD i 0
  if x.fdp then bufKey (2 ^ 60 + k / 2 ^ 32) (k % 2 ^ 32) else bufKey (zoneKey c.nsid (c.zone.getD 0)) (c.slba + i)

/-- The whole blocks of a write's data that have come are in the staging buffer (R288). -/
def storeBlocks (x : Ns) (c : Cmd) (s : State) : State :=
  (List.range (min c.nlb (c.rx.length / lbaBytes x))).foldl (fun s i =>
    modMedia (fun u => { u with buf := mset [] (stagePlace x c i) ((c.rx.drop (i * lbaBytes x)).take (lbaBytes x)) u.buf }) s) s

/-- The marks of unreadable LBAs go from a range that is written anew (R352). -/
def clearPoison (n lba cnt : Nat) (s : State) : State :=
  let cut := fun (p : Nat × Nat × Nat) =>
    if p.1 ≠ n || decide (p.2.1 + p.2.2 ≤ lba ∨ lba + cnt ≤ p.2.1) then [p]
    else (if p.2.1 < lba then [(n, p.2.1, lba - p.2.1)] else []) ++
      (if lba + cnt < p.2.1 + p.2.2 then [(n, lba + cnt, p.2.1 + p.2.2 - (lba + cnt))] else [])
  modMedia (fun u => { u with poisonLbas := (u.poisonLbas.map cut).flatten }) s

/-- The blocks `l` of an FDP write, by their numbers, which are staged, take the place of those staged before for the same LBAs (R349). -/
def replaceStaged (c : Cmd) (l : List Nat) (s : State) : State :=
  let old := fun (p : Nat × Nat) => decide (c.slba ≤ p.1) && l.contains (p.1 - c.slba) && !c.locs.contains p.2
  let units := s.media.ruLbas.filter (fun e => (ruOf s e.1).nsid = c.nsid)
  l.foldl (fun s i => clearPoison c.nsid.toNat (c.slba + i) 1 s) (modMedia (fun u => { u with
    ruLbas := units.foldl (fun m e => mset [] e.1 (e.2.filter (fun y => !old y)) m) u.ruLbas
    rows := u.rows.map (fun r => if r.ru && r.nsid = c.nsid then { r with lbas := r.lbas.filter (fun y => !old y) } else r) }) s)

/-- A block's metadata bytes 48–63 are not all zero, in a namespace stored under GCM (R441). -/
def tagBytesSet (s : State) (x : Ns) (c : Cmd) : Bool :=
  bit ((homeRecord s x).getD {}).flags 2 && (List.range (c.rx.length / lbaBytes x)).any (fun i =>
    ((c.rx.drop (i * lbaBytes x + 4144)).take 16).any (fun b => decide (b ≠ 0)))

/-- The rows of a zone that a write has completed, or of the reclaim units it went to, are handed to programming (R339). -/
def programWrite (x : Ns) (c : Cmd) (s : State) : State :=
  let fuel := 4 * (c.nlb / rowLbas (nsGroup x) false + 2)
  if x.fdp then (ruEnds c.locs).foldl (fun s e => programRu (e.1 - 2 ^ 60) fuel s) s
  else programRows c.nsid (c.zone.getD 0) fuel s

/-- Every block of a write is staged (R288): it counts, rows that are complete are programmed, and the command completes
unless FUA asks for more. -/
def stageAll (c : Cmd) (s : State) : State :=
  match nsOf s c.nsid.toNat with
  | none => s
  | some x =>
    let bytes := c.nlb * lbaBytes x
    let s := countStaged bytes (storeBlocks x c s)
    let s := if x.fdp then
        modMedia (fun u => { u with fdpHost := u.fdpHost + bytes }) (replaceStaged c (List.range c.nlb) s)
      else s
    let c' := { c with phase := Phase.waiting, staged := bytes, left := 0, rx := [], wait := writeEnds x c }
    let s := programWrite x c' (updCmd c (fun _ => c') s)
    if c.fua then releaseWaiters s else completeCmd c' 0 c.dw0 c.dw1 (dirtyDone c' (noteDone x c' s))

/-! ## The end of a partial write (R296) -/

/-- A later write to the zone has been admitted. -/
def laterWrite (s : State) (c : Cmd) : Bool :=
  match c.zone with
  | none => false
  | some z => decide (c.slba + c.nlb < (zoneOf s c.nsid z).acc)

/-- How many of the bytes from `a` to `b` of a write's data are staged; the runs of `came` do not overlap. -/
def staysIn (c : Cmd) (a b : Nat) : Nat := (c.came.map (fun g => min b g.2 - max a g.1)).sum

/-- Block `i` of a write, of `n` bytes, is not staged (R296). -/
def missesBlock (n : Nat) (c : Cmd) (i : Nat) : Bool := c.left ≠ 0 && decide (staysIn c (i * n) ((i + 1) * n) < n)

/-- The blocks of a write that are staged, by their numbers. -/
def stagedIdx (n : Nat) (c : Cmd) : List Nat := (List.range c.nlb).filter (fun i => !missesBlock n c i)

/-- A block number joins the run before it where it follows; the runs, as (first, count), are in reverse. -/
def addRun (l : List (Nat × Nat)) (i : Nat) : List (Nat × Nat) :=
  match l with
  | [] => [(i, 1)]
  | r :: rest => if r.1 + r.2 = i then (r.1, r.2 + 1) :: rest else (i, 1) :: r :: rest

/-- The runs of a write's blocks that are not staged, as (first, count). -/
def missing (n : Nat) (c : Cmd) : List (Nat × Nat) := (((List.range c.nlb).filter (missesBlock n c)).foldl addRun []).reverse

/-- The staged blocks of a write whose pointer returns are discarded (R296); one that waits for data has counted none. -/
def unstage (x : Ns) (c : Cmd) (s : State) : State :=
  if c.phase = Phase.waitData then s
  else dropBuf (zoneKey c.nsid (c.zone.getD 0)) c.slba (c.slba + c.nlb) (modMedia (fun u => { u with staged := u.staged - c.nlb * lbaBytes x }) s)

/-- The blocks of a write that ends are staged as far as they have come; a write that waited for its FUA point had staged them (R296). -/
def stagePart (x : Ns) (c : Cmd) (s : State) : State :=
  let s := if c.phase = Phase.waitData then countStaged (c.nlb * lbaBytes x) (storeBlocks x c s) else s
  updCmd c (fun y => { y with phase := Phase.staged }) s

/-- Some of a write's blocks are in a row that has been handed to programming. -/
def handed (s : State) (c : Cmd) (z : Nat) : Bool := decide (c.slba < (zoneOf s c.nsid z).stagedTo)

/-- A write to a zone ends with no later one admitted (R296): the accepted pointer returns to its first LBA, and the reservation that it alone
needed is released. -/
def returnPointer (x : Ns) (c : Cmd) (z : Nat) (s : State) : State :=
  unreserve (cmdCls c) c.resv (modZone c.nsid z (fun e => { e with acc := c.slba, resv := e.resv - c.resv / 4096 }) (unstage x c s))

/-- The blocks of a write to a zone that were not staged are poisoned, added to the Error Information log of the namespace's key home and counted
in the health log (R296). -/
def poisonGaps (x : Ns) (c : Cmd) (z : Nat) (s : State) : State :=
  let runs := missing (lbaBytes x) c
  let s := modZone c.nsid z (fun e => { e with poisoned := true, poison := e.poison ++ runs.map (fun g => (c.slba + g.1, g.2)) }) s
  let s := modMedia (fun u => { u with mediaErrs := u.mediaErrs + runs.length }) s
  match x.home with
  | none => s
  | some v => runs.foldl (fun s g =>
      logError v.toNat { status := status 2 0x81, lba := z * zszeOf x + c.slba + g.1, nsid := c.nsid } s) s

/-- On an FDP namespace the blocks of a write that were staged replace what their LBAs held, and the others leave it (R296). -/
def keepStaged (x : Ns) (c : Cmd) (s : State) : State :=
  let ok := stagedIdx (lbaBytes x) c
  let gone := fun (l : Nat × Nat) => c.locs.contains l.2 && !(ok.any (fun i => c.locs.getD i 0 = l.2))
  let s := replaceStaged c ok s
  modMedia (fun u => { u with
    ruLbas := mmapv [] (fun l => l.filter (fun y => !gone y)) u.ruLbas
    rows := u.rows.map (fun r => if r.ru then { r with lbas := r.lbas.filter (fun y => !gone y) } else r) }) s

/-- An admitted write ends without every block staged (R296): where a row that holds some of it has been handed to programming, its pointer does
not return. DEDUCED, log entry 172. -/
def partialWriteEnd (c : Cmd) (s : State) : State :=
  match nsOf s c.nsid.toNat with
  | none => unreserve (cmdCls c) c.resv s
  | some x =>
    if x.fdp then programWrite x c (stagePart x c (keepStaged x c s))
    else match c.zone with
      | none => unreserve (cmdCls c) c.resv s
      | some z =>
        if !laterWrite s c && !handed s c z then returnPointer x c z s
        else programWrite x c (stagePart x c (poisonGaps x c z s))

/-- The data of a write is complete (R288, R441): its blocks are staged, unless its metadata is not what its protection asks for. -/
def writeStaged (c : Cmd) (s : State) : State :=
  match nsOf s c.nsid.toNat with
  | none => s
  | some x =>
    if tagBytesSet s x c then
      let c' := { c with left := c.nlb * lbaBytes x, staged := 0, rx := [], asked := [], nextAsk := 0, came := [] }
      completeCmd c' (status 0 2) 0 0 (partialWriteEnd c' (updCmd c (fun _ => c') s))
    else stageAll c s

/-- Bytes are put at an offset. -/
def putAt (off : Nat) (data l : List (BitVec 8)) : List (BitVec 8) :=
  l.take off ++ List.replicate (off - l.length) 0 ++ data ++ l.drop (off + data.length)

/-- The open request that data at an offset answers (R241): it goes on where the request's data stands and stays within its end. -/
def answersAsk (c : Cmd) (off len : Nat) : Option (Nat × Nat) := c.asked.find? (fun r => decide (r.1 = off ∧ off + len ≤ r.2))

/-- An open request moves on by the data that has come; one that is answered goes. -/
def moveAsk (r : Nat × Nat) (len : Nat) (l : List (Nat × Nat)) : List (Nat × Nat) :=
  (l.map (fun x => if x = r then (x.1 + len, x.2) else x)).filter (fun x => decide (x.1 < x.2))

/-- Write data is staged at an offset of the data of a command that waits for it (R288). -/
def stageData (c : Cmd) (off : Nat) (data : List (BitVec 8)) (s : State) : State :=
  let c' := { c with left := c.left - data.length, staged := c.staged + min data.length c.left, rx := putAt off data c.rx
                     came := c.came ++ [(off, off + data.length)] }
  let s := updCmd c (fun _ => c') s
  if c'.left = 0 then writeStaged c' s else s

/-! ## Zone states (R292, R294) -/

/-- A zone is active: open or closed. -/
def zoneActive (e : Zone) : Bool := e.state = 2 || e.state = 3 || e.state = 4
/-- A zone is open. -/
def zoneOpen (e : Zone) : Bool := e.state = 2 || e.state = 3

/-- The zones of a namespace that the table lists. -/
def nsZones (s : State) (n : BitVec 32) : List (Nat × Zone) :=
  (s.media.zones.filter (fun e => e.1 / 2 ^ 20 = n.toNat)).map (fun e => (e.1 % 2 ^ 20, e.2))

/-- Active zones of a namespace. -/
def activeCount (s : State) (n : BitVec 32) : Nat := ((nsZones s n).filter (fun e => zoneActive e.2)).length
/-- Open zones of a namespace. -/
def openCount (s : State) (n : BitVec 32) : Nat := ((nsZones s n).filter (fun e => zoneOpen e.2)).length

/-- The Implicitly Opened zone whose last accepted write is oldest (R294). -/
def oldestImplicit (s : State) (n : BitVec 32) (but : Nat) : Option Nat :=
  (((nsZones s n).filter (fun e => e.2.state = 2 && decide (e.1 ≠ but))).foldl
    (fun (m : Option (Nat × Zone)) e => match m with
      | none => some e
      | some y => if e.2.lastSeq < y.2.lastSeq then some e else some y) none).map (·.1)

/-- Bind a zone that leaves Empty to skeins of its class's die set (R60, R335); none where no free erased skein is left now. -/
def bindZone (n : BitVec 32) (z : Nat) (s : State) : Option State :=
  match nsOf s n.toNat with
  | none => none
  | some x =>
    match bindGroup s x x.spz (classGroups s x.cls.toNat) with
    | none => none
    | some g =>
      let (ks, s) := takeSkeins n.toNat g x.spz (zoneKey n z) s
      let b := s.media.binding + 1
      let s := modMedia (fun u => { u with binding := b, journal := u.journal + 1 }) s
      some (modZone n z (fun e => { e with group := g, skeins := ks, binding := b, acc := 0, prog := 0, stagedTo := 0, qlcTo := 0, resv := 0 }) s)

/-- Parking (R340): the staged part of a zone's current row is programmed into the group's pSLC pool, if the pool has
room, and its reservation released. -/
def parkRow (n : BitVec 32) (z : Nat) (s : State) : Option State :=
  match nsOf s n.toNat with
  | none => none
  | some x =>
    let e := zoneOf s n z
    if e.acc ≤ e.stagedTo then some s
    else
      let p := plyLbas (nsGroup x) * 6
      match takePlies e.group x.cls.toNat ((e.acc - e.stagedTo + p - 1) / p * 6) s with
      | none => none
      | some (k, ply, s) =>
        let row : Row := { nsid := n, zone := z, cls := x.cls, from_ := e.stagedTo, upto := e.acc, pool := some (e.group, k, ply),
                           group := e.group, skein := k, wl := ply / 6 }
        match sealPages 0 row s with
        | (false, _) => none
        | (true, s) =>
        let s := dropBuf (zoneKey n z) e.stagedTo e.acc s
        let bytes := (e.acc - e.stagedTo) * lbaBytes x
        let s := putExt e.group k { key := zoneKey n z, from_ := e.stagedTo, cnt := e.acc - e.stagedTo, ply := ply } s
        let s := modMedia (fun u => { u with staged := u.staged - bytes, journal := u.journal + 1 }) (dropEmptyPool s)
        let s := unreserve x.cls.toNat ((e.resv - e.stagedTo) * 4096) s
        some (releaseWaiters (modZone n z (fun y => { y with parked := true, resv := 0, prog := progTo s (zoneKey n z) y.prog y.acc }) s))

/-- Close a zone (R292): Closed, or Empty with the write pointer at the zone start. -/
def closeZone (n : BitVec 32) (z : Nat) (s : State) : State :=
  let s := (parkRow n z s).getD s
  let e := zoneOf s n z
  if e.acc = 0 then
    let cls := ((nsOf s n.toNat).map (·.cls.toNat)).getD 0
    let s := unbindSkeins n.toNat e.group e.skeins cls s
    modZone n z (fun y => { y with state := 1, skeins := [] }) s
  else modZone n z (fun y => { y with state := 4 }) s

/-! ## Folding (R344, R346) -/

/-- Fold what a zone holds in the pool into its QLC rows: each that the zone has whole, and the last one of a Full zone, goes to programming; its
LBAs are served from the pool until it reaches the FUA point. Fuel bounds the rows. -/
def foldZone (n : BitVec 32) (z : Nat) : Nat → State → State
  | 0, s => s
  | f + 1, s =>
    match nsOf s n.toNat with
    | none => s
    | some x =>
      let e := zoneOf s n z
      let upto := rowEnd (nsGroup x) false e.qlcTo
      if e.qlcTo < e.stagedTo && (upto ≤ e.stagedTo || (e.state = 0xE && e.stagedTo = e.acc)) then
        let row : Row := { nsid := n, zone := z, cls := x.cls, from_ := e.qlcTo, upto := upto }
        let s := addRow (qlcRow row (nsGroup x) upto (lbaBytes x)) s
        foldZone n z f (modZone n z (fun y => { y with qlcTo := upto }) s)
      else s

/-- Fold what a reclaim unit holds in the pool, in the same way. -/
def foldRu (k : Nat) : Nat → State → State
  | 0, s => s
  | f + 1, s =>
    let r := ruOf s k
    let g := grpSize s r.group
    let upto := rowEnd g false r.qlcTo
    if r.qlcTo < r.stagedTo && (upto ≤ r.stagedTo || (r.full && r.stagedTo = r.wp)) then
      let cls := ((nsOf s r.nsid.toNat).map (·.cls)).getD 0
      let row : Row := { nsid := r.nsid, zone := k, ru := true, cls := cls, from_ := r.qlcTo, upto := upto }
      let s := addRow (ruRow s { r with stagedTo := upto } row g) s
      foldRu k f (modRu k (fun y => { y with qlcTo := upto }) s)
    else s

/-- Fold what one run of a pool skein belongs to. -/
def foldExt (s : State) (x : PoolExt) : State :=
  if x.key < 2 ^ 59 then foldZone (BitVec.ofNat 32 (x.key / 2 ^ 20)) (x.key % 2 ^ 20) 1024 s
  else if x.key < 2 ^ 62 then foldRu (x.key - 2 ^ 60) 1024 s
  else s

/-- The oldest pool skein of a group whose class can fold it: it holds read places and QLC program slices, in a deck that does not send its writes
to the pool (R346). -/
def foldable (s : State) (g : Nat) : Option PoolSkein :=
  (poolOf s g).find? (fun p => classHasSlot s p.cls.toNat 3 && classHasPlace s p.cls.toNat && !toPool s p.cls.toNat)

/-- The zones of a group whose staged rows wait for room in the pool are tried again (R345). -/
def retryRows (g : Nat) (s : State) : State :=
  s.media.zones.foldl (fun s e =>
    if e.2.group = g && !e.2.parked && decide (e.2.stagedTo < e.2.acc) then programRows (BitVec.ofNat 32 (e.1 / 2 ^ 20)) (e.1 % 2 ^ 20) 64 s else s) s

/-- POOL_FOLD (R346): the oldest pool skein of the group that can be folded is, run by run in the order in which its data was written; pool skeins
with no live data are erased and leave the pool. -/
def execPoolFold (g : BitVec 8) (s : State) : Out :=
  match foldable s g.toNat with
  | none => .next (retryRows g.toNat (dropEmptyPool s))
  | some p => .next (retryRows g.toNat (dropEmptyPool (p.exts.foldl foldExt s)))

/-! ## Reclaim (R350) -/

/-- One LBA of unit `k`, at offset `o`, moves to offset `o'` of unit `c`, its ciphertext unchanged (R350, R442). -/
def moveLba (n k o c o' lba : Nat) (s : State) : State :=
  let (index, s) := zoneIndexWord s
  let s := match poolAt s (2 ^ 60 + k) o with
    | some (p, q) => copyCodeword p.group p.skein q (ruOf s c).group (ruOf s c).skein o' (pageRecord o' index false) s
    | none => copyCodeword (ruOf s k).group (ruOf s k).skein o (ruOf s c).group (ruOf s c).skein o' (pageRecord o' index false) s
  modNs n (fun x => { x with map := mset 0 lba (c * 2 ^ 32 + o' + 1) x.map }) s

/-- The first `m` LBAs that the map of a namespace places in unit `k` are placed in unit `c` from an offset on (R350). -/
def remapLbas (n k c wp m : Nat) (s : State) : State :=
  let all := ((nsOf s n).map (fun x => x.map.filter (fun e => (e.2 - 1) / 2 ^ 32 = k && decide (e.2 ≠ 0)))).getD []
  (all.take m).zipIdx.foldl (fun s e => moveLba n k ((e.1.2 - 1) % 2 ^ 32) c (wp + e.2) e.1.1 s) s

/-- A housekeeping window runs on a die (R42); those of Hold serve temperature reads alone (R203), and the recovery deck has none. -/
def houseOpen (s : State) (d : Nat) : Bool := !inHold s && s.reel.grants.any (fun g => grantRuns s g && g.slot.typ = 0xA && grantRes g = d)

/-- A program slice of a class runs on a die (R48). -/
def sliceOpen (s : State) (c d : Nat) : Bool :=
  s.reel.grants.any (fun g => grantRuns s g && g.slot.typ = 3 && grantRes g = d && g.slot.owner = c)

/-- Reclaim of a victim may run now (R350): in a housekeeping window of its group, or, in the foreground, in a program slice of the class there. -/
def reclaimOpen (s : State) (x : Ns) (v : Ru) : Bool :=
  (groupDies s v.group).any (fun d => houseOpen s d || (decide (freeCommitted s x < 2) && sliceOpen s x.cls.toNat d))

/-- RECLAIM (R350): in a handle with fewer than 8 free committed skeins in its namespace, the victim's valid LBAs are
copied into the handle's reclaim-copy unit and the victim is unbound under R336, in the windows or slices that R350 names. -/
def execReclaim (n : BitVec 32) (h : BitVec 4) (s : State) : Out :=
  match nsOf s n.toNat with
  | none => .next s
  | some x =>
    if !x.fdp || 8 ≤ freeCommitted s x then .next s
    else
      match (victimOf s n h.toNat).filter (fun e => reclaimOpen s x e.2) with
      | none => .next s
      | some (k, v) =>
        let s := match openRu s n h.toNat true with | some _ => s | none => (bindRu n h.toNat true s).getD s
        match openRu s n h.toNat true with
        | none => .next s
        | some c =>
          let moved := min v.valid (ruLbas s (ruOf s c) - (ruOf s c).wp)
          let s := remapLbas n.toNat k c (ruOf s c).wp moved (modMedia (fun u => { u with fdpMedia := u.fdpMedia + moved * lbaBytes x }) s)
          let s := modRu c (fun r => { r with wp := r.wp + moved, valid := r.valid + moved, stagedTo := r.wp + moved, qlcTo := r.wp + moved,
                                              full := decide (ruLbas s r ≤ r.wp + moved) }) s
          if moved < v.valid then
            .next (modRu k (fun r => { r with valid := r.valid - moved }) s)
          else
            let s := unbindSkeins n.toNat v.group [v.skein] x.cls.toNat s
            .next (modMedia (fun u => { u with rus := mdel k u.rus, fdpErased := u.fdpErased + ruLbas s v * 4096 }) s)

/-! ## Pool data of a degraded group (R355) -/

/-- The pool runs of a zone or reclaim unit move to the pool of another group, as far as it has room. -/
def movePool (key g cls : Nat) (s : State) : State :=
  let l := s.media.pool.foldl (fun l p => l ++ (p.exts.filter (fun x => x.key = key && decide (p.group ≠ g))).map (fun x => (p, x))) []
  dropEmptyPool (l.foldl (fun s e =>
    let x := e.2
    let p := plyLbas (groupDies s g).length * 6
    match takePlies g cls ((x.cnt + p - 1) / p * 6) s with
    | none => s
    | some (k, ply, s) =>
      let (index, s) := zoneIndexWord s
      let s := (List.range x.cnt).foldl (fun s i => copyCodeword e.1.group e.1.skein (x.ply * plyLbas (groupDies s e.1.group).length + i)
        g k (ply * plyLbas (groupDies s g).length + i) (pageRecord (x.from_ + i) index false) s) s
      putExt g k { x with ply := ply } s) s)

/-! ## Rebuild (R355) -/

/-- The pages of some skeins of a group are copied to others of a group of the same size; a lost die's page is formed from its ply and is what it
held (R355). -/
def copySkeins (g : Nat) (ks : List Nat) (g' : Nat) (ks' : List Nat) (s : State) : State :=
  (ks.zip ks').foldl (fun s k =>
    ((groupDies s g).zip (groupDies s g')).foldl (fun s d => copyBlock d.1 (memberOf s d.1 k.1) d.2 (memberOf s d.2 k.2) s) s) s

/-- The plies of some skeins of a group of which two dies or more are lost cannot be reconstructed (R352, R355): each
page that a lost die of the group held of them is unrecoverable. -/
def loseSkeins (g : Nat) (ks : List Nat) (s : State) : State :=
  match (groupDies s g).filter (isLost s) with
  | d :: e :: l =>
    ks.foldl (fun s k => (List.range (blockOf s d (memberOf s d k)).pages.toNat).foldl (fun s p =>
      (e :: l).foldl (fun s x => poisonPage x (memberOf s x k) p s) (plyLost d (memberOf s d k) p s)) s) s
  | _ => s

/-! ## Member relocation (R356–R359, R361, R364, R365) -/

/-- The class of the zone or reclaim unit that a block unit is a member of. -/
def blockClass (s : State) (d b : Nat) : Option Nat :=
  (blockOf s d b).zone.bind (fun k =>
    let n := if k < 2 ^ 59 then k / 2 ^ 20 else (ruOf s (k - 2 ^ 60)).nsid.toNat
    (nsOf s n).map (·.cls.toNat))

/-- A queued relocation may start now: in a housekeeping window of its die (R356), or, of a block unit read 100,000 times, in a program slice of
the class of its zone (R359). -/
def refreshOpen (s : State) (e : Nat × Nat × Nat) : Bool :=
  houseOpen s e.1 ||
    (100000 ≤ (blockOf s e.1 e.2.1).reads.toNat && (blockClass s e.1 e.2.1).any (fun c => sliceOpen s c e.1))

/-- The record of codeword `cw` of a page (R397). -/
def cwRecord (cw : Nat) (page : List (BitVec 256)) : BitVec 64 := ((page.getD 520 0) >>> (64 * cw)).setWidth 64

/-- Page `p` of a member is written as the page of a pool skein that follows in its run, from ply `ply` on (R357). -/
def pageToPool (d b g k ply : Nat) (s : State) (p : Nat) : State :=
  let n := (groupDies s g).length - 1
  let (us, s) := mediaUnits d b p (List.range 521) s
  (List.range 4).foldl (fun s cw => putCodeword 0 g k (ply + p / n) (p % n) cw (cwOf cw us) (cwRecord cw us) s) s

/-- Page `p` of a member is written back from the pool. -/
def pageFromPool (g k ply d b : Nat) (s : State) (p : Nat) : State :=
  let ds := groupDies s g
  let n := ds.length - 1
  let e := ds.getD (dataPos ds.length (ply + p / n) (p % n)) 0
  let (us, s) := mediaUnits e (memberOf s e k) (ply + p / n) (List.range 521) s
  modPage 0 d b p (fun _ => us) s

/-- A member with no spare to go to is copied to its group's pool, erased, and will be programmed back (R357, R365); none where the pool has no
room. Until then the pool copy is the source. DEDUCED, log entry 148. -/
def poolReloc (d b cause : Nat) (s : State) : Option State :=
  match groupOfDie s d with
  | none => none
  | some g =>
    let n := (groupDies s g).length - 1
    let pages := (blockOf s d b).pages.toNat
    let cls := (blockClass s d b).getD 0
    match takePlies g cls (((pages + n - 1) / n + 5) / 6 * 6) s with
    | none => none
    | some (k, ply, s) =>
      let s := (List.range pages).foldl (pageToPool d b g k ply) s
      let s := putExt g k { key := memberKey d b, from_ := 0, cnt := 4 * pages, ply := ply } s
      let s := modBlock d b (fun e => { e with state := 3, relocSrc := true, zone := none }) s
      some (modMedia (fun u => { u with erases := u.erases ++ [(d, b, cls)], journal := u.journal + 1
                                        relocs := u.relocs ++ [{ die := d, src := b, tgt := b, copied := 0, cause := cause }] }) s)

/-- A queued relocation waits on. -/
def requeue (d b cause : Nat) (s : State) : State := modMedia (fun u => { u with refresh := u.refresh ++ [(d, b, cause)] }) s

/-- Start a member relocation (R357): a wear move onto the most-worn spare (R360), another onto the least-worn, with a skein dissolved where there
is none (R363). Where that gives none the spare policy decides: it is not started (R364), or goes through the pool, or waits (R365). -/
def beginReloc (d b cause : Nat) (s : State) : State :=
  if s.media.relocs.any (fun r => r.die = d && r.src = b) then s
  else
    match (if cause = 2 then mostWorn s d (sparesOf s d) else none) with
    | some t => startReloc d b cause (some t) s
    | none =>
      match getSpare d s with
      | (some t, s) => startReloc d b cause (some t) s
      | (none, s) =>
        let s := exhaustion d none s
        if readOnlyPolicy s && blockState s d b = 4 then (poolReloc d b cause s).getD (requeue d b cause s) else requeue d b cause s

/-- MEMBER_RELOCATION (R356, R357, R359): the oldest queued relocation that may run now starts its copy; its source is a bound or pool member. -/
def execMemberRelocation (s : State) : Out :=
  match s.media.refresh.find? (refreshOpen s) with
  | none => .next s
  | some (d, b, cause) =>
    let s := modMedia (fun u => { u with refresh := u.refresh.erase (d, b, cause) }) s
    if blockState s d b = 4 || blockState s d b = 5 then .next (beginReloc d b cause s)
    else .next (modBlock d b (fun e => { e with refreshQ := false }) s)

/-- The pool skein and the run that hold the pages of a relocation's source (R357). -/
def poolSource (s : State) (r : Reloc) : Option (PoolSkein × PoolExt) :=
  s.media.pool.findSome? (fun p => (p.exts.find? (fun x => x.key = memberKey r.die r.src)).map (fun x => (p, x)))

/-- A program to a block unit is in flight or waits for its slice: the source of a relocation still receives rows (R358). -/
def programsTo (s : State) (d b : Nat) : Bool :=
  (dieOf s d).op.any (fun o => o.desc.fn = 1 && o.desc.block = b) || s.piers.ops.any (fun x => x.fn = 1 && x.die = d && x.block = b)

/-- A relocation can commit, once no row of its zone is being programmed to its source (R358): one through the pool once its target is erased; in Hold no flash program starts (R202). -/
def relocReady (s : State) (r : Reloc) : Bool :=
  !inHold s && !programsTo s r.die r.src && ((poolSource s r).isNone || blockState s r.die r.tgt = 9)

/-- The copy-back of a member from the pool commits (R357, R358). -/
def commitPool (r : Reloc) (p : PoolSkein) (x : PoolExt) (s : State) : State :=
  let d := r.die
  let owner := (skeinOf s d r.src).bind (fun k => skeinOwner s p.group k)
  let pages := x.cnt / 4
  let stamp := hankStamp s
  let s := (List.range pages).foldl (pageFromPool p.group p.skein x.ply d r.tgt) s
  let s := match skeinOf s d r.src with
    | none => s
    | some k => modBlock d k (fun e => { e with standin := if r.tgt = k then 0xFFFF else BitVec.ofNat 16 r.tgt }) s
  let s := modBlock d r.tgt (fun e => { e with state := 4, zone := owner, pages := BitVec.ofNat 32 pages, progAt := stamp }) s
  let s := modBlock d r.src (fun e => { e with relocSrc := false, refreshQ := false }) s
  dropEmptyPool (cutPool (memberKey d r.src) 0 x.cnt (modMedia (fun u => { u with
    relocs := u.relocs.filter (fun y => decide (y ≠ r)), refresh := u.refresh.filter (fun y => !(y.1 = d && y.2.1 = r.src))
    journal := u.journal + 1 }) s))

/-- A zone that has lost a member under policy 0 moves to skeins its namespace has left in any group (R364); with none it is Read Only in place. -/
def commitMove (key : Nat) (s : State) : State :=
  let n : BitVec 32 := BitVec.ofNat 32 (key / 2 ^ 20)
  let z := key % 2 ^ 20
  let e := zoneOf s n z
  let s := modZone n z (fun y => { y with moving := false }) s
  match nsOf s n.toNat with
  | none => s
  | some x =>
    match bindGroup s x e.skeins.length (List.range (imgGroups s).length) with
    | none => forceZone n z 0xD s
    | some g =>
      let (ks, s) := takeSkeins n.toNat g e.skeins.length key s
      let s := unbindSkeins n.toNat e.group e.skeins x.cls.toNat (copySkeins e.group e.skeins g ks s)
      modZone n z (fun y => { y with group := g, skeins := ks }) (modMedia (fun u => { u with journal := u.journal + 1 }) s)

/-- The first zone on the move whose rows have all been programmed (R358, R364); none in Hold (R202). -/
def movedZone (s : State) : Option Nat :=
  (s.media.zones.find? (fun e => e.2.moving && !inHold s && !s.media.rows.any (fun r => rowKey r = e.1))).map (·.1)

/-- RELOCATION_COMMIT (R357, R358, R364): the oldest relocation that holds every programmed ply commits; with none, a zone on the move does. LBAs
of an unrecoverable ply carry their poison to the target with the zone's own marks (R352). -/
def execRelocationCommit (s : State) : Out :=
  match s.media.relocs.find? (relocReady s), movedZone s with
  | some r, _ =>
    match poolSource s r with
    | some (p, x) => .next (commitPool r p x s)
    | none => .next (commitReloc r s)
  | none, some key => .next (commitMove key s)
  | none, none => .next s

/-- A zone that no skein is left for, under the spare policy (R355, R364, R365): Read Only in place, or exhaustion and mode 9. -/
def rebuildNone (n : BitVec 32) (z : Nat) (s : State) : State :=
  if readOnlyPolicy s then exhaustion s.media.lastDie (some (n, z)) s
  else modMedia (fun u => { u with offlined := u.offlined + 1 }) (forceZone n z 0xD s)

/-- A bound zone of a degraded group that another group can take is bound there, its old skeins unbound; one that no skein was left for is handled
under the spare policy (R355). -/
def rebuildZone (key : Nat) (s : State) : State :=
  let n : BitVec 32 := BitVec.ofNat 32 (key / 2 ^ 20)
  let z := key % 2 ^ 20
  let e := zoneOf s n z
  if e.skeins = [] || !(grpOf s e.group).degraded then s
  else
    match nsOf s n.toNat with
    | none => s
    | some x =>
      match bindGroup s x e.skeins.length ((classGroups s x.cls.toNat).filter (· ≠ e.group)) with
      | some g =>
        let s := modGrp e.group (fun y => { y with used := y.used.filter (fun k => !e.skeins.contains k) }) s
        let s := modNs n.toNat (fun x => { x with bound := mmod 0 e.group (· - e.skeins.length) x.bound }) s
        let (ks, s) := takeSkeins n.toNat g e.skeins.length key (loseSkeins e.group e.skeins s)
        let s := copySkeins e.group e.skeins g ks s
        let s := modZone n z (fun y => { y with group := g, skeins := ks, degraded := false, moving := false }) (movePool key g x.cls.toNat s)
        (modMedia (fun u => { u with moved := u.moved + 1 }) s)
      | none => rebuildNone n z s

/-- A reclaim unit of a degraded group moves in the same way; one that no skein is left for keeps what survives of it, under
the spare policy. -/
def rebuildRu (k : Nat) (s : State) : State :=
  let r := ruOf s k
  if !(grpOf s r.group).degraded then s
  else
    match nsOf s r.nsid.toNat with
    | none => s
    | some x =>
      match bindGroup s x 1 ((classGroups s x.cls.toNat).filter (· ≠ r.group)) with
      | none => if readOnlyPolicy s then exhaustion s.media.lastDie none s else modMedia (fun u => { u with offlined := u.offlined + 1 }) s
      | some g =>
        let s := modGrp r.group (fun y => { y with used := y.used.filter (· ≠ r.skein) }) s
        let s := modNs r.nsid.toNat (fun x => { x with bound := mmod 0 r.group (· - 1) x.bound }) s
        let (ks, s) := takeSkeins r.nsid.toNat g 1 (2 ^ 60 + k) (loseSkeins r.group [r.skein] s)
        let s := copySkeins r.group [r.skein] g ks s
        let s := modRu k (fun y => { y with group := g, skein := ks.headD 0 }) (movePool (2 ^ 60 + k) g x.cls.toNat s)
        (modMedia (fun u => { u with moved := u.moved + 1 }) s)

/-- REBUILD_COMPLETE (R218, R355, R373): in mode 5 the zones and reclaim units of degraded groups have moved. Event 0x0944, and the device leaves
mode 5. -/
def execRebuildComplete (s : State) : Out :=
  if s.media.rebuild && s.reel.deck = 5 then
    let s := modMedia (fun u => { u with moved := 0, offlined := 0 }) s
    let s := s.media.rus.foldl (fun s e => rebuildRu e.1 s) (s.media.zones.foldl (fun s e => rebuildZone e.1 s) s)
    let d := s.media.lastDie
    let s := modMedia (fun u => { u with rebuild := false }) s
    let s := event 0x0944 [w32 (d / 16), w32 (d % 16), w32 ((groupOfDie s d).getD 0), w32 s.media.moved,
                           w32 s.media.offlined] s
    .next (leaveMode 5 (modReel (fun u => { u with condRebuild := false }) s))
  else .next s

end Sys2Proof.Machine
end

