-- ==== Sys2Proof/Machine/Net.lean ====
section
/-! DEFINITION. The Ethernet ports and the transport engine: link bring-up, frame reception and class shares, the
connection table, RoCEv2, NVMe/TCP, TCP and TLS, closing a connection, sending and retransmitting frames, device frames
and PTP (chapter 6). -/

namespace Sys2Proof.Machine

/-! ## Sub-ports and bring-up (R219–R226) -/

/-- Sub-ports of a port configuration (R219). -/
def subPorts (mode : BitVec 2) : Nat := if mode = 0 then 1 else if mode = 1 then 2 else if mode = 2 then 4 else 0

/-- Lanes of sub-port s of a configuration, as a mask over the port's eight (R219). -/
def subLanes (mode : BitVec 2) (s : Nat) : BitVec 8 :=
  if mode = 0 then 0xFF else if mode = 1 then 0xF#8 <<< (4 * s) else if mode = 2 then 3#8 <<< (2 * s) else 0

/-- A sub-port exists under the configuration in force (R221). -/
def hasSub (s : State) (p k : Nat) : Bool := decide (p < nPorts s) && decide (k < subPorts (portOf s p).mode)

/-- The bring-up step of a sub-port. -/
def subStep (s : State) (p k : Nat) : Nat := mget 0 (portOf s p).step k

/-- Put a sub-port at a bring-up step. -/
def setStep (p k st : Nat) (s : State) : State := modPort p (fun x => { x with step := mset 0 k st x.step }) s

/-- Bring-up of a sub-port starts at step 1 (R223), only while an image runs in a mode other than Hold. -/
def startBringUp (p k : Nat) (s : State) : State :=
  if inHold s || !s.reel.run then setStep p k 0 s
  else modPort p (fun x => { x with step := mset 0 k 1 x.step, tried := clrBit x.tried k }) s

/-- NET_LANE (R264). -/
def netLane (x : Port) : BitVec 32 := bfld x.txRev 25 ||| bfld x.rxRev 24 ||| fld x.txPol 16 ||| fld x.rxPol 0

/-- The link is up (R223): event 0x0801 and the port's link interrupt. -/
def linkUp (p k : Nat) (s : State) : State :=
  let s := modPort p (fun x => { x with step := mset 0 k 0 x.step, up := setBit x.up k, chg := setBit x.chg k }) s
  event 0x0801 [w32 p, w32 k, netLane (portOf s p)] s

/-- RECEIVER_LOCK (R223, step 1): every lane's receiver has locked. -/
def execReceiverLock (p : BitVec 3) (k : BitVec 2) (s : State) : Out :=
  if hasSub s p.toNat k.toNat && subStep s p.toNat k.toNat = 1 then .next (setStep p.toNat k.toNat 2 s) else .next s

/-- PMD_TRAINING_COMPLETE (R223, step 2). -/
def execPmdTrainingComplete (p : BitVec 3) (k : BitVec 2) (s : State) : Out :=
  if hasSub s p.toNat k.toNat && subStep s p.toNat k.toNat = 2 then .next (setStep p.toNat k.toNat 3 s) else .next s

/-- PCS_LOCK (R223, steps 3 and 4): inverted lanes are corrected and recorded, a fully reversed receive order reported.
An attachment without link training reaches it from step 2. -/
def execPcsLock (p : BitVec 3) (k : BitVec 2) (inverted : BitVec 8) (reversed : Bool) (s : State) : Out :=
  let st := subStep s p.toNat k.toNat
  if hasSub s p.toNat k.toNat && (st = 2 || st = 3) then
    let m := subLanes (portOf s p.toNat).mode k.toNat
    .next (setStep p.toNat k.toNat 4 (modPort p.toNat (fun x => { x with
      rxPol := (x.rxPol &&& ~~~ m) ||| (inverted &&& m), rxRev := reversed }) s))
  else .next s

/-- FEC_LOCK (R223, step 5): with no fault ordered sets the link comes up; while they continue it waits in step 5. -/
def execFecLock (p : BitVec 3) (k : BitVec 2) (faults : Bool) (s : State) : Out :=
  let st := subStep s p.toNat k.toNat
  if hasSub s p.toNat k.toNat && (st = 4 || st = 5) then
    if faults then .next (setStep p.toNat k.toNat 5 s) else .next (linkUp p.toNat k.toNat s)
  else .next s

/-- TRANSMIT_LANE_REVERSAL (R223, step 5): fault ordered sets continued for 50 ms; the transmitter reverses its lane
order once, unless a management write locked it. -/
def execTransmitLaneReversal (p : BitVec 3) (k : BitVec 2) (s : State) : Out :=
  let x := portOf s p.toNat
  if hasSub s p.toNat k.toNat && subStep s p.toNat k.toNat = 5 && !x.txRevLock && !bit x.tried k.toNat then
    .next (modPort p.toNat (fun x => { x with txRev := !x.txRev, tried := setBit x.tried k.toNat }) s)
  else .next s

/-- BRING_UP_STEP_TIMEOUT (R225, R263): bring-up starts again at step 1, is counted, and event 0x0804 names the step. -/
def execBringUpStepTimeout (p : BitVec 3) (k : BitVec 2) (s : State) : Out :=
  let st := subStep s p.toNat k.toNat
  if hasSub s p.toNat k.toNat && st ≠ 0 then
    let s := modPort p.toNat (fun x => { x with retry := satInc x.retry }) s
    .next (startBringUp p.toNat k.toNat (event 0x0804 [p.setWidth 32, w32 st, k.setWidth 32] s))
  else .next s

/-! ## Counters (R266) -/

/-- Add to counter k of a sub-port: 0 received, 1 sent, 2 share drops, 3 check drops, 4 length, tag or destination drops,
5 discarded without link, 6 codewords corrected, 7 uncorrectable. -/
def netCount (p sub k n : Nat) (s : State) : State :=
  modPort p (fun x => { x with cnt := mmod 0 (8 * sub + k) (· + BitVec.ofNat 64 n) x.cnt }) s

/-- A link is lost (R226): event 0x0802 with its cause, and bring-up starts again. It closes no connection. -/
def loseLink (p k cause : Nat) (s : State) : State :=
  let s := modPort p (fun x => { x with up := clrBit x.up k, chg := setBit x.chg k }) s
  startBringUp p k (event 0x0802 [w32 p, w32 k, w32 cause] s)

/-- FEC codewords arrive on a sub-port with link (R266, R268): above 1,024 uncorrectable ones within a hank the link is lost, cause 2 (R226). -/
def noteFec (p k corr unc : Nat) (s : State) : State :=
  let s := netCount p k 6 corr (netCount p k 7 unc s)
  let s := modPort p (fun x =>
    let n := mget 0 x.uncHank k + unc
    { x with uncHank := mset 0 k n x.uncHank, unc64 := if 64 < n then setBit x.unc64 k else x.unc64 }) s
  if 1024 < mget 0 (portOf s p).uncHank k then loseLink p k 2 s else s

/-- LINK_LOST (R226): causes 1 FEC lock, 2 uncorrectable codewords, of which `unc` arrive now, and 3 local fault. -/
def execLinkLost (p : BitVec 3) (k : BitVec 2) (cause : BitVec 2) (unc : BitVec 16) (s : State) : Out :=
  if !bit (portOf s p.toNat).up k.toNat then .next s
  else if cause = 2 then .next (noteFec p.toNat k.toNat 0 unc.toNat s)
  else if cause = 0 then .next s
  else .next (loseLink p.toNat k.toNat cause.toNat s)

/-- COUNTER_CLEAR (R266, R268): a write to the low word of a counter clears both words. -/
def execCounterClear (p : BitVec 3) (k : BitVec 2) (n : BitVec 3) (s : State) : Out :=
  .next (modPort p.toNat (fun x => { x with cnt := mset 0 (8 * k.toNat + n.toNat) 0 x.cnt }) s)

/-! ## Connections, queues and spindles (R231–R235) -/

/-- The spindle the image assigns to a connection's queue pair (R231). -/
def spindleOf (s : State) (conn : Nat) : Nat := ((s.store.running.map (fun im => mget 0 im.qp conn)).getD 0)

/-- The service class of a connection: its tenant's, and class 0 before it is bound (R227). -/
def connClass (s : State) (conn : Nat) : Nat :=
  match (connOf s conn).vc with | none => 0 | some v => (vcOf s v.toNat).cls.toNat

/-- Connections open now (R269). -/
def openConns (s : State) : Nat := (s.xpt.conns.filter (fun e => e.2.isOpen)).length
/-- Connections running TLS (R269). -/
def tlsConns (s : State) : Nat := (s.xpt.conns.filter (fun e => e.2.isOpen && e.2.tls)).length
/-- Entries pinned (R270). -/
def pinnedConns (s : State) : Nat := (s.xpt.conns.filter (fun e => e.2.isOpen && e.2.pinned)).length

/-- Entries that the cache holds (R233). -/
def cacheLimit (s : State) : Nat := if s.varB then 8192 else 16384

/-- The entries in the cache, with their numbers. -/
def cachedConns (s : State) : List (Nat × Conn) := s.xpt.conns.filter (fun e => e.2.isOpen && e.2.cached)

/-- An entry enters the cache (R233, R234): a full cache gives up its first entry that is not pinned. DESIGN CHOICE, log entry 179. -/
def cacheEntry (k : Nat) (s : State) : State :=
  if (connOf s k).cached then s
  else
    let s := if (cachedConns s).length < cacheLimit s then s
      else match (cachedConns s).find? (fun e => !e.2.pinned) with
        | none => s
        | some e => modConn e.1 (fun x => { x with cached := false }) s
    modConn k (fun x => { x with cached := true, late := x.late + x.held, held := 0 }) s

/-- A connection's entry is pinned in the cache, while the limit of R233 allows it. -/
def pinEntry (k : Nat) (s : State) : State :=
  if (connOf s k).pinned || cacheLimit s ≤ pinnedConns s then s
  else modConn k (fun x => { x with pinned := true }) (cacheEntry k s)

/-- The connection's tenant is bound to a bounded class (R233). -/
def connBounded (s : State) (c : Conn) : Bool :=
  match c.vc with | none => false | some v => (clsOf s (vcOf s v.toNat).cls.toNat).bounded

/-- A commit may change which classes are bounded: the entries of their connections are pinned, and no others (R233); at the limit those of the
lowest numbers. DEDUCED, log entry 104. -/
def repin (s : State) : State :=
  let s := modXpt (fun u => { u with conns := mmapv {} (fun c => { c with pinned := c.pinned && connBounded s c }) u.conns }) s
  ((s.xpt.conns.filter (fun e => e.2.isOpen && connBounded s e.2)).map (·.1)).foldl (fun s k => pinEntry k s) s

/-- A header unit of an RXQ item (R287). -/
def rxHeader (kind conn units cid off cnt : Nat) : BitVec 256 :=
  BitVec.ofNat 256 (kind + 2 ^ 16 * conn + 2 ^ 32 * units + 2 ^ 48 * cid + 2 ^ 64 * off + 2 ^ 128 * cnt)

/-- Put an item on a spindle's RXQ, or hold it while capsules are not passed on (R200, R320). -/
def pushRx (n : Nat) (us : List (BitVec 256)) (s : State) : State :=
  modSpn n (fun x => { x with rxq := x.rxq ++ us }) s

/-- Drop the item of a command's capsule from an RXQ: the keystone has parsed it, or it is discarded. Fuel is the
length of the queue. -/
def dropItem (conn cid : Nat) : Nat → List (BitVec 256) → List (BitVec 256)
  | 0, l => l
  | _ + 1, [] => []
  | f + 1, h :: t =>
    let n := ((h >>> 32).setWidth 16).toNat
    if h.setWidth 8 = 1#8 && ((h >>> 16).setWidth 16).toNat = conn && ((h >>> 48).setWidth 16).toNat = cid then t.drop n
    else h :: t.take n ++ dropItem conn cid f (t.drop n)

/-- The keystone takes a command's capsule off its spindle's RXQ. -/
def parseRx (conn cid : BitVec 16) (s : State) : State :=
  modSpn (spindleOf s conn.toNat) (fun x => { x with rxq := dropItem conn.toNat cid.toNat x.rxq.length x.rxq }) s

/-! ## What the class shares of a receive buffer hold (R229, R321, R323) -/

/-- Bytes of a class enter a port's receive buffer. -/
def rxAdd (p c n : Nat) (s : State) : State := modPort p (fun x => { x with rx := mmod 0 c (· + n) x.rx }) s

/-- Bytes of a class leave a port's receive buffer. -/
def rxFree (p c n : Nat) (s : State) : State := modPort p (fun x => { x with rx := mmod 0 c (· - n) x.rx }) s

/-- The port a connection's frames arrive on (R235). -/
def connPort (s : State) (conn : Nat) : Nat := (connOf s conn).sub.toNat / 4

/-- The transport layer has handled the oldest frame of a connection. -/
def rxTake (conn : Nat) (s : State) : State :=
  match (connOf s conn).frames with
  | [] => s
  | (c, n) :: rest => rxFree (connPort s conn) c n (modConn conn (fun x => { x with frames := rest, late := x.late - 1, lateNow := decide (0 < x.late) }) s)

/-- The transport layer has handled every frame of a connection. -/
def rxTakeAll (conn : Nat) (s : State) : State :=
  let p := connPort s conn
  (connOf s conn).frames.foldl (fun s e => rxFree p e.1 e.2 s) (modConn conn (fun x => { x with frames := [] }) s)

/-- The oldest device frame of a port has been handled; it lay in class 0's share (R227). -/
def rxTakeDev (p : Nat) (s : State) : State :=
  match (portOf s p).frames with
  | [] => s
  | n :: rest => rxFree p 0 n (modPort p (fun x => { x with frames := rest }) s)

/-- A capsule held is passed to its spindle's RXQ. -/
def passHeldOne (s : State) (h : HeldCap) : State := rxFree h.port h.cls h.bytes (pushRx h.spindle h.units s)

/-- A spindle takes capsules: it has not faulted (R131, R323). -/
def spindleTakes (s : State) (n : Nat) : Bool := (spn s n).state ≠ 3

/-- The capsules held for spindles that take them are passed on, oldest first. -/
def passHeld (s : State) : State :=
  if !s.xpt.takes then s
  else
    let go := s.xpt.waitCaps.filter (fun h => spindleTakes s h.spindle)
    go.foldl passHeldOne (modXpt (fun u => { u with waitCaps := u.waitCaps.filter (fun h => !spindleTakes s h.spindle) }) s)

/-- Capsules are passed on again, those held first. -/
def passCapsules (s : State) : State := passHeld (modXpt (fun u => { u with takes := true }) s)

/-- The capsules held of a connection are discarded. -/
def dropHeld (conn : BitVec 16) (s : State) : State :=
  (s.xpt.waitCaps.filter (fun h => h.conn = conn)).foldl (fun s h => rxFree h.port h.cls h.bytes s)
    (modXpt (fun u => { u with waitCaps := u.waitCaps.filter (fun h => h.conn ≠ conn) }) s)

/-- The records of a connection that wait for the resident OS have been taken, or are gone (R273). -/
def osDone (k : Nat) (s : State) : State :=
  let n := (connOf s k).osWait
  modConn k (fun c => { c with osWait := 0 }) (modXpt (fun u => { u with tlsWait := u.tlsWait - n }) s)

/-- A record of a connection waits for the resident OS (R247, R251, R273). -/
def osRecord (k : Nat) (s : State) : State :=
  modConn k (fun c => { c with osWait := c.osWait + 1 }) (modXpt (fun u => { u with tlsWait := u.tlsWait + 1 }) s)

/-- The TLS records held of a connection leave its class share. -/
def dropRecords (k : Nat) (s : State) : State :=
  let p := connPort s k
  (connOf s k).recs.foldl (fun s r => rxFree p r.1 r.2.2.length s) (modConn k (fun c => { c with recs := [] }) s)

/-! ## Write data on its way through RXQ (R231, R287, R288) -/

/-- The items of an RXQ that a test of their header units picks, as (header, units), and the queue without them. Fuel is the length of the queue. -/
def takeItems (f : BitVec 256 → Bool) : Nat → List (BitVec 256) → List (BitVec 256) × List (BitVec 256 × List (BitVec 256))
  | 0, l => (l, [])
  | _ + 1, [] => ([], [])
  | k + 1, h :: t =>
    let n := ((h >>> 32).setWidth 16).toNat
    let (l, r) := takeItems f k (t.drop n)
    if f h then (l, (h, t.take n) :: r) else (h :: t.take n ++ l, r)

/-- The connection of an RXQ item (R287). -/
def rxConn (h : BitVec 256) : BitVec 16 := (h >>> 16).setWidth 16

/-- An item of write data is staged for its command; a command that no longer waits for it leaves it (R288). -/
def stageItem (s : State) (e : BitVec 256 × List (BitVec 256)) : State :=
  match liveCmd s (rxConn e.1) ((e.1 >>> 48).setWidth 16) with
  | some c =>
    if c.phase = Phase.waitData then
      stageData c ((e.1 >>> 64).toNat % 2 ^ 64) ((unitsBytes e.2).take ((e.1 >>> 128).toNat % 2 ^ 32)) s
    else s
  | none => s

/-- The keystone takes the items of write data of the connections that a test picks off a spindle's RXQ, in order (R231, R288). -/
def takeData (f : BitVec 16 → Bool) (n : Nat) (s : State) : State :=
  let q := takeItems (fun h => h.setWidth 8 = 2#8 && f (rxConn h)) (spn s n).rxq.length (spn s n).rxq
  if q.2 = [] then s else q.2.foldl stageItem (modSpn n (fun x => { x with rxq := q.1 }) s)

/-- A parse issue slot of a class runs on a spindle that has not faulted (R69, R131). -/
def parseRuns (s : State) (n cls : Nat) : Bool :=
  spindleTakes s n && s.reel.grants.any (fun g => grantRuns s g && g.slot.typ = 8 && g.slot.owner = cls && grantRes g = n)

/-- Write data that answers the open request `r` of a command goes through the RXQ of its connection's spindle, as an item of kind 2 (R231, R287);
it is staged in a parse issue slot of its class, at once where one runs. DEDUCED, log entry 173. -/
def pushData (c : Cmd) (r : Nat × Nat) (data : List (BitVec 8)) (s : State) : State :=
  let n := spindleOf s c.conn.toNat
  let s := updCmd c (fun y => { y with asked := moveAsk r data.length y.asked }) s
  let us := bytesUnits data
  let s := pushRx n (rxHeader 2 c.conn.toNat us.length c.cid.toNat r.1 data.length :: us) s
  let cls := connClass s c.conn.toNat
  if parseRuns s n cls then takeData (fun k => connClass s k.toNat = cls) n s else s

/-! ## Closing a connection (R243, R284) -/

/-- A command of a closing connection: one not parsed, and one that waits, is discarded (R243, R321); a write whose data
is incomplete ends under R296; any other runs to its end with its entry marked closed. -/
def closeCmd (c : Cmd) (s : State) : State :=
  let waits := c.phase = Phase.received || c.phase = Phase.waitLock || c.phase = Phase.waitOrder ||
    c.phase = Phase.deferred || c.phase = Phase.held
  if waits then
    freeCmd c (freeLocks (locksOf s c.conn c.cid false) s)
  else if c.phase = Phase.waitData then
    let s := partialWriteEnd c s
    let s := freeLocks (locksOf s c.conn c.cid false) s
    putCmds (s.tables.cmds.filter (fun x => !(x.conn = c.conn && x.cid = c.cid && !x.internal))) s
  else updCmd c (fun x => { x with closed := true }) s

/-- A queue that is gone leaves no order behind (R300). -/
def forgetQueue (conn : BitVec 16) (s : State) : State :=
  modTables (fun u => { u with
    nextOrder := mdel conn.toNat u.nextOrder, lastOrd := mdel conn.toNat u.lastOrd, fails := u.fails.filter (fun f => decide (f.1 ≠ conn.toNat)) }) s

/-- Close one connection (R243): by error with a reason of event 0x0811, or not, with a reason of event 0x0814. Frames
waiting are dropped, its commands end as R243 says, and its spindle is told by a kind 4 item. -/
def closeOne (k : Nat) (byError : Bool) (reason : Nat) (s : State) : State :=
  let c := connOf s k
  if !c.isOpen then s
  else
    let conn : BitVec 16 := BitVec.ofNat 16 k
    let s := takeData (· = conn) (spindleOf s k) s
    let mine := s.tables.cmds.filter (fun x => !x.internal && !x.closed && x.conn = conn)
    let s := modXpt (fun u => { u with tx := u.tx.filter (fun f => decide (f.conn ≠ some conn)) }) (dropRecords k (osDone k (rxTakeAll k (dropHeld conn s))))
    let s := mine.foldl (fun s x => closeCmd x (parseRx conn x.cid s)) s
    let done := s.tables.locks.filterMap (fun e => match e.2 with
      | some l => if !l.internal && l.conn = conn && (findCmd s conn l.cid).isNone then some e.1 else none
      | none => none)
    let s := freeLocks done s
    let s := modConn k (fun _ => {}) (forgetQueue conn s)
    let s := match c.vc with
      | none => s
      | some v => modCtrl v.toNat (fun x => { x with
          admin := if x.admin = some conn then none else x.admin, ios := x.ios.filter (fun q => decide (q.1 ≠ conn)) }) s
    let s := pushRx (spindleOf s k) [rxHeader 4 k 0 0 0 0] s
    if byError then
      event 0x0811 [0xFFFFFFFF, w32 k, w32 reason] s
    else event 0x0814 [0xFFFFFFFF, w32 k, w32 reason] s

/-- A controller reset (R319): every I/O connection closes, and CSTS.RDY drops. -/
def ctrlReset (v : Nat) (s : State) : State :=
  let s := (ctrlOf s v).ios.foldl (fun s q => closeOne q.1.toNat false 2 s) s
  modCtrl v (fun x => { x with rdy := false, kaRuns := false, shst := if bit x.cc 15 || bit x.cc 14 then 2 else 0,
                               cc := x.cc &&& 0xFFFFFFFE }) s

/-- Close a connection (R243); the closing of an admin queue resets its controller (R319). -/
def closeConnection (k : Nat) (byError : Bool) (reason : Nat) (s : State) : State :=
  let c := connOf s k
  let isAdmin := match c.vc with | none => false | some v => decide ((ctrlOf s v.toNat).admin = some (BitVec.ofNat 16 k))
  let s := closeOne k byError reason s
  match isAdmin, c.vc with
  | true, some v => ctrlReset v.toNat s
  | _, _ => s

/-- ACKNOWLEDGMENT_TIMEOUT (R320): 50 ms after an activation request a connection still holds unacknowledged read
data. -/
def execAcknowledgmentTimeout (conn : BitVec 16) (s : State) : Out :=
  if s.store.act = .accepted && (connOf s conn.toNat).unack.any (fun r => r.frame.src.isSome) then
    .next (closeConnection conn.toNat true 3 s)
  else .next s

/-! ## Receiving (R222, R227–R231) -/

/-- The local queue pair number of RoCEv2 connection k (R232). -/
def localQp (k : Nat) : Nat := 256 + k

/-- The open connection that a frame's headers name, on the sub-port that it belongs to (R227, R232, R235). DEDUCED, log entry 175. -/
def frameConn (s : State) (sub : BitVec 5) (h : FrameHead) : Option Nat :=
  match h with
  | .roce qp => (s.xpt.conns.find? (fun e => e.2.isOpen && !e.2.tcp && e.2.sub = sub && decide (localQp e.1 = qp.toNat))).map (·.1)
  | .tcp v6 ip rport port _ =>
    (s.xpt.conns.find? (fun e => e.2.isOpen && e.2.tcp && e.2.sub = sub && e.2.v6 = v6 && e.2.ip = ip && e.2.rport = rport && e.2.port = port)).map (·.1)
  | _ => none

/-- Where a frame goes (R227, R237, R260): to a connection, to class 0 as a device frame, a datagram for queue pair 1 or the segment that opens a
connection, or nowhere. -/
def frameDest (s : State) (sub : BitVec 5) (h : FrameHead) : Option (Option Nat) :=
  match frameConn s sub h with
  | some k => some (some k)
  | none =>
    let own := match h with | .roce qp => decide (qp = 1) | .tcp _ _ _ _ syn => syn | .device served => served | .foreign => false
    if own then some none else none

/-- Room a class has in a port's receive buffer (R229). -/
def rxRoom (s : State) (p c : Nat) : Nat := mget 0 (portOf s p).share c - mget 0 (portOf s p).rx c

/-- FRAME_RECEIVE (R222, R227, R229, R230, R234, R260). `head` is what its headers name, `len` counts destination address to FCS, `tags` the VLAN
tags, `bad` a failed FCS, checksum or ICRC, `corr` and `unc` the FEC codewords since the last frame. The frame is dropped and counted, or buffered in its
class share; one whose connection entry is not cached waits there. `cacheBad`: the cached entry was uncorrectable and is read again from DRAM, a
Notice fault (R480). -/
def execFrameReceive (p : BitVec 3) (k : BitVec 2) (head : FrameHead) (len : BitVec 16)
    (tags : BitVec 2) (vid : BitVec 12) (pause bad cacheBad : Bool) (corr unc : BitVec 16) (s : State) : Out :=
  let pn := p.toNat
  let kn := k.toNat
  let s := if bit (portOf s pn).up kn then noteFec pn kn corr.toNat unc.toNat s else s
  if !bit (portOf s pn).up kn then .next s
  else
    let x := portOf s pn
    let tagBad := if bit x.vlanEn kn then tags ≠ 1 || vid ≠ mget 0 x.vlan kn else tags ≠ 0
    if 9216 < len.toNat || tagBad || pause then .next (netCount pn kn 4 1 s)
    else if bad then .next (netCount pn kn 3 1 s)
    else match frameDest s (p ++ k) head with
    | none => .next (netCount pn kn 4 1 s)
    | some dest =>
      let cls := match dest with | some c => connClass s c | none => 0
      if rxRoom s pn cls < len.toNat then
        .next (modPort pn (fun x => { x with drop := setBit x.drop kn }) (netCount pn kn 2 1 s))
      else
        let s := rxAdd pn cls len.toNat (netCount pn kn 0 1 s)
        match dest with
        | none => .next (modPort pn (fun x => { x with frames := x.frames ++ [len.toNat] }) s)
        | some c =>
          let s := modConn c (fun x => { x with frames := x.frames ++ [(cls, len.toNat)] }) s
          if (connOf s c).cached then .next (if cacheBad then raiseFault 20 1 s else s)
          else .next (modConn c (fun x => { x with held := x.held + 1 }) s)

/-- A DRAM port slot of a class runs (R234). -/
def dramSlot (s : State) (cls : Nat) : Bool :=
  s.reel.grants.any (fun g => grantRuns s g && !g.late && g.slot.typ = 7 && g.slot.kind = 4 && g.slot.owner = cls)

/-- The connection table's cache has no entry that can make room (R233, R234). -/
def cacheFull (s : State) : Bool := decide (cacheLimit s ≤ (cachedConns s).length) && (cachedConns s).all (fun e => e.2.pinned)

/-- CONNECTION_ENTRY_FILL (R234, R270, R487): a missing entry is filled from DRAM in a DRAM port slot of its class, and its waiting
frames proceed; a poisoned entry closes the connection as a protocol error, since the engine cannot use it. A cache full of pinned entries takes
none. -/
def execConnectionEntryFill (conn : BitVec 16) (poisoned : Bool) (s : State) : Out :=
  let c := connOf s conn.toNat
  if !c.isOpen || c.cached || !dramSlot s (connClass s conn.toNat) || cacheFull s then .next s
  else if poisoned then .next (closeConnection conn.toNat true 1 s)
  else .next (cacheEntry conn.toNat (modXpt (fun u => { u with miss := satInc u.miss }) s))

/-! ## Command capsules (R231, R236, R241, R285, R287) -/

/-- Opcode of a submission entry. -/
def sqeOp (q : BitVec 512) : BitVec 8 := q.setWidth 8
/-- Command identifier of a submission entry. -/
def sqeCid (q : BitVec 512) : BitVec 16 := (q >>> 16).setWidth 16
/-- A 32-bit word of a submission entry. -/
def sqeDw (q : BitVec 512) (k : Nat) : BitVec 32 := (q >>> (32 * k)).setWidth 32

/-- The order number of a queue's next command. -/
def nextOrder (s : State) (conn : Nat) : Nat := mget 0 s.tables.nextOrder conn

/-- The opcodes that can carry the ordered attribute (R300). -/
def orderable (o : BitVec 8) : Bool := [0x02, 0x01, 0x08, 0x0C, 0x19, 0x7D, 0x00, 0x79].contains o

/-- The command-table entry of a capsule (R284, R300): its fields are those of the NVM command set's submission entry. -/
def cmdOfSqe (s : State) (conn : BitVec 16) (q : BitVec 512) : Cmd :=
  let c := connOf s conn.toNat
  let ord := bit (sqeDw q 13) 14 && c.qid ≠ 0 && orderable (sqeOp q) && (match c.vc with | none => false | some v => (ctrlOf s v.toNat).ordered)
  { conn := conn, cid := sqeCid q, opcode := sqeOp q, admin := decide (c.qid = 0), vc := c.vc,
    cls := BitVec.ofNat 8 (connClass s conn.toNat), nsid := sqeDw q 1,
    slba := ((sqeDw q 11).toNat * 2 ^ 32 + (sqeDw q 10).toNat), nlb := ((sqeDw q 12).setWidth 16).toNat + 1,
    fua := bit (sqeDw q 12) 30, ordered := ord, order := nextOrder s conn.toNat,
    predFrom := (mget none s.tables.lastOrd conn.toNat).getD 0, arrival := s.tables.arrivals, sqe := q
    unbound := decide (c.unb ≠ 0) || c.lateNow }

/-- The in-capsule data of a capsule's item. -/
def capsuleData (data : List (BitVec 256)) : List (BitVec 8) := unitsBytes data

/-- A command capsule reaches its spindle (R231, R285, R287): a duplicate identifier or a queue above its size closes the
connection as a protocol error. -/
def takeCapsule (conn : BitVec 16) (q : BitVec 512) (data : List (BitVec 256)) (s : State) : State :=
  let c := connOf s conn.toNat
  let live := s.tables.cmds.filter (fun x => !x.internal && !x.closed && x.conn = conn)
  if live.any (fun x => x.cid = sqeCid q) || c.sqSize ≤ live.length || 256 < data.length then
    closeConnection conn.toNat true 1 s
  else
    let m := { cmdOfSqe s conn q with rx := capsuleData data }
    let us := [rxHeader 1 conn.toNat (2 + data.length) (sqeCid q).toNat 0 0, q.setWidth 256, (q >>> 256).setWidth 256] ++ data
    let s := modTables (fun u => { u with
        cmds := u.cmds ++ [m], arrivals := u.arrivals + 1,
        nextOrder := mset 0 conn.toNat (m.order + 1) u.nextOrder,
        lastOrd := if m.ordered then mset none conn.toNat (some m.order) u.lastOrd else u.lastOrd }) s
    let h : HeldCap := { spindle := spindleOf s conn.toNat, conn := conn, units := us, port := connPort s conn.toNat
                         cls := connClass s conn.toNat, bytes := 64 + 32 * data.length }
    if s.xpt.takes && spindleTakes s h.spindle then pushRx h.spindle us s
    else rxAdd h.port h.cls h.bytes (modXpt (fun u => { u with waitCaps := u.waitCaps ++ [h] }) s)

/-- A connection can carry the transport's requests: open, cached, and past its TLS handshake (R234, R247). -/
def connReady (s : State) (conn : Nat) : Bool := (connOf s conn).isOpen && (connOf s conn).cached && !(connOf s conn).hand

/-- A device-built frame of a connection. -/
def devFrame (conn : BitVec 16) (kind : BitVec 4) (s : State) : State :=
  queueFrame { path := connPath s conn, kind := kind, conn := some conn } s

/-- Every 16 packets of a queue pair, at the latest, an acknowledgment is sent (R240). -/
def noteAck (conn : BitVec 16) (s : State) : State :=
  let n := (connOf s conn.toNat).ackDue + 1
  if n = 16 then devFrame conn 4 (modConn conn.toNat (fun c => { c with ackDue := 0 }) s)
  else modConn conn.toNat (fun c => { c with ackDue := n }) s

/-- A packet marked Congestion Experienced is answered with a CNP, at most one per queue pair every 50 µs (R239). -/
def noteEcn (conn : BitVec 16) (ecn : Bool) (s : State) : State :=
  if !ecn then s
  else
    let s := passTime s
    let due := match (connOf s conn.toNat).ecnNs with | none => true | some t => decide (t + 50000 ≤ s.now.toNat)
    if due then devFrame conn 6 (modConn conn.toNat (fun c => { c with ecnNs := some s.now.toNat }) s) else s

/-- A packet with an opcode that its queue pair does not take (R236): an RDMA or atomic request is answered with a remote-access-error NAK, any
other opcode is a transport protocol error; both close the queue pair (R243). -/
def refusePacket (conn : BitVec 16) (op : BitVec 8) (s : State) : State :=
  if decide (6 ≤ op.toNat ∧ op.toNat ≤ 0x0C) || op = 0x13 || op = 0x14 then
    closeConnection conn.toNat true 4 (queueNak conn (connClass s conn.toNat) s)
  else closeConnection conn.toNat true 1 s

/-- ROCE_SEND (R231, R236, R239, R240): a received SEND, by its opcode: First and Middle wait for the message's last packet, with which a command
capsule is whole. `q` and `data` are that capsule. -/
def execRoceSend (conn : BitVec 16) (op : BitVec 8) (q : BitVec 512) (data : List (BitVec 256)) (ecn : Bool) (s : State) : Out :=
  if connReady s conn.toNat && !(connOf s conn.toNat).tcp then
    if op = 0 || op = 1 then .next (noteAck conn (noteEcn conn ecn (rxTake conn.toNat s)))
    else if op = 2 || op = 4 then
      .next (takeCapsule conn q data (noteAck conn (noteEcn conn ecn (rxTake conn.toNat s))))
    else .next (refusePacket conn op (rxTake conn.toNat s))
  else .next s

/-! ## Requests for write data (R238, R241, R289) -/

/-- Open requests of a connection's commands (R238). -/
def openAsks (s : State) (conn : BitVec 16) : Nat :=
  ((s.tables.cmds.filter (fun c => !c.internal && !c.closed && c.conn = conn)).map (fun c => c.asked.length)).sum

/-- The next request of a command for its data, as (length, address, R_Key), where its transport lets one more be open: on TCP up to
min(MAXR2T + 1, 4) for the command, each of up to 131,072 bytes (R241); on RoCEv2 one keyed range's part at a time, up to 16 for the queue pair
(R238). -/
def nextAsk (s : State) (c : Cmd) : Option (Nat × Nat × BitVec 32) :=
  let k := connOf s c.conn.toNat
  let rest := c.left + c.staged - c.nextAsk
  if rest = 0 || c.phase ≠ Phase.waitData || !k.isOpen then none
  else if k.tcp then (if c.asked.length < min (k.maxr2t.toNat + 1) 4 then some (min rest 131072, 0, 0) else none)
  else if 16 ≤ openAsks s c.conn then none
  else (rangeSlices c.ranges c.nextAsk rest).head?.map (fun r => (r.2.2, r.1, r.2.1))

/-- A request for a command's data is sent and open (R289): a Ready-to-Transfer PDU, or an RDMA READ Request. -/
def sendAsk (c : Cmd) (len addr : Nat) (key : BitVec 32) (s : State) : State :=
  let k := connOf s c.conn.toNat
  let s := updCmd c (fun y => { y with asked := y.asked ++ [(c.nextAsk, c.nextAsk + len)], nextAsk := c.nextAsk + len }) s
  if k.tcp then
    let (d, s) := drawBits s
    queuePdu c.conn (r2tPdu k c.cid (d.setWidth 16) c.nextAsk len) s
  else queueFrame { path := k.sub, conn := some c.conn, desc := frameDesc c.conn 0 0x0C 0 0 addr key.toNat len } s

/-- A command's requests are sent as far as its transport lets them be open now. Fuel bounds them. -/
def askData (conn cid : BitVec 16) : Nat → State → State
  | 0, s => s
  | f + 1, s =>
    match liveCmd s conn cid with
    | none => s
    | some c =>
      match nextAsk s c with
      | none => s
      | some (len, addr, key) => askData conn cid f (sendAsk c len addr key s)

/-- After an answer the connection's commands ask on, oldest first. -/
def askOn (conn : BitVec 16) (s : State) : State :=
  (s.tables.cmds.filter (fun c => !c.internal && !c.closed && c.conn = conn && c.phase = Phase.waitData)).foldl
    (fun s c => askData conn c.cid 17 s) s

/-- RDMA_READ_RESPONSE (R236, R239, R288): write data of a command, for its oldest open request, is staged; First, Middle, Last and Only are the
response's opcodes. Data beyond its request, or a last packet short of it, is a protocol error. -/
def execRdmaReadResponse (conn cid : BitVec 16) (op : BitVec 8) (data : List (BitVec 8)) (ecn : Bool) (s : State) : Out :=
  if connReady s conn.toNat && !(connOf s conn.toNat).tcp then
    let s := rxTake conn.toNat s
    if op.toNat < 0x0D || 0x10 < op.toNat then .next (refusePacket conn op s) else
    let s := noteEcn conn ecn s
    match liveCmd s conn cid with
    | some c =>
      match c.asked.head? with
      | none => .next s
      | some r =>
        let last := op = 0x0F || op = 0x10
        if r.2 < r.1 + data.length || (last && r.1 + data.length ≠ r.2) then .next (closeConnection conn.toNat true 1 s)
        else .next (askOn conn (pushData c r data s))
    | none => .next s
  else .next s

/-- A frame of a command waits to be sent or to be acknowledged; one that a spindle pushed and that names no command may be of any. DESIGN CHOICE, log
entry 176. -/
def awaitsAck (s : State) (conn cid : BitVec 16) : Bool :=
  let mine := fun (f : TxFrame) => f.cid = some cid || (f.cid.isNone && f.pushed)
  (connOf s conn.toNat).unack.any (fun r => mine r.frame) || s.xpt.tx.any (fun f => f.conn = some conn && mine f)

/-- Read locks of commands whose completion has gone and whose data and completion are all acknowledged are released (R258, R302). -/
def releaseReadLocks (conn : BitVec 16) (s : State) : State :=
  freeLocks (s.tables.locks.filterMap (fun e => match e.2 with
    | some l => if !l.internal && !l.excl && l.conn = conn && (findCmd s conn l.cid).isNone && !awaitsAck s conn l.cid then some e.1 else none
    | none => none)) s

/-- A connection is given up (R240, R244): a TCP connection is reset. -/
def abandon (conn : BitVec 16) (s : State) : State :=
  let c := connOf s conn.toNat
  closeConnection conn.toNat true 3 (if c.tcp then queueSegment conn (connClass s conn.toNat) 0x14 c.seqNo (tsOption c) [] s else s)

/-- Retransmit the oldest unacknowledged frame (R240, R244, R256–R259), of those that the peer has not reported received: read data by a retransmit
request in its spindle's RXQ, another frame from its record. After `limit` tries the connection closes. -/
def retransmit (conn : BitVec 16) (rnr : Bool) (limit : Nat) (s : State) : State :=
  let l := (connOf s conn.toNat).unack
  match (l.find? (fun r => !r.sacked)).orElse (fun _ => l.head?) with
  | none => s
  | some r =>
    let tries := if rnr then r.rnr else r.tries
    if limit ≤ tries then abandon conn s
    else
      let r' := if rnr then { r with rnr := r.rnr + 1 } else { r with tries := r.tries + 1 }
      let s := modConn conn.toNat (fun c => { c with unack := c.unack.map (fun x => if x = r then r' else x) }) s
      match r.frame.src, r.cid with
      | some _, some cid => pushRx (spindleOf s conn.toNat) [rxHeader 3 conn.toNat 0 cid.toNat r.off.toNat r.len.toNat] s
      | _, _ => queueFrame { r.frame with again := true, seq := r.seq } s

/-- ACKNOWLEDGE (R239, R240, R258): a queue pair's acknowledgment up to a sequence number, or a sequence-error NAK that retransmits. -/
def execAcknowledge (conn : BitVec 16) (seq : BitVec 32) (nak ecn : Bool) (s : State) : Out :=
  if connReady s conn.toNat && !(connOf s conn.toNat).tcp then
    let s := noteEcn conn ecn (rxTake conn.toNat s)
    let upTo := ((connOf s conn.toNat).unack.findIdx? (fun r => r.seq = seq)).getD 0
    let n := if (connOf s conn.toNat).unack.any (fun r => r.seq = seq) then (if nak then upTo else upTo + 1) else 0
    let s := modConn conn.toNat (fun c => { c with unack := c.unack.drop n }) s
    let s := releaseReadLocks conn s
    if nak then .next (retransmit conn false 7 s) else .next s
  else .next s

/-- RECEIVER_NOT_READY_RETRY (R239, R240): after a receiver-not-ready NAK the packet is retried, and the queue pair closes after
7 such retries. -/
def execReceiverNotReadyRetry (conn : BitVec 16) (ecn : Bool) (s : State) : Out :=
  if connReady s conn.toNat && !(connOf s conn.toNat).tcp then
    .next (retransmit conn true 7 (noteEcn conn ecn (rxTake conn.toNat s)))
  else .next s

/-- CNP_RECEIVE (R239): counted, and nothing changes. -/
def execCnpReceive (conn : BitVec 16) (s : State) : Out :=
  if connReady s conn.toNat && !(connOf s conn.toNat).tcp then .next (modXpt (fun u => { u with cnps := u.cnps + 1 }) (rxTake conn.toNat s)) else .next s

/-- REMOTE_ACCESS_REQUEST (R236, R243): answered with a remote-access-error NAK, and the queue pair closes, reason 4. -/
def execRemoteAccessRequest (conn : BitVec 16) (s : State) : Out :=
  if connReady s conn.toNat && !(connOf s conn.toNat).tcp then
    .next (refusePacket conn 0x0C (rxTake conn.toNat s))
  else .next s

/-- A new connection-table entry (R232, R233, R235): in the cache at once while that has room. DESIGN CHOICE, log entry 179. -/
def openConn (k : Nat) (c : Conn) (s : State) : State :=
  if (connOf s k).isOpen || nConns s ≤ k then s
  else
    let room := (cachedConns s).length < cacheLimit s
    modConn k (fun _ => { c with isOpen := true, cached := room }) s

/-- COMMUNICATION_MANAGEMENT_DATAGRAM (R237): passed to the resident OS through source 290; the one that completes a
set-up opens the queue pair with the largest path MTU both sides offer. -/
def execCommunicationManagementDatagram (sub : BitVec 5) (conn : BitVec 16) (peer : BitVec 48) (far : Peer) (mtu : BitVec 13)
    (ready : Bool) (s : State) : Out :=
  let s := modXpt (fun u => { u with qp1 := u.qp1 + 1 }) (rxTakeDev (sub.toNat / 4) s)
  if ready then
    .next (openConn conn.toNat { sub := sub, peer := peer, v6 := far.v6, ip := far.ip, dqp := far.qp, dscp := far.dscp, mtu := if 4096 ≤ mtu.toNat then 4096 else if 2048 ≤ mtu.toNat then 2048 else 1024 } s)
  else .next s

/-- LOCAL_ACK_TIMEOUT (R240): the oldest unacknowledged packet is retransmitted; after 7 retransmissions the queue pair
closes. DESIGN CHOICE, log entry 6. -/
def execLocalAckTimeout (conn : BitVec 16) (s : State) : Out :=
  if connReady s conn.toNat && !(connOf s conn.toNat).tcp then .next (retransmit conn false 7 s) else .next s

/-! ## NVMe/TCP (R241, R242) -/

/-- The last bytes of a connection that is about to close, on a TLS connection in a record of their content type. -/
def queueLast (typ : BitVec 8) (conn : BitVec 16) (text : List (BitVec 8)) (s : State) : State :=
  let c := connOf s conn.toNat
  let put := fun (l : List (BitVec 8)) (s : State) => queueSegment conn (connClass s conn.toNat) 0x18 c.seqNo (tsOption c) l s
  if c.tls then
    match tlsSendOf typ conn text s with
    | (none, s) => s
    | (some l, s) => put l s
  else put text s

/-- Close a TCP connection on an error of its peer, after a C2HTermReq with an error status (R241, R242). -/
def termClose (conn : BitVec 16) (reason : Nat) (fes : BitVec 16) (s : State) : State :=
  closeConnection conn.toNat true reason (queueLast 0x17 conn (termReq fes) s)

/-- A PDU that fails a digest check the connection uses (R242): the C2HTermReq carries the header digest's code; the standard has none for the data
digest, whose code is free. DEDUCED, log entry 182. -/
def digestClose (conn : BitVec 16) (head : Bool) (s : State) : State :=
  if head then termClose conn 2 3 s
  else
    let (d, s) := drawBits s
    termClose conn 2 (d.setWidth 16) s

/-- The bytes that a PDU takes of the verified text of a TLS connection, none where it is not there whole (R249); a connection without TLS has no such
text. -/
def plainPdu (c : Conn) (typ : BitVec 8) : Option Nat :=
  let n := leNat ((c.plain.drop 4).take 4)
  if !c.tls then some 0
  else if 8 ≤ n && n ≤ c.plain.length && c.plain.getD 0 0 = typ then some n
  else none

/-- A received PDU of a type is acted on: on a TLS connection only from verified text, which it then leaves (R249). -/
def takePdu (conn : BitVec 16) (typ : BitVec 8) (f : State → State) (s : State) : State :=
  let c := connOf s conn.toNat
  match (if connReady s conn.toNat && c.tcp then plainPdu c typ else none) with
  | none => s
  | some n => modConn conn.toNat (fun c => { c with plain := c.plain.drop n, unb := c.unb - n }) (f s)

/-- An ICReq that the device takes (R241, R242): the ICResp answers it, and the digests it asks for are in force except under TLS. -/
def setUpPdus (conn : BitVec 16) (hpda : BitVec 8) (maxr2t : BitVec 32) (hdgst ddgst : Bool) (s : State) : State :=
  let s := modConn conn.toNat (fun c => { c with
    icDone := true, hpda := hpda, maxr2t := maxr2t, hdgst := hdgst && !c.tls, ddgst := ddgst && !c.tls }) s
  queuePdu conn (icResp (connOf s conn.toNat)) s

/-- ICREQ (R241, R242): PFV 0 and HPDA up to 31 set the connection up, with the digests it asks for except under TLS. -/
def execIcreq (conn : BitVec 16) (pfv : BitVec 16) (hpda : BitVec 8) (maxr2t : BitVec 32) (hdgst ddgst : Bool) (s : State) : Out :=
  .next (takePdu conn 0 (fun s =>
    if (connOf s conn.toNat).icDone then termClose conn 1 2 s
    else if pfv ≠ 0 || 31 < hpda.toNat then termClose conn 1 6 s
    else setUpPdus conn hpda maxr2t hdgst ddgst s) s)

/-- CAPSULE_CMD (R241, R242, R285): a PDU by its type: a command capsule (4), its digests checked; one of a type that the device does not
receive is a protocol error. ICReq (0), H2CTermReq (2) and H2CData (6) are the commands of their own. -/
def execCapsuleCmd (conn : BitVec 16) (typ : BitVec 8) (q : BitVec 512) (data : List (BitVec 256)) (hdBad ddBad : Bool) (s : State) : Out :=
  .next (takePdu conn typ (fun s =>
    let c := connOf s conn.toNat
    if typ = 0 || typ = 2 || typ = 6 then s
    else if typ ≠ 4 then termClose conn 1 1 s
    else if !c.icDone then termClose conn 1 2 s
    else if hdBad && c.hdgst then digestClose conn true s
    else if ddBad && c.ddgst then digestClose conn false s
    else takeCapsule conn q data s) s)

/-- H2C_DATA (R241, R242, R288): write data against an open Ready-to-Transfer request, within its offset and length. -/
def execH2cData (conn cid : BitVec 16) (off : BitVec 32) (data : List (BitVec 8)) (hdBad ddBad : Bool) (s : State) : Out :=
  .next (takePdu conn 6 (fun s =>
    let c := connOf s conn.toNat
    if hdBad && c.hdgst then digestClose conn true s
    else if ddBad && c.ddgst then digestClose conn false s
    else
      match liveCmd s conn cid with
      | some m =>
        match answersAsk m off.toNat data.length with
        | some r => if m.phase = Phase.waitData then askOn conn (pushData m r data s) else termClose conn 1 2 s
        | none => termClose conn 1 4 s
      | none => termClose conn 1 1 s) s)

/-- H2C_TERM_REQ (R241, R243): the peer ends the connection by an error it saw. R274 lists no reason for it: 1. DESIGN CHOICE, log entry 178. -/
def execH2cTermReq (conn : BitVec 16) (s : State) : Out := .next (takePdu conn 2 (closeConnection conn.toNat true 1) s)

/-! ## TCP (R244, R245) -/

/-- An acknowledgment number covers a record: it lies at or after the record's end, in the arithmetic of sequence numbers. -/
def ackedBy (ack : BitVec 32) (r : RtxRec) : Bool := decide (r.len.toNat ≤ (ack - r.seq).toNat ∧ (ack - r.seq).toNat < 2 ^ 31)

/-- Bytes of a connection that are sent and not acknowledged. -/
def inFlight (s : State) (conn : Nat) : Nat := ((connOf s conn).unack.map (fun r => r.len.toNat)).sum

/-- The slow-start threshold after a loss (RFC 5681). PRESUMED, log entry 153. -/
def lossThreshold (s : State) (conn : Nat) : Nat := max (inFlight s conn / 2) (2 * smss (connOf s conn))

/-- The congestion window after an acknowledgment of `n` new bytes: slow start, then congestion avoidance (RFC 5681). PRESUMED, log entry 153. -/
def grownWindow (k : Conn) (n : Nat) : Nat :=
  let m := smss k
  if k.cwnd < k.ssth then k.cwnd + min n m else k.cwnd + max 1 (m * m / max 1 k.cwnd)

/-- New bytes are acknowledged (RFC 5681, RFC 6582): in recovery an acknowledgment short of the recovery point retransmits the next segment.
PRESUMED, log entry 153. -/
def ackForward (conn : BitVec 16) (ack : BitVec 32) (n : Nat) (s : State) : State :=
  let k := connOf s conn.toNat
  match k.recover with
  | none => modConn conn.toNat (fun c => { c with cwnd := grownWindow c n, dups := 0 }) s
  | some r =>
    if (ack - r).toNat < 2 ^ 31 then
      modConn conn.toNat (fun c => { c with cwnd := min c.ssth (inFlight s conn.toNat + smss c), dups := 0, recover := none }) s
    else retransmit conn false 8 (modConn conn.toNat (fun c => { c with cwnd := c.cwnd - n + smss c }) s)

/-- A duplicate acknowledgment (RFC 5681): the third retransmits the oldest segment and begins recovery. PRESUMED, log entry 153. -/
def ackAgain (conn : BitVec 16) (s : State) : State :=
  let k := connOf s conn.toNat
  let m := smss k
  if k.recover.isSome then modConn conn.toNat (fun c => { c with cwnd := c.cwnd + m }) s
  else if k.dups < 2 then modConn conn.toNat (fun c => { c with dups := c.dups + 1 }) s
  else
    let t := lossThreshold s conn.toNat
    retransmit conn false 8 (modConn conn.toNat (fun c => { c with ssth := t, cwnd := t + 3 * m, dups := 0, recover := some c.seqNo }) s)

/-- The peer reports a segment received in a SACK block (R244). -/
def sackedBy (b : BitVec 32 × BitVec 32) (r : RtxRec) : Bool :=
  decide ((r.seq - b.1).toNat < 2 ^ 31 ∧ (b.2 - (r.seq + r.len)).toNat < 2 ^ 31)

/-- The options of a segment are taken (R244): SACK blocks and timestamps where the connection uses them. -/
def takeOptions (o : TcpOpts) (c : Conn) : Conn :=
  let c := if c.sackOk then { c with unack := c.unack.map (fun r => if o.sacks.any (fun b => sackedBy b r) then { r with sacked := true } else r) } else c
  match o.ts with
  | some v => if c.tsOk then { c with tsPeer := v } else c
  | none => c

/-- The acknowledgment of a segment (R244, R258): what it covers is retired, and the congestion window follows; `data` says that the segment
carries data. -/
def takeAck (conn : BitVec 16) (ack : BitVec 32) (window : BitVec 16) (data : Bool) (o : TcpOpts) (s : State) : State :=
  let c := connOf s conn.toNat
  let got := c.unack.takeWhile (ackedBy ack)
  let wnd := window.toNat * 2 ^ c.wscale
  let again := got = [] && !data && c.unack ≠ [] && c.wnd = wnd
  let s := modConn conn.toNat (fun c => takeOptions o { c with unack := c.unack.drop got.length, wnd := wnd }) s
  let s := if got ≠ [] then ackForward conn ack (got.map (fun r => r.len.toNat)).sum s else if again then ackAgain conn s else s
  releaseReadLocks conn s

/-- A connection opened by a SYN (R235, R244, R255): the congestion window begins at 10 segments, the MTU is that of the sub-port (log entry 183). A SYN
without an MSS option stands for 536. PRESUMED, log entry 151. -/
def synConn (sub : BitVec 5) (peer : BitVec 48) (far : Peer) (port window : BitVec 16) (o : TcpOpts) (iss : BitVec 32) : Conn :=
  let c : Conn := { tcp := true, sub := sub, peer := peer, v6 := far.v6, ip := far.ip, rport := far.port, dscp := far.dscp, ecn := far.ecn
                    port := port, wnd := window.toNat, mtu := 9198, ssth := 2 ^ 30, seqNo := iss + 1, mss := (o.mss.getD 536).toNat
                    wscale := min 14 (o.wscale.getD 0).toNat, sackOk := o.sackOk, tsOk := o.ts.isSome, tsPeer := o.ts.getD 0 }
  { c with cwnd := 10 * smss c }

/-- A SYN opens its entry and is answered (R244). The initial sequence number is free. -/
def takeSyn (conn : BitVec 16) (c : BitVec 32 → Conn) (o : TcpOpts) (s : State) : State :=
  if (connOf s conn.toNat).isOpen || nConns s ≤ conn.toNat then s
  else
    let (h, s) := drawBits s
    let iss : BitVec 32 := h.setWidth 32
    let s := openConn conn.toNat (c iss) s
    queueSegment conn 0 0x12 iss (synOptions (connOf s conn.toNat) o) [] s

/-- TCP_SEGMENT (R244): the TCP layer's handling of a segment. A SYN to a listening port opens the entry; FIN is an
orderly close, RST an error, for which R274 lists no reason: 1 (DESIGN CHOICE, log entry 178); else the acknowledgment, the peer's window and its
options are taken. `data`: the segment carries data. -/
def execTcpSegment (sub : BitVec 5) (conn : BitVec 16) (peer : BitVec 48) (far : Peer) (port : BitVec 16) (syn fin rst data : Bool)
    (ack : BitVec 32) (window : BitVec 16) (opts : TcpOpts) (s : State) : Out :=
  let c := connOf s conn.toNat
  if syn then
    let s := rxTakeDev (sub.toNat / 4) s
    if (port = s.xpt.listen || port = 8009) && (frameConn s sub (.tcp far.v6 far.ip far.port port true)).isNone then
      .next (takeSyn conn (synConn sub peer far port window opts) opts s)
    else .next s
  else if !c.isOpen || !c.tcp || !c.cached then .next s
  else
    let s := rxTake conn.toNat s
    if rst then .next (closeConnection conn.toNat true 1 s)
    else if fin then .next (closeConnection conn.toNat false 4 s)
    else .next (takeAck conn ack window data opts s)

/-- TCP_RETRANSMISSION_TIMEOUT (R244): the oldest segment is sent again, with a congestion window of one segment; after 8 retransmissions the
connection is reset. -/
def execTcpRetransmissionTimeout (conn : BitVec 16) (s : State) : Out :=
  let c := connOf s conn.toNat
  if c.isOpen && c.tcp then
    let t := lossThreshold s conn.toNat
    .next (retransmit conn false 8 (modConn conn.toNat (fun c => { c with
      ssth := t, cwnd := smss c, dups := 0, recover := none, unack := c.unack.map (fun r => { r with sacked := false }) }) s))
  else .next s

/-- PATH_MTU_MESSAGE (R244): the path MTU is lowered, down to 1,280 bytes. -/
def execPathMtuMessage (conn : BitVec 16) (mtu : BitVec 16) (s : State) : Out :=
  let c := connOf s conn.toNat
  let s := rxTakeDev (connPort s conn.toNat) s
  if c.isOpen && c.tcp && mtu.toNat < c.mtu then
    .next (modConn conn.toNat (fun c => { c with mtu := max 1280 mtu.toNat }) s)
  else .next s

/-! ## TLS (R246–R251) -/

/-- Event 0x0812 with an alert code. -/
def tlsFailed (conn : BitVec 16) (alert : Nat) (s : State) : State :=
  closeConnection conn.toNat true 5 (event 0x0812 [0xFFFFFFFF, conn.setWidth 32, w32 alert] s)

/-- A ClientHello that R246 refuses: another suite than TLS_AES_256_GCM_SHA384, another group than secp384r1, no external pre-shared key, early
data, a resumption ticket, or a controller that does not permit TLS (R419). -/
def helloRefused (s : State) (h : Hello) : Bool :=
  h.suite ≠ 0x1302 || h.group ≠ 24 || !h.psk || h.early || h.ticket || !bit (vcOf s h.vc.toNat).inForce.flags 0

/-- A fatal alert goes to the peer: in a record of the connection's, under handshake keys that only the resident OS has (`secret`), of which the bytes
are free, or before any key in the clear (R246, R248, R249). PRESUMED, log entry 182. -/
def sendAlert (secret : Bool) (conn : BitVec 16) (alert : BitVec 8) (s : State) : State :=
  if (connOf s conn.toNat).tls then queueLast 21 conn [2, alert] s
  else if secret then
    let (h, s) := drawBits s
    queueLast 0 conn ([23, 3, 3, 0, 19] ++ leBytes 19 h.toNat) s
  else queueLast 0 conn [21, 3, 3, 0, 2, 2, alert] s

/-- TLS_HANDSHAKE_RECORD (R246, R247): a handshake record, a ClientHello or another, waits for the resident OS; a ClientHello that R246 refuses
ends with a handshake_failure alert (40). -/
def execTlsHandshakeRecord (conn : BitVec 16) (hello : Option Hello) (s : State) : Out :=
  let c := connOf s conn.toNat
  if c.isOpen && c.tcp && c.cached && !c.tls then
    if hello.any (helloRefused s) then .next (tlsFailed conn 40 (sendAlert false conn 40 s))
    else .next (osRecord conn.toNat (modConn conn.toNat (fun x => { x with hand := true, tlsVc := (hello.map (·.vc)).orElse (fun _ => x.tlsVc) }) s))
  else .next s

/-- The key slots of a tenant's TLS range that connections are bound to (R247, R248). -/
def tlsSlotsUsed (s : State) (r : VcRec) : List (BitVec 14) :=
  let mine := fun (k : BitVec 14) => decide (r.tlsBase.toNat ≤ k.toNat ∧ k.toNat < r.tlsBase.toNat + r.tlsCnt.toNat)
  (s.xpt.conns.map (fun e => if e.2.isOpen && e.2.tls then [e.2.kTx, e.2.kRx].filter mine else [])).flatten

/-- Two slots of the tenant's range take a connection's traffic keys: different ones that no connection is bound to (R247). -/
def slotsTake (s : State) (r : VcRec) (kTx kRx : BitVec 14) : Bool :=
  let free := fun (k : BitVec 14) =>
    decide (r.tlsBase.toNat ≤ k.toNat ∧ k.toNat < r.tlsBase.toNat + r.tlsCnt.toNat) && !(tlsSlotsUsed s r).contains k
  kTx ≠ kRx && free kTx && free kRx

/-- TLS_HANDSHAKE_COMPLETE (R247, R248): the two traffic keys, in slots of the tenant's key-slot range, are bound and the connection passes to the data
path; above the limit, or with the range full, it ends with an internal_error alert (80). Slots that are not free slots of the range bind nothing.
DEDUCED, log entry 184. -/
def execTlsHandshakeComplete (conn : BitVec 16) (kTx kRx : BitVec 14) (ivTx ivRx : BitVec 96) (s : State) : Out :=
  let c := connOf s conn.toNat
  let r := match c.tlsVc with | some v => (vcOf s v.toNat).inForce | none => {}
  if c.isOpen && c.tcp && c.hand && !c.tls then
    let above := decide ((if s.varB then 2048 else 4096) ≤ tlsConns s)
    if above || r.tlsCnt.toNat < (tlsSlotsUsed s r).length + 2 then
      .next (tlsFailed conn 80 (sendAlert true conn 80 (event 0x0810 [0xFFFFFFFF, conn.setWidth 32, if above then 2 else 3] s)))
    else if !slotsTake s r kTx kRx then .next s
    else .next (modConn conn.toNat (fun x => { x with
      tls := true, hand := false, kTx := kTx, kRx := kRx, ivTx := ivTx, ivRx := ivRx, txSeq := 0, rxSeq := 0 }) (osDone conn.toNat s))
  else .next s

/-- A KeyUpdate of the peer has arrived (R251): the records that follow wait for the resident OS to install the new receive key. -/
def waitForKey (conn : BitVec 16) (s : State) : State :=
  osRecord conn.toNat (modConn conn.toNat (fun x => { x with keyWait := true }) s)

/-- A record is decrypted under the connection's receive key and its tag checked (R249, R250). One that fails authentication (alert 20) or whose key is
refused, or an alert other than close_notify, closes the connection; close_notify is an orderly close, DEDUCED, log entry 152. The text of one that
waited for a key is marked, with what stands before it (R251). -/
def openRecord (conn : BitVec 16) (waited : Bool) (rec_ : List (BitVec 8)) (s : State) : State :=
  let c := connOf s conn.toNat
  match useKey c.kRx.toNat 0 s with
  | (false, s) => tlsFailed conn 20 (sendAlert false conn 20 s)
  | (true, s) =>
    match tlsOpen (keyOf s c.kRx.toNat).key c.ivRx c.rxSeq rec_ with
    | none => tlsFailed conn 20 (sendAlert false conn 20 s)
    | some (typ, text) =>
      let s := modConn conn.toNat (fun x => { x with rxSeq := x.rxSeq + 1 }) s
      if typ = 21 then
        if text.getD 1 0 = 0 then closeConnection conn.toNat false 4 s else tlsFailed conn (text.getD 1 0).toNat s
      else if typ = 22 then if text.getD 0 0 = 24 then waitForKey conn s else s
      else modConn conn.toNat (fun x => { x with
        plain := x.plain ++ text, unb := if waited then x.plain.length + text.length else x.unb }) s

/-- Records of a connection can be opened (R250): a cipher slot of its class runs within a parse issue slot of it on the connection's spindle. -/
def recordSlot (s : State) (conn : Nat) : Bool :=
  parseRuns s (spindleOf s conn) (connClass s conn) &&
    s.reel.grants.any (fun g => grantRuns s g && !g.late && g.slot.typ = 6 && g.slot.owner = connClass s conn)

/-- The records held of a connection are opened, in order, up to a KeyUpdate or its close. Fuel is their number. -/
def openRecords (conn : Nat) : Nat → State → State
  | 0, s => s
  | f + 1, s =>
    match (connOf s conn).recs with
    | [] => s
    | r :: rest =>
      if (connOf s conn).keyWait then s
      else openRecords conn f (openRecord (BitVec.ofNat 16 conn) r.2.1 r.2.2 (rxFree (connPort s conn) r.1 r.2.2.length
        (modConn conn (fun c => { c with recs := rest }) s)))

/-- The records that a connection holds are opened where its slots run (R250). -/
def takeRecords (conn : Nat) (s : State) : State :=
  if recordSlot s conn then openRecords conn (connOf s conn).recs.length s else s

/-- A slot of a class begins: the records that its connections hold are opened. -/
def recordStart (cls : Nat) (s : State) : State :=
  ((s.xpt.conns.filter (fun e => decide (e.2.recs ≠ []) && decide (connClass s e.1 = cls))).map (·.1)).foldl (fun s k => takeRecords k s) s

/-- TLS_RECORD (R249–R251): a record, from its header on, lies in the class share until it can be opened; one too long ends the connection (alert
22). -/
def execTlsRecord (conn : BitVec 16) (rec_ : List (BitVec 8)) (s : State) : Out :=
  let c := connOf s conn.toNat
  if connReady s conn.toNat && c.tls then
    if 16640 < beNat ((rec_.drop 3).take 2) then .next (tlsFailed conn 22 (sendAlert false conn 22 s))
    else
      let cls := connClass s conn.toNat
      .next (takeRecords conn.toNat (rxAdd (connPort s conn.toNat) cls rec_.length
        (modConn conn.toNat (fun x => { x with recs := x.recs ++ [(cls, x.keyWait || x.lateNow, rec_)] }) s)))
  else .next s

/-- KEY_UPDATE (R251, R273): records after a KeyUpdate wait while the resident OS installs the new receive key; once it
is installed they proceed, and event 0x0813 is recorded. -/
def execKeyUpdate (conn : BitVec 16) (installed : Bool) (iv : BitVec 96) (s : State) : Out :=
  let c := connOf s conn.toNat
  if connReady s conn.toNat && c.tls then
    if !installed then .next (if c.keyWait then s else waitForKey conn s)
    else if c.keyWait then
      .next (takeRecords conn.toNat (event 0x0813 [0xFFFFFFFF, conn.setWidth 32, 1]
        (modConn conn.toNat (fun x => { x with keyWait := false, ivRx := iv, rxSeq := 0 }) (osDone conn.toNat s))))
    else .next s
  else .next s

/-- KEY_UPDATE_SEND (R251): the sending sequence number reached 2^24; the device sends a KeyUpdate and counts anew. -/
def execKeyUpdateSend (conn : BitVec 16) (iv : BitVec 96) (s : State) : Out :=
  let c := connOf s conn.toNat
  if c.isOpen && c.tls && 2 ^ 24 ≤ c.txSeq.toNat then
    let s := queueRecord 22 conn [24, 0, 0, 1, 0] s
    let s := modConn conn.toNat (fun x => { x with txSeq := 0, ivTx := iv, kuSent := true }) s
    .next (event 0x0813 [0xFFFFFFFF, conn.setWidth 32, 0] s)
  else .next s

/-! ## Device frames and PTP (R260, R261, R267) -/

/-- A device reply from a sub-port to an address, in class 0's slots (R260): its type and what follows it. -/
def deviceReply (path : BitVec 5) (mac : BitVec 48) (typ : Nat) (body : List (BitVec 8)) (s : State) : State :=
  queueFrame { path := path, kind := 8, raw := etherTo s path.toNat mac typ ++ body } s

/-- Count a device frame that is not answered (R260). -/
def deviceDrop (path : BitVec 5) (s : State) : State := netCount (path.toNat / 4) (path.toNat % 4) 4 1 s

/-- The far end of a device frame, as the builders of headers take it. -/
def deviceFar (v6 : Bool) (mac : BitVec 48) (ip : BitVec 128) : Conn := { peer := mac, v6 := v6, ip := ip }

/-- ARP_REQUEST (R260): answered for the sub-port's IPv4 address, else dropped and counted. `mac` and `far` are the asker's addresses. -/
def execArpRequest (path : BitVec 5) (ip : BitVec 32) (mac : BitVec 48) (far : BitVec 32) (s : State) : Out :=
  let s := rxTakeDev (path.toNat / 4) s
  let a := subAddr s path.toNat
  if a.ip4 = ip && ip ≠ 0 then
    .next (deviceReply path mac 0x0806 ([0, 1, 8, 0, 6, 4, 0, 2] ++ beBytes 6 a.mac.toNat ++ beBytes 4 ip.toNat ++ beBytes 6 mac.toNat ++
      beBytes 4 far.toNat) s)
  else .next (deviceDrop path s)

/-- An ICMP message of a type, code 0, and the packet that carries it; `h` gives the open header fields. -/
def icmpPacket (s : State) (path : Nat) (c : Conn) (h : BitVec 256) (typ : BitVec 8) (body : List (BitVec 8)) : List (BitVec 8) :=
  let n := 4 + body.length
  let cover := (if c.v6 then ipAddrs s path c ++ beBytes 4 n ++ [0, 0, 0, 58] else []) ++ [typ, 0, 0, 0] ++ body
  ipHeader s path c h (if c.v6 then 58 else 1) 0 n ++ [typ, 0] ++ checkField (onesSum cover) ++ body

/-- NEIGHBOR_SOLICITATION (R260): answered for the sub-port's IPv6 address, with hop limit 255 as the standard asks, else dropped and counted. -/
def execNeighborSolicitation (path : BitVec 5) (ip : BitVec 128) (mac : BitVec 48) (far : BitVec 128) (s : State) : Out :=
  let s := rxTakeDev (path.toNat / 4) s
  let a := subAddr s path.toNat
  if a.ip6 = ip && ip ≠ 0 then
    let (h, s) := drawBits s
    .next (deviceReply path mac 0x86DD (icmpPacket s path.toNat (deviceFar true mac far) (h ||| (0xFF <<< 32)) 136
      ([0x60, 0, 0, 0] ++ beBytes 16 ip.toNat ++ [2, 1] ++ beBytes 6 a.mac.toNat)) s)
  else .next (deviceDrop path s)

/-- ECHO_REQUEST (R260): answered up to 1,500 bytes for the sub-port's addresses, else dropped and counted. `body` is the ICMP message after its
checksum; the 1,500 bytes count the IP packet. DEDUCED, log entry 177. -/
def execEchoRequest (path : BitVec 5) (v6 : Bool) (ip far : BitVec 128) (mac : BitVec 48) (body : List (BitVec 8)) (s : State) : Out :=
  let s := rxTakeDev (path.toNat / 4) s
  let a := subAddr s path.toNat
  let ours := ip ≠ 0 && (if v6 then decide (a.ip6 = ip) else decide (a.ip4.setWidth 128 = ip))
  if ours && (if v6 then 44 else 24) + body.length ≤ 1500 then
    let (h, s) := drawBits s
    .next (deviceReply path mac (if v6 then 0x86DD else 0x0800)
      (icmpPacket s path.toNat (deviceFar v6 mac far) h (if v6 then 129 else 0) body) s)
  else .next (deviceDrop path s)

/-- The time of a PTP event at the pins, in steps of 2 ns (R261). -/
def ptpTime (s : State) : BitVec 64 := spanTime s &&& 0xFFFFFFFFFFFFFFFE

/-- PTP_MESSAGE (R260, R261, R273): passed to the resident OS, an event message with its time. -/
def execPtpMessage (path : BitVec 5) (isEvent : Bool) (s : State) : Out :=
  if bit (portOf s (path.toNat / 4)).up (path.toNat % 4) then
    let s := passTime (rxTakeDev (path.toNat / 4) s)
    .next (modXpt (fun u => { u with ptp := u.ptp + 1, ptpAt := if isEvent then ptpTime s else u.ptpAt }) s)
  else .next s

/-- TRANSMIT_TIMESTAMP_READ (R267): a read of NET_TXTS_LO answers the low word, latches the other two and clears the
port's timestamp interrupt. -/
def readTxts (p : Nat) (s : State) : BitVec 32 × State :=
  let x := portOf s p
  let base := 0x0100400000 + p * 0x10000
  let s := { s with latch := mset none (base + 0x28) (some (x.txtsId.setWidth 32))
                      (mset none (base + 0x24) (some (hi32 x.txts)) s.latch) }
  (lo32 x.txts, modPort p (fun x => { x with txtsWait := false }) s)

/-- TRANSMIT_TIMESTAMP_READ (R267). -/
def execTransmitTimestampRead (p : BitVec 3) (s : State) : Out :=
  let (v, s) := readTxts p.toNat s
  .next { s with bus := { data := v, fault := false } }

/-! ## Sending (R226, R255, R256, R261) -/

/-- The retransmit record of a frame (R256): none for an acknowledgment, a NAK, a CNP or a device frame. -/
def keepsRecord (f : TxFrame) : Bool := f.kind = 0 || f.kind = 1 || f.kind = 3 || f.kind = 9

/-- The class in whose transmit slots a frame leaves: its connection's, class 0 for a device frame (R57, R260). -/
def frameClass (s : State) (f : TxFrame) : Nat := match f.conn with | none => f.cls | some c => connClass s c.toNat

/-- The transmit slot of the frame's class that runs on its sub-port (R57); a late one sends idle (R171). -/
def frameGrant (s : State) (f : TxFrame) : Option Grant :=
  s.reel.grants.find? (fun g => grantRuns s g && !g.late && g.slot.typ = 5 && g.slot.kind = 7 && grantRes g = f.path.toNat &&
    g.slot.owner = frameClass s f)

/-- A transmit slot of the frame's class on its sub-port runs. -/
def frameSlot (s : State) (f : TxFrame) : Bool := (frameGrant s f).isSome

/-- The windows, the peer's and that of congestion, take a spindle's segment now, with what is in flight before it (R245). -/
def windowTakes (s : State) (k : BitVec 16) (f : TxFrame) : Bool :=
  let c := connOf s k.toNat
  let before := if f.again then c.unack.takeWhile (fun r => decide (r.seq ≠ f.seq)) else c.unack
  !c.tcp || f.kind ≠ 1 || decide ((before.map (fun r => r.len.toNat)).sum + (tcpPayload c f).1.length ≤ min c.wnd c.cwnd)

/-- A frame as its record keeps it (R253, R256): of read data where it comes from; a segment with its digests, and with its sum computed again. -/
def keptFrame (c : Conn) (f : TxFrame) : TxFrame :=
  if f.src.isSome then { f with units := [] }
  else if f.kind = 1 then
    let pay := (tcpPayload c f).1
    { f with units := bytesUnits pay, desc := frameDesc (f.conn.getD 0) pay.length 0 (freeField f.desc 40 2) 0 0 0 (onesSum pay) }
  else f

/-- The retransmit record of a frame that leaves under a sequence number (R256). -/
def recordOf (c : Conn) (f : TxFrame) : RtxRec :=
  { seq := c.seqNo, cid := f.cid, off := BitVec.ofNat 64 ((f.src.map (fun x => x.off + x.at_)).getD 0)
    len := BitVec.ofNat 32 (if c.tcp then (tcpPayload c f).1.length else freeField f.desc 16 16), last := decide (f.kind = 3)
    frame := keptFrame c f }

/-- The command whose data a frame carries has sent payload (R173). -/
def markSent (conn : BitVec 16) (f : TxFrame) (s : State) : State :=
  match f.src, f.cid with
  | some x, some cid => putCmds (s.tables.cmds.map (fun c =>
      if !c.internal && !c.closed && c.conn = conn && c.cid = cid && c.arrival = x.serial then { c with sent := true } else c)) s
  | _, _ => s

/-- The transport state after a frame has left (R253, R256): its sequence number is used, its record kept, and a PDU of several segments goes on;
a frame sent again keeps the record it has. -/
def afterSend (k : BitVec 16) (f : TxFrame) (s : State) : State :=
  let last := freeField f.desc 40 1 = 1
  modConn k.toNat (fun x =>
    if !x.isOpen || !keepsRecord f || f.again then x
    else { x with unack := x.unack ++ [recordOf x f], seqNo := x.seqNo + BitVec.ofNat 32 (seqLen x f)
                  txSeq := if x.tls && f.src.isNone && f.kind = 1 && last then x.txSeq + 1 else x.txSeq
                  pdu := if f.kind = 1 then (if last then [] else x.pdu ++ pushedBytes f) else x.pdu }) s

/-- The entries that a frame takes of the queue to its port, where a spindle has not pushed it (R21, R158). -/
def frameUnits (f : TxFrame) : Nat := if f.pushed then 0 else max 1 (max f.units.length ((f.raw.length + 31) / 32))

/-- A PTP event message has left (R261, R267): NET_TXTS. -/
def noteSent (path : Nat) (f : TxFrame) (s : State) : State :=
  match f.ptp with
  | none => s
  | some i =>
    let s := passTime s
    modPort (path / 4) (fun x => { x with txts := ptpTime s, txtsId := (BitVec.ofNat 2 (path % 4) ++ i), txtsWait := true }) s

/-- A frame goes out on a sub-port with link (R253, R266): its bytes on the wire. -/
def putOnWire (path : Nat) (f : TxFrame) (seq : BitVec 32) (s : State) : State :=
  let (w, s) := wireBytes f seq (netCount (path / 4) (path % 4) 1 1 s)
  let s := modXpt (fun u => { u with wire := mset [] path (w.getD []) u.wire }) s
  match w, f.conn with
  | some _, some c => markSent c f s
  | _, _ => s

/-- FRAME_TRANSMIT (R21, R57, R226, R245, R253, R255, R256, R261, R266): the oldest frame of a transmit path whose class holds the path's transmit slot
leaves, in the order of the SCMDs, with its headers, digests and checks; without link it is counted as discarded and treated as lost, and so is
one that the peer's window does not take. A full queue to the port does not accept it. A PTP event message sets NET_TXTS. -/
def execFrameTransmit (path : BitVec 5) (s : State) : Out :=
  match s.xpt.tx.find? (fun f => f.path = path && frameSlot s f) with
  | none => .next s
  | some f =>
    let p := path.toNat / 4
    let k := path.toNat % 4
    let fits := match f.conn with | some c => windowTakes s c f | none => true
    let seq := if f.again then f.seq else match f.conn with | some c => (connOf s c.toNat).seqNo | none => 0
    match pushRun 2 p ((frameGrant s f).elim 0 (·.entry)) 0 (frameUnits f) s with
    | (false, s) => .next s
    | (true, s) =>
    let s := modXpt (fun u => { u with tx := u.tx.erase f }) s
    let s := if !fits then s
      else if bit (portOf s p).up k then noteSent path.toNat f (putOnWire path.toNat f seq s)
      else netCount p k 5 1 s
    match f.conn with
    | none => .next s
    | some c => .next (afterSend c f s)

end Sys2Proof.Machine
end

