-- ==== Sys2Proof/Machine/Crypto.lean ====
section
/-! DEFINITION. The key store and the virtual controllers: key operations and their commit, the usage counter, a failed
slot and the random generator, the controller records, VCT operations and their commit, the migration write log and the
dirty-zone log (chapter 10). -/

namespace Sys2Proof.Machine

/-! ## Owner partitions (R160, R161, R429) -/

/-- The partition of an owner in the image in force. -/
def partOf (s : State) (owner : Nat) : OwnerPart :=
  let ps : List OwnerPart := match s.store.running with
    | some im => im.parts
    | none => (s.store.loading.map (fun (im : Image) => im.parts)).getD []
  (ps.find? (fun p => p.owner = owner)).getD {}

/-- A key slot lies in an owner's key ranges. -/
def keyInRange (s : State) (owner k : Nat) : Bool :=
  (partOf s owner).keys.any (fun r => decide (r.1 ≤ k ∧ k < r.1 + r.2))

/-- Bytes of DRAM lie in an owner's DRAM ranges. -/
def dramInRange (s : State) (owner a n : Nat) : Bool :=
  (partOf s owner).dram.any (fun r => decide (r.1 ≤ a ∧ a + n ≤ r.1 + r.2))

/-! ## Key slots (R428–R432, R453, R454) -/

/-- What a slot will hold after its pending operation (R430). -/
def keyAfter (x : KeySlot) : KeyPend :=
  match x.pend with
  | some p => p
  | none => { op := 0, key := x.key, use := x.use, limit := x.limit, vc := x.vc }

/-- The class a controller will have after the next commit. -/
def classAfter (v : Vc) : Nat := if v.pcls = 0 then v.cls.toNat else v.pcls.toNat

/-- A slot lies in the key-slot range of a controller's class (R429). -/
def slotForVc (s : State) (k : Nat) (v : BitVec 12) : Bool := keyInRange s (classAfter (vcOf s v.toNat)) k

/-- End a key operation with a result (R453, R460); CIPH_KDATA is cleared when a Load ends (R430). -/
def keyEnd (result : BitVec 4) (s : State) : State :=
  modCiph (fun u => { u with result := result, ended := true, kdata := if u.op = 1 then [] else u.kdata }) s

/-- Schedule what a slot becomes at the next commit; a pending operation is replaced (R431). -/
def keyPend (k : Nat) (p : KeyPend) (s : State) : State := modKey k (fun x => { x with pend := some p }) s

/-- LIMIT is out of range (R432). -/
def limitBad (l : BitVec 6) : Bool := decide (l.toNat < 35) || decide (56 < l.toNat)

/-- The bits of a sparse register file, word k at bit 32k. -/
def wordsNat (m : SMap (BitVec 32)) (n : Nat) : Nat :=
  ((List.range n).map (fun k => (mget 0 m k).toNat * 2 ^ (32 * k))).sum

/-- The words of a number, as a sparse register file. -/
def natWords (v n : Nat) : SMap (BitVec 32) :=
  (List.range n).foldl (fun m k => mset 0 k (BitVec.ofNat 32 (v / 2 ^ (32 * k))) m) []

/-- What giving a slot a new key checks (R429, R453): absent slot 8, LIMIT 6, a use that is no use 7, range 4. -/
def giveCheck (s : State) (use : BitVec 4) (limit : BitVec 6) : BitVec 4 :=
  let k := s.ciph.ksel.toNat
  if nKeys s ≤ k then 8
  else if limitBad limit then 6
  else if use = 0 || 6 < use.toNat then 7
  else if !slotForVc s k s.ciph.kvc then 4
  else 0

/-- Take OP, USE and LIMIT as written with GO (R453). -/
def keyStart (op use : BitVec 4) (limit : BitVec 6) (s : State) : State :=
  modCiph (fun u => { u with op := op, use := use, limit := limit }) s

/-- Load (R430). -/
def keyLoad (s : State) : State :=
  let c := giveCheck s s.ciph.use s.ciph.limit
  if c ≠ 0 then keyEnd c s
  else
    keyEnd 0 (keyPend s.ciph.ksel.toNat { op := 1, key := BitVec.ofNat 256 (wordsNat s.ciph.kdata 8), use := s.ciph.use,
                                          limit := s.ciph.limit, vc := s.ciph.kvc } s)

/-- Generate (R430): a key of the hardware random generator; result 5 while that has failed. -/
def keyGenerate (s : State) : State :=
  let c := giveCheck s s.ciph.use s.ciph.limit
  if c ≠ 0 then keyEnd c s
  else if s.ciph.rngBad then keyEnd 5 s
  else
    let key := Config.random256 s.draws
    let s := { s with draws := s.draws + 1 }
    keyEnd 0 (keyPend s.ciph.ksel.toNat { op := 2, key := key, use := s.ciph.use, limit := s.ciph.limit, vc := s.ciph.kvc } s)

/-- Zeroize (R430). -/
def keyZeroize (s : State) : State :=
  let k := s.ciph.ksel.toNat
  if nKeys s ≤ k then keyEnd 8 s
  else keyEnd 0 (keyPend k { op := 3, vc := (keyOf s k).vc } s)

/-- Copy and Move (R430): the destination must be empty and in the range of the source's controller; the source of a Move
is zeroized at the same commit. -/
def keyCopy (move : Bool) (s : State) : State :=
  let k := s.ciph.ksel.toNat
  let d := s.ciph.kdst.toNat
  if nKeys s ≤ k || nKeys s ≤ d then keyEnd 8 s
  else
    let src := keyAfter (keyOf s k)
    let want := s.ciph.use
    let use : BitVec 4 := if src.use = 3 && want = 4 then 4 else src.use
    if src.use = 0 then keyEnd 3 s
    else if (keyOf s d).use ≠ 0 || (keyOf s d).pend.isSome then keyEnd 1 s
    else if want ≠ 0 && want ≠ src.use && !(src.use = 3 && want = 4) then keyEnd 7 s
    else if !slotForVc s d src.vc then keyEnd 4 s
    else
      let s := keyPend d { op := if move then 5 else 4, key := src.key, use := use, limit := src.limit, vc := src.vc } s
      keyEnd 0 (if move then keyPend k { op := 0, vc := src.vc } s else s)

/-- Wrap (R430, R431): at once, from the slot's active key; event 0x0A04. -/
def keyWrap (s : State) : State :=
  let k := s.ciph.ksel.toNat
  if nKeys s ≤ k then keyEnd 8 s
  else if (keyOf s k).use = 0 then keyEnd 3 s
  else
    let w := Config.wrapKey (keyOf s k).key
    let s := modCiph (fun u => { u with kwrap := natWords w.toNat 10 }) s
    keyEnd 0 (event 0x0A04 [w32 k, 6, (keyOf s k).vc.setWidth 32] s)

/-- Unwrap (R430): a failed integrity check is refused with result 2. -/
def keyUnwrap (s : State) : State :=
  let c := giveCheck s s.ciph.use s.ciph.limit
  if c ≠ 0 then keyEnd c s
  else
    match Config.unwrapKey (BitVec.ofNat 320 (wordsNat s.ciph.kwrap 10)) with
    | none => keyEnd 2 s
    | some key =>
      keyEnd 0 (keyPend s.ciph.ksel.toNat { op := 7, key := key, use := s.ciph.use, limit := s.ciph.limit, vc := s.ciph.kvc } s)

/-- A key operation as GO of CIPH_KOP or a Tilost request starts it; an OP that is none ends with result 9 (R453). -/
def keyGo (op use : BitVec 4) (limit : BitVec 6) (s : State) : State :=
  let s := keyStart op use limit s
  if op = 1 then keyLoad s else if op = 2 then keyGenerate s else if op = 3 then keyZeroize s
  else if op = 4 then keyCopy false s else if op = 5 then keyCopy true s else if op = 6 then keyWrap s
  else if op = 7 then keyUnwrap s else keyEnd 9 s

/-- A pending key operation takes effect (R431): event 0x0A04, but for the zeroizing half of a Move. -/
def keyApply (k : Nat) (s : State) : State :=
  match (keyOf s k).pend with
  | none => s
  | some p =>
    let fresh : KeySlot := if p.use = 0 then {} else { key := p.key, use := p.use, vc := p.vc, limit := p.limit }
    let s := modKey k (fun _ => fresh) s
    if p.op = 0 then s else event 0x0A04 [w32 k, p.op.setWidth 32, p.vc.setWidth 32] s

/-- Every pending key operation takes effect at a hank commit (R431, R72 step 2). -/
def keyCommit (s : State) : State :=
  ((s.ciph.slots.filter (fun e => e.2.pend.isSome)).map (·.1)).foldl (fun s k => keyApply k s) s

/-- A slot's stored key shows an uncorrectable error (R454): failed, event 0x0A05, source 772, a Severe fault. -/
def keySlotFail (k : Nat) (s : State) : State :=
  let s := modKey k (fun y => { y with failed := true }) s
  raiseFault 14 3 (eventC 0x0A05 3 [w32 k] s)

/-- RANDOM_GENERATOR_FAILURE (R460, R461, R559). -/
def execRandomGeneratorFailure (s : State) : Out :=
  if s.ciph.rngBad then .next s
  else .next (raiseFault 14 3 (eventC 0x0A06 3 [] (modCiph (fun u => { u with rngBad := true }) s)))

/-- CIPH_KSTAT of the selected slot (R454). -/
def kstat (s : State) : BitVec 32 :=
  let x := keyOf s s.ciph.ksel.toNat
  let st : BitVec 2 := if x.failed then 3 else if x.pend.isSome then 2 else if x.use ≠ 0 then 1 else 0
  fld st 30 ||| fld x.use 26 ||| fld x.limit 20 ||| fld x.vc 0

/-! ## Controller records (R419–R421) -/

/-- The record at an address (R419). -/
def readRecord (s : State) (a : Nat) : VcRec :=
  { flags := BitVec.ofNat 8 (memNat s a 1), ioq := BitVec.ofNat 8 (memNat s (a + 1) 1),
    slotA := BitVec.ofNat 16 (memNat s (a + 4) 2), slotB := BitVec.ofNat 16 (memNat s (a + 6) 2),
    tlsBase := BitVec.ofNat 16 (memNat s (a + 8) 2), tlsCnt := BitVec.ofNat 16 (memNat s (a + 10) 2),
    rdRefill := BitVec.ofNat 32 (memNat s (a + 12) 4), rdCap := BitVec.ofNat 32 (memNat s (a + 16) 4),
    wrRefill := BitVec.ofNat 32 (memNat s (a + 20) 4), wrCap := BitVec.ofNat 32 (memNat s (a + 24) 4),
    logAddr := BitVec.ofNat 64 (memNat s (a + 32) 8), logSize := BitVec.ofNat 32 (memNat s (a + 40) 4),
    bm0 := BitVec.ofNat 64 (memNat s (a + 48) 8), bm1 := BitVec.ofNat 64 (memNat s (a + 56) 8) }

/-- The keystone reads the records of a class in its first parse issue slot after a hank commit (R420). -/
def readRecords (cls : Nat) (s : State) : State :=
  modVct (fun u => { u with ents := u.ents.map (fun e =>
    if e.2.state = 1 && e.2.cls.toNat = cls && e.2.next.isNone then (e.1, { e.2 with next := some (readRecord s e.2.recAddr.toNat) }) else e) }) s

/-- What has been read of the records since the last hank commit comes into force (R420). -/
def recordsCommit (s : State) : State :=
  modVct (fun u => { u with ents := u.ents.map (fun e => (e.1, { e.2 with inForce := e.2.next.getD e.2.inForce, next := none })) }) s

/-- The resident OS refuses the writes of the controller of a slot whose use has been warned of (R433): the flag in its record. -/
def refuseWrites (s : State) (k : Nat) : State :=
  let x := keyOf s k
  let v := vcOf s x.vc.toNat
  let s := modKey k (fun y => { y with flagged := true }) s
  if v.state ≠ 1 then s
  else writeMem none v.recAddr.toNat (leBytes 1 (memNat s v.recAddr.toNat 1 ||| 8)) s

/-- It does so for every slot of use 1 or 3 with a warning it has not acted on, by the next hank commit. DEDUCED, log entry 155. -/
def warnedCommit (s : State) : State :=
  ((s.ciph.slots.filter (fun e => e.2.warned && !e.2.flagged && (e.2.use = 1 || e.2.use = 3))).map (·.1)).foldl refuseWrites s

/-- The buckets of every controller gain their refill and are limited to their cap (R62, R421). -/
def refillCommit (s : State) : State :=
  ((s.vct.ents.filter (fun e => e.2.state = 1)).map (·.1)).foldl (fun s v =>
    modVc v (fun x => { x with rd := min (x.rd + x.inForce.rdRefill.toNat) x.inForce.rdCap.toNat,
                               wr := min (x.wr + x.inForce.wrRefill.toNat) x.inForce.wrCap.toNat }) s) s

/-! ## VCT operations (R423, R426, R459) -/

/-- Open connections of a controller (R457). -/
def vcConns (s : State) (v : Nat) : Nat :=
  (s.xpt.conns.filter (fun e => e.2.isOpen && decide (e.2.vc = some (BitVec.ofNat 12 v)))).length

/-- A controller is the key home of a namespace. -/
def isHome (s : State) (v : Nat) : Bool :=
  s.media.nss.any (fun e => match e.2 with | some x => decide (x.home = some (BitVec.ofNat 12 v)) | none => false)

/-- The controllers that share a namespace with one of a list, that list first; fuel bounds the rounds (R305). -/
def sharers (s : State) : Nat → List Nat → List Nat
  | 0, l => l
  | f + 1, l =>
    let more := (s.media.nss.filterMap (fun e => match e.2 with
      | some x => if x.attached.any (fun a => l.contains a.toNat) then some (x.attached.map (·.toNat)) else none
      | none => none)).flatten.filter (fun v => !l.contains v)
    if more = [] then l else sharers s f (l ++ more.eraseDups)

/-- The hard codewords of a class's places over one period of a deck, on dies fitted and not lost (R426). -/
def deckCapacity (s : State) (dk : Deck) (c : Nat) : Nat :=
  dk.slots.foldl (fun n e =>
    if isWindow e then
      let dies := ((replicas e).filter (fun r => (dieOf s (slotRes e r.1 r.2)).fitted && !isLost s (slotRes e r.1 r.2))).length
      let cws := ((windowPlaces e).map (fun k => match dk.places[k]? with
        | some r => if r.owner = c then r.hard else 0
        | none => 0)).sum
      n + dies * cws * ((List.range (periodHanks dk.period)).filter (fun p => bit e.phases p)).length
    else n) 0

/-- The read refills of a class, moved controllers counted, stay within its read capacity in every deck that marks it
bounded (R426). -/
def refillsFit (s : State) (c : Nat) (moved : List Nat) : Bool :=
  let dks := (s.store.running.map (·.decks)).getD []
  let sum := s.vct.ents.foldl (fun n e =>
    if e.2.state = 1 && (moved.contains e.1 || classAfter e.2 = c) then n + e.2.inForce.rdRefill.toNat else n) 0
  dks.all (fun dk => !bit (mget 0 dk.cls c) 31 || decide (sum * periodHanks dk.period ≤ deckCapacity s dk c))

/-- End a VCT operation with a result; a refusal records event 0x0B04 (R459). -/
def vctEnd (op result : BitVec 4) (s : State) : State :=
  let s := modVct (fun u => { u with result := result, ended := true }) s
  if 1 ≤ result.toNat && result.toNat ≤ 8 then
    event 0x0B04 [s.vct.idx.setWidth 32, op.setWidth 32, result.setWidth 32] s
  else s

/-- Take OP and CLASS as written with GO (R459). -/
def vctStart (op : BitVec 4) (cls : BitVec 8) (s : State) : State := modVct (fun u => { u with op := op, cls := cls }) s

/-- Create (R421, R423): the entry becomes created at once, with full buckets. -/
def vctCreate (s : State) : State :=
  let v := s.vct.idx.toNat
  let cls := s.vct.cls
  let a := s.vct.recReg.toNat
  if nVcs s ≤ v then vctEnd 1 8 s
  else if (vcOf s v).state ≠ 0 then vctEnd 1 2 s
  else if cls = 0 then vctEnd 1 3 s
  else if a % 128 ≠ 0 || !dramInRange s cls.toNat a 128 then vctEnd 1 7 s
  else
    let r := readRecord s a
    let s := modVc v (fun _ => { state := 1, cls := cls, recAddr := s.vct.recReg, inForce := r,
                                 rd := r.rdCap.toNat, wr := r.wrCap.toNat }) s
    vctEnd 1 0 (event 0x0B01 [w32 v, cls.setWidth 32] s)

/-- Delete (R423): every connection closes, and the entry shows deleting. -/
def vctDelete (s : State) : State :=
  let v := s.vct.idx.toNat
  if nVcs s ≤ v then vctEnd 2 8 s
  else if (vcOf s v).state ≠ 1 then vctEnd 2 2 s
  else if vcNamespaces s v ≠ [] || isHome s v then vctEnd 2 5 s
  else
    let mine := (s.xpt.conns.filter (fun e => e.2.isOpen && decide (e.2.vc = some (BitVec.ofNat 12 v)))).map (·.1)
    let s := modVc v (fun x => { x with state := 2 }) s
    vctEnd 2 0 (mine.foldl (fun s k => closeConnection k false 3 s) s)

/-- Bind (R305, R423, R426): this controller and every one that shares a namespace with it take the class at the next
commit. -/
def vctBind (s : State) : State :=
  let v := s.vct.idx.toNat
  let cls := s.vct.cls
  if nVcs s ≤ v then vctEnd 3 8 s
  else if (vcOf s v).state ≠ 1 then vctEnd 3 2 s
  else if cls = 0 then vctEnd 3 3 s
  else
    let all := sharers s (s.media.nss.length + 1) [v]
    if all.any (fun k => vcConns s k ≠ 0) then vctEnd 3 4 s
    else if !refillsFit s cls.toNat all then vctEnd 3 6 s
    else vctEnd 3 0 (all.foldl (fun s k => modVc k (fun x => { x with pcls := cls }) s) s)

/-- A VCT operation as GO of VCT_OP or a Tilost request starts it; an OP that is none ends with result 9 (R459). -/
def vctGo (op : BitVec 4) (cls : BitVec 8) (s : State) : State :=
  let s := vctStart op cls s
  if op = 1 then vctCreate s else if op = 2 then vctDelete s else if op = 3 then vctBind s else vctEnd op 9 s

/-- VIRTUAL_CONTROLLER_DELETED (R423): the last connection of a deleting controller has closed; the entry is free. -/
def execVirtualControllerDeleted (v : BitVec 12) (s : State) : Out :=
  if (vcOf s v.toNat).state = 2 && vcConns s v.toNat = 0 then
    .next (event 0x0B02 [v.setWidth 32] (modCtrl v.toNat (fun _ => {}) (modVc v.toNat (fun _ => {}) s)))
  else .next s

/-- Pending changes of class take effect (R59, R72 step 3, R423): event 0x0B03 for each, source 801. -/
def bindCommit (s : State) : State :=
  let due := (s.vct.ents.filter (fun e => e.2.pcls ≠ 0)).map (·.1)
  let s := modVct (fun u => { u with bound := decide (due ≠ []) }) s
  due.foldl (fun s v =>
    let x := vcOf s v
    let s := modVc v (fun y => { y with cls := y.pcls, pcls := 0 }) s
    let s := (vcNamespaces s v).foldl (fun s e => modNs e.1 (fun n => { n with cls := x.pcls }) s) s
    event 0x0B03 [w32 v, x.cls.setWidth 32, x.pcls.setWidth 32] s) s

/-! ## Migration write log (R447–R449) -/

/-- The number of 4 KiB pages that bytes touch. -/
def pagesTouched (a n : Nat) : Nat := if n = 0 then 0 else (a + n - 1) / 4096 - a / 4096 + 1

/-- A software event of a spindle with the interrupt flag (R124, R449). -/
def softEvent (code : BitVec 16) (n : Nat) (ws : List (BitVec 32)) (s : State) : State :=
  pulse (128 + 2 * n) (eventF code 0 true (w32 n :: ws) s)

/-- Append one entry of a range written by RDMA WRITE; a full ring sets overflow, which event 0x07A1 reports when it is set (R448, R449).
DEDUCED, log entry 193. -/
def logAppend (v : Nat) (conn : BitVec 16) (r : BitVec 64 × BitVec 32 × BitVec 32) (s : State) : State :=
  let i := (vcOf s v).inForce
  let a := i.logAddr.toNat
  let size := i.logSize.toNat
  let w := memNat s a 4
  let rd := memNat s (a + 4) 4
  let used := (w + 2 ^ 32 - rd) % 2 ^ 32
  let n := spindleOf s conn.toNat
  if !inDram s a (32 + 16 * size) then s
  else if size ≤ used + 1 then
    if memNat s (a + 8) 1 % 2 = 1 then s
    else softEvent 0x07A1 n [w32 v] (writeMem none (a + 8) (leBytes 1 (memNat s (a + 8) 1 ||| 1)) s)
  else
    let at_ := a + 32 + (w % size) * 16
    let bytes := leBytes 8 (r.1.toNat / 4096 * 4096) ++ leBytes 4 r.2.1.toNat ++
      leBytes 2 (pagesTouched r.1.toNat r.2.2.toNat) ++ leBytes 2 conn.toNat
    let s := writeMem none at_ bytes s
    let s := writeMem none a (leBytes 4 (w + 1)) s
    if used + 1 = size / 2 then softEvent 0x07A0 n [w32 v] s else s

/-- The entries of a command's ranges, on a RoCEv2 connection of a controller with flag bit 4 (R447, R448). -/
def logRanges (c : Cmd) (s : State) : State :=
  match c.vc with
  | none => s
  | some v =>
    if bit (vcOf s v.toNat).inForce.flags 4 && !(connOf s c.conn.toNat).tcp && (vcOf s v.toNat).inForce.logSize ≠ 0 then
      c.ranges.foldl (fun s r => logAppend v.toNat c.conn r s) s
    else s

/-! ## Dirty-zone log (R450, R451) -/

/-- A DRAM port slot of a class runs. -/
def portOpen (s : State) (cls : Nat) : Bool :=
  s.reel.grants.any (fun g => grantRuns s g && g.slot.typ = 7 && grantRes g % 16 ≠ 8 && g.slot.owner = cls)

/-- DIRTY_ACKNOWLEDGMENT (R451): the acknowledgment of the new selector is written to the record, in a DRAM port slot of its class. -/
def execDirtyAcknowledgment (v : BitVec 12) (s : State) : Out :=
  let x := vcOf s v.toNat
  let sel := if bit x.inForce.flags 6 then 1 else 0
  if x.state = 1 && bit x.inForce.flags 5 && portOpen s x.cls.toNat && memNat s (x.recAddr.toNat + 64) 4 ≠ sel then
    .next (writeMem none (x.recAddr.toNat + 64) (leBytes 4 sel) s)
  else .next s

end Sys2Proof.Machine
end

