-- ==== Sys2Proof/Machine/Flush.lean ====
section
/-! DEFINITION. The flush mover and the restore of what it wrote: staged blocks as encrypted flush units in the emergency region, and back (R329,
R626 step 4, R628, R634, R638). -/

namespace Sys2Proof.Machine

/-! ## The order of staging (R626 step 4) -/

/-- The staged blocks, as keys of `Media.buf`, in the order the mover writes them: the rows', oldest first, then every other. The spec lays out
neither the staging directory nor the journal tail. DESIGN CHOICE, log entry 158. -/
def stagedKeys (s : State) : List Nat :=
  let rows := (s.media.rows.map (fun r => (List.range (r.upto - r.from_)).map (fun i => bufKey (rowKey r) (r.from_ + i)))).flatten
  let held := s.media.buf.map (·.1)
  rows.filter held.contains ++ held.filter (fun k => !rows.contains k)

/-- The 4,096-byte pieces of a staged block: which one, and its bytes. -/
def blockPieces (l : List (BitVec 8)) : List (Nat × List (BitVec 8)) :=
  (List.range ((l.length + 4095) / 4096)).map (fun i => (i, (l.drop (4096 * i)).take 4096))

/-- A piece is in the region already, for a flush in force (R638). -/
def flushHeld (s : State) (key part : Nat) : Bool := s.pwr.region.any (fun u => u.place = key && u.part = part)

/-- The pieces of staged blocks that the mover has to write (R626 step 4, R638). -/
def flushPieces (s : State) : List (Nat × Nat × List (BitVec 8)) :=
  ((stagedKeys s).map (fun k => (blockPieces (mget [] s.media.buf k)).filterMap (fun e =>
    if flushHeld s k e.1 then none else some (k, e.1, e.2)))).flatten

/-! ## Pages of the emergency region (R329, R628) -/

/-- The emergency block units of a die, from 2,046 down. -/
def emergencyBlocks (s : State) (d : Nat) : List Nat :=
  ((List.range 63).map (2046 - ·)).filter (fun b => blockState s d b = 8)

/-- The dies with emergency block units. -/
def emergencyDies (s : State) : List Nat := (diesInGroups s).filter (fun d => !isLost s d && decide (emergencyBlocks s d ≠ []))

/-- The plane page of emergency page `j`: the pages rotate across the dies (R628). DEDUCED, log entry 53. -/
def emergencyPage (s : State) (j : Nat) : Nat × Nat × Nat :=
  let ds := emergencyDies s
  let d := ds.getD (j % ds.length) 0
  let p := j / ds.length
  (d, (emergencyBlocks s d).getD (p / 2048) 2046, p % 2048)

/-- The page record of a flush unit (R628): its index, the flush's number, the marks of the last unit and of a poisoned one. -/
def flushRecord (seq : BitVec 32) (idx : Nat) (last poison : Bool) : BitVec 64 :=
  BitVec.ofNat 64 (idx % 2 ^ 32) ||| ((seq.setWidth 24 : BitVec 24).setWidth 64 <<< 32) ||| (if last then 1#64 <<< 56 else 0) |||
    (if poison then 1#64 <<< 57 else 0)

/-- The ciphertext of a flush unit (R628): XTS under the flush slots, its tweak the unit's index plus 2^64 times the flush's number. -/
def flushCipher (keys : BitVec 256 × BitVec 256) (seq : BitVec 32) (idx : Nat) (l : List (BitVec 8)) : List (BitVec 256) :=
  bytesUnits (xtsUnit true keys.1 keys.2 seq idx (l ++ List.replicate (4096 - l.length) 0))

/-- One flush unit is programmed as a codeword of the page that unit `n` of the region lies in. -/
def putFlushUnit (idx n : Nat) (last : Bool) (key part : Nat) (l : List (BitVec 8)) (s : State) : State :=
  let (d, b, p) := emergencyPage s (n / 4)
  let us := flushCipher s.pwr.flushKeys s.pwr.seq idx l ++ [0, 0]
  let s := modPage 0 d b p (fun page => putCwRecord (n % 4) (flushRecord s.pwr.seq idx last false) (putCw (n % 4) us page)) s
  modPwr (fun u => { u with region := u.region ++
    [{ seq := u.seq, idx := idx, place := key, part := part, len := l.length, page := pageNumber d b p, cw := n % 4 }] }) s

/-- The mover writes pieces, the first as unit `idx` of the flush; `n` is its place in the region. -/
def putFlushUnits (idx n : Nat) : List (Nat × Nat × List (BitVec 8)) → State → State
  | [], s => s
  | (k, part, l) :: rest, s => putFlushUnits (idx + 1) (n + 1) rest (putFlushUnit idx n (rest = []) k part l s)

/-- The first units of a flush hold the journal tail and the staging directory, the rest of its `units` units the staged blocks (R626 step 4).
What the first ones hold the spec does not lay out. -/
def flushWrite (units : Nat) (s : State) : State :=
  let l := flushPieces s
  let tail := units - l.length
  putFlushUnits tail (s.pwr.emergency + tail) l s

/-- A flush cut short leaves the units it had written, how many the spec leaves open (R632). -/
def flushCut (s : State) : State :=
  let (k, s) := drawBits s
  putFlushUnits 0 s.pwr.emergency ((flushPieces s).take (k.toNat % ((flushPieces s).length + 1))) s

/-! ## Restore (R634) -/

/-- The keys of a flush, from its begin record. -/
def flushKeysOf (s : State) (seq : BitVec 32) : BitVec 256 × BitVec 256 :=
  ((s.pwr.records.find? (fun f => f.kind = 1 && f.seq = seq)).map (·.keys)).getD (0, 0)

/-- One unit of the region goes back to the staging buffer. -/
def restoreUnit (u : FlushUnit) (s : State) : State :=
  let k := flushKeysOf s u.seq
  let ct := unitsBytes (((mget [] s.piers.data u.page).drop (130 * u.cw)).take 128)
  let pt := (xtsUnit false k.1 k.2 u.seq u.idx ct).take u.len
  modMedia (fun m => { m with buf := mset [] u.place ((mget [] m.buf u.place).take (4096 * u.part) ++ pt) m.buf }) s

/-- The restore reads every emergency page, the older flush first (R634, R638); a unit whose page fails soft decode, by its index in `bad`, comes
back poisoned: its block is not restored. -/
def restoreUnits (bad : List Nat) (s : State) : State :=
  let lost := (s.pwr.region.filter (fun u => bad.contains u.idx || mget [] s.piers.data u.page = [])).map (·.place)
  (s.pwr.region.filter (fun u => !lost.contains u.place)).foldl (fun s u => restoreUnit u s) s

/-- The emergency region is erased (R638). -/
def eraseRegion (s : State) : State :=
  let ps := s.pwr.region.map (·.page)
  modPwr (fun u => { u with region := [], emergency := 0 })
    (modPiers (fun u => { u with data := u.data.filter (fun e => !ps.contains e.1) }) s)

end Sys2Proof.Machine
end

