-- ==== Sys2Proof/Machine/Requests.lean ====
section
/-! DEFINITION. How a Tilost request is received and answered, whatever its type: the sessions, the requests that may
wait, and who is served what (R549–R555). -/

namespace Sys2Proof.Machine

/-- What waits to answer a session no longer does. -/
def dropWaiters (n : Nat) (s : State) : State :=
  let mine : Option (Nat × BitVec 32) → Option (Nat × BitVec 32) := fun w => w.filter (fun p => decide (p.1 ≠ n))
  (modReel (fun u => { u with req := u.req.map (fun q => { q with tilost := mine q.tilost }) })
      (modStore (fun u => { u with loadFrom := mine u.loadFrom })
      (modMgmt (fun u => { u with reply := u.reply.filter (fun p => decide (p.1 ≠ n)) }) s)))

/-- A Tilost session closes with a reason of R555: an image load it held open ends, its unanswered requests go with it. -/
def closeSession (n reason : Nat) (s : State) : State :=
  if !(sessOf s n).isOpen then s
  else
    let s := modSess n (fun _ => {}) s
    let s := dropWaiters n s
    let s := if s.mgmt.load = some n then (modMgmt (fun u => { u with load := none, loadLen := 0, got := [] }) s) else s
    event 0x0171 [w32 n, w32 reason] s

/-- A refusal for which the spec gives no result code: status 6, its first word free (R553). DESIGN CHOICE, log entry 72. -/
def tilostRefuse (sess : Nat) (typ : BitVec 16) (ident : BitVec 32) (s : State) : State :=
  let (f, s) := drawBits s
  tilostAnswer sess typ ident 6 [f.setWidth 32] s

/-- Whom a request is served to (R552). -/
inductive Served where
  | any | enrolled | enrolledHold
  deriving DecidableEq, Repr

/-- The AON domain holds the boot with an error that keeps the device in reset (R621). DEDUCED, log entry 74. -/
def bootHold (s : State) : Bool := decide (1 ≤ s.sys.bootErr.toNat) && decide (s.sys.bootErr.toNat ≤ 4)

/-- A request arrives on an open session and waits for its response; a 17th request closes the session (R551). -/
def tilostTake (n : Nat) (ident : BitVec 32) (s : State) : State :=
  modSess n (fun x => { x with order := x.order ++ [ident] }) s

/-- What bars a request before its own rules are read (R552, R553): status 1 or 3. -/
def tilostBar (n : Nat) (sv : Served) (s : State) : Option (BitVec 16) :=
  if bootHold s then some 3
  else if sv ≠ Served.any && !(sessOf s n).enrolled then some 1
  else if sv = Served.enrolledHold && !inHold s then some 3
  else none

/-- Receive a request on a session and run it, or answer what bars it (R551–R553). -/
def tilostRequest (sess : BitVec 2) (typ : BitVec 16) (ident : BitVec 32) (sv : Served) (f : State → State) (s : State) : Out :=
  let n := sess.toNat
  if !(sessOf s n).isOpen then .next s
  else
    let s := modMgmt (fun u => { u with rxIrq := true }) s
    if 16 ≤ (sessOf s n).order.length then .next (closeSession n 4 s)
    else
      let s := tilostTake n ident s
      match tilostBar n sv s with
      | some st => .next (tilostAnswer n typ ident st [] s)
      | none => .next (f s)

end Sys2Proof.Machine
end

