-- ==== Sys2Proof/Machine/DataPath.lean ====
section
/-! DEFINITION. The data path of a read as the standard keystone runs it: where the blocks of a range are, the reads it posts, the items it takes from
PIN in a cipher slot, decryption and tag check, the frames that carry the data, reconstruction from a ply and regeneration of frames (R19, R63, R82,
R83, R173, R241, R252, R256–R259, R290, R333, R346, R349, R351, R352, R392, R402, R439–R446). -/

namespace Sys2Proof.Machine

/-! ## Kinds of commands and their keys -/

/-- A command reads logical blocks: Read, Verify. -/
def isReadOp (o : BitVec 8) : Bool := o = 2 || o = 0x0C

/-- The current entry of a command, found again by its key. -/
def sameCmd (s : State) (c : Cmd) : Option Cmd :=
  s.tables.cmds.find? (fun x => x.internal = c.internal && x.conn = c.conn && x.cid = c.cid && !x.closed)

/-- The spindle that handles a command. -/
def cmdSpindle (s : State) (c : Cmd) : Nat :=
  if c.internal then (((taskOf s c.cid.toNat).run).getD {}).spindle else spindleOf s c.conn.toNat

/-- The command that a read was posted for, whether or not its connection has closed. -/
def findJob (s : State) (j : Job) : Option Cmd :=
  s.tables.cmds.find? (fun c => c.internal = j.int && c.conn = j.conn && c.cid = j.cid && c.arrival = j.serial && c.phase ≠ Phase.ended)

/-- The buffer of a task set's running command. -/
def taskBuf (s : State) (k : Nat) : Nat := (((taskOf s k).run).getD {}).buf.toNat

/-! ## Where blocks are (R290, R332, R333, R346, R349) -/

/-- A part of a read on one plane page: die, block unit, page, first codeword, count, pSLC, and the first LBA. -/
structure Part where
  die   : Nat := 0
  block : Nat := 0
  page  : Nat := 0
  first : Nat := 0
  count : Nat := 0
  pslc  : Bool := false
  lba   : Nat := 0
  deriving DecidableEq, Repr

/-- The zone an LBA lies in. -/
def zoneOfLba (x : Ns) (lba : Nat) : Nat := if zszeOf x = 0 then 0 else lba / zszeOf x

/-- The codeword of a skein at an offset within it (R332), which holds an LBA. -/
def skeinPart (s : State) (g k o : Nat) (pslc : Bool) (lba : Nat) : Part :=
  let ds := groupDies s g
  let (_, p, pos, cw, _) := locate ds.length o
  let d := ds.getD pos 0
  { die := d, block := memberOf s d k, page := p, first := cw, count := 1, pslc := pslc, lba := lba }

/-- The codeword of a bound skein, which is read from the pool while its member is copied through it (R357). -/
def memberPart (s : State) (g k o lba : Nat) : Part :=
  let m := skeinPart s g k o false lba
  match poolAt s (memberKey m.die m.block) (4 * m.page + m.first) with
  | some (p, q) => skeinPart s p.group p.skein q true lba
  | none => m

/-- A zone offset is written: below the accepted write pointer, and of a finished zone below its finish point (R333). -/
def isWritten (e : Zone) (o : Nat) : Bool := decide (o < e.acc) && (!e.finValid || decide (o < e.fin))

/-- A zone's offset has been programmed: it lies below the programmed pointer, or in a row that was handed to programming and is done (R339). -/
def onFlash (s : State) (e : Zone) (key o : Nat) : Bool :=
  decide (o < e.prog) ||
    (decide (o < e.stagedTo) && !s.media.rows.any (fun r => rowKey r = key && decide (r.from_ ≤ o ∧ o < r.upto)))

/-- Where a zone's offset is read: on flash once programmed, from the pool while it holds it, and nowhere while it is staged or not written
(R290, R333, R346). -/
def zonePart (s : State) (n : BitVec 32) (z o lba : Nat) : Option Part :=
  let e := zoneOf s n z
  if !isWritten e o then none
  else
    match poolAt s (zoneKey n z) o with
    | some (p, q) => some (skeinPart s p.group p.skein q true lba)
    | none => if onFlash s e (zoneKey n z) o then some (memberPart s e.group (e.skeins.getD (o / skeinZcap (grpSize s e.group)) 0) o lba) else none

/-- The place an LBA of an FDP namespace has in staging: in a row not yet programmed, or not yet in a row (R349). -/
def stagedLoc (s : State) (n : BitVec 32) (lba : Nat) : Option Nat :=
  let rows := s.media.rows.filter (fun r => r.ru && r.nsid = n)
  let units := s.media.ruLbas.filter (fun e => (ruOf s e.1).nsid = n)
  (((rows.map (·.lbas)).flatten ++ (units.map (·.2)).flatten).find? (fun l => l.1 = lba)).map (·.2)

/-- Where an LBA of an FDP namespace is read: in staging, else from its map (R349). -/
def fdpPart (s : State) (x : Ns) (n : BitVec 32) (lba : Nat) : Option Part :=
  let loc := mget 0 x.map lba
  if loc = 0 || (stagedLoc s n lba).isSome then none
  else
    let r := ruOf s ((loc - 1) / 2 ^ 32)
    match poolAt s (2 ^ 60 + (loc - 1) / 2 ^ 32) ((loc - 1) % 2 ^ 32) with
    | some (p, q) => some (skeinPart s p.group p.skein q true lba)
    | none => some (memberPart s r.group r.skein ((loc - 1) % 2 ^ 32) lba)

/-- The codeword that an LBA is read from, if any. -/
def lbaPart (s : State) (x : Ns) (n : BitVec 32) (lba : Nat) : Option Part :=
  if x.fdp then fdpPart s x n lba else zonePart s n (zoneOfLba x lba) (lba % zszeOf x) lba

/-- A codeword joins the part before it where it follows on the same page; the list is in reverse. -/
def addPart (l : List Part) (p : Part) : List Part :=
  match l with
  | [] => [p]
  | q :: rest =>
    if q.die = p.die && q.block = p.block && q.page = p.page && q.pslc = p.pslc && q.first + q.count = p.first && q.lba + q.count = p.lba then
      { q with count := q.count + p.count } :: rest
    else p :: l

/-- A range split by plane page (R63, R332): what of it is on flash. -/
def splitRead (s : State) (x : Ns) (n : BitVec 32) (lba cnt : Nat) : List Part :=
  (((List.range cnt).filterMap (fun i => lbaPart s x n (lba + i))).foldl addPart []).reverse

/-- The LBAs of a range that need no media read. -/
def readyLbas (s : State) (x : Ns) (n : BitVec 32) (lba cnt : Nat) : List Nat :=
  ((List.range cnt).map (lba + ·)).filter (fun l => (lbaPart s x n l).isNone)

/-- The staged bytes of an LBA, or the deallocated pattern (R290, R333). -/
def stagedBlock (s : State) (x : Ns) (n : BitVec 32) (lba : Nat) : List (BitVec 8) :=
  let l :=
    if x.fdp then ((stagedLoc s n lba).map (fun k => mget [] s.media.buf (bufKey (2 ^ 60 + k / 2 ^ 32) (k % 2 ^ 32)))).getD []
    else
      let z := zoneOfLba x lba
      let o := lba % zszeOf x
      if isWritten (zoneOf s n z) o then mget [] s.media.buf (bufKey (zoneKey n z) o) else []
  l ++ List.replicate (lbaBytes x - l.length) 0

/-! ## Posting (R63, R83, R389, R443) -/

/-- The largest place a read's stored protection and transport allow, in codewords (R443). -/
def placeLimit (fmt1 tls : Bool) : Nat := if fmt1 then (if tls then 1 else 3) else (if tls then 2 else 4)

/-- What a part's read is for; `off` is its first block's number in the command's transfer. -/
def partJob (c : Cmd) (p : Part) (off : Nat) (regen : Option (BitVec 32)) : Job :=
  { conn := c.conn, cid := c.cid, int := c.internal, serial := c.arrival, nsid := c.nsid, lba := p.lba, off := off, regen := regen }

/-- The descriptor of a part (R389). -/
def partDesc (s : State) (c : Cmd) (x : Ns) (p : Part) (off : Nat) (regen : Option (BitVec 32) := none) : DieDesc :=
  { fn := 0, die := p.die, block := p.block, page := p.page, cws := BitVec.ofNat 8 (p.first + 4 * p.count),
    flags := (if p.pslc then 1 else 0) ||| (if x.fmt1 then 2 else 0), spindle := cmdSpindle s c,
    tag := c.conn.setWidth 32 <<< 16 ||| c.cid.setWidth 32, owner := c.cls.toNat, cmd := if c.internal then none else some (c.conn, c.cid),
    lim := placeLimit x.fmt1 (!c.internal && (connOf s c.conn.toNat).tls), job := some (partJob c p off regen) }

/-- The other pages of a page's ply, as (die, block unit) (R332). -/
def plyOthers (s : State) (d b : Nat) : List (Nat × Nat) :=
  match groupOfDie s d, skeinOf s d b with
  | some g, some k => ((groupDies s g).filter (· ≠ d)).map (fun e => (e, memberOf s e k))
  | _, _ => []

/-- The reads that reconstruct a page: of the ply's other pages, in normal places or, as recoveries, in recovery places (R82, R83). -/
def plyReads (s : State) (x : DieDesc) (lone : Bool) : List DieDesc :=
  (plyOthers s x.die x.block).map (fun e => { x with die := e.1, block := e.2, flags := clrBit x.flags 2, recov := false, lone := lone, job := none })

/-- The reads a part needs: its own, or, when its die is known lost, those of the other pages of its ply, in normal places (R83). -/
def partReads (s : State) (c : Cmd) (x : Ns) (p : Part) : List DieDesc :=
  if memberDown s p.die p.block then plyReads s (partDesc s c x p 0) true else [partDesc s c x p 0]

/-- A reconstruction begins (R82, R83): one read for each other page of the ply. -/
def startRecon (unb lone : Bool) (x : DieDesc) (s : State) : State :=
  let l := plyReads s x lone
  let k := s.piers.nextId
  let s := modPiers (fun u => { u with recons := u.recons ++ [{ ident := k, desc := x, left := l.length }], nextId := k + 1 }) s
  l.foldl (fun s d => if lone then postNew unb { d with recon := some k } s else postRecovery unb { d with recon := some k } s) s

/-- A read is posted (R63), or reconstructed from its ply where its die is known lost (R83): `unb` when it is not within its tenant's admitted
rate (R65, R81). -/
def postJob (unb : Bool) (x : DieDesc) (s : State) : State := if memberDown s x.die x.block then startRecon unb true x s else postNew unb x s

/-! ## Frames that carry read data (R241, R242, R252, R253, R257) -/

/-- A length cut into pieces of at most `n`, as (offset, length). Fuel bounds them. -/
def pieces (n : Nat) : Nat → Nat → Nat → List (Nat × Nat)
  | 0, _, _ => []
  | _ + 1, _, 0 => []
  | f + 1, a, len + 1 => (a, min n (len + 1)) :: pieces n f (a + min n (len + 1)) (len + 1 - min n (len + 1))

/-- A frame of a command's read data. -/
def dataFrame (s : State) (c : Cmd) (kind : BitVec 4) (desc : BitVec 256) (pay : List (BitVec 8)) (src : FrameSrc) : TxFrame :=
  { path := connPath s c.conn, kind := kind, conn := some c.conn, cid := some c.cid, desc := desc, units := bytesUnits pay, src := some src }

/-- The opcode of packet `i` of `n` of an RDMA WRITE (R236): Only, First, Middle, Last. -/
def writeOp (i n : Nat) : Nat := if n = 1 then 0x0A else if i = 0 then 6 else if i + 1 = n then 8 else 7

/-- Read data as RDMA WRITE messages, one for each keyed range it goes to, in packets of the path MTU (R236, R237). -/
def roceFrames (s : State) (c : Cmd) (src : FrameSrc) (data : List (BitVec 8)) : List TxFrame :=
  let n := max 1 (connOf s c.conn.toNat).mtu
  let step := fun (acc : Nat × List TxFrame) (r : Nat × BitVec 32 × Nat) =>
    let l := pieces n (r.2.2 + 1) 0 r.2.2
    (acc.1 + r.2.2, acc.2 ++ l.zipIdx.map (fun e =>
      let pay := (data.drop (acc.1 + e.1.1)).take e.1.2
      let last := if e.2 + 1 = l.length then 1 else 0
      let d := if e.2 = 0 then frameDesc c.conn e.1.2 (writeOp e.2 l.length) last 0 r.1 r.2.1.toNat r.2.2
        else frameDesc c.conn e.1.2 (writeOp e.2 l.length) last 0 0 0 0
      dataFrame s c 0 d pay { src with at_ := acc.1 + e.1.1, len := e.1.2 }))
  ((rangeSlices c.ranges src.off data.length).foldl step (0, [])).2

/-- Where the data of a C2HData PDU begins, without its header digest: the header, aligned as the ICReq asks (R241). -/
def pduData (k : Conn) : Nat :=
  let a := 4 * (k.hpda.toNat + 1)
  let h := if k.hdgst then 28 else 24
  (h + a - 1) / a * a - (if k.hdgst then 4 else 0)

/-- A C2HData PDU as the spindle pushes it (R241): the 24-byte header of NVMe/TCP, padding and the data; the transport engine adds the digests.
SUCCESS is never set. PRESUMED, log entry 151. -/
def c2hPdu (k : Conn) (cid : BitVec 16) (off : Nat) (fin : Bool) (data : List (BitVec 8)) : List (BitVec 8) :=
  let flags := (if k.hdgst then 1 else 0) + (if k.ddgst then 2 else 0) + (if fin then 4 else 0)
  let pdo := pduData k + (if k.hdgst then 4 else 0)
  [7, BitVec.ofNat 8 flags, 24, BitVec.ofNat 8 pdo] ++ leBytes 4 (pdo + data.length + (if k.ddgst then 4 else 0)) ++
    leBytes 2 cid.toNat ++ [0, 0] ++ leBytes 4 off ++ leBytes 4 data.length ++ [0, 0, 0, 0] ++ List.replicate (pduData k - 24) 0 ++ data

/-- A PDU's bytes as TCP segments; `dg` asks for the digests that the connection uses. -/
def tcpFrames (s : State) (c : Cmd) (src : FrameSrc) (dg : Bool) (bytes : List (BitVec 8)) : List TxFrame :=
  let k := connOf s c.conn.toNat
  let l := pieces (segmentBytes k) (bytes.length + 1) 0 bytes.length
  l.zipIdx.map (fun e =>
    let pay := (bytes.drop e.1.1).take e.1.2
    let last := e.2 + 1 = l.length
    let hd := dg && k.hdgst && decide (e.2 = 0)
    let dd := dg && k.ddgst && decide last
    let flags := (if last then 3 else 0) + (if hd then 4 else 0) + (if dd then 8 else 0)
    dataFrame s c 1 (frameDesc c.conn e.1.2 0 flags (if hd || dd then 24 else 0) 0 0 (onesSum pay)) pay { src with at_ := e.1.1, len := e.1.2 })

/-- What a place's data is sent as on TCP: its PDU, or the TLS record that carries it (R250, R445). -/
def placeBytes (k : Conn) (cid : BitVec 16) (src : FrameSrc) (tls : Bool) (data : List (BitVec 8)) : List (BitVec 8) :=
  let pdu := c2hPdu k cid src.off src.fin data
  if tls then tlsRecord src.key src.iv src.tseq pdu else pdu

/-- Read data of a command goes to its transmit path (R63, R241, R252, R445): not that of a closed connection (R243); false where the connection's
send key is refused (R437). -/
def sendData (c : Cmd) (lba off cnt size : Nat) (fin : Bool) (data : List (BitVec 8)) (s : State) : Bool × State :=
  let k := connOf s c.conn.toNat
  let src : FrameSrc := { serial := c.arrival, nsid := c.nsid, lba := lba, cnt := cnt, off := off * size, fin := fin }
  let put := fun (l : List TxFrame) (s : State) => modXpt (fun u => { u with tx := u.tx ++ l }) s
  if c.closed || !k.isOpen then (true, s)
  else if !k.tcp then (true, put (roceFrames s c src data) s)
  else if !k.tls then (true, put (tcpFrames s c src true (placeBytes k c.cid src false data)) s)
  else
    match useKey k.kTx.toNat (tlsBlocks (24 + data.length)) s with
    | (false, s) => (false, s)
    | (true, s) =>
      let src := { src with key := (keyOf s k.kTx.toNat).key, iv := k.ivTx, tseq := k.txSeq }
      (true, put (tcpFrames s c src false (placeBytes k c.cid src true data)) (modConn c.conn.toNat (fun y => { y with txSeq := y.txSeq + 1 }) s))

/-! ## What becomes of a command's data (R173, R311, R439, R444) -/

/-- Nothing more of a command's data is sent (R439): frames waiting are dropped, but for the rest of a PDU whose first segments have left, and for
TLS records, whose sequence numbers are used. -/
def dropData (c : Cmd) (s : State) : State :=
  let k := connOf s c.conn.toNat
  let mine := fun (f : TxFrame) => decide (f.conn = some c.conn) && decide (f.cid = some c.cid) && f.src.isSome
  let kept := if k.pdu = [] then [] else (s.xpt.tx.filter mine).takeWhile (fun f => (f.src.getD {}).at_ ≠ 0)
  if c.internal || k.tls then s
  else modXpt (fun u => { u with tx := u.tx.filter (fun f => !mine f || kept.contains f) }) s

/-- Payload of a command has left the device, or is on its way out in a TLS record (R173). -/
def dataLeft (s : State) (c : Cmd) : Bool :=
  c.sent || ((connOf s c.conn.toNat).tls && s.xpt.tx.any (fun f => decide (f.conn = some c.conn) && decide (f.cid = some c.cid) && f.src.isSome))

/-- A read's data is lost (R173, R439): 80h where payload has left, else 06h. -/
def loseRead (c : Cmd) (s : State) : State := completeCmd c (if dataLeft s c then status 7 0x80 else status 0 6) 0 0 (dropData c s)

/-- Decrypted blocks of a command have come: a Read sends them, an internal Read writes them at TASK_BUF (R311), a Copy stages them (R307), a Verify
only counts them. The command's entry is answered as it then stands; none where the data could not be sent. -/
def putBlocks (c : Cmd) (x : Ns) (lba off : Nat) (blocks : List (List (BitVec 8))) (s : State) : Option Cmd × State :=
  let n := blocks.length
  let c' := { c with got := c.got + n
                     blocks := if c.opcode = 0x19 then blocks.zipIdx.foldl (fun m b => mset [] (off + b.2) b.1 m) c.blocks else c.blocks }
  let s := updCmd c (fun _ => c') s
  if c.opcode ≠ 2 then (some c', s)
  else if c.internal then
    let a := taskBuf s c.cid.toNat + off * lbaBytes x
    let data := blocks.flatten
    (some c', if inDram s a (max 1 data.length) then busWrite none a data s else s)
  else
    match sendData c' lba off n (lbaBytes x) (decide (c'.got = c.nlb)) blocks.flatten s with
    | (true, s) => (some c', s)
    | (false, s) => (none, loseRead c' s)

/-- A read whose blocks have all come completes (R63, R284), with 2h / 81h where some of them cannot be read (R283); a Copy goes on to its
destination. -/
def endRead (c : Cmd) (s : State) : State :=
  if isReadOp c.opcode && decide (c.got = c.nlb) then completeCmd c (if c.fail then status 2 0x81 else 0) 0 0 s else s

/-- Blocks of a command have come, and the last of them completes a read. -/
def giveBlocks (j : Job) (x : Ns) (lba off : Nat) (blocks : List (List (BitVec 8))) (s : State) : State :=
  match findJob s j with
  | none => s
  | some c =>
    match putBlocks c x lba off blocks s with
    | (some c', s) => endRead c' s
    | (none, s) => s

/-- Blocks of a command cannot be read (R283, R352): a Copy ends with 2h / 81h, a read once its other blocks have come. -/
def failBlocks (c : Cmd) (n : Nat) (s : State) : State :=
  if !isReadOp c.opcode then completeCmd c (status 2 0x81) 0 0 s
  else
    let c' := { c with got := c.got + n, fail := true }
    endRead c' (updCmd c (fun _ => c') s)

/-! ## Regeneration (R256, R257, R259) -/

/-- The record of a connection that a regenerated read belongs to: of the frame with this sequence number. -/
def regenRecord (s : State) (conn : BitVec 16) (seq : BitVec 32) : Option RtxRec :=
  (connOf s conn.toNat).unack.find? (fun r => r.seq = seq && r.frame.src.isSome)

/-- Change the record of a frame. -/
def modRecord (conn : BitVec 16) (seq : BitVec 32) (f : RtxRec → RtxRec) (s : State) : State :=
  modConn conn.toNat (fun c => { c with unack := c.unack.map (fun r => if r.seq = seq && r.frame.src.isSome then f r else r) }) s

/-- A TCP frame sent again carries the bytes that it carried first, digests and all. -/
def againTcp (k : Conn) (src : FrameSrc) (f : TxFrame) (bytes : List (BitVec 8)) : TxFrame :=
  let g := { f with units := bytesUnits ((bytes.drop src.at_).take src.len) }
  let pay := (withDigests k.hdgst (bytes.take src.at_) g).1
  { g with units := bytesUnits pay, desc := frameDesc (f.conn.getD 0) pay.length 0 (freeField f.desc 40 2) 0 0 0 (onesSum pay) }

/-- The frame that carries read data, made again from the blocks of its place (R257): the same bytes under the same sequence number, on TLS with the
same record number and key. -/
def frameAgain (s : State) (r : RtxRec) (src : FrameSrc) : TxFrame :=
  let f := r.frame
  let k := connOf s (f.conn.getD 0).toNat
  let data := ((List.range src.cnt).map (fun i => mget [] r.blocks i)).flatten
  if f.kind = 0 then { f with units := bytesUnits ((data.drop src.at_).take src.len), again := true, seq := r.seq }
  else { againTcp k src f (placeBytes k (f.cid.getD 0) src k.tls data) with again := true, seq := r.seq }

/-- A regenerated read found an error (R259): 80h while its command's completion has not been posted, else the connection closes. A completion that
is posted and waits for its transmit slot counts as sent: its entry is freed. DESIGN CHOICE, log entry 180. -/
def regenLost (j : Job) (s : State) : State :=
  match j.regen.bind (regenRecord s j.conn) with
  | none => s
  | some _ =>
    match findJob s j with
    | some c => if c.closed then s else completeCmd c (status 7 0x80) 0 0 (dropData c s)
    | none => closeConnection j.conn.toNat true 6 s

/-- Blocks of a frame's place have been read again; when all are there the frame is sent again (R257). -/
def giveRegen (j : Job) (seq : BitVec 32) (lba : Nat) (blocks : List (List (BitVec 8))) (s : State) : State :=
  match regenRecord s j.conn seq with
  | none => s
  | some r =>
    let src := r.frame.src.getD {}
    let m := blocks.zipIdx.foldl (fun m b => mset [] (lba - src.lba + b.2) b.1 m) r.blocks
    let r' := { r with blocks := m }
    if (List.range src.cnt).all (fun i => decide (mget [] m i ≠ [])) then
      let again := frameAgain s r' src
      let k := connOf s j.conn.toNat
      let s := modRecord j.conn seq (fun r => { r with blocks := [] }) s
      if k.tls then
        match useKey k.kTx.toNat (tlsBlocks (24 + (blocks.headD []).length * src.cnt)) s with
        | (true, s) => queueFrame again s
        | (false, s) => regenLost j s
      else queueFrame again s
    else modRecord j.conn seq (fun _ => r') s

/-! ## Blocks that are staged (R290) -/

/-- A block that needs no media read is given: to its command, or to the frame that is made again. -/
def giveStaged (j : Job) (x : Ns) (block : List (BitVec 8)) (s : State) : State :=
  match j.regen with
  | some seq => giveRegen j seq j.lba [block] s
  | none => giveBlocks j x j.lba j.off [block] s

/-- The class whose slots serve a job's staged blocks. -/
def jobClass (s : State) (j : Job) : Nat :=
  match findJob s j with | some c => c.cls.toNat | none => connClass s j.conn.toNat

/-- The LBA is staged, not on flash: its zone or unit holds a staged block for it. -/
def isStaged (s : State) (x : Ns) (n : BitVec 32) (lba : Nat) : Bool :=
  if x.fdp then (stagedLoc s n lba).isSome else isWritten (zoneOf s n (zoneOfLba x lba)) (lba % zszeOf x)

/-- A block of a job that is staged is read in a DRAM port slot of its class (R290), at once where one runs; one that was never written needs no
read (R333). What it holds is taken at admission: its lock keeps it so until then. DEDUCED, log entry 150. -/
def readStaged (j : Job) (x : Ns) (s : State) : State :=
  let b := stagedBlock s x j.nsid j.lba
  if !isStaged s x j.nsid j.lba || dramSlot s (jobClass s j) then giveStaged j x b s
  else modPiers (fun u => { u with ready := u.ready ++ [(j, b)] }) s

/-- A DRAM port slot of a class begins: the staged blocks that wait for it are read, in order (R290). -/
def serveStaged (cls : Nat) (s : State) : State :=
  let mine := fun (e : Job × List (BitVec 8)) => decide (jobClass s e.1 = cls)
  let l := s.piers.ready.filter mine
  l.foldl (fun s e => match nsOf s e.1.nsid.toNat with | some x => giveStaged e.1 x e.2 s | none => s)
    (modPiers (fun u => { u with ready := u.ready.filter (fun e => !mine e) }) s)

/-! ## Retransmit requests (R257, R287) -/

/-- A retransmit request of a spindle's RXQ (R287): connection, command, first byte and length. -/
def rxRegen (u : BitVec 256) : BitVec 16 × BitVec 16 × Nat × Nat :=
  ((u >>> 16).setWidth 16, (u >>> 48).setWidth 16, (u >>> 64).toNat % 2 ^ 64, (u >>> 128).toNat % 2 ^ 64)

/-- The command of a frame's data as its regenerated reads know it. -/
def regenCmd (s : State) (conn cid : BitVec 16) (x : FrameSrc) : Cmd :=
  { conn := conn, cid := cid, arrival := x.serial, nsid := x.nsid, cls := BitVec.ofNat 8 (connClass s conn.toNat) }

/-- A retransmit request is dealt with (R257): the read of its frame's place is posted again, without a tier bound. -/
def regenerate (u : BitVec 256) (s : State) : State :=
  let (conn, cid, off, len) := rxRegen u
  match (connOf s conn.toNat).unack.find? (fun r => r.cid = some cid && r.frame.src.isSome && r.off.toNat = off && r.len.toNat = len) with
  | none => s
  | some r =>
    let src := r.frame.src.getD {}
    match nsOf s src.nsid.toNat with
    | none => s
    | some x =>
      let c := regenCmd s conn cid src
      let s := modRecord conn r.seq (fun r => { r with blocks := [] }) s
      let parts := splitRead s x src.nsid src.lba src.cnt
      let ready := readyLbas s x src.nsid src.lba src.cnt
      let s := parts.foldl (fun s p => postJob true { partDesc s c x p (p.lba - src.lba) (some r.seq) with cmd := none } s) s
      ready.foldl (fun s l => readStaged { partJob c { lba := l } 0 (some r.seq) with int := false } x s) s

/-- The retransmit requests of a class on a spindle are dealt with in its parse issue slot (R257). -/
def runRegens (n owner : Nat) (s : State) : State :=
  let q := takeItems (fun h => h.setWidth 8 = 3#8 && connClass s (rxConn h).toNat = owner) (spn s n).rxq.length (spn s n).rxq
  if q.2 = [] then s else q.2.foldl (fun s u => regenerate u.1 s) (modSpn n (fun x => { x with rxq := q.1 }) s)

/-! ## Items (R82, R392, R394, R439–R441, R444) -/

/-- The stored bytes of codeword `i` of an item. -/
def itemCodeword (d : DieDesc) (us : List (BitVec 256)) (i : Nat) : List (BitVec 8) :=
  let n := descCount d
  unitsBytes ((us.drop (128 * i)).take 128) ++ (if bit d.flags 1 then unitsBytes ((us.drop (128 * n + 2 * i)).take 2) else [])

/-- The data and metadata units of an item. -/
def itemData (d : DieDesc) : Nat := descCount d * (if bit d.flags 1 then 130 else 128)

/-- The units of a whole item of a code (R392, R394). -/
def itemUnits (d : DieDesc) (code : Nat) : Nat := if code ≤ 2 then itemData d + 2 else 1

/-- The protection of an LBA of a namespace as it is read. -/
def lbaGuard (s : State) (x : Ns) (n : BitVec 32) (lba : Nat) : Guard :=
  guardOf s x n lba (if x.fdp then 0 else (zoneOf s n (zoneOfLba x lba)).binding)

/-- A stored codeword fails its tag (R441, R444). -/
def tagFails (g : Guard) (stored : List (BitVec 8)) : Bool :=
  g.gcm && decide (gcmTag g.keyB (storedIv g) [] (stored.take 4144) ≠ (stored.drop 4144).take 16)

/-- A failure waits for the next parse issue slot of its class. -/
def setDue (d : DieDesc) (code : Nat) (s : State) : State :=
  modPiers (fun u => { u with items := u.items ++ [{ ident := u.nextId, desc := d, code := code, due := true }], nextId := u.nextId + 1 }) s

/-- A codeword that decoded fails its tag (R444): software event 0x07A3, and a reconstruction of the codeword from its ply. -/
def tagFailed (d : DieDesc) (j : Job) (i : Nat) (s : State) : State :=
  let s := eventF 0x07A3 0 true [w32 d.spindle, j.nsid, w32 (j.lba + i), w32 ((j.lba + i) / 2 ^ 32)] s
  setDue { descSlice d i 1 with job := some { j with lba := j.lba + i, off := j.off + i, check := true, regen := none }, cmd := none } 3 s

/-- The poison mark of codeword `i` of an item, in its page record (R397). -/
def recordPoison (us : List (BitVec 256)) (d : DieDesc) (i : Nat) : Bool := bit (us.getD (itemData d) 0) (64 * i + 63)

/-- `n` blocks that a read was posted for are unrecoverable (R352). -/
def failMedia (j : Job) (n : Nat) (s : State) : State :=
  if j.regen.isSome then regenLost j s
  else match findJob s j with
    | none => s
    | some c => failBlocks c n s

/-- The keystone decrypts the codewords of a read that came whole, sends them or passes them on, and checks their tags (R19, R439–R441, R444). -/
def takeRead (d : DieDesc) (j : Job) (us : List (BitVec 256)) (s : State) : State :=
  match nsOf s j.nsid.toNat with
  | none => s
  | some x =>
    let n := descCount d
    if (findJob s j).isNone && j.regen.isNone then s
    else
      match useHome x n false s with
      | (false, s) =>
        if j.regen.isSome then regenLost j s else (match findJob s j with | some c => loseRead c s | none => s)
      | (true, s) =>
        let gs := (List.range n).map (fun i => (lbaGuard s x j.nsid (j.lba + i), itemCodeword d us i))
        let blocks := gs.map (fun g => openBlock g.1 g.2)
        let bad := (List.range n).filter (fun i => tagFails (gs.getD i ({}, [])).1 (gs.getD i ({}, [])).2)
        match j.regen with
        | some seq => if bad = [] then giveRegen j seq j.lba blocks s else bad.foldl (fun s i => tagFailed d j i s) (regenLost j s)
        | none =>
          if bad = [] then giveBlocks j x j.lba j.off blocks s
          else
            let s := match findJob s j with
              | none => s
              | some c =>
                match putBlocks c x j.lba j.off blocks s with
                | (some c', s) => completeCmd c' (status 7 0x80) 0 0 s
                | (none, s) => s
            bad.foldl (fun s i => tagFailed d j i s) s

/-- The units of one codeword of an item, laid out as an item of that codeword alone. -/
def cwUnits (d : DieDesc) (us : List (BitVec 256)) (i : Nat) : List (BitVec 256) :=
  (us.drop (128 * i)).take 128 ++ (if bit d.flags 1 then (us.drop (128 * descCount d + 2 * i)).take 2 else [])

/-- The keystone takes a read's item: its poisoned codewords are unreadable (R283, R296, R397), the others are decrypted. -/
def takeWhole (d : DieDesc) (j : Job) (us : List (BitVec 256)) (s : State) : State :=
  let n := descCount d
  if (List.range n).all (fun i => !recordPoison us d i) then takeRead d j us s
  else (List.range n).foldl (fun s i =>
    let j' := { j with lba := j.lba + i, off := j.off + i }
    if recordPoison us d i then failMedia j' 1 s else takeRead (descSlice d i 1) j' (cwUnits d us i) s) s

/-- A codeword reconstructed because its tag failed (R444): it passes its own tag, and the reconstruction is recorded, or the LBA is poisoned. -/
def takeCheck (d : DieDesc) (j : Job) (us : List (BitVec 256)) (s : State) : State :=
  match nsOf s j.nsid.toNat with
  | none => s
  | some x =>
    if tagFails (lbaGuard s x j.nsid j.lba) (itemCodeword d us 0) then
      modMedia (fun u => { u with poisonLbas := u.poisonLbas ++ [(j.nsid.toNat, j.lba, 1)] }) s
    else noteReconstruction d.die d.block s

/-- A page has been reconstructed (R82, R351): the member that failed is recorded, unless its die is lost, and its ciphertext waits for a cipher slot
of its class. -/
def formed (r : Recon) (us : List (BitVec 256)) (s : State) : State :=
  let d := r.desc
  let s := modPiers (fun u => { u with recons := u.recons.filter (fun y => decide (y.ident ≠ r.ident)) }) s
  match d.job with
  | none => s
  | some j =>
    if j.check then takeCheck d j us s
    else
      let s := if isLost s d.die then s else noteReconstruction d.die d.block s
      modPiers (fun u => { u with items := u.items ++ [{ ident := u.nextId, desc := d, code := 2, units := us }], nextId := u.nextId + 1 }) s

/-- What a read of a ply's page brings, at its codewords' places in the page that is formed: its data units, then its metadata units (R82, R392). -/
def plyUnits (r d : DieDesc) (us : List (BitVec 256)) : List (BitVec 256) :=
  let n := descCount d
  let before := d.cws.toNat % 4 - r.cws.toNat % 4
  let after := descCount r - before - n
  let at_ := fun (k : Nat) (l : List (BitVec 256)) => List.replicate (k * before) 0 ++ l ++ List.replicate (k * after) 0
  at_ 128 (us.take (128 * n)) ++ (if bit d.flags 1 then at_ 2 ((us.drop (128 * n)).take (2 * n)) else [])

/-- A page of a ply that is being reconstructed has come, or some of its codewords (R63, R82). -/
def takePly (r : Recon) (d : DieDesc) (us : List (BitVec 256)) (s : State) : State :=
  let l := plyUnits r.desc d us
  let acc := if r.acc = [] then l else xorUnits r.acc l
  if r.left ≤ 1 then formed r acc s
  else modPiers (fun u => { u with recons := u.recons.map (fun y => if y.ident = r.ident then { y with left := y.left - 1, acc := acc } else y) }) s

/-- A reconstruction fails, a second page of its ply being unreadable (R352): event 0x0945, both pages poisoned, and the command of the read ends
with 2h / 81h. -/
def reconFails (r : Recon) (d : DieDesc) (s : State) : State :=
  let s := modPiers (fun u => { u with recons := u.recons.filter (fun y => decide (y.ident ≠ r.ident)) }) s
  let s := poisonPage d.die d.block d.page (plyLost r.desc.die r.desc.block r.desc.page s)
  match r.desc.job with
  | none => s
  | some j => if j.check then s else failMedia j (descCount r.desc) s

/-- The reconstruction that a read serves. -/
def reconOf (s : State) (d : DieDesc) : Option Recon := d.recon.bind (fun k => s.piers.recons.find? (fun r => r.ident = k))

/-- The data of a read has not come whole: a slot violation took units, or its cipher slot's work was late (R171, R173). -/
def lostItem (d : DieDesc) (s : State) : State :=
  let job := match reconOf s d with | some r => r.desc.job | none => d.job
  let s := match reconOf s d with
    | some r => modPiers (fun u => { u with recons := u.recons.filter (fun y => decide (y.ident ≠ r.ident)) }) s
    | none => s
  match job with
  | none => s
  | some j =>
    if j.check then s
    else if j.regen.isSome then regenLost j s
    else match findJob s j with | some c => loseRead c s | none => s

/-- The keystone takes an item of one of its reads off PIN (R19, R82, R392). -/
def takeItem (late : Bool) (k : Nat) (us : List (BitVec 256)) (s : State) : State :=
  match s.piers.items.find? (fun i => i.ident = k) with
  | none => s
  | some i =>
    let d := i.desc
    let s := modPiers (fun u => { u with items := u.items.filter (fun y => decide (y.ident ≠ k)) }) s
    if late || us.length ≠ itemUnits d i.code then lostItem d s
    else if 2 < i.code then setDue d i.code s
    else match reconOf s d, d.job with
      | some r, _ => takePly r d us s
      | none, some j => takeWhole d j us s
      | none, none => s

/-- The items of the keystone's reads that a cipher slot's place has on a spindle's PIN, and the pages reconstructed for its owner there: all of
them in order (R19, R51). DESIGN CHOICE, log entry 150. -/
def keystonePass (n key owner : Nat) (late : Bool) (s : State) : State :=
  let take := fun (u : PinUnit) => u.item ≠ 0 && u.cipher = key && !u.outcome
  let mine := (spn s n).pin.filter take
  let s := if mine.isEmpty then s else modSpn n (fun x => { x with pin := x.pin.filter (fun u => !take u) }) s
  let s := ((mine.map (·.item)).eraseDups).foldl (fun s k => takeItem late k ((mine.filter (fun u => u.item = k)).map (·.data)) s) s
  let l := s.piers.items.filter (fun i => i.units ≠ [] && i.desc.owner = owner && i.desc.spindle = n)
  if late then s
  else l.foldl (fun s i => match i.desc.job with
    | none => s
    | some j => takeRead i.desc j i.units (modPiers (fun u => { u with items := u.items.erase i }) s)) s

/-- A failure of a read is dealt with in a parse issue slot of its class (R82, R83, R394): a refused read is posted again without a bound, and a page
that cannot be read is reconstructed, in normal places where its die is lost; a page of a ply under reconstruction ends it. -/
def dealWith (i : KsItem) (s : State) : State :=
  let d := i.desc
  let s := modPiers (fun u => { u with items := u.items.erase i }) s
  if i.code = 4 || i.code = 6 then postSplit true 4 d (countUnbound d s)
  else match reconOf s d with
    | some r => reconFails r d s
    | none =>
      if d.recon.isSome then s
      else startRecon false (i.code = 5) d s

/-- The keystone's work in a parse issue slot of a class on a spindle: failures of its reads, and retransmit requests (R82, R257). -/
def issueWork (n owner : Nat) (s : State) : State :=
  let l := s.piers.items.filter (fun i => i.due && i.desc.owner = owner && i.desc.spindle = n)
  runRegens n owner (l.foldl (fun s i => dealWith i s) s)

/-! ## Ready times of places (R394, R395, R400, R402) -/

/-- HARD_DECODE_COMPLETE (R82, R394, R395, R400): a place's ready time. -/
def execHardDecodeComplete (d : BitVec 11) (plane : BitVec 3) (ok : Bool) (errs : BitVec 16) (s : State) : Out := .next (hardDecoded d plane ok errs s)

/-- SOFT_DECODE_COMPLETE (R82, R402, R411): a soft-decode engine ends. -/
def execSoftDecodeComplete (d : BitVec 11) (plane : BitVec 3) (ok : Bool) (errs : BitVec 16) (s : State) : Out := .next (softDecoded d plane ok errs s)

end Sys2Proof.Machine
end

