-- ==== Sys2Proof/Machine/Nvme.lean ====
section
/-! DEFINITION. Tenant I/O commands as the standard keystone handles them: the checks at parse, ordering, range locks,
admission of reads, writes, zone management and copies, deferral and its retry (R61–R66, R275–R310, R321, R322). -/

namespace Sys2Proof.Machine

/-! ## Kinds of commands -/

/-- A command writes logical blocks: Write, Write Zeroes, Copy, Zone Append. -/
def isWriteOp (o : BitVec 8) : Bool := o = 1 || o = 8 || o = 0x19 || o = 0x7D
/-- The zone action of a Zone Management Send (CDW13 bits 7:0). -/
def zoneSendAction (c : Cmd) : Nat := ((sqeDw c.sqe 13).setWidth 8).toNat
/-- Select All of a Zone Management Send (CDW13 bit 8). -/
def selectAll (c : Cmd) : Bool := bit (sqeDw c.sqe 13) 8

/-- The LBAs of a namespace. -/
def nsLbas (x : Ns) : Nat := if x.fdp then fdpLbas x else zoneCount x * zszeOf x

/-- The namespace a command names, where its controller reaches it: attached, or any for an internal command (R311,
R425). -/
def cmdNs (s : State) (c : Cmd) : Option Ns :=
  match nsOf s c.nsid.toNat with
  | none => none
  | some x => match c.vc with
    | none => if c.internal then some x else none
    | some v => if x.attached.contains v then some x else none

/-- An I/O opcode the namespace kind supports (R278). -/
def kindOk (x : Ns) (o : BitVec 8) : Bool :=
  o = 0 || isReadOp o || o = 1 || o = 8 || o = 0x19 ||
    (!x.fdp && (o = 0x79 || o = 0x7A || o = 0x7D)) || (x.fdp && (o = 0x12 || o = 0x1D))

/-- DTYPE of a write (CDW12 bits 23:20) and DSPEC (CDW13 bits 31:16) (R298). -/
def dtype (c : Cmd) : Nat := ((sqeDw c.sqe 12 >>> 20).setWidth 4).toNat
/-- DSPEC of a write. -/
def dspec (c : Cmd) : Nat := (sqeDw c.sqe 13 >>> 16).toNat

/-- The placement of a write is one the namespace admits (R298). -/
def placementOk (x : Ns) (c : Cmd) : Bool :=
  c.opcode = 0x7D || dtype c = 0 || (dtype c = 2 && x.fdp && decide (dspec c < x.handles))

/-- The mode's answer to an I/O command, none where it is served (R202, R322). Mode 11 serves the commands that R322 lists in no column. DESIGN
CHOICE, log entry 170. -/
def modeStatus (s : State) (c : Cmd) : Option (BitVec 16) :=
  let a := zoneSendAction c
  if c.internal then none
  else if inHold s then some (status 7 0x83)
  else if s.reel.deck = 11 && c.opcode ≠ 0 && c.opcode ≠ 0x7A && c.opcode ≠ 0x12 && c.opcode ≠ 0x1D then some (status 0 0x1D)
  else if s.reel.deck = 9 && (isWriteOp c.opcode || (c.opcode = 0x79 && (a = 2 || a = 3 || a = 4))) then some (status 0 0x20)
  else none

/-- Quiesce holds a write, a Finish or a Reset without a charge (R322). -/
def quiesced (s : State) (c : Cmd) : Bool :=
  let a := zoneSendAction c
  s.reel.deck = 10 && !c.internal && (isWriteOp c.opcode || (c.opcode = 0x79 && (a = 2 || a = 4)))

/-- The controller's record refuses writes (R433). -/
def writesRefused (s : State) (c : Cmd) : Bool :=
  match c.vc with | none => false | some v => bit (vcOf s v.toNat).inForce.flags 3

/-- The source range format of a Copy (CDW12 bits 11:8). -/
def copyFormat (c : Cmd) : Nat := ((sqeDw c.sqe 12 >>> 8).setWidth 4).toNat

/-- A Copy asks for another source range format than 0h, breaks R307 or overlaps its destination (R278, R307, R308). -/
def copyBad (c : Cmd) : Option (BitVec 16) :=
  if c.opcode ≠ 0x19 then none
  else if copyFormat c ≠ 0 || 16 < c.srcs.length || 65536 < c.nlb || c.nlb = 0 then some (status 0 2)
  else if c.srcs.any (fun r => decide (r.1 < c.slba + c.nlb ∧ c.slba < r.1 + r.2)) then some (status 7 0x85 true)
  else none

/-- What fails an I/O command at parse, none where nothing does (R202, R238, R277, R278, R282, R283, R292, R293, R298, R307, R308, R322, R433, R600). -/
def parseStatus (s : State) (c : Cmd) : Option (BitVec 16) :=
  match modeStatus s c with
  | some st => some st
  | none =>
    if c.opcode = 0 && c.nsid = 0xFFFFFFFF then none
    else
      match cmdNs s c with
      | none => some (status 0 0x0B)
      | some x =>
        if !kindOk x c.opcode then some (status 0 1 true)
        else if x.span && fenced s then some (status 7 0x82)
        else if isWriteOp c.opcode && writesRefused s c then some (status 0 6)
        else if isWriteOp c.opcode && !placementOk x c then some (status 0 2)
        else if c.bad || (c.opcode = 0x79 && (zoneSendAction c = 0 || 5 < zoneSendAction c)) then some (status 0 2)
        else if (copyBad c).isSome then copyBad c
        else if (c.opcode = 1 || c.opcode = 2) && 262144 < c.nlb * lbaBytes x then some (status 0 2)
        else if (isReadOp c.opcode || isWriteOp c.opcode) && nsLbas x < c.slba + c.nlb then some (status 0 0x80)
        else if c.srcs.any (fun r => decide (nsLbas x < r.1 + r.2)) then some (status 0 0x80)
        else none

/-! ## Locks of a command (R302) -/

/-- A zone's state is one the action is listed for (R292); Open with Select All applies only to Closed zones. -/
def actionFrom (a : Nat) (all : Bool) (st : BitVec 4) : Bool :=
  if a = 3 then (if all then st = 4 else st = 1 || st = 2 || st = 3 || st = 4)
  else if a = 1 then st = 2 || st = 3 || st = 4
  else if a = 2 || a = 4 then st = 1 || st = 2 || st = 3 || st = 4 || st = 0xE
  else if a = 5 then st = 0xD || st = 0xF
  else false

/-- The zones a Zone Management Send acts on: one, or with Select All each whose state is listed. -/
def actionZones (s : State) (x : Ns) (c : Cmd) : List Nat :=
  if selectAll c then
    (List.range (zoneCount x)).filter (fun z => actionFrom (zoneSendAction c) true (zoneOf s c.nsid z).state)
  else [zoneOfLba x c.slba]

/-- The locks a command takes, as (exclusive, first LBA, count) (R302). -/
def cmdLocks (s : State) (x : Ns) (c : Cmd) : List (Bool × Nat × Nat) :=
  if isReadOp c.opcode then [(false, c.slba, c.nlb)]
  else if c.opcode = 0x19 then (c.srcs.map (fun r => (false, r.1, r.2))) ++ [(true, c.slba, c.nlb)]
  else if isWriteOp c.opcode then [(true, c.slba, c.nlb)]
  else if c.opcode = 0x79 then (actionZones s x c).map (fun z => (true, z * zszeOf x, zszeOf x))
  else []

/-- Request a list of locks for a command: the worst answer (3 aborted, 2 share full, 1 waiting, 0 all granted). -/
def lockAll (c : Cmd) : List (Bool × Nat × Nat) → Nat → State → Nat × State
  | [], worst, s => (worst, s)
  | (ex, a, n) :: rest, worst, s =>
    let e : LockEnt := { nsid := c.nsid.setWidth 15, excl := ex, start := BitVec.ofNat 64 a, count := BitVec.ofNat 64 n,
                         owner := c.cls.toNat, conn := c.conn, cid := c.cid, internal := c.internal }
    let (r, s) := lockAcquire e s
    lockAll c rest (max worst r.code) s

/-- Put a command in a phase. -/
def setPhase (c : Cmd) (p : Phase) (s : State) : State := updCmd c (fun x => { x with phase := p }) s

/-- A command's entry once it is deferred (R63). -/
def deferred (s : State) (c : Cmd) : Cmd :=
  { c with phase := .deferred, late := true, deferAt := if c.late then c.deferAt else s.reel.hanks }

/-- Defer a command without a charge (R63). -/
def defer (c : Cmd) (s : State) : State := updCmd c (deferred s) s

/-- A parse issue slot of the command's class runs on its spindle, which has not faulted (R63, R69, R323); in Hold, where no spindle runs, the device itself answers
(R202, R203). -/
def parseSlot (s : State) (c : Cmd) : Bool :=
  inHold s || parseRuns s (cmdSpindle s c) c.cls.toNat

/-- End a command with a failure status: its reservation and its tokens are returned (R293). -/
def failCmd (c : Cmd) (st : BitVec 16) (s : State) : State := completeCmd c st 0 0 s

/-! ## Data lost (R173, R324, R439, R489) -/

/-- The first LBA of a write: an admitted one to a zone counts from the zone's start. -/
def cmdStart (s : State) (c : Cmd) : Nat :=
  (match nsOf s c.nsid.toNat, c.zone with | some x, some z => if x.fdp then 0 else z * zszeOf x | _, _ => 0) + c.slba

/-- The bytes of a block of a command's namespace. -/
def cmdBytes (s : State) (c : Cmd) : Nat := match nsOf s c.nsid.toNat with | some x => lbaBytes x | none => 4096

/-- A write with staged blocks that a loss touches and whose completion is not yet posted (R324). -/
def losesBlocks (s : State) (n : BitVec 32) (lba cnt : Nat) (c : Cmd) : Bool :=
  isWriteOp c.opcode && c.nsid = n && (c.phase = Phase.waiting || c.phase = Phase.waitData) &&
    (stagedIdx (cmdBytes s c) c).any (fun i => decide (lba ≤ cmdStart s c + i ∧ cmdStart s c + i < lba + cnt))

/-- The parts of a run of bytes outside another run. -/
def cutRun (a b : Nat) (g : Nat × Nat) : List (Nat × Nat) :=
  (if g.1 < min a g.2 then [(g.1, min a g.2)] else []) ++ (if max b g.1 < g.2 then [(max b g.1, g.2)] else [])

/-- A write with the blocks of a loss missing from its staged data (R296, R324). -/
def lostPart (s : State) (c : Cmd) (lba cnt : Nat) : Cmd :=
  let n := cmdBytes s c
  let z := cmdStart s c
  let had := if c.left = 0 then [(0, c.nlb * n)] else c.came
  let came := (had.map (cutRun ((lba - z) * n) ((lba + cnt - z) * n))).flatten
  let kept := (came.map (fun g => g.2 - g.1)).sum
  { c with came := came, asked := [], nextAsk := c.nlb * n, left := c.nlb * n - kept, staged := kept }

/-- A write that has lost staged blocks ends with 06h, its zone or unit as R296 says; what it lost is not a completed write's (R324). -/
def loseWrite (lba cnt : Nat) (c : Cmd) (s : State) : State :=
  let c' := lostPart s c lba cnt
  completeCmd c' (status 0 6) 0 0 (partialWriteEnd c' (clearPoison c.nsid.toNat (cmdStart s c) c.nlb (updCmd c (fun _ => c') s)))

/-- The blocks of a loss fail every later read (R324, R352). -/
def poisonBlocks (n : BitVec 32) (lba cnt : Nat) (s : State) : State :=
  modMedia (fun u => { u with poisonLbas := u.poisonLbas ++ [(n.toNat, lba, cnt)] }) s

/-- What a loss leads to: each write with lost blocks that is not yet completed ends with 06h, those of a completed one become unreadable, both with event
0x0822 (R324, R489); a read ends with 06h, or with 80h where payload has left (R173, R439). -/
def loseData (s : State) (l : Loss) : State :=
  match l with
  | .staged n lba cnt =>
    let s := event 0x0822 [0xFFFFFFFF, n, lo32 lba, hi32 lba] s
    let l := s.tables.cmds.filter (losesBlocks s n lba.toNat cnt.toNat)
    l.foldl (fun s c => loseWrite lba.toNat cnt.toNat c s) (poisonBlocks n lba.toNat cnt.toNat s)
  | .read conn cid =>
    match liveCmd s conn cid with
    | some c => if isReadOp c.opcode then loseRead c s else s
    | none => s

/-- The losses of slot violations whose losses have not been named yet; none without a violation (R172, R173): a violation of any
operation, in a row or in a bundle of the idle cycle, is paid for by the row that names what it cost. DEDUCED, log entry 110. -/
def lossesOf (lost : List Loss) (s : State) : State :=
  if s.reel.lossDue && !lost.isEmpty then lost.foldl loseData (modReel (fun u => { u with lossDue := false }) s) else s

/-! ## Tokens (R62, R63) -/

/-- A controller's read bucket holds `n` units; an internal command has none to charge. -/
def readTokens (s : State) (c : Cmd) (n : Nat) : Bool :=
  match c.vc with | none => true | some v => decide (n ≤ (vcOf s v.toNat).rd)
/-- A controller's write bucket holds `n` units. -/
def writeTokens (s : State) (c : Cmd) (n : Nat) : Bool :=
  match c.vc with | none => true | some v => decide (n ≤ (vcOf s v.toNat).wr)
/-- Charge the read bucket. -/
def chargeRead (c : Cmd) (n : Nat) (s : State) : State :=
  match c.vc with | none => s | some v => modVc v.toNat (fun x => { x with rd := x.rd - n }) s
/-- The read tokens of a Copy whose destination fails its checks return, up to the bucket's capacity (R62, R293). -/
def refundRead (c : Cmd) (s : State) : State :=
  match c.vc with
  | some v => if c.opcode = 0x19 then modVc v.toNat (fun x => { x with rd := min x.inForce.rdCap.toNat (x.rd + c.nlb) }) s else s
  | none => s
/-- Charge the write bucket. -/
def chargeWrite (c : Cmd) (n : Nat) (s : State) : State :=
  match c.vc with | none => s | some v => modVc v.toNat (fun x => { x with wr := x.wr - n }) s

/-! ## Reads (R63, R83, R245, R256, R290, R333, R346, R352, R359) -/

/-- The zones a range touches. -/
def rangeZones (x : Ns) (lba n : Nat) : List Nat :=
  if x.fdp || zszeOf x = 0 then [] else (List.range ((lba + n - 1) / zszeOf x - lba / zszeOf x + 1)).map (lba / zszeOf x + ·)

/-- A range holds a poisoned LBA (R352). -/
def rangePoisoned (s : State) (x : Ns) (n : BitVec 32) (lba cnt : Nat) : Bool :=
  (rangeZones x lba cnt).any (fun z =>
    (zoneOf s n z).poison.any (fun p => decide (z * zszeOf x + p.1 < lba + cnt ∧ lba < z * zszeOf x + p.1 + p.2))) ||
  s.media.poisonLbas.any (fun p => p.1 = n.toNat && decide (p.2.1 < lba + cnt ∧ lba < p.2.1 + p.2.2))

/-- A range holds an LBA of an Offline zone (R293). -/
def rangeOffline (s : State) (x : Ns) (n : BitVec 32) (lba cnt : Nat) : Bool :=
  (rangeZones x lba cnt).any (fun z => (zoneOf s n z).state = 0xF)

/-- A member whose refresh is overdue doubles the read charge (R359). -/
def overdue (s : State) (p : Part) : Bool :=
  100000 ≤ (blockOf s p.die p.block).reads.toNat && (blockOf s p.die p.block).refreshQ

/-- The command meets the first two conditions of R65: parsed in the first parse issue slot of its class after its capsule arrived, and never
deferred; its capsule has waited neither for its connection's entry nor for a key (R234, R251). -/
def inTime (c : Cmd) : Bool := decide (c.slots ≤ 1) && !c.late && !c.unbound

/-- The class owns transmit slots of a connection's sub-port (R61). -/
def sendSlot (s : State) (c : Cmd) : Bool :=
  s.reel.tt.slots.any (fun e => e.typ = 5 && e.kind = 7 && e.owner = c.cls.toNat &&
    (replicas e).any (fun r => slotRes e r.1 r.2 = (connOf s c.conn.toNat).sub.toNat))

/-- The active deck gives a class DRAM port slots (R61). -/
def portSlots (s : State) (cls : Nat) : Bool := s.reel.tt.slots.any (fun e => e.typ = 7 && e.kind = 4 && e.owner = cls)

/-- Some block of a range is read from staging. -/
def anyStaged (s : State) (x : Ns) (n : BitVec 32) (lba cnt : Nat) : Bool := (readyLbas s x n lba cnt).any (isStaged s x n)

/-- The active deck gives the class what the reads of a command need: DRAM port slots for staged blocks, places for each, and transmit slots for what is sent (R61). -/
def readSlots (s : State) (c : Cmd) (l : List DieDesc) (staged : Bool) : Bool :=
  c.internal || (l.all (placeable s) && (c.opcode ≠ 2 || sendSlot s c) && (!staged || portSlots s c.cls.toNat))

/-- The frames that carry so many bytes of a read, and its completion. -/
def dataFrames (k : Conn) (bytes : Nat) : Nat :=
  let n := max 1 (if k.tcp then segmentBytes k else k.mtu)
  (bytes + n - 1) / n + 1

/-- The frames that a connection's queue holds, and those of its admitted reads whose blocks have not come (R256). -/
def framesDue (s : State) (conn : BitVec 16) : Nat :=
  let k := connOf s conn.toNat
  let more := fun (c : Cmd) =>
    if c.internal || c.closed || c.conn ≠ conn || c.admin || c.opcode ≠ 2 || c.phase ≠ Phase.posted then 0
    else dataFrames k ((c.nlb - c.got) * (match nsOf s c.nsid.toNat with | some x => lbaBytes x | none => 4096))
  (s.xpt.tx.filter (fun f => f.conn = some conn && !f.again)).length + (s.tables.cmds.map more).sum

/-- The transport can take a read's data now: the window covers it on TCP (R245), and it stays within 256 unacknowledged
frames, with those that the reads admitted before it still have to send (R256). -/
def transportTakes (s : State) (c : Cmd) (bytes : Nat) : Bool :=
  let k := connOf s c.conn.toNat
  c.internal || ((!k.tcp || decide (inFlight s c.conn.toNat + bytes ≤ min k.wnd k.cwnd)) &&
    decide (k.unack.length + framesDue s c.conn + dataFrames k bytes ≤ 256))

/-- The reads of a range of a command are posted, and its blocks that need no media read are given or read from staging (R63, R83, R290, R333): `off`
is the range's first block's number in the command's transfer. DESIGN CHOICE, log entry 150. -/
def postRange (unb : Bool) (c : Cmd) (x : Ns) (lba cnt off : Nat) (s : State) : State :=
  let parts := splitRead s x c.nsid lba cnt
  let ready := readyLbas s x c.nsid lba cnt
  let s := parts.foldl (fun s p => postJob unb (partDesc s c x p (off + (p.lba - lba))) s) s
  ready.foldl (fun s l => readStaged (partJob c { lba := l } (off + (l - lba)) none) x s) s

/-- The runs of a range's blocks that are not poisoned, as (first LBA, count). -/
def goodRuns (s : State) (x : Ns) (n : BitVec 32) (lba cnt : Nat) : List (Nat × Nat) :=
  ((((List.range cnt).map (lba + ·)).filter (fun l => !rangePoisoned s x n l 1)).foldl addRun []).reverse

/-- The reads of a read command are posted; its poisoned blocks count as come, and fail it at its end (R283, R352). -/
def postReads (c : Cmd) (x : Ns) (s : State) : State :=
  let runs := goodRuns s x c.nsid c.slba c.nlb
  let bad := c.nlb - (runs.map (·.2)).sum
  let s := if bad = 0 then s else failBlocks c bad s
  match sameCmd s c with
  | none => s
  | some d => runs.foldl (fun s r => postRange (!inTime d) d x r.1 r.2 (r.1 - c.slba) s) s

/-- Admit a read (R63): deferred without a charge, failed, or charged, split by die and posted. -/
def admitRead (c : Cmd) (s : State) : State :=
  match nsOf s c.nsid.toNat with
  | none => failCmd c (status 0 0x0B) s
  | some x =>
    let parts := splitRead s x c.nsid c.slba c.nlb
    let reads := (parts.map (partReads s c x)).flatten
    let units := c.nlb * (if parts.any (overdue s) then 2 else 1)
    if rangeOffline s x c.nsid c.slba c.nlb then failCmd c (status 1 0xBB) s
    else if !readTokens s c units || !readSlots s c reads (anyStaged s x c.nsid c.slba c.nlb) ||
        (c.opcode = 2 && !transportTakes s c (c.nlb * lbaBytes x)) then defer c s
    else
      let c' := { c with phase := Phase.posted }
      postReads c' x (updCmd c (fun _ => c') (logRanges c (chargeRead c units s)))

/-! ## Writes (R63, R289, R293–R298, R335, R338, R340, R345, R349, R350, R355) -/

/-- The row end that covers an offset's last block. -/
def coverEnd (g : Nat) (pslc : Bool) (e : Nat) : Nat := if e = 0 then 0 else rowEnd g pslc (e - 1)

/-- The staging a write up to an offset of a zone reserves: for every row it touches, whole, that is not yet reserved (R338). -/
def rowNeed (g : Nat) (pslc : Bool) (e : Zone) (last : Nat) : Nat := (coverEnd g pslc last - max e.resv e.stagedTo) * 4096

/-- The pool of a zone's group can take what a pool write adds to it (R345). -/
def poolTakes (s : State) (g : Nat) (cls : Nat) (e : Zone) (last : Nat) : Bool :=
  poolRoom s e.group cls (min 2046 (((coverEnd g true last - e.stagedTo) + plyLbas g * 6 - 1) / (plyLbas g * 6) * 6))

/-- Park the partial row of a class that was written least recently (R340). -/
def parkOldest (cls : BitVec 8) (n : BitVec 32) (z : Nat) (s : State) : Option State :=
  let cand := s.media.zones.filter (fun e => decide (e.2.stagedTo < e.2.acc) && !e.2.parked && e.2.resv ≠ 0 &&
    decide (e.1 ≠ zoneKey n z) && decide (((nsOf s (e.1 / 2 ^ 20)).map (·.cls)) = some cls))
  match cand.foldl (fun (m : Option (Nat × Zone)) e => match m with
      | none => some e
      | some y => if e.2.lastSeq < y.2.lastSeq then some e else some y) none with
  | none => none
  | some e => parkRow (BitVec.ofNat 32 (e.1 / 2 ^ 20)) (e.1 % 2 ^ 20) s

/-- A class can write in the active deck: it owns program slices, cipher slots and transfers on a channel bus (R61). -/
def canProgram (s : State) (c : Cmd) : Bool :=
  c.internal || (classHasSlot s c.cls.toNat 3 && classHasSlot s c.cls.toNat 6 &&
    s.reel.tt.slots.any (fun e => e.typ = 5 && e.kind = 2 && e.owner = c.cls.toNat))

/-- The checks of R293 on a zone, in order; `at_` is the offset the write names, `len` its length. -/
def zoneCheck (s : State) (x : Ns) (n : BitVec 32) (z at_ len : Nat) : Option (BitVec 16) :=
  let e := zoneOf s n z
  if e.state = 0xF then some (status 1 0xBB)
  else if e.state = 0xD then some (status 1 0xBA)
  else if e.state = 0xE then some (status 1 0xB9)
  else if at_ ≠ e.acc then some (status 1 0xBC)
  else if zcapOf x < e.acc + len then some (status 1 0xB8)
  else if e.state = 1 && x.actLim ≤ activeCount s n then some (status 1 0xBD)
  else if (e.state = 1 || e.state = 4) && x.openLim ≤ openCount s n && (oldestImplicit s n z).isNone then some (status 1 0xBE)
  else none

/-- Open a zone a write needs (R292, R294, R335): the oldest Implicitly Opened zone is closed at the limit, and an Empty
zone is bound. None where no free erased skein is left now. -/
def openForWrite (x : Ns) (n : BitVec 32) (z : Nat) (s : State) : Option State :=
  let e := zoneOf s n z
  if e.state = 2 || e.state = 3 then some s
  else
    let s := if x.openLim ≤ openCount s n then
        match oldestImplicit s n z with | some k => closeZone n k s | none => s
      else s
    let s := if e.skeins = [] then bindZone n z s else some s
    s.map (modZone n z (fun y => { y with state := 2 }))

/-- A zone must bind and cannot: the spare policy decides when the commitment can no longer be met, else the write is
deferred (R335, R364, R365). No die is involved: event 0x0942 names the first die of group 0. DESIGN CHOICE, log entry 186. -/
def bindFailed (x : Ns) (c : Cmd) (z : Nat) (s : State) : State :=
  if commitSpent s x x.spz then
    let d := (groupDies s 0).headD 0
    let s := refundRead c s
    if readOnlyPolicy s then failCmd c (status 0 0x20) (exhaustion d (some (c.nsid, z)) s)
    else
      let (w, s) := zoneIndexWord s
      let s := event 0x0942 [w32 (d / 16), w32 (d % 16), 0, 0, w] s
      failCmd c (status 1 0xBB) (forceZone c.nsid z 0xF s)
  else defer c s

/-- A parked row's plies are read back into a new reservation (R340); the pool serves them until the row reaches the FUA point (R346). -/
def unpark (x : Ns) (n : BitVec 32) (z : Nat) (s : State) : State :=
  let e := zoneOf s n z
  if !e.parked then s
  else
    let bytes := (e.acc - e.stagedTo) * lbaBytes x
    modZone n z (fun y => { y with parked := false }) (countStaged bytes s)

/-- The data of a write that the device holds: what came in the capsule, zeros, the blocks a Copy has read, or an internal command's buffer (R307,
R311). -/
def writeData (s : State) (x : Ns) (c : Cmd) : List (BitVec 8) :=
  if c.opcode = 8 then []
  else if c.opcode = 0x19 then ((List.range c.nlb).map (fun i => mget [] c.blocks i)).flatten
  else if c.internal then portBytes s (taskBuf s c.cid.toNat) (c.nlb * lbaBytes x)
  else c.rx

/-- Ask for a write's data: Ready-to-Transfer or RDMA Read requests after the reservation (R289); data that the device holds is staged at once. -/
def beginData (x : Ns) (c : Cmd) (s : State) : State :=
  if c.inCap || c.opcode = 8 || c.opcode = 0x19 || c.internal then
    let c' := { c with rx := writeData s x c, blocks := [] }
    writeStaged c' (updCmd c (fun _ => c') s)
  else askData c.conn c.cid 17 (updCmd c (fun _ => { c with rx := [], asked := [], nextAsk := 0 }) s)

/-- Admit a write to a zone that is not being moved (R63, R289, R293, R295, R338, R340, R355, R364); a pool write waits for room in its group's pool (R345). -/
def admitZoneWrite (x : Ns) (c : Cmd) (s : State) : State :=
  let z := zoneOfLba x c.slba
  let e := zoneOf s c.nsid z
  let g := nsGroup x
  let at_ := if c.opcode = 0x7D then e.acc else c.slba % zszeOf x
  let pool := toPool s c.cls.toNat
  let need := rowNeed g pool e (e.acc + c.nlb)
  if e.moving || (e.degraded && s.media.rebuild && s.reel.deck = 5) || !writeTokens s c c.nlb || !canProgram s c then defer c s
  else
    let s1 := if stageRoom s c.cls.toNat < need && !c.internal then (parkOldest x.cls c.nsid z s).getD s else s
    if stageRoom s1 c.cls.toNat < need && !c.internal then defer c s1
    else
      match zoneCheck s1 x c.nsid z at_ c.nlb with
      | some st => failCmd c st (refundRead c s1)
      | none =>
        match openForWrite x c.nsid z s1 with
        | none => bindFailed x c z s1
        | some s2 =>
          let s2 := unpark x c.nsid z s2
          let e := zoneOf s2 c.nsid z
          let first := e.acc
          let last := first + c.nlb
          if pool && !poolTakes s2 g c.cls.toNat e last then defer c s else
          let s2 := reserve c.cls.toNat need (chargeWrite c c.nlb s2)
          let s2 := modMedia (fun u => { u with writeSeq := u.writeSeq + 1 }) s2
          let s2 := modZone c.nsid z (fun y => { y with
            acc := last, resv := max y.resv (coverEnd g pool last), lastWrite := hankStamp s2, lastSeq := s2.media.writeSeq
            state := if last = zcapOf x then 0xE else y.state }) s2
          let lba := z * zszeOf x + first
          let c' := { c with phase := Phase.waitData, zone := some z, slba := first, charged := c.nlb, resv := need
                             left := c.nlb * lbaBytes x
                             dw0 := if c.opcode = 0x7D then w32 lba else 0
                             dw1 := if c.opcode = 0x7D then w32 (lba / 2 ^ 32) else 0 }
          beginData x c' (updCmd c (fun _ => c') s2)

/-- What a host write is charged during foreground reclaim (R350): ⌈1 / (1 − v)⌉ times its length, at most 8. -/
def reclaimFactor (s : State) (x : Ns) (n : BitVec 32) (h : Nat) : Nat :=
  if 2 ≤ freeCommitted s x then 1
  else match victimOf s n h with
    | none => 1
    | some (_, r) =>
      let size := ruLbas s r
      let free := size - r.valid
      if free = 0 then 8 else min 8 ((size + free - 1) / free)

/-- Append LBAs to a handle's open host unit, binding a new one when it is full (R347, R349). Fuel bounds the units. -/
def fillRu (n : BitVec 32) (h : Nat) : Nat → Nat → Nat → State → Option State
  | 0, _, _, _ => none
  | _ + 1, _, 0, s => some s
  | f + 1, lba, cnt + 1, s =>
    match openRu s n h false with
    | none =>
      match bindRu n h false s with
      | none => none
      | some s => fillRu n h f lba (cnt + 1) s
    | some k =>
      let r := ruOf s k
      let room := ruLbas s r - r.wp
      let m := min (cnt + 1) room
      let l := (List.range m).map (fun i => (lba + i, k * 2 ^ 32 + r.wp + i))
      let s := modRu k (fun y => { y with wp := y.wp + m, full := decide (y.wp + m = ruLbas s r) }) s
      let s := modMedia (fun u => { u with ruLbas := mset [] k (mget [] u.ruLbas k ++ l) u.ruLbas }) s
      fillRu n h f (lba + m) (cnt + 1 - m) s

/-- The pool of the group of a handle's open unit can take a write; a unit not yet bound is tried when it is (R345). -/
def fdpPoolRoom (s : State) (c : Cmd) (h : Nat) : Bool :=
  match openRu s c.nsid h false with
  | none => true
  | some k =>
    let r := ruOf s k
    let p := plyLbas (groupDies s r.group).length * 6
    poolRoom s r.group c.cls.toNat (min 2046 (((r.wp + c.nlb - r.stagedTo) / p + 1) * 6))

/-- The open unit of a handle is to be moved by the Rebuild in progress: writes to it are deferred (R355). -/
def ruMoving (s : State) (n : BitVec 32) (h : Nat) : Bool :=
  s.media.rebuild && s.reel.deck = 5 && (openRu s n h false).any (fun k => (grpOf s (ruOf s k).group).degraded)

/-- The (LBA, place) pairs of a namespace that are staged and not yet in a row. -/
def stagedPairs (s : State) (n : BitVec 32) : List (Nat × Nat) :=
  ((s.media.ruLbas.filter (fun e => (ruOf s e.1).nsid = n)).map (·.2)).flatten

/-- The places that the blocks of a write have been given, from the state before to the state after. -/
def newLocs (s t : State) (c : Cmd) : List Nat :=
  let l := (stagedPairs t c.nsid).filter (fun p => !(stagedPairs s c.nsid).contains p)
  (List.range c.nlb).map (fun i => ((l.find? (fun p => p.1 = c.slba + i)).map (·.2)).getD 0)

/-- Admit a write to an FDP namespace (R298, R345, R349, R350); Write Zeroes stages zeros as another write its data (R288). -/
def admitFdpWrite (x : Ns) (c : Cmd) (s : State) : State :=
  let h := if dtype c = 2 then dspec c else 0
  let units := c.nlb * reclaimFactor s x c.nsid h
  let need := c.nlb * lbaBytes x
  if ruMoving s c.nsid h || !writeTokens s c units || !canProgram s c || (stageRoom s c.cls.toNat < need && !c.internal) then defer c s
  else if toPool s c.cls.toNat && !fdpPoolRoom s c h then defer c s
  else
    match fillRu c.nsid h 4 c.slba c.nlb s with
    | none => defer c s
    | some t =>
      let locs := newLocs s t c
      let s := reserve c.cls.toNat need (chargeWrite c units t)
      let c' := { c with phase := Phase.waitData, charged := units, resv := need, left := need, locs := locs }
      beginData x c' (updCmd c (fun _ => c') s)

/-- Admit a Write, Write Zeroes or Zone Append (R63, R293, R295). -/
def admitWrite (c : Cmd) (s : State) : State :=
  match nsOf s c.nsid.toNat with
  | none => failCmd c (status 0 0x0B) s
  | some x =>
    if c.opcode = 0x7D && (c.slba % zszeOf x ≠ 0 || 131072 < c.nlb * lbaBytes x) then failCmd c (status 0 2) s
    else if x.fdp then admitFdpWrite x c s else admitZoneWrite x c s

/-- The destination of a Copy is written once its sources have been read (R307): checked on a zoned namespace as a write is (R293). -/
def copyWrite (x : Ns) (c : Cmd) (s : State) : State := if x.fdp then admitFdpWrite x c s else admitZoneWrite x c s

/-- A Copy's sources have all been read, and its destination waits. -/
def copyRead (c : Cmd) : Bool := c.opcode = 0x19 && c.got = c.nlb && c.phase = Phase.posted

/-- A Copy whose sources have all been read goes on to its destination. -/
def copyOn (c : Cmd) (s : State) : State :=
  match nsOf s c.nsid.toNat, findJob s (partJob c {} 0 none) with
  | some x, some d => if copyRead d then copyWrite x d s else s
  | _, _ => s

/-- The source ranges of a Copy with the number that each one's first block has in the transfer. -/
def copyRanges (c : Cmd) : List ((Nat × Nat) × Nat) :=
  (c.srcs.foldl (fun (acc : Nat × List ((Nat × Nat) × Nat)) r => (acc.1 + r.2, acc.2 ++ [(r, acc.1)])) (0, [])).2

/-- Admit a Copy (R307, R308): the read bucket is charged, the sources are read and staged, and only then is the destination admitted, which charges
the write bucket; a source that cannot be read ends it with 2h / 81h and the destination unwritten. -/
def admitCopy (c : Cmd) (s : State) : State :=
  match nsOf s c.nsid.toNat with
  | none => failCmd c (status 0 0x0B) s
  | some x =>
    if c.got = c.nlb then copyWrite x c s
    else
      let parts := (c.srcs.map (fun r => splitRead s x c.nsid r.1 r.2)).flatten
      let reads := (parts.map (partReads s c x)).flatten
      if !readTokens s c c.nlb || !readSlots s c reads (c.srcs.any (fun r => anyStaged s x c.nsid r.1 r.2)) then defer c s
      else if c.srcs.any (fun r => rangeOffline s x c.nsid r.1 r.2) then failCmd c (status 1 0xBB) s
      else if c.srcs.any (fun r => rangePoisoned s x c.nsid r.1 r.2) then failCmd c (status 2 0x81) s
      else
        let s := setPhase c Phase.posted (chargeRead c c.nlb s)
        copyOn c ((copyRanges c).foldl (fun s r => postRange (!inTime c) c x r.1.1 r.1.2 r.2 s) s)

/-! ## Zone management (R292, R297, R336, R341) -/

/-- Finish one zone (R341): its current row is padded with zeros and programmed, the accepted pointer is the finish
point, and the zone is Full. -/
def finishZone (x : Ns) (n : BitVec 32) (z : Nat) (s : State) : State :=
  let e := zoneOf s n z
  if e.state = 0xE then s
  else if e.acc = 0 then
    let s := unbindSkeins n.toNat e.group e.skeins x.cls.toNat s
    modZone n z (fun y => { y with state := 0xE, skeins := [], finValid := true, fin := 0 }) s
  else
    let s := unpark x n z s
    let e := zoneOf s n z
    let upto := coverEnd (nsGroup x) (toPool s x.cls.toNat) e.acc
    let s := countStaged ((upto - e.acc) * lbaBytes x) s
    let s := modZone n z (fun y => { y with state := 0xE, finValid := true, fin := y.acc, acc := upto }) s
    programRows n z 8 s

/-- Reset one zone (R297, R336): the write pointer returns to the start, the skeins are unbound for erase, and a
relocation of a member is abandoned. -/
def resetZone (x : Ns) (n : BitVec 32) (z : Nat) (s : State) : State :=
  let e := zoneOf s n z
  let s := unbindSkeins n.toNat e.group e.skeins x.cls.toNat s
  let mine := s.media.rows.filter (fun r => r.nsid = n && r.zone = z && !r.ru)
  let s := unreserve x.cls.toNat ((e.resv - e.stagedTo) * 4096 + (mine.map (·.resv)).sum) s
  let s := dropBuf (zoneKey n z) 0 (2 ^ 32) (clearPoison n.toNat (z * zszeOf x) (zszeOf x) s)
  let lost := (if e.parked then 0 else (e.acc - e.stagedTo) * lbaBytes x) + (mine.map (·.bytes)).sum
  let s := modMedia (fun u => { u with
        staged := u.staged - lost, rows := u.rows.filter (fun r => !(r.nsid = n && r.zone = z && !r.ru)) }) s
  let s := dropEmptyPool (cutPool (zoneKey n z) 0 (2 ^ 32) s)
  releaseWaiters (forgetDone (zoneKey n z) (modZone n z (fun _ => {}) s))

/-- Make a zone Offline (R292, R364): its surviving members pass to their dies' spare pools. -/
def offlineZone (x : Ns) (n : BitVec 32) (z : Nat) (s : State) : State :=
  let e := zoneOf s n z
  if e.state = 0xF then s
  else
    let s := unbindSkeins n.toNat e.group e.skeins x.cls.toNat s
    let s := modGrp e.group (fun y => { y with dissolved := y.dissolved ++ e.skeins }) s
    zoneChanged n z (modZone n z (fun y => { y with state := 0xF, skeins := [] }) s)

/-- Open one zone explicitly (R292, R335); none where it cannot bind now. -/
def openZone (x : Ns) (n : BitVec 32) (z : Nat) (s : State) : Option State :=
  (openForWrite x n z s).map (modZone n z (fun y => { y with state := 3 }))

/-- One action on one zone. -/
def zoneAct (a : Nat) (x : Ns) (n : BitVec 32) (s : State) (z : Nat) : State :=
  let s := dirtyMark n.toNat z s
  if a = 1 then closeZone n z s
  else if a = 2 then finishZone x n z s
  else if a = 4 then resetZone x n z s
  else if a = 5 then offlineZone x n z s
  else (openZone x n z s).getD s

/-- The active or open zones are at their limit for opening a zone (R293, orders 6 and 7). -/
def openLimit (s : State) (x : Ns) (n : BitVec 32) (z : Nat) : Option (BitVec 16) :=
  let e := zoneOf s n z
  if e.state = 1 && x.actLim ≤ activeCount s n then some (status 1 0xBD)
  else if (e.state = 1 || e.state = 4) && x.openLim ≤ openCount s n && (oldestImplicit s n z).isNone then some (status 1 0xBE)
  else none

/-- An Open with Select All has no room for the zones it opens (R293, R294): the Implicitly Opened ones can make room, and the others cannot. The
spec says only that each Closed zone is opened. DESIGN CHOICE, log entry 169. -/
def openAllBar (s : State) (x : Ns) (n : BitVec 32) (zs : List Nat) : Bool :=
  decide (x.openLim < ((nsZones s n).filter (fun e => e.2.state = 3)).length + zs.length)

/-- Run a Zone Management Send whose locks are granted (R292). A Finish waits for its row's FUA point (R341). -/
def runZoneSend (c : Cmd) (s : State) : State :=
  match nsOf s c.nsid.toNat with
  | none => failCmd c (status 0 0x0B) s
  | some x =>
    let a := zoneSendAction c
    let zs := actionZones s x c
    let z := zs.headD 0
    if !selectAll c && (c.slba % zszeOf x ≠ 0 || zoneCount x ≤ z) then failCmd c (status 0 2) s
    else if !selectAll c && !actionFrom a false (zoneOf s c.nsid z).state then failCmd c (status 1 0xBF) s
    else if a = 3 && selectAll c && openAllBar s x c.nsid zs then failCmd c (status 1 0xBE) s
    else if a = 3 && !selectAll c && (openLimit s x c.nsid z).isSome then
      failCmd c ((openLimit s x c.nsid z).getD 0) s
    else if a = 3 && !selectAll c && (zoneOf s c.nsid z).skeins = [] && (openForWrite x c.nsid z s).isNone then
      bindFailed x c z s
    else
      let s := zs.foldl (zoneAct a x c.nsid) s
      if a = 2 then
        let w := zs.map (fun z => (zoneKey c.nsid z, (zoneOf s c.nsid z).acc))
        releaseWaiters (updCmd c (fun y => { y with phase := Phase.waiting, wait := w, zone := some z, nlb := 0 }) s)
      else completeCmd c 0 0 0 s

/-! ## Running a command (R63, R302) -/

/-- Run a command whose locks are all granted. -/
def runCmd (c : Cmd) (s : State) : State :=
  if c.opcode = 0x79 then runZoneSend c s
  else if c.opcode = 0x19 then admitCopy c s
  else if isReadOp c.opcode then admitRead c s
  else admitWrite c s

/-- Take a command's locks and run it when they are granted (R302, R304, R310). -/
def lockAndRun (c : Cmd) (s : State) : State :=
  match nsOf s c.nsid.toNat with
  | none => failCmd c (status 0 0x0B) s
  | some x =>
    let (worst, t) := lockAll c (cmdLocks s x c) 0 s
    match sameCmd t c with
    | none => t
    | some d =>
      if worst = 3 then failCmd d (status 0 7) t
      else if worst = 2 then
        let t := freeLocks (locksOf t d.conn d.cid d.internal) t
        updCmd d (fun y => { deferred t y with locks := [] }) t
      else if worst = 1 then updCmd d (fun x => { x with phase := .waitLock, late := true, deferAt := t.reel.hanks }) t
      else runCmd d t

/-- A command waits for its predecessors, and no longer meets the conditions of R65 (R300, R301). -/
def awaitTurn (c : Cmd) (s : State) : State := updCmd c (fun x => { x with phase := .waitOrder, late := true, deferAt := s.reel.hanks }) s

/-- Every earlier command of the queue has completed (R300). -/
def predecessorsDone (s : State) (c : Cmd) : Bool :=
  !(s.tables.cmds.any (fun x => !x.internal && !x.closed && x.conn = c.conn && decide (x.order < c.order)))

/-- A command of the predecessor set failed (R300). -/
def predecessorFailed (s : State) (c : Cmd) : Bool :=
  s.tables.fails.any (fun f => f.1 = c.conn.toNat && decide (c.predFrom ≤ f.2 ∧ f.2 < c.order))

/-- Run a command past the ordering check: an abort mark, Quiesce, then its locks (R300, R310, R322). -/
def afterOrder (c : Cmd) (s : State) : State :=
  if !c.internal && s.tables.marks.contains (c.conn, c.cid) then failCmd c (status 0 7) s
  else if quiesced s c then setPhase c Phase.held s
  else if c.locks ≠ [] then runCmd c s
  else lockAndRun c s

/-- A command makes a null lock request, which takes no entry, and goes on with it granted; with its abort mark taken it ends with 07h (R302, R306,
R310). -/
def withNull (c : Cmd) (f : Cmd → State → State) (s : State) : State :=
  let (a, t) := lockAcquire { nsid := c.nsid.setWidth 15, owner := c.cls.toNat, conn := c.conn, cid := c.cid, internal := c.internal } s
  match sameCmd t c with
  | none => t
  | some d => if a.code = 3 then failCmd d (status 0 7) t else f d t

/-- What a Flush waits for (R291): what its controller's completed writes reach, in the namespaces that it covers, as far as it has not been
programmed; an internal Flush with NSID FFFFFFFFh covers every namespace. -/
def flushTargets (s : State) (c : Cmd) : List (Nat × Nat) :=
  let mine := fun (n : Nat) => if c.nsid ≠ 0xFFFFFFFF then decide (n = c.nsid.toNat)
    else match c.vc with | some v => (vcNamespaces s v.toNat).any (fun e => decide (e.1 = n)) | none => true
  let ns := fun (k : Nat) => if k < 2 ^ 59 then k / 2 ^ 20 else (ruOf s (k - 2 ^ 60)).nsid.toNat
  (mget [] s.tables.done (doneKey c)).filter (fun e => mine (ns e.1) && !reached s e)

/-- A Flush waits for what it covers (R66, R291). -/
def runFlush (c : Cmd) (s : State) : State :=
  releaseWaiters (updCmd c (fun y => { y with phase := Phase.waiting, wait := flushTargets s c }) s)

/-- Run a command that no predecessor holds: its checks, then its locks (R300, R302). -/
def checkedRun (c : Cmd) (s : State) : State :=
  match parseStatus s c with
  | some st => failCmd c st s
  | none => if c.opcode = 0 then withNull c runFlush s else afterOrder c s

/-- A command that is ordered waits for its predecessors, and fails where one of them has failed; else it runs (R300). -/
def orderedRun (c : Cmd) (s : State) : State :=
  if c.ordered && !predecessorsDone s c then awaitTurn c s
  else if c.ordered && predecessorFailed s c then failCmd c (status 7 0x84) s
  else checkedRun c s

/-- The parse of an I/O command that moves or manages logical blocks, or of a Flush (R299–R302). -/
def parseIo (c : Cmd) (s : State) : State := orderedRun c (parseRx c.conn c.cid s)

/-- No command of the class that came to the same spindle before waits to be parsed (R299). DEDUCED, log entry 174. -/
def firstOfClass (s : State) (c : Cmd) : Bool :=
  !s.tables.cmds.any (fun x => x.phase = Phase.received && !x.closed && x.cls = c.cls && decide (x.arrival < c.arrival) &&
    cmdSpindle s x = cmdSpindle s c)

/-- A command may be parsed now: it has been received, is the first of its class, and a parse issue slot of the class runs, while capsules are
passed on (R69, R299, R320). -/
def parseTurn (s : State) (c : Cmd) : Bool := c.phase = Phase.received && s.xpt.takes && parseSlot s c && firstOfClass s c

/-- An I/O command with one of some opcodes that may be parsed now. -/
def received (s : State) (conn cid : BitVec 16) (ops : List (BitVec 8)) : Option Cmd :=
  match liveCmd s conn cid with
  | some c => if parseTurn s c && !c.admin && ops.contains c.opcode then some c else none
  | none => none

/-- A command's keyed SGL ranges, up to 16 of them (R238): `sglBad` is a descriptor that it cannot use. -/
def withRanges (c : Cmd) (ranges : List (BitVec 64 × BitVec 32 × BitVec 32)) (inCap sglBad : Bool) : Cmd :=
  { c with ranges := ranges, inCap := inCap, bad := sglBad || 16 < ranges.length }

/-- READ (R63, R238, R302, R322): `ranges` are the keyed SGL ranges of the command, `sglBad` a descriptor it cannot use. -/
def execRead (conn cid : BitVec 16) (ranges : List (BitVec 64 × BitVec 32 × BitVec 32)) (sglBad : Bool) (s : State) : Out :=
  match received s conn cid [2] with
  | none => .next s
  | some c => .next (parseIo (withRanges c ranges false sglBad) (updCmd c (fun y => withRanges y ranges false sglBad) s))

/-- VERIFY (R278, R307): reads and decodes its range without a data transfer. -/
def execVerify (conn cid : BitVec 16) (s : State) : Out :=
  match received s conn cid [0x0C] with
  | none => .next s
  | some c => .next (parseIo c s)

/-- WRITE (R238, R288, R289, R293, R302, R441): `inCap` when its data came in the capsule, else `ranges` are its keyed SGL ranges. -/
def execWrite (conn cid : BitVec 16) (ranges : List (BitVec 64 × BitVec 32 × BitVec 32)) (inCap sglBad : Bool) (s : State) : Out :=
  match received s conn cid [1] with
  | none => .next s
  | some c => .next (parseIo (withRanges c ranges inCap sglBad) (updCmd c (fun y => withRanges y ranges inCap sglBad) s))

/-- WRITE_ZEROES (R278, R307): writes zeros to its range; DEAC is ignored. -/
def execWriteZeroes (conn cid : BitVec 16) (s : State) : Out :=
  match received s conn cid [8] with
  | none => .next s
  | some c => .next (parseIo c s)

/-- ZONE_APPEND (R295): placed at the accepted write pointer, with its first LBA in DW0 and DW1. -/
def execZoneAppend (conn cid : BitVec 16) (ranges : List (BitVec 64 × BitVec 32 × BitVec 32)) (inCap sglBad : Bool) (s : State) : Out :=
  match received s conn cid [0x7D] with
  | none => .next s
  | some c => .next (parseIo (withRanges c ranges inCap sglBad) (updCmd c (fun y => withRanges y ranges inCap sglBad) s))

/-- COPY (R307, R308): up to 16 source ranges of up to 65,536 blocks each and in all; an overlap with the destination is
85h, checked before any lock. -/
def execCopy (conn cid : BitVec 16) (srcs : List (BitVec 64 × BitVec 17)) (s : State) : Out :=
  match received s conn cid [0x19] with
  | none => .next s
  | some c =>
    let l := srcs.map (fun r => (r.1.toNat, r.2.toNat))
    let c' := { c with srcs := l, nlb := (l.map (·.2)).sum }
    .next (parseIo c' (updCmd c (fun _ => c') s))

/-- FLUSH (R66, R291): completes when what it covers has reached the FUA point; no tokens, no lock. -/
def execFlush (conn cid : BitVec 16) (s : State) : Out :=
  match received s conn cid [0] with
  | none => .next s
  | some c => .next (parseIo c s)

/-- A Zone Management Send of one action: its parse, with status 02h for an action that is not supported (R292). -/
def zoneSend (a : Nat) (conn cid : BitVec 16) (s : State) : State :=
  match received s conn cid [0x79] with
  | none => s
  | some c =>
    let k := zoneSendAction c
    if k = a || k = 0 || 5 < k then parseIo c s else s

/-- ZONE_OPEN (R292). -/
def execZoneOpen (conn cid : BitVec 16) (s : State) : Out := .next (zoneSend 3 conn cid s)
/-- ZONE_CLOSE (R292, R340). -/
def execZoneClose (conn cid : BitVec 16) (s : State) : Out := .next (zoneSend 1 conn cid s)
/-- ZONE_FINISH (R341). -/
def execZoneFinish (conn cid : BitVec 16) (s : State) : Out := .next (zoneSend 2 conn cid s)
/-- ZONE_RESET (R297, R336). -/
def execZoneReset (conn cid : BitVec 16) (s : State) : Out := .next (zoneSend 4 conn cid s)
/-- ZONE_OFFLINE (R292, R364). -/
def execZoneOffline (conn cid : BitVec 16) (s : State) : Out := .next (zoneSend 5 conn cid s)

/-! ## Reports (R278, R281, R292) -/

/-- Write the fields of an answer into memory from an address on. -/
def putFields (a : Nat) (l : List (Nat × Nat × Nat)) (s : State) : State :=
  l.foldl (fun s f => if inDram s (a + f.1) f.2.1 then busWrite none (a + f.1) (leBytes f.2.1 f.2.2) s else s) s

/-- Give the data of an answer, as (byte offset, bytes, value), to the host or into the buffer of a task set, and complete the command. -/
def answerData (c : Cmd) (data : List (Nat × Nat × Nat)) (s : State) : State :=
  completeCmd c 0 0 0
    (if c.internal then putFields (taskBuf s c.cid.toNat) data s
     else queueFrame { path := connPath s c.conn, kind := 8, conn := some c.conn, cid := some c.cid, data := data } s)

/-- A zone's state is one that a report's option asks for (CDW13 bits 15:8). PRESUMED, log entry 98. -/
def reportedState (o : Nat) (st : BitVec 4) : Bool :=
  o = 0 || (o = 1 && st = 1) || (o = 2 && st = 2) || (o = 3 && st = 3) || (o = 4 && st = 4) || (o = 5 && st = 0xE) || (o = 6 && st = 0xD) ||
    (o = 7 && st = 0xF)

/-- The descriptor of zone z at byte `a` of a report: type, state, capacity, start and write pointer. PRESUMED, log entry 98. -/
def zoneDesc (s : State) (x : Ns) (n : BitVec 32) (a z : Nat) : List (Nat × Nat × Nat) :=
  let e := zoneOf s n z
  [(a, 1, 2), (a + 1, 1, 16 * e.state.toNat), (a + 8, 8, zcapOf x), (a + 16, 8, z * zszeOf x), (a + 24, 8, z * zszeOf x + min e.acc (zcapOf x))]

/-- Report Zones (R278, R292): the zones from the one of SLBA on that the option asks for, as far as the length of CDW12 takes them; the extended
report fails with 02h. -/
def zoneReport (c : Cmd) (s : State) : State :=
  let o := ((sqeDw c.sqe 13 >>> 8).setWidth 8 : BitVec 8).toNat
  match nsOf s c.nsid.toNat with
  | none => failCmd c (status 0 0x0B) s
  | some x =>
    if zoneSendAction c ≠ 0 || 7 < o then failCmd c (status 0 2) s
    else if nsLbas x ≤ c.slba then failCmd c (status 0 0x80) s
    else
      let l := (List.range (zoneCount x)).filter (fun z => decide (zoneOfLba x c.slba ≤ z) && reportedState o (zoneOf s c.nsid z).state)
      let room := (4 * ((sqeDw c.sqe 12).toNat + 1) - 64) / 64
      let n := if bit (sqeDw c.sqe 13) 16 then min room l.length else l.length
      answerData c ((0, 8, n) :: ((l.take room).zipIdx.map (fun e => zoneDesc s x c.nsid (64 + 64 * e.2) e.1)).flatten) s

/-- LBAs that a handle's open unit still takes. -/
def handleRoom (s : State) (n : BitVec 32) (h : Nat) : Nat :=
  match openRu s n h false with | none => 0 | some k => ruLbas s (ruOf s k) - (ruOf s k).wp

/-- Reclaim Unit Handle Status (R278): each handle with what its open unit still takes. PRESUMED, log entry 98. -/
def handleStatus (c : Cmd) (s : State) : State :=
  match nsOf s c.nsid.toNat with
  | none => failCmd c (status 0 0x0B) s
  | some x =>
    if (sqeDw c.sqe 10).setWidth 8 ≠ 1#8 then failCmd c (status 0 2) s
    else
      answerData c ((14, 2, x.handles) :: ((List.range x.handles).map (fun h =>
        [(16 + 32 * h, 2, h), (18 + 32 * h, 2, h), (24 + 32 * h, 8, handleRoom s c.nsid h)])).flatten) s

/-- ZONE_MANAGEMENT_RECEIVE (R278, R292): reports zone descriptors. -/
def execZoneManagementReceive (conn cid : BitVec 16) (s : State) : Out :=
  match received s conn cid [0x7A] with
  | none => .next s
  | some c =>
    let s := parseRx conn cid s
    match parseStatus s c with
    | some st => .next (failCmd c st s)
    | none => .next (withNull c zoneReport s)

/-- IO_MANAGEMENT_RECEIVE (R278): Reclaim Unit Handle Status (MO 1) of an FDP namespace. -/
def execIoManagementReceive (conn cid : BitVec 16) (s : State) : Out :=
  match received s conn cid [0x12] with
  | none => .next s
  | some c =>
    let s := parseRx conn cid s
    match parseStatus s c with
    | some st => .next (failCmd c st s)
    | none => .next (withNull c handleStatus s)

/-- Reclaim Unit Handle Update of one handle (R349): the open unit's row is padded, the unit closed and a new one bound;
an FDP event is recorded. -/
def updateHandle (n : BitVec 32) (h : Nat) (s : State) : State :=
  let s := match openRu s n h false with
    | none => s
    | some k =>
      let r := ruOf s k
      let pool := toPool s (((nsOf s n.toNat).map (·.cls.toNat)).getD 0)
      let upto := coverEnd (grpSize s r.group) pool r.wp
      let pad := (upto - r.wp) * ruBytes s r
      let s := reserve (((nsOf s n.toNat).map (·.cls.toNat)).getD 0) pad (countStaged pad s)
      let s := modRu k (fun y => { y with wp := upto, full := true }) s
      modNs n.toNat (fun y => { y with fdpEvents := y.fdpEvents + 1 }) (programRu k 8 s)
  (bindRu n h false s).getD s

/-- Reclaim Unit Handle Update (R298, R349) of a list of handles. -/
def updateHandles (c : Cmd) (hs : List Nat) (s : State) : State :=
  match nsOf s c.nsid.toNat with
  | none => failCmd c (status 0 0x0B) s
  | some x =>
    if (sqeDw c.sqe 10).setWidth 8 ≠ 1#8 || hs.any (fun h => decide (x.handles ≤ h)) then failCmd c (status 0 2) s
    else completeCmd c 0 0 0 (hs.foldl (fun s h => updateHandle c.nsid h s) s)

/-- IO_MANAGEMENT_SEND (R349): Reclaim Unit Handle Update (MO 1) of a list of handles. -/
def execIoManagementSend (conn cid : BitVec 16) (handles : List (BitVec 4)) (s : State) : Out :=
  match received s conn cid [0x1D] with
  | none => .next s
  | some c =>
    let s := parseRx conn cid s
    match parseStatus s c with
    | some st => .next (failCmd c st s)
    | none => .next (withNull c (fun d s => updateHandles d (handles.map (·.toNat)) s) s)

/-- INVALID_COMMAND_OPCODE (R278): an opcode the keystone does not support, or supports only for the other namespace kind,
completes with 01h and DNR set. -/
def execInvalidCommandOpcode (conn cid : BitVec 16) (s : State) : Out :=
  match liveCmd s conn cid with
  | none => .next s
  | some c =>
    let adminOps : List (BitVec 8) := [0x02, 0x06, 0x08, 0x09, 0x0A, 0x0C, 0x18, 0x84, 0x7F]
    let ioOps : List (BitVec 8) := [0x00, 0x01, 0x02, 0x08, 0x0C, 0x19, 0x79, 0x7A, 0x7D, 0x12, 0x1D, 0x7F]
    let fct : BitVec 8 := (sqeDw c.sqe 1).setWidth 8
    let bad := if c.opcode = 0x7F then
        !(fct = 1 || (c.admin && (fct = 0 || fct = 4)) || (!c.admin && fct = 8))
      else if c.admin then !adminOps.contains c.opcode
      else !ioOps.contains c.opcode || (match cmdNs s c with | some x => c.opcode ≠ 0x7F && !kindOk x c.opcode | none => false)
    if parseTurn s c && bad then .next (failCmd c (status 0 1 true) (parseRx conn cid s))
    else .next s

/-! ## Deferral, ordering and lock grants (R63, R300, R303) -/

/-- A deferred command of a class that may be tried again: a hank commit has passed since its deferral, and a parse issue slot of the class
runs on its spindle (R63). One that Quiesce holds waits for the mode alone (R322). -/
def retryDue (s : State) (cls : BitVec 8) (c : Cmd) : Bool :=
  (c.phase = Phase.held || (c.phase = Phase.deferred && c.deferAt ≠ s.reel.hanks)) && c.cls = cls && !c.closed && parseSlot s c

/-- The deferred commands of a class that may be tried again, in arrival order: the table lists its commands in that order. -/
def dueDeferred (s : State) (cls : BitVec 8) : List Cmd := s.tables.cmds.filter (retryDue s cls)

/-- A deferred command is tried again, as it stands in the table now. -/
def retryCmd (s : State) (c : Cmd) : State :=
  match sameCmd s c with
  | none => s
  | some d =>
    match modeStatus s d with
    | some st => failCmd d st s
    | none => afterOrder d s

/-- DEFERRED_COMMAND_RETRY (R63): the class's deferred commands are tried again, in arrival order. -/
def execDeferredCommandRetry (cls : BitVec 8) (s : State) : Out := .next ((dueDeferred s cls).foldl retryCmd s)

/-- ORDERED_COMMAND_RELEASE (R300, R301): every predecessor of an ordered command has completed. -/
def execOrderedCommandRelease (conn cid : BitVec 16) (s : State) : Out :=
  match liveCmd s conn cid with
  | none => .next s
  | some c =>
    if c.phase = Phase.waitOrder && predecessorsDone s c then .next (orderedRun c s) else .next s

/-- Every lock entry a command holds is granted. -/
def allGranted (s : State) (c : Cmd) : Bool :=
  (locksOf s c.conn c.cid c.internal).all (fun k => match mget none s.tables.locks k with | some l => l.granted | none => true)

/-- LOCK_GRANT (R303, R306, R322): the next waiting request is granted; a second result follows, and a command whose locks are
then all granted runs as far as the mode lets it. -/
def execLockGrant (s : State) : Out :=
  match nextGrant s with
  | none => .next s
  | some (k, l) =>
    let s := grantLock k l s
    match l.spindle, acquireCmd s l.conn l.cid l.internal with
    | none, some c => if c.phase = Phase.waitLock && allGranted s c then .next (retryCmd s c) else .next s
    | _, _ => .next s

end Sys2Proof.Machine
end

