-- ==== Sys2Proof/Machine/NvmeAdmin.lean ====
section
/-! DEFINITION. Admin and Fabrics commands of a tenant: log pages, identify data, Abort, features, asynchronous events,
Keep Alive, Sanitize, Connect, the controller properties and Disconnect (R277–R282, R309, R319, R322, R372, R422, R435,
R590). -/

namespace Sys2Proof.Machine

/-! ## Receiving an admin command -/

/-- An admin command of an opcode that may be parsed now. -/
def receivedAdmin (s : State) (conn cid : BitVec 16) (op : BitVec 8) : Option Cmd :=
  match liveCmd s conn cid with
  | some c => if parseTurn s c && c.admin && c.opcode = op then some c else none
  | none => none

/-- FCTYPE of a Fabrics command. -/
def fctype (c : Cmd) : BitVec 8 := (sqeDw c.sqe 1).setWidth 8

/-- A Fabrics command of a type that may be parsed now. -/
def receivedFabrics (s : State) (conn cid : BitVec 16) (t : BitVec 8) : Option Cmd :=
  match liveCmd s conn cid with
  | some c => if parseTurn s c && c.opcode = 0x7F && fctype c = t then some c else none
  | none => none

/-- What a mode answers to an admin command, none where it is served (R202, R322). Before its Connect a queue serves only
Fabrics commands and the discovery page. DEDUCED, log entry 98. -/
def adminMode (s : State) (c : Cmd) : Option (BitVec 16) :=
  let inSanitize := c.opcode = 6 || c.opcode = 2 || c.opcode = 0x18 || c.opcode = 8 || c.opcode = 0x0C
  if inHold s then some (status 7 0x83)
  else if s.reel.deck = 11 && !inSanitize then some (status 0 0x1D)
  else if c.vc.isNone && c.opcode ≠ 0x7F && c.opcode ≠ 2 then some (status 0 2)
  else none

/-- Take an admin command off its queue and, in a mode that does not serve it, fail it; else go on with it. -/
def adminCheck (c : Cmd) (f : State → State) (s : State) : State :=
  let s := parseRx c.conn c.cid s
  match adminMode s c with
  | some st => failCmd c st s
  | none => f s

/-- Run an admin command: once parsed it makes a null lock request (R302). -/
def adminRun (c : Cmd) (f : State → State) (s : State) : State := adminCheck c (withNull c (fun _ => f)) s

/-! ## Log pages (R281, R372, R590) -/

/-- Spares a die started with: 63 − k, fewer the factory-bad units of the die (R329). -/
def firstSpares (s : State) (d : Nat) : Nat :=
  63 - emergK s - (blockUnits.filter (fun b => blockState s d b = 11)).length

/-- The dies that lie in groups. -/
def groupedDies (s : State) : List Nat := ((List.range (imgGroups s).length).map (groupDies s)).flatten

/-- Available Spare (R372). -/
def availableSpare (s : State) : Nat :=
  (groupedDies s).foldl (fun m d => if firstSpares s d = 0 then m else min m (100 * (sparesOf s d).length / firstSpares s d)) 100

/-- The mean wear of a group's bound and spare block units. -/
def groupWear (s : State) (g : Nat) : Nat :=
  let l := ((groupDies s g).map (fun d =>
    (blockUnits.filter (fun b => blockState s d b = 4 || blockState s d b = 6)).map (fun b => (blockOf s d b).wear.toNat))).flatten
  if l.length = 0 then 0 else l.sum / l.length

/-- Percentage Used (R372). -/
def percentUsed (s : State) : Nat :=
  min 255 ((List.range (imgGroups s).length).foldl (fun m g => max m (100 * groupWear s g / 12000)) 0)

/-- Critical Warning (R372, R583). -/
def criticalWarning (s : State) : Nat :=
  (if availableSpare s < 10 then 1 else 0) + (if s.thm.throt then 2 else 0) +
  (if (s.media.groups.any (fun e => e.2.degraded)) || s.reel.deck = 5 || s.media.unrecov then 4 else 0) +
  (if s.reel.deck = 9 then 8 else 0) + (if s.pwr.emergency ≠ 0 || (flushInForce s).isSome then 16 else 0)

/-- The highest reading of sensors lo to hi, plus 273 K; 0 where none is valid. -/
def sensorMax (s : State) (lo hi : Nat) : Nat :=
  match (s.thm.sens.filter (fun e => decide (lo ≤ e.1 ∧ e.1 ≤ hi) && e.2.valid)).foldl (fun (m : Option Int) e =>
      match m with | none => some (degC e.2.temp) | some t => some (max t (degC e.2.temp))) none with
  | none => 0
  | some t => (t + 273).toNat

/-- The hottest DRAM stack, plus 273 K. -/
def dramMax (s : State) : Nat :=
  ((List.range (nStacks s)).foldl (fun (m : Int) n => max m (degC (drcOf s n).temp)) (-128) + 273).toNat

/-- Hanks as whole minutes: 234,375 of 256 µs (R40, R372). DEDUCED, log entry 154. -/
def hankMinutes (n : Nat) : Nat := n / 234375

/-- Page 02h (R372, R590): the fields the spec gives, at the NVMe places. -/
def healthPage (s : State) (v : Nat) : List (Nat × Nat × Nat) :=
  let x := ctrlOf s v
  [(0, 1, criticalWarning s), (1, 2, (degC s.thm.comp + 273).toNat), (3, 1, availableSpare s), (4, 1, 10),
   (5, 1, percentUsed s), (32, 16, x.unitsRd / 1000), (48, 16, x.unitsWr / 1000), (64, 16, x.reads), (80, 16, x.writes),
   (96, 16, hankMinutes x.busyHanks), (112, 16, s.media.cycles), (128, 16, hankMinutes s.media.onHanks / 60), (144, 16, s.media.unsafeShut), (160, 16, s.media.mediaErrs), (176, 16, x.errs),
   (192, 4, hankMinutes s.media.warmHanks), (196, 4, hankMinutes s.media.hotHanks),
   (200, 2, sensorMax s 0 15), (202, 2, sensorMax s 16 19), (204, 2, sensorMax s 20 23), (206, 2, sensorMax s 24 27),
   (208, 2, dramMax s), (210, 2, (degC s.thm.flashTemp + 273).toNat), (212, 2, sensorMax s 28 28), (214, 2, 0)]

/-- The active image's build identifier. -/
def buildId (s : State) : Nat := ((s.store.running.map (fun im => im.build)).getD 0#256).toNat

/-- The other agreeing members an unfenced member refers to (R609). PRESUMED, log entry 97. -/
def referrals (s : State) : List Nat :=
  if s.span.state = 2 then (List.range 16).filter (fun m => bit s.span.agree m && m ≠ s.span.member.toNat) else []

/-- Discovery entries: the address of each sub-port that has one (R281), then the referrals (R609). PRESUMED, log entry 97. -/
def discoveryPage (s : State) : List (Nat × Nat × Nat) :=
  let n := s.xpt.addrs.length
  (8, 8, n + (referrals s).length) ::
  (s.xpt.addrs.zipIdx.map (fun e => (1024 + 1024 * e.2 + 256, 4, e.1.2.ip4.toNat))) ++
  (referrals s).zipIdx.map (fun e => (1024 + 1024 * (n + e.2) + 2, 1, 1))

/-- Page C0h: CLS_WAIT and CLS_CNT of the tenant's class, and its bucket levels (R281). -/
def classPage (s : State) (v : Nat) : List (Nat × Nat × Nat) :=
  let k := (vcOf s v).cls.toNat
  [(0, 4, (clsWait s k).toNat), (4, 4, (clsCnt (clsOf s k)).toNat),
   (8, 4, (vcOf s v).rd), (12, 4, (vcOf s v).wr)]

/-- Page 01h: the entries of the Error Information log, newest first (R281). PRESUMED, log entry 98. -/
def errorPage (s : State) (v : Nat) : List (Nat × Nat × Nat) :=
  ((ctrlOf s v).errLog.zipIdx.map (fun e =>
    [(64 * e.2, 8, e.1.count), (64 * e.2 + 8, 2, e.1.sqid.toNat), (64 * e.2 + 10, 2, e.1.cid.toNat), (64 * e.2 + 12, 2, 2 * e.1.status.toNat),
     (64 * e.2 + 16, 8, e.1.lba), (64 * e.2 + 24, 4, e.1.nsid.toNat)])).flatten

/-- Page 05h: each command of R278 is supported, admin commands first (R281). PRESUMED, log entry 98. -/
def effectsPage : List (Nat × Nat × Nat) :=
  [0x02, 0x06, 0x08, 0x09, 0x0A, 0x0C, 0x18, 0x84].map (fun o => (4 * o, 4, 1)) ++
    [0x00, 0x01, 0x02, 0x08, 0x0C, 0x19, 0x79, 0x7A, 0x7D, 0x12, 0x1D].map (fun o => (1024 + 4 * o, 4, 1))

/-- The namespace of a page that reports one: attached, and of the kind the page is for. -/
def pageNs (s : State) (v : Nat) (nsid : BitVec 32) (fdp : Bool) : Bool :=
  match nsOf s nsid.toNat with
  | none => false
  | some x => x.attached.contains (BitVec.ofNat 12 v) && x.fdp = fdp

/-- Some namespace attached to a controller is an FDP namespace. -/
def anyFdp (s : State) (v : Nat) : Bool := (vcNamespaces s v).any (fun e => e.2.fdp)

/-- The FDP namespaces of a controller, with their numbers. -/
def fdpSpaces (s : State) (v : Nat) : List (Nat × Ns) := (vcNamespaces s v).filter (fun e => e.2.fdp)

/-- Page 20h, FDP Configurations: one, with one reclaim group and 16 handles; a unit is a skein (R298, R347). PRESUMED, log entry 98. -/
def fdpConfigPage (s : State) : List (Nat × Nat × Nat) :=
  [(2, 1, 1), (4, 4, 144), (16, 2, 128), (18, 1, 0x80), (20, 4, 1), (24, 2, 16), (26, 2, 15), (28, 4, nNamespaces s),
   (32, 8, skeinZcap ((groupDies s 0).length) * 4096)] ++ (List.range 16).map (fun k => (80 + 4 * k, 1, 1))

/-- Page 21h, Reclaim Unit Handle Usage: each of the 16 handles, and whether a namespace of the controller uses it. PRESUMED, log entry 98. -/
def fdpUsagePage (s : State) (v : Nat) : List (Nat × Nat × Nat) :=
  (0, 2, 16) :: (List.range 16).map (fun k => (8 + 8 * k, 1, if (fdpSpaces s v).any (fun e => decide (k < e.2.handles)) then 1 else 0))

/-- Page 22h, FDP Statistics: bytes written by hosts, bytes programmed, and bytes erased (R281). PRESUMED, log entry 98. -/
def fdpStatPage (s : State) : List (Nat × Nat × Nat) := [(0, 16, s.media.fdpHost), (16, 16, s.media.fdpMedia), (32, 16, s.media.fdpErased)]

/-- Page 23h, FDP Events: one Reclaim Unit Not Written to Capacity for each that a namespace of the controller recorded (R349). PRESUMED, log entry
98. -/
def fdpEventPage (s : State) (v : Nat) : List (Nat × Nat × Nat) :=
  let l := ((fdpSpaces s v).map (fun e => List.replicate e.2.fdpEvents e.1)).flatten
  (0, 4, l.length) :: ((l.zipIdx.map (fun e => [(64 + 64 * e.2, 1, 0), (64 + 64 * e.2 + 12, 4, e.1)])).flatten)

/-- The data of a log page for controller v, or a failure status (R281, R372). DEDUCED, log entry 98. -/
def logPage (s : State) (v lid : Nat) (nsid : BitVec 32) (port : BitVec 16) : BitVec 16 × List (Nat × Nat × Nat) :=
  if lid = 1 then (0, errorPage s v)
  else if lid = 2 then if nsid = 0 || nsid = 0xFFFFFFFF then (0, healthPage s v) else (status 0 2, [])
  else if lid = 3 then (0, [(0, 1, 1), (8, 8, buildId s)])
  else if lid = 5 then (0, effectsPage)
  else if 0x20 ≤ lid && lid ≤ 0x23 then
    if !anyFdp s v then (status 1 9, [])
    else (0, if lid = 0x20 then fdpConfigPage s else if lid = 0x21 then fdpUsagePage s v else if lid = 0x22 then fdpStatPage s else fdpEventPage s v)
  else if lid = 0x70 then if port = 8009 then (0, discoveryPage s) else (status 1 9, [])
  else if lid = 0x81 then (0, [(2, 2, s.media.sanLog.toNat)])
  else if lid = 0xBF then
    if pageNs s v nsid false then
      let l := ((nsOf s nsid.toNat).map (·.changed)).getD []
      (0, (0, 2, l.length) :: (List.range l.length).map (fun k => (8 + 8 * k, 8, l.getD k 0)))
    else if (nsOf s nsid.toNat).isSome then (status 0 2, []) else (status 0 0x0B, [])
  else if lid = 0xC0 then (0, classPage s v)
  else (status 1 9, [])

/-- A read of page BFh clears the list it returns. -/
def logRead (lid : Nat) (nsid : BitVec 32) (s : State) : State :=
  if lid = 0xBF then modNs nsid.toNat (fun x => { x with changed := [] }) s else s

/-- The fields of an answer that lie in the `n` bytes from `a` on, at their offsets there; one that lies partly within gives its bytes. -/
def cutFields (a n : Nat) (l : List (Nat × Nat × Nat)) : List (Nat × Nat × Nat) :=
  (l.map (fun f =>
    if a ≤ f.1 && f.1 + f.2.1 ≤ a + n then [(f.1 - a, f.2.1, f.2.2)]
    else ((List.range f.2.1).filter (fun i => decide (a ≤ f.1 + i ∧ f.1 + i < a + n))).map (fun i => (f.1 + i - a, 1, f.2.2 / 256 ^ i % 256)))).flatten

/-- The part of a page that a Get Log Page asks for: its length in CDW10 and CDW11, its offset in CDW12 and CDW13. PRESUMED, log entry 98. -/
def pagePart (c : Cmd) (l : List (Nat × Nat × Nat)) : List (Nat × Nat × Nat) :=
  let n := (sqeDw c.sqe 10 >>> 16).toNat + 65536 * ((sqeDw c.sqe 11).setWidth 16 : BitVec 16).toNat
  cutFields ((sqeDw c.sqe 12).toNat + 2 ^ 32 * (sqeDw c.sqe 13).toNat) (4 * (n + 1)) l

/-- Answer a Get Log Page for a controller. -/
def getLogPage (c : Cmd) (v : Nat) (s : State) : State :=
  let lid := ((sqeDw c.sqe 10).setWidth 8 : BitVec 8).toNat
  let (st, d) := logPage s v lid c.nsid (connOf s c.conn.toNat).port
  if c.vc.isNone && !c.internal && lid ≠ 0x70 then failCmd c (status 0 2) s
  else if st = 0 then logRead lid c.nsid (answerData c (pagePart c d) s) else failCmd c st s

/-- The controller a command came from, as a number. -/
def cmdVc (c : Cmd) : Nat := (c.vc.map (·.toNat)).getD 0

/-- GET_LOG_PAGE (R281, R372, R435). -/
def execGetLogPage (conn cid : BitVec 16) (s : State) : Out :=
  match receivedAdmin s conn cid 2 with
  | none => .next s
  | some c => .next (adminRun c (getLogPage c (cmdVc c)) s)

/-! ## Identify (R217, R277, R279, R322, R333, R590) -/

/-- A controller may sanitize: a mode 11 deck, and sanitize permission of every namespace attached to it (R217, R322). -/
def maySanitize (s : State) (v : Nat) : Bool := hasDeck s 11 && (vcNamespaces s v).all (fun e => e.2.sanPerm)

/-- The command set identifier of a namespace (R275): 02h zoned, 00h FDP. -/
def nsCsi (x : Ns) : Nat := if x.fdp then 0 else 2

/-- A list of namespace identifiers as identify data. -/
def idList (l : List Nat) : List (Nat × Nat × Nat) := (List.range l.length).map (fun k => (4 * k, 4, l.getD k 0))

/-- The identify data of a namespace, by CNS: its own (00h), its descriptors (03h), those of the zoned command set, with MAR, MOR and the zone size
(05h, R294), and those of no command set (08h). PRESUMED, log entry 167. -/
def identifyNs (x : Ns) (cns csi : Nat) : List (Nat × Nat × Nat) :=
  if cns = 0 then [(0, 8, nsLbas x), (8, 8, nsLbas x), (26, 1, if x.fmt1 then 0x11 else 0), (28, 1, 0), (29, 1, 0), (33, 1, 1)]
  else if cns = 3 then [(0, 1, 4), (1, 1, 1), (4, 1, nsCsi x)]
  else if cns = 5 && csi = 2 && !x.fdp then [(4, 4, x.actLim - 1), (8, 4, x.openLim - 1), (2816, 8, zszeOf x)]
  else if cns = 8 then [(1, 1, if 1 < x.attached.length then 1 else 0), (14, 1, 1)]
  else []

/-- The identify data the spec gives, at the NVMe places, of controller `v`, for a CNS, a namespace and a command set. DESIGN CHOICE, log entry
96. PRESUMED, log entry 167. -/
def identifyData (s : State) (v cns csi : Nat) (nsid : BitVec 32) : List (Nat × Nat × Nat) :=
  if cns = 1 then
    [(64, 8, buildId s % 2 ^ 64), (77, 1, 6), (78, 2, v + 1), (258, 1, 3), (259, 1, 3),
     (266, 2, (degC s.thm.cfgThrot + 273).toNat), (268, 2, 378), (320, 2, 1), (328, 4, if maySanitize s v then 3 else 0),
     (525, 1, 0), (1792, 4, 516), (1796, 4, 1)]
  else if cns = 2 then idList ((vcNamespaces s v).map (·.1))
  else if cns = 6 then (if csi = 2 then [(0, 1, 5)] else [])
  else if cns = 7 then idList (((vcNamespaces s v).filter (fun e => decide (nsCsi e.2 = csi))).map (·.1))
  else if cns = 0x1C then [(0, 8, 5)]
  else match nsOf s nsid.toNat with
    | none => []
    | some x => identifyNs x cns csi

/-- CNS values Identify accepts (R279). -/
def identifyCns : List Nat := [0, 1, 2, 3, 5, 6, 7, 8, 0x1C]

/-- IDENTIFY (R279): any other CNS fails with 02h; namespace data of a namespace not attached with 0Bh. -/
def execIdentify (conn cid : BitVec 16) (s : State) : Out :=
  match receivedAdmin s conn cid 6 with
  | none => .next s
  | some c =>
    let cns := ((sqeDw c.sqe 10).setWidth 8 : BitVec 8).toNat
    let v := cmdVc c
    .next (adminRun c (fun s =>
      if !identifyCns.contains cns then failCmd c (status 0 2) s
      else if (cns = 0 || cns = 3 || cns = 5 || cns = 8) && (cmdNs s c).isNone then failCmd c (status 0 0x0B) s
      else answerData c (identifyData s v cns (sqeDw c.sqe 11 >>> 24).toNat c.nsid) s) s)

/-! ## Abort (R309, R310) -/

/-- Outstanding Aborts of a controller, the present one among them. -/
def abortsOut (s : State) (v : Option (BitVec 12)) : Nat :=
  (s.tables.cmds.filter (fun c => c.admin && c.vc = v && c.opcode = 8 && !c.closed)).length

/-- The connection of a controller's queue. -/
def queueConn (s : State) (v : Nat) (qid : BitVec 16) : Option (BitVec 16) :=
  if qid = 0 then (ctrlOf s v).admin else ((ctrlOf s v).ios.find? (fun q => q.2 = qid)).map (·.1)

/-- An abort mark for a target, with the Abort's own completion: DW0 bit 0 is 1 when the mark is refused. An Asynchronous
Event Request whose mark is taken completes at once. -/
def abortTarget (c : Cmd) (tconn tcid : BitVec 16) (s : State) : State :=
  match abortMark tconn tcid s with
  | (4, s) =>
    let s := match liveCmd s tconn tcid with
      | some t => if t.admin && t.opcode = 0x0C then failCmd t (status 0 7) s else s
      | none => s
    completeCmd c 0 0 0 s
  | (_, s) => completeCmd c 0 1 0 s

/-- ABORT (R277, R309): more than 4 outstanding fail with 1/03h. -/
def execAbort (conn cid : BitVec 16) (s : State) : Out :=
  match receivedAdmin s conn cid 8 with
  | none => .next s
  | some c =>
    let w := sqeDw c.sqe 10
    .next (adminRun c (fun s =>
      if 4 < abortsOut s c.vc then failCmd c (status 1 3) s
      else match queueConn s (cmdVc c) (w.setWidth 16) with
        | none => completeCmd c 0 1 0 s
        | some t => abortTarget c t ((w >>> 16).setWidth 16) s) s)

/-! ## Features (R277, R280, R299, R590) -/

/-- Queues a controller was created with, less 1 (R277, R419). -/
def ioqLess1 (s : State) (v : Nat) : Nat := (vcOf s v).inForce.ioq.toNat - 1

/-- A Keep Alive Timeout in ms as the controller takes it: none outside 1,000–120,000; rounded up to its steps. DEDUCED, log entry 100. -/
def katoOf (n : Nat) : Option Nat := if n < 1000 || 120000 < n then none else some ((n + 99) / 100 * 100)

/-- Set a feature: the status and DW0, with the controller changed (R280). -/
def setFeature (s : State) (v : Nat) (fid : Nat) (w : BitVec 32) : BitVec 16 × BitVec 32 × (Ctrl → Ctrl) :=
  if fid = 4 || fid = 0x1D then (status 1 0x0E, 0, id)
  else if fid = 5 then if w.setWidth 17 ≠ 0#17 then (status 0 2, 0, id) else (0, 0, fun x => { x with f05 := w })
  else if fid = 7 then
    let n := min (w.setWidth 16 : BitVec 16).toNat (ioqLess1 s v)
    let m := min (w >>> 16).toNat (ioqLess1 s v)
    let r := w32 (n + 65536 * m)
    (0, r, fun x => { x with f07 := r })
  else if fid = 0x0B then (0, 0, fun x => { x with f0B := w })
  else if fid = 0x0F then
    match katoOf w.toNat with
    | none => (status 0 2, 0, id)
    | some k => (0, 0, fun x => { x with kato := k, kaRuns := true, kaSince := s.now })
  else if fid = 0xC0 then (0, 0, fun x => { x with ordered := bit w 0 })
  else (status 0 2, 0, id)

/-- SET_FEATURES (R280): SV set fails with 0Dh. -/
def execSetFeatures (conn cid : BitVec 16) (s : State) : Out :=
  match receivedAdmin s conn cid 9 with
  | none => .next s
  | some c =>
    let w := sqeDw c.sqe 10
    .next (adminRun c (fun s =>
      if bit w 31 then failCmd c (status 1 0x0D) s
      else
        let (st, dw0, f) := setFeature s (cmdVc c) (w.setWidth 8 : BitVec 8).toNat (sqeDw c.sqe 11)
        if st = 0 then completeCmd c 0 dw0 0 (modCtrl (cmdVc c) f s) else failCmd c st s) s)

/-- The current value of a feature, or a failure (R280, R590). -/
def getFeature (s : State) (v : Nat) (fid : Nat) (w11 : BitVec 32) : BitVec 16 × BitVec 32 :=
  let x := ctrlOf s v
  if fid = 4 then
    if (w11 >>> 16).setWidth 4 ≠ 0#4 then (status 0 2, 0)
    else if (w11 >>> 20).setWidth 2 = 0#2 then (0, w32 (degC s.thm.cfgThrot + 273).toNat)
    else (0, 0)
  else if fid = 5 then (0, x.f05)
  else if fid = 7 then (0, x.f07)
  else if fid = 0x0B then (0, x.f0B)
  else if fid = 0x0F then (0, w32 x.kato)
  else if fid = 0x1D then (0, bfld (anyFdp s v) 0)
  else if fid = 0xC0 then (0, bfld x.ordered 0)
  else (status 0 2, 0)

/-- A feature is changeable (R280). -/
def featChangeable (fid : Nat) : Bool := fid ≠ 4 && fid ≠ 0x1D

/-- GET_FEATURES (R280): SEL is current (0) or supported capabilities (3). -/
def execGetFeatures (conn cid : BitVec 16) (s : State) : Out :=
  match receivedAdmin s conn cid 0x0A with
  | none => .next s
  | some c =>
    let w := sqeDw c.sqe 10
    let sel : BitVec 3 := (w >>> 8).setWidth 3
    let fid := (w.setWidth 8 : BitVec 8).toNat
    .next (adminRun c (fun s =>
      if sel ≠ 0 && sel ≠ 3 then failCmd c (status 0 2) s
      else
        let (st, v) := getFeature s (cmdVc c) fid (sqeDw c.sqe 11)
        if st ≠ 0 then failCmd c st s
        else if sel = 3 then completeCmd c 0 (bfld (featChangeable fid) 2) 0 s
        else completeCmd c 0 v 0 s) s)

/-! ## Asynchronous events and Keep Alive (R277, R278, R319, R364) -/

/-- An outstanding Asynchronous Event Request of a controller. -/
def waitingAer (s : State) (v : Nat) : Option Cmd :=
  s.tables.cmds.find? (fun c => c.admin && c.vc = some (BitVec.ofNat 12 v) && c.opcode = 0x0C && c.phase = Phase.posted && !c.closed)

/-- A notice completes one outstanding request: notice, Zone Descriptor Changed, page BFh. -/
def deliverNotice (v : Nat) (s : State) : State :=
  match waitingAer s v with
  | none => s
  | some c =>
    if (ctrlOf s v).notices = 0 then s
    else completeCmd c 0 0x00BFEF02 0 (modCtrl v (fun x => { x with notices := x.notices - 1 }) s)

/-- Outstanding Asynchronous Event Requests of a controller. -/
def aersOut (s : State) (v : Option (BitVec 12)) : Nat :=
  (s.tables.cmds.filter (fun c => c.admin && c.vc = v && c.opcode = 0x0C && !c.closed)).length

/-- ASYNCHRONOUS_EVENT_REQUEST (R277, R278): stays outstanding until an event completes it, with no lock request made
(R310); a fifth fails with 02h. DEDUCED, log entry 99. -/
def execAsynchronousEventRequest (conn cid : BitVec 16) (s : State) : Out :=
  match receivedAdmin s conn cid 0x0C with
  | none => .next s
  | some c =>
    .next (adminCheck c (fun s =>
      if 4 < aersOut s c.vc then failCmd c (status 0 2) s
      else deliverNotice (cmdVc c) (setPhase c Phase.posted s)) s)

/-- KEEP_ALIVE (R277): restarts the controller's timer. -/
def execKeepAlive (conn cid : BitVec 16) (s : State) : Out :=
  match receivedAdmin s conn cid 0x18 with
  | none => .next s
  | some c =>
    .next (adminRun c (fun s =>
      completeCmd c 0 0 0 (modCtrl (cmdVc c) (fun x => { x with kaRuns := true, kaSince := s.now }) s)) s)

/-- KEEP_ALIVE_TIMEOUT (R319): a controller whose timer runs is reset. -/
def execKeepAliveTimeout (v : BitVec 12) (s : State) : Out :=
  if (ctrlOf s v.toNat).kaRuns then .next (ctrlReset v.toNat s) else .next s

/-! ## Sanitize (R216, R217, R311, R322, R435) -/

/-- Crypto Erase is accepted (R435): every namespace attached to the controller has it as key home and no other
controller. -/
def cryptoEraseOk (s : State) (v : Nat) : Bool :=
  (vcNamespaces s v).all (fun e => e.2.home = some (BitVec.ofNat 12 v) && e.2.attached.length = 1)

/-- A new key into a slot at the next hank commit, as Generate does, with use `use`. -/
def eraseKey (k : Nat) (op use : BitVec 4) (key : BitVec 256) (v : Nat) (s : State) : State :=
  modKey k (fun x => { x with pend := some { op := op, key := key, use := use, limit := x.limit, vc := BitVec.ofNat 12 v } }) s

/-- The new keys of a Crypto Erase (R435): XTS data and tweak keys, or one GCM key in both slots. -/
def cryptoErase (v : Nat) (s : State) : State :=
  let r := (vcOf s v).inForce
  let k0 := Config.random256 s.draws
  let k1 := Config.random256 (s.draws + 1)
  let s := { s with draws := s.draws + 2 }
  if bit r.flags 2 then eraseKey r.slotB.toNat 4 4 k0 v (eraseKey r.slotA.toNat 2 3 k0 v s)
  else eraseKey r.slotB.toNat 2 2 k1 v (eraseKey r.slotA.toNat 2 1 k0 v s)

/-- The sweep starts: the device requests mode 11, or records that it is wanted while a mode of higher rank is active (R218). DEDUCED, log
entry 102. -/
def startSweep (nss : List Nat) (s : State) : State :=
  deviceRequest 11 false (modMedia (fun u => { u with sanitize := true, sanLog := 2, sanNs := u.sanNs ++ nss.filter (!u.sanNs.contains ·) }) s)

/-- The sanitize action: CDW10 bits 2:0. -/
def sanAction (c : Cmd) : Nat := ((sqeDw c.sqe 10).setWidth 3 : BitVec 3).toNat

/-- SANITIZE (R217, R322, R435): Block Erase (2) or Crypto Erase (4); another action fails with 02h. DEDUCED, log entry 101. -/
def execSanitize (conn cid : BitVec 16) (s : State) : Out :=
  match receivedAdmin s conn cid 0x84 with
  | none => .next s
  | some c =>
    let v := cmdVc c
    let a := sanAction c
    .next (adminRun c (fun s =>
      if !maySanitize s v then failCmd c (status 0 1 true) s
      else if a ≠ 2 && a ≠ 4 then failCmd c (status 0 2) s
      else if a = 4 && !cryptoEraseOk s v then failCmd c (status 0 2) s
      else
        let s := if a = 4 then cryptoErase v s else s
        completeCmd c 0 0 0 (startSweep ((vcNamespaces s v).map (·.1)) s)) s)

/-- The sweep has erased a namespace: each zone not Offline is Empty, each reclaim unit unbound, the map clear. DEDUCED, log entry 102. -/
def sweepNs (s : State) (n : Nat) : State :=
  match nsOf s n with
  | none => s
  | some x =>
    let nsid : BitVec 32 := BitVec.ofNat 32 n
    let zs := (nsZones s nsid).filter (fun e => e.2.state ≠ 0xF)
    let s := zs.foldl (fun s e => resetZone x nsid e.1 s) s
    let rs := s.media.rus.filter (fun e => e.2.nsid = nsid)
    let s := rs.foldl (fun s e => forgetDone (2 ^ 60 + e.1) (unbindSkeins n e.2.group [e.2.skein] x.cls.toNat s)) s
    let s := modMedia (fun u => { u with fdpErased := u.fdpErased + (rs.map (fun e => ruLbas s e.2 * 4096)).sum, rus := u.rus.filter (fun e => decide (e.2.nsid ≠ nsid)) }) s
    modNs n (fun y => { y with map := [], saved := [], mapPages := [] }) s

/-- The queued erases that the sweep has performed. -/
def sweepErases (s : State) : State :=
  let l := s.media.erases
  let s := modMedia (fun u => { u with erases := [] }) s
  l.foldl (fun s e =>
    let s := modBlock e.1 e.2.1 (fun b => { b with state := 1, pages := 0, reads := 0, wear := b.wear + 1 }) s
    match groupOfDie s e.1, skeinOf s e.1 e.2.1 with
    | some g, some k => skeinErased g k s
    | _, _ => s) s

/-- SANITIZE_SWEEP_END (R216): mode 11 ends and the device returns to the return mode. -/
def execSanitizeSweepEnd (s : State) : Out :=
  if s.reel.deck = 11 && s.media.sanitize then
    let s := sweepErases (s.media.sanNs.foldl sweepNs s)
    .next (leaveMode 11 (modMedia (fun u => { u with sanitize := false, sanLog := 1, sanNs := [] }) s))
  else .next s

/-! ## Fabrics commands (R233, R243, R277, R319, R422) -/

/-- The controller a Connect's NQNs name: created, with both names of its table entry (R422). -/
def nqnVc (s : State) (nqn : BitVec 4096) : Option Nat :=
  ((s.vct.ents.filter (fun e => e.2.state = 1 && decide (mget 0 s.vct.nqn e.1 = nqn))).map (·.1)).head?

/-- The TLS flags of a controller allow a connection (R422). -/
def tlsAllowed (f : BitVec 8) (tls : Bool) : Bool := if tls then bit f 0 else !bit f 1

/-- Queue pairs connected on the device. -/
def queuePairs (s : State) : Nat := (s.xpt.conns.filter (fun e => e.2.isOpen && e.2.vc.isSome)).length

/-- What a Connect must meet on controller v (R277, R422): the identifier, the TLS flags, the queue and the totals. DEDUCED, log entry 104. -/
def connectOk (s : State) (c : Cmd) (v : Nat) (cntlid : BitVec 16) : Bool :=
  let k := connOf s c.conn.toNat
  let x := ctrlOf s v
  let f := (vcOf s v).inForce
  let qid : BitVec 16 := (sqeDw c.sqe 10 >>> 16).setWidth 16
  let size := ((sqeDw c.sqe 11).setWidth 16 : BitVec 16).toNat + 1
  k.vc.isNone && tlsAllowed f.flags k.tls && decide (queuePairs s < nConns s) &&
    (if qid = 0 then cntlid = 0xFFFF && x.admin.isNone && decide (size ≤ 32) && (katoOf (sqeDw c.sqe 12).toNat).isSome
     else decide (cntlid.toNat = v + 1) && decide (qid.toNat ≤ f.ioq.toNat) && decide (x.ios.length < f.ioq.toNat) &&
       x.admin.isSome && !(x.ios.any (fun q => q.2 = qid)) && decide (size ≤ 1024))

/-- The connection joins the controller (R227, R231, R233): its queue, its size, its pin. -/
def connectJoin (c : Cmd) (v : Nat) (s : State) : State :=
  let qid : BitVec 16 := (sqeDw c.sqe 10 >>> 16).setWidth 16
  let size := ((sqeDw c.sqe 11).setWidth 16 : BitVec 16).toNat + 1
  let q := ioqLess1 s v
  let s := modConn c.conn.toNat (fun k => { k with
    vc := some (BitVec.ofNat 12 v), qid := qid, sqSize := size }) s
  let s := if connBounded s (connOf s c.conn.toNat) then pinEntry c.conn.toNat s else s
  if qid = 0 then
    modCtrl v (fun x => { x with
      admin := some c.conn, kato := (katoOf (sqeDw c.sqe 12).toNat).getD 0, kaRuns := true,
      kaSince := s.now, cc := 0, rdy := false, shst := 0, f05 := 0,
      f0B := 0, ordered := false, f07 := w32 (q + 65536 * q) }) s
  else modCtrl v (fun x => { x with ios := x.ios ++ [(c.conn, qid)] }) s

/-- The pin limit of R233 bars a connection of a bounded class. DEDUCED, log entry 104. -/
def pinFull (s : State) (v : Nat) : Bool :=
  (clsOf s (vcOf s v).cls.toNat).bounded && decide (cacheLimit s ≤ pinnedConns s)

/-- FABRICS_CONNECT (R233, R277, R422): `nqn` is the subsystem NQN in bytes 0–255 and the host NQN in bytes 256–511,
`cntlid` the controller identifier, of the Connect's data. -/
def execFabricsConnect (conn cid : BitVec 16) (nqn : BitVec 4096) (cntlid : BitVec 16) (s : State) : Out :=
  match receivedFabrics s conn cid 1 with
  | none => .next s
  | some c =>
    .next (adminRun c (fun s =>
      match nqnVc s nqn with
      | none => failCmd c (status 0 2) s
      | some v =>
        if !connectOk s c v cntlid then failCmd c (status 0 2) s
        else if pinFull s v then
          failCmd c (status 0 2) (event 0x0810 [0xFFFFFFFF, conn.setWidth 32, 1] s)
        else completeCmd c 0 (w32 (v + 1)) 0 (connectJoin c v s)) s)

/-- PROPERTY_SET (R319): CC at 14h; clearing CC.EN or a shutdown request resets the controller. -/
def execPropertySet (conn cid : BitVec 16) (s : State) : Out :=
  match receivedFabrics s conn cid 0 with
  | none => .next s
  | some c =>
    let v := cmdVc c
    let w := sqeDw c.sqe 12
    .next (adminRun c (fun s =>
      if sqeDw c.sqe 11 ≠ 0x14 || c.vc.isNone then failCmd c (status 0 2) s
      else
        let old := (ctrlOf s v).cc
        let s := modCtrl v (fun x => { x with cc := w }) s
        let s := completeCmd c 0 0 0 s
        if (bit old 0 && !bit w 0) || (w >>> 14).setWidth 2 ≠ 0#2 then ctrlReset v s
        else if bit w 0 then modCtrl v (fun x => { x with rdy := true, shst := 0 }) s
        else s) s)

/-- A property's value as DW0 and DW1, none where it is not one (R277, R319): CAP with MQES and MPSMIN as given and its
other bits free, VS free, CC and CSTS. DESIGN CHOICE, log entry 103. -/
def property (s : State) (v : Nat) (ofs : BitVec 32) : Option (BitVec 64 × State) :=
  let x := ctrlOf s v
  if ofs = 0 then
    let (f, s) := drawBits s
    some ((f.setWidth 64 &&& 0xFFF0FFFFFFFF0000) ||| 1023, s)
  else if ofs = 8 then
    let (f, s) := drawBits s
    some ((f.setWidth 32 : BitVec 32).setWidth 64, s)
  else if ofs = 0x14 then some (x.cc.setWidth 64, s)
  else if ofs = 0x1C then some ((bfld x.rdy 0 ||| fld x.shst 2).setWidth 64, s)
  else none

/-- PROPERTY_GET (R278). -/
def execPropertyGet (conn cid : BitVec 16) (s : State) : Out :=
  match receivedFabrics s conn cid 4 with
  | none => .next s
  | some c =>
    .next (adminRun c (fun s =>
      match (if c.vc.isNone then none else property s (cmdVc c) (sqeDw c.sqe 11)) with
      | none => failCmd c (status 0 2) s
      | some (v, s) => completeCmd c 0 (lo32 v) (hi32 v) s) s)

/-- FABRICS_DISCONNECT (R243, R278): the I/O queue closes after the completion. -/
def execFabricsDisconnect (conn cid : BitVec 16) (s : State) : Out :=
  match receivedFabrics s conn cid 8 with
  | none => .next s
  | some c =>
    if c.admin then .next (failCmd c (status 0 1 true) (parseRx conn cid s))
    else .next (adminRun c (fun s => closeConnection conn.toNat false 1 (completeCmd c 0 0 0 s)) s)

end Sys2Proof.Machine
end

