-- ==== Sys2Proof/Machine/Tasks.lean ====
section
/-! DEFINITION. Internal commands and the task register sets: starting a set, its chains, the namespace commands, and
the completion of a task command (R311–R318, R334, R348, R434, R443, R607, R608). -/

namespace Sys2Proof.Machine

/-! ## Starting a command on a set (R287, R311, R313, R317) -/

/-- A chain descriptor's address can be used: 128-byte aligned, wholly in SRAM or one DRAM stack (R317, R318). -/
def chainOk (s : State) (a : Nat) : Bool :=
  a % 128 = 0 && (match placeOf s a with | .sram => placeOf s (a + 127) == .sram | .dram _ => inDram s a 128 | _ => false)

/-- The 64 bytes of a set's command as a submission entry. -/
def taskSqe (x : TaskSet) : BitVec 512 :=
  (List.range 16).foldl (fun (q : BitVec 512) k => q ||| ((mget 0 x.cmd k).setWidth 512 <<< (32 * k))) 0

/-- The source ranges of an internal Copy, read from its buffer: range format 0 (R278, R307, R311). -/
def taskSrcs (s : State) (buf n : Nat) : List (Nat × Nat) :=
  (List.range n).map (fun k => (leNat (portBytes s (buf + 32 * k + 8) 8), leNat (portBytes s (buf + 32 * k + 16) 2) + 1))

/-- The command-table entry of an internal command (R284, R311): class 0, no controller. -/
def taskCmd (s : State) (k : Nat) (q : BitVec 512) (buf : Nat) : Cmd :=
  let op := sqeOp q
  let srcs := if op = 0x19 then taskSrcs s buf ((((sqeDw q 12).setWidth 8 : BitVec 8).toNat) + 1) else []
  { internal := true, cid := BitVec.ofNat 16 k, opcode := op, nsid := sqeDw q 1,
    slba := (sqeDw q 11).toNat * 2 ^ 32 + (sqeDw q 10).toNat,
    nlb := if op = 0x19 then (srcs.map (·.2)).sum else ((sqeDw q 12).setWidth 16 : BitVec 16).toNat + 1,
    fua := bit (sqeDw q 12) 30, arrival := s.tables.arrivals, sqe := q, inCap := true, srcs := srcs }

/-- The internal command of a set, received and not handled. In Hold no spindle handles it (R203). -/
def receivedTask (s : State) (k : Nat) (op : BitVec 8) : Option Cmd :=
  match setCmd s k with
  | some c => if c.phase = Phase.received && c.opcode = op && !inHold s && parseSlot s c && firstOfClass s c then some c else none
  | none => none

/-- The run of a set, if one runs. -/
def runOf (s : State) (k : Nat) : TaskRun := ((taskOf s k).run).getD {}

/-- An RXQ without the kind 5 item of a set. -/
def dropTask (k : Nat) (l : List (BitVec 256)) : List (BitVec 256) :=
  match l.findIdx? (fun (u : BitVec 256) => u.setWidth 8 = 5#8 && ((u >>> 16).setWidth 16).toNat = k) with
  | none => l
  | some i => l.take i ++ l.drop (i + 3)

/-- The keystone takes a set's kind 5 item off the RXQ. -/
def parseTask (k : Nat) (s : State) : State :=
  modSpn (runOf s k).spindle (fun x => { x with rxq := dropTask k x.rxq }) s

/-- The I/O opcodes R311 takes over from R278. -/
def taskIoOps : List (BitVec 8) := [0, 1, 2, 8, 0x0C, 0x19, 0x79, 0x7A, 0x7D, 0x12, 0x1D]

/-- The internal opcodes of R311. -/
def taskOps : List (BitVec 8) := [0xE0, 0xE1, 0xE2, 0xE3, 0xE8, 0xE9]

/-- An internal I/O command that moves no logical blocks: reports and handle updates, and Flush. -/
def runTaskOther (c : Cmd) (s : State) : State :=
  if c.opcode = 0 then runFlush c s
  else if c.opcode = 0x1D then
    updateHandles c ((List.range ((sqeDw c.sqe 10 >>> 16).toNat + 1)).map (fun i => leNat (portBytes s (taskBuf s c.cid.toNat + 2 * i) 2))) s
  else if c.opcode = 0x12 then handleStatus c s
  else zoneReport c s

/-- The keystone handles an internal command that has no row of its own: an I/O command runs as one of class 0, any other
opcode but those of R311 completes with 01h. -/
def handleTask (k : Nat) (s : State) : State :=
  match setCmd s k with
  | none => s
  | some c =>
    if inHold s || taskOps.contains c.opcode then s
    else
      let s := parseTask k s
      if !taskIoOps.contains c.opcode then failCmd c (status 0 1) s
      else match parseStatus s c with
        | some st => failCmd c st s
        | none =>
          if c.opcode = 0 || c.opcode = 0x1D || c.opcode = 0x12 || c.opcode = 0x7A then withNull c runTaskOther s else afterOrder c s

/-- Issue a set's command: its entry, and its kind 5 item on the RXQ of the spindle the image gives class 0's command
handling, which the spec does not name (a free value). DESIGN CHOICE, log entry 109. -/
def issueTask (k : Nat) (r : TaskRun) (q : BitVec 512) (s : State) : State :=
  let (f, s) := drawBits s
  let n := f.toNat % nSpindles s
  let m := taskCmd s k q r.buf.toNat
  let s := modTables (fun u => { u with cmds := u.cmds ++ [m], arrivals := u.arrivals + 1 }) s
  let s := modTask k (fun x => { x with run := some { r with spindle := n }, state := 1 }) s
  let s := pushRx n [rxHeader 5 k 2 0 0 0, q.setWidth 256, (q >>> 256).setWidth 256] s
  handleTask k s

/-- A set stops (R315): STATE 2 or 3, DONE set, CANCEL read back as 0. DEDUCED, log entry 108. -/
def taskStop (k : Nat) (st : BitVec 2) (s : State) : State :=
  modTask k (fun x => { x with state := st, done := true, cancel := false, run := none }) s

/-- A field of the chain descriptor at an address, read as DMA reads memory (R317). -/
def chainField (s : State) (a off n : Nat) : Nat := leNat (portBytes s (a + off) n)

/-- Consume the chain descriptor at an address (R317, R318); an address that cannot be used stops the set. DEDUCED, log entry 108. -/
def consume (k a : Nat) (s : State) : State :=
  if !chainOk s a then
    event 0x0121 [w32 k, w32 a, w32 (a / 2 ^ 32)] (taskStop k 3 s)
  else
    let r : TaskRun := { desc := BitVec.ofNat 40 a, chain := true, ctl := BitVec.ofNat 32 (chainField s a 72 4),
                         next := BitVec.ofNat 64 (chainField s a 64 8), buf := BitVec.ofNat 40 (chainField s a 112 8) }
    issueTask k r (BitVec.ofNat 512 (chainField s a 0 64)) s

/-- A GO on a set (R314, R316): DONE is cleared and the set starts, on TASK_CMD or on the chain. -/
def taskGo (k : Nat) (s : State) : State :=
  let x := taskOf s k
  if x.state = 1 then modTask k (fun y => { y with busyw := true }) s
  else
    let s := modTask k (fun y => { y with done := false, state := 1, cancel := false }) s
    if x.chained then consume k x.chain.toNat s
    else issueTask k { buf := x.buf } (taskSqe x) s

/-- A write of TASK_CTL.CHAIN (R314, R315): while the set runs, one that would change it is ignored and sets BUSYW. DEDUCED, log entry 87. -/
def taskChainBit (k : Nat) (b : Bool) (s : State) : State :=
  modTask k (fun y => if y.chained = b then y else if y.state = 1 then { y with busyw := true } else { y with chained := b }) s

/-- TASK_GO (R314–R317): a write of TASK_CTL with GO and the CHAIN bit given. -/
def execTaskGo (k : BitVec 6) (chain : Bool) (s : State) : Out :=
  .next (taskGo k.toNat (taskChainBit k.toNat chain s))

/-- CANCEL of a set (R314): reads 1 until the set stops. -/
def taskCancel (k : Nat) (s : State) : State :=
  modTask k (fun y => if y.state = 1 then { y with cancel := true } else y) s

/-- TASK_CANCEL (R314, R318). -/
def execTaskCancel (k : BitVec 6) (s : State) : Out := .next (taskCancel k.toNat s)

/-- Clearing DONE sets STATE to 0 (R315). -/
def taskDoneClear (k : Nat) (s : State) : State :=
  modTask k (fun y => if y.done then { y with done := false, state := 0 } else y) s

/-- TASK_DONE_CLEAR (R315). -/
def execTaskDoneClear (k : BitVec 6) (s : State) : Out := .next (taskDoneClear k.toNat s)

/-! ## Completion (R313, R315, R317, R318) -/

/-- The completion entry of an internal command: its own identifier, queue 0. -/
def taskCqe (c : Cmd) (st : BitVec 16) : BitVec 256 := cqe c.dw0 c.dw1 0 (sqeCid c.sqe) st

/-- What follows the completion of a chain's descriptor D (R318). The second read of D's control word and the change of
STATE are one step. -/
def chainNext (k : Nat) (r : TaskRun) (s : State) : State :=
  if (taskOf s k).cancel then taskStop k 2 s
  else if !bit r.ctl 0 then consume k r.next.toNat s
  else if !bit (BitVec.ofNat 32 (chainField s r.desc.toNat 72 4)) 0 then consume k (chainField s r.desc.toNat 64 8) s
  else taskStop k 2 s

/-- The answer to the Tilost request that runs on set 63: the completion entry and the buffer as the command left it
(R552, type 0x0050). -/
def taskAnswer (k : Nat) (e : BitVec 256) (s : State) : State :=
  match s.mgmt.reply with
  | none => s
  | some (sess, ident, n) =>
    if k ≠ 63 then s
    else
      let a := (taskOf s k).buf.toNat
      let pay := (List.range 4).map (fun i => (e >>> (32 * i)).setWidth 32) ++
        (List.range ((n + 3) / 4)).map (fun i => BitVec.ofNat 32 (leNat (portBytes s (a + 4 * i) (min 4 (n - 4 * i)))))
      tilostAnswer sess 0x0050 ident 0 pay (modMgmt (fun u => { u with reply := none }) s)

/-- A task command completes with a status (R313, R317): its result is written, its entry freed, and the engine follows,
re-reads or stops. -/
def taskComplete (k : Nat) (c : Cmd) (st : BitVec 16) (s : State) : State :=
  let r := runOf s k
  let e := taskCqe c st
  let s := freeCmd c s
  let s := modTask k (fun x => { x with
    res := (List.range 4).foldl (fun m i => mset 0 i ((e >>> (32 * i)).setWidth 32) m) x.res, lastSts := st.setWidth 15 }) s
  if r.chain then
    let s := busWrite none (r.desc.toNat + 80) (leBytes 32 e.toNat) s
    let s := modTask k (fun x => { x with last := r.desc }) s
    let s := if bit r.ctl 1 then modSrc (320 + k) (fun i => { i with pend := true }) s else s
    chainNext k r s
  else taskAnswer k e (taskStop k 2 s)

/-- TASK_COMMAND_COMPLETE (R313, R315, R318): the command that the keystone has ended completes, with the status that it ended with. -/
def execTaskCommandComplete (k : BitVec 6) (s : State) : Out :=
  match setCmd s k.toNat with
  | none => .next s
  | some c => if c.phase = Phase.ended then .next (taskComplete k.toNat c c.status s) else .next s

/-! ## Namespace Create (R312, R334, R348, R608) -/

/-- The parameter block of R312 at an address, as its 16 words. -/
def paramBlock (s : State) (a : Nat) : List (BitVec 32) := (List.range 16).map (fun k => BitVec.ofNat 32 (leNat (portBytes s (a + 4 * k) 4)))

/-- A field of a parameter block: `n` bits from a bit of a word. -/
def pfield (b : List (BitVec 32)) (w lo n : Nat) : Nat := ((b.getD w 0) >>> lo).toNat % 2 ^ n

/-- NSID of a parameter block. -/
def pNsid (b : List (BitVec 32)) : Nat := pfield b 0 0 32

/-- Groups of the block's class die set, those of the size of its first group. DEDUCED, log entry 105. -/
def createGroups (s : State) (b : List (BitVec 32)) : List Nat :=
  let gs := classGroups s (pfield b 1 16 8)
  match gs with
  | [] => []
  | g :: _ => gs.filter (fun h => (groupDies s h).length = (groupDies s g).length)

/-- Active zones a namespace counts for the device's total: its limit, on FDP an open unit of each kind for each handle (R294, R347). -/
def activeShare (x : Ns) : Nat := if x.fdp then 2 * x.handles else x.actLim

/-- Active zones the device's namespaces may have together. -/
def activeTotal (s : State) : Nat := (s.media.nss.map (fun e => (e.2.map activeShare).getD 0)).sum

/-- The namespace a parameter block describes, with nothing committed yet. -/
def blockNs (s : State) (b : List (BitVec 32)) : Ns :=
  { fdp := pfield b 1 0 8 = 1, fmt1 := pfield b 1 8 8 = 1, cls := BitVec.ofNat 8 (pfield b 1 16 8),
    span := bit (b.getD 1 0) 24, sanPerm := bit (b.getD 1 0) 25, skeins := pfield b 2 0 32 + 2 ^ 32 * pfield b 3 0 32,
    actLim := pfield b 4 0 16, openLim := pfield b 4 16 16, handles := pfield b 5 0 16, spz := pfield b 5 16 16,
    group8 := ((createGroups s b).head?.map (fun g => decide ((groupDies s g).length = 8))).getD false }

/-- The block keeps R312 and R331. -/
def blockOk (s : State) (b : List (BitVec 32)) : Bool :=
  let x := blockNs s b
  decide (1 ≤ pNsid b ∧ pNsid b ≤ nNamespaces s) && decide (pfield b 1 0 8 ≤ 1) && decide (pfield b 1 8 8 ≤ 1) &&
  decide (pfield b 1 24 8 ≤ 3) && decide (1 ≤ x.skeins) && (b.drop 6).all (· = 0) &&
  (if x.fdp then x.actLim = 0 && x.openLim = 0 && decide (1 ≤ x.handles ∧ x.handles ≤ 16) && x.spz = 0
   else decide (1 ≤ x.actLim ∧ x.actLim ≤ 256) && decide (1 ≤ x.openLim ∧ x.openLim ≤ x.actLim) && x.handles = 0 &&
     (x.spz = 1 || x.spz = 2 || x.spz = 4 || (x.spz = 8 && x.group8)))

/-- LBAs that FDP namespaces export on the device (R348). -/
def fdpTotal (s : State) : Nat := s.media.nss.foldl (fun n e => match e.2 with
  | some x => if x.fdp then n + fdpLbas x else n
  | none => n) 0

/-- Create a namespace from a block that was checked: 0, 02h beyond the device's active zones, or 15h, with nothing committed (R294, R334, R348).
DEDUCED, log entry 105. -/
def createNs (b : List (BitVec 32)) (s : State) : BitVec 16 × State :=
  let x := blockNs s b
  let n := pNsid b
  if (if s.varB then 8192 else 16384) < activeTotal s + activeShare x then (status 0 2, s)
  else if x.fdp && (if s.varB then 2 ^ 31 else 2 ^ 32) < fdpTotal s + fdpLbas x then (status 1 0x15, s)
  else if ((createGroups s b).map (uncommitted s)).sum < x.skeins then (status 1 0x15, s)
  else
    let t := modMedia (fun u => { u with nss := mset none n (some x) u.nss }) s
    match commitSkeins n (createGroups s b) x.skeins t with
    | none => (status 1 0x15, s)
    | some t => (0, t)

/-- Start a directory change of this member (R607): its own vote counts; a member alone commits at once. -/
def propose (p : Proposal) (s : State) : State :=
  modSpan (fun u => { u with prop := some { p with votes := [u.member.toNat] } }) s

/-- The votes of a change make a majority of the configured members (R607). -/
def hasMajority (s : State) (p : Proposal) : Bool := decide (s.span.count.toNat + 1 < 2 * p.votes.length)

/-- A committed change enters the directory (R606, R607): event 0x0C07. -/
def commitEntry (nsid : Nat) (e : DirEnt) (s : State) : State :=
  let v := s.span.dirv + 1
  let s := modSpan (fun u => { u with
        dirv := v, chDir := true,
        dir := mset {} nsid (if e.state = 0 then {} else { e with ver := v }) u.dir }) s
  event 0x0C07 [w32 nsid, e.home.setWidth 32 ||| (e.state.setWidth 32 <<< 8), lo32 v, hi32 v] s

/-- Delete a namespace (R334): its commitment returns, and what it bound is unbound for erasing. DEDUCED, log entry 106. -/
def deleteNs (n : Nat) (s : State) : State :=
  let s := sweepNs s n
  (modMedia (fun u => { u with nss := mset none n none u.nss }) s)

/-- End the command that proposed a change, with a status. -/
def endProposer (p : Proposal) (st : BitVec 16) (s : State) : State :=
  match p.set_.bind (fun k => setCmd s k) with
  | none => s
  | some c => completeCmd c st 0 0 s

/-- A change with a majority commits (R607, R608): the entry, and the creation or deletion it stands for. -/
def commitProposal (p : Proposal) (s : State) : State :=
  let s := modSpan (fun u => { u with prop := none }) s
  match p.create with
  | some b =>
    let (st, t) := createNs b s
    if st = 0 then endProposer p 0 (commitEntry p.nsid.toNat p.ent t) else endProposer p st s
  | none =>
    let s := commitEntry p.nsid.toNat p.ent s
    let s := if p.ent.state = 0 then deleteNs p.nsid.toNat s else s
    endProposer p 0 s

/-- Propose a change for an internal command; the command waits for it (R607). DEDUCED, log entry 106. -/
def proposeFor (c : Cmd) (p : Proposal) (s : State) : State :=
  let s := propose p (setPhase c Phase.posted s)
  match s.span.prop with
  | some q => if hasMajority s q then commitProposal q s else s
  | none => s

/-- What refuses a command on a span namespace (R600): 82h while fenced, 02h on a device of no span. -/
def spanBar (s : State) : Option (BitVec 16) :=
  if fenced s then some (status 7 0x82) else if s.span.state = 0 then some (status 0 2) else none

/-- NAMESPACE_CREATE (R311, R312, R334, R348, R600, R608). -/
def execNamespaceCreate (k : BitVec 6) (s : State) : Out :=
  match receivedTask s k.toNat 0xE0 with
  | none => .next s
  | some c =>
    let b := paramBlock s (runOf s k.toNat).buf.toNat
    let x := blockNs s b
    let n := pNsid b
    let known := (nsOf s n).isSome || decide (mget {} s.span.dir n ≠ {})
    if x.span && (spanBar s).isNone && s.span.prop.isSome then .next s
    else
      let s := parseTask k.toNat s
      if !blockOk s b then .next (failCmd c (status 0 2) s)
      else if known then .next (failCmd c (status 1 0x16) s)
      else if x.span then
        match spanBar s with
        | some st => .next (failCmd c st s)
        | none => .next (proposeFor c { nsid := w32 n, set_ := some k.toNat, create := some b,
                                        ent := { home := s.span.member.setWidth 8, state := 1 } } s)
      else
        let (st, t) := createNs b s
        .next (completeCmd c st 0 0 t)

/-- NAMESPACE_DELETE (R311, R334, R600, R608): 02h while a controller is attached. -/
def execNamespaceDelete (k : BitVec 6) (s : State) : Out :=
  match receivedTask s k.toNat 0xE1 with
  | none => .next s
  | some c =>
    match nsOf s c.nsid.toNat with
    | none => .next (failCmd c (status 0 0x0B) (parseTask k.toNat s))
    | some x =>
      if x.span && !fenced s && s.span.prop.isSome then .next s
      else
        let s := parseTask k.toNat s
        if x.attached ≠ [] then .next (failCmd c (status 0 2) s)
        else if x.span then
          match spanBar s with
          | some st => .next (failCmd c st s)
          | none => .next (proposeFor c { nsid := c.nsid, set_ := some k.toNat } s)
        else .next (completeCmd c 0 0 0 (deleteNs c.nsid.toNat s))

/-- A class has, in some deck, a place above a limit (R434, R443). -/
def placesExceed (s : State) (cls lim : Nat) : Bool :=
  ((s.store.running.map (fun im => im.decks)).getD []).any (fun dk =>
    dk.places.any (fun r => decide (r.owner = cls) && decide (lim < r.hard)))

/-- Attaching a controller to a namespace breaks R305 or R434. DEDUCED, log entry 107. -/
def attachBad (s : State) (x : Ns) (v : Nat) : Bool :=
  let f := (vcOf s v).inForce.flags
  (vcOf s v).state ≠ 1 || (vcOf s v).cls ≠ x.cls || classAfter (vcOf s v) ≠ x.cls.toNat || (x.home.isNone && bit f 2 && (!x.fmt1 || x.fdp)) ||
    placesExceed s x.cls.toNat (placeLimit x.fmt1 (bit f 0))

/-- The controller an internal command names in CDW10 bits 11:0. -/
def taskVc (c : Cmd) : BitVec 12 := (sqeDw c.sqe 10).setWidth 12

/-- NAMESPACE_ATTACH (R305, R311, R434, R600): the first attachment makes the key home. -/
def execNamespaceAttach (k : BitVec 6) (s : State) : Out :=
  match receivedTask s k.toNat 0xE2 with
  | none => .next s
  | some c =>
    let v := taskVc c
    let s := parseTask k.toNat s
    match nsOf s c.nsid.toNat with
    | none => .next (failCmd c (status 0 0x0B) s)
    | some x =>
      if x.span && fenced s then .next (failCmd c (status 7 0x82) s)
      else if x.attached.contains v then .next (failCmd c (status 1 0x18) s)
      else if attachBad s x v.toNat then .next (failCmd c (status 1 0x1C) s)
      else .next (completeCmd c 0 0 0 (modNs c.nsid.toNat (fun y => { y with
        attached := y.attached ++ [v], home := if y.home.isNone then some v else y.home }) s))

/-- NAMESPACE_DETACH (R311, R434, R600): 1Ah where the controller is not attached. -/
def execNamespaceDetach (k : BitVec 6) (s : State) : Out :=
  match receivedTask s k.toNat 0xE3 with
  | none => .next s
  | some c =>
    let v := taskVc c
    let s := parseTask k.toNat s
    match nsOf s c.nsid.toNat with
    | none => .next (failCmd c (status 0 0x0B) s)
    | some x =>
      if x.span && fenced s then .next (failCmd c (status 7 0x82) s)
      else if !x.attached.contains v then .next (failCmd c (status 1 0x1A) s)
      else .next (completeCmd c 0 0 0 (modNs c.nsid.toNat (fun y => { y with
        attached := y.attached.filter (fun w => decide (w ≠ v)) }) s))

/-- The key homes of every namespace. -/
def keyHomes (s : State) : List Nat :=
  (s.media.nss.filterMap (fun e => (e.2.bind (fun x => x.home)).map (fun v => v.toNat))).eraseDups

/-- INTERNAL_SANITIZE (R217, R311, R435): Block Erase or Crypto Erase of every namespace. DEDUCED, log entry 101. -/
def execInternalSanitize (k : BitVec 6) (s : State) : Out :=
  match receivedTask s k.toNat 0xE8 with
  | none => .next s
  | some c =>
    let a := sanAction c
    let s := parseTask k.toNat s
    if !hasDeck s 11 then .next (failCmd c (status 0 1 true) s)
    else if a ≠ 2 && a ≠ 4 then .next (failCmd c (status 0 2) s)
    else if a = 4 && !(keyHomes s).all (cryptoEraseOk s) then .next (failCmd c (status 0 2) s)
    else
      let s := if a = 4 then (keyHomes s).foldl (fun s v => cryptoErase v s) s else s
      .next (completeCmd c 0 0 0 (startSweep (s.media.nss.map (·.1)) s))

/-- INTERNAL_GET_LOG_PAGE (R281, R311): the page of the controller in CDW15 bits 11:0, at TASK_BUF. -/
def execInternalGetLogPage (k : BitVec 6) (s : State) : Out :=
  match receivedTask s k.toNat 0xE9 with
  | none => .next s
  | some c =>
    let v := ((sqeDw c.sqe 15).setWidth 12 : BitVec 12).toNat
    let lid := ((sqeDw c.sqe 10).setWidth 8 : BitVec 8).toNat
    let s := parseTask k.toNat s
    let (st, d) := logPage s v lid c.nsid 0
    if st = 0 then .next (completeCmd c 0 0 0 (logRead lid c.nsid (putFields (runOf s k.toNat).buf.toNat (pagePart c d) s)))
    else .next (failCmd c (if lid = 2 || lid = 0xBF then st else status 1 9) s)

/-- An activation request ends the current command of every running set with 21h; the set stops with STATE 2 (R320). -/
def stopTasks (s : State) : State :=
  (s.tasks.filter (fun e => e.2.state = 1)).foldl (fun s e =>
    match setCmd s e.1 with
    | none => taskStop e.1 2 s
    | some c =>
      let s := freeLocks (locksOf s c.conn c.cid true) (parseTask e.1 s)
      let s := modTask e.1 (fun x => { x with cancel := true }) s
      taskComplete e.1 c (status 0 0x21) s) s

end Sys2Proof.Machine
end

