-- ==== Sys2Proof/Machine/Store.lean ====
section
/-! DEFINITION. The image store: loading an image over the management port, its header and signature checks, the checker's
verdict, the key ring and the floor, the activation request, and the stop of the sequencer for an activation
(R162–R200, R320). -/

namespace Sys2Proof.Machine

/-! ## The banks (R178, R179, R540) -/

/-- The image in bank `b` (1 or 2). DESIGN CHOICE, log entry 64. -/
def bankImage (s : State) (b : Nat) : Option Image := if b = 1 then s.store.bank1 else if b = 2 then s.store.bank2 else none

/-- The number that `n` array bytes from `off` spell. -/
def arrNat (s : State) (off n : Nat) : Nat := leNat ((List.range n).map (fun k => bacByte s.bac (off + k)))

/-- The first byte of a bank's seal (R178). -/
def sealAt (b : Nat) : Nat := b * 2 ^ 24 + 2 ^ 24 - 32

/-- A bank holds an image whose seal matches it (R178, R196 step 4): the seal's code word is readable, carries the word
"SEAL", the image's length, and bits 63:0 of the image's digest. -/
def sealedImage (s : State) (b : Nat) : Option Image :=
  match bankImage s b with
  | none => none
  | some im =>
    if !bootBad s (sealAt b) 32 && arrNat s (sealAt b) 4 = 0x4C414553 && arrNat s (sealAt b + 4) 4 = arrNat s (b * 2 ^ 24 + 8) 8 &&
        arrNat s (sealAt b + 8) 8 = im.digest.toNat then
      some im else none

/-- The bank that is not active (R196): the other than the running image's, or than the record's; bank 1 with neither. DEDUCED, log entry 66. -/
def otherBank (s : State) : Nat :=
  let a := if s.store.running.isSome then s.store.runBank.toNat else s.store.recBank.toNat
  if a = 1 then 2 else 1

/-- Put an image into bank `b` as the firmware's programs leave it, with its seal in the last code word. -/
def programBank (b : Nat) (im : Image) (len : Nat) (bytes : List (BitVec 8)) (s : State) : State :=
  let base := b * 2 ^ 24
  let mark := leBytes 4 0x4C414553 ++ leBytes 4 len ++ leBytes 8 im.digest.toNat ++ List.replicate 16 0xFF
  let bac := bacErase base (2 ^ 24) s.bac
  let bac := bacMark base (len / 32) (bacPut base bytes bac)
  let bac := bacMark (sealAt b) 1 (bacPut (sealAt b) mark bac)
  let s := modBac (fun _ => bac) s
  if b = 1 then (modStore (fun u => { u with bank1 := some im }) s) else modStore (fun u => { u with bank2 := some im }) s

/-- Erase bank `b` (R196 step 4): what it held is no longer an image. -/
def eraseBank (b : Nat) (s : State) : State :=
  let s := modBac (fun _ => bacErase (b * 2 ^ 24) (2 ^ 24) s.bac) s
  let s := if s.store.staged = some (BitVec.ofNat 2 b) then (modStore (fun u => { u with staged := none, verdict := none }) s) else s
  if b = 1 then (modStore (fun u => { u with bank1 := none }) s) else modStore (fun u => { u with bank2 := none }) s

/-! ## The header and the signature block (R181, R192, R193, R196 step 2) -/

/-- The header of R181 and the signature block of R192 keep their form; the contract level, the variant and the build identifier are
judged by the checker. -/
def headerForm (rd : ImBytes) (len : Nat) : Bool :=
  let n := imNat rd 8 8
  let sections := imNat rd 0x12 2
  let sig := imNat rd 0x18 4
  imNat rd 0 4 = 0x3948495A && imNat rd 4 2 = 1 && n = len && n % 32 = 0 && decide (n ≤ 2 ^ 24 - 32) &&
    decide (1 ≤ sections) && decide (sections ≤ 1024) && imNat rd 0x14 4 = 0x100 && decide (512 ≤ n) && sig = n - 256 &&
    imZero rd 0x1C 4 && imZero rd 0x40 0xC0 &&
    imNat rd sig 4 = 0x4749535A && decide (imNat rd (sig + 4) 2 ≤ 4) && imZero rd (sig + 6) 2 && imZero rd (sig + 152) 104

/-- The key of a ring slot. -/
def ringKey (s : State) (k : Nat) : Nat × Nat := ((ringSlot s k).x.toNat, (ringSlot s k).y.toNat)

/-- The key in slot 0 has the fused hash (R193). -/
def fusedMatch (s : State) : Bool :=
  sha384 (beBytes 48 (ringKey s 0).1 ++ beBytes 48 (ringKey s 0).2) = beBytes 48 Config.fusedHash.toNat

/-- A ring slot holds a key that is not revoked, in slot 0 one whose hash is the fused one (R193). -/
def ringHolds (s : State) (k : Nat) : Bool :=
  decide (k ≤ 4) && (ringSlot s k).present && !(ringSlot s k).revoked && (k ≠ 0 || fusedMatch s)

/-- Bytes of an image. -/
def imBytes (rd : ImBytes) (off n : Nat) : List (BitVec 8) := (List.range n).map (fun k => rd (off + k))

/-- SHA-384 of the image up to its signature block (R192). -/
def imageDigest (rd : ImBytes) : List (BitVec 8) := sha384 (imBytes rd 0 (imNat rd 0x18 4))

/-- The digest matches the image, and the key of the signature's slot verifies r and s over it (R192, R193). -/
def imageVerifies (rd : ImBytes) (s : State) : Bool :=
  let sig := imNat rd 0x18 4
  imBytes rd (sig + 8) 48 = imageDigest rd &&
    ecdsaVerify (ringKey s (imNat rd (sig + 4) 2)) (imBytes rd (sig + 8) 48) (beNat (imBytes rd (sig + 56) 48)) (beNat (imBytes rd (sig + 104) 48))

/-- Step 2 of R196 (R193, R195, R197): the reason that refuses an image of `len` bytes, 0 for none. -/
def stepTwo (rd : ImBytes) (len : Nat) (s : State) : BitVec 8 :=
  if !headerForm rd len then 1
  else if !ringHolds s (imNat rd (imNat rd 0x18 4 + 4) 2) then 3
  else if !imageVerifies rd s then 2
  else if imNat rd 0x10 2 < s.store.floor.toNat then 4
  else 0

/-- A refused load or activation (R197): event 0x0608, and the reason as what the last load or activation reported. -/
def imageRefuse (reason : BitVec 8) (digest : BitVec 64) (s : State) : State :=
  event 0x0608 [reason.setWidth 32, 0, 0, 0, lo32 digest] (modStore (fun u => { u with reason := reason }) s)

/-! ## Loading (R196, R552) -/

/-- The first byte of the receive area, the last 16 MiB of stack 0. The spec gives no address. DESIGN CHOICE, log entry 67. -/
def areaBase : Nat := 0x15FF000000

/-- IMAGE_LOAD_BEGIN (R196, R552 0x0010): the receive area opens and a part received before is discarded. DEDUCED, log entry 67. -/
def execImageLoadBegin (sess : BitVec 2) (ident : BitVec 32) (len : BitVec 64) (s : State) : Out :=
  tilostRequest sess 0x0010 ident Served.enrolled (fun s =>
    let held := match s.mgmt.load with | none => false | some n => decide (n ≠ sess.toNat)
    if held || s.store.loading.isSome then tilostAnswer sess.toNat 0x0010 ident 4 [] s
    else tilostAnswer sess.toNat 0x0010 ident 0 []
      (modMgmt (fun u => { u with load := some sess.toNat, loadLen := len.toNat, got := [] }) s)) s

/-- Bytes go into the receive area, by the management receive path (R24). Where the area lies is the model's choice. DESIGN CHOICE, log entry 67. -/
def areaPut (off : Nat) (bytes : List (BitVec 8)) (s : State) : State :=
  modMgmt (fun u => { u with got := u.got ++ [(off, bytes.length)] }) (busWrite none (areaBase + off) bytes s)

/-- IMAGE_DATA (R196, R552 0x0011): bytes into the receive area the session holds open. DEDUCED, log entry 67. -/
def execImageData (sess : BitVec 2) (ident : BitVec 32) (off : BitVec 64) (bytes : List (BitVec 8)) (s : State) : Out :=
  tilostRequest sess 0x0011 ident Served.enrolled (fun s =>
    if s.mgmt.load ≠ some sess.toNat then
      tilostAnswer sess.toNat 0x0011 ident (if s.mgmt.load.isSome then 4 else 2) [] s
    else if 1048568 < bytes.length || s.mgmt.loadLen < off.toNat + bytes.length then tilostAnswer sess.toNat 0x0011 ident 2 [] s
    else tilostAnswer sess.toNat 0x0011 ident 0 [] (if 2 ^ 24 < off.toNat + bytes.length then s else areaPut off.toNat bytes s)) s

/-- A byte of the received image: 0 where this load has received none. DEDUCED, log entry 67. -/
def areaByte (s : State) (k : Nat) : BitVec 8 :=
  if s.mgmt.got.any (fun r => decide (r.1 ≤ k ∧ k < r.1 + r.2)) then portByte s (areaBase + k) else 0

/-- The answer to the request that waits for a load or an activation: the reason of R197 and, for reason 5, the five words
of R169. -/
def loadAnswer (typ : BitVec 16) (reason : BitVec 8) (s : State) : State :=
  match s.store.loadFrom with
  | none => s
  | some (n, ident) =>
    let pay := reason.setWidth 32 :: (if reason = 5 then s.store.vwords else [])
    tilostAnswer n typ ident (if reason = 0 then 0 else 6) pay (modStore (fun u => { u with loadFrom := none }) s)

/-- IMAGE_LOAD_END (R196 steps 1 and 2, R552 0x0012): the received bytes are checked and the image they spell goes to the checker, or the
load ends with its reason; `x` is what the sections say whose bytes the spec does not lay out. DESIGN CHOICE, log entry 65. -/
def execImageLoadEnd (sess : BitVec 2) (ident : BitVec 32) (x : ImageRest) (s : State) : Out :=
  tilostRequest sess 0x0012 ident Served.enrolled (fun s =>
    if s.store.loading.isSome then tilostAnswer sess.toNat 0x0012 ident 4 [] s
    else if s.mgmt.load ≠ some sess.toNat then
      tilostAnswer sess.toNat 0x0012 ident (if s.mgmt.load.isSome then 4 else 2) [] s
    else
      let im := readImage (areaByte s) x
      let r := stepTwo (areaByte s) s.mgmt.loadLen s
      if r = 0 then modStore (fun u => { u with
        loading := some im, loadBank := BitVec.ofNat 2 (otherBank s), purpose := 0,
        loadFrom := some (sess.toNat, ident) }) s
      else
        let s := imageRefuse r im.digest (modMgmt (fun u => { u with load := none }) s)
        tilostAnswer sess.toNat 0x0012 ident 6 [r.setWidth 32] s) s

/-- The bytes of bank `b`. -/
def bankByte (s : State) (b : Nat) : ImBytes := fun k => bacByte s.bac (b * 2 ^ 24 + k)

/-- A bank reads back as the image that was programmed into it: readable, with its digest (R196 step 4). -/
def readsBack (s : State) (b len : Nat) : Bool :=
  !bootBad s (b * 2 ^ 24) len && imBytes (bankByte s b) (imNat (bankByte s b) 0x18 4 + 8) 48 = imageDigest (bankByte s b)

/-- A passed load (R196 steps 4 and 5): the bank that is not active is erased, programmed, read back and sealed, and the image is
staged with its verdict; a failure leaves the bank without an image (reason 6). -/
def finishLoad (im : Image) (stored : Bool) (s : State) : State :=
  let b := s.store.loadBank.toNat
  let bytes := (List.range s.mgmt.loadLen).map (areaByte s)
  let len := s.mgmt.loadLen
  let s := eraseBank b (modMgmt (fun u => { u with load := none }) s)
  let t := programBank b im len bytes s
  if stored && readsBack t b len then
    loadAnswer 0x0012 0 (modStore (fun u => { u with staged := some u.loadBank, verdict := some (0, u.inv), reason := 0 }) t)
  else loadAnswer 0x0012 6 (imageRefuse 6 im.digest s)

/-! ## Activation (R197–R200, R320) -/

/-- A program or erase is in flight on some die (R198). -/
def anyDieOp (s : State) : Bool := s.piers.chans.any (fun c => c.2.dies.any (fun d => d.2.op.isSome))

/-- The first condition of R198 that an activation request fails before its verdict: 0x0A, 0x08, 0x09, 0x07, or 0. -/
def activateBar (s : State) : BitVec 8 :=
  let staged := s.store.staged.bind (fun b => sealedImage s b.toNat)
  if s.fcr.grave || s.store.graveRecs ≠ 0 || s.store.thermRecs ≠ 0 then 0x0A
  else if !(inHold s || s.reel.deck = 10 && stagedBytes s = 0 && !anyDieOp s) then 0x08
  else
    match staged with
    | none => 0x09
    | some im =>
      match flushInForce s with
      | none => 0
      | some f => if f.digest = im.digest then 0 else 0x07

/-- A command already waiting when an activation is accepted ends with 21h; a write waiting for its data leaves its zone under
R296 (R320, R321). -/
def endWaiting (c : Cmd) (s : State) : State :=
  match c.phase with
  | .waitLock | .waitOrder | .deferred | .held => completeCmd c (status 0 0x21) 0 0 s
  | .waitData => completeCmd c (status 0 0x21) 0 0 (partialWriteEnd c s)
  | _ => s

/-- An accepted activation (R200, R320): no capsule is passed on, waiting commands end with 21h, task sets stop. -/
def acceptActivation (b : BitVec 2) (s : State) : State :=
  let s := modXpt (fun u => { u with takes := false })
      (modStore (fun u => { u with act := .accepted, actBank := b, boot := false, fromQuiesce := s.reel.deck = 10, reason := 0 }) s)
  let s := (s.tables.cmds.filter (fun c => !c.internal)).foldl (fun s c => endWaiting c s) s
  stopTasks s

/-- ACTIVATE (R198, R552 0x0013): refused with the first reason that applies, accepted on a verdict for the hardware of
the moment, else checked again first. -/
def execActivate (sess : BitVec 2) (ident : BitVec 32) (s : State) : Out :=
  tilostRequest sess 0x0013 ident Served.enrolled (fun s =>
    if s.store.loading.isSome || s.store.act ≠ .none then tilostAnswer sess.toNat 0x0013 ident 4 [] s
    else
      let r := activateBar s
      let b := s.store.staged.getD 0
      let im := bankImage s b.toNat
      if r ≠ 0 then
        tilostAnswer sess.toNat 0x0013 ident 6 [r.setWidth 32] (imageRefuse r ((im.map (fun x => x.digest)).getD 0) s)
      else if s.store.verdict = some (0, s.store.inv) then
        acceptActivation b (tilostAnswer sess.toNat 0x0013 ident 0 [0] s)
      else (modStore (fun u => { u with loading := im, loadBank := b, purpose := 1, loadFrom := some (sess.toNat, ident) }) s)) s

/-- The image of a power-up activation (R180, R199): the sequencer stands, so the activation goes on at once. -/
def acceptBoot (b : BitVec 2) (s : State) : State :=
  modStore (fun u => { u with act := .accepted, actBank := b, boot := true, fromQuiesce := false, reason := 0 }) s

/-- The boot ends in Hold (R201, R619): stage 9, the built-in Hold deck runs. -/
def bootToHold (s : State) : State := startBuiltIn 0 (holdDeck s) (modSys (fun u => { u with stage := 9 }) s)

/-! ## The stop of the sequencer (R95, R96, R199, R320) -/

/-- A command counts as parsed and outstanding (R320): one whose end is open. Asynchronous Event Requests, which wait for a
notice and not for the image, do not count. DEDUCED, log entry 99. -/
def outstanding (c : Cmd) : Bool := c.phase ≠ .received && c.phase ≠ .ended && !(c.admin && c.opcode = 0x0C)

/-- Nothing holds the stop of the sequencer (R320): no parsed command, no staged data, no read data without its
acknowledgment. DESIGN CHOICE, log entry 41. -/
def maySequencerStop (s : State) : Bool :=
  s.store.act = .accepted && !s.tables.cmds.any outstanding && stagedBytes s = 0 &&
    !s.xpt.conns.any (fun e => e.2.isOpen && e.2.unack.any (fun r => r.frame.src.isSome))

/-- The bundles a code section puts into a spindle's program memory (R95, R183). -/
def putCode (a : Nat) : List (BitVec 128) → SMap (BitVec 128) → SMap (BitVec 128)
  | [], m => m
  | w :: ws, m => putCode (a + 1) ws (mset 0 a w m)

/-- Spindle `n` as an activation leaves it (R95, R96, R199): memories loaded from the image, every register 0. -/
def loadSpindle (im : Image) (n : Nat) (x : Spindle) : Spindle :=
  let pm := im.code.foldl (fun m c => if bit c.mask n then putCode c.addr c.words m else m) []
  let sc := im.scratch.foldl (fun m c => if bit c.mask n then putBytes c.addr c.bytes m else m) []
  { corr := x.corr, ovr := x.ovr, lastEnd := x.lastEnd, pm := pm, scratch := sc, rxq := x.rxq }

/-- Steps 1 to 5 of R199, with the image `im`. -/
def stopAndLoad (im : Image) (s : State) : State :=
  let s := dropRequest true s
  let old := s.reel.deck
  let s := modReel (fun u => { u with
        run := false, turn := 0, cycle := 0, commitDue := false, req := none, pend := 0xF, grants := [],
        early := [] }) s
  let s := (List.range (nSpindles s)).foldl (fun s n => modSpn n (loadSpindle im n) s) s
  let keep := s.store.boot && (s.sys.strap = 1 || s.sys.strap = 2)
  let s := modStore (fun u => { u with
        running := some im, runBank := u.actBank, act := .stopped,
        recBank := if keep then u.recBank else u.actBank, recDig := if keep then u.recDig else im.digest,
        staged := if u.staged = some u.actBank then none else u.staged }) s
  let s := if keep then s else writeSelect s
  event 0x0607 [0, 0, 0, 0, lo32 im.digest] (modReel (fun u => { u with deck := old }) s)

/-! ## The floor and the key ring (R193–R195, R550) -/

/-- RAISE_FLOOR (R195, R552 0x0014). DEDUCED, log entry 70. -/
def execRaiseFloor (sess : BitVec 2) (ident : BitVec 32) (v : BitVec 16) (s : State) : Out :=
  tilostRequest sess 0x0014 ident Served.enrolled (fun s =>
    match s.store.running with
    | none => tilostRefuse sess.toNat 0x0014 ident s
    | some im =>
      if im.secver.toNat < v.toNat then tilostRefuse sess.toNat 0x0014 ident s
      else tilostAnswer sess.toNat 0x0014 ident 0 []
        (writeSelect (modStore (fun u => { u with floor := if u.floor.toNat < v.toNat then v else u.floor }) s))) s

/-- A record may change its slot: not slot 0, signed by another key, and a revoked slot only by Zeluk's key (R194). DEDUCED, log entry 71. -/
def ringSlotOk (slot : BitVec 3) (signer : Nat) : Bool :=
  decide (1 ≤ slot.toNat) && decide (slot.toNat ≤ 4) && signer ≠ slot.toNat

/-- A record's change of the ring; none where R194 bars it. -/
def ringChange (op : RingOp) (signer : Nat) (s : State) : Option State :=
  match op with
  | .addKey slot x y =>
    if ringSlotOk slot signer && (signer = 0 || !(mget {} s.store.ring slot.toNat).revoked) then
      some (modStore (fun u => { u with ring := mset {} slot.toNat { present := true, x := x, y := y } u.ring }) s)
    else none
  | .revokeKey slot =>
    if ringSlotOk slot signer then
      some (modStore (fun u => { u with ring := mmod {} slot.toNat (fun k => { k with revoked := true }) u.ring }) s)
    else none
  | .addHash h =>
    if s.store.hashes.contains h then some s
    else if 8 ≤ s.store.hashes.length then none
    else some (modStore (fun u => { u with hashes := u.hashes ++ [h] }) s)
  | .removeHash h => some (modStore (fun u => { u with hashes := u.hashes.erase h }) s)

/-- KEY_RING_RECORD (R193, R194, R550, R552 0x0030): the record's bytes, signed with r and s by ring key `signer`, say `op`; the ring is
written as it then stands. DEDUCED, log entry 71. -/
def execKeyRingRecord (sess : BitVec 2) (ident : BitVec 32) (op : RingOp) (signer : BitVec 3) (signed : List (BitVec 8))
    (r sg : BitVec 384) (s : State) : Out :=
  tilostRequest sess 0x0030 ident Served.any (fun s =>
    if !ringHolds s signer.toNat then tilostAnswer sess.toNat 0x0030 ident 6 [3] s
    else if !ecdsaVerify (ringKey s signer.toNat) (sha384 signed) r.toNat sg.toNat then tilostAnswer sess.toNat 0x0030 ident 6 [2] s
    else match ringChange op signer.toNat s with
      | none => tilostAnswer sess.toNat 0x0030 ident 6 [3] s
      | some s => tilostAnswer sess.toNat 0x0030 ident 0 [] (writeRing s)) s

end Sys2Proof.Machine
end

