-- ==== Sys2Proof/Machine/Power.lean ====
section
/-! DEFINITION. Supply, clocks, resets, boot stages, the end of a power-fail flush and what follows it, thermal shutdown and
its restart, the flash temperature round and the die-to-die links (chapters 1, 13 and 15). -/

namespace Sys2Proof.Machine

/-! ## Registers shown elsewhere (R33, R639–R641) -/

/-- SYS_ID (R33). -/
def sysId (s : State) : BitVec 32 := 0x09640000 ||| bfld s.varB 8 ||| (Config.stepLessOne.setWidth 32 + 1)

/-- SYS_BOOT (R639). -/
def sysBoot (s : State) : BitVec 32 := fld s.sys.bootErr 8 ||| s.sys.stage.setWidth 32

/-- CLK_STAT (R640). -/
def clkStat (c : Clk) : BitVec 32 :=
  fld c.netBad 8 ||| bfld c.net1Rng 6 ||| bfld c.net1Miss 5 ||| bfld c.net0Rng 4 ||| bfld c.net0Miss 3 ||| bfld c.sysRng 2 |||
    bfld c.sysMiss 1 ||| bfld c.xtal 0

/-- PWR_STAT (R641): PENDING while a flush is in force (R634). -/
def pwrStat (s : State) : BitVec 32 :=
  fld s.pwr.flush 30 ||| bfld (flushInForce s).isSome 29 ||| bfld s.pwr.damage 28 ||| fld s.pwr.trigger 24 ||| bfld s.pwr.pfn 0

/-! ## Resets (R622–R624) -/

/-- The keys the resident OS holds wrapped in the system region: those in force once the boot has unwrapped them (R430). DEDUCED, log entry 120. -/
def storedKeys (s : State) : SMap KeySlot :=
  if s.sys.stage = 9 then
    s.ciph.slots.filterMap (fun e => if e.2.use = 0 then none else
      some (e.1, { key := e.2.key, use := e.2.use, vc := e.2.vc, limit := e.2.limit }))
  else s.ciph.stored

/-- The media tables across a reset (R371, R623, R634): flash, the tables and the staging directory of a flush in force
stay; what only DRAM held does not. -/
def mediaAfter (s : State) : Media :=
  let keep := (flushInForce s).isSome
  let m := s.media
  { m with staged := 0, limit := 0, share := [], used := [], rows := if keep then m.rows.map (fun r => { r with sent := false }) else [],
           buf := [],
           sanitize := false, rebuild := m.rebuild, unrecov := false,
           ruLbas := if keep then m.ruLbas else [] }

/-- The piers across a reset (R623): the pages programmed stay; a warm reset keeps fences and Lost dies. -/
def piersAfter (warm : Bool) (s : State) : Piers :=
  { chans := if warm then s.piers.chans.map (fun e =>
      if e.2.state = 3 then (e.1, { e.2 with irq := 0, told := 0, temps := [] })
      else (e.1, { lost := e.2.lost })) else []
    data := s.piers.data.filter (fun e => decide (e.1 < 2 ^ 60)) }

/-- What the boot array holds, which no reset changes (R623). -/
def storeAfter (s : State) : Store :=
  { bank1 := s.store.bank1, bank2 := s.store.bank2, recBank := s.store.recBank, recDig := s.store.recDig, floor := s.store.floor,
    ring := s.store.ring, hashes := s.store.hashes, board := s.store.board, graveRecs := s.store.graveRecs,
    thermRecs := s.store.thermRecs, remap := s.store.remap, inv := s.store.inv + 1 }

/-- Fault collection across a reset: GRAVE and its latch stay at a warm reset (R566, R623). -/
def fcrAfter (warm : Bool) (f : Fcr) : Fcr :=
  if warm then { grave := f.grave, more := f.more, steps := f.steps, graveCause := f.graveCause, graveGroup := f.graveGroup } else {}

/-- The watcher across a reset: WATCH_STAT stays at a warm reset (R530, R623); the inputs are levels of the board. -/
def watchAfter (warm : Bool) (w : Watch) : Watch := { stat := if warm then w.stat else 0, input := w.input }

/-- The supply block across a reset: the flush records, the emergency region and the pins' levels stay. -/
def pwrAfter (p : Pwr) : Pwr :=
  { pfn := p.pfn, mv := p.mv, seq := p.seq, records := p.records, recCount := p.recCount, emergency := p.emergency, region := p.region }

/-- The directory, which the system region keeps (R606). DEDUCED, log entry 118. -/
def spanAfter (x : Span) : Span := { dir := x.dir, dirv := x.dirv }

/-- The sensors across a reset: a faulty mark clears at the next power-up (R581). -/
def thermAfter (warm : Bool) (t : Thm) : Thm :=
  { sens := if warm then (t.sens.filter (fun e => e.2.faulty)).map (fun e => (e.1, { faulty := true })) else [] }

/-- A reset takes effect (R622, R623): `warm` keeps what R623 keeps at a warm reset. Boot stage 1 starts when `ready`. -/
def resetDevice (warm : Bool) (cause : BitVec 2) (ready : Bool) (s : State) : State :=
  let s := bacAbandon s
  let s := if warm then recordAll ((List.range 4).foldl (fun s n => closeSession n 5 s) s) else s
  let old := sysBoot s
  let n : State :=
    { varB := s.varB, draws := s.draws, now := if warm then s.now else 0, pending := s.pending
      evr := if warm then s.evr else {}
      fcr := fcrAfter warm s.fcr
      watch := watchAfter warm s.watch
      thm := thermAfter warm s.thm
      bac := { arr := s.bac.arr, marks := s.bac.marks, bad := s.bac.bad }
      reel := { condRebuild := s.reel.condRebuild }
      sys := { rstc := cause }
      clk := if warm then { s.clk with netBad := 0 } else {}
      pwr := pwrAfter s.pwr
      span := spanAfter s.span
      store := storeAfter s
      pins := { s.pins with resetReady := ready }
      mgmt := { out := s.mgmt.out, link := s.mgmt.link }
      piers := piersAfter warm s
      media := { mediaAfter s with cycles := if warm then s.media.cycles else s.media.cycles + 1 }
      ciph := { stored := storedKeys s } }
  event 0x0201 [cause.setWidth 32, old] n

/-- The main supplies are off: the always-on domain has none (R614), or a thermal shutdown has ended and waits for its restart (R588). -/
def unpowered (s : State) : Bool := !s.pwr.aon || (s.thm.shutdown && s.pwr.flush ≠ 1)

/-- A warm reset is asked for (R624): a flush first where an image has run since the last reset, else at once. A device whose main supplies
are off has nothing to reset: it waits for its power-up (R588, R589, R614). DEDUCED, log entry 121. -/
def warmReset (cause : BitVec 2) (s : State) : State :=
  if unpowered s then s
  else
  let s := startFlush 3 s
  if s.pwr.flush = 1 then modPwr (fun u => { u with warmAfter := true, warmCause := cause }) s
  else resetDevice true cause s.pins.resetN s

/-- POWER_UP (R613, R614, R622): VIN rises through 8.0 V while the AON domain has no supply. DEDUCED, log entry 121. -/
def execPowerUp (s : State) : Out :=
  if s.pwr.aon then .next s else .next (resetDevice false 0 s.pins.resetN s)

/-- VIN_LOW (R613, R641): VIN below 10.8 V. -/
def execVinLow (mv : BitVec 16) (s : State) : Out :=
  .next (watchAssert 17 (modPwr (fun u => { u with mv := mv, irq := setBit u.irq 2 }) s))

/-- INTERNAL_POWER_FAIL (R613, R625, R642): a flush starts; without PWR_FAIL_N, a Degraded fault on group 29. -/
def execInternalPowerFail (mv : BitVec 16) (s : State) : Out :=
  let s := modPwr (fun u => { u with mv := mv }) s
  .next (startFlush 2 (if s.pwr.pfn then raiseFault 29 2 s else s))

/-- BROWN_OUT (R613, R614, R632): the AON domain resets; no part of the device is powered until the next power-up. A flush that runs is cut
short. DEDUCED, log entry 121. -/
def execBrownOut (s : State) : Out :=
  if !s.pwr.aon then .next s
  else
    let s := bacAbandon (if s.pwr.flush = 1 && s.reel.deck = 0xE then flushCut s else s)
    .next (modPwr (fun u => { u with aon := false, imageRan := false, mv := 0, flush := 0 }) (modReel (fun u => { u with run := false })
        (modPins (fun u => { u with resetReady := false }) { s with spindles := [], cores := [] })))

/-- A rail of R615: 0 VAON, 1 VCORE and VDST, 2 VDRAM, 3 VPIER, 4 VSERDES, 5 VIO_F. -/
abbrev Rail := BitVec 3

/-- RAIL_OUT_OF_REGULATION (R615, R621, R642, R643): boot error 0x03 in stage 2, a Grave fault after it; a rail that was switched off is
none. DEDUCED, log entry 121. -/
def execRailOutOfRegulation (rail : BitVec 3) (mv : BitVec 16) (s : State) : Out :=
  if unpowered s then .next s
  else if s.sys.stage = 2 then
    .next (event 0x0207 [rail.setWidth 32, mv.setWidth 32] (modSys (fun u => { u with bootErr := 3 }) s))
  else if 2 < s.sys.stage.toNat then .next (raiseFault 30 4 (eventC 0x0207 4 [rail.setWidth 32, mv.setWidth 32] s))
  else .next s

/-! ## Clocks (R28, R616, R617, R640) -/

/-- The flags of reference `r` in a window's findings, as CLK_STAT has them: 0 crystal, 1 SYS, 2 NET0, 3 NET1. -/
def refBits (r : Nat) (bad : BitVec 7) : Bool × Bool :=
  if r = 0 then (bit bad 0, false) else (bit bad (2 * r - 1), bit bad (2 * r))

/-- Put a reference's flags (missing, out of range) into CLK_STAT. -/
def putRef (r : Nat) (m g : Bool) (c : Clk) : Clk :=
  if r = 0 then { c with xtal := m }
  else if r = 1 then { c with sysMiss := m, sysRng := g }
  else if r = 2 then { c with net0Miss := m, net0Rng := g }
  else { c with net1Miss := m, net1Rng := g }

/-- A reference is shown bad. -/
def refBad (r : Nat) (c : Clk) : Bool :=
  if r = 0 then c.xtal else if r = 1 then c.sysMiss || c.sysRng else if r = 2 then c.net0Miss || c.net0Rng else c.net1Miss || c.net1Rng

/-- Hold the boot with an error (R621). -/
def bootError (e : BitVec 8) (s : State) : State := modSys (fun u => { u with bootErr := e }) s

/-- A reference found bad holds the device in reset (R28, R616, R621): any of them while boot stage 1, 2 or 3 runs, the crystal and
REFCLK_SYS until the boot has ended. DEDUCED, log entry 119. -/
def bootHeld (r : Nat) (s : State) : Bool :=
  s.pwr.aon && s.sys.bootErr = 0 && (decide (s.sys.stage.toNat ≤ 3) || (decide (r < 2) && decide (s.sys.stage.toNat < 9)))

/-- One reference is judged over a window (R616): bad at once, good after two windows without a condition. -/
def judgeRef (bad : BitVec 7) (s : State) (r : Nat) : State :=
  if r = 3 && s.varB then s
  else
    let b := refBits r bad
    if b.1 || b.2 then
      let was := refBad r s.clk
      let s := modClk (fun _ => { putRef r b.1 b.2 s.clk with good := mset 0 r 0 s.clk.good }) s
      let s := if r = 1 then watchAssert 19 s else s
      if bootHeld r s then bootError 1 s
      else if 2 ≤ r && !was && 3 < s.sys.stage.toNat then
        let s := modClk (fun u => { u with netBad := setBit u.netBad (r - 2) }) s
        raiseFault 31 3 (eventC 0x0160 3 [clkStat s.clk] s)
      else s
    else
      let n := mget 0 s.clk.good r + 1
      let s := modClk (fun u => { u with good := mset 0 r (min n 2) u.good }) s
      if n < 2 then s
      else
        let s := modClk (fun _ => putRef r false false s.clk) s
        if r = 1 then watchRelease 19 s else s

/-- REFERENCE_CLOCK_CHECK (R616, R640, R642): the findings of one 1 ms window, numbered as CLK_STAT bits 6:0. DEDUCED, log entry 119. -/
def execReferenceClockCheck (bad : BitVec 7) (s : State) : Out :=
  .next ([0, 1, 2, 3].foldl (judgeRef bad) s)

/-- Every reference is good (R616). -/
def clocksGood (s : State) : Bool := [0, 1, 2, 3].all (fun r => !refBad r s.clk)

/-- STATUS_FRAME (R617): sent before stage 6 and throughout a boot hold, unless the crystal and REFCLK_SYS are both bad. -/
def execStatusFrame (s : State) : Out :=
  if !s.pwr.aon || (6 ≤ s.sys.stage.toNat && s.sys.bootErr = 0) || (refBad 0 s.clk && refBad 1 s.clk) then .next s
  else .next (modMgmt (fun u => { u with frames := u.frames + 1, frame := [sysId s, sysBoot s, clkStat s.clk, s.sys.rstc.setWidth 32] }) s)

/-! ## Boot stages (R494, R619–R621, R634) -/

/-- The boot goes on: supplied, not held in reset, no error, not yet running. -/
def bootRuns (s : State) : Bool :=
  s.pwr.aon && s.pins.resetReady && s.sys.bootErr = 0 && decide (s.sys.stage.toNat < 9) && !s.thm.shutdown

/-- The next stage starts. -/
def nextStage (s : State) : State := modSys (fun u => { u with stage := u.stage + 1 }) s

/-- Stage 3 ends (R34): every die-to-die link is trained. -/
def linksTrained (s : State) : State :=
  modSys (fun u => { u with dramUp := if s.varB then 3 else 15, netUp := true, pierAUp := true, pierBUp := !s.varB }) s

/-- The first byte of resident-firmware copy k in bank 0 (R540). -/
def fwAt (k : Nat) : Nat := k * 2 ^ 23

/-- A byte of a copy. -/
def fwByte (s : State) (k : Nat) : ImBytes := fun i => bacByte s.bac (fwAt k + i)

/-- A copy has been written since the device was made. -/
def fwWritten (s : State) (k : Nat) : Bool := s.bac.marks.any (fun e => decide (e.1 / 2 ^ 18 = k))

/-- The boot sequencer accepts a copy (R620): its header's magic, a key of the fused hash, the digest of what follows the header, and the signature
over it. DEDUCED, log entry 157. -/
def fwOk (s : State) (k : Nat) : Bool :=
  let rd := fwByte s k
  let len := imNat rd 12 4
  let key := imBytes rd 16 96
  imNat rd 0 4 = 0x3146525A && decide (256 ≤ len) && decide (len ≤ 2 ^ 23) && !bootBad s (fwAt k) len &&
    sha384 key = beBytes 48 Config.fusedHash.toNat &&
    imBytes rd 112 48 = sha384 (imBytes rd 256 (len - 256)) &&
    ecdsaVerify (beNat (imBytes rd 16 48), beNat (imBytes rd 64 48)) (imBytes rd 112 48) (beNat (imBytes rd 160 48)) (beNat (imBytes rd 208 48))

/-- The copies the boot sequencer accepts, as sequence number and firmware level (R620): the written ones from the array; of those as the device was
made, whose bytes the spec does not give, what the sequencer finds. DESIGN CHOICE, log entry 157. -/
def fwFound (b : BootIn) (s : State) : List (Nat × BitVec 16) :=
  ((List.range 2).filter (fun k => fwWritten s k && fwOk s k)).map (fun k =>
    (imNat (fwByte s k) 8 4, BitVec.ofNat 16 (imNat (fwByte s k) 4 4))) ++
  (if fwWritten s 0 && fwWritten s 1 then [] else (b.fw.map (fun f => (b.seq.toNat, f.1))).toList)

/-- The accepted copy with the higher sequence number (R620): its level and where core 0 starts in it, which the header does not say. -/
def firmwareFound (b : BootIn) (s : State) : Option (BitVec 16 × BitVec 40) :=
  match fwFound b s with
  | [] => none
  | x :: xs => some ((xs.foldl (fun m y => if m.1 < y.1 then y else m) x).2, ((b.fw.map (·.2)).getD 0))

/-- Stage 4 ends with a firmware copy (R494, R508, R511, R620, R671, R673): the remap is applied, core 0 starts, REN and the
watcher bits 31:28 are set. -/
def startFirmware (b : BootIn) (level : BitVec 16) (start : BitVec 40) (s : State) : State :=
  let s := readRemapTable s
  let s := modSys (fun u => { u with
        fwLevel := level, remNative := BitVec.ofNat 10 s.store.remap.length, remFuse := b.fuse,
        remIgn := b.ignored }) s
  let s := modCore 0 (fun _ => startedCore (start.setWidth 64)) s
  let s := firmwareWatch 0 s
  (modFcr (fun u => { u with ren := true }) (modWatch (fun u => { u with en := u.en ||| 0xF0000000, esc := u.esc ||| 0xF0000000 }) s))

/-- A stack after its training (R494, R497): lost below 24 steps, else running with every unit written. -/
def trainStack (b : BootIn) (s : State) (n : Nat) : State :=
  let (w, t) := b.perStack.getD n (0, 0)
  if w < 24 then stackLost n w s
  else stackTemp n t (modDrc n (fun d => { d with state := 2, margin := w, init := true }) s)

/-- The self-test's result (R495, R496, R505, R568): SYS_BIST and event 0x0130; a failed checker is a Grave fault, boot error
0x05 and Hold. -/
def selfTestDone (fails : BitVec 14) (s : State) : State :=
  let s := modSys (fun u => { u with bistDone := true, bistPass := fails = 0, bistFail := fails })
      (modFcr (fun u => { u with selfTest := fails = 0 }) s)
  let s := event 0x0130 [bfld true 31 ||| bfld (fails = 0) 30 ||| fails.setWidth 32] s
  if fails = 0 then nextStage s else bootToHold (bootError 5 (raiseFault 21 4 s))

/-- Every channel has reached STATE 2 or 3 (R381). -/
def channelsDone (s : State) : Bool := (List.range (nChannels s)).all (fun c => 2 ≤ (chan s c).state)

/-- The flushes in force (R634). -/
def flushesInForce (s : State) : List FlushRec :=
  s.pwr.records.filter (fun f => f.kind = 1 && !(s.pwr.records.any (fun g => g.kind = 3 && g.seq = f.seq)))

/-- A flush in force is restored to DRAM (R634, R636, R642): its staged units and their bytes, a Degraded fault where its end record is
missing, and a power-up counts as an unsafe shutdown. -/
def restoreFlush (unread : List Nat) (s : State) : State :=
  let l := flushesInForce s
  if l = [] then s
  else
    let cut := l.any (fun f => !(s.pwr.records.any (fun g => g.kind = 2 && g.seq = f.seq)))
    let s := modMedia (fun u => { u with
        staged := (l.map (fun f => f.bytes)).sum,
        unsafeShut := u.unsafeShut + (if s.sys.rstc = 0 || s.sys.rstc = 3 then 1 else 0) }) s
    let s := restoreUnits unread s
    if cut then raiseFault 28 2 s else s

/-- Bank `b` holds an image whose seal matches and that passes step 2 of R196: its refusal reason, 0 for none. DEDUCED, log entry 68. -/
def bootReason (b : Nat) (s : State) : BitVec 8 :=
  match sealedImage s b with
  | none => 6
  | some _ => if bootBad s (b * 2 ^ 24) (arrNat s (sealAt b + 4) 4) then 2 else stepTwo (bankByte s b) (arrNat s (sealAt b + 4) 4) s

/-- The bank BOOT_SEL and the record choose (R180); none with the straps at 11 or no record. -/
def bootBank (s : State) : Option Nat :=
  if s.sys.strap = 1 then some 1 else if s.sys.strap = 2 then some 2
  else if s.sys.strap = 0 && s.store.recBank ≠ 0 then some s.store.recBank.toNat else none

/-- Stage 8 (R180, R196, R201, R430, R567, R635): records are checked, keys unwrapped, the staged image found and the boot
image chosen for the checker; otherwise the device stays in Hold. DEDUCED, log entry 68. DEDUCED, log entry 69. -/
def chooseImage (s : State) : State :=
  let s := readSelect s
  let recs := s.store.graveRecs ≠ 0 || s.store.thermRecs ≠ 0
  let s := if recs then raiseFault 24 2 s else s
  let s := modCiph (fun u => { u with slots := u.stored }) s
  let ok := fun (k : Nat) => bootReason k s = 0
  let stage := fun (k : Nat) (s : State) => modStore (fun u => { u with staged := if ok k then some (BitVec.ofNat 2 k) else none }) s
  let first := if s.store.recBank = 2 then 2 else 1
  match bootBank s with
  | none => bootToHold (stage (if ok first then first else 3 - first) s)
  | some k =>
    if recs || s.fcr.grave then bootToHold (stage (if ok first then first else 3 - first) s)
    else
      let s := stage (3 - k) s
      let r := bootReason k s
      let im := bankImage s k
      let dig := (im.map (fun x => x.digest)).getD 0
      if r ≠ 0 then bootToHold (imageRefuse r dig s)
      else if (flushInForce s).any (fun f => f.digest ≠ dig) then bootToHold (imageRefuse 7 dig s)
      else modStore (fun u => { u with loading := im, loadBank := BitVec.ofNat 2 k, purpose := 2, loadFrom := none }) s

/-- The flush keys are generated at stage 6 of every boot (R628). -/
def flushKeysMade (s : State) : State :=
  let s := modPwr (fun u => { u with keysReady := true, flushKeys := (Config.random256 s.draws, Config.random256 (s.draws + 1)) }) s
  { s with draws := s.draws + 2 }

/-- BOOT_STAGE_COMPLETE (R494, R495, R616–R621, R634): the stage that runs ends with what the hardware finds. -/
def execBootStageComplete (b : BootIn) (s : State) : Out :=
  if !bootRuns s then .next s
  else if s.sys.stage = 1 then
    if !clocksGood s then .next (bootError 1 s)
    else .next (nextStage (modSys (fun u => { u with strap := s.pins.bootSel }) s))
  else if s.sys.stage = 2 then .next (nextStage (modPwr (fun u => { u with rails := true }) s))
  else if s.sys.stage = 3 then if b.links then .next (nextStage (linksTrained s)) else .next (bootError 4 s)
  else if s.sys.stage = 4 then
    match firmwareFound b s with
    | none => .next (bootError 2 s)
    | some (level, start) => .next (nextStage (startFirmware b level start s))
  else if s.sys.stage = 5 then .next (selfTestDone b.fails ((List.range (nStacks s)).foldl (trainStack b) s))
  else if s.sys.stage = 6 then
    if channelsDone s then .next (nextStage (inventoryChanged (flushKeysMade (readBoard (readRing s))))) else .next s
  else if s.sys.stage = 7 then .next (nextStage (restoreFlush b.unread s))
  else if s.store.loading.isSome || s.store.act ≠ .none then .next s
  else .next (chooseImage s)

/-- The failed stage restarts: with a reference still bad, the device stays held with error 0x01 (R28, R616). -/
def retryStage (s : State) : State :=
  bootError (if clocksGood s || (3 < s.sys.stage.toNat && !refBad 0 s.clk && !refBad 1 s.clk) then 0 else 1) s

/-- BOOT_RETRY (R621): every 1 s a boot held with error 0x01, 0x03 or 0x04 restarts the failed stage. -/
def execBootRetry (s : State) : Out :=
  if s.sys.bootErr = 1 || s.sys.bootErr = 3 || s.sys.bootErr = 4 then .next (retryStage s) else .next s

/-- An input's filter (R622, R625, R664): a pulse of `ns` is ignored below `lo`, taken from `hi` on, and in between the spec
leaves it open. DESIGN CHOICE, log entry 123. -/
def pulseTaken (lo hi ns : Nat) (s : State) : Bool × State :=
  if ns < lo then (false, s) else if hi ≤ ns then (true, s) else drawBool s

/-- WARM_RESET (R622, R624, R664): RESET_N is low for `ns` and, where that is taken, held low. -/
def execWarmReset (ns : BitVec 32) (s : State) : Out :=
  let (taken, s) := pulseTaken 1000 10000 ns.toNat s
  if taken then .next (warmReset 1 (modPins (fun u => { u with resetN := false, resetReady := false }) s)) else .next s

/-- A write to SYS_RST (R622, R639). -/
def softwareReset (v : BitVec 32) (s : State) : State := if v = 0x52535431 then warmReset 2 s else s

/-- SOFTWARE_RESET (R622). -/
def execSoftwareReset (s : State) : Out := .next (softwareReset 0x52535431 s)

/-- RESET_N_RELEASE (R624): boot stage 1 may start once the reset has taken effect. -/
def execResetNRelease (s : State) : Out :=
  .next (modPins (fun u => { u with resetN := true, resetReady := u.resetReady || !s.pwr.warmAfter }) s)

/-- The supply's failure is taken (R529, R625): the pin is low, input 16 asserts, a flush starts. -/
def powerFail (s : State) : State :=
  let s := modPins (fun u => { u with pfN := false }) (modPwr (fun u => { u with pfn := false }) s)
  startFlush 1 (watchAssert 16 s)

/-- POWER_FAIL (R529, R625, R664): PWR_FAIL_N is low for `ns`. -/
def execPowerFail (ns : BitVec 32) (s : State) : Out :=
  let (taken, s) := pulseTaken 500 1000 ns.toNat s
  if taken then .next (powerFail s) else .next s

/-- PWR_FAIL_N_RISE (R633, R641). -/
def execPwrFailNRise (s : State) : Out :=
  .next (watchRelease 16 (modPins (fun u => { u with pfN := true }) (modPwr (fun u => { u with pfn := true }) s)))

/-! ## Thermal shutdown (R581, R586–R589) -/

/-- Steps 4 and 5 of a thermal shutdown (R588): the record, then every supply but the AON domain's off, in reset; no image
runs before the next power-up (R625). -/
def thermalOff (s : State) : State :=
  let s := writeRecord 2 s.thm.tripped.toNat 0 s.fcr.steps.toNat (stagedBytes s) s
  (modReel (fun u => { u with run := false }) (modPins (fun u => { u with resetReady := false })
      (modPwr (fun u => { u with rails := false, imageRan := false, thermAfter := false }) { s with cores := [], spindles := [] })))

/-- A thermal shutdown starts (R588): the pins, no further capsules, the flush of staged data, then its last steps. -/
def thermalShutdown (n : Nat) (s : State) : State :=
  if s.thm.shutdown then s
  else
    let s := modThm (fun u => { u with shutdown := true, tripped := BitVec.ofNat 8 n }) (modXpt (fun u => { u with takes := false }) s)
    let s := modFcr (fun u => { u with steps := if u.grave then u.steps else 1 }) s
    let s := if stagedBytes s = 0 then s else startFlush 5 s
    if s.pwr.flush = 1 then modPwr (fun u => { u with thermAfter := true }) s
    else thermalOff (modFcr (fun u => { u with steps := setBit u.steps 2 }) s)

/-- COMPARATOR_TRIP (R580, R581, R586): the comparator of one of sensors 0–27; a faulty sensor's is ignored. DESIGN CHOICE, log entry 127. -/
def execComparatorTrip (n : BitVec 5) (s : State) : Out :=
  if 27 < n.toNat then .fault .noSuchUnit
  else if (sensorOf s n.toNat).faulty || (s.varB && decide (20 ≤ n.toNat ∧ n.toNat ≤ 23)) then .next s
  else .next (thermalShutdown n.toNat (watchAssert 18 s))

/-- THERMAL_RESTART (R589): the AON domain runs the power-up sequence and records event 0x0307. -/
def execThermalRestart (s : State) : Out :=
  if !s.pwr.aon || !s.thm.shutdown || s.pwr.flush = 1 then .next s
  else
    let line := s.store.thermRecs - 1
    let sensor := s.thm.tripped
    .next (event 0x0307 [w32 line, sensor.setWidth 32] (resetDevice false 3 s.pins.resetN s))

/-- WATCHER_INPUT (R529, R530, R559): an input of the watcher asserts or deasserts; input 18 also starts a thermal
shutdown, inputs 24–27 never assert. -/
def execWatcherInput (n : BitVec 5) (asserted : Bool) (s : State) : Out :=
  if 24 ≤ n.toNat ∧ n.toNat ≤ 27 then .next s
  else if !asserted then .next (watchRelease n.toNat s)
  else
    let s := watchAssert n.toNat s
    .next (if n = 18 then thermalShutdown s.thm.hot.toNat s else s)

/-! ## The end of a flush and its retirement (R624, R626, R633, R635, R638) -/

/-- The end record is written (R626 steps 5 and 6): event 0x0203, and Hold at the next commit. DEDUCED, log entry 122. -/
def flushEnded (units : BitVec 32) (s : State) : State :=
  let begin_ := (flushInForce s)
  let digest := (begin_.map (fun f => f.digest)).getD 0
  let s := writeFlushRec { kind := 2, trigger := s.pwr.trigger.setWidth 8, seq := s.pwr.seq, digest := digest, units := units.toNat } [] s
  let s := modPwr (fun u => { u with flush := 2, units := units, irq := setBit u.irq 1, emergency := u.emergency + units.toNat }) s
  let s := event 0x0203 [s.pwr.seq, units, usSince s s.pwr.since] s
  let s := dropRequest true s
  (modMedia (fun u => { u with staged := 0, used := [] })
      (modReel (fun u => { u with req := some { mode := 0, device := true, soon := true }, pend := 0 }) s))

/-- FLUSH_END (R624, R626, R633): the mover has written `units` units; what waited for the end follows. -/
def execFlushEnd (units : BitVec 32) (s : State) : Out :=
  if s.pwr.flush ≠ 1 || s.reel.deck ≠ 0xE || !s.reel.run then .next s
  else
    let had := stagedBytes s
    let s := flushEnded units (flushWrite units.toNat s)
    let s := if s.pwr.graveAfter || s.pwr.thermAfter then
        (modFcr (fun u => { u with steps := setBit (setBit u.steps 0) (if had = 0 then 2 else 1) }) s) else s
    if s.pwr.thermAfter then .next (thermalOff s)
    else
      let s := if s.pwr.graveAfter then graveFinish (modPwr (fun u => { u with graveAfter := false }) s) else s
      if s.pwr.warmAfter then .next (resetDevice true s.pwr.warmCause s.pins.resetN s) else .next s

/-- Retire a flush (R629, R638): the emergency region is erased and the retire record written. -/
def retireFlush (f : FlushRec) (s : State) : State :=
  let s := writeFlushRec { kind := 3, trigger := f.trigger, seq := f.seq, digest := f.digest } [] s
  let s := if (flushesInForce s) = [] then eraseRegion s else s
  modPwr (fun u => { u with recompute := true }) s

/-- REPLAY_RETIRE (R638, R643): every restored row has reached the FUA point; the flushes in force are retired and event
0x0204 recorded. -/
def execReplayRetire (s : State) : Out :=
  match flushInForce s with
  | none => .next s
  | some f =>
    if !s.pwr.replaying || s.media.rows ≠ [] then .next s
    else
      let s := (flushesInForce s).foldl (fun s g => retireFlush g s) s
      let s := modPwr (fun u => { u with replaying := false }) s
      .next (event 0x0204 [f.seq, w32 s.pwr.replayRows, w32 s.pwr.replayMoved] s)

/-- One damaged range is reported (R636): an entry of the Error Information log of the namespace's key home, event 0x0205,
and the health log's count; the range is poisoned. -/
def reportDamage (nsid : BitVec 32) (lba blocks : Nat) (s : State) : State :=
  let s := modMedia (fun u => { u with mediaErrs := u.mediaErrs + 1, poisonLbas := u.poisonLbas ++ [(nsid.toNat, lba, blocks)] }) s
  let s := match (nsOf s nsid.toNat).bind (fun x => x.home) with
    | none => s
    | some v => logError v.toNat { status := status 2 0x81, lba := lba, nsid := nsid } s
  let s := modPwr (fun u => { u with damage := true, irq := setBit u.irq 4 }) s
  event 0x0205 [nsid, w32 lba, w32 (lba / 2 ^ 32), w32 blocks] s

/-- The LBAs a staged row holds, as (namespace, first LBA, blocks). -/
def rowRange (s : State) (r : Row) : BitVec 32 × Nat × Nat :=
  match nsOf s r.nsid.toNat with
  | none => (r.nsid, 0, 0)
  | some x =>
    let n := r.bytes / lbaBytes x
    if r.ru then (r.nsid, (r.lbas.map (fun p => p.1)).headD 0, r.lbas.length)
    else (r.nsid, r.zone * zszeOf x + (r.upto - n), n)

/-- DISCARD_FLUSH (R635, R636, R552 0x0061): every staged LBA of the flush is reported damaged, the emergency region is
erased and the retire record written. -/
def execDiscardFlush (sess : BitVec 2) (ident : BitVec 32) (seq : BitVec 32) (s : State) : Out :=
  tilostRequest sess 0x0061 ident Served.enrolledHold (fun s =>
    match (flushesInForce s).find? (fun f => f.seq = seq) with
    | none => tilostRefuse sess.toNat 0x0061 ident s
    | some f =>
      let rows := s.media.rows
      let s := rows.foldl (fun s r => let x := rowRange s r; reportDamage x.1 x.2.1 x.2.2 s) s
      let s := modMedia (fun u => { u with rows := [], staged := 0, buf := [] }) s
      tilostAnswer sess.toNat 0x0061 ident 0 [] (retireFlush f s)) s

/-- CLEAR_RECORDS (R567, R552 0x0033): both record sectors are erased. -/
def execClearRecords (sess : BitVec 2) (ident : BitVec 32) (s : State) : Out :=
  tilostRequest sess 0x0033 ident Served.enrolledHold (fun s =>
    tilostAnswer sess.toNat 0x0033 ident 0 []
      (modBac (fun _ => bacErase (bank3 6 0) 131072 s.bac) (modStore (fun u => { u with graveRecs := 0, thermRecs := 0 }) s))) s

/-- BOARD_DESCRIPTION (R619, R552 0x0031): kept in bank 3 and used from the next power-up. -/
def execBoardDescription (sess : BitVec 2) (ident : BitVec 32) (ws : List (BitVec 32)) (s : State) : Out :=
  tilostRequest sess 0x0031 ident Served.enrolledHold (fun s =>
    tilostAnswer sess.toNat 0x0031 ident 0 [] (writeBoard (modStore (fun u => { u with board := ws }) s))) s

/-! ## The flash temperature round (R584) -/

/-- A temperature read of a die is posted for its housekeeping window, unless one waits. -/
def postTempRead (d : Nat) (s : State) : State :=
  if !(dieOf s d).fitted || isLost s d || s.piers.ops.any (fun x => x.fn = 3 && x.die = d) then s
  else modPiers (fun u => { u with ops := u.ops ++ [{ fn := 3, die := d, owner := 0x100 }] }) s

/-- A die whose last reading was FLASH_HI − 5 °C or more. -/
def hotDie (s : State) (d : Nat) : Bool :=
  (pierTemp s d).valid && decide (degC s.thm.cfgFlash - 5 ≤ degC (pierTemp s d).temp)

/-- FLASH_TEMPERATURE_ROUND (R584): at hank 256t of a round every die of target t is read; each 64 hanks the hot dies are. -/
def execFlashTemperatureRound (s : State) : Out :=
  let h := s.reel.hanks.toNat
  let s := if h % 4096 = 0 then (modThm (fun u => { u with reported := [] }) s) else s
  let s := if h % 256 = 0 then
      (List.range (nChannels s)).foldl (fun s c => postTempRead (c * 16 + h / 256 % 16) s) s else s
  let s := if h % 64 = 0 then
      (List.range (nChannels s * 16)).foldl (fun s d => if hotDie s d then postTempRead d s else s) s else s
  .next s

/-! ## Die-to-die links (R18, R34) -/

/-- Link k of SYS_LINKS.UNCORR exists: 0 pier A, 1 pier B, 2 network, 3–6 DRAM0–DRAM3. -/
def hasLink (s : State) (k : Nat) : Bool := decide (k < 7) && !(s.varB && (k = 1 || k = 5 || k = 6))

/-- DIE_LINK_FLIT_ERROR (R18, R34, R559): corrected inline and counted, or uncorrectable and a Severe fault. -/
def execDieLinkFlitError (k : BitVec 3) (uncorrectable : Bool) (s : State) : Out :=
  if !hasLink s k.toNat then .next s
  else if uncorrectable then .next (raiseFault 0 3 (modSys (fun u => { u with uncorr := setBit u.uncorr k.toNat }) s))
  else .next (modSys (fun u => { u with corrCnt := satInc u.corrCnt }) s)

/-- A link is down in SYS_LINKS. -/
def linkDown (k : Nat) (x : Sys) : Sys :=
  if k = 0 then { x with pierAUp := false } else if k = 1 then { x with pierBUp := false } else if k = 2 then { x with netUp := false }
  else { x with dramUp := clrBit x.dramUp (k - 3) }

/-- DIE_LINK_TRAINING_LOST (R18, R34, R559): after boot, a Grave fault. -/
def execDieLinkTrainingLost (k : BitVec 3) (s : State) : Out :=
  if !hasLink s k.toNat then .next s
  else
    let s := modSys (fun _ => linkDown k.toNat s.sys) s
    .next (if s.sys.stage = 9 then raiseFault 0 4 s else s)

end Sys2Proof.Machine
end

