-- ==== Sys2Proof/Machine/Span.lean ====
section
/-! DEFINITION. The span block: heartbeats, agreement and quorum, fencing and unfencing, span time and the SPAN_SYNC line,
coordinated mode switches and the namespace directory (chapter 14). -/

namespace Sys2Proof.Machine

/-- The member takes part in a span (R610). -/
def inSpan (s : State) : Bool := s.span.enable && s.span.cfgId ≠ 0

/-- Bits 63:0 of the active image's digest; 0 with no active image (R596). -/
def activeImage (s : State) : BitVec 64 := if inHold s then 0 else activeDigest s

/-- The checks of R597 a member fails, as the bits of SPAN_STAT.CAUSE: configuration 5, firmware 4, image 3, time 2. -/
def ownFails (s : State) : BitVec 6 :=
  let t : BitVec 6 := if s.span.lock && !s.span.syncf then 0 else 0x04
  match s.span.inForce with
  | none => 0x38 ||| t
  | some r =>
    (if r.varB = s.varB then 0 else 0x20) ||| (if r.fws.contains s.sys.fwLevel then 0 else 0x10) |||
    (if r.images.contains (activeImage s) then 0 else 0x08) ||| t

/-- A peer's last heartbeat agrees with the record (R597). -/
def beatAgrees (r : SpanRec) (b : Beat) : Bool :=
  b.fresh && b.digest = r.digest && b.varB = r.varB && r.fws.contains b.fw && r.images.contains b.image && b.lock && !b.fenced

/-- The configured members other than this one. -/
def peersOf (s : State) : List Nat := (List.range (s.span.count.toNat + 1)).filter (fun m => m ≠ s.span.member.toNat)

/-- The members of a list as bits. -/
def memberBits (l : List Nat) : BitVec 16 := l.foldl (fun v m => setBit v m) 0

/-- The agreeing set (R598). -/
def agreeSet (s : State) : List Nat :=
  (match s.span.inForce with
   | none => []
   | some r => (peersOf s).filter (fun m => beatAgrees r (mget {} s.span.peers m))) ++
  (if ownFails s = 0 then [s.span.member.toNat] else [])

/-- The quorum rule (R598). -/
def quorum (s : State) (set : List Nat) : Bool :=
  let total := s.span.count.toNat + 1
  decide (total < 2 * set.length) || decide (2 * set.length = total) && set.contains 0

/-- The highest directory version among this member and the heartbeats of its agreeing set (R599, R601). -/
def topVersion (s : State) : BitVec 64 :=
  (peersOf s).foldl (fun v m => if bit s.span.agree m && v < (mget {} s.span.peers m).dirv then (mget {} s.span.peers m).dirv else v)
    s.span.dirv

/-- A fence waits for the next commit with a cause (R599); a member already fenced by a cause keeps its fence. DEDUCED, log entry 113. -/
def fencePend (cause : BitVec 6) (s : State) : State :=
  if !inSpan s || s.span.state = 3 then s
  else modSpan (fun u => { u with pend := 1, pendCause := u.pendCause ||| cause }) s

/-- The heartbeat a member sends (R596). DEDUCED, log entry 115. -/
def ownBeat (s : State) : Beat :=
  { fresh := true, spanId := s.span.cfgId, member := s.span.member, varB := s.varB,
    digest := (s.span.inForce.map (fun r => r.digest)).getD 0, epoch := s.span.epoch, fw := s.sys.fwLevel,
    image := activeImage s, lock := s.span.lock, fenced := fenced s, dirv := s.span.dirv }

/-- A waiting record whose effective time has come is adopted (R595). -/
def adoptRecord (s : State) : State :=
  match s.span.nextRec with
  | none => s
  | some r =>
    if r.effect ≤ spanTime s then
      modSpan (fun u => { u with inForce := some r, nextRec := none, epoch := r.epoch }) s
    else s

/-- Evaluate agreement (R597–R599): the sets, the consecutive failures, and the fence of four in a row. DEDUCED, log entry 113. -/
def evaluate (s : State) : State :=
  let set := agreeSet s
  let bits := memberBits set
  let reach := memberBits ((peersOf s).filter (fun m => (mget {} s.span.peers m).fresh))
  let q := quorum s set
  let fails := ownFails s
  let s : State := modSpan (fun u => { u with
        reach := reach, chAgree := u.chAgree || decide (bits ≠ u.agree), agree := bits,
        agreeN := BitVec.ofNat 5 set.length, qOk := q, ownOk := fails = 0,
        badQ := if q then 0 else u.badQ + 1, badOwn := if fails = 0 then 0 else u.badOwn + 1 }) s
  if s.span.state = 2 then
    let s := if 4 ≤ s.span.badQ then fencePend 0x02 s else s
    if 4 ≤ s.span.badOwn then fencePend fails s else s
  else s

/-- HEARTBEAT (R595–R599): at a commit whose hank count is a multiple of 16 a member adopts a due record, evaluates and
sends; `late` marks the peers whose last heartbeat is older than 12.5 ms. -/
def execHeartbeat (late : BitVec 16) (s : State) : Out :=
  if !inSpan s || s.reel.hanks.toNat % 16 ≠ 0 || s.span.beatHank = some s.reel.hanks then .next s
  else
    let s := modSpan (fun u => { u with
        peers := mmapv {} id (u.peers.map (fun e => if bit late e.1 then (e.1, { e.2 with fresh := false }) else e)),
        beatHank := some s.reel.hanks }) s
    let s := evaluate (adoptRecord s)
    .next (modSpan (fun u => { u with sent := some (ownBeat s) }) s)

/-- A span message has arrived and waits for the resident OS (R611). -/
def spanMsg (s : State) : State := modSpan (fun u => { u with msgWait := u.msgWait + 1 }) s

/-- A peer's change acknowledged here is known to have committed once a heartbeat shows its version (R606, R607). DEDUCED, log entry 116. -/
def takeAcked (v : BitVec 64) (s : State) : State :=
  match s.span.acked with
  | none => s
  | some (n, e) =>
    if e.ver ≤ v && !fenced s then commitEntry n.toNat e (modSpan (fun u => { u with acked := none }) s) else s

/-- HEARTBEAT_RECEIVE (R596, R597, R599): a peer's heartbeat is kept; one that carries this member's number, or this span's
ID without being of a configured member (`known`), collides and fences this member. DEDUCED, log entry 114. -/
def execHeartbeatReceive (b : Beat) (known : Bool) (s : State) : Out :=
  if !inSpan s then .next s
  else
    let s := spanMsg s
    if b.member = s.span.member || !known && b.spanId = s.span.cfgId then .next (fencePend 0x01 s)
    else if !known then .next s
    else
      let s := modSpan (fun u => { u with peers := mset {} b.member.toNat { b with fresh := true } u.peers }) s
      .next (takeAcked b.dirv s)

/-- A write of SPAN_CTL.FENCE (R599). -/
def spanFence (s : State) : State := fencePend 0x01 s

/-- SPAN_FENCE (R599). -/
def execSpanFence (s : State) : Out := .next (spanFence s)

/-- Why a write of UNFENCE is refused (R601): 1 quorum, 2 own check, 3 directory behind; 0 for none. -/
def unfenceBar (s : State) : BitVec 32 :=
  if !s.span.qOk then 1 else if !s.span.ownOk then 2 else if s.span.dirv ≠ topVersion s then 3 else 0

/-- A write of SPAN_CTL.UNFENCE (R601) on a member fenced by a cause. DEDUCED, log entry 94. -/
def unfence (s : State) : State :=
  if s.span.state ≠ 3 then s
  else
    let r := unfenceBar s
    if r = 0 then event 0x0C03 [0] (modSpan (fun u => { u with pend := 2 }) s)
    else event 0x0C03 [r] (modSpan (fun u => { u with badu := true }) s)

/-- UNFENCE (R601). -/
def execUnfence (s : State) : Out := .next (unfence s)

/-- The member's span state changes (R610, R611). DEDUCED, log entry 94. -/
def setSpanState (st : BitVec 2) (s : State) : State :=
  if s.span.state = st then s else modSpan (fun u => { u with state := st, chState := true }) s

/-- The joining fence ends (R599): the last evaluation passed both rules and the directory is not behind. -/
def mayJoin (s : State) : Bool := s.span.state = 1 && s.span.qOk && s.span.ownOk && s.span.dirv = topVersion s

/-- What the span block does at a hank commit, after step 6 of R72 (R599, R601). -/
def spanCommit (s : State) : State :=
  let s := modSpan (fun u => { u with pulseTold := false }) s
  if !inSpan s then setSpanState 0 (modSpan (fun u => { u with pend := 0, pendCause := 0 }) s)
  else if s.span.pend = 1 then
    let s := setSpanState 3 (modSpan (fun u => { u with cause := u.pendCause, pend := 0, pendCause := 0 }) s)
    raiseFault 26 2 (eventC 0x0C02 2 [s.span.cause.setWidth 32, s.span.agree.setWidth 32, s.span.reach.setWidth 32] s)
  else if s.span.pend = 2 then
    setSpanState 2 (modSpan (fun u => { u with pend := 0, badQ := 0, badOwn := 0 }) s)
  else if s.span.state = 0 then setSpanState 1 s
  else if mayJoin s then
    event 0x0C01 [s.span.member.setWidth 32, s.span.epoch, s.span.agree.setWidth 32]
      (setSpanState 2 (modSpan (fun u => { u with badQ := 0, badOwn := 0 }) s))
  else s

/-! ## Span time (R602–R604) -/

/-- The lock state changes (R603): event 0x0C04, a Notice on group 27. -/
def setLock (b : Bool) (s : State) : State :=
  if s.span.lock = b then s
  else
    let s := modSpan (fun u => { u with lock := b, chLock := true, inSync := 0, outSync := 0 }) s
    raiseFault 27 1 (eventC 0x0C04 1 [if b then 1 else 0, s.span.ofs] s)

/-- SYNC_MESSAGE (R602, R603): the offset from the grandmaster in ns; `base` is what the servo sets the difference between
span time and the device's time to. -/
def execSyncMessage (ofs : BitVec 32) (base : BitVec 64) (s : State) : Out :=
  let a := ofs.toInt.natAbs
  let s := modSpan (fun u => { u with
        ofs := ofs, base := base, inSync := if a ≤ 500 then u.inSync + 1 else 0,
        outSync := if 1000 < a then u.outSync + 1 else 0 }) s
  let s := if s.span.port = 0x3F then (modMgmt (fun u => { u with ptpIrq := true }) s) else s
  if !s.span.lock && 16 ≤ s.span.inSync then .next (setLock true s)
  else if s.span.lock && 4 ≤ s.span.outSync then .next (setLock false s)
  else .next s

/-- SYNC_TIMEOUT (R603): no Sync for 3 s. -/
def execSyncTimeout (s : State) : Out := .next (setLock false (modSpan (fun u => { u with inSync := 0, outSync := 0 }) s))

/-- This member is the sync driver of the record in force (R594, R604). -/
def syncDriver (s : State) : Bool := inSpan s && (s.span.inForce.map (fun r => r.driver)) = some s.span.member

/-- SYNC_PULSE_DRIVE (R604): at a whole millisecond of span time the driver pulses, locked and not fenced. -/
def execSyncPulseDrive (s : State) : Out :=
  if syncDriver s && s.span.lock && !fenced s then .next (modSpan (fun u => { u with driven := u.driven + 1 }) s)
  else .next s

/-- SYNC_PULSE (R604, R664): an edge `err` ns away from a whole millisecond of span time, of a pulse of `ns`. DEDUCED, log entry 117. -/
def execSyncPulse (err ns : BitVec 32) (s : State) : Out :=
  if !inSpan s || syncDriver s || decide (ns.toNat < 20) then .next s
  else
    let s := passTime s
    let s := modSpan (fun u => { u with pulseAt := spanTime s }) s
    if err.toInt.natAbs ≤ 2000 then .next (modSpan (fun u => { u with badPulse := 0, syncf := false }) s)
    else
      let n := s.span.badPulse + 1
      let told := s.span.pulseTold
      let s := modSpan (fun u => { u with badPulse := n, syncf := u.syncf || decide (4 ≤ n), pulseTold := true }) s
      .next (if told then s else event 0x0C05 [err] s)

/-! ## The directory (R606–R608) -/

/-- DIRECTORY_PROPOSAL (R600, R607): a peer's change at a version is acknowledged, or refused by a fenced member or when it
meets one of the same or a higher version. -/
def execDirectoryProposal (nsid : BitVec 32) (ent : DirEnt) (s : State) : Out :=
  if !inSpan s then .next s
  else
    let s := spanMsg s
    let mine := s.span.prop.isSome && decide (ent.ver ≤ s.span.dirv + 1)
    let held := match s.span.acked with | none => false | some a => decide (ent.ver ≤ a.2.ver)
    if fenced s || ent.ver ≤ s.span.dirv || mine || held then .next s
    else .next (modSpan (fun u => { u with acked := some (nsid, ent), acks := u.acks + 1 }) s)

/-- DIRECTORY_ACKNOWLEDGE (R607): a member's vote; with a majority the change commits. -/
def execDirectoryAcknowledge (m : BitVec 4) (s : State) : Out :=
  match s.span.prop with
  | none => .next s
  | some p =>
    let s := spanMsg s
    if fenced s || p.votes.contains m.toNat || !(peersOf s).contains m.toNat then .next s
    else
      let p := { p with votes := p.votes ++ [m.toNat] }
      let s := modSpan (fun u => { u with prop := some p }) s
      .next (if hasMajority s p then commitProposal p s else s)

/-- DIRECTORY_TIMEOUT (R607): a change not committed within 100 ms is abandoned; its command fails with 82h. -/
def execDirectoryTimeout (s : State) : Out :=
  let s := modSpan (fun u => { u with acked := none }) s
  match s.span.prop with
  | none => .next s
  | some p => .next (endProposer p (status 7 0x82) (modSpan (fun u => { u with prop := none }) s))

/-! ## Coordinated switches and the record (R595, R605) -/

/-- SPAN_SWITCH (R605, R552 0x0021): a mode request for span time T is kept. DEDUCED, log entry 78. -/
def execSpanSwitch (sess : BitVec 2) (ident : BitVec 32) (mode : BitVec 32) (t : BitVec 64) (s : State) : Out :=
  tilostRequest sess 0x0021 ident Served.enrolled (fun s =>
    if 12 ≤ mode.toNat then tilostAnswer sess.toNat 0x0021 ident 2 [] s
    else tilostAnswer sess.toNat 0x0021 ident 0 []
      (modSpan (fun u => { u with switches := u.switches ++ [(mode.setWidth 4, t)] }) s)) s

/-- The waiting switch with the earliest time, the first given of several. -/
def firstSwitch : List (BitVec 4 × BitVec 64) → Option (BitVec 4 × BitVec 64)
  | [] => none
  | x :: xs => match firstSwitch xs with
    | none => some x
    | some y => some (if x.2 ≤ y.2 then x else y)

/-- SPAN_SWITCH_TIME (R605, R600): the time of the earliest waiting switch comes; an agreeing, unfenced member makes the mode
request, and a refusal records event 0x0C06. -/
def execSpanSwitchTime (s : State) : Out :=
  match firstSwitch s.span.switches with
  | none => .next s
  | some x =>
    let s := modSpan (fun u => { u with switches := u.switches.erase x }) s
    if s.span.state = 2 && s.span.ownOk then
      let v := modeVerdict s x.1
      let s := mgmtRequest x.1 none s
      .next (if v = 1 then s else event 0x0C06 [x.1.setWidth 32, v.setWidth 32] s)
    else .next s

/-- SPAN_CONFIGURATION_RECORD (R594, R595, R552 0x0032). -/
def execSpanConfigurationRecord (sess : BitVec 2) (ident : BitVec 32) (r : SpanRec) (s : State) : Out :=
  tilostRequest sess 0x0032 ident Served.enrolled (fun s =>
    if r.spanId = 0 || r.count < 1 || 16 < r.count then tilostAnswer sess.toNat 0x0032 ident 2 [] s
    else if s.span.inForce.isSome && r.epoch ≤ s.span.epoch then
      tilostRefuse sess.toNat 0x0032 ident (event 0x0C08 [r.epoch, s.span.epoch] s)
    else tilostAnswer sess.toNat 0x0032 ident 0 [] (modSpan (fun u => { u with nextRec := some r }) s)) s

end Sys2Proof.Machine
end

