-- ==== Sys2Proof/Machine/RegRead.lean ====
section
/-! DEFINITION. What every control register reads as (R11–R13), the high words latched by a read of a low word (R86), and
what a read itself changes (R267, R268, R460, R523, R611). Offsets are from the base of control space (R29). -/

namespace Sys2Proof.Machine

/-- The word of the first entry at an offset; an offset with no register reads 0 (R12). -/
def regTable (o : Nat) : List (Nat × BitVec 32) → BitVec 32
  | [] => 0
  | e :: es => if e.1 = o then e.2 else regTable o es

/-! ## SYS, PWR, CLK (R33, R34, R209, R210, R505–R508, R512, R639–R641) -/

/-- SYS_LINKS (R34). -/
def sysLinks (x : Sys) : BitVec 32 :=
  fld x.dramUp 20 ||| bfld x.netUp 19 ||| bfld x.pierBUp 18 ||| bfld x.pierAUp 17 ||| fld x.uncorr 8 ||| fld x.corrCnt 0

/-- SYS_CORE_STAT (R512). -/
def coreStat (s : State) : BitVec 32 :=
  (List.range 16).foldl (fun (v : BitVec 32) n =>
    v ||| bfld (coreOf s n).running n ||| bfld (coreOf s n).dtrap (16 + n)) 0

/-- The SYS window. -/
def sysWord (o : Nat) (s : State) : BitVec 32 :=
  let x := s.sys
  regTable o
    [(0x0, sysId s), (0x4, sysLinks x), (0x8, sysBoot s), (0xC, x.rstc.setWidth 32), (0x10, x.lockv.setWidth 32),
     (0x14, x.lockvAt), (0x18, x.strap.setWidth 32),
     (0x20, bfld x.bistDone 31 ||| bfld x.bistPass 30 ||| fld x.bistFail 0),
     (0x24, fld x.sramCorr 16 ||| fld x.sramUnc 8), (0x28, x.sramUAddr),
     (0x2C, fld x.remNative 22 ||| fld x.remFuse 12 ||| fld x.remIgn 4),
     (0x100, x.coreEntry.setWidth 32), (0x104, (x.coreEntry >>> 32).setWidth 32), (0x10C, coreStat s)]

/-- The PWR window. -/
def pwrWord (o : Nat) (s : State) : BitVec 32 :=
  regTable o [(0x0, pwrStat s), (0x4, s.pwr.gib.setWidth 32), (0x8, s.pwr.units), (0xC, s.pwr.mv.setWidth 32),
              (0x10, s.pwr.irq.setWidth 32)]

/-- The CLK window. -/
def clkWord (o : Nat) (s : State) : BitVec 32 := regTable o [(0x0, clkStat s.clk)]

/-! ## INTC, DMA, BAC (R520–R531, R535–R538, R547) -/

/-- The PEND bits of 32 sources (R521). -/
def pendWord (s : State) (w : Nat) : BitVec 32 :=
  (List.range 32).foldl (fun (v : BitVec 32) b => v ||| bfld (srcOf s (32 * w + b)).pend b) 0

/-- The INTC window; a read of INTC_CLAIM is `claim`. -/
def intcWord (o : Nat) (s : State) : BitVec 32 :=
  if o < 0x1000 then readSrc s (o / 4)
  else if o < 0x1080 then pendWord s ((o - 0x1000) / 4)
  else if o < 0x2000 then 0
  else if o < 0x2200 then
    if o % 0x20 = 0 then (mget 0 s.intc.thr ((o - 0x2000) / 0x20)).setWidth 32
    else if o % 0x20 = 4 then (claim ((o - 0x2000) / 0x20) s).1 else 0
  else if 0x3000 ≤ o ∧ o < 0x3100 then
    let h := mget {} s.intc.hold ((o - 0x3000) / 4)
    bfld (h.timer ≠ 0) 31 ||| h.time.setWidth 32
  else if 0x4040 ≤ o ∧ o < 0x4080 then (mget 0 s.watch.wdp ((o - 0x4040) / 4)).setWidth 32
  else regTable o [(0x4000, s.watch.stat), (0x4004, s.watch.en), (0x4008, s.watch.esc)]

/-- A DMA channel's registers (R535–R538). -/
def dmaWord (o : Nat) (s : State) : BitVec 32 :=
  let c := dmaOf s (o / 0x100)
  let lo := fun (v : BitVec 40) => v.setWidth 32
  let hi := fun (v : BitVec 40) => (v >>> 32).setWidth 32
  if 0x1000 ≤ o then 0
  else regTable (o % 0x100)
    [(0x00, bfld c.cancel 2 ||| bfld c.chained 1 ||| bfld (c.state = 1) 0),
     (0x04, fld c.state 30 ||| bfld c.busyw 29 ||| bfld c.err 28 ||| fld c.cause 24 ||| bfld c.dir 23),
     (0x08, lo c.src), (0x0C, hi c.src), (0x10, lo c.dst), (0x14, hi c.dst), (0x18, c.len), (0x1C, c.flags),
     (0x20, lo c.chain), (0x24, hi c.chain), (0x28, lo c.last), (0x2C, hi c.last), (0x30, lo c.eaddr), (0x34, hi c.eaddr),
     (0x38, c.remain), (0x3C, c.cnt)]

/-- The BAC window (R547). -/
def bacWord (o : Nat) (s : State) : BitVec 32 :=
  let b := s.bac
  if 0x100 ≤ o ∧ o < 0x300 then mget 0 b.pbuf ((o - 0x100) / 4)
  else regTable o
    [(0x0, fld b.op 16), (0x4, b.addr.setWidth 32), (0x8, b.mask.setWidth 32),
     (0xC, bfld b.busy 31 ||| bfld b.busyw 30 ||| fld b.bank 28 ||| bfld b.done 27 ||| fld b.result 24),
     (0x10, b.wp.setWidth 32), (0x14, fld b.corr 16 ||| fld b.uncorr 8), (0x18, b.uaddr.setWidth 32)]

/-! ## FCR, EVR, THM, MEMP, DRC (R497–R504, R514–R519, R570–R577, R591) -/

/-- The FCR window (R577). -/
def fcrWord (o : Nat) (s : State) : BitVec 32 :=
  let f := s.fcr
  if 0x100 ≤ o ∧ o < 0x300 then
    let g := groupOf s ((o - 0x100) / 8)
    if o % 8 = 0 then fld g.n 24 ||| fld g.esc 18 ||| g.winMs.setWidth 32
    else fld g.cls 29 ||| fld g.wcount 16 ||| g.total.setWidth 32
  else regTable o
    [(0x0, fcrStat s), (0x4, fld f.reactCount 16 ||| fld f.reactGroup 0), (0x8, bfld f.ren 31 ||| f.reactMs.setWidth 32),
     (0xC, fld f.more 24 ||| fld f.steps 16 ||| fld f.graveCause 8 ||| fld f.graveGroup 0),
     (0x10, fld f.injClass 16 ||| fld f.injGroup 0)]

/-- The EVR window and its cursor (R573, R575). -/
def evrWord (o : Nat) (s : State) : BitVec 32 :=
  let e := s.evr
  if 0x8000 ≤ o then (eventWords (evrSlot s (e.cur.toNat + (o - 0x8000) / 32))).getD (o % 32 / 4) 0
  else regTable o
    [(0x0, e.widx), (0x4, e.ridx), (0x8, evrStat e), (0xC, fld e.full 16 ||| fld e.qdrop 0), (0x10, e.thr.setWidth 32),
     (0x14, e.cur.setWidth 32)]

/-- The THM window (R591). -/
def thmWord (o : Nat) (s : State) : BitVec 32 :=
  let t := s.thm
  if 0x100 ≤ o ∧ o < 0x174 then
    let x := sensorOf s ((o - 0x100) / 4)
    bfld x.valid 31 ||| bfld x.faulty 30 ||| bfld x.fast 29 ||| x.temp.setWidth 32
  else regTable o
    [(0x0, bfld t.throt 31 ||| bfld t.crit 30 ||| bfld t.warn 29 ||| fld t.hot 16 ||| fld t.comp 0),
     (0x4, fld t.cfgFlash 16 ||| fld t.cfgThrot 0), (0x8, fld t.flashDie 16 ||| fld t.flashTemp 0), (0xC, t.irq.setWidth 32)]

/-- The MEMP window (R514, R519). -/
def mempWord (o : Nat) (s : State) : BitVec 32 :=
  let m := s.memp
  if 0x1000 ≤ o ∧ o < 0x1400 then
    let r := mget {} m.regions ((o - 0x1000) / 16)
    regTable (o % 16)
      [(0x0, r.base.setWidth 32), (0x4, r.limit.setWidth 32),
       (0x8, bfld r.valid 31 ||| bfld r.c 3 ||| bfld r.x 2 ||| bfld r.w 1 ||| bfld r.r 0), (0xC, r.mask)]
  else regTable o
    [(0x0, bfld m.valid 31 ||| fld m.kind 4 ||| fld m.master 0), (0x4, m.vaddr.setWidth 32),
     (0x8, (m.vaddr >>> 32).setWidth 32), (0xC, m.vpend)]

/-- A DRAM controller's window (R497–R504). -/
def drcWord (n o : Nat) (s : State) : BitVec 32 :=
  let d := drcOf s n
  regTable o
    [(0x0, fld d.state 30 ||| fld d.trange 28 ||| fld d.temp 16 ||| fld d.margin 8 ||| bfld d.init 0),
     (0x4, fld d.corr 16 ||| fld d.uncorr 8 ||| fld d.poison 0), (0x8, d.uaddr.setWidth 32), (0xC, (d.uaddr >>> 32).setWidth 32),
     (0x10, d.caddr.setWidth 32), (0x14, (d.caddr >>> 32).setWidth 32), (0x18, fld d.trig 16 ||| fld d.qmax 8),
     (0x1C, fld d.rmw 16 ||| fld d.merged 0), (0x20, fld d.late 16 ||| fld d.lateReq 0), (0x24, d.irq.setWidth 32),
     (0x40, d.lt0.setWidth 32), (0x44, d.lt1.setWidth 32), (0x48, d.lt2.setWidth 32), (0x4C, d.lt3.setWidth 32),
     (0x50, d.lt4.setWidth 32)]

/-! ## REEL, SPN, TASK (R84–R92, R133–R138, R215, R313–R315) -/

/-- The deck pending for the next hank commit (R84): the recovery deck from a flush's trigger on (R626). -/
def pendDeck (s : State) : BitVec 4 := if s.pwr.waitCommit && s.reel.run then 0xE else s.reel.pend

/-- REEL_STAT (R84). -/
def reelStat (s : State) : BitVec 32 :=
  fld s.reel.phase 21 ||| fld s.reel.period 19 ||| bfld s.reel.run 16 ||| fld (pendDeck s) 12 ||| fld s.reel.deck 8

/-- The REEL window. -/
def reelWord (o : Nat) (s : State) : BitVec 32 :=
  let r := s.reel
  if 0x1000 ≤ o ∧ o < 0x2000 then
    let n := (o - 0x1000) / 16
    let c := clsOf s n
    regTable (o % 16)
      [(0x0, bfld c.bounded 31 ||| ((c.limPend.getD c.lim).setWidth 32)), (0x4, clsWait s n),
       (0x8, clsCnt c), (0xC, c.places.setWidth 32)]
  else regTable o
    [(0x0, reelStat s), (0x4, fld r.turn 16 ||| fld r.cycle 0), (0x8, lo32 r.hanks), (0xC, hi32 r.hanks), (0x10, lo32 r.hts),
     (0x14, hi32 r.hts), (0x20, fld r.vcount 16 ||| fld r.vbits 0), (0x24, r.viol), (0x30, fld r.result 8 ||| fld r.modeReg 0)]

/-- SPN_FINFO (R136). -/
def spnFinfo (x : Spindle) : BitVec 32 := fld x.fcause 28 ||| fld x.fslot 26 ||| fld x.fturn 20 ||| fld x.fcycle 0

/-- A spindle's window (R133–R138). -/
def spnWord (o : Nat) (s : State) : BitVec 32 :=
  let x := spn s (o / 0x1000)
  regTable (o % 0x1000)
    [(0x0, bfld x.restart 0), (0x4, fld x.state 30 ||| bfld x.ovr 16 ||| fld x.lastEnd 0), (0x8, x.fpc.setWidth 32),
     (0xC, spnFinfo x), (0x10, x.faddr.setWidth 32), (0x14, fld x.corr 16)]

/-- A task register set's window (R313–R315). -/
def taskWord (o : Nat) (s : State) : BitVec 32 :=
  let x := taskOf s (o / 0x400)
  let r := o % 0x400
  if r < 0x40 then mget 0 x.cmd (r / 4)
  else if r < 0x60 then mget 0 x.res ((r - 0x40) / 4)
  else regTable r
    [(0x60, x.buf.setWidth 32), (0x64, (x.buf >>> 32).setWidth 32), (0x68, x.chain.setWidth 32),
     (0x6C, (x.chain >>> 32).setWidth 32), (0x70, bfld x.cancel 2 ||| bfld x.chained 1 ||| bfld (x.state = 1) 0),
     (0x74, fld x.state 30 ||| bfld x.busyw 29 ||| bfld x.done 28 ||| x.lastSts.setWidth 32), (0x78, x.last.setWidth 32),
     (0x7C, (x.last >>> 32).setWidth 32)]

/-! ## NET, XPT, PIER (R262–R272, R407–R415) -/

/-- The bring-up step of the lowest sub-port without link (R263). -/
def netStep (x : Port) : Nat :=
  match (List.range (subPorts x.mode)).find? (fun k => !bit x.up k) with
  | some k => mget 0 x.step k
  | none => 0

/-- A port's window (R262–R267); the offsets above the eight windows are unassigned (R12, R29). -/
def netWord (o : Nat) (s : State) : BitVec 32 :=
  let x := portOf s (o / 0x10000)
  let r := o % 0x10000
  let k := r % 0x100
  if 0x80000 ≤ o then 0
  else if r < 0x400 && 0x40 ≤ k && k < 0x80 then
    let v := mget 0 x.cnt (8 * (r / 0x100) + (k - 0x40) / 8)
    if k % 8 = 0 then lo32 v else hi32 v
  else if r < 0x400 && k = 0xC then (mget 0 x.vlan (r / 0x100)).setWidth 32
  else regTable r
    [(0x0, fld x.vlanEn 4 ||| fld x.mode 0),
     (0x4, fld x.retry 24 ||| fld x.chg 8 ||| fld (BitVec.ofNat 4 (netStep x)) 4 ||| fld x.up 0), (0x8, netLane x),
     (0x20, lo32 x.txts), (0x24, hi32 x.txts), (0x28, x.txtsId.setWidth 32)]

/-- The transport engine's window (R269–R272). -/
def xptWord (o : Nat) (s : State) : BitVec 32 :=
  if 0x1000 ≤ o ∧ o < 0x1800 then
    let a := mget {} s.xpt.addrs ((o - 0x1000) / 0x40)
    regTable (o % 0x40)
      [(0x0, a.mac.setWidth 32), (0x4, (a.mac >>> 32).setWidth 32), (0x8, a.ip4), (0x10, a.ip6.setWidth 32),
       (0x14, (a.ip6 >>> 32).setWidth 32), (0x18, (a.ip6 >>> 64).setWidth 32), (0x1C, (a.ip6 >>> 96).setWidth 32)]
  else regTable o
    [(0x0, w32 (tlsConns s) <<< 17 ||| w32 (openConns s)), (0x4, w32 (pinnedConns s) <<< 16 ||| s.xpt.miss.setWidth 32),
     (0x8, s.xpt.listen.setWidth 32)]

/-- PIER_TEMP of a target (R415). -/
def pierTempWord (t : PTemp) : BitVec 32 := bfld t.valid 31 ||| fld t.age 8 ||| fld t.temp 0

/-- A channel's window (R407–R415). -/
def pierWord (o : Nat) (s : State) : BitVec 32 :=
  let c := chan s (o / 0x10000)
  let r := o % 0x10000
  if 0x100 ≤ r ∧ r < 0x140 then pierTempWord (mget {} c.temps ((r - 0x100) / 4))
  else regTable r
    [(0x0, fld c.tgtExp 16 ||| fld c.slew 12 ||| fld c.loads 8 ||| fld c.rateMax 4 ||| bfld (c.state = 1) 1 ||| bfld (c.state = 3) 0),
     (0x4, pierStat c), (0x8, pierPin c), (0x10, pierSkew c 0), (0x14, pierSkew c 1), (0x18, pierSkew2 c),
     (0x20, fld c.hfail 16 ||| fld c.softOk 8 ||| fld c.uncorr 0),
     (0x24, fld c.ovrCount 16 ||| fld c.ovrCase 12 ||| fld c.ovrTgt 0), (0x28, c.lost.setWidth 32), (0x2C, c.irq.setWidth 32)]

/-! ## CIPH, VCT, SPAN, MGMT (R452–R459, R549, R610) -/

/-- The bits of CIPH_CMP0 and CIPH_CMP1 whose lanes the variant has (R6). -/
def cmpMask (s : State) : BitVec 32 × BitVec 16 := if s.varB then (0x00FFFFFF, 0) else (0xFFFFFFFF, 0xFFFF)

/-- The CIPH window. -/
def ciphWord (o : Nat) (s : State) : BitVec 32 :=
  let c := s.ciph
  if 0x40 ≤ o ∧ o < 0x68 then mget 0 c.kwrap ((o - 0x40) / 4)
  else regTable o
    [(0x0, c.ksel.setWidth 32), (0x4, fld c.result 24 ||| fld c.op 16 ||| fld c.use 8 ||| fld c.limit 0), (0x8, c.kvc.setWidth 32),
     (0xC, c.kdst.setWidth 32), (0x10, kstat s), (0x18, (keyOf s c.ksel.toNat).cnt.setWidth 32),
     (0x1C, ((keyOf s c.ksel.toNat).cnt >>> 32).setWidth 32), (0x80, c.cmp0 &&& (cmpMask s).1),
     (0x84, (c.cmp1 &&& (cmpMask s).2).setWidth 32), (0x88, c.cmpcnt.setWidth 32)]

/-- What VCT_REC reads: the selected controller's record address, or the value written while its entry is free (R457). DEDUCED, log entry 82. -/
def vctRec (s : State) : BitVec 40 :=
  if (vcOf s s.vct.idx.toNat).state = 0 then s.vct.recReg else (vcOf s s.vct.idx.toNat).recAddr

/-- The VCT window. -/
def vctWord (o : Nat) (s : State) : BitVec 32 :=
  let v := vcOf s s.vct.idx.toNat
  regTable o
    [(0x0, s.vct.idx.setWidth 32), (0x4, fld v.state 30 ||| fld v.pcls 16 ||| fld v.cls 8), (0x8, (vctRec s).setWidth 32),
     (0xC, (vctRec s >>> 32).setWidth 32), (0x10, w32 (vcConns s s.vct.idx.toNat)),
     (0x14, fld s.vct.result 24 ||| fld s.vct.op 16 ||| fld s.vct.cls 8)]

/-- The configuration digest of the record in force (R595). -/
def spanDigest (s : State) : BitVec 384 := ((s.span.inForce.map (·.digest))).getD 0

/-- SPAN_STAT (R610). -/
def spanStat (x : Span) : BitVec 32 :=
  fld x.state 30 ||| fld x.cause 24 ||| fld x.agreeN 16 ||| bfld x.badu 3 ||| bfld x.syncf 2 ||| bfld x.lock 1 |||
    bfld (x.pend ≠ 0) 0

/-- The SPAN window. -/
def spanWord (o : Nat) (s : State) : BitVec 32 :=
  let x := s.span
  regTable o
    [(0x0, fld x.cfgId 16 ||| fld x.member 8 ||| fld x.count 4 ||| bfld x.enable 0), (0x4, fld x.domain 8 ||| fld x.port 0),
     (0x8, spanStat x), (0xC, fld x.reach 16 ||| fld x.agree 0), (0x10, x.epoch), (0x14, (spanDigest s).setWidth 32),
     (0x18, (spanDigest s >>> 32).setWidth 32), (0x1C, x.ofs), (0x24, lo32 x.dirv), (0x28, hi32 x.dirv)]

/-- The MGMT window: the fused MAC address (R549). -/
def mgmtWord (o : Nat) : BitVec 32 :=
  regTable o [(0x0, Config.mgmtMac.setWidth 32), (0x4, (Config.mgmtMac >>> 32).setWidth 32)]

/-! ## One word of control space -/

/-- The register at an offset of control space, as it stands now. DEDUCED, log entry 81. -/
def regWord (o : Nat) (s : State) : BitVec 32 :=
  if o < 0x10000 then sysWord o s
  else if o < 0x20000 then pwrWord (o - 0x10000) s
  else if o < 0x30000 then clkWord (o - 0x20000) s
  else if o < 0x40000 then intcWord (o - 0x30000) s
  else if o < 0x50000 then dmaWord (o - 0x40000) s
  else if o < 0x60000 then bacWord (o - 0x50000) s
  else if o < 0x70000 then fcrWord (o - 0x60000) s
  else if o < 0x80000 then evrWord (o - 0x70000) s
  else if o < 0x90000 then thmWord (o - 0x80000) s
  else if o < 0xA0000 then mempWord (o - 0x90000) s
  else if o < 0xE0000 then drcWord ((o - 0xA0000) / 0x10000) (o % 0x10000) s
  else if o < 0x200000 then reelWord (o - 0x100000) s
  else if o < 0x300000 then spnWord (o - 0x200000) s
  else if o < 0x400000 then taskWord (o - 0x300000) s
  else if o < 0x800000 then netWord (o - 0x400000) s
  else if o < 0x1000000 then xptWord (o - 0x800000) s
  else if o < 0x2000000 then pierWord (o - 0x1000000) s
  else if o < 0x2100000 then ciphWord (o - 0x2000000) s
  else if o < 0x2200000 then vctWord (o - 0x2100000) s
  else if o < 0x2300000 then spanWord (o - 0x2200000) s
  else mgmtWord (o - 0x2300000)

/-! ## Latched high words (R86, R267, R455, R499, R519, R536, R610) -/

/-- The low words of the NET window whose read latches the next word: the counters and NET_TXTS_LO. -/
def netLow (r : Nat) : Bool :=
  (decide (r < 0x400) && decide (0x40 ≤ r % 0x100) && decide (r % 0x100 < 0x80) && r % 8 = 0) || r = 0x20

/-- A read of the register at an offset latches the word after it. -/
def isLow (o : Nat) : Bool :=
  if 0x40000 ≤ o ∧ o < 0x41000 then [0x08, 0x10, 0x20, 0x28, 0x30].contains (o % 0x100)
  else if 0x90000 ≤ o ∧ o < 0xA0000 then o = 0x90004
  else if 0xA0000 ≤ o ∧ o < 0xE0000 then [0x8, 0x10].contains (o % 0x10000)
  else if 0x100000 ≤ o ∧ o < 0x110000 then [0x8, 0x10].contains (o % 0x10000)
  else if 0x400000 ≤ o ∧ o < 0x480000 then netLow (o % 0x10000)
  else [0x2000018, 0x2200014, 0x2200024].contains o

/-- NET_TXTS_LO of some port. -/
def isTxts (o : Nat) : Bool := decide (0x400000 ≤ o) && decide (o < 0x480000) && o % 0x10000 = 0x20

/-- Latch a word at an offset for its next read. DEDUCED, log entry 83. -/
def latchWord (o : Nat) (s : State) : State :=
  { s with latch := mset none (ctlBase + o) (some (regWord o s)) s.latch }

/-- The latches that a read of an offset makes. -/
def latchFor (o : Nat) (s : State) : State :=
  let s := if isLow o then latchWord (o + 4) s else s
  if isTxts o then latchWord (o + 8) s else s

/-! ## What a read changes -/

/-- A read of a port's register: NET_TXTS_LO and the two counters that a source watches (R267, R268). -/
def netReadEffect (o : Nat) (s : State) : State :=
  let p := o / 0x10000
  let r := o % 0x10000
  if r = 0x20 then modPort p (fun x => { x with txtsWait := false }) s
  else if r < 0x400 && r % 0x100 = 0x50 then modPort p (fun x => { x with drop := clrBit x.drop (r / 0x100) }) s
  else if r < 0x400 && r % 0x100 = 0x78 then modPort p (fun x => { x with unc64 := clrBit x.unc64 (r / 0x100) }) s
  else s

/-- What a read of the register at an offset changes besides latches. -/
def readEffect (o : Nat) (s : State) : State :=
  if 0x32000 ≤ o ∧ o < 0x32200 then (if o % 0x20 = 4 then (claim ((o - 0x32000) / 0x20) s).2 else s)
  else if 0x400000 ≤ o ∧ o < 0x480000 then netReadEffect (o - 0x400000) s
  else if o = 0x2000004 then modCiph (fun u => { u with ended := false }) s
  else if o = 0x2000010 then modCiph (fun u => { u with limRef := false }) s
  else if o = 0x2100014 then modVct (fun u => { u with ended := false }) s
  else if o = 0x2200008 then modSpan (fun u => { u with chState := false, chLock := false }) s
  else if o = 0x220000C then modSpan (fun u => { u with chAgree := false }) s
  else if o = 0x2200024 then modSpan (fun u => { u with chDir := false }) s
  else s

/-- A read of the register at an offset: a latched word where one waits, which the read uses up. -/
def regRead (o : Nat) (s : State) : BitVec 32 × State :=
  match mget none s.latch (ctlBase + o) with
  | some v => (v, { s with latch := mset none (ctlBase + o) none s.latch })
  | none => (regWord o s, readEffect o (latchFor o s))

/-- A 32-bit read of control space by a supervisor; none for a bus fault (R11, R29). -/
def ctlRead (a : Nat) (s : State) : Option (BitVec 32 × State) :=
  match placeOf s a with
  | .control => if a % 4 = 0 then some (regRead (a - ctlBase) s) else none
  | _ => none

/-- What a control-register read command answers. -/
def answerRead (r : Option (BitVec 32 × State)) (s : State) : State :=
  match r with
  | some (v, s') => { s' with bus := { data := v, fault := false } }
  | none => { s with bus := { data := 0, fault := true } }

/-- CONTROL_REGISTER_READ (R11–R13): a supervisor's read of one register; the answer stands in `bus`. -/
def execControlRegisterRead (a : BitVec 40) (s : State) : Out := .next (answerRead (ctlRead a.toNat s) s)

/-- HIGH_WORD_LATCH (R86): a read of the low word of a pair; any other address latches nothing. -/
def execHighWordLatch (a : BitVec 40) (s : State) : Out :=
  if placeOf s a.toNat = .control && isLow (a.toNat - ctlBase) then .next (answerRead (ctlRead a.toNat s) s) else .next s

end Sys2Proof.Machine
end

