-- ==== Sys2Proof/Machine/RegWrite.lean ====
section
/-! DEFINITION. What a 32-bit write of every control register does, by its fields' access types (R12, R13, R205–R210, R669).
Offsets are from the base of control space (R29). A write that starts a DMA channel leaves its data to be moved. -/

namespace Sys2Proof.Machine

/-- A field of a written word. -/
def wf (v : BitVec 32) (lo w : Nat) : BitVec w := (v >>> lo).setWidth w

/-- Replace the low 32 bits of a 40-bit register. -/
def put40lo (x : BitVec 40) (v : BitVec 32) : BitVec 40 := (x &&& 0xFF00000000) ||| v.setWidth 40
/-- Replace the high 8 bits of a 40-bit register. -/
def put40hi (x : BitVec 40) (v : BitVec 32) : BitVec 40 := (x &&& 0x00FFFFFFFF) ||| ((v.setWidth 8).setWidth 40 <<< 32)

/-! ## Locked fields (R205, R208–R210) -/

/-- A block whose fields follow R205 runs: from the first commit of an activated image to its stop or to Hold. -/
def blockRuns (s : State) : Bool := s.reel.run && s.reel.deck ≠ 0 && s.store.running.isSome

/-- A locked-field write to the block of event high byte `blk` (R208). DEDUCED, log entry 90. -/
def lockedWrite (blk o : Nat) (v : BitVec 32) (s : State) : State :=
  let a := w32 (ctlBase + o)
  let s := modSys (fun u => { u with lockvAt := if u.lockv = 0 then a else u.lockvAt, lockv := setBit u.lockv blk }) s
  raiseFault 6 1 (eventC 0x0110 1 [0, a, v] s)

/-- Make a write to RWL fields: where `locked` and a field would change, the write is a locked-field write and the fields
keep their values; else `f` applies them. -/
def rwl (locked changes : Bool) (blk o : Nat) (v : BitVec 32) (f : State → State) (s : State) : State :=
  if !locked then f s else if changes then lockedWrite blk o v s else s

/-! ## SYS, PWR, CLK -/

/-- A write of SYS_CORE_RUN (R512): running cores are stopped, stopped ones started, as their bits ask. DESIGN CHOICE, log entry 15. -/
def coreRunWrite (v : BitVec 32) (s : State) : State :=
  (List.range 16).foldl (fun s n =>
    if (coreOf s n).running then (if bit v (16 + n) then stopCore n s else s)
    else if bit v n then runCore n s else s) s

/-- A write of SYS_CORE_STAT (R512). -/
def coreStatWrite (v : BitVec 32) (s : State) : State :=
  (List.range 16).foldl (fun s n => if bit v (16 + n) then modCore n (fun c => { c with dtrap := false }) s else s) s

/-- A write in the SYS window. -/
def sysWrite (o : Nat) (v : BitVec 32) (s : State) : State :=
  if o = 0x4 then
    modSys (fun u => { u with uncorr := w1c u.uncorr (wf v 8 8), corrCnt := w1cCount u.corrCnt (wf v 0 8) }) s
  else if o = 0x10 then modSys (fun u => { u with lockv := w1c u.lockv (wf v 0 16) }) s
  else if o = 0x24 then
    modSys (fun u => { u with sramCorr := w1cCount u.sramCorr (wf v 16 16), sramUnc := w1cCount u.sramUnc (wf v 8 8) }) s
  else if o = 0x30 then softwareReset v s
  else if o = 0x100 then modSys (fun u => { u with coreEntry := put40lo u.coreEntry (v &&& 0xFFFFFFF0) }) s
  else if o = 0x104 then modSys (fun u => { u with coreEntry := put40hi u.coreEntry v }) s
  else if o = 0x108 then coreRunWrite v s
  else if o = 0x10C then coreStatWrite v s
  else s

/-- A write in the PWR window. -/
def pwrWrite (o : Nat) (v : BitVec 32) (s : State) : State :=
  if o = 0x10 then (modPwr (fun u => { u with irq := w1c u.irq (wf v 0 5) }) s) else s

/-- A write in the CLK window. -/
def clkWrite (o : Nat) (v : BitVec 32) (s : State) : State :=
  if o = 0x0 then (modClk (fun u => { u with netBad := w1c u.netBad (wf v 8 2) }) s) else s

/-! ## INTC, DMA, BAC -/

/-- A write in the watcher's part of the INTC window (R530). -/
def watchWrite (o : Nat) (v : BitVec 32) (s : State) : State :=
  if o = 0x4000 then watchClear v s
  else if o = 0x4004 then modWatch (fun u => { u with en := v }) s
  else if o = 0x4008 then modWatch (fun u => { u with esc := v }) s
  else if o = 0x400C then watchSw (wf v 28 4) s
  else if o = 0x4010 then watchKick (wf v 0 4).toNat s
  else if 0x4040 ≤ o ∧ o < 0x4080 then writeWdp ((o - 0x4040) / 4) (wf v 0 16) s
  else s

/-- A write in the INTC window. -/
def intcWrite (o : Nat) (v : BitVec 32) (s : State) : State :=
  if o < 0x1000 then writeSrc (o / 4) v s
  else if o < 0x1080 then clearPending ((o - 0x1000) / 4) v s
  else if o < 0x1100 then setPending ((o - 0x1080) / 4) v s
  else if 0x2000 ≤ o ∧ o < 0x2200 then
    let t := (o - 0x2000) / 0x20
    if o % 0x20 = 0 then modIntc (fun u => { u with thr := mset 0 t (wf v 0 4) u.thr }) s
    else if o % 0x20 = 8 then completeSrc t (wf v 0 10).toNat s else s
  else if 0x3000 ≤ o ∧ o < 0x3100 then
    modIntc (fun u => { u with hold := mmod {} ((o - 0x3000) / 4) (fun h => { h with time := wf v 0 16 }) u.hold }) s
  else watchWrite o v s

/-- A write of a channel's SRC, DST, LEN, FLAGS or CHAIN (R536): ignored, with BUSYW, while it runs. -/
def dmaField (n : Nat) (f : DmaCh → DmaCh) (s : State) : State :=
  modDma n (fun c => if c.state = 1 then { c with busyw := true } else f c) s

/-- A write of DMA_CTL (R537). DEDUCED, log entry 87. -/
def dmaCtlWrite (n : BitVec 4) (v : BitVec 32) (s : State) : State :=
  let s := modDma n.toNat (fun c => { c with chained := bit v 1 }) s
  let s := if bit v 0 then dmaGo n s else s
  if bit v 2 then dmaCancel n s else s

/-- A write of DMA_STAT (R538). -/
def dmaStatWrite (n : BitVec 4) (v : BitVec 32) (s : State) : State :=
  let s := if bit v 29 then modDma n.toNat (fun c => { c with busyw := false }) s else s
  if bit v 28 then dmaErrClear n s else s

/-- A write in the DMA window. -/
def dmaWrite (o : Nat) (v : BitVec 32) (s : State) : State :=
  let n := o / 0x100
  let r := o % 0x100
  if 0x1000 ≤ o then s
  else if r = 0x00 then dmaCtlWrite (BitVec.ofNat 4 n) v s
  else if r = 0x04 then dmaStatWrite (BitVec.ofNat 4 n) v s
  else if r = 0x08 then dmaField n (fun c => { c with src := put40lo c.src v }) s
  else if r = 0x0C then dmaField n (fun c => { c with src := put40hi c.src v }) s
  else if r = 0x10 then dmaField n (fun c => { c with dst := put40lo c.dst v }) s
  else if r = 0x14 then dmaField n (fun c => { c with dst := put40hi c.dst v }) s
  else if r = 0x18 then dmaField n (fun c => { c with len := v }) s
  else if r = 0x1C then dmaField n (fun c => { c with flags := v &&& 0x1F }) s
  else if r = 0x20 then dmaField n (fun c => { c with chain := put40lo c.chain v }) s
  else if r = 0x24 then dmaField n (fun c => { c with chain := put40hi c.chain v }) s
  else s

/-- A write of the page buffer, BAC_ADDR or BAC_MASK (R547): ignored, with BUSYW, while busy. -/
def bacField (f : Bac → Bac) (s : State) : State :=
  modBac (fun _ => if s.bac.busy then { s.bac with busyw := true } else f s.bac) s

/-- A write in the BAC window. -/
def bacWrite (o : Nat) (v : BitVec 32) (s : State) : State :=
  if o = 0x0 then
    let s := modBac (fun u => { u with op := wf v 16 4 }) s
    if bit v 31 then bacGo (wf v 16 4) s else s
  else if o = 0x4 then bacField (fun b => { b with addr := wf v 0 26 }) s
  else if o = 0x8 then bacField (fun b => { b with mask := wf v 0 16 }) s
  else if o = 0xC then
    modBac (fun u => { u with busyw := u.busyw && !bit v 30, done := u.done && !bit v 27 }) s
  else if o = 0x10 then modBac (fun u => { u with wp := wf v 0 4 }) s
  else if o = 0x14 then
    modBac (fun u => { u with corr := w1cCount u.corr (wf v 16 16), uncorr := w1cCount u.uncorr (wf v 8 8) }) s
  else if 0x100 ≤ o ∧ o < 0x300 then bacField (fun b => { b with pbuf := mset 0 ((o - 0x100) / 4) v b.pbuf }) s
  else s

/-! ## FCR, EVR, THM, MEMP, DRC -/

/-- A length of milliseconds as a register takes it: 0 is taken as 1 (R577). DEDUCED, log entry 84. -/
def msOr1 (v : BitVec 16) : BitVec 16 := if v = 0 then 1 else v

/-- A write in the FCR window (R577). -/
def fcrWrite (o : Nat) (v : BitVec 32) (s : State) : State :=
  if o = 0x4 then (if bit v 31 then reactionAck s else s)
  else if o = 0x8 then modFcr (fun u => { u with ren := u.ren || bit v 31, reactMs := msOr1 (wf v 0 16) }) s
  else if o = 0x10 then
    if bit v 31 then faultInject (wf v 16 3) (wf v 0 6) s
    else modFcr (fun u => { u with injClass := wf v 16 3, injGroup := wf v 0 6 }) s
  else if 0x100 ≤ o ∧ o < 0x300 then
    let g := (o - 0x100) / 8
    if o % 8 = 0 then modGroup g (fun x => { x with n := wf v 24 8, esc := wf v 18 2, winMs := msOr1 (wf v 0 16) }) s
    else
      let s := if bit v 28 then groupClear g s else s
      modGroup g (fun x => { x with total := w1cCount x.total (wf v 0 16) }) s
  else s

/-- A write in the EVR window (R575). -/
def evrWrite (o : Nat) (v : BitVec 32) (s : State) : State :=
  if o = 0x4 then writeRidx v s
  else if o = 0x8 then modEvr (fun u => { u with badw := u.badw && !bit v 30 }) s
  else if o = 0xC then
    modEvr (fun u => { u with full := w1cCount u.full (wf v 16 16), qdrop := w1cCount u.qdrop (wf v 0 16) }) s
  else if o = 0x10 then modEvr (fun u => { u with thr := wf v 0 17 }) s
  else if o = 0x14 then modEvr (fun u => { u with cur := wf v 0 16 }) s
  else s

/-- A temperature field takes a value within its range only (R591). -/
def inRange (lo hi : Nat) (v old : BitVec 8) : BitVec 8 := if lo ≤ v.toNat ∧ v.toNat ≤ hi then v else old

/-- A write in the THM window (R591). -/
def thmWrite (o : Nat) (v : BitVec 32) (s : State) : State :=
  if o = 0x4 then
    modThm (fun u => { u with cfgFlash := inRange 60 85 (wf v 16 8) u.cfgFlash, cfgThrot := inRange 70 95 (wf v 0 8) u.cfgThrot }) s
  else if o = 0xC then modThm (fun u => { u with irq := w1c u.irq (wf v 0 6) }) s
  else s

/-- A write of one word of a region (R514). -/
def regionWrite (k : Nat) (v : BitVec 32) (r : Region) : Region :=
  if k = 0 then { r with base := wf v 0 28 }
  else if k = 4 then { r with limit := wf v 0 28 }
  else if k = 8 then { r with valid := bit v 31, c := bit v 3, x := bit v 2, w := bit v 1, r := bit v 0 }
  else { r with mask := v }

/-- A write in the MEMP window (R514, R519). -/
def mempWrite (o : Nat) (v : BitVec 32) (s : State) : State :=
  if o = 0x0 then modMemp (fun u => { u with valid := u.valid && !bit v 31 }) s
  else if o = 0xC then modMemp (fun u => { u with vpend := w1c u.vpend v }) s
  else if 0x1000 ≤ o ∧ o < 0x1400 then
    modMemp (fun u => { u with regions := mmod {} ((o - 0x1000) / 16) (regionWrite (o % 16) v) u.regions }) s
  else s

/-- A latency target as DRC_LT takes it (R504). DEDUCED, log entry 84. -/
def ltOf (v : BitVec 32) : BitVec 8 := if (wf v 0 8) = 0#8 then 1 else wf v 0 8

/-- A write of a DRAM controller's register (R498–R504). -/
def drcField (o : Nat) (v : BitVec 32) (d : Drc) : Drc :=
  if o = 0x4 then { d with corr := w1cCount d.corr (wf v 16 16), uncorr := w1cCount d.uncorr (wf v 8 8),
                           poison := w1cCount d.poison (wf v 0 8) }
  else if o = 0x18 then { d with trig := w1cCount d.trig (wf v 16 16), qmax := w1cCount d.qmax (wf v 8 8) }
  else if o = 0x1C then { d with rmw := w1cCount d.rmw (wf v 16 16), merged := w1cCount d.merged (wf v 0 16) }
  else if o = 0x20 then { d with late := w1cCount d.late (wf v 16 16) }
  else if o = 0x24 then { d with irq := w1c d.irq (wf v 0 5) }
  else if o = 0x40 then { d with lt0 := ltOf v }
  else if o = 0x44 then { d with lt1 := ltOf v }
  else if o = 0x48 then { d with lt2 := ltOf v }
  else if o = 0x4C then { d with lt3 := ltOf v }
  else if o = 0x50 then { d with lt4 := ltOf v }
  else d

/-- A write in a DRAM controller's window. -/
def drcWrite (n o : Nat) (v : BitVec 32) (s : State) : State := modDrc n (drcField o v) s

/-! ## REEL, SPN, TASK -/

/-- A write in the REEL window (R87–R91, R206, R215). -/
def reelWrite (o : Nat) (v : BitVec 32) (s : State) : State :=
  if o = 0x20 then
    modReel (fun u => { u with vcount := w1cCount u.vcount (wf v 16 16), vbits := w1c u.vbits (wf v 0 6) }) s
  else if o = 0x30 then writeMode (wf v 0 4) s
  else if 0x1000 ≤ o ∧ o < 0x2000 then
    let n := (o - 0x1000) / 16
    if o % 16 = 0 then modCls n (fun c => { c with limPend := some (wf v 0 8) }) s
    else if o % 16 = 8 then
      modCls n (fun c => { c with failed := w1cCount c.failed (wf v 16 16), unbound := w1cCount c.unbound (wf v 0 16) }) s
    else s
  else s

/-- A write of 1 to SPN_CTL.RESTART (R132, R133): no effect unless STATE is 3. -/
def restartRequest (n : Nat) (s : State) : State :=
  modSpn n (fun x => if x.state = 3 then { x with restart := true } else x) s

/-- SPINDLE_RESTART_REQUEST (R133). -/
def execSpindleRestartRequest (n : BitVec 6) (s : State) : Out :=
  if n.toNat < nSpindles s then .next (restartRequest n.toNat s) else .next s

/-- A write in a spindle's window (R133, R134, R138). -/
def spnWrite (o : Nat) (v : BitVec 32) (s : State) : State :=
  let n := o / 0x1000
  let r := o % 0x1000
  if r = 0x0 then (if bit v 0 then restartRequest n s else s)
  else if r = 0x4 then modSpn n (fun x => { x with ovr := x.ovr && !bit v 16 }) s
  else if r = 0x14 then modSpn n (fun x => { x with corr := w1cCount x.corr (wf v 16 16) }) s
  else s

/-- A write of TASK_CMD, TASK_BUF or TASK_CHAIN (R315, R316): ignored, with BUSYW, while the set runs. -/
def taskField (k : Nat) (f : TaskSet → TaskSet) (s : State) : State :=
  modTask k (fun x => if x.state = 1 then { x with busyw := true } else f x) s

/-- A write in a task register set's window (R313–R316). -/
def taskWrite (o : Nat) (v : BitVec 32) (s : State) : State :=
  let k := o / 0x400
  let r := o % 0x400
  if r < 0x40 then taskField k (fun x => { x with cmd := mset 0 (r / 4) v x.cmd }) s
  else if r = 0x60 then taskField k (fun x => { x with buf := put40lo x.buf v }) s
  else if r = 0x64 then taskField k (fun x => { x with buf := put40hi x.buf v }) s
  else if r = 0x68 then taskField k (fun x => { x with chain := put40lo x.chain v }) s
  else if r = 0x6C then taskField k (fun x => { x with chain := put40hi x.chain v }) s
  else if r = 0x70 then
    let s := taskChainBit k (bit v 1) s
    let s := if bit v 0 then taskGo k s else s
    if bit v 2 then taskCancel k s else s
  else if r = 0x74 then
    let s := if bit v 29 then modTask k (fun x => { x with busyw := false }) s else s
    if bit v 28 then taskDoneClear k s else s
  else s

/-! ## NET, XPT, PIER -/

/-- A write of NET_LANE's locked fields (R223, R264): a write that takes effect locks TX_REV against step 5. DEDUCED, log entry 86. -/
def laneWrite (p : Nat) (o : Nat) (v : BitVec 32) (s : State) : State :=
  let x := portOf s p
  rwl (blockRuns s) (x.txRev ≠ bit v 25 || x.txPol ≠ wf v 16 8) 8 o v
    (modPort p (fun x => { x with txRev := bit v 25, txPol := wf v 16 8, txRevLock := true })) s

/-- A write in a port's window (R262–R266); `o` is the offset in the NET windows. -/
def netWrite (o : Nat) (v : BitVec 32) (s : State) : State :=
  let p := o / 0x10000
  let r := o % 0x10000
  let k := r / 0x100
  let x := portOf s p
  if 0x80000 ≤ o then s
  else if r = 0x0 then
    rwl (blockRuns s) (x.vlanEn ≠ wf v 4 4) 8 (0x400000 + o) v (modPort p (fun x => { x with vlanEn := wf v 4 4 })) s
  else if r = 0x4 then
    modPort p (fun x => { x with retry := w1cCount x.retry (wf v 24 8), chg := w1c x.chg (wf v 8 4) }) s
  else if r = 0x8 then laneWrite p (0x400000 + o) v s
  else if r < 0x400 && r % 0x100 = 0xC then
    rwl (blockRuns s) (mget 0 x.vlan k ≠ wf v 0 12) 8 (0x400000 + o) v
      (modPort p (fun x => { x with vlan := mset 0 k (wf v 0 12) x.vlan })) s
  else if r < 0x400 && 0x40 ≤ r % 0x100 && r % 0x100 < 0x80 && r % 8 = 0 then
    modPort p (fun x => { x with cnt := mset 0 (8 * k + (r % 0x100 - 0x40) / 8) 0 x.cnt }) s
  else s

/-- A write of one word of a sub-port's addresses (R272). -/
def addrWrite (k : Nat) (v : BitVec 32) (a : SubAddr) : SubAddr :=
  let put := fun (i : Nat) => (a.ip6 &&& ~~~ ((0xFFFFFFFF : BitVec 128) <<< (32 * i))) ||| (v.setWidth 128 <<< (32 * i))
  if k = 0x0 then { a with mac := (a.mac &&& 0xFFFF00000000) ||| v.setWidth 48 }
  else if k = 0x4 then { a with mac := (a.mac &&& 0x0000FFFFFFFF) ||| ((v.setWidth 16).setWidth 48 <<< 32) }
  else if k = 0x8 then { a with ip4 := v }
  else if k = 0x10 then { a with ip6 := put 0 }
  else if k = 0x14 then { a with ip6 := put 1 }
  else if k = 0x18 then { a with ip6 := put 2 }
  else if k = 0x1C then { a with ip6 := put 3 }
  else a

/-- A write in the transport engine's window (R270–R272). -/
def xptWrite (o : Nat) (v : BitVec 32) (s : State) : State :=
  if o = 0x4 then modXpt (fun u => { u with miss := w1cCount u.miss (wf v 0 16) }) s
  else if o = 0x8 then
    rwl (blockRuns s) (s.xpt.listen ≠ wf v 0 16) 8 (0x800000 + o) v
      (fun s => (modXpt (fun u => { u with listen := wf v 0 16 }) s)) s
  else if 0x1000 ≤ o ∧ o < 0x1800 then
    let k := (o - 0x1000) / 0x40
    let a := mget {} s.xpt.addrs k
    let b := addrWrite (o % 0x40) v a
    rwl (blockRuns s) (a ≠ b) 8 (0x800000 + o) v (fun s => (modXpt (fun u => { u with addrs := mset {} k b u.addrs }) s)) s
  else s

/-- PIER_CFG's locked fields as a write would leave them (R407). -/
def pierCfg (v : BitVec 32) (x : Chan) : Chan :=
  { x with tgtExp := wf v 16 16, slew := wf v 12 2, loads := wf v 8 3, rateMax := wf v 4 4 }

/-- Bring-up begins (R381): once, from STATE 0. -/
def bringUp (c : Nat) (s : State) : State :=
  if (chan s c).state = 0 then modChan c (fun x => { x with state := 1, step := 1 }) s else s

/-- A write in a channel's window (R407, R411, R412, R414); `o` is the offset in the PIER windows. -/
def pierWrite (o : Nat) (v : BitVec 32) (s : State) : State :=
  let c := o / 0x10000
  let r := o % 0x10000
  let x := chan s c
  if r = 0x0 then
    let s := rwl (x.state ≠ 0) (pierCfg v x ≠ x) 9 (0x1000000 + o) v (modChan c (pierCfg v)) s
    let s := if bit v 1 then bringUp c s else s
    if bit v 0 then fenceChannel c 5 s else s
  else if r = 0x20 then
    modChan c (fun x => { x with hfail := w1cCount x.hfail (wf v 16 16), softOk := w1cCount x.softOk (wf v 8 8),
                                 uncorr := w1cCount x.uncorr (wf v 0 8) }) s
  else if r = 0x24 then modChan c (fun x => { x with ovrCount := w1cCount x.ovrCount (wf v 16 16) }) s
  else if r = 0x2C then modChan c (fun x => { x with irq := w1c x.irq (wf v 0 10) }) s
  else s

/-! ## CIPH, VCT, SPAN -/

/-- A write in the CIPH window (R452, R453, R455, R456, R6). -/
def ciphWrite (o : Nat) (v : BitVec 32) (s : State) : State :=
  let c := s.ciph
  if o = 0x0 then modCiph (fun _ => { c with ksel := wf v 0 14 }) s
  else if o = 0x4 then
    if bit v 31 then keyGo (wf v 16 4) (wf v 8 4) (wf v 0 6) s
    else modCiph (fun _ => { c with op := wf v 16 4, use := wf v 8 4, limit := wf v 0 6 }) s
  else if o = 0x8 then modCiph (fun _ => { c with kvc := wf v 0 12 }) s
  else if o = 0xC then modCiph (fun _ => { c with kdst := wf v 0 14 }) s
  else if 0x20 ≤ o ∧ o < 0x40 then modCiph (fun _ => { c with kdata := mset 0 ((o - 0x20) / 4) v c.kdata }) s
  else if 0x40 ≤ o ∧ o < 0x68 then modCiph (fun _ => { c with kwrap := mset 0 ((o - 0x40) / 4) v c.kwrap }) s
  else if o = 0x80 then modCiph (fun _ => { c with cmp0 := w1c c.cmp0 (v &&& (cmpMask s).1) }) s
  else if o = 0x84 then modCiph (fun _ => { c with cmp1 := w1c c.cmp1 (wf v 0 16 &&& (cmpMask s).2) }) s
  else if o = 0x88 then modCiph (fun _ => { c with cmpcnt := w1cCount c.cmpcnt (wf v 0 16) }) s
  else s

/-- A write in the VCT window (R457, R459). -/
def vctWrite (o : Nat) (v : BitVec 32) (s : State) : State :=
  if o = 0x0 then modVct (fun u => { u with idx := wf v 0 12 }) s
  else if o = 0x8 then modVct (fun u => { u with recReg := put40lo u.recReg v }) s
  else if o = 0xC then modVct (fun u => { u with recReg := put40hi u.recReg v }) s
  else if o = 0x14 then
    if bit v 31 then vctGo (wf v 16 4) (wf v 8 8) s
    else modVct (fun u => { u with op := wf v 16 4, cls := wf v 8 8 }) s
  else s

/-- SPAN_CFG's fields as a write would leave them (R610). -/
def spanCfg (v : BitVec 32) (x : Span) : Span :=
  { x with cfgId := wf v 16 16, member := wf v 8 4, count := wf v 4 4, enable := bit v 0 }

/-- SPAN_PTP's fields as a write would leave them (R610). -/
def spanPtp (v : BitVec 32) (x : Span) : Span := { x with domain := wf v 8 8, port := wf v 0 6 }

/-- A write in the SPAN window (R610). -/
def spanWrite (o : Nat) (v : BitVec 32) (s : State) : State :=
  if o = 0x0 then
    rwl (blockRuns s) (spanCfg v s.span ≠ s.span) 0xC (0x2200000 + o) v (fun s => (modSpan (fun _ => spanCfg v s.span) s)) s
  else if o = 0x4 then
    rwl (blockRuns s) (spanPtp v s.span ≠ s.span) 0xC (0x2200000 + o) v (fun s => (modSpan (fun _ => spanPtp v s.span) s)) s
  else if o = 0x8 then modSpan (fun u => { u with badu := u.badu && !bit v 3 }) s
  else if o = 0x20 then
    let s := if bit v 1 then spanFence s else s
    if bit v 0 then unfence s else s
  else s

/-! ## One word of control space -/

/-- A write of the register at an offset of control space. A DMA channel that it starts has its data still to move. -/
def regWrite0 (o : Nat) (v : BitVec 32) (s : State) : State :=
  if o < 0x10000 then sysWrite o v s
  else if o < 0x20000 then pwrWrite (o - 0x10000) v s
  else if o < 0x30000 then clkWrite (o - 0x20000) v s
  else if o < 0x40000 then intcWrite (o - 0x30000) v s
  else if o < 0x50000 then dmaWrite (o - 0x40000) v s
  else if o < 0x60000 then bacWrite (o - 0x50000) v s
  else if o < 0x70000 then fcrWrite (o - 0x60000) v s
  else if o < 0x80000 then evrWrite (o - 0x70000) v s
  else if o < 0x90000 then thmWrite (o - 0x80000) v s
  else if o < 0xA0000 then mempWrite (o - 0x90000) v s
  else if o < 0xE0000 then drcWrite ((o - 0xA0000) / 0x10000) (o % 0x10000) v s
  else if o < 0x200000 then reelWrite (o - 0x100000) v s
  else if o < 0x300000 then spnWrite (o - 0x200000) v s
  else if o < 0x400000 then taskWrite (o - 0x300000) v s
  else if o < 0x800000 then netWrite (o - 0x400000) v s
  else if o < 0x1000000 then xptWrite (o - 0x800000) v s
  else if o < 0x2000000 then pierWrite (o - 0x1000000) v s
  else if o < 0x2100000 then ciphWrite (o - 0x2000000) v s
  else if o < 0x2200000 then vctWrite (o - 0x2100000) v s
  else if o < 0x2300000 then spanWrite (o - 0x2200000) v s
  else s

end Sys2Proof.Machine
end

