-- ==== Sys2Proof/Machine/Dma.lean ====
section
/-! DEFINITION. How a DMA descriptor's data moves (R532, R534, R536, R487), and 32-bit writes of control space by a
supervisor (R11, R13, R29), which start the channels. -/

namespace Sys2Proof.Machine

/-! ## Pieces (R532, R534) -/

/-- The bytes of the piece that begins at byte `off`: one word to or from a fixed side that does not fill units, else as
far as the destination's unit goes. -/
def pieceLen (d : DmaDesc) (off : Nat) : Nat :=
  if dmaFlag d 4 || (dmaFlag d 3 && d.dst.toNat % 4 ≠ 0) then 4
  else min (32 - (d.dst.toNat + off) % 32) (d.len.toNat - off)

/-- The pieces of a descriptor upward, as (first byte, bytes); the fuel is the length. -/
def piecesUp (d : DmaDesc) : Nat → Nat → List (Nat × Nat)
  | 0, _ => []
  | f + 1, off => if d.len.toNat ≤ off then [] else (off, pieceLen d off) :: piecesUp d f (off + pieceLen d off)

/-- The ranges overlap and the destination starts above the source (R534). -/
def copiesDown (d : DmaDesc) : Bool :=
  !dmaFlag d 2 && !dmaFlag d 3 && !dmaFlag d 4 && decide (d.src.toNat < d.dst.toNat) &&
    decide (d.dst.toNat < d.src.toNat + d.len.toNat)

/-- The pieces in the order they move. DEDUCED, log entry 89. -/
def dmaPieces (d : DmaDesc) : List (Nat × Nat) :=
  let l := piecesUp d d.len.toNat 0
  if copiesDown d then l.reverse else l

/-- Cut a range at a unit boundary. -/
def cutUnits (a n : Nat) : List (Nat × Nat) :=
  if a % 32 + n ≤ 32 then [(a, n)] else [(a, 32 - a % 32), (a + (32 - a % 32), n - (32 - a % 32))]

/-! ## Progress -/

/-- A transfer under way: bytes written, whether it has stopped, and the state. -/
structure Moving where
  done : Nat
  stopped_ : Bool
  st   : State

/-- What the reads of one piece have found: bytes (by offset from the piece's first), poison, and the stop. -/
structure Gather where
  bytes  : List (Nat × BitVec 8)
  poison : Bool
  stopped_   : Bool
  st     : State

/-- Halt a transfer. -/
def haltAt (n cause : BitVec 4) (a : Nat) (k : Need) (d : DmaDesc) (done : Nat) (s : State) : State :=
  dmaHalt n cause a k (d.len.toNat - done) s

/-- Read one part of a piece, within a unit. -/
def gatherMem (n : BitVec 4) (d : DmaDesc) (done base : Nat) (g : Gather) (r : Nat × Nat) : Gather :=
  if g.stopped_ then g
  else
    match dmaBar g.st n r.1 r.2 .read false with
    | some c => { g with stopped_ := true, st := haltAt n c r.1 .read d done g.st }
    | none =>
      let bs := portBytes g.st r.1 r.2
      let (p, s) := readPoison r.1 r.2 g.st
      { bytes := g.bytes ++ (List.range r.2).map (fun k => (r.1 - base + k, bs.getD k 0)), poison := g.poison || p, stopped_ := false,
        st := s }

/-- Read a fixed source once, as the word at byte `off` of a piece. -/
def gatherFixed (n : BitVec 4) (d : DmaDesc) (done : Nat) (g : Gather) (off : Nat) : Gather :=
  let a := d.src.toNat
  if g.stopped_ then g
  else
    match dmaBar g.st n a 4 .read true with
    | some c => { g with stopped_ := true, st := haltAt n c a .read d done g.st }
    | none =>
      let put := fun (w : List (BitVec 8)) => (List.range 4).map (fun k => (off + k, w.getD k 0))
      match placeOf g.st a with
      | .control =>
        let (v, s) := regRead (a - ctlBase) g.st
        { g with bytes := g.bytes ++ put (leBytes 4 v.toNat), st := s }
      | _ =>
        let w := portBytes g.st a 4
        let (p, s) := readPoison a 4 g.st
        { g with bytes := g.bytes ++ put w, poison := g.poison || p, st := s }

/-- Read what a piece carries. -/
def gather (n : BitVec 4) (d : DmaDesc) (done off len : Nat) (s : State) : Gather :=
  let g : Gather := { bytes := [], poison := false, stopped_ := false, st := s }
  if dmaFlag d 2 then
    { g with bytes := (List.range len).map (fun k => (k, (d.src >>> (8 * ((off + k) % 8))).setWidth 8)) }
  else if dmaFlag d 3 then ((List.range (len / 4)).map (4 * ·)).foldl (gatherFixed n d done) g
  else
    let parts := cutUnits (d.src.toNat + off) len
    (if copiesDown d then parts.reverse else parts).foldl (gatherMem n d done (d.src.toNat + off)) g

/-- The byte a gathering found at an offset of its piece. -/
def gathered (l : List (Nat × BitVec 8)) (k : Nat) : BitVec 8 := mget 0 l k

/-- Write a piece to a fixed destination (R532, R536 cause 3). -/
def putFixed (n : BitVec 4) (d : DmaDesc) (m : Moving) (g : Gather) : Moving :=
  let a := d.dst.toNat
  if g.poison then { m with stopped_ := true, st := haltAt n 3 d.src.toNat .read d m.done g.st }
  else
    match dmaBar g.st n a 4 .write true with
    | some c => { m with stopped_ := true, st := haltAt n c a .write d m.done g.st }
    | none =>
      let bs := (List.range 4).map (gathered g.bytes)
      match placeOf g.st a with
      | .control => { done := m.done + 4, stopped_ := false, st := regWrite0 (a - ctlBase) (w32 (leNat bs)) g.st }
      | _ => { done := m.done + 4, stopped_ := false, st := busWrite none a bs g.st }

/-- Write one part of a piece within a unit of SRAM or DRAM: poison goes with it (R487). -/
def putPart (n : BitVec 4) (d : DmaDesc) (base : Nat) (g : Gather) (m : Moving) (r : Nat × Nat) : Moving :=
  if m.stopped_ then m
  else
    match dmaBar m.st n r.1 r.2 .write false with
    | some c => { m with stopped_ := true, st := haltAt n c r.1 .write d m.done m.st }
    | none =>
      let s := busWrite none r.1 ((List.range r.2).map (fun k => gathered g.bytes (r.1 - base + k))) m.st
      { done := m.done + r.2, stopped_ := false, st := if g.poison then setPoison (r.1 / 32) true s else s }

/-- The channel still runs this descriptor: a write it made may have reset the device. -/
def stillRuns (n : BitVec 4) (d : DmaDesc) (s : State) : Bool :=
  (dmaOf s n.toNat).state = 1 && decide ((dmaOf s n.toNat).run = some d)

/-- Move one piece. -/
def movePiece (n : BitVec 4) (d : DmaDesc) (m : Moving) (p : Nat × Nat) : Moving :=
  if m.stopped_ || !stillRuns n d m.st then { m with stopped_ := true }
  else
    let g := gather n d m.done p.1 p.2 m.st
    if g.stopped_ then { m with stopped_ := true, st := g.st }
    else if dmaFlag d 4 then putFixed n d m g
    else
      let parts := cutUnits (d.dst.toNat + p.1) p.2
      (if copiesDown d then parts.reverse else parts).foldl (putPart n d (d.dst.toNat + p.1) g) { m with st := g.st }

/-- Move the data of the descriptor a channel has taken, unless it has moved (R534, R536). DEDUCED, log entry 89. -/
def dmaMove (n : BitVec 4) (s : State) : State :=
  match (dmaOf s n.toNat).run with
  | none => s
  | some d =>
    if (dmaOf s n.toNat).moved then s
    else
      let m := (dmaPieces d).foldl (movePiece n d) { done := 0, stopped_ := false, st := s }
      if m.stopped_ then m.st else modDma n.toNat (fun c => { c with moved := true }) m.st

/-! ## Writes of control space -/

/-- The channel that a write of control space may start: the one whose DMA_CTL it is. -/
def startsChannel (o : Nat) : Option (BitVec 4) :=
  if 0x40000 ≤ o ∧ o < 0x41000 ∧ o % 0x100 = 0 then some (BitVec.ofNat 4 ((o - 0x40000) / 0x100)) else none

/-- A write of the register at an offset, with the data of a DMA channel it starts. -/
def regWrite (o : Nat) (v : BitVec 32) (s : State) : State :=
  match startsChannel o with
  | some n => dmaMove n (regWrite0 o v s)
  | none => regWrite0 o v s

/-- A 32-bit write of control space by a supervisor; none for a bus fault (R11, R29). -/
def ctlWrite (a : Nat) (v : BitVec 32) (s : State) : Option State :=
  match placeOf s a with
  | .control => if a % 4 = 0 then some (regWrite (a - ctlBase) v s) else none
  | _ => none

/-- What a control-register write command answers. -/
def answerWrite (r : Option State) (s : State) : State :=
  match r with
  | some s' => { s' with bus := { data := 0, fault := false } }
  | none => { s with bus := { data := 0, fault := true } }

/-! ## DMA rows -/

/-- DMA_GO (R534–R538): a write of DMA_CTL with GO and the CHAIN bit given. -/
def execDmaGo (n : BitVec 4) (chain : Bool) (s : State) : Out :=
  .next (dmaMove n (dmaGo n (modDma n.toNat (fun c => { c with chained := chain }) s)))

/-- DMA_CANCEL (R537). -/
def execDmaCancel (n : BitVec 4) (s : State) : Out := .next (dmaCancel n s)

/-- DMA_DESCRIPTOR_COMPLETE (R533, R535): the writes of the descriptor are visible; what its Status, count and pulse say
follows, and the data of a next descriptor moves. -/
def execDmaDescriptorComplete (n : BitVec 4) (s : State) : Out :=
  let s := dmaMove n s
  match (dmaOf s n.toNat).run with
  | none => .next s
  | some d => if (dmaOf s n.toNat).state = 1 then .next (dmaMove n (dmaEnd n d s)) else .next s

/-- DMA_ERROR_CLEAR (R538): a write of 1 to DMA_STAT.ERR. -/
def execDmaErrorClear (n : BitVec 4) (s : State) : Out := .next (dmaErrClear n s)

end Sys2Proof.Machine
end

