-- ==== Sys2Proof/Machine/Flags.lean ====
section
/-! DEFINITION. The predicate results of the compare and predicate instructions (R105, R106). The part has no flags
register: a compare writes one p register. -/

namespace Sys2Proof.Machine

/-- A = B. -/
def cmpEq (a b : BitVec 64) : Bool := decide (a = b)
/-- A ≠ B. -/
def cmpNe (a b : BitVec 64) : Bool := decide (a ≠ b)
/-- A < B, signed. -/
def cmpLt (a b : BitVec 64) : Bool := BitVec.slt a b
/-- A < B, unsigned. -/
def cmpLtu (a b : BitVec 64) : Bool := BitVec.ult a b
/-- A ≥ B, signed. -/
def cmpGe (a b : BitVec 64) : Bool := BitVec.sle b a
/-- A ≥ B, unsigned. -/
def cmpGeu (a b : BitVec 64) : Bool := BitVec.ule b a

/-- The predicate function FN of PLOG; none for an FN that R106 does not list. -/
def plogFn (fn : BitVec 3) (a b : Bool) : Option Bool :=
  match fn.toNat with
  | 0 => some (a && b)
  | 1 => some (a || b)
  | 2 => some (Bool.xor a b)
  | 3 => some (a && !b)
  | 4 => some (!a)
  | 5 => some a
  | _ => none

end Sys2Proof.Machine
end

