-- ==== Sys2Proof/Machine/Operands.lean ====
section
/-! DEFINITION. What every instruction is built from, on a spindle and on a distaff core: the registers it reads as its bundle
issues, where its results go, the addresses and the memory it reaches, and the cause it stops with (R94–R105, R112–R116, R129,
R141–R144, R148, R515). -/

namespace Sys2Proof.Machine

/-! ## An instruction as it issues -/

/-- What a cause says besides its code: nothing, a refused access, a busy bank, a wrong word of memory, a wrong scratch word. -/
inductive Note where
  | none
  | prot (a : Nat) (k : Need)
  | busy (a : Nat)
  | ecc (a : Nat) (e : Ecc)
  | scratch (word : Nat)
  deriving DecidableEq, Repr

/-- Why a bundle stops: a cause of R129 with what SPN_FADDR holds, or a TCAUSE of R144 with TVAL. -/
structure Cause where
  code : BitVec 8
  val  : BitVec 64 := 0
  note : Note := Note.none
  deriving DecidableEq, Repr

/-- What an instruction sees: the state as its bundle issues, its engine, and what ECC finds in the word it reads. -/
structure Ctx where
  pre  : State
  eng  : Engine
  slot : Nat
  mem  : Ecc

/-- What an instruction does to the fetch sequence (R107, R109, R145, R147). -/
inductive Flow where
  | seq
  | branch (upto : BitVec 64)
  | stop
  | ret (x y z : BitVec 64)
  deriving DecidableEq, Repr

/-- An instruction: the slots that allow it (R98), the registers it reads, the cause it stops with, and its effect. The second argument of `check` and `run`
is the state after the lower slots of its bundle. -/
structure Act where
  slots : List Nat
  reads : List RegId := []
  check : Ctx → State → Option Cause := fun _ _ => none
  run   : Ctx → State → State := fun _ s => s
  flow  : Ctx → Flow := fun _ => Flow.seq

/-- An illegal instruction (R129, R144). -/
def illegal : Cause := { code := 1 }

/-- An instruction that is illegal in every slot. -/
def actIllegal : Act := { slots := [0, 1, 2, 3], check := fun _ _ => some illegal }

/-! ## Registers (R94, R100) -/

/-- A g register: g0 reads 0. -/
def regG (s : State) (e : Engine) (n : BitVec 6) : BitVec 64 :=
  if n = 0 then 0 else match e with
    | .spindle k => mget 0 (spn s k.toNat).g n.toNat
    | .core k => mget 0 (coreOf s k.toNat).g n.toNat

/-- A v register. -/
def regV (s : State) (e : Engine) (n : BitVec 4) : BitVec 256 :=
  match e with
  | .spindle k => mget 0 (spn s k.toNat).v n.toNat
  | .core k => mget 0 (coreOf s k.toNat).v n.toNat

/-- A p register: p0 reads 1. -/
def regP (s : State) (e : Engine) (n : BitVec 3) : Bool :=
  if n = 0 then true else match e with
    | .spindle k => mget false (spn s k.toNat).p n.toNat
    | .core k => mget false (coreOf s k.toNat).p n.toNat

/-- A g register as the bundle issues. -/
def rdG (c : Ctx) (n : BitVec 6) : BitVec 64 := regG c.pre c.eng n
/-- A v register as the bundle issues. -/
def rdV (c : Ctx) (n : BitVec 4) : BitVec 256 := regV c.pre c.eng n
/-- A p register as the bundle issues. -/
def rdP (c : Ctx) (n : BitVec 3) : Bool := regP c.pre c.eng n

/-- A result lands in a spindle's register: g0 and p0 discard it (R94). -/
def landSpn (r : RegId) (v : BitVec 256) (x : Spindle) : Spindle :=
  match r with
  | .g n => if n = 0 then x else { x with g := mset 0 n.toNat (v.setWidth 64) x.g }
  | .v n => { x with v := mset 0 n.toNat v x.v }
  | .p n => if n = 0 then x else { x with p := mset false n.toNat (v.getLsbD 0) x.p }

/-- A result lands in a core's register. -/
def landCore (r : RegId) (v : BitVec 256) (x : CoreSt) : CoreSt :=
  match r with
  | .g n => if n = 0 then x else { x with g := mset 0 n.toNat (v.setWidth 64) x.g }
  | .v n => { x with v := mset 0 n.toNat v x.v }
  | .p n => if n = 0 then x else { x with p := mset false n.toNat (v.getLsbD 0) x.p }

/-- The number of a register among a core's landing cycles. -/
def regNumber (r : RegId) : Nat :=
  match r with
  | .g n => n.toNat
  | .v n => 64 + n.toNat
  | .p n => 128 + n.toNat

/-- A core's result of latency `lat` (R101, R141): every bundle that reads the register waits for all of its results, so the register
holds the one that lands last. -/
def coreLand (r : RegId) (v : BitVec 256) (lat : Nat) (x : CoreSt) : CoreSt :=
  let t := x.cycles.toNat + lat
  if mget 0 x.due (regNumber r) ≤ t then { landCore r v x with due := mset 0 (regNumber r) t x.due } else x

/-- A result of latency `lat` (R100, R141): on a spindle it is in flight until its cycle; a core is interlocked, so no later bundle
reads the register before it. -/
def put (c : Ctx) (r : RegId) (v : BitVec 256) (lat : Nat) (s : State) : State :=
  match c.eng with
  | .spindle n => modSpn n.toNat (fun x => { x with
      fly := x.fly ++ [{ reg := r, val := v, due := s.reel.core + lat, at_ := s.reel.core, slot := c.slot }] }) s
  | .core n => modCore n.toNat (coreLand r v lat) s

/-- A result for a g register. -/
def putG (c : Ctx) (d : BitVec 6) (v : BitVec 64) (lat : Nat) (s : State) : State := put c (.g d) (v.setWidth 256) lat s
/-- A result for a v register. -/
def putV (c : Ctx) (d : BitVec 4) (v : BitVec 256) (lat : Nat) (s : State) : State := put c (.v d) v lat s
/-- A result for a p register. -/
def putP (c : Ctx) (d : BitVec 3) (v : Bool) (lat : Nat) (s : State) : State := put c (.p d) (if v then 1 else 0) lat s

/-- The address of the bundle that issues. -/
def pcOf (s : State) (e : Engine) : BitVec 64 :=
  match e with
  | .spindle n => BitVec.ofNat 64 (spn s n.toNat).a0
  | .core n => (coreOf s n.toNat).a0

/-- The engine is a spindle. -/
def isSpindle (e : Engine) : Bool := match e with | .spindle _ => true | .core _ => false

/-- An address: A plus the scaled, sign-extended immediate, in 64 bits (R104, R112). -/
def addrOf {w : Nat} (c : Ctx) (a : BitVec 6) (imm : BitVec w) (scale : Nat) : BitVec 64 :=
  rdG c a + imm.signExtend 64 * BitVec.ofNat 64 scale

/-! ## Scratch memory (R112–R116, R487, R488) -/

/-- A byte of scratch memory. -/
def scByte (x : Spindle) (a : Nat) : BitVec 8 := mget 0 x.scratch a

/-- Bytes of scratch memory as a number. -/
def scRead (x : Spindle) (a n : Nat) : BitVec 256 := BitVec.ofNat 256 (leNat ((List.range n).map (fun k => scByte x (a + k))))

/-- Write bytes of scratch memory; a write of a whole word clears its poison (R488). -/
def scWrite (a : Nat) (bs : List (BitVec 8)) (x : Spindle) : Spindle :=
  { x with scratch := putBytes a bs x.scratch
           scBad := if bs.length = 32 && a % 32 = 0 then mset false (a / 32) false x.scBad else x.scBad }

/-- What bars a scratch access: misaligned, out of range, an uncorrectable word (R112, R113, R116, R129). -/
def scBar (x : Spindle) (a : BitVec 64) (len : Nat) (reads : Bool) (mem : Ecc) : Option Cause :=
  if a.toNat % len ≠ 0 then some { code := 3, val := a }
  else if 0x40000 < a.toNat + len then some { code := 2, val := a }
  else if reads && (mget false x.scBad (a.toNat / 32) || mem = Ecc.uncorrectable) then
    some { code := 5, val := BitVec.ofNat 64 (a.toNat / 32 * 32), note := Note.scratch (a.toNat / 32) }
  else none

/-- A corrected error counts in SPN_ECC (R116). -/
def scCount (n : Nat) (mem : Ecc) (s : State) : State :=
  if mem = Ecc.corrected then sramCandidate (0x100 + n) (modSpn n (fun x => { x with corr := satInc x.corr }) s) else s

/-! ## A core's memory (R32, R142, R143, R148, R487, R515) -/

/-- What memory protection says of a core's access: only a user-mode access is checked, `pv` being STATUS.PRIV as its bundle issues
(R100, R143). -/
def coreProt (pv : Bool) (s : State) (n : BitVec 4) (a len : Nat) (k : Need) (code : BitVec 8) : Option Cause :=
  if pv || protAllows s (.core n) a len k then none
  else some { code := code, val := BitVec.ofNat 64 a, note := Note.prot a k }

/-- The bytes are wrong: stored poisoned, or found uncorrectable by this read. -/
def wrongData (s : State) (a len : Nat) (mem : Ecc) : Bool :=
  match placeOf s a with
  | .boot o => bootBad s o len || mem = Ecc.uncorrectable
  | .control => false
  | .nowhere => false
  | _ => poisoned s a len || mem = Ecc.uncorrectable

/-- A load of the boot-array window hits a line the data cache still holds, which answers as it was filled, whatever the array holds now
(R148); whether it is still held is free. -/
def bootHit (s : State) (n o : Nat) : Bool :=
  cacheable s o && decide (mget [] (coreOf s n).bline (o / 64) ≠ []) && Config.freeBool s.draws

/-- A fetch hits a line the instruction cache still holds (R148); whether it is still held is free. -/
def fetchHit (s : State) (n a : Nat) : Bool :=
  cacheable s a && decide (mget [] (coreOf s n).iline (a / 64) ≠ []) && Config.freeBool s.draws

/-- A read finds wrong data: not in a line of the boot array that its cache still holds. -/
def wrongRead (s : State) (n a len : Nat) (mem : Ecc) : Bool :=
  match placeOf s a with
  | .boot o => !bootHit s n o && wrongData s a len mem
  | _ => wrongData s a len mem

/-- What bars a load or store: misaligned, bus, protection, uncorrectable data, in this order (R142, R144). DESIGN CHOICE, log entry 139. -/
def coreBar (pv : Bool) (s : State) (n : BitVec 4) (a : BitVec 64) (len : Nat) (k : Need) (mem : Ecc) : Option Cause :=
  let x := a.toNat
  let bus : Option Cause := some { code := 5, val := a }
  let rest : Option Cause :=
    match coreProt pv s n x len k 7 with
    | some e => some e
    | none => if k = .read && wrongRead s n.toNat x len mem then some { code := 0xA, val := a, note := Note.ecc x mem } else none
  if x % len ≠ 0 then some { code := 3, val := a }
  else if 2 ^ 40 ≤ x then bus
  else match placeOf s x with
    | .nowhere => bus
    | .control => if len = 4 then rest else bus
    | .boot o =>
      if k = .write then bus
      else if bankBusy s o then some { code := 5, val := a, note := Note.busy x }
      else rest
    | _ => rest

/-- What bars a fetch of a bundle: a bundle is an aligned access of 16 bytes (R31, R32, R144, R487). DEDUCED, log entry 22. -/
def fetchBar (s : State) (n : BitVec 4) (a : BitVec 64) (mem : Ecc) : Option Cause :=
  let x := a.toNat
  let bus : Option Cause := some { code := 6, val := a }
  let rest : Option Cause :=
    match coreProt (coreOf s n.toNat).priv s n x 16 .fetch 8 with
    | some e => some e
    | none => if !fetchHit s n.toNat x && wrongData s x 16 mem then some { code := 0xA, val := a, note := Note.ecc x mem } else none
  if 2 ^ 40 ≤ x || x % 16 ≠ 0 then bus
  else match placeOf s x with
    | .nowhere => bus
    | .control => bus
    | .boot o => if bankBusy s o then some { code := 6, val := a, note := Note.busy x } else rest
    | _ => rest

/-- What bars a memory access of either engine. -/
def memBar (c : Ctx) (s : State) (a : BitVec 64) (len : Nat) (k : Need) : Option Cause :=
  match c.eng with
  | .spindle n => scBar (spn s n.toNat) a len (k = .read) c.mem
  | .core n => coreBar (coreOf c.pre n.toNat).priv s n a len k c.mem

/-- The 64 bytes of a line of the boot array. -/
def bootLine (s : State) (line : Nat) : List (BitVec 8) := (List.range 64).map (fun k => bacByte s.bac (line * 64 + k))

/-- A read of the boot-array window through a core's data cache (R148): a line still held answers as it was filled; whether it is
still held is free. -/
def bootLoad (n a len : Nat) (s : State) : List (BitVec 8) × State :=
  if !cacheable s a then ((List.range len).map (fun k => bacByte s.bac (a + k)), s)
  else
    let hit := bootHit s n a
    let held := mget [] (coreOf s n).bline (a / 64)
    let (_, s) := drawBool s
    let l := if hit then held else bootLine s (a / 64)
    let s := modCore n (fun x => { x with bline := mset [] (a / 64) l x.bline }) s
    ((l.drop (a % 64)).take len, s)

/-- A core's load: its bytes, and what the read itself changes. -/
def coreLoad (n : BitVec 4) (a len : Nat) (mem : Ecc) (s : State) : List (BitVec 8) × State :=
  match placeOf s a with
  | .control =>
    match ctlRead a s with
    | some (w, s) => (leBytes 4 w.toNat, s)
    | none => (leBytes len 0, s)
  | .boot o =>
    let s := if mem = Ecc.corrected then (modBac (fun u => { u with corr := satInc u.corr }) s) else s
    bootLoad n.toNat o len s
  | _ =>
    let s := if mem = Ecc.corrected then eccRead a mem 0x10 s else s
    (portBytes s a len, s)

/-- A load's result (R100, R105, R141): on a core memory adds a wait, whose length is free, and a control-space access completes
before the next bundle issues (R148). -/
def putLoad (c : Ctx) (a : Nat) (r : RegId) (v : BitVec 256) (s : State) : State :=
  match c.eng with
  | .spindle _ => put c r v 3 s
  | .core _ =>
    match placeOf s a with
    | .control => put c r v 0 s
    | _ =>
      let (w, s) := drawBits s
      put c r v (3 + (w.setWidth 16).toNat) s

/-- A core's narrow store meets what ECC finds in the unit it is merged into (R480–R482, R486). -/
def coreMerge (a len : Nat) (mem : Ecc) (s : State) : State :=
  if 32 ≤ len || mem = Ecc.ok then s
  else match placeOf s a with
    | .dram _ => eccRead a mem 0x10 s
    | .sram => eccRead a mem 0x10 s
    | _ => s

/-- Which of the two units of a line are poisoned. -/
def linePoison (s : State) (line : Nat) : BitVec 2 :=
  (if mget false s.poison (2 * line) then 1 else 0) + (if mget false s.poison (2 * line + 1) then 2 else 0)

/-- A core's store lands in memory at once; a line of a cacheable region keeps what memory held until it is cleaned (R148). -/
def coreStore (n : BitVec 4) (a : Nat) (bs : List (BitVec 8)) (s : State) : State :=
  match placeOf s a with
  | .control => (ctlWrite a (BitVec.ofNat 32 (leNat bs)) s).getD s
  | _ =>
    let s := if cacheable s a && mget [] (coreOf s n.toNat).dirty (a / 64) = [] then
        modCore n.toNat (fun x => { x with
          dirty := mset [] (a / 64) (memBytes s (a / 64 * 64) 64) x.dirty, dbad := mset 0 (a / 64) (linePoison s (a / 64)) x.dbad }) s
      else s
    busWrite (some n.toNat) a bs s

/-- What a trap's or a fault's cause reports on its way (R116, R482, R518, R542). -/
def noteCause (e : Engine) (nt : Note) (s : State) : State :=
  match e, nt with
  | .spindle n, .scratch w =>
    if mget false (spn s n.toNat).scBad w then s
    else arrayUncorrectable (0x100 + n.toNat) (modSpn n.toNat (fun x => { x with scBad := mset false w true x.scBad }) s)
  | .core n, .prot a k => protRefuse (.core n) a k s
  | .core n, .busy a => busyNotice (.core n) a s
  | .core _, .ecc a m =>
    match placeOf s a with
    | .boot o => bootUncorrectable o s
    | _ => eccRead a m 0x10 s
  | _, _ => s

end Sys2Proof.Machine
end

