-- ==== Sys2Proof/Machine/ActsCtl.lean ====
section
/-! DEFINITION. Branches, END and WAIT, system registers, system call, return from trap and cache functions (R105, R107–R110, R140,
R143–R150, R670). -/

namespace Sys2Proof.Machine

/-! ## Branches (R107, R108) -/

/-- What bars a branch target: misaligned, or on a spindle outside program memory. -/
def branchBar (e : Engine) (t : BitVec 64) : Option Cause :=
  if t.toNat % 16 ≠ 0 || (isSpindle e && decide (0x20000 ≤ t.toNat)) then some { code := 4, val := t } else none

/-- The target of BR and BRL: this bundle's address plus 16 × OFF21. -/
def brTarget (c : Ctx) (off : BitVec 21) : BitVec 64 := pcOf c.pre c.eng + off.signExtend 64 * 16

/-- BR. -/
def actBr (off : BitVec 21) : Act :=
  { slots := [0], check := fun c _ => branchBar c.eng (brTarget c off), flow := fun c => .branch (brTarget c off) }

/-- BRL: g63 ← this bundle's address + 48. -/
def actBrl (off : BitVec 21) : Act :=
  { slots := [0]
    check := fun c _ => branchBar c.eng (brTarget c off)
    run := fun c s => putG c 63 (pcOf c.pre c.eng + 48) 1 s
    flow := fun c => .branch (brTarget c off) }

/-- BRI: the address in A. -/
def actBri (a : BitVec 6) : Act :=
  { slots := [0], reads := [.g a], check := fun c _ => branchBar c.eng (rdG c a), flow := fun c => .branch (rdG c a) }

/-- END, or WAIT on a core (R109, R147). -/
def actEnd : Act := { slots := [0], flow := fun _ => .stop }

/-! ## System registers (R140, R143) -/

/-- STATUS (R140). -/
def statusWord (x : CoreSt) : BitVec 64 :=
  (bfld x.priv 0 ||| bfld x.ie 1 ||| bfld x.ppriv 2 ||| bfld x.pie 3 ||| bfld x.intrap 4).setWidth 64

/-- REEL_POS (R85). -/
def reelPos (r : Reel) : BitVec 64 := (fld r.turn 16 ||| fld r.cycle 0).setWidth 64

/-- A system register of a spindle: none for one that it has not. -/
def spnSys (s : State) (n : BitVec 6) (sn : BitVec 9) : Option (BitVec 64) :=
  match sn.toNat with
  | 0 => some (s.reel.cycle.setWidth 64)
  | 1 => some (reelPos s.reel)
  | 2 => some (n.setWidth 64)
  | 3 => some s.reel.hanks
  | _ => none

/-- A system register of a core: none for a number that R140 does not list. -/
def coreSys (s : State) (n : BitVec 4) (sn : BitVec 9) : Option (BitVec 64) :=
  let x := coreOf s n.toNat
  match sn.toNat with
  | 0x00 => some x.cycles
  | 0x01 => some (reelPos s.reel)
  | 0x02 => some (n.setWidth 64 ||| 256)
  | 0x03 => some s.reel.hanks
  | 0x10 => some (statusWord x)
  | 0x11 => some x.tvec
  | 0x12 => some x.tcause
  | 0x13 => some x.tval
  | 0x14 => some x.tpc0
  | 0x15 => some x.tpc1
  | 0x16 => some x.tpc2
  | 0x18 => some (mget 0 x.scr 0)
  | 0x19 => some (mget 0 x.scr 1)
  | 0x1A => some (mget 0 x.scr 2)
  | 0x1B => some (mget 0 x.scr 3)
  | _ => none

/-- The system register an MFSR reads. -/
def sysReg (s : State) (e : Engine) (sn : BitVec 9) : Option (BitVec 64) :=
  match e with
  | .spindle n => spnSys s n sn
  | .core n => coreSys s n sn

/-- A privileged operation in user mode (R143). -/
def privileged (s : State) (n : BitVec 4) : Option Cause := if (coreOf s n.toNat).priv then none else some { code := 2 }

/-- MFSR. DEDUCED, log entry 19. -/
def actMfsr (d : BitVec 6) (sn : BitVec 9) : Act :=
  { slots := [0]
    check := fun c _ =>
      if (sysReg c.pre c.eng sn).isNone then some illegal
      else match c.eng with
        | .spindle _ => none
        | .core n => if 0x10 ≤ sn.toNat then privileged c.pre n else none
    run := fun c s => putG c d ((sysReg c.pre c.eng sn).getD 0) 2 s }

/-- MTSR writes a register of a core (R140). -/
def writeSys (sn : BitVec 9) (v : BitVec 64) (x : CoreSt) : CoreSt :=
  match sn.toNat with
  | 0x10 => { x with priv := bit v 0, ie := bit v 1, ppriv := bit v 2, pie := bit v 3, intrap := bit v 4 }
  | 0x11 => { x with tvec := v &&& ~~~ 15 }
  | 0x12 => { x with tcause := v }
  | 0x13 => { x with tval := v }
  | 0x14 => { x with tpc0 := v }
  | 0x15 => { x with tpc1 := v }
  | 0x16 => { x with tpc2 := v }
  | 0x18 => { x with scr := mset 0 0 v x.scr }
  | 0x19 => { x with scr := mset 0 1 v x.scr }
  | 0x1A => { x with scr := mset 0 2 v x.scr }
  | 0x1B => { x with scr := mset 0 3 v x.scr }
  | _ => x

/-- MTSR: illegal on a spindle, and for a register that can only be read. DEDUCED, log entry 19. -/
def actMtsr (sn : BitVec 9) (a : BitVec 6) : Act :=
  { slots := [0]
    reads := [.g a]
    check := fun c _ => match c.eng with
      | .spindle _ => some illegal
      | .core n => if (coreSys c.pre n sn).isNone || sn.toNat < 0x10 then some illegal else privileged c.pre n
    run := fun c s => match c.eng with
      | .spindle _ => s
      | .core n => modCore n.toNat (writeSys sn (rdG c a)) s }

/-- SYSC: a system-call trap with TVAL ← SN; illegal on a spindle (R144). -/
def actSysc (sn : BitVec 9) : Act :=
  { slots := [0]
    check := fun c _ => match c.eng with
      | .spindle _ => some illegal
      | .core _ => some { code := 9, val := sn.setWidth 64 } }

/-- RFT (R145): privileged; illegal on a spindle. DEDUCED, log entry 22. -/
def actRft : Act :=
  { slots := [0]
    check := fun c _ => match c.eng with
      | .spindle _ => some illegal
      | .core n => privileged c.pre n
    run := fun c s => match c.eng with
      | .spindle _ => s
      | .core n => modCore n.toNat (fun x => { x with priv := x.ppriv, ie := x.pie, intrap := false, resv := none }) s
    flow := fun c => match c.eng with
      | .spindle _ => .seq
      | .core n => .ret (coreOf c.pre n.toNat).tpc0 (coreOf c.pre n.toNat).tpc1 (coreOf c.pre n.toNat).tpc2 }

/-! ## Cache functions (R148, R149) -/

/-- A cache function of a core; a NOP on a spindle (R670). -/
def cacheAct (priv : Bool) (f : Nat → BitVec 64 → State → State) (a : BitVec 6) : Act :=
  { slots := [0]
    reads := [.g a]
    check := fun c _ => match c.eng with
      | .spindle _ => none
      | .core n => if priv then privileged c.pre n else none
    run := fun c s => match c.eng with
      | .spindle _ => s
      | .core n => f n.toNat (rdG c a) s }

/-- The line of an address. -/
def lineOf (a : BitVec 64) : Nat := a.toNat / 64

/-- Clean: memory holds what was stored. -/
def cleanLine (n : Nat) (a : BitVec 64) (s : State) : State :=
  modCore n (fun x => { x with dirty := mdel (lineOf a) x.dirty }) s

/-- Clean and invalidate: the line of the boot array goes too. -/
def cleanInvalidate (n : Nat) (a : BitVec 64) (s : State) : State :=
  modCore n (fun x => { x with dirty := mdel (lineOf a) x.dirty, bline := mdel (lineOf a) x.bline }) s

/-- Invalidate, discarding: where the line is still dirty, memory is as before it was written; whether it is still in the cache, or
was written back before, is free. -/
def invalidateLine (n : Nat) (a : BitVec 64) (s : State) : State :=
  let old := mget [] (coreOf s n).dirty (lineOf a)
  let s := cleanInvalidate n a s
  if old = [] then s
  else
    let (still, s) := drawBool s
    if still then
      let b := mget 0 (coreOf s n).dbad (lineOf a)
      setPoison (2 * lineOf a) (bit b 0) (setPoison (2 * lineOf a + 1) (bit b 1) { s with mem := putBytes (lineOf a * 64) old s.mem })
    else s

/-- CACHE 0: the model's accesses are performed in order, so a fence has nothing to wait for. DEDUCED, log entry 17. -/
def actCacheFence (a : BitVec 6) : Act := cacheAct false (fun _ _ s => s) a
/-- CACHE 1. -/
def actCacheInvalidateIcache (a : BitVec 6) : Act := cacheAct false (fun n _ s => modCore n (fun x => { x with iline := [] }) s) a
/-- CACHE 2. -/
def actCacheClean (a : BitVec 6) : Act := cacheAct false cleanLine a
/-- CACHE 3. -/
def actCacheCleanInvalidate (a : BitVec 6) : Act := cacheAct false cleanInvalidate a
/-- CACHE 4, privileged. -/
def actCacheInvalidateLine (a : BitVec 6) : Act := cacheAct true invalidateLine a
/-- CACHE 5. -/
def actCacheInvalidateIline (a : BitVec 6) : Act :=
  cacheAct false (fun n v s => modCore n (fun x => { x with iline := mdel (lineOf v) x.iline }) s) a

/-- CACHE with any function number: an unlisted one is illegal on a core (R149, R670). -/
def actCache (a : BitVec 6) (sn : BitVec 9) : Act :=
  match sn.toNat with
  | 0 => actCacheFence a
  | 1 => actCacheInvalidateIcache a
  | 2 => actCacheClean a
  | 3 => actCacheCleanInvalidate a
  | 4 => actCacheInvalidateLine a
  | 5 => actCacheInvalidateIline a
  | _ => { slots := [0], check := fun c _ => if isSpindle c.eng then none else some illegal }

end Sys2Proof.Machine
end

