-- ==== Sys2Proof/Machine/ActsInt.lean ====
section
/-! DEFINITION. The integer, compare, predicate and scalar memory instructions (R105, R106, R112–R114, R141, R142, R150). -/

namespace Sys2Proof.Machine

/-! ## Forms -/

/-- A g result of the integer group: slots 0 and 1. -/
def gAct (d : BitVec 6) (lat : Nat) (rs : List RegId) (f : Ctx → BitVec 64) : Act := { slots := [0, 1], reads := rs, run := fun c s => putG c d (f c) lat s }

/-- A p result of the compare group. -/
def pAct (d : BitVec 3) (rs : List RegId) (f : Ctx → Bool) : Act := { slots := [0, 1], reads := rs, run := fun c s => putP c d (f c) 1 s }

/-- The sign-extended 9-bit immediate (R104). -/
def imm9 (i : BitVec 9) : BitVec 64 := i.signExtend 64
/-- The shift count of the shift-immediate instructions (R104). -/
def cnt9 (i : BitVec 9) : BitVec 64 := (i.setWidth 6 : BitVec 6).setWidth 64
/-- The sign-extended 12-bit immediate. -/
def imm12 (i : BitVec 12) : BitVec 64 := i.signExtend 64

/-! ## Integer (R105) -/

/-- NOP. -/
def actNop : Act := { slots := [0, 1, 2, 3] }
/-- ADD. -/
def actAdd (d a b : BitVec 6) : Act := gAct d 1 [.g a, .g b] (fun c => rdG c a + rdG c b)
/-- SUB. -/
def actSub (d a b : BitVec 6) : Act := gAct d 1 [.g a, .g b] (fun c => rdG c a - rdG c b)
/-- AND. -/
def actAnd (d a b : BitVec 6) : Act := gAct d 1 [.g a, .g b] (fun c => rdG c a &&& rdG c b)
/-- OR. -/
def actOr (d a b : BitVec 6) : Act := gAct d 1 [.g a, .g b] (fun c => rdG c a ||| rdG c b)
/-- XOR. -/
def actXor (d a b : BitVec 6) : Act := gAct d 1 [.g a, .g b] (fun c => rdG c a ^^^ rdG c b)
/-- SHL. -/
def actShl (d a b : BitVec 6) : Act := gAct d 1 [.g a, .g b] (fun c => shl64 (rdG c a) (rdG c b))
/-- SHR. -/
def actShr (d a b : BitVec 6) : Act := gAct d 1 [.g a, .g b] (fun c => shr64 (rdG c a) (rdG c b))
/-- SAR. -/
def actSar (d a b : BitVec 6) : Act := gAct d 1 [.g a, .g b] (fun c => sar64 (rdG c a) (rdG c b))
/-- MUL. -/
def actMul (d a b : BitVec 6) : Act := gAct d 3 [.g a, .g b] (fun c => rdG c a * rdG c b)
/-- MULHU. -/
def actMulhu (d a b : BitVec 6) : Act := gAct d 3 [.g a, .g b] (fun c => mulhu64 (rdG c a) (rdG c b))
/-- CLZ. -/
def actClz (d a : BitVec 6) : Act := gAct d 1 [.g a] (fun c => clz64 (rdG c a))
/-- POPC. -/
def actPopc (d a : BitVec 6) : Act := gAct d 1 [.g a] (fun c => popc64 (rdG c a))
/-- BSWAP: FN 3–7 is illegal (R670). -/
def actBswap (d a : BitVec 6) (fn : BitVec 3) : Act :=
  { slots := [0, 1]
    reads := [.g a]
    check := fun c _ => if (bswap64 fn (rdG c a)).isNone then some illegal else none
    run := fun c s => putG c d ((bswap64 fn (rdG c a)).getD 0) 1 s }
/-- SEL: FN names a predicate. -/
def actSel (d a b : BitVec 6) (fn : BitVec 3) : Act := gAct d 1 [.p fn, .g a, .g b] (fun c => if rdP c fn then rdG c a else rdG c b)
/-- ADDI. -/
def actAddi (d a : BitVec 6) (i : BitVec 9) : Act := gAct d 1 [.g a] (fun c => rdG c a + imm9 i)
/-- ANDI. -/
def actAndi (d a : BitVec 6) (i : BitVec 9) : Act := gAct d 1 [.g a] (fun c => rdG c a &&& imm9 i)
/-- ORI. -/
def actOri (d a : BitVec 6) (i : BitVec 9) : Act := gAct d 1 [.g a] (fun c => rdG c a ||| imm9 i)
/-- XORI. -/
def actXori (d a : BitVec 6) (i : BitVec 9) : Act := gAct d 1 [.g a] (fun c => rdG c a ^^^ imm9 i)
/-- SHLI. -/
def actShli (d a : BitVec 6) (i : BitVec 9) : Act := gAct d 1 [.g a] (fun c => shl64 (rdG c a) (cnt9 i))
/-- SHRI. -/
def actShri (d a : BitVec 6) (i : BitVec 9) : Act := gAct d 1 [.g a] (fun c => shr64 (rdG c a) (cnt9 i))
/-- SARI. -/
def actSari (d a : BitVec 6) (i : BitVec 9) : Act := gAct d 1 [.g a] (fun c => sar64 (rdG c a) (cnt9 i))
/-- MOVI. -/
def actMovi (d : BitVec 6) (i : BitVec 15) : Act := gAct d 1 [] (fun _ => i.signExtend 64)
/-- MOVS. -/
def actMovs (d : BitVec 6) (i : BitVec 15) : Act := gAct d 1 [.g d] (fun c => (rdG c d <<< 15) ||| i.setWidth 64)

/-! ## Compare and predicate (R105, R106) -/

/-- CMPEQ. -/
def actCmpeq (d : BitVec 3) (a b : BitVec 6) : Act := pAct d [.g a, .g b] (fun c => cmpEq (rdG c a) (rdG c b))
/-- CMPNE. -/
def actCmpne (d : BitVec 3) (a b : BitVec 6) : Act := pAct d [.g a, .g b] (fun c => cmpNe (rdG c a) (rdG c b))
/-- CMPLT. -/
def actCmplt (d : BitVec 3) (a b : BitVec 6) : Act := pAct d [.g a, .g b] (fun c => cmpLt (rdG c a) (rdG c b))
/-- CMPLTU. -/
def actCmpltu (d : BitVec 3) (a b : BitVec 6) : Act := pAct d [.g a, .g b] (fun c => cmpLtu (rdG c a) (rdG c b))
/-- CMPGE. -/
def actCmpge (d : BitVec 3) (a b : BitVec 6) : Act := pAct d [.g a, .g b] (fun c => cmpGe (rdG c a) (rdG c b))
/-- CMPGEU. -/
def actCmpgeu (d : BitVec 3) (a b : BitVec 6) : Act := pAct d [.g a, .g b] (fun c => cmpGeu (rdG c a) (rdG c b))
/-- CMPEQI. -/
def actCmpeqi (d : BitVec 3) (a : BitVec 6) (i : BitVec 12) : Act := pAct d [.g a] (fun c => cmpEq (rdG c a) (imm12 i))
/-- CMPLTI. -/
def actCmplti (d : BitVec 3) (a : BitVec 6) (i : BitVec 12) : Act := pAct d [.g a] (fun c => cmpLt (rdG c a) (imm12 i))
/-- CMPLTUI. -/
def actCmpltui (d : BitVec 3) (a : BitVec 6) (i : BitVec 12) : Act := pAct d [.g a] (fun c => cmpLtu (rdG c a) (imm12 i))
/-- PLOG: an FN that R106 does not list is illegal. -/
def actPlog (d a b : BitVec 3) (fn : BitVec 3) : Act :=
  { slots := [0, 1]
    reads := [.p a, .p b]
    check := fun c _ => if (plogFn fn (rdP c a) (rdP c b)).isNone then some illegal else none
    run := fun c s => putP c d ((plogFn fn (rdP c a) (rdP c b)).getD false) 1 s }

/-! ## Scalar memory (R105, R112–R114, R142, R150) -/

/-- A load of `len` bytes, zero-extended; LDL also sets a core's reservation. -/
def loadAct (len : Nat) (d : BitVec 6) (rs : List RegId) (addr : Ctx → BitVec 64) (resv : Bool) : Act :=
  { slots := [1]
    reads := rs
    check := fun c s => memBar c s (addr c) len .read
    run := fun c s =>
      let a := (addr c).toNat
      match c.eng with
      | .spindle n =>
        let s := scCount n.toNat c.mem s
        putG c d ((scRead (spn s n.toNat) a len).setWidth 64) 3 s
      | .core n =>
        let (bs, s) := coreLoad n a len c.mem s
        let s := if resv then modCore n.toNat (fun x => { x with resv := some (a / 64) }) s else s
        putLoad c a (.g d) ((BitVec.ofNat 64 (leNat bs)).setWidth 256) s }

/-- A spindle's narrow store meets what ECC finds in the word it is merged into (R116, R482, R488). -/
def scMerge (n : BitVec 6) (a : Nat) (mem : Ecc) (s : State) : State :=
  match mem with
  | .ok => s
  | .corrected => scCount n.toNat mem s
  | .uncorrectable => noteCause (.spindle n) (.scratch (a / 32)) s

/-- Store fewer than 32 bytes at an address: they are merged into their word (R116, R486). -/
def storeBytes (c : Ctx) (a : Nat) (bs : List (BitVec 8)) (s : State) : State :=
  match c.eng with
  | .spindle n => modSpn n.toNat (scWrite a bs) (scMerge n a c.mem s)
  | .core n => coreStore n a bs (coreMerge a bs.length c.mem s)

/-- A store of the low `len` bytes of D. -/
def storeAct (len : Nat) (d : BitVec 6) (rs : List RegId) (addr : Ctx → BitVec 64) : Act :=
  { slots := [1]
    reads := .g d :: rs
    check := fun c s => memBar c s (addr c) len .write
    run := fun c s => storeBytes c (addr c).toNat (leBytes len (rdG c d).toNat) s }

/-- LDB. -/
def actLdb (d a : BitVec 6) (i : BitVec 9) : Act := loadAct 1 d [.g a] (fun c => addrOf c a i 1) false
/-- LDH. -/
def actLdh (d a : BitVec 6) (i : BitVec 9) : Act := loadAct 2 d [.g a] (fun c => addrOf c a i 2) false
/-- LDW. -/
def actLdw (d a : BitVec 6) (i : BitVec 9) : Act := loadAct 4 d [.g a] (fun c => addrOf c a i 4) false
/-- LDD. -/
def actLdd (d a : BitVec 6) (i : BitVec 9) : Act := loadAct 8 d [.g a] (fun c => addrOf c a i 8) false
/-- STB. -/
def actStb (d a : BitVec 6) (i : BitVec 9) : Act := storeAct 1 d [.g a] (fun c => addrOf c a i 1)
/-- STH. -/
def actSth (d a : BitVec 6) (i : BitVec 9) : Act := storeAct 2 d [.g a] (fun c => addrOf c a i 2)
/-- STW. -/
def actStw (d a : BitVec 6) (i : BitVec 9) : Act := storeAct 4 d [.g a] (fun c => addrOf c a i 4)
/-- STD. -/
def actStd (d a : BitVec 6) (i : BitVec 9) : Act := storeAct 8 d [.g a] (fun c => addrOf c a i 8)
/-- LDL: as LDD, and on a core a reservation on the 64-byte granule (R150). -/
def actLdl (d a : BitVec 6) (i : BitVec 9) : Act := loadAct 8 d [.g a] (fun c => addrOf c a i 8) true

/-- The STC of an engine succeeds: a core holds a reservation on the granule; a spindle always stores (R150). -/
def stcOk (c : Ctx) (a : Nat) : Bool :=
  match c.eng with
  | .spindle _ => true
  | .core n => (coreOf c.pre n.toNat).resv = some (a / 64)

/-- STC: FN other than 0 is illegal; any outcome ends the reservation (R150, R670). DEDUCED, log entry 20. -/
def actStc (d a b : BitVec 6) (fn : BitVec 3) : Act :=
  { slots := [1]
    reads := [.g a, .g d]
    check := fun c s => if fn ≠ 0 then some illegal else memBar c s (rdG c a) 8 .write
    run := fun c s =>
      let x := (rdG c a).toNat
      let ok := stcOk c x
      let s := if ok then storeBytes c x (leBytes 8 (rdG c d).toNat) s else s
      let s := match c.eng with
        | .spindle _ => s
        | .core n => modCore n.toNat (fun y => { y with resv := none }) s
      putLoad c x (.g b) ((if ok then 0 else 1 : BitVec 64).setWidth 256) s }

end Sys2Proof.Machine
end

