-- ==== Sys2Proof/Machine/ActsVec.lean ====
section
/-! DEFINITION. The vector instructions, vector memory and the vector–g moves (R105, R106, R112–R116, R125–R128, R670). -/

namespace Sys2Proof.Machine

/-- A v result that an FN may make illegal. -/
def vAct (slots : List Nat) (d : BitVec 4) (lat : Nat) (rs : List RegId) (f : Ctx → Option (BitVec 256)) : Act :=
  { slots := slots
    reads := rs
    check := fun c _ => if (f c).isNone then some illegal else none
    run := fun c s => putV c d ((f c).getD 0) lat s }

/-- VLOG. -/
def actVlog (d a b k : BitVec 4) (fn : BitVec 5) : Act :=
  vAct [0, 2, 3] d 1 [.v a, .v b, .v k] (fun c => vlogFn fn (rdV c a) (rdV c b) (rdV c k))
/-- VADD. -/
def actVadd (d a b : BitVec 4) (fn : BitVec 5) : Act := vAct [2] d 2 [.v a, .v b] (fun c => vaddFn fn (rdV c a) (rdV c b))
/-- VSHUF. -/
def actVshuf (d a b k : BitVec 4) (fn : BitVec 5) : Act :=
  vAct [2] d 2 [.v a, .v b, .v k] (fun c => vshufFn fn (rdV c a) (rdV c b) (rdV c k))
/-- VBREV. -/
def actVbrev (d a : BitVec 4) (fn : BitVec 5) : Act := vAct [2] d 1 [.v a] (fun c => vbrevFn fn (rdV c a))
/-- VCLMUL. -/
def actVclmul (d a b : BitVec 4) (fn : BitVec 5) : Act := vAct [2] d 4 [.v a, .v b] (fun c => vclmulFn fn (rdV c a) (rdV c b))
/-- VGFMUL. -/
def actVgfmul (d a b : BitVec 4) (fn : BitVec 5) : Act := vAct [2] d 5 [.v a, .v b] (fun c => vgfmulFn fn (rdV c a) (rdV c b))
/-- VGFX. -/
def actVgfx (d a : BitVec 4) (fn : BitVec 5) : Act := vAct [2] d 1 [.v a] (fun c => vgfxFn fn (rdV c a))

/-- VMOVG: G ← lane LANE of V. -/
def actVmovg (v : BitVec 4) (g : BitVec 6) (ln : BitVec 2) : Act :=
  { slots := [2, 3], reads := [.v v], run := fun c s => putG c g (vlane (rdV c v) ln.toNat) 2 s }
/-- VINSG: lane LANE of V ← G. -/
def actVinsg (v : BitVec 4) (g : BitVec 6) (ln : BitVec 2) : Act :=
  { slots := [2, 3], reads := [.v v, .g g], run := fun c s => putV c v (setLane (rdV c v) ln.toNat (rdG c g)) 1 s }
/-- All four lanes hold a value. -/
def splat (x : BitVec 64) : BitVec 256 := setLane (setLane (setLane (setLane 0 0 x) 1 x) 2 x) 3 x
/-- VSPLAT. -/
def actVsplat (v : BitVec 4) (g : BitVec 6) : Act :=
  { slots := [2, 3], reads := [.g g], run := fun c s => putV c v (splat (rdG c g)) 1 s }

/-- The address of a vector access. -/
def vaddr (c : Ctx) (a : BitVec 6) (i : BitVec 11) : BitVec 64 := addrOf c a i 32

/-- VLD. -/
def actVld (v : BitVec 4) (a : BitVec 6) (i : BitVec 11) : Act :=
  { slots := [2]
    reads := [.g a]
    check := fun c s => memBar c s (vaddr c a i) 32 .read
    run := fun c s =>
      let x := (vaddr c a i).toNat
      match c.eng with
      | .spindle n =>
        let s := scCount n.toNat c.mem s
        putV c v (scRead (spn s n.toNat) x 32) 3 s
      | .core n =>
        let (bs, s) := coreLoad n x 32 c.mem s
        putLoad c x (.v v) (BitVec.ofNat 256 (leNat bs)) s }

/-- VST. -/
def actVst (v : BitVec 4) (a : BitVec 6) (i : BitVec 11) : Act :=
  { slots := [2]
    reads := [.v v, .g a]
    check := fun c s => memBar c s (vaddr c a i) 32 .write
    run := fun c s =>
      let bs := leBytes 32 (rdV c v).toNat
      match c.eng with
      | .spindle n => modSpn n.toNat (scWrite (vaddr c a i).toNat bs) s
      | .core n => coreStore n (vaddr c a i).toNat bs s }

/-- VXACC: 32 bytes of scratch memory become their XOR with V; illegal on a core (R115, R141). -/
def actVxacc (v : BitVec 4) (a : BitVec 6) (i : BitVec 11) : Act :=
  { slots := [2]
    reads := [.v v, .g a]
    check := fun c s => match c.eng with
      | .spindle n => scBar (spn s n.toNat) (vaddr c a i) 32 true c.mem
      | .core _ => some illegal
    run := fun c s => match c.eng with
      | .spindle n =>
        let x := (vaddr c a i).toNat
        let s := scCount n.toNat c.mem s
        modSpn n.toNat (scWrite x (leBytes 32 (scRead (spn s n.toNat) x 32 ^^^ rdV c v).toNat)) s
      | .core _ => s }

end Sys2Proof.Machine
end

