-- ==== Sys2Proof/Machine/Stream.lean ====
section
/-! DEFINITION. The stream ports of the spindles (R117–R124): the slot an operation needs, the descriptors it may send, what each
port takes and gives (R155–R161, R252, R306, R389–R398, R428, R437, R438, R487). -/

namespace Sys2Proof.Machine

/-! ## The slot an operation needs (R117, R118, R159) -/

/-- The issue slot a spindle stands in. -/
def issueGrant (s : State) (n : Nat) : Option Grant :=
  s.reel.grants.find? (fun g => grantRuns s g && g.slot.typ = 8 && grantRes g = n)

/-- The owner whose code a spindle runs now: 0x1FF outside every issue slot (R53, R56). -/
def issueOwner (s : State) (n : Nat) : Nat := ((issueGrant s n).map (fun g => g.slot.owner)).getD 0x1FF

/-- The slot entry a violation of a spindle names: its issue slot's. -/
def issueEntry (s : State) (n : Nat) : Nat := ((issueGrant s n).map (fun g => g.entry)).getD 0xFFFF

/-- A grant is the spindle's: one of the owner whose issue slot it stands in, its own or one that no spindle has used yet; outside every
issue slot a spindle has none (R53, R57). DEDUCED, log entry 24. -/
def grantOf (s : State) (n : Nat) (p : Grant → Bool) : Option Grant :=
  s.reel.grants.find? (fun g => grantRuns s g && p g && (issueGrant s n).isSome && g.slot.owner = issueOwner s n &&
    g.slot.owner ≠ 0x1FF && (g.spindle = some n || g.spindle = none))

/-- The spindle uses the grant. DEDUCED, log entry 24. -/
def bindGrant (g : Grant) (n : Nat) (s : State) : State :=
  modReel (fun u => { u with grants := u.grants.map (fun x => if x = g then { x with spindle := some n } else x) }) s

/-- A transfer entry carries a place's units, not a program's. -/
def placeTransfer (s : State) (k : Nat) : Bool := s.reel.tt.places.any (fun r => r.transfer = k)

/-- A cipher entry carries a place's item (R190). -/
def cipherPlace (s : State) (k : Nat) : Bool := s.reel.tt.places.any (fun r => r.cipher = k)

/-- The slots that serve a granted port: PIN is granted in the cipher slots of places, in the one of a soft-decoded item, and for outcome items
in the transfers of programs (R117, R396, R402). -/
def portSlot (s : State) (port : Nat) (g : Grant) : Bool :=
  let t := g.slot.typ
  let k := g.slot.kind
  let prog := t = 5 && k = 2 && !placeTransfer s g.entry
  if port = 4 then (t = 6 && k = 3 && (cipherPlace s g.entry || g.pin)) || prog
  else if port = 5 then prog
  else if port = 6 || port = 7 then t = 6 && k = 3
  else if port = 8 || port = 9 || port = 10 then t = 7 && k = 4 && grantRes g % 16 ≠ 8
  else t = 5 && k = 7

/-- The slot a spindle holds for a granted port. -/
def portGrant (s : State) (n port : Nat) : Option Grant := grantOf s n (portSlot s port)

/-- An operation on a port: it needs no grant on ports 0–3 and 12. -/
def needsGrant (port : Nat) : Bool := decide (4 ≤ port ∧ port ≤ 11)

/-- A spindle's slot violation (R118, R172). DEDUCED, log entry 23. -/
def spnViolation (n : Nat) (s : State) : State := slotViolation 1 n (issueEntry s n) s

/-! ## Fields of a descriptor -/

/-- `len` bytes of a unit from byte `off` on, as a number. -/
def ubytes (u : BitVec 256) (off len : Nat) : Nat := (u >>> (8 * off)).toNat % 2 ^ (8 * len)

/-- Bytes from `off` on, to the end, are 0. -/
def uzero (u : BitVec 256) (off len : Nat) : Bool := ubytes u off len = 0

/-- Cause 7. -/
def badDesc : Cause := { code := 7 }

/-! ## Push (R119, R121) -/

/-- The descriptor open on a port. -/
def openOf (x : Spindle) (port : Nat) : Option OpenDesc :=
  if port = 5 then x.pout else if port = 6 then x.cin else if port = 10 then x.dout else x.txf

/-- What bars a push (R121, R123, R124). DEDUCED, log entry 23. -/
def pushBar (s : State) (n port : Nat) (u : BitVec 256) : Option Cause :=
  if port = 12 then (if ubytes u 0 1 < 0x80 then some badDesc else none)
  else if needsGrant port && (portGrant s n port).isSome then
    match openOf (spn s n) port with
    | none => some badDesc
    | some d => if d.left = 0 || (port = 6 && s.reel.core ≤ d.since) then some badDesc else none
  else none

/-- A plane page has been sent whole (R398). -/
def pageSent (n : Nat) (d : OpenDesc) (us : List (BitVec 256)) (s : State) : State :=
  let die := ubytes d.desc 0 2
  let b := ubytes d.desc 2 2
  let q := ubytes d.desc 4 2
  (modPiers (fun u => { u with data := mset [] (2 ^ 60 + pageNumber die b q) us u.data, planes := u.planes ++ [(die, b, q, n)] }) s)

/-- The crossing queue a push under a descriptor goes through, and its channel, port or stack (R158): POUT to the pier, TXF to the network
die, DOUT to a stack. -/
def pushQueue (port : Nat) (d : OpenDesc) : Nat × Nat :=
  if port = 5 then (0, ubytes d.desc 0 2 / 16) else if port = 11 then (2, d.lane / 4) else (3, d.lane / 16)

/-- A push of slot entry `k` through a crossing queue: a full one accepts nothing (R21, R119). -/
def through (q : Nat × Nat) (k : Nat) (take : State → Bool × State) (s : State) : Bool × State :=
  match pushUnit q.1 q.2 k 0 s with
  | (true, s) => take s
  | (false, s) => (false, s)

/-- A unit's push under an open descriptor. -/
def throughQueue (port : Nat) (d : OpenDesc) (take : State → Bool × State) (s : State) : Bool × State := through (pushQueue port d) d.entry take s

/-- A push to POUT (R398). -/
def pushPout (n : Nat) (d : OpenDesc) (u : BitVec 256) (s : State) : Bool × State :=
  if d.left = 1 then (true, pageSent n d (d.units ++ [u]) (modSpn n (fun x => { x with pout := none }) s))
  else (true, modSpn n (fun x => { x with pout := some { d with left := d.left - 1, units := d.units ++ [u] } }) s)

/-- A push to CIN (R123, R432, R436). A unit that reaches the lane outside the cipher slot is not processed (R171). -/
def pushCin (n : Nat) (late : Bool) (d : OpenDesc) (u : BitVec 256) (s : State) : Bool × State :=
  let soon := match (lane s d.lane).last with | some t => decide (s.reel.core < t + 2) | none => false
  if soon then (false, spnViolation n s)
  else
    let unit : LaneUnit := { data := cipherUnit d.enc d.key u, due := s.reel.core + 32, kslot := d.addr, desc := d.fn, entry := d.entry }
    let s := modLane d.lane (fun l => { l with pipe := if late then l.pipe else l.pipe ++ [unit], last := some s.reel.core }) s
    let s := if late then s else keyCount d.addr 2 s
    (true, modSpn n (fun x => { x with cin := if d.left = 1 then none else some { d with left := d.left - 1 } }) s)

/-- A unit is written to its stack: what it replaces may still be read by a DCMD of the next 128 cycles (R155). -/
def doutWrite (d : OpenDesc) (u : BitVec 256) (s : State) : State :=
  let k := d.lane / 16
  let old : FreshUnit := { addr := d.addr, old := BitVec.ofNat 256 (leNat (memBytes s d.addr 32)), port := d.lane }
  let s := writeMem none d.addr (leBytes 32 u.toNat) s
  let live := fun (x : FreshUnit) => match x.until_ with | none => true | some t => decide (s.reel.core < t)
  let close := fun (x : FreshUnit) => if d.left = 1 && x.port = d.lane && x.until_.isNone then { x with until_ := some (s.reel.core + 128) } else x
  modDrc k (fun x => { x with fresh := ((x.fresh.filter live) ++ [old]).map close }) s

/-- The last write of a port's descriptor has been made: what its units replaced may be read for 128 cycles more (R155). -/
def closeFresh (port : Nat) (s : State) : State :=
  let close := fun (x : FreshUnit) => if x.port = port && x.until_.isNone then { x with until_ := some (s.reel.core + 128) } else x
  modDrc (port / 16) (fun x => { x with fresh := x.fresh.map close }) s

/-- A push to DOUT: one unit per cycle, from the cycle after the DCMD, written at its address (R122, R157, R488). An earlier one is a violation of
the spindle and is not accepted. DEDUCED, log entry 133. -/
def pushDout (n : Nat) (d : OpenDesc) (u : BitVec 256) (s : State) : Bool × State :=
  if s.reel.core ≤ d.since then (false, spnViolation n s)
  else
    let s := if d.enc then doutWrite d u s else s
    (true, modSpn n (fun x => { x with dout :=
      if d.left = 1 then none else some { d with left := d.left - 1, addr := d.addr + 32, since := s.reel.core } }) s)

/-- Where a byte of a read's data, `o` into its transfer, comes from: `n` bytes from there on, of which a frame carries `len`. -/
def spanSrc (s : State) (c : Cmd) (o n at_ len : Nat) : Option FrameSrc :=
  (nsOf s c.nsid.toNat).map (fun x =>
    let z := max 1 (lbaBytes x)
    { serial := c.arrival, nsid := c.nsid, lba := c.slba + o / z, cnt := (o % z + n + z - 1) / z, off := o / z * z, at_ := at_, len := len })

/-- How far into a command's transfer an address of the host's memory lies, by the keyed ranges (R238). -/
def rangeOffset (addr : Nat) (key : BitVec 32) : List (BitVec 64 × BitVec 32 × BitVec 32) → Option Nat
  | [] => none
  | (a, k, n) :: rest =>
    if k = key && decide (a.toNat ≤ addr ∧ addr < a.toNat + n.toNat) then some (addr - a.toNat) else (rangeOffset addr key rest).map (· + n.toNat)

/-- The command, and for read data the place, of the first frame of a message or PDU that a spindle pushes (R256): an RDMA WRITE by the range that it
writes to, a C2HData PDU by its header, a completion by its entry. The descriptor does not name them. DESIGN CHOICE, log entry 176. -/
def firstOrigin (s : State) (conn : BitVec 16) (kind : Nat) (d : BitVec 256) (b : List (BitVec 8)) : Option (BitVec 16) × Option FrameSrc :=
  let reads := s.tables.cmds.filter (fun c => !c.internal && !c.closed && c.conn = conn && c.opcode = 2 && !c.admin)
  let cidAt := fun (i : Nat) => BitVec.ofNat 16 (leNat ((b.drop i).take 2))
  let op := ubytes d 4 1
  let len := ubytes d 2 2
  if kind = 0 then
    if op = 6 || op = 0x0A then
      match reads.findSome? (fun c => (rangeOffset (ubytes d 8 8) (BitVec.ofNat 32 (ubytes d 16 4)) c.ranges).map (fun o => (c, o))) with
      | some (c, o) => (some c.cid, spanSrc s c o (ubytes d 20 4) (match nsOf s c.nsid.toNat with | some x => o % max 1 (lbaBytes x) | none => 0) len)
      | none => (none, none)
    else if op = 4 || op = 0x17 then (some (cidAt 12), none)
    else (none, none)
  else if (connOf s conn.toNat).tls then (none, none)
  else if b.getD 0 0 = 7 then
    match reads.find? (fun c => c.cid = cidAt 8) with
    | some c => (some c.cid, (spanSrc s c (leNat ((b.drop 12).take 4)) (leNat ((b.drop 16).take 4)) 0 len).map (fun x =>
        { x with fin := bit (b.getD 1 0) 2 }))
    | none => (none, none)
  else if b.getD 0 0 = 5 then (some (cidAt 20), none)
  else (none, none)

/-- The sequence identifier of a PTP event message in a device frame, over Ethernet or over UDP on IPv4 or IPv6 (R261). -/
def ptpEvent (b : List (BitVec 8)) : Option (BitVec 16) :=
  let be := fun (i : Nat) => beNat ((b.drop i).take 2)
  let ihl := 4 * ((b.getD 14 0).toNat % 16)
  let start : Option Nat :=
    if be 12 = 0x88F7 then some 14
    else if be 12 = 0x0800 && b.getD 23 0 = 17 && be (14 + ihl + 2) = 319 then some (14 + ihl + 8)
    else if be 12 = 0x86DD && b.getD 20 0 = 17 && be 56 = 319 then some 62
    else none
  start.bind (fun i => if i < b.length && (b.getD i 0).toNat % 16 < 4 then some (BitVec.ofNat 16 (be (i + 30))) else none)

/-- The frame of a descriptor and its units is complete (R252): it joins its connection's sub-port's path, a device frame that of its slot (R235). A frame of a
late slot is not performed (R171). -/
def frameSent (d : OpenDesc) (us : List (BitVec 256)) (s : State) : State :=
  let conn := BitVec.ofNat 16 (ubytes d.desc 0 2)
  let b := (unitsBytes us).take (ubytes d.desc 2 2)
  if !d.enc then s
  else if d.fn = 2 then queueFrame { path := BitVec.ofNat 5 d.lane, kind := 2, desc := d.desc, units := us, ptp := ptpEvent b, pushed := true } s
  else
    let (cid, src) := match (connOf s conn.toNat).cur with
      | some p => (p.cid, p.src.map (fun x => { x with at_ := x.at_ + x.len, len := ubytes d.desc 2 2 }))
      | none => firstOrigin s conn d.fn d.desc b
    let f : TxFrame := { path := connPath s conn, kind := BitVec.ofNat 4 d.fn, conn := some conn, desc := d.desc, units := us, cid := cid, src := src
                         pushed := true }
    queueFrame f (modConn conn.toNat (fun c => { c with cur := if ubytes d.desc 5 1 % 2 = 1 then none else some { f with units := [] } }) s)

/-- A push to TXF. -/
def pushTxf (n : Nat) (d : OpenDesc) (u : BitVec 256) (s : State) : Bool × State :=
  if d.left = 1 then (true, frameSent d (d.units ++ [u]) (modSpn n (fun x => { x with txf := none }) s))
  else (true, modSpn n (fun x => { x with txf := some { d with left := d.left - 1, units := d.units ++ [u] } }) s)

/-- An entry is accepted on EVQ, with the time now (R124). DEDUCED, log entry 27. DEDUCED, log entry 39. -/
def pushEvq (n : Nat) (u : BitVec 256) (s : State) : State :=
  let s := passTime s
  let e : EvqEntry := { unit := u, time := eventTime s, tbase := s.span.lock, at_ := s.reel.core }
  modSpn n (fun x => { x with evq := x.evq ++ [e] }) s

/-- A push to a port: whether it is accepted (R117–R119). -/
def pushPort (n port : Nat) (u : BitVec 256) (s : State) : Bool × State :=
  let x := spn s n
  if port = 1 then
    if x.cmpl.length < 32 then
      (true, modSpn n (fun x => { x with cmpl := x.cmpl ++ [u], cmplAt := x.cmplAt ++ [s.reel.core] }) s)
    else (false, s)
  else if port = 12 then
    if x.evq.length < 8 then (true, pushEvq n u s) else (false, s)
  else match portGrant s n port, openOf x port with
    | some g, some d =>
      let s := bindGrant g n s
      if port = 5 then throughQueue 5 d (pushPout n d u) s
      else if port = 6 then pushCin n g.late d u s
      else if port = 10 then (if s.reel.core ≤ d.since then pushDout n d u s else throughQueue 10 d (pushDout n d u) s)
      else throughQueue 11 d (pushTxf n d u) s
    | _, _ => (false, spnViolation n s)

/-! ## Pop (R117–R119) -/

/-- The first element that meets a condition is taken out of a list. -/
def takeFirst {α : Type} (p : α → Bool) : List α → Option (α × List α)
  | [] => none
  | x :: xs => if p x then some (x, xs) else (takeFirst p xs).map (fun r => (r.1, x :: r.2))

/-- A unit of PIN may be taken in a grant: a place's in its own cipher slot, a soft-decoded read's in a cipher slot of its owner that began
once it was due; an outcome item in either grant (R396, R402). DEDUCED, log entry 35. -/
def pinMatches (g : Grant) (place : Bool) (u : PinUnit) : Bool :=
  if u.outcome then !place && u.owner = g.slot.owner
  else place && g.slot.typ = 6 && (u.cipher = slotKey g.entry g.i g.o || (u.cipher = 0xFFFF && u.owner = g.slot.owner && decide (u.from_ ≤ g.since)))

/-- A pop of PIN: the grant's own place first, then outcome items; a code 8 item advances its row (R396). -/
def popPin (n : Nat) (g : Grant) (s : State) : Option (BitVec 256) × State :=
  let x := spn s n
  match (takeFirst (pinMatches g true) x.pin).orElse (fun _ => takeFirst (pinMatches g false) x.pin) with
  | none => (none, s)
  | some (u, rest) =>
    let s := modSpn n (fun x => { x with pin := rest }) s
    let s := if u.outcome && ubytes u.data 4 1 = 8 then
        popProgrammed (ubytes u.data 8 2) (ubytes u.data 10 2) (ubytes u.data 12 2) s else s
    (some u.data, s)

/-- A unit that leaves the lane with a true compare, or is withheld (R438). -/
def laneOut (l : Lane) (u : LaneUnit) : Option (BitVec 256) := if l.bad = some u.desc then none else some u.data

/-- A pop of COUT: a withheld unit gives nothing (R438). -/
def popCout (k : Nat) (s : State) : Option (BitVec 256) × State :=
  let l := lane s k
  match l.out with
  | u :: rest => (u, modLane k (fun l => { l with out := rest }) s)
  | [] =>
    match l.pipe with
    | [] => (none, s)
    | u :: rest => if u.due ≤ s.reel.core then (laneOut l u, modLane k (fun l => { l with pipe := rest }) s) else (none, s)

/-- A unit as a DCMD issued at cycle `at_` reads it: as stored, or, while a write of it may not be visible yet (R155), as stored before, by a
free choice. -/
def readUnit (k a at_ : Nat) (s : State) : BitVec 256 × State :=
  let now := BitVec.ofNat 256 (leNat (memBytes s a 32))
  match (drcOf s k).fresh.find? (fun x => x.addr = a && (match x.until_ with | none => true | some t => decide (at_ < t))) with
  | none => (now, s)
  | some x =>
    let (b, s) := drawBool s
    (if b then x.old else now, s)

/-- The next unit of a DRAM read, as stored (R122, R155, R487). A unit stored poisoned counts in DRC_ECC.POISON, but not one that this very
read has found uncorrectable (`fresh`). DEDUCED, log entry 26. -/
def nextDin (n : Nat) (r : DinRead) (rest : List DinRead) (fresh : Bool) (s : State) : DinUnit × State :=
  let (v, s) := readUnit (r.port / 16) r.addr r.at_ s
  let u : DinUnit := { data := v, poison := poisoned s r.addr 32 }
  let more := if r.left ≤ 1 then rest else { r with addr := r.addr + 32, left := r.left - 1, due := r.due + 1 } :: rest
  let s := if u.poison && !fresh then eccRead r.addr .ok (r.port % 16) s else s
  (u, modSpn n (fun x => { x with dreads := more }) s)

/-- A poisoned unit of DIN gives nothing (R487). -/
def dinGives (u : DinUnit) : Option (BitVec 256) := if u.poison then none else some u.data

/-- A pop of DIN: a unit that is ready, or that R155 says is ready by now. -/
def popDin (n : Nat) (s : State) : Option (BitVec 256) × State :=
  let x := spn s n
  match x.din, x.dreads with
  | u :: rest, _ => (dinGives u, modSpn n (fun x => { x with din := rest }) s)
  | [], r :: rest =>
    if r.due ≤ s.reel.core then
      let (u, s) := nextDin n r rest false s
      (dinGives u, s)
    else (none, s)
  | [], [] => (none, s)

/-- A pop of a port: the unit taken, if any. -/
def popPort (n port : Nat) (s : State) : Option (BitVec 256) × State :=
  let x := spn s n
  if port = 0 then (x.rxq.head?, modSpn n (fun x => { x with rxq := x.rxq.drop 1 }) s)
  else if port = 3 then (x.lockRes.head?, modSpn n (fun x => { x with lockRes := x.lockRes.drop 1 }) s)
  else match portGrant s n port with
    | none => (none, spnViolation n s)
    | some g =>
      let s := bindGrant g n s
      if port = 4 then popPin n g s
      else if port = 7 then popCout (grantRes g) s
      else popDin n s

/-! ## Descriptors: POST (R159, R389) -/

/-- The die-operation descriptor a unit spells. -/
def postDesc (owner fn : Nat) (u : BitVec 256) : DieDesc :=
  { fn := fn, die := ubytes u 0 2, block := ubytes u 2 2, page := ubytes u 4 2, cws := BitVec.ofNat 8 (ubytes u 6 1)
    flags := BitVec.ofNat 8 (ubytes u 7 1), entry := ubytes u 8 2, inner := ubytes u 10 2, outer := ubytes u 12 2
    phase := ubytes u 14 1, spindle := ubytes u 15 1, tag := BitVec.ofNat 32 (ubytes u 16 4), owner := owner }

/-- The slot a descriptor names is of a type, the owner's and on the die (R159, R389). -/
def namesSlot (s : State) (d : DieDesc) (typ : Nat) : Bool :=
  match slotEntry s d.entry with
  | none => false
  | some e => e.typ = typ && e.owner = d.owner && decide (d.inner < e.icount) && decide (d.outer < e.ocount) &&
      slotRes e d.inner d.outer = d.die && decide (d.phase < 8) && bit e.phases d.phase

/-- A read's plane page and codewords (R328, R389). -/
def readFields (d : DieDesc) : Bool :=
  let first := d.cws.toNat % 4
  let n := d.cws.toNat / 4 % 8
  decide (d.page < (if bit d.flags 0 then 2052 else 8208)) && decide (d.cws.toNat < 32) && decide (1 ≤ n) && decide (first + n ≤ 4)

/-- A descriptor meets the rules of its FN. DEDUCED, log entry 29. -/
def postOk (s : State) (d : DieDesc) (u : BitVec 256) : Bool :=
  let all := decide (d.die < 2048) && decide (d.block < 2048) && decide (d.flags.toNat < 8) && decide (d.spindle < 64) && uzero u 20 12
  let unnamed := d.inner = 0 && d.outer = 0 && d.phase = 0
  all && (if d.fn = 0 then readFields d && d.entry = 0xFFFF && unnamed
    else if d.fn = 1 then decide (d.page < 342) && decide (d.cws.toNat < 64) && d.cws ≠ 0 && (bit d.flags 0 || d.cws = 0x3F) && namesSlot s d 3
    else if d.fn = 2 then d.page = 0 && d.cws = 0 && namesSlot s d 4
    else if d.fn = 3 then d.block = 0 && d.page = 0 && d.cws = 0 && namesSlot s d 10
    else if d.fn = 4 then d.owner = 0x100 && readFields d && namesSlot s d 10
    else false)

/-- The media status that refuses a raw diagnostic read before it is posted (R337). DEDUCED, log entry 36. -/
def rawRefusal (s : State) (d : DieDesc) : Option Nat :=
  let b := blockState s d.die d.block
  if b = 3 then some 2 else if b = 10 || b = 11 then some 4 else none

/-- The sequencer takes a descriptor (R389–R391, R394, R404): a program or erase of a lost die fails at once. -/
def postOp (d : DieDesc) (s : State) : State :=
  if d.fn = 0 then postRead d false s
  else if (d.fn = 1 || d.fn = 2) && isLost s d.die then outcomeItem { desc := d } (if d.fn = 1 then 9 else 11) s
  else
    match (if d.fn = 4 then rawRefusal s d else none) with
    | some st => rawAnswer d st s
    | none =>
      let s := if d.fn = 2 then
          (modMedia (fun u => { u with erases := u.erases ++ [(d.die, d.block, d.owner)] }) s) else s
      (modPiers (fun u => { u with ops := u.ops ++ [d] }) s)

/-! ## Descriptors: LOCK (R306) -/

/-- A LOCK descriptor meets the rules of its FN; a release names an entry that the owner holds. -/
def lockOk (s : State) (owner fn : Nat) (u : BitVec 256) : Bool :=
  if fn = 0 then decide (ubytes u 0 2 < 32768) && decide (ubytes u 2 1 < 2) && decide (ubytes u 3 1 < 2) && uzero u 28 4
  else if fn = 1 then decide (ubytes u 0 2 < 8192) && uzero u 2 30 && holdsEntry s owner (ubytes u 0 2)
  else if fn = 2 then uzero u 2 2 && uzero u 10 22
  else false

/-- The range-lock table takes a request. -/
def lockOp (n owner fn : Nat) (u : BitVec 256) (s : State) : State :=
  if fn = 0 then
    let e := lockDesc n owner u
    let (a, s) := lockAcquire e s
    queueResult n (lockResult e.tag a) s
  else if fn = 1 then lockRelease (ubytes u 0 2) s
  else
    let (code, s) := abortMark (BitVec.ofNat 16 (ubytes u 0 2)) (BitVec.ofNat 16 (ubytes u 8 2)) s
    queueResult n (lockResult (BitVec.ofNat 32 (ubytes u 4 4)) { code := code }) s

/-! ## Descriptors: POUT, CIN, DCMD, TXF (R122, R123, R252, R398, R437) -/

/-- A POUT descriptor. DEDUCED, log entry 28. -/
def poutOk (fn : Nat) (u : BitVec 256) : Bool :=
  fn = 0 && decide (ubytes u 0 2 < 2048) && decide (ubytes u 2 2 < 2048) && decide (ubytes u 4 2 < 8208) && uzero u 6 10 && uzero u 20 12

/-- A use of a key allows an FN (R428). -/
def useAllows (use : BitVec 4) (fn : Nat) : Bool := fn = 0 || use = 1

/-- A CIN descriptor: checks 1 and 2 of R437. -/
def cinOk (s : State) (g : Grant) (fn : Nat) (u : BitVec 256) : Bool :=
  let k := ubytes u 0 2
  let n := ubytes u 2 2
  decide (fn ≤ 1) && decide (k < 16384) && decide (1 ≤ n ∧ n ≤ 2048) && uzero u 4 28 &&
    ((keyOf s k).use = 0 || useAllows (keyOf s k).use fn) && keyInRange s g.slot.owner k

/-- The descriptor opens on the lane with the key active now (R431). -/
def cinOpen (n : Nat) (g : Grant) (fn : Nat) (u : BitVec 256) (s : State) : State :=
  let k := ubytes u 0 2
  let l := grantRes g
  let num := (lane s l).descs
  let s := modLane l (fun x => { x with descs := x.descs + 1 }) s
  let d : OpenDesc := { left := ubytes u 2 2, addr := k, key := (keyOf s k).key, enc := decide (fn = 0), since := s.reel.core
                        desc := u, fn := num, lane := l, entry := g.entry }
  modSpn n (fun x => { x with cin := some d }) s

/-- A DCMD descriptor (R122, R160). -/
def dcmdOk (s : State) (g : Grant) (fn : Nat) (u : BitVec 256) : Bool :=
  let a := ubytes u 0 8
  let n := ubytes u 8 2
  let base := 0x1000000000 + grantRes g / 16 * 0x600000000
  decide (fn ≤ 1) && a % 32 = 0 && decide (1 ≤ n ∧ n ≤ 1024) && uzero u 10 22 && decide (base ≤ a ∧ a + 32 * n ≤ base + 0x600000000) &&
    dramInRange s g.slot.owner a (32 * n)

/-- Units DIN holds or still owes room for: what earlier reads still owe counts against its 1,024 units (R157). DESIGN CHOICE, log entry 26. -/
def dinLoad (x : Spindle) : Nat := x.din.length + (x.dreads.map (fun r => r.left)).sum

/-- The opcodes of the RoCEv2 packets a device sends (R236): SEND Only, SEND Only with Invalidate, RDMA WRITE First to Only, RDMA
READ Request, Acknowledge, CNP. PRESUMED, log entry 30. -/
def bthSent : List Nat := [0x04, 0x17, 0x06, 0x07, 0x08, 0x0A, 0x0C, 0x11, 0x81]

/-- The packets that carry an RETH. -/
def bthReth : List Nat := [0x06, 0x0A, 0x0C]

/-- A TXF descriptor (R252): its payload is at most the MTU less headers. -/
def txfOk (s : State) (g : Grant) (fn : Nat) (u : BitVec 256) : Bool :=
  let c := ubytes u 0 2
  let len := ubytes u 2 2
  let op := ubytes u 4 1
  let fl := ubytes u 5 1
  let hd := ubytes u 6 1
  let dig := fl / 4 % 4 ≠ 0
  let all := decide (fl < 16) && uzero u 7 1 && uzero u 24 8
  all && (if fn = 0 then
      !dig && hd = 0 && bthSent.contains op && (bthReth.contains op || uzero u 8 16) && decide (len ≤ (connOf s c).mtu)
    else if fn = 1 then
      op = 0 && (if dig then decide (8 ≤ hd ∧ hd ≤ 128) else hd = 0) && uzero u 8 12 && uzero u 22 2 && decide (len ≤ payloadRoom (connOf s c))
    else if fn = 2 then g.slot.owner = 0 && c = 0xFFFF && op = 0 && !dig && hd = 0 && uzero u 8 16 && decide (len ≤ deviceRoom s (grantRes g))
    else false)

/-- A port takes a descriptor only after the previous one owes nothing (R121). -/
def cmdOpen (x : Spindle) (port fn : Nat) : Bool :=
  if port = 8 then fn = 1 && x.dout.isSome else if port = 5 then x.pout.isSome else if port = 6 then x.cin.isSome else x.txf.isSome

/-- A descriptor meets its port's rules under a grant. -/
def cmdOk (s : State) (g : Grant) (port fn : Nat) (u : BitVec 256) : Bool :=
  if port = 5 then poutOk fn u
  else if port = 6 then cinOk s g fn u
  else if port = 8 then dcmdOk s g fn u
  else txfOk s g fn u

/-- What bars a descriptor: cause 7 (R121). -/
def cmdBar (s : State) (n port fn : Nat) (u : BitVec 256) : Option Cause :=
  if port = 2 then (if postOk s (postDesc (issueOwner s n) fn u) u then none else some badDesc)
  else if port = 3 then (if lockOk s (issueOwner s n) fn u then none else some badDesc)
  else match portGrant s n port with
    | none => none
    | some g => if cmdOk s g port fn u && !cmdOpen (spn s n) port fn then none else some badDesc

/-- A DCMD read or write under its grant (R119, R122, R155). A read that DIN has no room for, with what earlier ones owe, is a slot violation of the
spindle (R157): DESIGN CHOICE, log entry 26. A request that reaches the stack outside its slot is not performed (R171). -/
def dcmdOp (n : Nat) (g : Grant) (fn : Nat) (u : BitVec 256) (s : State) : Bool × State :=
  let a := ubytes u 0 8
  let k := ubytes u 8 2
  if fn = 0 then
    if 1024 < dinLoad (spn s n) + k then (false, spnViolation n s)
    else if g.late then (true, s)
    else
      let s := activateSpan a (32 * k) s
      (true, modSpn n (fun x => { x with
        dreads := x.dreads ++ [{ addr := a, left := k, port := grantRes g, due := s.reel.core + 160,
                                     at_ := s.reel.core }] }) s)
  else
    let s := activateSpan a (32 * k) s
    (true, modSpn n (fun x => { x with
      dout := some { left := k, addr := a, since := s.reel.core, desc := u, lane := grantRes g, entry := g.entry, enc := !g.late } }) s)

/-- A TXF descriptor under its grant: one of no payload is a frame at once (R252). -/
def txfOp (n : Nat) (g : Grant) (fn : Nat) (u : BitVec 256) (s : State) : State :=
  let d : OpenDesc := { left := (ubytes u 2 2 + 31) / 32, desc := u, fn := fn, lane := grantRes g, entry := g.entry,
                        since := s.reel.core, enc := !g.late }
  if d.left = 0 then frameSent d [] s else modSpn n (fun x => { x with txf := some d }) s

/-- A descriptor of CIN under its grant: accepted, or refused by check 3 of R437. `bad`: the key slot's stored key is found
uncorrectable (R454). -/
def cinOp (n : Nat) (g : Grant) (fn : Nat) (u : BitVec 256) (bad : Bool) (s : State) : Bool × State :=
  let k := ubytes u 0 2
  let s := if bad && !(keyOf s k).failed && (keyOf s k).use ≠ 0 then keySlotFail k s else s
  match keyRefusal (keyOf s k) with
  | some r => (false, cinRefused k r s)
  | none => (true, cinOpen n g fn u s)

/-- The crossing queue behind a granted push port under a grant, and its channel, port or stack (R158). -/
def grantQueue (port : Nat) (g : Grant) : Nat × Nat :=
  if port = 5 then (0, grantRes g) else if port = 11 then (2, grantRes g / 4) else (3, grantRes g / 16)

/-- A POUT descriptor under its grant. -/
def poutOp (n : Nat) (g : Grant) (u : BitVec 256) (s : State) : State :=
  let d : OpenDesc := { left := 521, desc := u, lane := grantRes g, entry := g.entry, since := s.reel.core }
  modSpn n (fun x => { x with pout := some d }) s

/-- A descriptor reaches its port: whether it is accepted. Those of POUT, DCMD and TXF cross to their agents, one entry each (R119, R158). -/
def cmdPort (n port fn : Nat) (u : BitVec 256) (mem : Ecc) (s : State) : Bool × State :=
  let x := spn s n
  if port = 2 then
    if x.post < 64 then
      (true, postOp (postDesc (issueOwner s n) fn u) (modSpn n (fun x => { x with post := x.post + 1 }) s))
    else (false, s)
  else if port = 3 then
    if x.lockReq < 16 then
      (true, lockOp n (issueOwner s n) fn u (modSpn n (fun x => { x with lockReq := x.lockReq + 1 }) s))
    else (false, s)
  else match portGrant s n port with
    | none => (false, spnViolation n s)
    | some g =>
      let s := bindGrant g n s
      if port = 6 then cinOp n g fn u (mem = Ecc.uncorrectable) s
      else through (grantQueue port g) g.entry (fun s =>
        if port = 5 then (true, poutOp n g u s) else if port = 8 then dcmdOp n g fn u s else (true, txfOp n g fn u s)) s

/-! ## The instructions -/

/-- Ports an operation is listed for (R117). -/
def pushPorts : List Nat := [1, 5, 6, 10, 11, 12]
/-- Ports that SPOP is listed for. -/
def popPorts : List Nat := [0, 3, 4, 7, 9]
/-- Ports that SCMD is listed for. -/
def cmdPorts : List Nat := [2, 3, 5, 6, 8, 11]

/-- SPUSH. -/
def actSpush (v port : BitVec 4) (pq : BitVec 3) : Act :=
  { slots := [1, 3]
    check := fun c s => match c.eng with
      | .core _ => some illegal
      | .spindle n => if pushPorts.contains port.toNat then pushBar s n.toNat port.toNat (rdV c v) else some illegal
    run := fun c s => match c.eng with
      | .core _ => s
      | .spindle n =>
        let (ok, s) := pushPort n.toNat port.toNat (rdV c v) s
        putP c pq ok 1 s }

/-- SPOP: V and PQ are 0 where no unit was taken. -/
def actSpop (v port : BitVec 4) (pq : BitVec 3) : Act :=
  { slots := [1, 3]
    check := fun c _ => match c.eng with
      | .core _ => some illegal
      | .spindle _ => if popPorts.contains port.toNat then none else some illegal
    run := fun c s => match c.eng with
      | .core _ => s
      | .spindle n =>
        let (u, s) := popPort n.toNat port.toNat s
        putP c pq u.isSome 2 (putV c v (u.getD 0) 2 s) }

/-- SCMD. -/
def actScmd (v port : BitVec 4) (pq : BitVec 3) (fn : BitVec 4) : Act :=
  { slots := [1, 3]
    check := fun c s => match c.eng with
      | .core _ => some illegal
      | .spindle n => if cmdPorts.contains port.toNat then cmdBar s n.toNat port.toNat fn.toNat (rdV c v) else some illegal
    run := fun c s => match c.eng with
      | .core _ => s
      | .spindle n =>
        let (ok, s) := cmdPort n.toNat port.toNat fn.toNat (rdV c v) c.mem s
        putP c pq ok 1 s }

/-- The units of a spindle's reads that are ready, in the order they are popped: those of a read behind one that is not done are not. -/
def readyDin (core : Nat) : List DinRead → Nat
  | [] => 0
  | r :: rest =>
    let k := min r.left (core + 1 - r.due)
    if k < r.left then k else k + readyDin core rest

/-- Units ready to pop on a port (R120). Without the grant PIN and COUT have none: 0. A unit of COUT that is withheld
(R438) counts, as a pop takes it. Of DIN only the units of the oldest read count, which a pop can take. DESIGN CHOICE, log entry 134. -/
def readyUnits (s : State) (n port : Nat) : Nat :=
  let x := spn s n
  if port = 0 then x.rxq.length
  else if port = 3 then x.lockRes.length
  else if port = 4 then
    match portGrant s n 4 with
    | none => 0
    | some g => (x.pin.filter (fun u => pinMatches g true u || pinMatches g false u)).length
  else if port = 7 then
    match portGrant s n 7 with
    | none => 0
    | some g => (lane s (grantRes g)).out.length + ((lane s (grantRes g)).pipe.filter (fun u => u.due ≤ s.reel.core)).length
  else if port = 9 then x.din.length + readyDin s.reel.core x.dreads
  else 0

/-- Room left on a local port (R119, R120). -/
def localRoom (x : Spindle) (port : Nat) : Nat :=
  if port = 1 then 32 - x.cmpl.length else if port = 2 then 64 - x.post else if port = 3 then 16 - x.lockReq
  else if port = 12 then 8 - x.evq.length else 0

/-- Units a port can still accept, sampled in the state `pre` (R119, R120, R158): behind POUT, DCMD, DOUT and TXF the room of the crossing
queue, none without the grant. The spec gives CIN no depth: under the grant its value is free. DESIGN CHOICE, log entry 33. -/
def roomUnits (pre : State) (n port : Nat) (s : State) : BitVec 64 × State :=
  if port = 5 || port = 6 || port = 8 || port = 10 || port = 11 then
    match portGrant pre n port with
    | none => (0, s)
    | some g =>
      if port = 6 then
        let (v, s) := drawBits s
        (v.setWidth 64, s)
      else
        let (k, s) := crossingRoom pre (grantQueue port g).1 (grantQueue port g).2 s
        (BitVec.ofNat 64 k, s)
  else (BitVec.ofNat 64 (localRoom (spn pre n) port), s)

/-- SSTAT: ports 13–15 and an FN above 1 are illegal (R117, R120). -/
def actSstat (g : BitVec 6) (port fn : BitVec 4) : Act :=
  { slots := [1, 3]
    check := fun c _ => match c.eng with
      | .core _ => some illegal
      | .spindle _ => if port.toNat ≤ 12 && fn.toNat ≤ 1 then none else some illegal
    run := fun c s => match c.eng with
      | .core _ => s
      | .spindle n =>
        if fn = 0 then putG c g (BitVec.ofNat 64 (readyUnits c.pre n.toNat port.toNat)) 2 s
        else
          let (v, s) := roomUnits c.pre n.toNat port.toNat s
          putG c g v 2 s }

end Sys2Proof.Machine
end

