-- ==== Sys2Proof/Machine/SlotWord.lean ====
section
/-! DEFINITION. The slot words of a bundle: the instructions with their operand fields, their encoding and decoding by the formats and
opcodes of R103 and R105, and the meaning each word selects. -/

namespace Sys2Proof.Machine

/-- An instruction as a slot word spells it: one constructor per opcode of R105, its operands the fields its operation names
(R670). -/
inductive Op where
  | nop
  | add (d : BitVec 6) (a : BitVec 6) (b : BitVec 6)
  | sub (d : BitVec 6) (a : BitVec 6) (b : BitVec 6)
  | and_ (d : BitVec 6) (a : BitVec 6) (b : BitVec 6)
  | or_ (d : BitVec 6) (a : BitVec 6) (b : BitVec 6)
  | xor_ (d : BitVec 6) (a : BitVec 6) (b : BitVec 6)
  | shl (d : BitVec 6) (a : BitVec 6) (b : BitVec 6)
  | shr (d : BitVec 6) (a : BitVec 6) (b : BitVec 6)
  | sar (d : BitVec 6) (a : BitVec 6) (b : BitVec 6)
  | mul (d : BitVec 6) (a : BitVec 6) (b : BitVec 6)
  | mulhu (d : BitVec 6) (a : BitVec 6) (b : BitVec 6)
  | clz (d : BitVec 6) (a : BitVec 6)
  | popc (d : BitVec 6) (a : BitVec 6)
  | bswap (d : BitVec 6) (a : BitVec 6) (fn : BitVec 3)
  | sel (d : BitVec 6) (a : BitVec 6) (b : BitVec 6) (fn : BitVec 3)
  | addi (d : BitVec 6) (a : BitVec 6) (i : BitVec 9)
  | andi (d : BitVec 6) (a : BitVec 6) (i : BitVec 9)
  | ori (d : BitVec 6) (a : BitVec 6) (i : BitVec 9)
  | xori (d : BitVec 6) (a : BitVec 6) (i : BitVec 9)
  | shli (d : BitVec 6) (a : BitVec 6) (i : BitVec 9)
  | shri (d : BitVec 6) (a : BitVec 6) (i : BitVec 9)
  | sari (d : BitVec 6) (a : BitVec 6) (i : BitVec 9)
  | movi (d : BitVec 6) (i : BitVec 15)
  | movs (d : BitVec 6) (i : BitVec 15)
  | cmpeq (d : BitVec 3) (a : BitVec 6) (b : BitVec 6)
  | cmpne (d : BitVec 3) (a : BitVec 6) (b : BitVec 6)
  | cmplt (d : BitVec 3) (a : BitVec 6) (b : BitVec 6)
  | cmpltu (d : BitVec 3) (a : BitVec 6) (b : BitVec 6)
  | cmpge (d : BitVec 3) (a : BitVec 6) (b : BitVec 6)
  | cmpgeu (d : BitVec 3) (a : BitVec 6) (b : BitVec 6)
  | cmpeqi (d : BitVec 3) (a : BitVec 6) (i : BitVec 12)
  | cmplti (d : BitVec 3) (a : BitVec 6) (i : BitVec 12)
  | cmpltui (d : BitVec 3) (a : BitVec 6) (i : BitVec 12)
  | plog (d : BitVec 3) (a : BitVec 3) (b : BitVec 3) (fn : BitVec 3)
  | ldb (d : BitVec 6) (a : BitVec 6) (i : BitVec 9)
  | ldh (d : BitVec 6) (a : BitVec 6) (i : BitVec 9)
  | ldw (d : BitVec 6) (a : BitVec 6) (i : BitVec 9)
  | ldd (d : BitVec 6) (a : BitVec 6) (i : BitVec 9)
  | stb (d : BitVec 6) (a : BitVec 6) (i : BitVec 9)
  | sth (d : BitVec 6) (a : BitVec 6) (i : BitVec 9)
  | stw (d : BitVec 6) (a : BitVec 6) (i : BitVec 9)
  | std (d : BitVec 6) (a : BitVec 6) (i : BitVec 9)
  | vld (v : BitVec 4) (a : BitVec 6) (i : BitVec 11)
  | vst (v : BitVec 4) (a : BitVec 6) (i : BitVec 11)
  | vxacc (v : BitVec 4) (a : BitVec 6) (i : BitVec 11)
  | ldl (d : BitVec 6) (a : BitVec 6) (i : BitVec 9)
  | stc (d : BitVec 6) (a : BitVec 6) (b : BitVec 6) (fn : BitVec 3)
  | vlog (d : BitVec 4) (a : BitVec 4) (b : BitVec 4) (k : BitVec 4) (fn : BitVec 5)
  | vadd (d : BitVec 4) (a : BitVec 4) (b : BitVec 4) (fn : BitVec 5)
  | vshuf (d : BitVec 4) (a : BitVec 4) (b : BitVec 4) (k : BitVec 4) (fn : BitVec 5)
  | vbrev (d : BitVec 4) (a : BitVec 4) (fn : BitVec 5)
  | vclmul (d : BitVec 4) (a : BitVec 4) (b : BitVec 4) (fn : BitVec 5)
  | vgfmul (d : BitVec 4) (a : BitVec 4) (b : BitVec 4) (fn : BitVec 5)
  | vgfx (d : BitVec 4) (a : BitVec 4) (fn : BitVec 5)
  | vmovg (v : BitVec 4) (g : BitVec 6) (ln : BitVec 2)
  | vinsg (v : BitVec 4) (g : BitVec 6) (ln : BitVec 2)
  | vsplat (v : BitVec 4) (g : BitVec 6)
  | spush (v : BitVec 4) (port : BitVec 4) (pq : BitVec 3)
  | spop (v : BitVec 4) (port : BitVec 4) (pq : BitVec 3)
  | scmd (v : BitVec 4) (port : BitVec 4) (pq : BitVec 3) (fn : BitVec 4)
  | sstat (g : BitVec 6) (port : BitVec 4) (fn : BitVec 4)
  | br (off : BitVec 21)
  | brl (off : BitVec 21)
  | bri (a : BitVec 6)
  | end_
  | mfsr (d : BitVec 6) (sn : BitVec 9)
  | mtsr (sn : BitVec 9) (a : BitVec 6)
  | sysc (sn : BitVec 9)
  | rft
  | cache (a : BitVec 6) (sn : BitVec 9)
  deriving DecidableEq, Repr

/-- The field of `n` bits at bit `lo` of a slot word. -/
def slotField (w : BitVec 32) (lo n : Nat) : BitVec n := (w >>> lo).setWidth n

/-- A field put at bit `lo` of a slot word. -/
def slotPut {n : Nat} (v : BitVec n) (lo : Nat) : BitVec 32 := v.setWidth 32 <<< lo

/-- The operation and operands of a slot word: bits 27:21 the opcode, bits 20:0 the fields (R103, R105). None for an opcode that R105
does not list. -/
def decodeOp (w : BitVec 32) : Option Op :=
  match (slotField w 21 7).toNat with
  | 0x0 => some .nop
  | 0x1 => some (.add (slotField w 15 6) (slotField w 9 6) (slotField w 3 6))
  | 0x2 => some (.sub (slotField w 15 6) (slotField w 9 6) (slotField w 3 6))
  | 0x3 => some (.and_ (slotField w 15 6) (slotField w 9 6) (slotField w 3 6))
  | 0x4 => some (.or_ (slotField w 15 6) (slotField w 9 6) (slotField w 3 6))
  | 0x5 => some (.xor_ (slotField w 15 6) (slotField w 9 6) (slotField w 3 6))
  | 0x6 => some (.shl (slotField w 15 6) (slotField w 9 6) (slotField w 3 6))
  | 0x7 => some (.shr (slotField w 15 6) (slotField w 9 6) (slotField w 3 6))
  | 0x8 => some (.sar (slotField w 15 6) (slotField w 9 6) (slotField w 3 6))
  | 0x9 => some (.mul (slotField w 15 6) (slotField w 9 6) (slotField w 3 6))
  | 0xa => some (.mulhu (slotField w 15 6) (slotField w 9 6) (slotField w 3 6))
  | 0xb => some (.clz (slotField w 15 6) (slotField w 9 6))
  | 0xc => some (.popc (slotField w 15 6) (slotField w 9 6))
  | 0xd => some (.bswap (slotField w 15 6) (slotField w 9 6) (slotField w 0 3))
  | 0xe => some (.sel (slotField w 15 6) (slotField w 9 6) (slotField w 3 6) (slotField w 0 3))
  | 0x11 => some (.addi (slotField w 15 6) (slotField w 9 6) (slotField w 0 9))
  | 0x12 => some (.andi (slotField w 15 6) (slotField w 9 6) (slotField w 0 9))
  | 0x13 => some (.ori (slotField w 15 6) (slotField w 9 6) (slotField w 0 9))
  | 0x14 => some (.xori (slotField w 15 6) (slotField w 9 6) (slotField w 0 9))
  | 0x15 => some (.shli (slotField w 15 6) (slotField w 9 6) (slotField w 0 9))
  | 0x16 => some (.shri (slotField w 15 6) (slotField w 9 6) (slotField w 0 9))
  | 0x17 => some (.sari (slotField w 15 6) (slotField w 9 6) (slotField w 0 9))
  | 0x18 => some (.movi (slotField w 15 6) (slotField w 0 15))
  | 0x19 => some (.movs (slotField w 15 6) (slotField w 0 15))
  | 0x20 => some (.cmpeq (slotField w 18 3) (slotField w 12 6) (slotField w 6 6))
  | 0x21 => some (.cmpne (slotField w 18 3) (slotField w 12 6) (slotField w 6 6))
  | 0x22 => some (.cmplt (slotField w 18 3) (slotField w 12 6) (slotField w 6 6))
  | 0x23 => some (.cmpltu (slotField w 18 3) (slotField w 12 6) (slotField w 6 6))
  | 0x24 => some (.cmpge (slotField w 18 3) (slotField w 12 6) (slotField w 6 6))
  | 0x25 => some (.cmpgeu (slotField w 18 3) (slotField w 12 6) (slotField w 6 6))
  | 0x26 => some (.cmpeqi (slotField w 18 3) (slotField w 12 6) (slotField w 0 12))
  | 0x27 => some (.cmplti (slotField w 18 3) (slotField w 12 6) (slotField w 0 12))
  | 0x28 => some (.cmpltui (slotField w 18 3) (slotField w 12 6) (slotField w 0 12))
  | 0x29 => some (.plog (slotField w 18 3) (slotField w 15 3) (slotField w 12 3) (slotField w 9 3))
  | 0x30 => some (.ldb (slotField w 15 6) (slotField w 9 6) (slotField w 0 9))
  | 0x31 => some (.ldh (slotField w 15 6) (slotField w 9 6) (slotField w 0 9))
  | 0x32 => some (.ldw (slotField w 15 6) (slotField w 9 6) (slotField w 0 9))
  | 0x33 => some (.ldd (slotField w 15 6) (slotField w 9 6) (slotField w 0 9))
  | 0x34 => some (.stb (slotField w 15 6) (slotField w 9 6) (slotField w 0 9))
  | 0x35 => some (.sth (slotField w 15 6) (slotField w 9 6) (slotField w 0 9))
  | 0x36 => some (.stw (slotField w 15 6) (slotField w 9 6) (slotField w 0 9))
  | 0x37 => some (.std (slotField w 15 6) (slotField w 9 6) (slotField w 0 9))
  | 0x38 => some (.vld (slotField w 17 4) (slotField w 11 6) (slotField w 0 11))
  | 0x39 => some (.vst (slotField w 17 4) (slotField w 11 6) (slotField w 0 11))
  | 0x3a => some (.vxacc (slotField w 17 4) (slotField w 11 6) (slotField w 0 11))
  | 0x3c => some (.ldl (slotField w 15 6) (slotField w 9 6) (slotField w 0 9))
  | 0x3d => some (.stc (slotField w 15 6) (slotField w 9 6) (slotField w 3 6) (slotField w 0 3))
  | 0x40 => some (.vlog (slotField w 17 4) (slotField w 13 4) (slotField w 9 4) (slotField w 5 4) (slotField w 0 5))
  | 0x41 => some (.vadd (slotField w 17 4) (slotField w 13 4) (slotField w 9 4) (slotField w 0 5))
  | 0x42 => some (.vshuf (slotField w 17 4) (slotField w 13 4) (slotField w 9 4) (slotField w 5 4) (slotField w 0 5))
  | 0x43 => some (.vbrev (slotField w 17 4) (slotField w 13 4) (slotField w 0 5))
  | 0x48 => some (.vclmul (slotField w 17 4) (slotField w 13 4) (slotField w 9 4) (slotField w 0 5))
  | 0x49 => some (.vgfmul (slotField w 17 4) (slotField w 13 4) (slotField w 9 4) (slotField w 0 5))
  | 0x4a => some (.vgfx (slotField w 17 4) (slotField w 13 4) (slotField w 0 5))
  | 0x50 => some (.vmovg (slotField w 17 4) (slotField w 11 6) (slotField w 9 2))
  | 0x51 => some (.vinsg (slotField w 17 4) (slotField w 11 6) (slotField w 9 2))
  | 0x52 => some (.vsplat (slotField w 17 4) (slotField w 11 6))
  | 0x60 => some (.spush (slotField w 17 4) (slotField w 13 4) (slotField w 10 3))
  | 0x61 => some (.spop (slotField w 17 4) (slotField w 13 4) (slotField w 10 3))
  | 0x62 => some (.scmd (slotField w 17 4) (slotField w 13 4) (slotField w 10 3) (slotField w 0 4))
  | 0x63 => some (.sstat (slotField w 4 6) (slotField w 13 4) (slotField w 0 4))
  | 0x70 => some (.br (slotField w 0 21))
  | 0x71 => some (.brl (slotField w 0 21))
  | 0x72 => some (.bri (slotField w 9 6))
  | 0x73 => some .end_
  | 0x74 => some (.mfsr (slotField w 15 6) (slotField w 0 9))
  | 0x75 => some (.mtsr (slotField w 0 9) (slotField w 9 6))
  | 0x76 => some (.sysc (slotField w 0 9))
  | 0x77 => some .rft
  | 0x78 => some (.cache (slotField w 9 6) (slotField w 0 9))
  | _ => none

/-- The opcode and the operand fields of an instruction, the fields it does not name 0. -/
def encodeOp : Op → BitVec 32
  | .nop => slotPut 0x0#7 21
  | .add d a b => slotPut 0x1#7 21 ||| slotPut d 15 ||| slotPut a 9 ||| slotPut b 3
  | .sub d a b => slotPut 0x2#7 21 ||| slotPut d 15 ||| slotPut a 9 ||| slotPut b 3
  | .and_ d a b => slotPut 0x3#7 21 ||| slotPut d 15 ||| slotPut a 9 ||| slotPut b 3
  | .or_ d a b => slotPut 0x4#7 21 ||| slotPut d 15 ||| slotPut a 9 ||| slotPut b 3
  | .xor_ d a b => slotPut 0x5#7 21 ||| slotPut d 15 ||| slotPut a 9 ||| slotPut b 3
  | .shl d a b => slotPut 0x6#7 21 ||| slotPut d 15 ||| slotPut a 9 ||| slotPut b 3
  | .shr d a b => slotPut 0x7#7 21 ||| slotPut d 15 ||| slotPut a 9 ||| slotPut b 3
  | .sar d a b => slotPut 0x8#7 21 ||| slotPut d 15 ||| slotPut a 9 ||| slotPut b 3
  | .mul d a b => slotPut 0x9#7 21 ||| slotPut d 15 ||| slotPut a 9 ||| slotPut b 3
  | .mulhu d a b => slotPut 0xa#7 21 ||| slotPut d 15 ||| slotPut a 9 ||| slotPut b 3
  | .clz d a => slotPut 0xb#7 21 ||| slotPut d 15 ||| slotPut a 9
  | .popc d a => slotPut 0xc#7 21 ||| slotPut d 15 ||| slotPut a 9
  | .bswap d a fn => slotPut 0xd#7 21 ||| slotPut d 15 ||| slotPut a 9 ||| slotPut fn 0
  | .sel d a b fn => slotPut 0xe#7 21 ||| slotPut d 15 ||| slotPut a 9 ||| slotPut b 3 ||| slotPut fn 0
  | .addi d a i => slotPut 0x11#7 21 ||| slotPut d 15 ||| slotPut a 9 ||| slotPut i 0
  | .andi d a i => slotPut 0x12#7 21 ||| slotPut d 15 ||| slotPut a 9 ||| slotPut i 0
  | .ori d a i => slotPut 0x13#7 21 ||| slotPut d 15 ||| slotPut a 9 ||| slotPut i 0
  | .xori d a i => slotPut 0x14#7 21 ||| slotPut d 15 ||| slotPut a 9 ||| slotPut i 0
  | .shli d a i => slotPut 0x15#7 21 ||| slotPut d 15 ||| slotPut a 9 ||| slotPut i 0
  | .shri d a i => slotPut 0x16#7 21 ||| slotPut d 15 ||| slotPut a 9 ||| slotPut i 0
  | .sari d a i => slotPut 0x17#7 21 ||| slotPut d 15 ||| slotPut a 9 ||| slotPut i 0
  | .movi d i => slotPut 0x18#7 21 ||| slotPut d 15 ||| slotPut i 0
  | .movs d i => slotPut 0x19#7 21 ||| slotPut d 15 ||| slotPut i 0
  | .cmpeq d a b => slotPut 0x20#7 21 ||| slotPut d 18 ||| slotPut a 12 ||| slotPut b 6
  | .cmpne d a b => slotPut 0x21#7 21 ||| slotPut d 18 ||| slotPut a 12 ||| slotPut b 6
  | .cmplt d a b => slotPut 0x22#7 21 ||| slotPut d 18 ||| slotPut a 12 ||| slotPut b 6
  | .cmpltu d a b => slotPut 0x23#7 21 ||| slotPut d 18 ||| slotPut a 12 ||| slotPut b 6
  | .cmpge d a b => slotPut 0x24#7 21 ||| slotPut d 18 ||| slotPut a 12 ||| slotPut b 6
  | .cmpgeu d a b => slotPut 0x25#7 21 ||| slotPut d 18 ||| slotPut a 12 ||| slotPut b 6
  | .cmpeqi d a i => slotPut 0x26#7 21 ||| slotPut d 18 ||| slotPut a 12 ||| slotPut i 0
  | .cmplti d a i => slotPut 0x27#7 21 ||| slotPut d 18 ||| slotPut a 12 ||| slotPut i 0
  | .cmpltui d a i => slotPut 0x28#7 21 ||| slotPut d 18 ||| slotPut a 12 ||| slotPut i 0
  | .plog d a b fn => slotPut 0x29#7 21 ||| slotPut d 18 ||| slotPut a 15 ||| slotPut b 12 ||| slotPut fn 9
  | .ldb d a i => slotPut 0x30#7 21 ||| slotPut d 15 ||| slotPut a 9 ||| slotPut i 0
  | .ldh d a i => slotPut 0x31#7 21 ||| slotPut d 15 ||| slotPut a 9 ||| slotPut i 0
  | .ldw d a i => slotPut 0x32#7 21 ||| slotPut d 15 ||| slotPut a 9 ||| slotPut i 0
  | .ldd d a i => slotPut 0x33#7 21 ||| slotPut d 15 ||| slotPut a 9 ||| slotPut i 0
  | .stb d a i => slotPut 0x34#7 21 ||| slotPut d 15 ||| slotPut a 9 ||| slotPut i 0
  | .sth d a i => slotPut 0x35#7 21 ||| slotPut d 15 ||| slotPut a 9 ||| slotPut i 0
  | .stw d a i => slotPut 0x36#7 21 ||| slotPut d 15 ||| slotPut a 9 ||| slotPut i 0
  | .std d a i => slotPut 0x37#7 21 ||| slotPut d 15 ||| slotPut a 9 ||| slotPut i 0
  | .vld v a i => slotPut 0x38#7 21 ||| slotPut v 17 ||| slotPut a 11 ||| slotPut i 0
  | .vst v a i => slotPut 0x39#7 21 ||| slotPut v 17 ||| slotPut a 11 ||| slotPut i 0
  | .vxacc v a i => slotPut 0x3a#7 21 ||| slotPut v 17 ||| slotPut a 11 ||| slotPut i 0
  | .ldl d a i => slotPut 0x3c#7 21 ||| slotPut d 15 ||| slotPut a 9 ||| slotPut i 0
  | .stc d a b fn => slotPut 0x3d#7 21 ||| slotPut d 15 ||| slotPut a 9 ||| slotPut b 3 ||| slotPut fn 0
  | .vlog d a b k fn => slotPut 0x40#7 21 ||| slotPut d 17 ||| slotPut a 13 ||| slotPut b 9 ||| slotPut k 5 ||| slotPut fn 0
  | .vadd d a b fn => slotPut 0x41#7 21 ||| slotPut d 17 ||| slotPut a 13 ||| slotPut b 9 ||| slotPut fn 0
  | .vshuf d a b k fn => slotPut 0x42#7 21 ||| slotPut d 17 ||| slotPut a 13 ||| slotPut b 9 ||| slotPut k 5 ||| slotPut fn 0
  | .vbrev d a fn => slotPut 0x43#7 21 ||| slotPut d 17 ||| slotPut a 13 ||| slotPut fn 0
  | .vclmul d a b fn => slotPut 0x48#7 21 ||| slotPut d 17 ||| slotPut a 13 ||| slotPut b 9 ||| slotPut fn 0
  | .vgfmul d a b fn => slotPut 0x49#7 21 ||| slotPut d 17 ||| slotPut a 13 ||| slotPut b 9 ||| slotPut fn 0
  | .vgfx d a fn => slotPut 0x4a#7 21 ||| slotPut d 17 ||| slotPut a 13 ||| slotPut fn 0
  | .vmovg v g ln => slotPut 0x50#7 21 ||| slotPut v 17 ||| slotPut g 11 ||| slotPut ln 9
  | .vinsg v g ln => slotPut 0x51#7 21 ||| slotPut v 17 ||| slotPut g 11 ||| slotPut ln 9
  | .vsplat v g => slotPut 0x52#7 21 ||| slotPut v 17 ||| slotPut g 11
  | .spush v port pq => slotPut 0x60#7 21 ||| slotPut v 17 ||| slotPut port 13 ||| slotPut pq 10
  | .spop v port pq => slotPut 0x61#7 21 ||| slotPut v 17 ||| slotPut port 13 ||| slotPut pq 10
  | .scmd v port pq fn => slotPut 0x62#7 21 ||| slotPut v 17 ||| slotPut port 13 ||| slotPut pq 10 ||| slotPut fn 0
  | .sstat g port fn => slotPut 0x63#7 21 ||| slotPut g 4 ||| slotPut port 13 ||| slotPut fn 0
  | .br off => slotPut 0x70#7 21 ||| slotPut off 0
  | .brl off => slotPut 0x71#7 21 ||| slotPut off 0
  | .bri a => slotPut 0x72#7 21 ||| slotPut a 9
  | .end_ => slotPut 0x73#7 21
  | .mfsr d sn => slotPut 0x74#7 21 ||| slotPut d 15 ||| slotPut sn 0
  | .mtsr sn a => slotPut 0x75#7 21 ||| slotPut sn 0 ||| slotPut a 9
  | .sysc sn => slotPut 0x76#7 21 ||| slotPut sn 0
  | .rft => slotPut 0x77#7 21
  | .cache a sn => slotPut 0x78#7 21 ||| slotPut a 9 ||| slotPut sn 0

/-- A slot word: the guard PN in bit 31 and PR in bits 30:28 (R102), and the instruction. -/
def encodeSlot (pn : Bool) (pr : BitVec 3) (op : Op) : BitVec 32 :=
  slotPut (BitVec.ofBool pn) 31 ||| slotPut pr 28 ||| encodeOp op

/-- The guard and the instruction of a slot word. -/
def decodeSlot (w : BitVec 32) : Bool × BitVec 3 × Option Op := (w.getLsbD 31, slotField w 28 3, decodeOp w)

/-- What an instruction does. -/
def opAct : Op → Act
  | .nop => actNop
  | .add d a b => actAdd d a b
  | .sub d a b => actSub d a b
  | .and_ d a b => actAnd d a b
  | .or_ d a b => actOr d a b
  | .xor_ d a b => actXor d a b
  | .shl d a b => actShl d a b
  | .shr d a b => actShr d a b
  | .sar d a b => actSar d a b
  | .mul d a b => actMul d a b
  | .mulhu d a b => actMulhu d a b
  | .clz d a => actClz d a
  | .popc d a => actPopc d a
  | .bswap d a fn => actBswap d a fn
  | .sel d a b fn => actSel d a b fn
  | .addi d a i => actAddi d a i
  | .andi d a i => actAndi d a i
  | .ori d a i => actOri d a i
  | .xori d a i => actXori d a i
  | .shli d a i => actShli d a i
  | .shri d a i => actShri d a i
  | .sari d a i => actSari d a i
  | .movi d i => actMovi d i
  | .movs d i => actMovs d i
  | .cmpeq d a b => actCmpeq d a b
  | .cmpne d a b => actCmpne d a b
  | .cmplt d a b => actCmplt d a b
  | .cmpltu d a b => actCmpltu d a b
  | .cmpge d a b => actCmpge d a b
  | .cmpgeu d a b => actCmpgeu d a b
  | .cmpeqi d a i => actCmpeqi d a i
  | .cmplti d a i => actCmplti d a i
  | .cmpltui d a i => actCmpltui d a i
  | .plog d a b fn => actPlog d a b fn
  | .ldb d a i => actLdb d a i
  | .ldh d a i => actLdh d a i
  | .ldw d a i => actLdw d a i
  | .ldd d a i => actLdd d a i
  | .stb d a i => actStb d a i
  | .sth d a i => actSth d a i
  | .stw d a i => actStw d a i
  | .std d a i => actStd d a i
  | .vld v a i => actVld v a i
  | .vst v a i => actVst v a i
  | .vxacc v a i => actVxacc v a i
  | .ldl d a i => actLdl d a i
  | .stc d a b fn => actStc d a b fn
  | .vlog d a b k fn => actVlog d a b k fn
  | .vadd d a b fn => actVadd d a b fn
  | .vshuf d a b k fn => actVshuf d a b k fn
  | .vbrev d a fn => actVbrev d a fn
  | .vclmul d a b fn => actVclmul d a b fn
  | .vgfmul d a b fn => actVgfmul d a b fn
  | .vgfx d a fn => actVgfx d a fn
  | .vmovg v g ln => actVmovg v g ln
  | .vinsg v g ln => actVinsg v g ln
  | .vsplat v g => actVsplat v g
  | .spush v port pq => actSpush v port pq
  | .spop v port pq => actSpop v port pq
  | .scmd v port pq fn => actScmd v port pq fn
  | .sstat g port fn => actSstat g port fn
  | .br off => actBr off
  | .brl off => actBrl off
  | .bri a => actBri a
  | .end_ => actEnd
  | .mfsr d sn => actMfsr d sn
  | .mtsr sn a => actMtsr sn a
  | .sysc sn => actSysc sn
  | .rft => actRft
  | .cache a sn => actCache a sn

end Sys2Proof.Machine
end

