-- ==== Sys2Proof/Machine/CheckCode.lean ====
section
/-! DEFINITION. The image checker's properties of the spindle code: encoding, and the analysis of every turn program along every path, with
an unsigned interval for every register: control flow, confinement, port timing and throughput (R52, R53, R77, R98–R123, R155–R158,
R164–R167, R220, R252, R670). DEDUCED, log entry 146. -/

namespace Sys2Proof.Machine

/-! ## 0x03 Encoding (R98, R103–R106, R117, R670) -/

/-- Fields of an instruction that its operation does not name, or values that its chapter does not define: none is used (R104, R106, R670). No
spindle bundle holds MTSR, SYSC or RFT, or an SN outside 0–3 (R164). -/
def opFieldsOk : Op → Bool
  | .bswap _ _ fn => decide (fn.toNat ≤ 2)
  | .shli _ _ i | .shri _ _ i | .sari _ _ i => decide (i.toNat < 64)
  | .plog _ _ b fn => decide (fn.toNat ≤ 5) && (decide (fn.toNat < 4) || b = 0)
  | .stc _ _ _ fn => fn = 0
  | .vlog _ _ b k fn => decide (fn.toNat ≤ 7) && (fn = 4 || fn = 5 || k = 0) && (decide (fn.toNat < 6) || b = 0)
  | .vadd _ _ _ fn => decide (fn.toNat < 8)
  | .vshuf _ _ _ _ fn => fn = 0
  | .vbrev _ _ fn => decide (fn.toNat ≤ 2)
  | .vclmul _ _ _ fn => decide (fn.toNat < 4)
  | .vgfmul _ _ _ fn => decide (fn.toNat ≤ 1)
  | .vgfx _ _ fn => decide (fn.toNat ≤ 3)
  | .spush _ port _ => pushPorts.contains port.toNat
  | .spop _ port _ => popPorts.contains port.toNat
  | .scmd _ port _ _ => cmdPorts.contains port.toNat
  | .sstat _ port fn => decide (port.toNat ≤ 12) && decide (fn.toNat ≤ 1)
  | .mfsr _ sn => decide (sn.toNat ≤ 3)
  | .cache _ sn => decide (sn.toNat ≤ 3)
  | .mtsr _ _ | .sysc _ | .rft => false
  | _ => true

/-- Slot `k`'s word of a bundle. -/
def bundleWord (w : BitVec 128) (k : Nat) : BitVec 32 := (w >>> (32 * k)).setWidth 32

/-- A slot word is a defined instruction in a slot that allows it, with 0 in every bit that it does not name. -/
def wordOk (k : Nat) (w : BitVec 32) : Bool :=
  match decodeSlot w with
  | (pn, pr, some op) => (opAct op).slots.contains k && encodeSlot pn pr op = w && opFieldsOk op
  | _ => false

/-- A bundle keeps its encoding. -/
def bundleOk (w : BitVec 128) : Bool := (List.range 4).all (fun k => wordOk k (bundleWord w k))

/-- The first spindle of a mask. -/
def firstSpindle (m : BitVec 64) : Nat := ((List.range 64).find? (bit m)).getD 0xFFFF

/-- A failure at the bundle at address `a` of spindle `n`. -/
def codeFail (v deck a n cycle : Nat) : Fail := { verdict := v, what := 1, deck := deck, at_ := a, res := n, cycle := cycle }

/-- Property 0x03. -/
def encodingFail (im : Image) : Option Fail :=
  im.code.findSome? (fun c => c.words.zipIdx.findSome? (fun x =>
    need (bundleOk x.1) (codeFail 3 0xF (c.addr + 16 * x.2) (firstSpindle c.mask) 0)))

/-! ## Intervals (R166) -/

/-- A closed interval of unsigned 64-bit numbers. -/
abbrev Iv := Nat × Nat

/-- Every number. -/
def ivAll : Iv := (0, 2 ^ 64 - 1)

/-- One number. -/
def ivOne (n : Nat) : Iv := (n % 2 ^ 64, n % 2 ^ 64)

/-- An interval holds one number. -/
def ivSingle (a : Iv) : Bool := a.1 = a.2

/-- The sums of two intervals, where they do not straddle 2^64. -/
def ivAdd (a b : Iv) : Iv :=
  if a.2 + b.2 < 2 ^ 64 then (a.1 + b.1, a.2 + b.2)
  else if 2 ^ 64 ≤ a.1 + b.1 then (a.1 + b.1 - 2 ^ 64, a.2 + b.2 - 2 ^ 64) else ivAll

/-- The conjunctions with a known mask. -/
def ivMask (a : Iv) (m : Nat) : Iv := if ivSingle a then ivOne (a.1 &&& m) else (0, min a.2 m)

/-- The conjunctions of two intervals, one of them known. -/
def ivAnd (a b : Iv) : Iv := if ivSingle b then ivMask a b.1 else if ivSingle a then ivMask b a.1 else ivAll

/-- The shifts to the left by a known count, where no bit is lost. -/
def ivShl (a : Iv) (k : Nat) : Iv := if a.2 * 2 ^ k < 2 ^ 64 then (a.1 * 2 ^ k, a.2 * 2 ^ k) else ivAll

/-- A sign-extended immediate as an unsigned number. -/
def immNat {w : Nat} (i : BitVec w) : Nat := (i.signExtend 64).toNat

/-- The truth of a < b, unsigned: (0, 0) false, (1, 1) true, (0, 1) not known. -/
def ivLtu (a b : Iv) : Iv := if a.2 < b.1 then (1, 1) else if b.2 ≤ a.1 then (0, 0) else (0, 1)

/-- An interval of signed numbers, each 2^63 higher; every number where it straddles the signs. -/
def ivSigned (a : Iv) : Iv :=
  if a.2 < 2 ^ 63 then (a.1 + 2 ^ 63, a.2 + 2 ^ 63) else if 2 ^ 63 ≤ a.1 then (a.1 - 2 ^ 63, a.2 - 2 ^ 63) else ivAll

/-- The truth of a = b. -/
def ivEq (a b : Iv) : Iv :=
  if ivSingle a && ivSingle b && a.1 = b.1 then (1, 1) else if a.2 < b.1 || b.2 < a.1 then (0, 0) else (0, 1)

/-- The other truth. -/
def ivNot (a : Iv) : Iv := (1 - a.2, 1 - a.1)

/-- PLOG on truths (R106). -/
def ivPlog (fn : Nat) (a b : Iv) : Iv :=
  if fn = 0 then (min a.1 b.1, min a.2 b.2) else if fn = 1 then (max a.1 b.1, max a.2 b.2)
  else if fn = 2 then (if ivSingle a && ivSingle b then ivOne (if a.1 = b.1 then 0 else 1) else (0, 1))
  else if fn = 3 then (min a.1 (ivNot b).1, min a.2 (ivNot b).2) else if fn = 4 then ivNot a else a

/-! ## Registers by number: g registers from 0, the lanes of v registers from 64, p registers from 128 -/

/-- Lane `k` of v register `v`. -/
def laneNo (v : BitVec 4) (k : Nat) : Nat := 64 + 4 * v.toNat + k

/-- A p register. -/
def predNo (p : BitVec 3) : Nat := 128 + p.toNat

/-- The lanes of a v register. -/
def laneNos (v : BitVec 4) : List Nat := (List.range 4).map (laneNo v)

/-- The g, v (first lane) and p registers that an instruction names, whether it reads or writes them (R167). -/
def opNames : Op → List Nat
  | .nop | .br _ | .end_ | .sysc _ | .rft => []
  | .add d a b | .sub d a b | .and_ d a b | .or_ d a b | .xor_ d a b | .shl d a b | .shr d a b | .sar d a b | .mul d a b | .mulhu d a b
  | .stc d a b _ => [d.toNat, a.toNat, b.toNat]
  | .sel d a b fn => [d.toNat, a.toNat, b.toNat, predNo fn]
  | .clz d a | .popc d a | .bswap d a _ => [d.toNat, a.toNat]
  | .addi d a _ | .andi d a _ | .ori d a _ | .xori d a _ | .shli d a _ | .shri d a _ | .sari d a _ => [d.toNat, a.toNat]
  | .movi d _ | .movs d _ | .mfsr d _ => [d.toNat]
  | .cmpeq d a b | .cmpne d a b | .cmplt d a b | .cmpltu d a b | .cmpge d a b | .cmpgeu d a b => [predNo d, a.toNat, b.toNat]
  | .cmpeqi d a _ | .cmplti d a _ | .cmpltui d a _ => [predNo d, a.toNat]
  | .plog d a b _ => [predNo d, predNo a, predNo b]
  | .ldb d a _ | .ldh d a _ | .ldw d a _ | .ldd d a _ | .stb d a _ | .sth d a _ | .stw d a _ | .std d a _ | .ldl d a _ => [d.toNat, a.toNat]
  | .vld v a _ | .vst v a _ | .vxacc v a _ => [laneNo v 0, a.toNat]
  | .vlog d a b k fn =>
    [laneNo d 0, laneNo a 0] ++ (if fn.toNat < 6 then [laneNo b 0] else []) ++ (if fn = 4 ∨ fn = 5 then [laneNo k 0] else [])
  | .vshuf d a b k _ => [laneNo d 0, laneNo a 0, laneNo b 0, laneNo k 0]
  | .vadd d a b _ | .vclmul d a b _ | .vgfmul d a b _ => [laneNo d 0, laneNo a 0, laneNo b 0]
  | .vbrev d a _ | .vgfx d a _ => [laneNo d 0, laneNo a 0]
  | .vmovg v g _ | .vinsg v g _ | .vsplat v g => [laneNo v 0, g.toNat]
  | .spush v _ pq | .spop v _ pq | .scmd v _ pq _ => [laneNo v 0, predNo pq]
  | .sstat g _ _ => [g.toNat]
  | .brl _ => [63]
  | .bri a | .cache a _ | .mtsr _ a => [a.toNat]

/-- The register that a compare with an immediate writes, and the one it reads, where it is CMPLTI or CMPLTUI. -/
def loopCompare : Op → Option (Nat × Nat)
  | .cmplti d a _ | .cmpltui d a _ => some (predNo d, a.toNat)
  | _ => none

/-- An instruction adds a positive constant to a register. -/
def loopAdd : Op → Option Nat
  | .addi d a i => if d = a && decide (1 ≤ i.toInt) then some d.toNat else none
  | _ => none

/-- The g and p registers that an instruction writes. -/
def opWrites : Op → List Nat
  | .add d _ _ | .sub d _ _ | .and_ d _ _ | .or_ d _ _ | .xor_ d _ _ | .shl d _ _ | .shr d _ _ | .sar d _ _ | .mul d _ _ | .mulhu d _ _
  | .sel d _ _ _ | .clz d _ | .popc d _ | .bswap d _ _ | .addi d _ _ | .andi d _ _ | .ori d _ _ | .xori d _ _ | .shli d _ _ | .shri d _ _
  | .sari d _ _ | .movi d _ | .movs d _ | .mfsr d _ | .ldb d _ _ | .ldh d _ _ | .ldw d _ _ | .ldd d _ _ | .ldl d _ _ => [d.toNat]
  | .stc _ _ b _ => [b.toNat]
  | .cmpeq d _ _ | .cmpne d _ _ | .cmplt d _ _ | .cmpltu d _ _ | .cmpge d _ _ | .cmpgeu d _ _ | .cmpeqi d _ _ | .cmplti d _ _
  | .cmpltui d _ _ | .plog d _ _ _ => [predNo d]
  | .vmovg _ g _ | .sstat g _ _ => [g.toNat]
  | .spush _ _ pq | .spop _ _ pq | .scmd _ _ pq _ => [predNo pq]
  | .brl _ => [63]
  | _ => []

/-! ## A path through a turn program -/

/-- What is checked: an image's deck, a spindle, a turn of the period, and the property whose failures are looked for. -/
structure CodeEnv where
  im   : Image
  deck : Deck
  held : List Held
  n    : Nat
  turn : Nat
  prop : Nat

/-- An open descriptor of a port on a path: units still to push, its bundle, the cycle it opened in, and the resource of its slot. -/
structure PathDesc where
  left : Nat := 0
  addr : Nat := 0
  at_  : Nat := 0
  res  : Nat := 0
  stop : Nat := 0
  deriving DecidableEq, Repr

/-- A unit that will be ready to pop: the cycle, the cycle its slot ends in, and the bundle that asked for it. -/
structure PathUnit where
  ready : Nat := 0
  stop  : Nat := 0
  addr  : Nat := 0
  deriving DecidableEq, Repr

/-- A path: the cycle, counted from the start of the spindle's first turn, and the fetch sequence, the bundles left after END, the registers, the results in flight (register, value, cycle), whether
g63 holds a link, the open descriptors by port, the cycle of each port's last push, the units of DIN and COUT, and the bytes sent on
each transmit path. -/
structure Path where
  cyc  : Nat := 0
  a0   : Nat := 0
  a1   : Nat := 0
  a2   : Nat := 0
  left : Option Nat := none
  regs : SMap Iv := []
  fly  : List (Nat × Iv × Nat) := []
  link : Bool := false
  open_ : List (Nat × PathDesc) := []
  last : SMap (Option Nat) := []
  din  : List PathUnit := []
  cout : List PathUnit := []
  tx   : SMap Nat := []
  deriving DecidableEq, Repr

/-- The value of a register: g0 is 0 and p0 is 1. -/
def pathReg (p : Path) (r : Nat) : Iv :=
  if r = 0 then (0, 0) else if r = 128 then (1, 1)
  else if r < 128 then mget ivAll p.regs r else if mget ivAll p.regs r = ivAll then (0, 1) else mget ivAll p.regs r

/-- A g register by its operand field. -/
def pathG (p : Path) (r : BitVec 6) : Iv := pathReg p r.toNat

/-- A result of latency `lat`; any write of g63 but a link ends the link. -/
def pathPut (r : Nat) (v : Iv) (lat : Nat) (p : Path) : Path :=
  { p with fly := p.fly ++ [(r, v, p.cyc + lat)], link := p.link && r ≠ 63 }

/-- The results due land, in the order of their bundles and slots (R100, R101). -/
def pathLand (p : Path) : Path :=
  { p with
    regs := (p.fly.filter (fun f => decide (f.2.2 ≤ p.cyc))).foldl (fun m f => mset ivAll f.1 f.2.1 m) p.regs
    fly := p.fly.filter (fun f => decide (p.cyc < f.2.2)) }

/-- The code section that holds the bundle at an address of a spindle. -/
def sectionAt (e : CodeEnv) (a : Nat) : Option CodeSec :=
  e.im.code.reverse.find? (fun c => bit c.mask e.n && decide (c.addr ≤ a ∧ a < c.addr + 16 * c.words.length))

/-- The bundle at an address: NOPs where no section is. -/
def bundleAt (e : CodeEnv) (a : Nat) : BitVec 128 := ((sectionAt e a).map (fun c => c.words.getD ((a - c.addr) / 16) 0)).getD 0

/-- The owner of the bundle at an address (R167). -/
def ownerAt (e : CodeEnv) (a : Nat) : Nat := ((sectionAt e a).map (·.owner)).getD 0x1FF

/-- The cycles for which an occurrence has run. -/
def heldFor (e : CodeEnv) (c : Nat) (h : Held) : Nat := (c + periodCycles e.deck - h.at_) % periodCycles e.deck

/-- The cycle at which an occurrence that runs now ends. -/
def heldStop (e : CodeEnv) (c : Nat) (h : Held) : Nat := c + h.slot.len - heldFor e c h

/-- An occurrence runs in a cycle. -/
def heldRuns (e : CodeEnv) (c : Nat) (h : Held) : Bool := decide (heldFor e c h < h.slot.len)

/-- An occurrence that runs began before the first turn that is followed. -/
def heldBefore (e : CodeEnv) (c : Nat) (h : Held) : Bool := decide (c < heldFor e c h)

/-- A cipher slot in which a soft-decoded item may be taken (R402): the first of its owner at least 88 cycles after the end of one of its pool
slots. -/
def softSlot (e : CodeEnv) (h : Held) : Bool :=
  let t := periodCycles e.deck
  let from_ := fun (q c : Held) => cyclesTo t ((q.at_ + q.slot.len + 88) % t) c.at_
  e.held.any (fun q => q.slot.typ = 9 && q.slot.owner = h.slot.owner && e.held.all (fun c =>
    !(c.slot.typ = 6 && c.slot.owner = h.slot.owner) || decide (from_ q h ≤ from_ q c)))

/-- The slot of an owner that serves a port in a cycle (R117, R118, R402). -/
def portHeld (e : CodeEnv) (port owner c : Nat) : Option Held :=
  e.held.find? (fun h =>
    let prog := busTransfer h.slot && !e.deck.places.any (fun r => r.transfer = h.entry)
    let cip := h.slot.typ = 6 && h.slot.kind = 3
    heldRuns e c h && h.slot.owner = owner &&
    (if port = 4 then (cip && (e.deck.places.any (fun r => r.cipher = h.entry) || softSlot e h)) || prog else if port = 5 then prog else if port = 6 || port = 7 then cip
     else if port = 11 then h.slot.typ = 5 && h.slot.kind = 7 else h.slot.typ = 7 && h.slot.kind = 4 && decide (heldRes h % 16 ≠ 8)))

/-- A failure at the bundle a path is at. -/
def pathFail (e : CodeEnv) (p : Path) (a : Nat) (v : Nat) : Fail := codeFail v e.deck.mode.toNat a e.n (p.cyc % periodCycles e.deck)

/-- A condition of property `v` must hold at the bundle at `a`. -/
def pathNeed (e : CodeEnv) (v a : Nat) (ok : Bool) (p : Path) : Except Fail Path :=
  if ok || e.prop ≠ v then .ok p else .error (pathFail e p a v)

/-! ## 0x0B: what an owner has (R53, R166, R167) -/

/-- What an owner has on the spindle. -/
def ownParts (e : CodeEnv) (owner : Nat) : List SpnPart :=
  ((e.im.parts.filter (fun p => p.owner = owner)).map (fun p => p.spns.filter (fun x => bit x.mask e.n))).flatten

/-- An owner has a register; every owner may name g0 and p0. -/
def ownsReg (e : CodeEnv) (owner r : Nat) : Bool :=
  r = 0 || r = 128 || (ownParts e owner).any (fun x =>
    if r < 64 then bit x.g r else if r < 128 then bit x.v ((r - 64) / 4) else bit x.p (r - 128))

/-- Every byte that an access of `n` bytes may touch lies in one scratch range of the owner. -/
def scratchOwned (e : CodeEnv) (owner n : Nat) (a : Iv) : Bool :=
  (ownParts e owner).any (fun x => x.scratch.any (fun r => decide (r.1 ≤ a.1 ∧ a.2 + n ≤ r.1 + r.2)))

/-- The scratch access of an instruction: its address and its bytes (R112). -/
def opAccess (p : Path) : Op → Option (Iv × Nat)
  | .ldb _ a i | .stb _ a i => some (ivAdd (pathG p a) (ivOne (immNat i)), 1)
  | .ldh _ a i | .sth _ a i => some (ivAdd (pathG p a) (ivOne (2 * immNat i)), 2)
  | .ldw _ a i | .stw _ a i => some (ivAdd (pathG p a) (ivOne (4 * immNat i)), 4)
  | .ldd _ a i | .std _ a i | .ldl _ a i => some (ivAdd (pathG p a) (ivOne (8 * immNat i)), 8)
  | .stc _ a _ _ => some (pathG p a, 8)
  | .vld _ a i | .vst _ a i | .vxacc _ a i => some (ivAdd (pathG p a) (ivOne (32 * immNat i)), 32)
  | _ => none

/-- The registers that a slot word names, its guard among them. -/
def wordNames (w : BitVec 32) : List Nat :=
  match decodeSlot w with
  | (_, pr, some op) => predNo pr :: opNames op
  | _ => []

/-- A bundle issues inside an issue slot of its section's owner and names only that owner's registers. -/
def confined (e : CodeEnv) (p : Path) : Bool :=
  let o := ownerAt e p.a0
  e.held.any (fun h => h.slot.typ = 8 && heldRes h = e.n && h.slot.owner = o && heldRuns e p.cyc h) &&
    (List.range 4).all (fun k => (wordNames (bundleWord (bundleAt e p.a0) k)).all (ownsReg e o))

/-! ## 0x0C: ports (R118–R123, R155, R157) -/

/-- A bit field of a lane that holds one value on the path. -/
def laneField (v : Iv) (lo n : Nat) : Option Nat :=
  if v.1 / 2 ^ lo = v.2 / 2 ^ lo then some (v.1 / 2 ^ lo % 2 ^ n) else none

/-- The bytes of a frame on the wire with its 8 bytes of preamble and start delimiter and 12 bytes of gap (R220, R252), over IPv4 and
untagged, as the worked example after R255 counts them. -/
def frameBytes (kind op len flags : Nat) : Nat :=
  let dig := 4 * (flags / 4 % 2) + 4 * (flags / 8 % 2)
  let n :=
    if kind = 0 then 14 + 20 + 8 + 12 + (if bthReth.contains op then 16 else if op = 0x11 ∨ op = 0x17 then 4 else if op = 0x81 then 16 else 0) +
      (len + 3) / 4 * 4 + 4 + 4
    else if kind = 1 then 14 + 20 + 20 + len + dig + 4 else len + 4
  max n 64 + 20

/-- The open descriptor of a port. -/
def pathOpen (p : Path) (port : Nat) : Option PathDesc := (p.open_.find? (fun x => x.1 = port)).map (·.2)

/-- Open or change the descriptor of a port; none closes it. -/
def pathSetOpen (port : Nat) (d : Option PathDesc) (p : Path) : Path :=
  let rest := p.open_.filter (fun x => x.1 ≠ port)
  { p with open_ := match d with | none => rest | some d => (port, d) :: rest }

/-- The units a descriptor covers: 521 of a page, the Count of CIN and DCMD, the payload of a frame; none where it is no single value. -/
def descUnits (p : Path) (v : BitVec 4) (port : Nat) : Option Nat :=
  if port = 5 then some 521
  else if port = 6 then laneField (pathReg p (laneNo v 0)) 16 16
  else if port = 8 then (let x := pathReg p (laneNo v 1); if ivSingle x then some (x.1 % 65536) else none)
  else (laneField (pathReg p (laneNo v 0)) 16 16).map (fun n => (n + 31) / 32)

/-- The bytes that a frame's descriptor plans. -/
def descBytes (p : Path) (v : BitVec 4) (fn : Nat) : Nat :=
  let x := pathReg p (laneNo v 0)
  frameBytes fn ((laneField x 32 8).getD 0x06) ((laneField x 16 16).getD 9216) ((laneField x 40 8).getD 0x0C)

/-- An SCMD to a granted port. -/
def pathCmd (e : CodeEnv) (v : BitVec 4) (port fn : Nat) (p : Path) : Except Fail Path :=
  match portHeld e port (ownerAt e p.a0) p.cyc with
  | none => pathNeed e 12 p.a0 false p
  | some h => do
    let write := port ≠ 8 || fn = 1
    let units := descUnits p v port
    let slot := if port = 8 && fn = 1 then 10 else port
    let p ← pathNeed e 12 p.a0 (units.isSome && (!write || (pathOpen p slot).isNone)) p
    let n := units.getD 0
    let stop := heldStop e p.cyc h
    if write then
      let p := if port = 11 then { p with tx := mmod 0 (heldRes h) (· + descBytes p v fn) p.tx } else p
      .ok (if n = 0 then p else pathSetOpen slot (some { left := n, addr := p.a0, at_ := p.cyc, res := heldRes h, stop := stop }) p)
    else .ok { p with din := p.din ++ (List.range n).map (fun k => { ready := p.cyc + 160 + k, stop := stop, addr := p.a0 }) }

/-- A SPUSH to a granted port: an open descriptor has a unit left; CIN's come at least 2 cycles apart and DOUT's one per cycle, each after the
cycle of the descriptor. -/
def pathPush (e : CodeEnv) (port : Nat) (p : Path) : Except Fail Path :=
  match portHeld e port (ownerAt e p.a0) p.cyc with
  | none => pathNeed e 12 p.a0 false p
  | some h =>
    match pathOpen p port with
    | none => pathNeed e 12 p.a0 (heldBefore e p.cyc h) p
    | some d => do
      let key := 256 * port + heldRes h
      let gap := if port = 6 then 2 else if port = 10 then 1 else 0
      let p ← pathNeed e 12 p.a0 ((port = 5 || port = 11 || decide (d.at_ < p.cyc)) &&
        (match mget none p.last key with | some t => decide (t + gap ≤ p.cyc) | none => true)) p
      let p := { p with last := mset none key (some p.cyc) p.last }
      let p := if port = 6 then { p with cout := p.cout ++ [{ ready := p.cyc + 32, stop := heldStop e p.cyc h, addr := p.a0 }] } else p
      .ok (pathSetOpen port (if d.left ≤ 1 then none else some { d with left := d.left - 1 }) p)

/-- A pop of a queue of units: the first is ready, or was asked for before the first turn that is followed. -/
def pathPopUnit (e : CodeEnv) (h : Held) (l : List PathUnit) (set : List PathUnit → Path → Path) (p : Path) : Except Fail Path :=
  match l with
  | [] => pathNeed e 12 p.a0 (heldBefore e p.cyc h) p
  | u :: rest => (pathNeed e 12 p.a0 (decide (u.ready ≤ p.cyc)) p).map (set rest)

/-- A SPOP of a granted port. A place's units on PIN are ready when its cipher slot starts, by property 0x08; an outcome item's pop may find
nothing (R119). -/
def pathPop (e : CodeEnv) (port : Nat) (p : Path) : Except Fail Path :=
  match portHeld e port (ownerAt e p.a0) p.cyc with
  | none => pathNeed e 12 p.a0 false p
  | some h =>
    if port = 7 then pathPopUnit e h p.cout (fun l p => { p with cout := l }) p
    else if port = 9 then pathPopUnit e h p.din (fun l p => { p with din := l }) p
    else .ok p

/-- Nothing is left over of a slot that has ended: no descriptor owes units, and no unit of DIN waits. -/
def pathSettle (e : CodeEnv) (p : Path) : Except Fail Path :=
  if e.prop ≠ 12 then .ok p
  else match p.open_.find? (fun x => decide (x.2.stop ≤ p.cyc)) with
    | some x => .error (pathFail e p x.2.addr 12)
    | none =>
      match p.din.find? (fun u => decide (u.stop ≤ p.cyc)) with
      | some u => .error (pathFail e p u.addr 12)
      | none => .ok p

/-! ## What an instruction does to a path -/

/-- Put the lanes of a v register. -/
def pathPutV (v : BitVec 4) (f : Nat → Iv) (lat : Nat) (p : Path) : Path :=
  (List.range 4).foldl (fun p k => pathPut (laneNo v k) (f k) lat p) p

/-- VLOG on a lane of known values (R106). -/
def ivVlog (fn : BitVec 5) (same : Bool) (a b c : Iv) : Iv :=
  if same && (fn = 2 || fn = 3) then (0, 0)
  else if fn = 7 then a
  else if ivSingle a && ivSingle b && (ivSingle c || (fn ≠ 4 && fn ≠ 5)) then
    ((vlogFn fn (BitVec.ofNat 256 a.1) (BitVec.ofNat 256 b.1) (BitVec.ofNat 256 c.1)).map (fun x => ivOne x.toNat)).getD ivAll
  else ivAll

/-- The effect of an instruction on a path. -/
def pathOp (e : CodeEnv) (p : Path) : Op → Except Fail Path
  | .nop | .br _ | .bri _ | .end_ | .mtsr _ _ | .sysc _ | .rft | .cache _ _ => .ok p
  | .add d a b => .ok (pathPut d.toNat (ivAdd (pathG p a) (pathG p b)) 1 p)
  | .and_ d a b => .ok (pathPut d.toNat (ivAnd (pathG p a) (pathG p b)) 1 p)
  | .sub d _ _ | .or_ d _ _ | .xor_ d _ _ | .shl d _ _ | .shr d _ _ | .sar d _ _ | .sel d _ _ _ | .clz d _ | .popc d _ | .bswap d _ _
  | .ori d _ _ | .xori d _ _ | .shri d _ _ | .sari d _ _ => .ok (pathPut d.toNat ivAll 1 p)
  | .mul d _ _ | .mulhu d _ _ => .ok (pathPut d.toNat ivAll 3 p)
  | .addi d a i => .ok (pathPut d.toNat (ivAdd (pathG p a) (ivOne (immNat i))) 1 p)
  | .andi d a i => .ok (pathPut d.toNat (ivMask (pathG p a) (immNat i)) 1 p)
  | .shli d a i => .ok (pathPut d.toNat (ivShl (pathG p a) (i.toNat % 64)) 1 p)
  | .movi d i => .ok (pathPut d.toNat (ivOne (immNat i)) 1 p)
  | .movs d i => .ok (pathPut d.toNat (ivAdd (ivShl (pathG p d) 15) (ivOne i.toNat)) 1 p)
  | .cmpeq d a b => .ok (pathPut (predNo d) (ivEq (pathG p a) (pathG p b)) 1 p)
  | .cmpne d a b => .ok (pathPut (predNo d) (ivNot (ivEq (pathG p a) (pathG p b))) 1 p)
  | .cmplt d a b => .ok (pathPut (predNo d) (ivLtu (ivSigned (pathG p a)) (ivSigned (pathG p b))) 1 p)
  | .cmpltu d a b => .ok (pathPut (predNo d) (ivLtu (pathG p a) (pathG p b)) 1 p)
  | .cmpge d a b => .ok (pathPut (predNo d) (ivNot (ivLtu (ivSigned (pathG p a)) (ivSigned (pathG p b)))) 1 p)
  | .cmpgeu d a b => .ok (pathPut (predNo d) (ivNot (ivLtu (pathG p a) (pathG p b))) 1 p)
  | .cmpeqi d a i => .ok (pathPut (predNo d) (ivEq (pathG p a) (ivOne (immNat i))) 1 p)
  | .cmplti d a i => .ok (pathPut (predNo d) (ivLtu (ivSigned (pathG p a)) (ivSigned (ivOne (immNat i)))) 1 p)
  | .cmpltui d a i => .ok (pathPut (predNo d) (ivLtu (pathG p a) (ivOne (immNat i))) 1 p)
  | .plog d a b fn => .ok (pathPut (predNo d) (ivPlog fn.toNat (pathReg p (predNo a)) (pathReg p (predNo b))) 1 p)
  | .ldb d _ _ | .ldh d _ _ | .ldw d _ _ | .ldd d _ _ | .ldl d _ _ => .ok (pathPut d.toNat ivAll 3 p)
  | .stb _ _ _ | .sth _ _ _ | .stw _ _ _ | .std _ _ _ | .vst _ _ _ | .vxacc _ _ _ => .ok p
  | .stc _ _ b _ => .ok (pathPut b.toNat ivAll 3 p)
  | .vld v _ _ => .ok (pathPutV v (fun _ => ivAll) 3 p)
  | .vlog d a b c fn =>
    let f := fun k => ivVlog fn (a = b) (pathReg p (laneNo a k)) (pathReg p (laneNo b k)) (pathReg p (laneNo c k))
    .ok (pathPutV d f 1 p)
  | .vadd d _ _ _ => .ok (pathPutV d (fun _ => ivAll) 2 p)
  | .vshuf d _ _ _ _ => .ok (pathPutV d (fun _ => ivAll) 2 p)
  | .vbrev d _ _ | .vgfx d _ _ => .ok (pathPutV d (fun _ => ivAll) 1 p)
  | .vclmul d _ _ _ => .ok (pathPutV d (fun _ => ivAll) 4 p)
  | .vgfmul d _ _ _ => .ok (pathPutV d (fun _ => ivAll) 5 p)
  | .vmovg _ g _ => .ok (pathPut g.toNat ivAll 2 p)
  | .vinsg v g ln => .ok (pathPut (laneNo v ln.toNat) (pathG p g) 1 p)
  | .vsplat v g => .ok (pathPutV v (fun _ => pathG p g) 1 p)
  | .spush _ port pq => do
    let p ← if needsGrant port.toNat then pathPush e port.toNat p else .ok p
    .ok (pathPut (predNo pq) (0, 1) 1 p)
  | .spop v port pq => do
    let p ← if needsGrant port.toNat then pathPop e port.toNat p else .ok p
    .ok (pathPut (predNo pq) (0, 1) 2 (pathPutV v (fun _ => ivAll) 2 p))
  | .scmd v port pq fn => do
    let p ← if needsGrant port.toNat then pathCmd e v port.toNat fn.toNat p else .ok p
    .ok (pathPut (predNo pq) (0, 1) 1 p)
  | .sstat g _ _ => .ok (pathPut g.toNat ivAll 2 p)
  | .brl _ => .ok { pathPut 63 (ivOne (p.a0 + 48)) 1 p with link := true }
  | .mfsr d _ => .ok (pathPut d.toNat ivAll 2 p)

/-! ## 0x0A: branches (R107–R111, R165) -/

/-- The bundles of a loop: from the branch's target to the branch and its two delay bundles. -/
def loopWords (e : CodeEnv) (p : Path) (target : Nat) : List (BitVec 32) :=
  (((List.range ((p.a0 + 32 - target) / 16 + 1)).map (fun k => bundleAt e (target + 16 * k))).map (fun w =>
    (List.range 4).map (bundleWord w))).flatten

/-- The instructions of a loop. -/
def loopOps (e : CodeEnv) (p : Path) (target : Nat) : List Op := (loopWords e p target).filterMap decodeOp

/-- A backward branch is a counted loop (R165): its guard, not inverted, is written in it by one CMPLTI or CMPLTUI of a register alone, that
register by one ADDI of a positive constant alone, and the register's interval is known. -/
def countedLoop (e : CodeEnv) (p : Path) (target : Nat) (pn : Bool) (pr : BitVec 3) : Bool :=
  let ops := loopOps e p target
  match ops.filterMap loopCompare with
  | l => match l.find? (fun x => x.1 = predNo pr) with
    | none => false
    | some (_, k) => !pn && pr ≠ 0 && k ≠ 0 && decide (pathReg p k ≠ ivAll) &&
        (ops.filter (fun o => (opWrites o).contains (predNo pr))).length = 1 &&
        (ops.filter (fun o => (opWrites o).contains k)).length = 1 && (ops.filterMap loopAdd).contains k

/-- A branch target that R108 allows. -/
def targetOk (t : Nat) : Bool := t % 16 = 0 && decide (t < 0x20000)

/-- Where a taken branch with offset goes: 2^64 for a target outside the address space. -/
def brTo (p : Path) (off : BitVec 21) : Nat := ((p.a0 : Int) + 16 * off.toInt).toNat + (if (p.a0 : Int) + 16 * off.toInt < 0 then 2 ^ 64 else 0)

/-- The targets that the image lists for a BRI. -/
def briTargets (e : CodeEnv) (p : Path) : List Nat :=
  ((e.im.bri.filter (fun l => bit l.mask e.n && l.addr = p.a0)).map (·.targets)).flatten

/-- Where a control instruction that executes leads: nowhere, to END, or to its targets; none where R165 or R108 forbids it. -/
def pathFlow (e : CodeEnv) (p : Path) (pn : Bool) (pr : BitVec 3) : Op → Option (Option (List Nat))
  | .br off | .brl off =>
    let t := brTo p off
    if targetOk t && (decide (p.a0 < t) || countedLoop e p t pn pr) then some (some [t]) else none
  | .bri a =>
    let v := pathG p a
    let all := (List.range ((v.2 - v.1) / 16 + 1)).map (fun k => (v.1 + 15) / 16 * 16 + 16 * k)
    let ts := all.filter (fun t => t ≤ v.2)
    if a.toNat = 63 && p.link && ivSingle v then (if targetOk v.1 then some (some [v.1]) else none)
    else if 0x20000 ≤ v.2 then none
    else if ts.all (fun t => targetOk t && (briTargets e p).contains t) && (!ivSingle v || v.1 % 16 = 0) then some (some ts) else none
  | .end_ => some none
  | _ => some (some [])

/-! ## A bundle, and all paths -/

/-- One slot of the bundle a path is at, and what the path becomes: two paths where the guard is not known. -/
def pathSlot (e : CodeEnv) (k : Nat) (p : Path) : List (Except Fail Path) :=
  match decodeSlot (bundleWord (bundleAt e p.a0) k) with
  | (_, _, none) => [.ok p]
  | (pn, pr, some op) =>
    let take := fun (p : Path) => do
      let p ← match opAccess p op with
        | some (a, n) => pathNeed e 11 p.a0 (scratchOwned e (ownerAt e p.a0) n a) p
        | none => .ok p
      pathOp e p op
    let fix := fun (b : Bool) => { p with regs := mset ivAll (predNo pr) (ivOne (if b then 1 else 0)) p.regs }
    let g := pathReg p (predNo pr)
    if ivSingle g then (if (g.1 = 1) ≠ pn then [take p] else [.ok p])
    else if op = .nop then [.ok p]
    else [take (fix (!pn)), .ok (fix pn)]

/-- The slots from `k` on. -/
def pathSlots (e : CodeEnv) : List Nat → Path → List (Except Fail Path)
  | [], p => [.ok p]
  | k :: ks, p => ((pathSlot e k p).map (fun r => match r with
      | .ok q => pathSlots e ks q
      | .error f => [.error f])).flatten

/-- The control instruction in slot 0, where it executes on a path whose guards are settled. -/
def pathControl (e : CodeEnv) (p : Path) : Option (Option (List Nat)) :=
  match decodeSlot (bundleWord (bundleAt e p.a0) 0) with
  | (pn, pr, some op) => if ((pathReg p (predNo pr)).1 = 1) ≠ pn then pathFlow e p pn pr op else some (some [])
  | _ => some (some [])

/-- The fetch sequence goes on (R107, R109). -/
def pathNext (left : Option Nat) (to_ : Nat) (p : Path) : Path :=
  { p with cyc := p.cyc + 1, a0 := p.a1, a1 := p.a2, a2 := to_, left := left }

/-- The bundles left after END: two from it, then one less. -/
def pathLeft (p : Path) (ends : Bool) : Option Nat :=
  match p.left with
  | some k => some (k - 1)
  | none => if ends then some 2 else none

/-- A bundle issues on a path. -/
def pathBundle (e : CodeEnv) (p : Path) : List (Except Fail Path) :=
  (pathSlots e [0, 1, 2, 3] p).map (fun r => match r with
    | .error f => [.error f]
    | .ok q =>
      match pathControl e { q with link := p.link } with
      | none => [pathNeed e 10 p.a0 false (pathNext (some 0) (p.a2 + 16) q)]
      | some none => [.ok (pathNext (pathLeft p true) (p.a2 + 16) q)]
      | some (some []) => [.ok (pathNext (pathLeft p false) (p.a2 + 16) q)]
      | some (some ts) => ts.map (fun t => .ok (pathNext (pathLeft p false) t q))) |>.flatten

/-- The first cycle after the turn that is followed. -/
def turnStop (e : CodeEnv) : Nat := 8192 * (e.turn + 1)

/-- A path's last bundle has issued: the units owed within this turn are settled. -/
def pathEnd (e : CodeEnv) (p : Path) : Except Fail Path := pathSettle e { p with cyc := max p.cyc (turnStop e) }

/-- Every path from a point of a turn program on. Fuel is the cycles left in the turn, and one. -/
def paths (e : CodeEnv) : Nat → Path → List (Except Fail Path)
  | 0, p => [pathNeed e 10 p.a0 false p]
  | f + 1, p =>
    let p := pathLand p
    if p.left = some 0 then [pathEnd e p]
    else if turnStop e ≤ p.cyc then [pathNeed e 10 p.a0 false p]
    else if 0x20000 ≤ p.a0 then [pathNeed e 10 0x1FFF0 false p]
    else
      match (do let p ← pathSettle e p; pathNeed e 11 p.a0 (confined e p) p) with
      | .error x => [.error x]
      | .ok p => ((pathBundle e p).map (fun r => match r with
          | .error x => [.error x]
          | .ok q => paths e f q)).flatten

/-- The entry point of a spindle in a turn of the period (R191). -/
def entryPoint (d : Deck) (t n : Nat) : Nat := 16 * (mget 0 d.entries (64 * t + n)).toNat

/-- Every path of a spindle's turn program, from what an earlier turn left on its ports: it issues the entry bundle and the two that follow it
(R110). -/
def turnPaths (e : CodeEnv) (p : Path) : List (Except Fail Path) :=
  let a := entryPoint e.deck (e.turn % (64 * periodHanks e.deck.period)) e.n
  paths e 8194 { p with cyc := 8192 * e.turn, a0 := a, a1 := a + 16, a2 := a + 32 }

/-- What a path leaves on its ports for the turns that follow: open descriptors, and units whose slots run on. -/
def pathCarry (e : CodeEnv) (p : Path) : Path :=
  { open_ := p.open_, last := p.last.filter (fun x => x.2.any (fun t => decide (turnStop e ≤ t + 2))), din := p.din,
    cout := p.cout.filter (fun u => decide (turnStop e < u.stop)) }

/-- The first failure of a spindle's turns, each from all that the one before it can leave; fuel is the turns left. -/
def spindleFail (e : CodeEnv) : Nat → List Path → Option Fail
  | 0, _ => none
  | f + 1, l =>
    let rs := (l.map (turnPaths e)).flatten
    match rs.findSome? (fun r => match r with | .error x => some x | .ok _ => none) with
    | some x => some x
    | none => spindleFail { e with turn := e.turn + 1 } f
        ((rs.filterMap (fun r => match r with | .ok p => some (pathCarry e p) | .error _ => none)).eraseDups)

/-- The earlier of two failures, by the cycle of the period. -/
def earlierFail (a b : Option Fail) : Option Fail :=
  match a, b with
  | some x, some y => if y.cycle / 8192 < x.cycle / 8192 then some y else some x
  | some x, none => some x
  | none, y => y

/-- The first failure of a property in a deck's turn programs, by turn and spindle. The period is followed twice, so that slots that run on from its
end to its start are seen whole. The Hold deck, which owns no slot for any class, has no turn program. -/
def codeProp (v : Nat) (s : State) (im : Image) : Option Fail :=
  im.decks.findSome? (fun d =>
    let held := occurrences d
    ((List.range (nSpindles s)).map (fun n =>
      spindleFail { im := im, deck := d, held := held, n := n, turn := 0, prop := v } (128 * periodHanks d.period) [{}])).foldl earlierFail none)

/-! ## 0x0E Throughput (R77, R158, R219, R220) -/

/-- The most bytes a spindle sends on a transmit path in a turn. -/
def spindleTx (im : Image) (d : Deck) (held : List Held) (t n path : Nat) : Nat :=
  (turnPaths { im := im, deck := d, held := held, n := n, turn := t, prop := 0 } {}).foldl (fun m r => match r with
    | .ok p => max m (mget 0 p.tx path)
    | .error _ => m) 0

/-- The bytes a sub-port may carry per turn under its port's configuration (R77, R185, R219): 0 on a disabled port, and on a path that the
configuration does not create. -/
def txLimit (im : Image) (path : Nat) : Nat :=
  let m := (mget 0 im.ports (path / 4)).toNat
  if m = 0 && path % 4 = 0 then 400000 else if m = 1 && path % 4 < 2 then 200000 else if m = 2 then 100000 else 0

/-- The first transmit entry of a path. -/
def transmitEntry (d : Deck) (path : Nat) : Nat :=
  ((d.slots.zipIdx.find? (fun x => x.1.typ = 5 && x.1.kind = 7 && (replicas x.1).any (fun r => slotRes x.1 r.1 r.2 = path))).map (·.2)).getD 0

/-- The transmit frames of every sub-port in every turn (R77). -/
def txFail (s : State) (im : Image) (d : Deck) : Option Fail :=
  let held := occurrences d
  (classUsesAll d).findSome? (fun path => (List.range (64 * periodHanks d.period)).findSome? (fun t =>
    need (decide (((List.range (nSpindles s)).map (fun n => spindleTx im d held t n path)).sum ≤ txLimit im path))
      { slotFail 14 d (transmitEntry d path) (path / 4) with cycle := 8192 * t }))
where
  classUsesAll (d : Deck) : List Nat :=
    natSort (((occurrences d).filter (fun h => h.slot.typ = 5 && h.slot.kind = 7)).map heldRes)

/-- The bytes that arrive at line rate in the longest turn, beyond the capacity the parse slots remove, fit into the buffer of 1 MiB (R77,
R229): 800 Gb/s for 4.021 µs. -/
def rxFits : Bool := decide (402100 ≤ 1048576)

/-- The crossing queue of an occurrence: code of R88 and instance. -/
def heldQueue (h : Held) : Option (Nat × Nat) :=
  let k := h.slot.kind
  let r := heldRes h
  if k = 1 then some (0, r / 16) else if k = 2 then some (0, r) else if k = 7 then some (2, r / 4)
  else if k = 4 then some (3, r / 16) else none

/-- The entries an occurrence pushes within one crossing time of its start: its reads or its operation, or two units a cycle. -/
def heldEntries (h : Held) : Nat :=
  let k := h.slot.kind
  if k = 1 then (if isWindow h.slot then h.slot.cap else 1)
  else 2 * min h.slot.len (if k = 2 then 72 else if k = 7 then 48 else 36)

/-- The planned occupancy of the queue that an occurrence uses, at its start (R158): of every occurrence within one crossing of it. DEDUCED, log entry 146. -/
def occupancy (t : Nat) (l : List Held) (h : Held) : Nat :=
  let lead := if h.slot.kind = 7 then 48 else if h.slot.kind = 4 then 36 else 72
  ((l.filter (fun x => heldQueue x = heldQueue h && (decide ((x.at_ + t - h.at_) % t < lead) ||
    (decide (x.slot.kind ≠ 1) && shareCycle t x h)))).map heldEntries).sum

/-- No crossing queue's planned occupancy exceeds its depth (R158). -/
def queueFail (d : Deck) : Option Fail :=
  let o := occurrences d
  o.findSome? (fun h => match heldQueue h with
    | none => none
    | some q => need (decide (occupancy (periodCycles d) o h ≤ crossingDepth q.1)) (heldFail 14 d h))

/-- The cycle by which a window's place is decoded at the latest (R55, R155), when the last unit of its item is pushed, and how many there are. -/
def decodedAt (d : Deck) (h : Held) (p : PlaceRec) : Option (Nat × Nat) :=
  match chainOffset d h p.transfer, d.slots[p.transfer]? with
  | some t, some e => some ((h.at_ + t + (p.firstUnit + placeUnits p) * transferUnit e + 3072) % periodCycles d, 130 * min 4 (placeUnits p) + 2)
  | _, _ => none

/-- The items of a channel's places: when each is pushed whole at the latest, its length, and its window. -/
def channelItems (d : Deck) (c : Nat) : List (Nat × Nat × Held) :=
  (((occurrences d).filter (fun h => isWindow h.slot && heldRes h / 16 = c)).map (fun h =>
    (windowRecs d h.slot).filterMap (fun p => (decodedAt d h p).map (fun x => (x.1, x.2, h))))).flatten

/-- The queues into CORE (R158): a pier presents a unit a cycle of each item, which ends as its place is decoded and is drained 88 cycles on. The DRAM
ports, nine of one unit a cycle, cannot fill theirs within 36 cycles. DEDUCED, log entry 146. -/
def intoCoreFail (d : Deck) : Option Fail :=
  let t := periodCycles d
  (natSort ((occurrences d).filterMap (fun h => if isWindow h.slot then some (heldRes h / 16) else none))).findSome? (fun c =>
    let l := channelItems d c
    l.findSome? (fun x =>
      let busy := l.filter (fun y => decide (cyclesTo t x.1 y.1 < y.2.1) || decide (cyclesTo t y.1 x.1 < 88))
      need (decide ((busy.map (fun y => min 88 y.2.1)).sum ≤ crossingDepth 1)) { heldFail 14 d x.2.2 with cycle := x.1 }))

/-- Property 0x0E. -/
def throughputFail (s : State) (im : Image) : Option Fail :=
  im.decks.findSome? (fun d => ((txFail s im d).or (need rxFits (deckFail 14 im d 0 0xFFFF 0))).or ((queueFail d).or (intoCoreFail d)))

end Sys2Proof.Machine
end

