-- ==== Sys2Proof/Machine/Checker.lean ====
section
/-! DEFINITION. The image checker: its properties in the order of their codes, the words it reports, and its verdict on a load, an
activation or the boot (R162–R170, R196–R198). -/

namespace Sys2Proof.Machine

/-- The first property that fails, in the order of the verdict codes, with where it fails; none for a pass (R164). -/
def checkVerdict (s : State) (im : Image) : Option Fail :=
  firstFail [im.form, fittedFail s im, encodingFail im, slotFormFail s im, exclusiveFail s im, reservedFail s im, slicingFail s im,
    chainFail s im, partsFail im, codeProp 10 s im, codeProp 11 s im, codeProp 12 s im, gapsFail s im, throughputFail s im,
    seamsFail s im, placementFail s im]

/-- The verdict's code. -/
def verdictCode (f : Option Fail) : Nat := (f.map (·.verdict)).getD 0

/-- The words of event 0x0605 (R169). -/
def verdictWords (im : Image) (f : Option Fail) : List (BitVec 32) :=
  match f with
  | none => [0x3F00, 0, 0xFFFFFFFF, 0, lo32 im.digest]
  | some f =>
    [w32 (f.what * 4096 + f.deck * 256 + f.verdict), w32 f.at_, w32 (f.res * 65536 + f.second),
     w32 (f.cycle / 8192 % 64 * 65536 + f.cycle / hankCycles * 8192 + f.cycle % 8192), lo32 im.digest]

/-- CHECKER_VERDICT (R162–R170, R196 step 3): the checker judges the image under check, records event 0x0605, and the
load, the activation or the boot goes on or ends. `stored` says whether the bank's erase, programs and seal succeeded. DEDUCED, log entry 59. -/
def execCheckerVerdict (stored : Bool) (s : State) : Out :=
  match s.store.loading with
  | none => .next s
  | some im =>
    let f := checkVerdict s im
    let v := verdictCode f
    let ws := verdictWords im f
    let s := event 0x0605 ws (modStore (fun u => { u with loading := none, vwords := ws }) s)
    if s.store.purpose = 0 then
      if v = 0 then .next (finishLoad im stored s)
      else .next (loadAnswer 0x0012 5 (imageRefuse 5 im.digest (modMgmt (fun u => { u with load := none }) s)))
    else if s.store.purpose = 1 then
      let s := modStore (fun u => { u with verdict := some (w32 v, u.inv) }) s
      let r := activateBar s
      if r ≠ 0 then .next (loadAnswer 0x0013 r (imageRefuse r im.digest s))
      else if v = 0 then .next (acceptActivation s.store.loadBank (loadAnswer 0x0013 0 s))
      else .next (loadAnswer 0x0013 5 (imageRefuse 5 im.digest s))
    else if v = 0 then .next (acceptBoot s.store.loadBank s)
    else .next (bootToHold (imageRefuse 5 im.digest s))

end Sys2Proof.Machine
end

