-- ==== Sys2Proof/Machine/Commit.lean ====
section
/-! DEFINITION. The hank commit (R72): the deck that becomes active and what it divides, the fields that take their written values,
the bindings, the buckets, deferral, and the hank count; the unsafe staged-write limit (R629–R631). -/

namespace Sys2Proof.Machine

/-! ## What a deck gives its classes (R92, R229, R289, R304) -/

/-- The phases of a deck's period in which an entry applies. -/
def phasesIn (dk : Deck) (e : SlotEntry) : Nat := ((List.range (periodHanks dk.period)).filter (fun p => bit e.phases p)).length

/-- The issue slots of a class over one period of a deck. -/
def issueSlots (dk : Deck) (c : Nat) : Nat :=
  dk.slots.foldl (fun n e => if e.typ = 8 && e.owner = c then n + e.icount * e.ocount * phasesIn dk e else n) 0

/-- A class sends on port p: it owns a transmit slot of one of the port's sub-ports. -/
def sendsOn (dk : Deck) (p c : Nat) : Bool :=
  dk.slots.any (fun e => e.typ = 5 && e.kind = 7 && e.owner = c && (replicas e).any (fun r => slotRes e r.1 r.2 / 4 = p))

/-- The classes with issue slots in a deck, with their number. DEDUCED, log entry 45. -/
def issueWeights (dk : Deck) : List (Nat × Nat) :=
  (List.range 256).filterMap (fun c => if issueSlots dk c = 0 then none else some (c, issueSlots dk c))

/-- A total divided in proportion to weights. -/
def divide (total : Nat) (w : List (Nat × Nat)) : List (Nat × Nat) :=
  let sum := (w.map (·.2)).sum
  w.map (fun e => (e.1, total * e.2 / sum))

/-- A list of shares as a map. -/
def shareMap (l : List (Nat × Nat)) : SMap Nat := l.foldl (fun m e => mset 0 e.1 e.2 m) []

/-- The shares of a port's receive buffer of 1 MiB (R229): class 0 never less than 64 KiB, the others in proportion. DEDUCED, log entry 45. -/
def portShares (dk : Deck) (p : Nat) : SMap Nat :=
  let w := (issueWeights dk).filter (fun e => sendsOn dk p e.1)
  let all := divide 1048576 w
  let own := ((all.find? (fun e => e.1 = 0)).map (·.2)).getD 0
  if 65536 ≤ own then shareMap all
  else shareMap ((0, 65536) :: divide (1048576 - 65536) (w.filter (fun e => e.1 ≠ 0)))

/-- The shares of the range-lock table (R304). DEDUCED, log entry 46. -/
def lockShares (dk : Deck) (n : Nat) : SMap Nat := shareMap ((divide n (issueWeights dk)).map (fun e => (e.1, max 8 e.2)))

/-- The shares of the unsafe staged-write limit, by program-slice time (R289). -/
def stageShares (dk : Deck) (limit : Nat) : SMap Nat :=
  shareMap (divide limit ((List.range 256).filterMap (fun c =>
    if classSlotTime dk c 3 = 0 then none else some (c, classSlotTime dk c 3))))

/-- CLS_PLACES of a class (R92). -/
def placesOf (dk : Deck) (c : Nat) : Nat :=
  (dk.slots.foldl (fun n e =>
    if isWindow e then
      n + ((windowPlaces e).filter (fun k => (dk.places[k]?.map (·.owner)) = some c)).length * e.icount * e.ocount * phasesIn dk e
    else n) 0) / periodHanks dk.period

/-- A class's registers under a deck (R89, R92, R207): a pending limit is discarded. DEDUCED, log entry 50. -/
def classWords (dk : Deck) (c : Nat) (x : Cls) : Cls :=
  let w := mget 0 dk.cls c
  { x with bounded := bit w 31, lim := w.setWidth 8, limPend := none, places := BitVec.ofNat 20 (placesOf dk c) }

/-! ## The deck that becomes active (R73–R75, R202, R207, R212) -/

/-- A port's share map in a state. -/
def dividePorts (dk : Deck) (s : State) : State :=
  (List.range (nPorts s)).foldl (fun s p => modPort p (fun x => { x with share := portShares dk p }) s) s

/-- Entering Hold puts every link down and ends every bring-up (R202, R223). DEDUCED, log entry 43. -/
def linksDown (s : State) : State :=
  { s with ports := mmapv {} (fun (x : Port) => { x with chg := x.chg ||| x.up, up := 0, step := [] }) s.ports }

/-- A spindle while a built-in deck runs: it issues nothing; a fault stays (R203, R627). DEDUCED, log entry 48. -/
def idleSpindle (x : Spindle) : Spindle :=
  let st : BitVec 2 := if x.state = 3 then 3 else 0
  { x with state := st, endLeft := none }

/-- A descriptor that waits for a slot of the deck before: any later slice of its owner serves it. DEDUCED, log entry 49. -/
def unnamed (d : DieDesc) : DieDesc := { d with entry := 0xFFFF, inner := 0, outer := 0, phase := 0 }

/-- The deck becomes active at its phase 0, with its class words and what it divides. DEDUCED, log entry 48. -/
def putDeck (m : BitVec 4) (dk : Deck) (s : State) : State :=
  let s := modReel (fun u => { u with deck := m, tt := dk, phase := 0, period := dk.period, early := [] }) s
  let s := (List.range 256).foldl (fun s c => modCls c (classWords dk c) s) s
  let s := dividePorts dk s
  let s := modTables (fun u => { u with shares := lockShares dk (nLocks s) })
      (modMedia (fun u => { u with share := stageShares dk u.limit })
      (modPiers (fun u => { u with ops := u.ops.map unnamed }) s))
  if m = 0 || m = 0xE then { s with spindles := mmapv {} idleSpindle s.spindles } else s

/-- Reads posted to places of the new hank, in posting order (R74). -/
def aheadReads (s : State) : List Booking := s.piers.booked.filter (fun b => !b.issued && decide (s.reel.core ≤ b.at_))

/-- A read returns to its class queue, without its tier bound (R74, R91). -/
def backToQueue (s : State) (b : Booking) : State :=
  let s := unbook b (if b.unbound then s else countUnbound b.desc s)
  modPiers (fun u => { u with ops := u.ops ++ [if b.recovery then { b.desc with recov := true } else b.desc] }) s

/-- A switch of decks at a hank boundary (R72 step 1, R73, R74). DEDUCED, log entry 49. -/
def enterDeck (m : BitVec 4) (dk : Deck) (s : State) : State :=
  let s := putDeck m dk ((aheadReads s).foldl backToQueue s)
  if m = 0 then linksDown s else s

/-- The deck a mode runs under. -/
def modeDeck (s : State) (m : BitVec 4) : Option Deck :=
  if m = 0 then some (holdDeck s) else if m = 0xE then some (recoveryDeck s) else s.store.running.bind (deckOf · m)

/-- A request that a switch has carried out (R214, R215, R552). Mode 11, which ends with its sweep (R216), becomes no return mode, and entered by
management request it begins one. DESIGN CHOICE, log entry 166. -/
def switchDone (q : ModeReq) (s : State) : State :=
  let s := modReel (fun u => { u with req := none, pend := 0xF, byMgmt := !q.device }) s
  if q.device then s
  else
    let keep := q.mode = 0 || q.mode = 11
    let s := if q.mode = 11 then modMedia (fun u => { u with sanitize := true, sanLog := 2 }) s else s
    answerMode q 0 2 (modReel (fun u => { u with result := if q.latest then 2 else u.result, ret := if keep then u.ret else some q.mode }) s)

/-- A device request for Hold with staged data starts the flush of R204 instead of a switch. DEDUCED, log entry 44. -/
def holdNeedsFlush (s : State) (q : ModeReq) : Bool := q.mode = 0 && decide (stagedBytes s ≠ 0) && s.pwr.imageRan && s.pwr.flush ≠ 1

/-- A pending request at a commit (R211, R212): due at the very next commit, or at the first at least one hank after its
acceptance at which the phase returns to 0. Answers whether a deck became active. DEDUCED, log entry 44. DEDUCED, log entry 51. -/
def requestCommit (back : Bool) (q : ModeReq) (s : State) : Bool × State :=
  if holdNeedsFlush s q then (false, startFlush 6 (dropRequest true s))
  else if q.soon || (back && decide (1 ≤ q.commits)) then
    match modeDeck s q.mode with
    | none => (false, s)
    | some dk => (true, switchDone q (enterDeck q.mode dk s))
  else (false, (modReel (fun u => { u with req := some { q with commits := q.commits + 1 } }) s))

/-- The phase of the active deck moves on. -/
def nextPhase (r : Reel) : BitVec 3 := BitVec.ofNat 3 ((r.phase.toNat + 1) % periodHanks r.period)

/-- Step 1 of R72: the phase moves on and a pending deck becomes active; the recovery deck of a flush goes first (R626). Answers
whether a deck became active. -/
def deckCommit (s : State) : Bool × State :=
  let ph := nextPhase s.reel
  let s := modReel (fun u => { u with phase := ph }) s
  if s.pwr.waitCommit then
    let s := dropRequest true s
    (true, enterDeck 0xE (recoveryDeck s) (modPwr (fun u => { u with waitCommit := false }) s))
  else match s.reel.req with
    | none => (false, s)
    | some q => requestCommit (ph = 0) q s

/-! ## The unsafe staged-write limit (R329, R375, R629–R631) -/

/-- Units per hank at a rate code (R375). -/
def rateUnits (r : BitVec 4) : Nat := [0, 44, 87, 130, 170, 195, 256, 341, 409].getD r.toNat 0

/-- One channel's part of the flush rate of R630, in bytes a nanosecond times 257,282 times 180,000. DEDUCED, log entry 54. -/
def chanRate (s : State) (c : Nat) : Nat :=
  let n := ((diesInGroups s).filter (fun d => d / 16 = c && !isLost s d)).length
  if (chan s c).state = 2 then min (rateUnits (chan s c).rate * 4096 * 180000) (n * 98304 * 257282) else 0

/-- The flush rate G of R630, scaled as `chanRate`. DEDUCED, log entry 54. -/
def flushRate (s : State) : Nat := ((List.range (nChannels s)).map (chanRate s)).sum

/-- Emergency block units whose pages the flush units in the region have touched, rotating across the dies (R628). DEDUCED, log entry 53. -/
def emergencyTouched (s : State) : Nat :=
  let d := (diesInGroups s).length
  let pages := (s.pwr.emergency + 3) / 4
  if d = 0 then 0 else pages / (d * 2048) * d + min d (pages % (d * 2048))

/-- Erased block units of the emergency region (R329, R631). -/
def emergencyErased (s : State) : Nat :=
  ((diesInGroups s).map (fun d =>
    ((List.range 64).filter (fun b => blockState s d (1984 + b) = 8 && !isLost s d)).length)).sum - emergencyTouched s

/-- A limit of g GiB meets R631. -/
def limitFits (s : State) (g : Nat) : Bool :=
  let bytes := g * 2 ^ 30 + 512 * 2 ^ 20
  let im := s.store.running.map (·.limitGiB)
  decide (g ≤ im.getD 0) && decide (g + 1 ≤ (diesInGroups s).length) &&
    decide (bytes * (257282 * 180000) ≤ 36300000 * flushRate s) && decide (bytes ≤ emergencyErased s * 2 ^ 25)

/-- The limit in use, in GiB: the largest that fits, or 0. -/
def limitInUse (s : State) : Nat := (((List.range 16).map (16 - ·)).find? (limitFits s)).getD 0

/-- The limit is computed anew after a change (R631, R641, R643). DEDUCED, log entry 47. -/
def limitCommit (s : State) : State :=
  if !s.pwr.recompute then s
  else
    let g := limitInUse s
    let old := s.pwr.gib
    let s := modPwr (fun u => { u with recompute := false, gib := BitVec.ofNat 5 g })
        (modMedia (fun u => { u with limit := g * 2 ^ 30 }) s)
    if old.toNat = g then s
    else event 0x0206 [old.setWidth 32, w32 g] (modPwr (fun u => { u with irq := setBit u.irq 3 }) s)

/-! ## Steps 2 to 6 (R62, R64, R72, R78, R89–R93) -/

/-- Fields of type RWS take their written values (R206): DEFER_LIM and the key operations. -/
def rwsCommit (s : State) : State :=
  keyCommit (modReel (fun u => { u with cls := mmapv {} (fun (c : Cls) =>
    { c with lim := c.limPend.getD c.lim, limPend := none }) u.cls }) s)

/-- A command is past its class's deferral limit (R64). DEDUCED, log entry 42. -/
def pastLimit (s : State) (c : Cmd) : Bool :=
  isDeferred c && decide ((clsOf s c.cls.toNat).lim ≠ 0) && decide ((clsOf s c.cls.toNat).lim.toNat < c.waited)

/-- A class's commands past their limit fail with 81h (R64, R91, R93). -/
def failDeferred (n : Nat) (s : State) : State :=
  let l := s.tables.cmds.filter (fun c => c.cls.toNat = n && pastLimit s c)
  if l = [] then s
  else
    let s := l.foldl (fun s c => failCmd c (status 7 0x81) (freeLocks (locksOf s c.conn c.cid c.internal) s)) s
    event 0x0603 [w32 n, w32 l.length] (modCls n (fun x => { x with failed := satAdd x.failed l.length }) s)

/-- Step 5 of R72, and the wait of every other deferred command. DEDUCED, log entry 42. -/
def deferralCommit (s : State) : State :=
  let s := (List.range 256).foldl (fun s n => failDeferred n s) s
  putCmds (s.tables.cmds.map (fun c => if isDeferred c then { c with waited := c.waited + 1 } else c)) s

/-- Event 0x0604 of a class, once a hank (R93). -/
def unboundEvent (s : State) (n : Nat) : State :=
  let k := (clsOf s n).hankUnbound
  if k = 0 then s else event 0x0604 [w32 n, w32 k] (modCls n (fun x => { x with hankUnbound := 0 }) s)

/-- Step 6 of R72: the hank count and the hank timestamp. -/
def countHank (s : State) : State :=
  let s := passTime s
  (modReel (fun u => { u with hanks := u.hanks + 1, hts := eventTime s }) s)

/-- The hank that ends counts in the times of the health log (R372, R590). -/
def countTimes (s : State) : State :=
  let comp := (composite s).map (fun e => degC e.2)
  let busy := fun (v : Nat) => s.tables.cmds.any (fun c => !c.internal && !c.closed && c.vc.map (·.toNat) = some v)
  let s := modMedia (fun u => { u with
      onHanks := u.onHanks + 1
      warmHanks := if comp.any (fun t => decide (degC s.thm.cfgThrot ≤ t)) then u.warmHanks + 1 else u.warmHanks
      hotHanks := if comp.any (fun t => decide (105 ≤ t)) then u.hotHanks + 1 else u.hotHanks }) s
  { s with ctrls := s.ctrls.map (fun e => if busy e.1 then (e.1, { e.2 with busyHanks := e.2.busyHanks + 1 }) else e) }

/-- The tables are checkpointed at least every 65,536 hanks (R371). -/
def checkpointDue (s : State) : State :=
  if s.store.running.isSome && s.reel.deck ≠ 0 && 65536 ≤ s.reel.hanks.toNat - s.media.ckptHank.toNat then tableCheckpoint (saveMaps s) else s

/-- The age of each fitted target's reading grows by a hank, that of a target never read too (R415, R584). -/
def olderTemps (x : Chan) : SMap PTemp :=
  (x.dies.filter (fun e => e.2.fitted)).foldl (fun m e =>
    let t := mget {} x.temps e.1
    mset {} e.1 { t with age := satInc t.age } m) x.temps

/-- What starts anew with each hank: the once-a-hank marks, the codeword counts, the ages of the dies' readings and the hanks of
throttling (R226, R416, R461, R583, R415). -/
def newHank (s : State) : State :=
  let age := fun (x : Chan) => { x with told := 0, temps := olderTemps x }
  let s := modPiers (fun u => { u with chans := mmapv {} age u.chans })
      (modCiph (fun u => { u with slots := mmapv {} (fun (k : KeySlot) => { k with told := false }) u.slots })
      (modPins (fun u => { u with ppsTold := false })
      { s with ports := mmapv {} (fun (p : Port) => { p with uncHank := [] }) s.ports }))
  if s.thm.throt then
    modThm (fun u => { u with hanks := u.hanks + 1, cool := if coolNow s then u.cool + 1 else 0 }) s
  else s

/-- The reads of an owner that wait in its queue are posted again, in order (R74). DEDUCED, log entry 50. -/
def postQueue (owner : Nat) (s : State) : State :=
  let mine := fun (d : DieDesc) => d.fn = 0 && d.owner = owner
  let l := s.piers.ops.filter mine
  l.foldl (fun s d => if d.recov then postRecovery true d s else postSplit true 4 d s)
    (modPiers (fun u => { u with ops := u.ops.filter (fun d => !mine d) }) s)

/-- Notices that wait for an Asynchronous Event Request are delivered where one is outstanding. -/
def noticeCommit (s : State) : State := (s.ctrls.map (·.1)).foldl (fun s v => deliverNotice v s) s

/-- Steps 2 to 6 of R72 and what follows them; deck `old` was active before, and `switched` says that one became active. -/
def commitRest (old : BitVec 4) (switched : Bool) (s : State) : State :=
  let s := rwsCommit s
  let s := bindCommit s
  let s := refillCommit (recordsCommit (warnedCommit s))
  let s := deferralCommit s
  let s := countHank s
  let s := if switched then
      event 0x0601 [old.setWidth 32, s.reel.deck.setWidth 32, lo32 s.reel.hanks, hi32 s.reel.hanks] s
    else s
  let s := (List.range 256).foldl unboundEvent s
  noticeCommit (postQueue 0x100 (checkpointDue (countTimes (newHank (spanCommit s)))))

/-- The hank commit (R72), after which the pins of the connection table follow the classes (R233) and a recorded condition of a device-entered mode is acted on (R218). -/
def hankCommit (s : State) : State :=
  let s := limitCommit (modReel (fun u => { u with commitDue := false }) s)
  let r := deckCommit s
  meetConditions (repin (commitRest s.reel.deck r.1 r.2))

end Sys2Proof.Machine
end

