-- ==== Sys2Proof/Machine/Issue.lean ====
section
/-! DEFINITION. How an engine issues a bundle: the guards, the order of the slots, the one cause that is reported, the fetch
sequence, END and WAIT, a spindle's fault, and a distaff core's trap (R97–R102, R107–R111, R129–R131, R144–R148). -/

namespace Sys2Proof.Machine

/-! ## A bundle (R97, R98, R102) -/

/-- A slot of a bundle: its guard and its instruction. -/
structure SlotIns where
  pn  : Bool := false
  pr  : BitVec 3 := 0
  act : Act

/-- The slot word of all zeros. -/
def nopSlot : SlotIns := { act := actNop }

/-- Slot k of a bundle word. An opcode that R105 does not list is illegal in every slot. -/
def slotIns (w : BitVec 128) (k : Nat) : SlotIns :=
  let d := decodeSlot ((w >>> (32 * k)).setWidth 32)
  { pn := d.1, pr := d.2.1, act := (d.2.2.map opAct).getD actIllegal }

/-- The four slots of a bundle word. -/
def bundleSlots (w : BitVec 128) : List SlotIns := (List.range 4).map (slotIns w)

/-- A bundle that holds one instruction, with NOP in its other slots. DEDUCED, log entry 16. -/
def oneSlot (x : Iss) (a : Act) : List SlotIns :=
  (List.range 4).map (fun k => if k = x.slot.toNat then { pn := x.pn, pr := x.pr, act := a } else nopSlot)

/-- A slot executes: p[PR] XOR PN is 1 (R102). -/
def executes (pre : State) (e : Engine) (x : SlotIns) : Bool := xor (regP pre e x.pr) x.pn

/-- What an instruction stops with: illegal in a slot that does not allow it, before any other cause (R98, R129). -/
def slotCause (c : Ctx) (a : Act) (s : State) : Option Cause := if a.slots.contains c.slot then a.check c s else some illegal

/-- The executing slots of a bundle in order, from slot k on: the effects of all, or the first cause. Of two stream operations on one port in
slots 1 and 3 slot 1's is done first (DESIGN CHOICE, log entry 132); memory accesses go in slot order (DEDUCED, log entry 17). -/
def runSlots (pre : State) (e : Engine) (mem : Ecc) : Nat → List SlotIns → State → Except (Nat × Cause) State
  | _, [], s => .ok s
  | k, x :: xs, s =>
    if executes pre e x then
      let c : Ctx := { pre := pre, eng := e, slot := k, mem := mem }
      match slotCause c x.act s with
      | some w => .error (k, w)
      | none => runSlots pre e mem (k + 1) xs (x.act.run c s)
    else runSlots pre e mem (k + 1) xs s

/-- What the bundle does to the fetch sequence: only slot 0 holds control instructions. -/
def bundleFlow (pre : State) (e : Engine) (mem : Ecc) : List SlotIns → Flow
  | [] => .seq
  | x :: _ => if executes pre e x then x.act.flow { pre := pre, eng := e, slot := 0, mem := mem } else .seq

/-- The target of a taken branch, else the address that follows (R107). -/
def nextFetch (f : Flow) (after : Nat) : Nat :=
  match f with
  | .branch t => t.toNat
  | _ => after

/-- Bundles that END leaves to issue: two after it, one less after each (R109). -/
def nextLeft (f : Flow) (left : Option Nat) : Option Nat :=
  match left with
  | some k => some (k - 1)
  | none => match f with
    | .stop => some 2
    | _ => none

/-! ## A spindle (R99–R101, R107–R111, R129–R131) -/

/-- A spindle's fault (R130, R131, R134–R137): STATE 3, LAST_END with the faulting bundle's cycle, SPN_FPC, SPN_FINFO and SPN_FADDR, event 0x0701, a Severe fault. -/
def spnFault (n : Nat) (pc slot : Nat) (c : Cause) (s : State) : State :=
  let s := modSpn n (fun x => { x with
      state := 3, fpc := BitVec.ofNat 17 pc, fcause := c.code.setWidth 4, fslot := BitVec.ofNat 2 slot, fturn := s.reel.turn
      fcycle := s.reel.cycle, lastIssue := s.reel.cycle, fcore := s.reel.core, faddr := c.val.setWidth 18, endLeft := none, issuedAt := some s.reel.core }) s
  let x := spn s n
  raiseFault 9 3 (eventC 0x0701 3 [w32 n, x.fpc.setWidth 32, spnFinfo x, x.faddr.setWidth 32] s)

/-- The fetch sequence after a bundle, and the end of the turn program. -/
def spnNext (f : Flow) (r : Reel) (x : Spindle) : Spindle :=
  let left := nextLeft f x.endLeft
  let st : BitVec 2 := if left = some 0 then 2 else x.state
  { x with a0 := x.a1, a1 := x.a2, a2 := nextFetch f (x.a2 + 16), lastIssue := r.cycle, issuedAt := some r.core, endLeft := left, state := st }

/-- What bars a bundle before its slots: the fetch past program memory, and an uncorrectable bundle (R108, R116, R129). -/
def fetchFault (x : Spindle) (prog : Ecc) : Option (Nat × Cause) :=
  if 0x20000 ≤ x.a0 then some (0x1FFF0, { code := 4, val := 0x20000 })
  else if prog = Ecc.uncorrectable || mget false x.pmBad (x.a0 / 16) then some (x.a0, { code := 6 })
  else none

/-- What ECC found in the bundle's word (R116, R138, R482, R506). -/
def noteProg (n : Nat) (prog : Ecc) (s : State) : State :=
  match prog with
  | .ok => s
  | .corrected =>
    modSpn n (fun x => { x with corr := satInc x.corr }) (sramCorrected (0x200 + n) s)
  | .uncorrectable =>
    if mget false (spn s n).pmBad ((spn s n).a0 / 16) then s
    else arrayUncorrectable (0x200 + n) (modSpn n (fun x => { x with pmBad := mset false (x.a0 / 16) true x.pmBad }) s)

/-- A spindle issues a bundle. -/
def issueSpn (n : BitVec 6) (l : List SlotIns) (prog mem : Ecc) (s : State) : State :=
  let s := noteProg n.toNat prog s
  match fetchFault (spn s n.toNat) prog with
  | some (pc, c) => spnFault n.toNat pc 0 c s
  | none =>
    match runSlots s (.spindle n) mem 0 l s with
    | .error (k, c) => spnFault n.toNat (spn s n.toNat).a0 k c (noteCause (.spindle n) c.note s)
    | .ok t => modSpn n.toNat (spnNext (bundleFlow s (.spindle n) mem l) s.reel) t

/-- A spindle issues in this cycle: STATE 1 under a running sequencer. -/
def spnIssues (s : State) (n : Nat) : Bool := s.reel.run && (spn s n).state = 1

/-- The bundle of a spindle's own program. -/
def fetchSpn (s : State) (n : Nat) : BitVec 128 := mget 0 (spn s n).pm ((spn s n).a0 / 16)

/-- A spindle that has not issued in this core cycle issues the bundle its fetch sequence names. -/
def runSpn (s : State) (n : Nat) : State :=
  if spnIssues s n && decide ((spn s n).issuedAt ≠ some s.reel.core) then
    issueSpn (BitVec.ofNat 6 n) (bundleSlots (fetchSpn s n)) .ok .ok s
  else s

/-- A result's place in the order in which results land (R101): by due cycle, then issue, then slot. -/
def flyBefore (a b : Inflight) : Bool :=
  decide (a.due < b.due) || a.due = b.due && (decide (a.at_ < b.at_) || a.at_ = b.at_ && decide (a.slot ≤ b.slot))

/-- Put a result into its place of a list in order. -/
def flyInsert (f : Inflight) : List Inflight → List Inflight
  | [] => [f]
  | x :: xs => if flyBefore f x then f :: x :: xs else x :: flyInsert f xs

/-- The results of a list in the order they land. -/
def flySort (l : List Inflight) : List Inflight := l.foldr flyInsert []

/-- The results due by a core cycle land, the later over the earlier (R100, R101). -/
def landDue (core : Nat) (x : Spindle) : Spindle :=
  let l := flySort (x.fly.filter (fun f => decide (f.due ≤ core)))
  l.foldl (fun x f => landSpn f.reg f.val x) { x with fly := x.fly.filter (fun f => decide (core < f.due)) }

/-- Lock results whose 64 cycles have passed are ready on LOCK, as far as its result side has room (R119). -/
def dueResults (core : Nat) : List (BitVec 256) → List Nat → Nat → Nat
  | _ :: us, d :: ds, room + 1 => if d ≤ core then dueResults core us ds room + 1 else 0
  | _, _, _ => 0

/-- The engines behind POST and LOCK take one descriptor each, and lock results become ready (R119). DEDUCED, log entry 39. DEDUCED, log
entry 40. -/
def drainPorts (core : Nat) (x : Spindle) : Spindle :=
  let k := dueResults core x.lockOut x.lockDue (16 - x.lockRes.length)
  { x with post := x.post - 1, lockReq := x.lockReq - 1, lockRes := x.lockRes ++ x.lockOut.take k, lockOut := x.lockOut.drop k
           lockDue := x.lockDue.drop k }

/-! ## A core (R107, R144–R148) -/

/-- Trap entry (R144). DEDUCED, log entry 21. -/
def trapEnter (n : Nat) (cause val : BitVec 64) (s : State) : State :=
  modCore n (fun x => { x with
    tpc0 := x.a0, tpc1 := x.a1, tpc2 := x.a2, tcause := cause, tval := val, ppriv := x.priv, pie := x.ie, priv := true, ie := false
    intrap := true, resv := none, waits := [], a0 := x.tvec, a1 := x.tvec + 16, a2 := x.tvec + 32 }) s

/-- A synchronous trap within a handler stops the core (R146, R512, R513). -/
def doubleTrap (n : Nat) (s : State) : State :=
  let s := modCore n (fun x => { x with running := false, dtrap := true }) s
  let x := coreOf s n
  raiseFault 5 3 (eventC 0x0140 3 [w32 n, 2, x.tpc0.setWidth 32, x.tcause.setWidth 32] s)

/-- A synchronous trap: taken unless INTRAP is 1. -/
def syncTrap (n : BitVec 4) (c : Cause) (s : State) : State :=
  let s := noteCause (.core n) c.note s
  if (coreOf s n.toNat).intrap then doubleTrap n.toNat s else trapEnter n.toNat (c.code.setWidth 64) c.val s

/-- The bundles left before each WAIT of a core sleeps: two after it, one less after each (R147). -/
def nextWaits (f : Flow) (l : List Nat) : List Nat := l.map (· - 1) ++ (if f = .stop then [2] else [])

/-- The fetch sequence after a bundle of a core, and the sleep that WAIT asked for. DESIGN CHOICE, log entry 18. -/
def coreNext (f : Flow) (x : CoreSt) : CoreSt :=
  let left := nextWaits f x.waits
  let after : BitVec 64 := match f with
    | .branch t => t
    | _ => x.a2 + 16
  match f with
  | .ret p q r => { x with a0 := p, a1 := q, a2 := r, waits := [] }
  | _ => { x with a0 := x.a1, a1 := x.a2, a2 := after, waits := left.filter (· ≠ 0), sleeping := x.sleeping || left.contains 0 }

/-- A bundle, or a trap at its fetch, takes a DST cycle, and as many more as its operands and memory make it wait: how many is free (R140,
R141). DESIGN CHOICE, log entry 18. -/
def coreCycles (n : Nat) (s : State) : State :=
  let (v, s) := drawBits s
  modCore n (fun x => { x with cycles := x.cycles + 1 + (v.setWidth 16).setWidth 64 }) s

/-- A core has slept for a free number of DST cycles, or entered an interrupt's handler (R140, R147). DESIGN CHOICE, log entry 18. -/
def sleepCycles (n : Nat) (s : State) : State :=
  let (v, s) := drawBits s
  modCore n (fun x => { x with cycles := x.cycles + 1 + (v.setWidth 48).setWidth 64 }) s

/-- What ECC found in a bundle's word that could be corrected. -/
def noteFetch (a : BitVec 64) (mem : Ecc) (s : State) : State :=
  if mem = Ecc.corrected then
    match placeOf s a.toNat with
    | .boot _ => modBac (fun u => { u with corr := satInc u.corr }) s
    | _ => eccRead a.toNat mem 0x10 s
  else s

/-- The registers that a bundle reads: its guards, and what its executing instructions read. g0 and p0 hold constants. -/
def bundleReads (pre : State) (e : Engine) (l : List SlotIns) : List Nat :=
  ((l.map (fun x => .p x.pr :: (if executes pre e x then x.act.reads else []))).flatten.map regNumber).filter (fun r => r ≠ 0 && r ≠ 128)

/-- The interlock of a core (R141): a bundle waits until every register it reads holds the result of every earlier bundle, so that what it writes
lands after those. -/
def coreWait (n : Nat) (regs : List Nat) (s : State) : State :=
  modCore n (fun x =>
    let t := regs.foldl (fun m r => max m (mget 0 x.due r)) 0
    { x with cycles := x.cycles + BitVec.ofNat 64 (min (t - x.cycles.toNat) (2 ^ 32)) }) s

/-- The slots of a core's bundle, once the registers it reads are there, and the bundle that follows. -/
def coreBundle (n : BitVec 4) (l : List SlotIns) (mem : Ecc) (s : State) : State :=
  let s := coreWait n.toNat (bundleReads s (.core n) l) s
  match runSlots s (.core n) mem 0 l s with
  | .error (_, c) => syncTrap n c s
  | .ok t => modCore n.toNat (coreNext (bundleFlow s (.core n) mem l)) t

/-- A core issues a bundle. -/
def issueCore (n : BitVec 4) (l : List SlotIns) (prog mem : Ecc) (s : State) : State :=
  let a := (coreOf s n.toNat).a0
  let s := coreCycles n.toNat s
  match fetchBar s n a prog with
  | some c => syncTrap n c s
  | none => coreBundle n l mem (noteFetch a prog s)

/-- A core issues: running and awake. -/
def coreIssues (s : State) (n : Nat) : Bool := (coreOf s n).running && !(coreOf s n).sleeping

/-- The 64 bytes of a line as memory holds them now. -/
def memLine (s : State) (line : Nat) : List (BitVec 8) :=
  match placeOf s (line * 64) with
  | .boot o => (List.range 64).map (fun k => bacByte s.bac (o + k))
  | _ => memBytes s (line * 64) 64

/-- What a fill of a line into an instruction cache reads (R148): instruction caches are not coherent with stores, so of a line that a core's data
cache may still hold stored to, whether it has been written back is free. DESIGN CHOICE, log entry 37. -/
def fillLine (s : State) (line : Nat) : List (BitVec 8) × State :=
  match s.cores.findSome? (fun e => if mget [] e.2.dirty line = [] then none else some (mget [] e.2.dirty line)) with
  | none => (memLine s line, s)
  | some old =>
    let (b, s) := drawBool s
    (if b then old else memLine s line, s)

/-- The bundle a core's fetch reads: a line its instruction cache still holds answers as it was filled, and whether it is still held
is free (R148). -/
def fetchCore (n : Nat) (s : State) : BitVec 128 × State :=
  let a := (coreOf s n).a0.toNat
  let hit := fetchHit s n a
  let held := mget [] (coreOf s n).iline (a / 64)
  let (_, s) := drawBool s
  let (l, s) := if hit then (held, s) else fillLine s (a / 64)
  let s := if cacheable s a then modCore n (fun x => { x with iline := mset [] (a / 64) l x.iline }) s else s
  (BitVec.ofNat 128 (leNat ((l.drop (a % 64)).take 16)), s)

/-- A core issues the bundle its fetch sequence names. -/
def stepCore (s : State) (n : Nat) : State :=
  if coreIssues s n then
    let s := coreCycles n s
    match fetchBar s (BitVec.ofNat 4 n) (coreOf s n).a0 .ok with
    | some c => syncTrap (BitVec.ofNat 4 n) c s
    | none =>
      let (w, s) := fetchCore n s
      coreBundle (BitVec.ofNat 4 n) (bundleSlots w) .ok s
  else s

end Sys2Proof.Machine
end

