-- ==== Sys2Proof/Machine/Clock.lean ====
section
/-! DEFINITION. The core clock (R38): what one cycle does, the turn boundary and the hank boundary (R53, R71, R72, R110, R111, R132),
and the stop of the sequencer for an activation (R199, R320). -/

namespace Sys2Proof.Machine

/-! ## A turn's end and start of a spindle (R53, R71, R110, R111, R132) -/

/-- A turn ends for a spindle: still issuing is a slot violation (R111). -/
def turnEnd (s : State) (n : Nat) : State :=
  if (spn s n).state = 1 then
    modSpn n (fun x => { x with ovr := true, lastEnd := 0x1FFF }) (slotViolation 1 n (issueEntry s n) s)
  else if (spn s n).state = 2 then modSpn n (fun x => { x with lastEnd := x.lastIssue }) s
  else if (spn s n).state = 3 && decide (s.reel.core < (spn s n).fcore + 8192) && (spn s n).fturn = s.reel.turn then
    modSpn n (fun x => { x with lastEnd := x.lastIssue }) s
  else s

/-- The program-memory address the timetable names for a spindle, turn and phase (R191). -/
def entryOf (r : Reel) (n : Nat) : Nat := (mget 0 r.tt.entries ((r.phase.toNat * 64 + r.turn.toNat) * 64 + n)).toNat * 16

/-- The spindle starts at an address, and the two bundles after it follow (R110). -/
def startAt (a : Nat) (x : Spindle) : Spindle :=
  { x with state := 1, a0 := a, a1 := a + 16, a2 := a + 32, issuedAt := none, endLeft := none }

/-- What is left of a read after a fault from cycle `f` to cycle `now`: the units that were ready before it, and those that are not yet
ready; the units between arrived on a faulted spindle (R131). -/
def dropArrived (f now : Nat) (r : DinRead) : List DinRead :=
  let before := min r.left (f - r.due)
  let gone := min r.left (now + 1 - r.due)
  (if before = 0 then [] else [{ r with left := before }]) ++
    (if r.left ≤ gone then [] else [{ r with addr := r.addr + 32 * gone, left := r.left - gone, due := r.due + gone }])

/-- The units that became ready on COUT of the lanes a faulted spindle held are discarded (R131). -/
def dropCout (n : Nat) (s : State) : State :=
  let f := (spn s n).fcore
  let held := fun (k : Nat) => s.reel.grants.any (fun g => g.slot.typ = 6 && grantRes g = k && g.spindle = some n)
  ((s.lanes.map (·.1)).filter held).foldl (fun s k =>
    modLane k (fun l => { l with pipe := l.pipe.filter (fun u => decide (u.due < f ∨ s.reel.core < u.due)) }) s) s

/-- A restart clears every register and what reports the fault; scratch memory stays (R132). -/
def restarted (core : Nat) (x : Spindle) : Spindle :=
  { x with dreads := (x.dreads.map (dropArrived x.fcore core)).flatten, g := [], v := [], p := [], fpc := 0, fcause := 0, fslot := 0, fturn := 0, fcycle := 0, faddr := 0, restart := false }

/-- The outstanding commands of a restarted spindle, internal ones among them: 06h, or 80h where payload has left (R173, R323); a write whose data is incomplete leaves its
zone as R296 says. -/
def failSpindle (n : Nat) (s : State) : State :=
  let l := s.tables.cmds.filter (fun c => outstanding c && cmdSpindle s c = n)
  l.foldl (fun s c => if c.phase = Phase.waitData then completeCmd c (status 0 6) 0 0 (partialWriteEnd c s) else loseRead c s) s

/-- A faulted spindle with a pending restart resumes at the turn's start (R132). -/
def restartNow (n : Nat) (s : State) : State :=
  let s := modSpn n (fun x => startAt (entryOf s.reel n) (restarted s.reel.core x)) (dropCout n s)
  passHeld (failSpindle n (event 0x0703 [w32 n, lo32 s.reel.hanks, hi32 s.reel.hanks] s))

/-- A turn starts for a spindle (R53). -/
def turnStart (s : State) (n : Nat) : State :=
  if (spn s n).state = 3 then if (spn s n).restart then restartNow n s else s
  else modSpn n (startAt (entryOf s.reel n)) s

/-- Spindles run under the active deck: not under a built-in one (R203, R627). -/
def spindlesRun (s : State) : Bool := s.reel.run && s.reel.deck ≠ 0 && s.reel.deck ≠ 0xE

/-- A turn starts. -/
def turnBegin (s : State) : State := if spindlesRun s then (List.range (nSpindles s)).foldl turnStart s else s

/-- A turn ends. -/
def turnFinish (s : State) : State :=
  ageRequests (if spindlesRun s then (List.range (nSpindles s)).foldl turnEnd s else s)

/-! ## One core cycle -/

/-- Every spindle that has not issued in this cycle issues. -/
def issueAll (s : State) : State := (s.spindles.map (·.1)).foldl runSpn s

/-- The cycle's results land and the local ports drain, in the cycle `core`. -/
def landAll (s : State) : State :=
  { s with spindles := mmapv {} (fun x => drainPorts s.reel.core (landDue s.reel.core x)) s.spindles }

/-- The position moves on by one cycle (R38). -/
def nextPos (r : Reel) : Reel :=
  if !r.run then { r with core := r.core + 1 }
  else if r.cycle ≠ 8191 then { r with core := r.core + 1, cycle := r.cycle + 1 }
  else { r with core := r.core + 1, cycle := 0, turn := r.turn + 1, commitDue := decide (r.turn = 63) }

/-- The last cycle of a turn of a running sequencer. -/
def lastCycle (r : Reel) : Bool := r.run && r.cycle = 8191

/-- A hank commit that is due, with the first turn's start. -/
def commitNow (s : State) : State := turnBegin (hankCommit s)

/-- A due hank boundary waits for the sequencer's stop: it is no commit (R199, R320). -/
def stopWaits (s : State) : Bool := s.reel.commitDue && maySequencerStop s

/-- The commit of a boundary that has been reached, unless the sequencer stops there. DESIGN CHOICE, log entry 41. -/
def settle (s : State) : State := if s.reel.commitDue && !maySequencerStop s then commitNow s else s

/-- Whether a command in work lost data through a slot violation is free (R173): the spec gives the handling of a command to the keystone's
code. DEDUCED, log entry 110. -/
def freeLoss (s : State) (c : Cmd) : State :=
  let (b, s) := drawBool s
  if !b then s
  else if isReadOp c.opcode then loseData s (.read c.conn c.cid)
  else if isWriteOp c.opcode then loseData s (.staged c.nsid (BitVec.ofNat 64 (cmdStart s c)) (BitVec.ofNat 16 c.nlb))
  else s

/-- What a violation in a cycle's own bundles, or at a turn's end, cost the commands in work, where there was one (R172, R173). -/
def cycleLosses (pre s : State) : State :=
  if s.reel.lossDue && !pre.reel.lossDue then
    (s.tables.cmds.filter (fun c => !c.internal && !c.closed && outstanding c)).foldl freeLoss s
  else s

/-- One core cycle: bundles issue, the position moves on, results land, and at a turn's end the spindles restart (R38, R71, R99). At a
boundary where the sequencer is to stop, nothing moves until it has stopped. DESIGN CHOICE, log entry 3. -/
def tick (s : State) : State :=
  let s := settle s
  if s.reel.commitDue then s
  else
    let t := issueAll s
    let fin := lastCycle t.reel
    let s := cycleLosses s (if fin then turnFinish t else t)
    let s := landAll (modReel (fun _ => nextPos s.reel) s)
    if fin && !s.reel.commitDue then turnBegin s else s

/-- Several core cycles. -/
def advance : Nat → State → State
  | 0, s => s
  | d + 1, s => advance d (tick s)

/-- On to a core cycle, if it has not passed. -/
def advanceTo (t : Nat) (s : State) : State := advance (t - s.reel.core) s

/-- TURN_BOUNDARY (R38, R53, R71, R110, R111): the clock runs on to the start of the next turn. -/
def execTurnBoundary (s : State) : Out := .next (if s.reel.run then advance (8192 - s.reel.cycle.toNat) s else s)

/-- On to the hank boundary. -/
def toBoundary (s : State) : State :=
  if s.reel.commitDue || !s.reel.run then s else advance (hankCycles - hankCycle s) s

/-- HANK_COMMIT (R72): the commit of the boundary reached, or of the next one. -/
def execHankCommit (s : State) : Out := .next (settle (toBoundary s))

/-! ## The stop of the sequencer (R199, R320) -/

/-- The activation ends without the image (R487): its timetable memory was read poisoned, and the device is in Hold, with its links down
(R202). -/
def abandonActivation (s : State) : State :=
  let s := modStore (fun u => { u with act := .none, running := none }) s
  raiseFault 23 3 (linksDown (putDeck 0 (holdDeck s) (startBuiltIn 0 (holdDeck s) s)))

/-- SEQUENCER_STOP (R199 steps 1 to 5, R320, R487): at the next hank boundary, which is no commit, the sequencer stops, the memories
and the timetable are loaded, registers become 0, the record names the new bank. `poisoned`: timetable memory was read
poisoned. -/
def execSequencerStop (poisoned : Bool) (s : State) : Out :=
  if !maySequencerStop s then .next s
  else
    let s := toBoundary s
    if !maySequencerStop s then .next s
    else match sealedImage s s.store.actBank.toNat with
      | none => .next s
      | some im => if poisoned then .next (abandonActivation s) else .next (stopAndLoad im s)

end Sys2Proof.Machine
end

