-- ==== Sys2Proof/Machine/IsaRows.lean ====
section
/-! DEFINITION. The rows that issue one instruction: a bundle that holds it, on a spindle or a distaff core (R94–R150); and the rows
of what follows an instruction: results that land, units that become ready, event entries, interrupts (R100, R124, R147, R155, R436,
R438, R527). -/

namespace Sys2Proof.Machine

/-! ## One instruction (R97–R102) -/

/-- A spindle that can issue now: one that has issued in this core cycle goes on to the next first. -/
def readySpn (n : Nat) (s : State) : State :=
  let s := settle s
  if (spn s n).issuedAt = some s.reel.core then tick s else s

/-- A bundle that holds one instruction issues in place of the one the engine's memory holds; nothing happens on an engine that does
not issue. DEDUCED, log entry 16. -/
def issueOne (x : Iss) (a : Act) (s : State) : State :=
  match x.eng with
  | .spindle n =>
    if !spnIssues s n.toNat then s
    else
      let s := readySpn n.toNat s
      if spnIssues s n.toNat && decide ((spn s n.toNat).issuedAt ≠ some s.reel.core) then issueSpn n (oneSlot x a) x.prog x.mem s
      else s
  | .core n =>
    let s := settle s
    if coreIssues s n.toNat then issueCore n (oneSlot x a) x.prog x.mem s else s

/-- NOP (R105). -/
def execNop (x : Iss) (s : State) : Out := .next (issueOne x actNop s)
/-- ADD (R105). -/
def execAdd (x : Iss) (d a b : BitVec 6) (s : State) : Out := .next (issueOne x (actAdd d a b) s)
/-- SUB (R105). -/
def execSub (x : Iss) (d a b : BitVec 6) (s : State) : Out := .next (issueOne x (actSub d a b) s)
/-- AND (R105). -/
def execAnd (x : Iss) (d a b : BitVec 6) (s : State) : Out := .next (issueOne x (actAnd d a b) s)
/-- OR (R105). -/
def execOr (x : Iss) (d a b : BitVec 6) (s : State) : Out := .next (issueOne x (actOr d a b) s)
/-- XOR (R105). -/
def execXor (x : Iss) (d a b : BitVec 6) (s : State) : Out := .next (issueOne x (actXor d a b) s)
/-- SHL (R105). -/
def execShl (x : Iss) (d a b : BitVec 6) (s : State) : Out := .next (issueOne x (actShl d a b) s)
/-- SHR (R105). -/
def execShr (x : Iss) (d a b : BitVec 6) (s : State) : Out := .next (issueOne x (actShr d a b) s)
/-- SAR (R105). -/
def execSar (x : Iss) (d a b : BitVec 6) (s : State) : Out := .next (issueOne x (actSar d a b) s)
/-- MUL (R105). -/
def execMul (x : Iss) (d a b : BitVec 6) (s : State) : Out := .next (issueOne x (actMul d a b) s)
/-- MULHU (R105). -/
def execMulhu (x : Iss) (d a b : BitVec 6) (s : State) : Out := .next (issueOne x (actMulhu d a b) s)
/-- CLZ (R105). -/
def execClz (x : Iss) (d a : BitVec 6) (s : State) : Out := .next (issueOne x (actClz d a) s)
/-- POPC (R105). -/
def execPopc (x : Iss) (d a : BitVec 6) (s : State) : Out := .next (issueOne x (actPopc d a) s)
/-- BSWAP (R105). -/
def execBswap (x : Iss) (d a : BitVec 6) (fn : BitVec 3) (s : State) : Out := .next (issueOne x (actBswap d a fn) s)
/-- SEL (R105). -/
def execSel (x : Iss) (d a b : BitVec 6) (fn : BitVec 3) (s : State) : Out := .next (issueOne x (actSel d a b fn) s)
/-- ADDI (R105). -/
def execAddi (x : Iss) (d a : BitVec 6) (i : BitVec 9) (s : State) : Out := .next (issueOne x (actAddi d a i) s)
/-- ANDI (R105). -/
def execAndi (x : Iss) (d a : BitVec 6) (i : BitVec 9) (s : State) : Out := .next (issueOne x (actAndi d a i) s)
/-- ORI (R105). -/
def execOri (x : Iss) (d a : BitVec 6) (i : BitVec 9) (s : State) : Out := .next (issueOne x (actOri d a i) s)
/-- XORI (R105). -/
def execXori (x : Iss) (d a : BitVec 6) (i : BitVec 9) (s : State) : Out := .next (issueOne x (actXori d a i) s)
/-- SHLI (R105). -/
def execShli (x : Iss) (d a : BitVec 6) (i : BitVec 9) (s : State) : Out := .next (issueOne x (actShli d a i) s)
/-- SHRI (R105). -/
def execShri (x : Iss) (d a : BitVec 6) (i : BitVec 9) (s : State) : Out := .next (issueOne x (actShri d a i) s)
/-- SARI (R105). -/
def execSari (x : Iss) (d a : BitVec 6) (i : BitVec 9) (s : State) : Out := .next (issueOne x (actSari d a i) s)
/-- MOVI (R105). -/
def execMovi (x : Iss) (d : BitVec 6) (i : BitVec 15) (s : State) : Out := .next (issueOne x (actMovi d i) s)
/-- MOVS (R105). -/
def execMovs (x : Iss) (d : BitVec 6) (i : BitVec 15) (s : State) : Out := .next (issueOne x (actMovs d i) s)
/-- CMPEQ (R105). -/
def execCmpeq (x : Iss) (d : BitVec 3) (a b : BitVec 6) (s : State) : Out := .next (issueOne x (actCmpeq d a b) s)
/-- CMPNE (R105). -/
def execCmpne (x : Iss) (d : BitVec 3) (a b : BitVec 6) (s : State) : Out := .next (issueOne x (actCmpne d a b) s)
/-- CMPLT (R105). -/
def execCmplt (x : Iss) (d : BitVec 3) (a b : BitVec 6) (s : State) : Out := .next (issueOne x (actCmplt d a b) s)
/-- CMPLTU (R105). -/
def execCmpltu (x : Iss) (d : BitVec 3) (a b : BitVec 6) (s : State) : Out := .next (issueOne x (actCmpltu d a b) s)
/-- CMPGE (R105). -/
def execCmpge (x : Iss) (d : BitVec 3) (a b : BitVec 6) (s : State) : Out := .next (issueOne x (actCmpge d a b) s)
/-- CMPGEU (R105). -/
def execCmpgeu (x : Iss) (d : BitVec 3) (a b : BitVec 6) (s : State) : Out := .next (issueOne x (actCmpgeu d a b) s)
/-- CMPEQI (R105). -/
def execCmpeqi (x : Iss) (d : BitVec 3) (a : BitVec 6) (i : BitVec 12) (s : State) : Out := .next (issueOne x (actCmpeqi d a i) s)
/-- CMPLTI (R105). -/
def execCmplti (x : Iss) (d : BitVec 3) (a : BitVec 6) (i : BitVec 12) (s : State) : Out := .next (issueOne x (actCmplti d a i) s)
/-- CMPLTUI (R105). -/
def execCmpltui (x : Iss) (d : BitVec 3) (a : BitVec 6) (i : BitVec 12) (s : State) : Out := .next (issueOne x (actCmpltui d a i) s)
/-- PLOG (R106). -/
def execPlog (x : Iss) (d a b : BitVec 3) (fn : BitVec 3) (s : State) : Out := .next (issueOne x (actPlog d a b fn) s)
/-- LDB (R112). -/
def execLdb (x : Iss) (d a : BitVec 6) (i : BitVec 9) (s : State) : Out := .next (issueOne x (actLdb d a i) s)
/-- LDH (R113). -/
def execLdh (x : Iss) (d a : BitVec 6) (i : BitVec 9) (s : State) : Out := .next (issueOne x (actLdh d a i) s)
/-- LDW (R113). -/
def execLdw (x : Iss) (d a : BitVec 6) (i : BitVec 9) (s : State) : Out := .next (issueOne x (actLdw d a i) s)
/-- LDD (R113). -/
def execLdd (x : Iss) (d a : BitVec 6) (i : BitVec 9) (s : State) : Out := .next (issueOne x (actLdd d a i) s)
/-- STB (R105). -/
def execStb (x : Iss) (d a : BitVec 6) (i : BitVec 9) (s : State) : Out := .next (issueOne x (actStb d a i) s)
/-- STH (R105). -/
def execSth (x : Iss) (d a : BitVec 6) (i : BitVec 9) (s : State) : Out := .next (issueOne x (actSth d a i) s)
/-- STW (R105). -/
def execStw (x : Iss) (d a : BitVec 6) (i : BitVec 9) (s : State) : Out := .next (issueOne x (actStw d a i) s)
/-- STD (R105). -/
def execStd (x : Iss) (d a : BitVec 6) (i : BitVec 9) (s : State) : Out := .next (issueOne x (actStd d a i) s)
/-- VLD (R114). -/
def execVld (x : Iss) (v : BitVec 4) (a : BitVec 6) (i : BitVec 11) (s : State) : Out := .next (issueOne x (actVld v a i) s)
/-- VST (R114). -/
def execVst (x : Iss) (v : BitVec 4) (a : BitVec 6) (i : BitVec 11) (s : State) : Out := .next (issueOne x (actVst v a i) s)
/-- VXACC (R115). -/
def execVxacc (x : Iss) (v : BitVec 4) (a : BitVec 6) (i : BitVec 11) (s : State) : Out := .next (issueOne x (actVxacc v a i) s)
/-- LDL (R150). -/
def execLdl (x : Iss) (d a : BitVec 6) (i : BitVec 9) (s : State) : Out := .next (issueOne x (actLdl d a i) s)
/-- STC (R150). -/
def execStc (x : Iss) (d a b : BitVec 6) (fn : BitVec 3) (s : State) : Out := .next (issueOne x (actStc d a b fn) s)
/-- VLOG (R106). -/
def execVlog (x : Iss) (d a b k : BitVec 4) (fn : BitVec 5) (s : State) : Out := .next (issueOne x (actVlog d a b k fn) s)
/-- VADD (R106). -/
def execVadd (x : Iss) (d a b : BitVec 4) (fn : BitVec 5) (s : State) : Out := .next (issueOne x (actVadd d a b fn) s)
/-- VSHUF (R106). -/
def execVshuf (x : Iss) (d a b k : BitVec 4) (fn : BitVec 5) (s : State) : Out := .next (issueOne x (actVshuf d a b k fn) s)
/-- VBREV (R106). -/
def execVbrev (x : Iss) (d a : BitVec 4) (fn : BitVec 5) (s : State) : Out := .next (issueOne x (actVbrev d a fn) s)
/-- VCLMUL (R126). -/
def execVclmul (x : Iss) (d a b : BitVec 4) (fn : BitVec 5) (s : State) : Out := .next (issueOne x (actVclmul d a b fn) s)
/-- VGFMUL (R127). -/
def execVgfmul (x : Iss) (d a b : BitVec 4) (fn : BitVec 5) (s : State) : Out := .next (issueOne x (actVgfmul d a b fn) s)
/-- VGFX (R128). -/
def execVgfx (x : Iss) (d a : BitVec 4) (fn : BitVec 5) (s : State) : Out := .next (issueOne x (actVgfx d a fn) s)
/-- VMOVG (R105). -/
def execVmovg (x : Iss) (v : BitVec 4) (g : BitVec 6) (ln : BitVec 2) (s : State) : Out := .next (issueOne x (actVmovg v g ln) s)
/-- VINSG (R105). -/
def execVinsg (x : Iss) (v : BitVec 4) (g : BitVec 6) (ln : BitVec 2) (s : State) : Out := .next (issueOne x (actVinsg v g ln) s)
/-- VSPLAT (R105). -/
def execVsplat (x : Iss) (v : BitVec 4) (g : BitVec 6) (s : State) : Out := .next (issueOne x (actVsplat v g) s)
/-- The unit at the head of DIN is poisoned, or the one at the head of COUT is withheld (R438, R487). -/
def popsBad (s : State) (e : Engine) (port : BitVec 4) : Bool :=
  match e with
  | .core _ => false
  | .spindle n =>
    if port = 9 then (spn s n.toNat).din.head?.any (fun u => u.poison)
    else if port = 7 then match portGrant s n.toNat 7 with
      | none => false
      | some g => (lane s (grantRes g)).out.head? = some none
    else false

/-- SPUSH (R117); `lost` is what a violation it commits costs (R173, R324). -/
def execSpush (x : Iss) (v port : BitVec 4) (pq : BitVec 3) (lost : List Loss) (s : State) : Out :=
  .next (lossesOf lost (issueOne x (actSpush v port pq) s))
/-- SPOP (R117); `lost` is what a violation, a withheld or a poisoned unit costs (R173, R324, R439, R489). -/
def execSpop (x : Iss) (v port : BitVec 4) (pq : BitVec 3) (lost : List Loss) (s : State) : Out :=
  let t := issueOne x (actSpop v port pq) s
  .next (if popsBad s x.eng port then lost.foldl loseData t else lossesOf lost t)
/-- SSTAT_READY (R120). -/
def execSstatReady (x : Iss) (g : BitVec 6) (port : BitVec 4) (s : State) : Out := .next (issueOne x (actSstat g port 0) s)
/-- SSTAT_ROOM (R120). -/
def execSstatRoom (x : Iss) (g : BitVec 6) (port : BitVec 4) (s : State) : Out := .next (issueOne x (actSstat g port 1) s)
/-- POST_READ (R390). -/
def execPostRead (x : Iss) (v : BitVec 4) (pq : BitVec 3) (s : State) : Out := .next (issueOne x (actScmd v 2 pq 0) s)
/-- POST_PROGRAM (R391). -/
def execPostProgram (x : Iss) (v : BitVec 4) (pq : BitVec 3) (s : State) : Out := .next (issueOne x (actScmd v 2 pq 1) s)
/-- POST_ERASE (R391). -/
def execPostErase (x : Iss) (v : BitVec 4) (pq : BitVec 3) (s : State) : Out := .next (issueOne x (actScmd v 2 pq 2) s)
/-- POST_TEMPERATURE_READ (R404). -/
def execPostTemperatureRead (x : Iss) (v : BitVec 4) (pq : BitVec 3) (s : State) : Out := .next (issueOne x (actScmd v 2 pq 3) s)
/-- POST_RAW_DIAGNOSTIC_READ (R389). -/
def execPostRawDiagnosticRead (x : Iss) (v : BitVec 4) (pq : BitVec 3) (s : State) : Out := .next (issueOne x (actScmd v 2 pq 4) s)
/-- LOCK_RELEASE (R306). -/
def execLockRelease (x : Iss) (v : BitVec 4) (pq : BitVec 3) (s : State) : Out := .next (issueOne x (actScmd v 3 pq 1) s)
/-- ABORT_MARK (R310). -/
def execAbortMark (x : Iss) (v : BitVec 4) (pq : BitVec 3) (s : State) : Out := .next (issueOne x (actScmd v 3 pq 2) s)
/-- CIN_ENCRYPT (R437, R119); `lost` is what a violation it commits costs (R173, R324). -/
def execCinEncrypt (x : Iss) (v : BitVec 4) (pq : BitVec 3) (lost : List Loss) (s : State) : Out :=
  .next (lossesOf lost (issueOne x (actScmd v 6 pq 0) s))
/-- CIN_DECRYPT (R437, R119); `lost` is what a violation it commits costs (R173, R324). -/
def execCinDecrypt (x : Iss) (v : BitVec 4) (pq : BitVec 3) (lost : List Loss) (s : State) : Out :=
  .next (lossesOf lost (issueOne x (actScmd v 6 pq 1) s))
/-- DCMD_READ (R122, R119); `lost` is what a violation it commits costs (R173, R324). -/
def execDcmdRead (x : Iss) (v : BitVec 4) (pq : BitVec 3) (lost : List Loss) (s : State) : Out :=
  .next (lossesOf lost (issueOne x (actScmd v 8 pq 0) s))
/-- DCMD_WRITE (R122, R119); `lost` is what a violation it commits costs (R173, R324). -/
def execDcmdWrite (x : Iss) (v : BitVec 4) (pq : BitVec 3) (lost : List Loss) (s : State) : Out :=
  .next (lossesOf lost (issueOne x (actScmd v 8 pq 1) s))
/-- TXF_ROCEV2_PACKET (R252, R119); `lost` is what a violation it commits costs (R173, R324). -/
def execTxfRocev2Packet (x : Iss) (v : BitVec 4) (pq : BitVec 3) (lost : List Loss) (s : State) : Out :=
  .next (lossesOf lost (issueOne x (actScmd v 11 pq 0) s))
/-- TXF_TCP_SEGMENT (R252, R119); `lost` is what a violation it commits costs (R173, R324). -/
def execTxfTcpSegment (x : Iss) (v : BitVec 4) (pq : BitVec 3) (lost : List Loss) (s : State) : Out :=
  .next (lossesOf lost (issueOne x (actScmd v 11 pq 1) s))
/-- TXF_DEVICE_FRAME (R252, R119); `lost` is what a violation it commits costs (R173, R324). -/
def execTxfDeviceFrame (x : Iss) (v : BitVec 4) (pq : BitVec 3) (lost : List Loss) (s : State) : Out :=
  .next (lossesOf lost (issueOne x (actScmd v 11 pq 2) s))
/-- POUT_PLANE_PAGE (R398, R119); `lost` is what a violation it commits costs (R173, R324). -/
def execPoutPlanePage (x : Iss) (v : BitVec 4) (pq : BitVec 3) (lost : List Loss) (s : State) : Out :=
  .next (lossesOf lost (issueOne x (actScmd v 5 pq 0) s))
/-- BR (R107). -/
def execBr (x : Iss) (off : BitVec 21) (s : State) : Out := .next (issueOne x (actBr off) s)
/-- BRL (R107). -/
def execBrl (x : Iss) (off : BitVec 21) (s : State) : Out := .next (issueOne x (actBrl off) s)
/-- BRI (R108). -/
def execBri (x : Iss) (a : BitVec 6) (s : State) : Out := .next (issueOne x (actBri a) s)
/-- END (R109). -/
def execEnd (x : Iss) (s : State) : Out := .next (issueOne x actEnd s)
/-- MFSR (R140). -/
def execMfsr (x : Iss) (d : BitVec 6) (sn : BitVec 9) (s : State) : Out := .next (issueOne x (actMfsr d sn) s)
/-- MTSR (R140). -/
def execMtsr (x : Iss) (sn : BitVec 9) (a : BitVec 6) (s : State) : Out := .next (issueOne x (actMtsr sn a) s)
/-- SYSC (R144). -/
def execSysc (x : Iss) (sn : BitVec 9) (s : State) : Out := .next (issueOne x (actSysc sn) s)
/-- RFT (R145). -/
def execRft (x : Iss) (s : State) : Out := .next (issueOne x actRft s)
/-- CACHE_FENCE (R149). -/
def execCacheFence (x : Iss) (a : BitVec 6) (s : State) : Out := .next (issueOne x (actCacheFence a) s)
/-- CACHE_INVALIDATE_ICACHE (R149). -/
def execCacheInvalidateIcache (x : Iss) (a : BitVec 6) (s : State) : Out := .next (issueOne x (actCacheInvalidateIcache a) s)
/-- CACHE_CLEAN (R149). -/
def execCacheClean (x : Iss) (a : BitVec 6) (s : State) : Out := .next (issueOne x (actCacheClean a) s)
/-- CACHE_CLEAN_INVALIDATE (R149). -/
def execCacheCleanInvalidate (x : Iss) (a : BitVec 6) (s : State) : Out := .next (issueOne x (actCacheCleanInvalidate a) s)
/-- CACHE_INVALIDATE_LINE (R149). -/
def execCacheInvalidateLine (x : Iss) (a : BitVec 6) (s : State) : Out := .next (issueOne x (actCacheInvalidateLine a) s)
/-- CACHE_INVALIDATE_ILINE (R149). -/
def execCacheInvalidateIline (x : Iss) (a : BitVec 6) (s : State) : Out := .next (issueOne x (actCacheInvalidateIline a) s)

/-! ## The range-lock and command tables' copies (R306, R480) -/

/-- What the check of a table entry held twice finds: one bad copy is rewritten from the other, a Degraded fault; two are a Grave
fault. -/
def tableCopies (bad : BitVec 2) (s : State) : State :=
  if bad = 1 then raiseFault 19 2 s else if bad = 2 then raiseFault 19 4 s else s

/-- LOCK_ACQUIRE (R303–R306, R480): `copies` counts the copies of the table entry it reads that are found bad. -/
def execLockAcquire (x : Iss) (v : BitVec 4) (pq : BitVec 3) (copies : BitVec 2) (s : State) : Out :=
  .next (tableCopies copies (issueOne x (actScmd v 3 pq 0) s))

/-! ## What follows an instruction -/

/-- The earliest cycle a result in flight lands at. -/
def firstDue : List Inflight → Option Nat
  | [] => none
  | f :: rest => match firstDue rest with
    | none => some f.due
    | some d => some (min f.due d)

/-- INSTRUCTION_RESULT (R100, R101): the clock reaches the cycle at which a spindle's next result lands; a core's results have landed
with their bundle. -/
def execInstructionResult (e : Engine) (s : State) : Out :=
  match e with
  | .core _ => .next s
  | .spindle n =>
    match firstDue (spn s n.toNat).fly with
    | none => .next s
    | some t => .next (advanceTo t s)

/-- A unit's two results differ (R438, R456, R461): its descriptor's units are withheld from here on. -/
def compareFailed (k : Nat) (u : LaneUnit) (s : State) : State :=
  let s := modLane k (fun l => { l with bad := some u.desc }) s
  let s := modCiph (fun u => { u with
        cmp0 := if k < 32 then setBit u.cmp0 k else u.cmp0,
        cmp1 := if k < 32 then u.cmp1 else setBit u.cmp1 (k - 32), cmpcnt := satInc u.cmpcnt }) s
  raiseFault 12 2 (eventC 0x0A01 2 [w32 k, w32 u.kslot, w32 u.entry] s)

/-- The lane's slot is held by a faulted spindle, which discards what arrives on COUT (R131). -/
def laneDiscards (s : State) (k : Nat) : Bool :=
  s.reel.grants.any (fun g => g.slot.typ = 6 && grantRes g = k && grantRuns s g &&
    (match g.spindle with | some n => decide ((spn s n).state = 3) | none => false))

/-- The unit at a lane's head leaves it. -/
def laneLeaves (k : Nat) (differ : Bool) (s : State) : State :=
  match (lane s k).pipe with
  | [] => s
  | u :: rest =>
    if s.reel.core < u.due then s
    else
      let s := if differ then compareFailed k u s else s
      modLane k (fun l => { l with pipe := rest, out := if laneDiscards s k then l.out else l.out ++ [laneOut l u] }) s

/-- CIPHER_UNIT_READY (R436, R438): the clock reaches the cycle the unit at a lane's head leaves at; its shadow result agrees or
differs. -/
def execCipherUnitReady (k : BitVec 6) (differ : Bool) (s : State) : Out :=
  match (lane s k.toNat).pipe with
  | [] => .next s
  | u :: _ => .next (laneLeaves k.toNat differ (advanceTo u.due s))

/-- DRAM_READ_UNIT_READY (R122, R155, R157, R177, R487): the next unit of a spindle's oldest read reaches DIN, no earlier than its minimum
time, 48 + k cycles after the DCMD, where `due` is 160 + k. It crosses to CORE through its stack's
queue (R158); a faulted spindle discards it (R131). `ecc` is what its check finds. -/
def execDramReadUnitReady (n : BitVec 6) (ecc : Ecc) (s : State) : Out :=
  match (spn s n.toNat).dreads with
  | [] => .next s
  | r :: rest =>
    if 1024 ≤ (spn s n.toNat).din.length || s.reel.core + 112 < r.due then .next s
    else
      let s := if poisoned s r.addr 32 then s else eccRead r.addr ecc (r.port % 16) s
      let fresh := decide (ecc = Ecc.uncorrectable)
      let (u, s) := nextDin n.toNat r rest fresh s
      let k := r.port / 16
      let e := ((s.reel.grants.find? (fun g => g.slot.kind = 4 && grantRes g = r.port && grantRuns s g)).map (·.entry)).getD 0xFFFF
      let (ok, s) := pushUnit 4 k e 0 s
      .next (if (spn s n.toNat).state = 3 || !ok then s else modSpn n.toNat (fun x => { x with din := x.din ++ [u] }) s)

/-- An event entry of a spindle is written (R124): code 0x07 and its low byte, the time of acceptance, the software flag. -/
def eventEntry (n : Nat) (e : EvqEntry) (s : State) : State :=
  let u := e.unit
  let r : EventRec := {
    code := BitVec.ofNat 16 (0x700 + ubytes u 0 1), flags := evFlags e.tbase 0 true, time := e.time, w0 := w32 n
    w1 := w32 (ubytes u 4 4), w2 := w32 (ubytes u 8 4), w3 := w32 (ubytes u 12 4), w4 := w32 (ubytes u 16 4) }
  let s := modEvr (fun _ => evrTake r s.evr) s
  if ubytes u 1 1 % 2 = 1 then pulse (128 + 2 * n) s else s

/-- EVENT_ENTRY (R119, R124): the recorder takes the oldest entry of a spindle's EVQ, no earlier than the cycle after its acceptance and at
most one in a cycle. -/
def execEventEntry (n : BitVec 6) (s : State) : Out :=
  match (spn s n.toNat).evq with
  | [] => .next s
  | e :: rest =>
    if s.reel.core ≤ e.at_ || s.reel.core < (spn s n.toNat).evqFree then .next s
    else .next (eventEntry n.toNat e (modSpn n.toNat (fun x => { x with evq := rest, evqFree := s.reel.core + 1 }) s))

/-- INTERRUPT_TAKEN (R144, R147): a running core that the controller signals takes the interrupt between bundles while IE is 1. -/
def execInterruptTaken (n : BitVec 4) (s : State) : Out :=
  if coreIssues s n.toNat && (coreOf s n.toNat).ie && signalled s n.toNat then .next (trapEnter n.toNat 0x10 0 (coreCycles n.toNat s)) else .next s

/-- CORE_WAKE (R147, R527): a sleeping core wakes for an eligible source with WAKE set; it traps with IE 1, else goes on. -/
def execCoreWake (n : BitVec 4) (s : State) : Out :=
  if (coreOf s n.toNat).running && (coreOf s n.toNat).sleeping && wakes s n.toNat then
    let s := sleepCycles n.toNat (modCore n.toNat (fun x => { x with sleeping := false }) s)
    .next (if (coreOf s n.toNat).ie then trapEnter n.toNat 0x10 0 s else s)
  else .next s

/-- What the device does on its own in one cycle: each running core issues the bundle its memory holds, and the core clock ticks.
DESIGN CHOICE, log entry 3. DESIGN CHOICE, log entry 130. -/
def idleCycle (s : State) : State := tick ((s.cores.map (·.1)).foldl stepCore (settle s))

end Sys2Proof.Machine
end

