-- ==== Sys2Proof/Machine/Pins.lean ====
section
/-! DEFINITION. Pulse-per-second pins and the test access port (R665, R666), and the management port's link (R35). -/

namespace Sys2Proof.Machine

/-- PPS_INPUT (R664, R665): a rising edge of PTP_PPS_IN of at least 20 ns is timestamped in PTP time to 2 ns and recorded as
event 0x0161, once per hank. -/
def execPpsInput (ns : BitVec 32) (s : State) : Out :=
  if ns.toNat < 20 || s.pins.ppsTold then .next s
  else
    let s := passTime (modPins (fun u => { u with ppsTold := true }) s)
    let t := spanTime s &&& ~~~ (1 : BitVec 64)
    .next (event 0x0161 [0, lo32 t, hi32 t] s)

/-- PPS_OUTPUT (R665): at a whole second of PTP time the pin rises for 100 ms while PTP time is locked; at the pulse's end
(`rise` false), and while it is not locked, it is low. -/
def execPpsOutput (rise : Bool) (s : State) : Out := .next (modPins (fun u => { u with ppsOut := rise && s.span.lock }) s)

/-- IDCODE's value (R666). -/
def idcode (s : State) : BitVec 32 :=
  (Config.stepLessOne.setWidth 32 + 1) <<< 28 ||| (if s.varB then 0x9641 else 0x9640) <<< 12 |||
    Config.manufacturer.setWidth 32 <<< 1 ||| 1

/-- The instruction of the test access port and what its register shifts out first. DESIGN CHOICE, log entry 124. -/
def setTap (i : TapIr) (out : BitVec 32) (s : State) : State := modPins (fun u => { u with tap := i, tapOut := out }) s

/-- BYPASS (R666): the one-bit bypass register. PRESUMED, log entry 125. -/
def execBypass (s : State) : Out := .next (setTap .bypass 0 s)

/-- IDCODE (R666). -/
def execIdcode (s : State) : Out := .next (setTap .idcode (idcode s) s)

/-- SAMPLE/PRELOAD (R666): the boundary register, whose content the spec does not lay out. -/
def execSamplePreload (s : State) : Out :=
  let (v, s) := drawBits s
  .next (setTap .sample (v.setWidth 32) s)

/-- EXTEST (R666): only while RESET_N is held low; otherwise it acts as BYPASS. -/
def execExtest (s : State) : Out :=
  if s.pins.resetN then .next (setTap .bypass 0 s)
  else
    let (v, s) := drawBits s
    .next (setTap .extest (v.setWidth 32) s)

/-- MANAGEMENT_LINK_CHANGE (R35): the management port gains or loses its link and raises its interrupt source. -/
def execManagementLinkChange (up : Bool) (s : State) : Out :=
  .next (modMgmt (fun u => { u with link := up, linkIrq := true }) s)

end Sys2Proof.Machine
end

