-- ==== Sys2Proof/Machine/React.lean ====
section
/-! DEFINITION. The standard resident firmware's reaction to a Severe fault, and the write of ACK that ends it (R559, R562). -/

namespace Sys2Proof.Machine

/-- The firmware asks for a mode as a management host does (R211). -/
def firmwareMode (m : BitVec 4) (s : State) : State := writeMode m s

/-- A reaction enters Hold (R204): with staged data outside Quiesce, which bars a management request, the device makes it itself, and the
commit that would enter Hold starts the flush. DEDUCED, log entry 137. -/
def reactionHold (s : State) : State := if modeVerdict s 0 = 8 then deviceRequest 0 false s else firmwareMode 0 s

/-- Stop a core and start it again at its entry (R512, R671). -/
def restartCore (n : Nat) (s : State) : State := runCore n (firmwareWatch n (stopCore n (writeWdp n 0 s)))

/-- The cores whose watchdogs have latched (R529, R531). -/
def watchedOut (s : State) : List Nat := (List.range 16).filter (fun n => bit s.watch.stat n)

/-- The cores a double trap has stopped (R146). -/
def doubleTrapped (s : State) : List Nat := (s.cores.filter (fun e => e.2.dtrap && !e.2.running)).map (·.1)

/-- Zeroize the failed key slots (R430, R454). -/
def zeroizeFailed (s : State) : State :=
  ((s.ciph.slots.filter (fun e => e.2.failed)).map (·.1)).foldl (fun s k => keyPend k { op := 3, vc := (keyOf s k).vc } s) s

/-- The reaction of a group (R559), for every unit that has faulted in it. The report is the notification of R554. DESIGN CHOICE, log entry 79. -/
def standardReaction (g : Nat) (s : State) : State :=
  if g = 4 then (watchedOut s).foldl (fun s n => restartCore n s) s
  else if g = 5 then (doubleTrapped s).foldl (fun s n => runCore n (firmwareWatch n s)) s
  else if g = 8 ∨ g = 12 then firmwareMode 10 s
  else if g = 9 then ((s.spindles.filter (fun e => e.2.state = 3)).map (·.1)).foldl (fun s n => restartRequest n s) s
  else if g = 14 then zeroizeFailed s
  else if g = 17 ∨ g = 18 ∨ g = 22 then reactionHold s
  else if g = 25 then
    let s := if bit s.watch.stat 29 then firmwareMode 10 s else s
    if bit s.watch.stat 30 then reactionHold s else s
  else s

/-- REACTION_ACK (R559, R562): a write of ACK; `firmware` where the standard resident firmware writes it, which performs the group's
reaction first. DESIGN CHOICE, log entry 79. -/
def execReactionAck (firmware : Bool) (s : State) : Out :=
  .next (reactionAck (if firmware && s.fcr.reactOpen then standardReaction s.fcr.reactGroup.toNat s else s))

end Sys2Proof.Machine
end

