-- ==== Sys2Proof/Machine/Settled.lean ====
section
/-! DEFINITION. The rows that write what a hank commit takes: a control register, a mode request, a key operation, a binding. A boundary that
has been reached is committed before such a write, which the commit after it takes (R206). -/

namespace Sys2Proof.Machine

/-! ## Control registers (R11–R13, R206, R208, R669) -/

/-- CONTROL_REGISTER_WRITE (R11–R13, R208, R669): a supervisor's write of one register. After a hank boundary has
been reached, the boundary's commit comes first (R206). -/
def execControlRegisterWrite (a : BitVec 40) (v : BitVec 32) (s : State) : Out := 
  let s := settle s
  .next (answerWrite (ctlWrite a.toNat v s) s)

/-! ## Modes (R211–R215) -/

/-- REEL_MODE_REQUEST (R211, R215): a write of 1 to 14 to MODE. -/
def execReelModeRequest (m : BitVec 4) (s : State) : Out :=
  if m = 0 || m = 0xF then .next s else .next (writeMode m (settle s))

/-- REEL_MODE_CANCEL (R213, R215): a write of 0xF. -/
def execReelModeCancel (s : State) : Out := .next (writeMode 0xF (settle s))

/-- REEL_HOLD_REQUEST (R204, R215): a write of 0. -/
def execReelHoldRequest (s : State) : Out := .next (writeMode 0 (settle s))

/-! ## Keys and virtual controllers (R423, R430, R431, R453, R459) -/

/-- KEY_LOAD (R430, R453): GO with OP 1. -/
def execKeyLoad (use : BitVec 4) (limit : BitVec 6) (s : State) : Out := .next (keyLoad (keyStart 1 use limit (settle s)))
/-- KEY_GENERATE (R430, R453): GO with OP 2. -/
def execKeyGenerate (use : BitVec 4) (limit : BitVec 6) (s : State) : Out := .next (keyGenerate (keyStart 2 use limit (settle s)))
/-- KEY_ZEROIZE (R430, R453): GO with OP 3. -/
def execKeyZeroize (use : BitVec 4) (limit : BitVec 6) (s : State) : Out := .next (keyZeroize (keyStart 3 use limit (settle s)))
/-- KEY_COPY (R430, R453): GO with OP 4. -/
def execKeyCopy (use : BitVec 4) (limit : BitVec 6) (s : State) : Out := .next (keyCopy false (keyStart 4 use limit (settle s)))
/-- KEY_MOVE (R430, R453): GO with OP 5. -/
def execKeyMove (use : BitVec 4) (limit : BitVec 6) (s : State) : Out := .next (keyCopy true (keyStart 5 use limit (settle s)))
/-- KEY_WRAP (R430, R453): GO with OP 6. -/
def execKeyWrap (use : BitVec 4) (limit : BitVec 6) (s : State) : Out := .next (keyWrap (keyStart 6 use limit (settle s)))
/-- KEY_UNWRAP (R430, R453): GO with OP 7. -/
def execKeyUnwrap (use : BitVec 4) (limit : BitVec 6) (s : State) : Out := .next (keyUnwrap (keyStart 7 use limit (settle s)))

/-- VIRTUAL_CONTROLLER_CREATE (R423, R459): GO with OP 1. -/
def execVirtualControllerCreate (cls : BitVec 8) (s : State) : Out := .next (vctCreate (vctStart 1 cls (settle s)))
/-- VIRTUAL_CONTROLLER_DELETE (R423, R459): GO with OP 2. -/
def execVirtualControllerDelete (s : State) : Out := .next (vctDelete (vctStart 2 s.vct.cls (settle s)))
/-- VIRTUAL_CONTROLLER_BIND (R423, R459): GO with OP 3. -/
def execVirtualControllerBind (cls : BitVec 8) (s : State) : Out := .next (vctBind (vctStart 3 cls (settle s)))

end Sys2Proof.Machine
end

