-- ==== Sys2Proof/Machine/SlotRows.lean ====
section
/-! DEFINITION. The slots of the active deck: early grants and their crossing queues, what begins at a slot's start at a die, a bus, a
lane, a stack, a spindle or an engine, and what a slot's end discards (R20, R21, R42–R50, R70, R152, R157, R158, R171). -/

namespace Sys2Proof.Machine

/-! ## A slot, by number -/

/-- A grant is of replica (i, o) of entry k. -/
def isGrant (k i o : Nat) (g : Grant) : Bool := g.entry = k && g.i = i && g.o = o

/-- The grant of a replica held now. -/
def grantHeld (s : State) (k i o : Nat) : Option Grant := s.reel.grants.find? (isGrant k i o)

/-- A slot entry of a running sequencer and a replica it has. -/
def slotNamed (s : State) (k i o : Nat) : Option SlotEntry :=
  (slotEntry s k).bind (fun e => if s.reel.run && decide (i < e.icount) && decide (o < e.ocount) then some e else none)

/-- The next start of a replica that has not begun yet. -/
def nextBegin (s : State) (e : SlotEntry) (k i o : Nat) : Option Nat :=
  let began := s.reel.grants.any (fun g => isGrant k i o g && g.since = s.reel.core)
  startFrom s e i o (if began then s.reel.core + 1 else s.reel.core)

/-! ## Early grants (R20, R21, R26, R158) -/

/-- The crossing a slot's grant goes through: its code of R88 and its maximum window; none within CORE. -/
def crossingOf (e : SlotEntry) : Option (Nat × Nat) :=
  if e.kind = 1 || e.kind = 2 || e.kind = 6 then some (0, 72)
  else if e.kind = 7 then some (2, 48)
  else if e.kind = 4 || e.kind = 8 then some (3, 36)
  else none

/-- The channel, port or stack a slot's crossing belongs to; a pool slot's is the queue of the channel with the pool's number. DESIGN CHOICE, log
entry 161. -/
def crossingNumber (e : SlotEntry) (r : Nat) : Nat :=
  if e.kind = 1 then r / 16 else if e.kind = 7 then r / 4 else if e.kind = 4 then r / 16 else r

/-- A descriptor waits for this slice or window, in a phase: the one it names, in its phase, or any later one of its owner. DEDUCED, log entry 32. -/
def waitsIn (ph : Nat) (g : Grant) (d : Nat) (x : DieDesc) : Bool :=
  x.die = d && (if x.entry = 0xFFFF then x.owner = g.slot.owner
    else x.entry = g.entry && x.inner = g.i && x.outer = g.o && x.phase = ph)

/-- A descriptor waits for this slice or window now. DEDUCED, log entry 32. -/
def waitsFor (s : State) (g : Grant) (d : Nat) (x : DieDesc) : Bool := waitsIn s.reel.phase.toNat g d x

/-- The hank phase of the active deck at a core cycle (R39). -/
def phaseAt (s : State) (t : Nat) : Nat :=
  (s.reel.phase.toNat + (t - hankBase s) / hankCycles) % periodHanks s.reel.tt.period

/-- An operation is of the kind a slot type serves. -/
def fnServed (typ : Nat) (x : DieDesc) : Bool :=
  if typ = 3 then x.fn = 1 else if typ = 4 then x.fn = 2 else typ = 0xA && (x.fn = 3 || x.fn = 4)

/-- The entries that cross with an early grant (R20): the reads booked into the window it grants, and the operations that wait for the slot. -/
def earlyReads (s : State) (k i o at_ : Nat) : List Booking :=
  s.piers.booked.filter (fun b => b.entry = k && b.i = i && b.o = o && b.at_ = at_ && !b.issued)

/-- The operations that wait for the slot a grant names, at its start. -/
def earlyOps (s : State) (g : Grant) (at_ : Nat) : List DieDesc :=
  s.piers.ops.filter (fun x => fnServed g.slot.typ x && waitsIn (phaseAt s at_) g (slotRes g.slot g.i g.o) x)

/-- How many entries cross with an early grant: one for each descriptor (R158). -/
def earlyEntries (s : State) (g : Grant) (at_ : Nat) : Nat :=
  if g.slot.kind = 1 then (earlyReads s g.entry g.i g.o at_).length + (earlyOps s g at_).length else 0

/-- An entry takes its place in the crossing queue of a channel (R158). -/
def crossIn (c : Nat) (s : State) : State := modReel (fun u => { u with xq := mmod 0 (crossingKey 0 c) (· + 1) u.xq }) s

/-- A read's entry is pushed into its crossing queue; one that a full queue does not accept is not issued in the window and is posted again
(R21, R88). DEDUCED, log entry 34. -/
def pushRead (c k : Nat) (s : State) (b : Booking) : State :=
  match crossingFull 0 c s.reel.core s with
  | (true, s) => repostRead b (slotViolation 6 (crossingKey 0 c) k s)
  | (false, s) => crossIn c s

/-- A descriptor's entry is pushed likewise; one not accepted waits for a later slot of its owner. DEDUCED, log entry 34. -/
def pushDesc (c k : Nat) (s : State) (x : DieDesc) : State :=
  match crossingFull 0 c s.reel.core s with
  | (true, s) =>
    modPiers (fun u => { u with ops := u.ops.map (fun y => if y = x then unnamed y else y) }) (slotViolation 6 (crossingKey 0 c) k s)
  | (false, s) => crossIn c s

/-- A word of timetable memory found uncorrectable (R480, R510): its entry grants nothing. DEDUCED, log entry 34. -/
def entryBad (k : Nat) (s : State) : State :=
  let s := modReel (fun u => { u with ttBad := mset false k true u.ttBad }) s
  let (r, s) := drawBits s
  raiseFault 8 3 (eventC 0x0131 3 [0x0500, w32 (r.toNat % 65536), w32 (r.toNat / 65536 % 256)] s)

/-- What ECC finds as the sequencer reads a slot entry. -/
def readEntry (k : Nat) (ecc : Ecc) (s : State) : State :=
  match ecc with
  | .ok => s
  | .corrected => sramCorrected 0x0500 s
  | .uncorrectable => if mget false s.reel.ttBad k then s else entryBad k s

/-- A grant is issued early for the slot that begins at cycle `at_`, with the entries of its slot (R20, R21). -/
def grantEarly (e : SlotEntry) (k i o at_ : Nat) (late : Bool) (x : Nat) (s : State) : State :=
  let c := crossingNumber e (slotRes e i o)
  let before := mget 0 s.reel.xq (crossingKey x c)
  let g : Grant := { slot := e, entry := k, i := i, o := o, since := s.reel.core, late := late }
  let s := if e.kind = 1 then
      (earlyOps s g at_).foldl (pushDesc c k) ((earlyReads s k i o at_).foldl (pushRead c k) s)
    else s
  let g := { g with pushed := mget 0 s.reel.xq (crossingKey x c) - before }
  (modReel (fun u => { u with early := u.early.filter (fun y => !isGrant k i o y) ++ [g] }) s)

/-- EARLY_GRANT (R20, R21, R480): the grant of a start of replica (i, o) of slot entry k is issued exactly the maximum crossing window before
it, with the entries of its slot: the next start for which that moment has not passed. `late`: an entry reaches the agent after the
slot-start marker. -/
def execEarlyGrant (k : BitVec 16) (i o : BitVec 12) (late : Bool) (ecc : Ecc) (s : State) : Out :=
  match slotNamed s k.toNat i.toNat o.toNat with
  | none => .next s
  | some e =>
    match crossingOf e with
    | none => .next s
    | some (x, lead) =>
      match startFrom s e i.toNat o.toNat (s.reel.core + lead) with
      | none => .next s
      | some t =>
        let dk := s.reel.tt
        let s := advanceTo (t - lead) s
        if s.reel.tt ≠ dk then .next s
        else
          let s := readEntry k.toNat ecc s
          if mget false s.reel.ttBad k.toNat then .next s
          else .next (grantEarly e k.toNat i.toNat o.toNat t late x s)

/-! ## A die's slots (R42, R45, R48, R49, R70, R75, R391, R403) -/

/-- The limit of suspends of an operation: its die's record allows no more (R403). -/
def suspendLimit (s : State) (d : Nat) (fn : Nat) : Nat :=
  let f := ((dieOf s d).fig).getD {}
  if fn = 1 then f.susProg else f.susErase

/-- An operation is in flight on a die and not suspended. -/
def dieBusy (s : State) (d : Nat) : Bool :=
  match (dieOf s d).op with
  | none => false
  | some o => !o.suspended

/-- A busy die's slot stays idle and its reads are posted again (row 4 of R70). -/
def idleWindow (d k : Nat) (s : State) : State := repostOpen d false (overrun d 4 k s)

/-- The operation is suspended for the window's posted reads (R45), unless it has been suspended as often as the die allows
(R403). -/
def suspendFor (d k : Nat) (o : DieOp) (s : State) : State :=
  if suspendLimit s d o.desc.fn ≤ o.suspends then repostOpen d false (overrun d 6 k s)
  else modDie d (fun x => { x with op := some { o with suspends := o.suspends + 1, suspended := true } }) s

/-- The record of the running image that binds for a die (R155, R156). -/
def runFig (s : State) (d : Nat) : DieFig := (s.store.running.map (fun im => dieRecord s im d)).getD {}

/-- The plan of an operation gains the resume penalty of a suspend point it meets (R48). -/
def planPenalty (d : Nat) (s : State) : State :=
  modDie d (fun x => { x with op := x.op.map (fun o => { o with left := o.left + nsCycles (runFig s d).resumeNs }) }) s

/-- A read window starts on die d: with a suspend point (type 2) or without. -/
def windowStart (typ d k : Nat) (s : State) : State :=
  let s := if typ = 2 then planPenalty d s else s
  match (dieOf s d).op with
  | none => issueReads d s
  | some o =>
    if o.suspended then issueReads d s
    else if typ = 2 then (if toIssue s d = [] then s else suspendFor d k o s)
    else idleWindow d k s

/-- The cycles of slice that the plan gives an operation at its issue: its maximum in its die's record (R48, R155). -/
def planned (s : State) (x : DieDesc) : Nat :=
  let f := runFig s x.die
  nsCycles (1000 * (if x.fn = 2 then f.eraseUs else if bit x.flags 0 then f.slcUs else f.qlcUs))

/-- An operation is issued to its die (R391). -/
def issueOp (x : DieDesc) (s : State) : State := modDie x.die (fun y => { y with op := some { desc := x, left := planned s x } }) s

/-- Every data unit of a program has reached the pier (R391, R398). -/
def dataHere (s : State) (x : DieDesc) : Bool :=
  x.fn ≠ 1 || (programPages x).all (fun p => decide (mget [] s.piers.data (2 ^ 60 + pageNumber x.die x.block p) ≠ []))

/-- A descriptor leaves the list of those that wait. -/
def dropOp (x : DieDesc) (s : State) : State := modPiers (fun u => { u with ops := u.ops.erase x }) s

/-- An operation is unfinished at the end of its last planned slice, or still there when the next planned one is to start (row 3 of R70): recorded
once. DEDUCED, log entry 55. -/
def stillBusy (d k : Nat) (o : DieOp) (s : State) : State :=
  if o.late then s else overrun d 3 k (modDie d (fun y => { y with op := some { o with late := true } }) s)

/-- A slice of a die ends: an operation unfinished there has that much less of its plan left, and none after its last planned slice (R48, R70). -/
def sliceEnd (g : Grant) (d : Nat) (s : State) : State :=
  match (dieOf s d).op with
  | none => s
  | some o =>
    if o.left ≤ g.slot.len then stillBusy d g.entry { o with left := 0 } s
    else modDie d (fun y => { y with op := some { o with left := o.left - g.slot.len } }) s

/-- The erase that media management posts for a die (R336): the oldest of the class that comes next after the one served last, among the classes
whose block units wait there. -/
def nextErase (s : State) (d : Nat) : Option (Nat × Nat × Nat) :=
  let l := s.media.erases.filter (fun e => e.1 = d && !s.piers.ops.any (fun x => x.fn = 2 && x.die = d && x.block = e.2.1))
  let turn := fun (e : Nat × Nat × Nat) => (e.2.2 + 4096 - s.media.erCls - 1) % 4096
  l.foldl (fun m e => match m with | none => some e | some x => if turn e < turn x then some e else some x) none

/-- An erase slice of media management with nothing posted for it erases the block unit that comes next (R56, R336). -/
def eraseStart (g : Grant) (d : Nat) (s : State) : State :=
  if g.slot.typ ≠ 4 || g.slot.owner ≠ 0x100 || isLost s d then s
  else match nextErase s d with
    | none => s
    | some e =>
      let x : DieDesc := { fn := 2, die := d, block := e.2.1, owner := 0x100, row := some 0 }
      match (dieOf s d).op with
      | some o => stillBusy d g.entry o s
      | none => modMedia (fun u => { u with erCls := e.2.2 }) (issueOp x s)

/-- A program or erase slice starts: its planned operation is issued where the die is free and its data has arrived (R48, R75,
R391); Hold and the recovery deck start none (R202). DEDUCED, log entry 32. -/
def sliceStart (g : Grant) (d : Nat) (s : State) : State :=
  let fn := if g.slot.typ = 3 then 1 else 2
  if s.reel.deck = 0 || s.reel.deck = 0xE then s
  else match s.piers.ops.find? (fun x => x.fn = fn && waitsFor s g d x) with
    | none => eraseStart g d s
    | some x =>
      if isLost s d then outcomeItem { desc := x } (if fn = 1 then 9 else 11) (dropOp x s)
      else match (dieOf s d).op with
        | some o => stillBusy d g.entry o s
        | none => if dataHere s x then issueOp x (dropOp x s) else s

/-- Raw diagnostic reads and temperature reads wait for a housekeeping window of a die; in Hold only the latter use it (R203). -/
def houseWork (s : State) (g : Grant) (d : Nat) : List DieDesc :=
  s.piers.ops.filter (fun x => (x.fn = 3 || (x.fn = 4 && !inHold s)) && waitsFor s g d x)

/-- A raw diagnostic read is issued in its window (R389, R391): it belongs to no place. -/
def rawBooking (s : State) (g : Grant) (x : DieDesc) : Booking :=
  { desc := x, entry := g.entry, i := g.i, o := g.o, place := s.reel.tt.places.length, prec := { cipher := 0xFFFF }, at_ := s.reel.core
    unbound := true, issued := true }

/-- A housekeeping window starts on a die: a reset that the pier owes it is issued (R405), and the work that waits for the window is done. -/
def houseStart (g : Grant) (d : Nat) (s : State) : State :=
  if (dieOf s d).reset then modDie d (fun x => { x with resetting := true }) s
  else if houseWork s g d = [] then s
  else if dieBusy s d then overrun d 4 g.entry s
  else
    let l := (houseWork s g d).filter (fun x => x.fn = 4)
    let bs := l.map (rawBooking s g)
    let s := if (houseWork s g d).any (fun x => x.fn = 3) then modDie d (fun x => { x with reading := true }) s else s
    (modPiers (fun u => { u with booked := u.booked ++ bs, ops := u.ops.filter (fun x => !l.contains x) }) s)

/-- An entry reached the pier after the marker (R171): reads are posted again, a program or erase waits for the next slice of its
owner. DEDUCED, log entry 56. -/
def pierLate (g : Grant) (d : Nat) (s : State) : State :=
  let s := slotViolation 2 (d / 16) g.entry s
  if isWindow g.slot then repostOpen d false s
  else
    let move := fun (x : DieDesc) => if waitsFor s g d x then unnamed x else x
    (modPiers (fun u => { u with ops := u.ops.map move }) s)

/-- A slot of a die starts. -/
def dieStart (g : Grant) (late : Bool) (s : State) : State :=
  let d := grantRes g
  let t := g.slot.typ
  if late then pierLate g d s
  else if t = 1 || t = 2 then windowStart t d g.entry s
  else if t = 3 || t = 4 then sliceStart g d s
  else if t = 0xA then houseStart g d s
  else s

/-! ## A lane's, a bus's and a stack's slots (R117, R396, R468, R470–R476) -/

/-- The outcome of a program or erase reaches its spindle in its owner's slot `k` (R396): that of a row's program goes to the keystone (R339, R342),
another to PIN. Bytes 4, 8 and 9, and 10 and 11 of an item are its code, its die and its block unit (R393). -/
def giveOutcome (owner k : Nat) (s : State) (x : Nat × Nat × Option Nat × BitVec 256) : State :=
  let u := x.2.2.2
  match x.2.2.1 with
  | some r => rowOutcome r (ubytes u 4 1) (ubytes u 8 2) (ubytes u 10 2) s
  | none => deliver (ubytes u 8 2 / 16) k x.1 owner 0xFFFF 0 true [u] s

/-- The outcome items of the owner that a grant may carry, `ok`, are given in its slot `k` (R396). -/
def giveOutcomes (ok : Nat × Nat × Option Nat × BitVec 256 → Bool) (owner k : Nat) (s : State) : State :=
  let mine := fun (x : Nat × Nat × Option Nat × BitVec 256) => x.2.1 = owner && ok x
  let l := s.piers.outcomes.filter mine
  let s := modPiers (fun u => { u with outcomes := u.outcomes.filter (fun x => !mine x) }) s
  l.foldl (giveOutcome owner k) s

/-- The spindle whose PIN holds the units of a cipher slot's place. -/
def pinSpindle (s : State) (key : Nat) : Option Nat := (s.spindles.find? (fun e => e.2.pin.any (fun u => !u.outcome && u.cipher = key))).map (·.1)

/-- Soft-decoded items of the owner that are due are delivered in this cipher slot, the first of the owner on their spindle from then on (R402). -/
def dueSoft (g : Grant) (u : PinUnit) : Bool := !u.outcome && u.cipher = 0xFFFF && u.owner = g.slot.owner && decide (u.from_ ≤ g.since)

/-- A spindle that holds such an item. -/
def softSpindle (s : State) (g : Grant) : Option Nat := (s.spindles.find? (fun e => e.2.pin.any (dueSoft g))).map (·.1)

/-- A spindle for which a page of the owner has been reconstructed. -/
def formedSpindle (s : State) (g : Grant) : Option Nat :=
  (s.piers.items.find? (fun i => i.units ≠ [] && i.desc.owner = g.slot.owner)).map (·.desc.spindle)

/-- The same occurrence of the same slot. -/
def sameSlot (g x : Grant) : Bool := isGrant g.entry g.i g.o x && x.since = g.since

/-- The grant of a cipher slot is the spindle's whose place it carries, else the one's for which a soft-decoded item of the owner is due, else the
one's for which a page was reconstructed. -/
def bindCipher (g : Grant) (s : State) : State :=
  match pinSpindle s (slotKey g.entry g.i g.o) with
  | some n => bindGrant g n s
  | none =>
    match softSpindle s g with
    | none => match formedSpindle s g with | some n => bindGrant g n s | none => s
    | some n =>
      let key := slotKey g.entry g.i g.o
      let s := bindGrant g n (modSpn n (fun x => { x with pin := x.pin.map (fun u => if dueSoft g u then { u with cipher := key } else u) }) s)
      modReel (fun u => { u with grants := u.grants.map (fun x => if sameSlot g x then { x with pin := true } else x) }) s

/-- A repair window's work on a stack, and its pause notice, which crosses to CORE (R158, R470–R476): retraining in a window of 4,096
cycles or more, else the turn's refreshes. DESIGN CHOICE, log entry 136. -/
def repairStart (g : Grant) (window temp : BitVec 8) (s : State) : State :=
  let n := grantRes g
  let s := if drcRuns s n then (pushUnit 4 n g.entry 0 s).2 else s
  if !drcRuns s n then s else if 4096 ≤ g.slot.len then retrain n window temp s else repairTurn n s

/-- Work reached a lane, a stack or a port outside its slot (R171), or the sequencer saw a repair window's pause notice late (R473): a violation
there, and a slot's work, under a grant marked late, is not performed or not sent. DEDUCED, log entry 56. -/
def agentLate (g : Grant) (s : State) : State :=
  if g.slot.kind = 3 then slotViolation 3 (grantRes g) g.entry s
  else if g.slot.kind = 4 then slotViolation 4 (grantRes g / 16) g.entry s
  else if g.slot.kind = 7 then slotViolation 5 (grantRes g / 4) g.entry s
  else if g.slot.kind = 8 then slotViolation 4 (grantRes g) g.entry s
  else s

/-- Copies of a class on a spindle whose sources have all been read go on to their destinations (R307). -/
def runCopies (n owner : Nat) (s : State) : State :=
  (s.tables.cmds.filter (fun c => copyRead c && c.cls.toNat = owner && cmdSpindle s c = n)).foldl (fun s c => copyOn c s) s

/-- The commands of a class on a spindle whose abort mark was taken while they waited end with 07h (R310). -/
def endAborted (n owner : Nat) (s : State) : State :=
  (s.tables.cmds.filter (fun c => isDeferred c && !c.internal && c.cls.toNat = owner && cmdSpindle s c = n &&
    s.tables.marks.contains (c.conn, c.cid))).foldl (fun s c => failCmd c (status 0 7) s) s

/-- A parse issue slot begins: every command of the class that waits on the spindle has seen one more (R65), the reads in the class's
queue are posted again (R74), the records of the class are read (R420), write data that has come for the class is staged (R287), and the keystone deals with what its reads and its connections' losses left it (R82, R257, R307). A
faulted spindle's slot stays idle (R131). -/
def issueStart (g : Grant) (s : State) : State :=
  if (spn s (grantRes g)).state = 3 then s
  else
  let mine := fun (c : Cmd) => c.phase = .received && c.cls.toNat = g.slot.owner && cmdSpindle s c = grantRes g
  let s := putCmds (s.tables.cmds.map (fun c => if mine c then { c with slots := c.slots + 1 } else c)) s
  let s := endAborted (grantRes g) g.slot.owner (readRecords g.slot.owner s)
  let s := takeData (fun k => connClass s k.toNat = g.slot.owner) (grantRes g) (recordStart g.slot.owner s)
  runCopies (grantRes g) g.slot.owner (issueWork (grantRes g) g.slot.owner (postQueue g.slot.owner s))

/-- The spindle a grant is bound to now. -/
def boundSpindle (s : State) (g : Grant) : Option Nat :=
  (s.reel.grants.find? (fun x => isGrant g.entry g.i g.o x && x.since = g.since)).bind (·.spindle)

/-- The keystone's work on the items of a cipher slot's place, which is not done where the lane's work was late (R19, R171). -/
def cipherWork (g : Grant) (late : Bool) (s : State) : State :=
  match boundSpindle s g with
  | none => s
  | some n => if (spn s n).state = 3 then s else keystonePass n (slotKey g.entry g.i g.o) g.slot.owner late s

/-- A cipher slot is a grant of PIN (R117, R396, R402). -/
def pinGrant (s : State) (g : Grant) : Bool :=
  cipherPlace s g.entry || (s.reel.grants.any (fun x => sameSlot g x && x.pin))

/-- A cipher slot begins: the slot is bound to its spindle, whose outcomes are given where it is a grant of PIN (R396), and the keystone takes what
is there, opens TLS records (R250), and seals the rows of the class that wait (R339); not where that spindle has faulted (R131). DESIGN CHOICE, log entry 150. -/
def cipherStart (g : Grant) (late : Bool) (s : State) : State :=
  let s := bindCipher g (if late then s else recordStart g.slot.owner s)
  let n := boundSpindle s g
  let s := if pinGrant s g then giveOutcomes (fun x => x.2.2.1.isSome || n.isNone || n = some x.1) g.slot.owner g.entry s else s
  if late || n.any (fun k => (spn s k).state = 3) then s else sendRows g.entry g.slot.owner (cipherWork g false s)

/-- A transmit slot of a class begins on a path: an acknowledgment goes for each queue pair of the class there that owes one (R240). -/
def ackStart (g : Grant) (s : State) : State :=
  let due := fun (e : Nat × Conn) => e.2.isOpen && !e.2.tcp && decide (e.2.ackDue ≠ 0) && decide (e.2.sub.toNat = grantRes g) &&
    decide (connClass s e.1 = g.slot.owner)
  ((s.xpt.conns.filter due).map (·.1)).foldl (fun s k => devFrame (BitVec.ofNat 16 k) 4 (modConn k (fun c => { c with ackDue := 0 }) s)) s

/-- A slot begins; the resource of an unowned one stays idle (R56). -/
def beginSlot (g : Grant) (late : Bool) (window temp : BitVec 8) (s : State) : State :=
  let g := { g with late := late }
  let s := noteHouse g (modReel (fun u => { u with grants := u.grants ++ [g] }) s)
  let s := if late then agentLate g s else s
  let t := g.slot.typ
  if g.slot.owner = 0x1FF then s
  else if g.slot.kind = 1 then dieStart g late s
  else if t = 6 then cipherStart g late s
  else if t = 8 then issueStart g s
  else if t = 9 then poolStart (grantRes g) g.slot.owner (g.since + g.slot.len) s
  else if t = 5 && g.slot.kind = 7 then (if late then s else ackStart g s)
  else if t = 5 && g.slot.kind = 2 && !placeTransfer s g.entry then
    giveOutcomes (fun x => decide (ubytes x.2.2.2 8 2 / 1024 = grantRes g / 64)) g.slot.owner g.entry s
  else if t = 7 && grantRes g % 16 = 8 then (if late then s else serveControl (grantRes g / 16) s)
  else if t = 7 then (if late then s else serveStaged g.slot.owner s)
  else if t = 0xB then repairStart g window temp s
  else s

/-- The grant of a replica that has been issued early and is held (R20). -/
def earlyHeld (s : State) (k i o : Nat) : Option Grant := s.reel.early.find? (isGrant k i o)

/-- The early grant of a slot and the entries it took leave the crossing queue. -/
def takeEarly (e : SlotEntry) (k i o : Nat) (s : State) : State :=
  let n := ((earlyHeld s k i o).map (·.pushed)).getD 0
  let x := ((crossingOf e).map (·.1)).getD 0
  let c := crossingKey x (crossingNumber e (slotRes e i o))
  (modReel (fun u => { u with early := u.early.filter (fun y => !isGrant k i o y), xq := mmod 0 c (· - n) u.xq }) s)

/-! ## A slot's end (R70, R157, R252, R398) -/

/-- Drop a grant. -/
def dropGrant (g : Grant) (s : State) : State :=
  modReel (fun u => { u with grants := u.grants.filter (fun x => !sameSlot g x) }) s

/-- A cipher slot ends: the keystone has taken its place's items by then, and other unpopped units and what its lane holds are gone. DESIGN CHOICE,
log entry 25. -/
def cipherEnd (g : Grant) (s : State) : State :=
  let s := cipherWork g g.late s
  let key := slotKey g.entry g.i g.o
  let r := grantRes g
  let clear := fun (x : Spindle) => { x with
    pin := x.pin.filter (fun u => u.outcome || u.cipher ≠ key)
    cin := x.cin.bind (fun d => if d.lane = r then none else some d) }
  let s := { s with spindles := mmapv {} clear s.spindles }
  modLane r (fun x => { x with pipe := [], out := [], bad := none }) s

/-- Units still owed to DOUT are written as zeros, and the shortfall is a violation at the stack (R157). -/
def doutEnd (n r k : Nat) (s : State) : State :=
  match (spn s n).dout with
  | none => s
  | some d =>
    if d.lane ≠ r then s
    else
      let s := modSpn n (fun x => { x with dout := none }) s
      let s := if d.enc then closeFresh r (writeMem none d.addr (List.replicate (32 * d.left) 0) s) else s
      slotViolation 4 (r / 16) k s

/-- A DRAM port slot ends: units on DIN, and those the port still owes, are discarded. -/
def portEnd (g : Grant) (s : State) : State :=
  match g.spindle with
  | none => s
  | some n =>
    let r := grantRes g
    let s := modSpn n (fun x => { x with din := [], dreads := x.dreads.filter (fun q => q.port ≠ r) }) s
    doutEnd n r g.entry s

/-- A plane page sent in part is discarded (R398): a violation of the spindle, and its program waits for a later slice of its owner. -/
def poutEnd (g : Grant) (s : State) : State :=
  match g.spindle.bind (fun n => ((spn s n).pout).map (fun d => (n, d))) with
  | none => s
  | some (n, d) =>
    if d.lane ≠ grantRes g then s
    else
      let wl := fun (x : DieDesc) => ubytes d.desc 4 2 / (if bit x.flags 0 then 6 else 24)
      let move := fun (x : DieDesc) =>
        if x.fn = 1 && x.die = ubytes d.desc 0 2 && x.block = ubytes d.desc 2 2 && x.page = wl x then unnamed x else x
      let s := modSpn n (fun x => { x with pout := none }) s
      slotViolation 1 n g.entry (modPiers (fun u => { u with ops := u.ops.map move }) s)

/-- A frame left short is not sent (R252): a violation by the port. -/
def txfEnd (g : Grant) (s : State) : State :=
  match g.spindle.bind (fun n => ((spn s n).txf).map (fun d => (n, d))) with
  | none => s
  | some (n, d) =>
    if d.lane ≠ grantRes g then s
    else slotViolation 5 (grantRes g / 4) g.entry (modSpn n (fun x => { x with txf := none }) s)

/-- A slot ends. -/
def endSlot (g : Grant) (s : State) : State :=
  let t := g.slot.typ
  let s := if g.slot.kind = 1 then (if t = 3 || t = 4 then sliceEnd g (grantRes g) s else s)
    else if t = 6 then cipherEnd g s
    else if t = 7 && grantRes g % 16 = 8 then drainAll (grantRes g / 16) s
    else if t = 7 then portEnd g s
    else if t = 5 && g.slot.kind = 2 then poutEnd g s
    else if t = 5 && g.slot.kind = 7 then txfEnd g s
    else s
  dropGrant g s

/-- The clock reaches a grant's end, and the slot ends. -/
def slotEnd (g : Grant) (s : State) : State :=
  let s := settle (advanceTo (g.since + g.slot.len) s)
  match s.reel.grants.find? (sameSlot g) with
  | none => s
  | some h => endSlot h s

/-- SLOT_END (R157, R252, R398); `lost` is what a violation costs (R173, R324). -/
def execSlotEnd (k : BitVec 16) (i o : BitVec 12) (lost : List Loss) (s : State) : Out :=
  match grantHeld s k.toNat i.toNat o.toNat with
  | none => .next s
  | some g => .next (lossesOf lost (slotEnd g s))

/-- An earlier occurrence of a replica that has not been ended ends first. DEDUCED, log entry 57. -/
def endBefore (k i o : Nat) (s : State) : State :=
  match grantHeld s k i o with
  | none => s
  | some g => if g.since + g.slot.len ≤ s.reel.core then endSlot g s else s

/-- The resource a grant names is free: no slot that still runs holds it (R73, R152). A whole-stack slot holds each of its stack's ports. -/
def resFree (s : State) (g : Grant) : Bool :=
  !(s.reel.grants.any (fun x => grantRuns s x && !(isGrant g.entry g.i g.o x) &&
    ((x.slot.kind = g.slot.kind && grantRes x = grantRes g) ||
      (x.slot.kind = 8 && g.slot.kind = 4 && grantRes x = grantRes g / 16) ||
      (x.slot.kind = 4 && g.slot.kind = 8 && grantRes x / 16 = grantRes g))))

/-- The start that SLOT_START reaches: a slot of an outside agent begins at the start whose grant is held, or at the first one whose grant can
still be issued its maximum crossing window ahead (R20). DESIGN CHOICE, log entry 164. -/
def comingStart (s : State) (e : SlotEntry) (k i o : Nat) : Option Nat :=
  match crossingOf e with
  | none => nextBegin s e k i o
  | some (_, lead) =>
    match earlyHeld s k i o with
    | some g => if s.reel.core ≤ g.since + lead then some (g.since + lead) else startFrom s e i o (s.reel.core + lead)
    | none => startFrom s e i o (s.reel.core + lead)

/-- The grant of an outside agent's slot is issued exactly the maximum window before the slot's start, at `t` (R20): where EARLY_GRANT did not show
it, it is issued here in passing. -/
def ensureEarly (e : SlotEntry) (k i o t : Nat) (s : State) : State :=
  match crossingOf e with
  | none => s
  | some (x, lead) =>
    if (earlyHeld s k i o).any (fun g => g.since + lead = t) then s else grantEarly e k i o t false x (advanceTo (t - lead) s)

/-- SLOT_START (R20, R42, R45, R70, R73, R152, R171): the clock reaches the next start of replica (i, o) of slot entry k, and the slot
begins, unless a slot of the deck before still holds its resource. `late`: an entry of the slot reaches its agent after the marker; `window`
and `temp`: what a retraining finds; `lost`: what a violation costs (R173, R324). -/
def execSlotStart (k : BitVec 16) (i o : BitVec 12) (late : Bool) (window temp : BitVec 8) (lost : List Loss) (s : State) :
    Out :=
  match slotNamed s k.toNat i.toNat o.toNat with
  | none => .next s
  | some e =>
    match comingStart s e k.toNat i.toNat o.toNat with
    | none => .next s
    | some t =>
      let dk := s.reel.tt
      let s := ensureEarly e k.toNat i.toNat o.toNat t s
      let s := endBefore k.toNat i.toNat o.toNat (settle (advanceTo t s))
      let g : Grant := { slot := e, entry := k.toNat, i := i.toNat, o := o.toNat, since := t
                         spindle := if e.kind = 5 then some (slotRes e i.toNat o.toNat) else none }
      if s.reel.tt ≠ dk || s.reel.commitDue || s.reel.core ≠ t || mget false s.reel.ttBad k.toNat then .next s
      else
        let was := (earlyHeld s k.toNat i.toNat o.toNat).any (·.late)
        let s := takeEarly e k.toNat i.toNat o.toNat s
        if resFree s g then .next (lossesOf lost (beginSlot g (late || was) window temp s)) else .next s

end Sys2Proof.Machine
end

