-- ==== Sys2Proof/Machine/Start.lean ====
section
/-! DEFINITION. The first hank commit of an activated image (R199 step 6): the ports' configurations, the starting deck, the device
modes whose conditions still hold, the dies already lost, and the replay of a flush (R185, R218, R223, R353, R366, R635–R637). -/

namespace Sys2Proof.Machine

/-- A port takes the image's configuration (R185, R219): a changed one takes its links down (R263); each sub-port without a link starts
its bring-up (R200, R223). DEDUCED, log entry 63. -/
def startPort (im : Image) (s : State) (p : Nat) : State :=
  let m := mget 0 im.ports p
  let s := modPort p (fun x => if x.mode = m then x else { x with mode := m, chg := x.chg ||| x.up, up := 0, step := [] }) s
  (List.range (subPorts m)).foldl (fun s k => if bit (portOf s p).up k then s else startBringUp p k s) s

/-- The dies of the group layout that are lost already (R353, R385). -/
def lostInGroups (s : State) : List Nat := (diesInGroups s).filter (fun d => isLost s d && (blockOf s d 0).state ≠ 12)

/-- A die whose spares are gone and whose group has no skein to dissolve, in a group that met exhaustion (R363, R366). DEDUCED, log entry 60. -/
def stillExhausted (s : State) (g : Nat) : Bool :=
  (grpOf s g).exhausted && (groupDies s g).any (fun d => sparesOf s d = [] && (dissolveSkein g s).isNone)

/-- Exhaustion is looked for again on every die (R366). -/
def lookExhausted (s : State) : State :=
  let gs := List.range (imgGroups s).length
  let bad := gs.filter (stillExhausted s)
  let s := gs.foldl (fun s g => modGrp g (fun y => { y with exhausted := bad.contains g }) s) s
  (modReel (fun u => { u with condReadOnly := readOnlyPolicy s && decide (bad ≠ []) }) s)

/-- A device-entered mode whose condition holds is requested (R214, R218). DEDUCED, log entry 61. -/
def enterConditions (s : State) : State :=
  let n := nextDeviceMode s
  if n = s.reel.deck then s else deviceRequest n (n = 9) s

/-- A member whose program was interrupted is relocated, not retired (R637); with no spare the spare policy decides. DEDUCED, log entry 62. -/
def relocateResidual (s : State) (m : Nat × Nat) : State :=
  match getSpare m.1 s with
  | (some t, s) => startReloc m.1 m.2 3 (some t) s
  | (none, s) => exhaustion m.1 (zoneOfBlock s m.1 m.2) s

/-- The replay of a flush in force begins (R635–R637): the damaged ranges are reported, interrupted members relocated, and the
restored rows are staged data. -/
def replayFlush (damaged : List (BitVec 32 × BitVec 64 × BitVec 32)) (members : List (BitVec 11 × BitVec 11)) (s : State) : State :=
  if (flushInForce s).isNone then s
  else
    let s := damaged.foldl (fun s x => reportDamage x.1 x.2.1.toNat x.2.2.toNat s) s
    let s := members.foldl (fun s m => relocateResidual s (m.1.toNat, m.2.toNat)) s
    (modPwr (fun u => { u with replaying := true, replayRows := s.media.rows.length, replayMoved := members.length }) s)

/-- The mode the image starts in (R199): mode 10 from Quiesce, else its boot mode. -/
def startMode (im : Image) (s : State) : BitVec 4 := if s.store.fromQuiesce then 10 else im.bootMode

/-- The sequencer starts at a hank boundary, which is a hank commit (R199 step 6). DEDUCED, log entry 61. -/
def firstCommit (im : Image) (dk : Deck) (s : State) : State :=
  let m := startMode im s
  let old := s.reel.deck
  let s := modStore (fun u => { u with act := .none }) (modSys (fun u => { u with stage := 9 })
      (modPwr (fun u => { u with imageRan := true, recompute := true })
      (modReel (fun u => { u with run := true, turn := 0, cycle := 0, commitDue := false, startMode := m, ret := none }) s)))
  let s := enterDeck m dk (limitCommit s)
  let s := (List.range (nPorts s)).foldl (startPort im) s
  passCapsules (repin (commitRest old true s))

/-- ACTIVATION_FIRST_COMMIT (R199 step 6, R200, R366, R635–R637): `damaged` are the ranges (namespace, first LBA, blocks) that the
replay finds neither programmed nor restored, `members` the (die, block unit) pairs whose program was interrupted. -/
def execActivationFirstCommit (damaged : List (BitVec 32 × BitVec 64 × BitVec 32)) (members : List (BitVec 11 × BitVec 11))
    (s : State) : Out :=
  match s.store.act, s.store.running with
  | .stopped, some im =>
    match deckOf im (startMode im s) with
    | none => .next s
    | some dk =>
      let s := firstCommit im dk s
      let s := (lostInGroups s).foldl (fun s d => dieLost d s) (replaceBad s)
      let s := lookExhausted s
      let s := replayFlush damaged members s
      .next (turnBegin (enterConditions s))
  | _, _ => .next s

end Sys2Proof.Machine
end

