-- ==== Sys2Proof/Machine/Tilost.lean ====
section
/-! DEFINITION. Tilost sessions and the requests that have no other home: status, events, modes, registers, internal
commands, virtual controllers, keys and reset (R549–R555). -/

namespace Sys2Proof.Machine

/-! ## Sessions (R549–R551, R555) -/

/-- TILOST_SESSION_OPEN (R549, R550, R555): a connection whose TLS handshake succeeded with a host certificate of this hash
takes the lowest free session; a fifth one, or one not enrolled while the ring holds management hashes, is refused. DEDUCED, log entry 74. -/
def execTilostSessionOpen (cert : BitVec 384) (s : State) : Out :=
  let known := s.store.hashes.contains cert
  match (List.range 4).find? (fun n => !(sessOf s n).isOpen) with
  | none => .next (event 0x0172 [0, 1] s)
  | some n =>
    if !known && s.store.hashes ≠ [] then .next (event 0x0172 [0, 2] s)
    else .next (event 0x0170 [w32 n, bfld known 0] (modSess n (fun _ => { isOpen := true, enrolled := known }) s))

/-- The reason word of event 0x0171 (R555). -/
def closeReason (w : CloseWhy) : Nat := match w with | .host => 1 | .tls => 2 | .header => 3

/-- TILOST_SESSION_CLOSE (R551, R555). -/
def execTilostSessionClose (sess : BitVec 2) (w : CloseWhy) (s : State) : Out := .next (closeSession sess.toNat (closeReason w) s)

/-! ## Status, events, notifications (R552–R554) -/

/-- A 64-bit value as two words, the low one first (R551). -/
def twoWords (x : BitVec 64) : List (BitVec 32) := [lo32 x, hi32 x]

/-- What the status response says of a bank (R552): digest, security version and build identifier, or zeros. -/
def bankWords (b : Option Image) : List (BitVec 32) :=
  match b with
  | none => List.replicate 11 0
  | some im => twoWords im.digest ++ [im.secver.setWidth 32] ++ (List.range 8).map (fun k => (im.build >>> (32 * k)).setWidth 32)

/-- The registers of the status response, by their offsets in control space (R552). DEDUCED, log entry 75. -/
def statusOffsets : List Nat :=
  [0x0, 0x8, 0xC, 0x100000, 0x100030, 0x60000, 0x10000, 0x10004, 0x80000, 0x2200008, 0x70000, 0x70004]

/-- The payload of the status response (R552, R179). DEDUCED, log entry 75. -/
def statusWords (s : State) : List (BitVec 32) :=
  statusOffsets.map (fun o => regWord o s) ++
  [s.store.recBank.setWidth 32] ++ twoWords s.store.recDig ++ [s.store.floor.setWidth 32] ++
  bankWords s.store.bank1 ++ bankWords s.store.bank2

/-- STATUS (R552 0x0001). -/
def execStatus (sess : BitVec 2) (ident : BitVec 32) (s : State) : Out :=
  tilostRequest sess 0x0001 ident Served.any (fun s => tilostAnswer sess.toNat 0x0001 ident 0 (statusWords s) s) s

/-- EVENT_READ (R552 0x0002): records of the recorder's slots; EVR_RIDX stays. -/
def execEventRead (sess : BitVec 2) (ident first count : BitVec 32) (s : State) : Out :=
  tilostRequest sess 0x0002 ident Served.any (fun s =>
    if count = 0 || 1024 < count.toNat then tilostAnswer sess.toNat 0x0002 ident 2 [] s
    else tilostAnswer sess.toNat 0x0002 ident 0
      ((List.range count.toNat).flatMap (fun k => eventWords (evrSlot s (first.toNat + k)))) s) s

/-- EVENT_RELEASE (R552 0x0003, R574). -/
def execEventRelease (sess : BitVec 2) (ident x : BitVec 32) (s : State) : Out :=
  tilostRequest sess 0x0003 ident Served.enrolled (fun s =>
    if (s.evr.widx - x).toNat ≤ 65536 then tilostAnswer sess.toNat 0x0003 ident 0 [] (writeRidx x s)
    else tilostRefuse sess.toNat 0x0003 ident (writeRidx x s)) s

/-- SUBSCRIBE (R552 0x0004, R554). -/
def execSubscribe (sess : BitVec 2) (ident mask : BitVec 32) (s : State) : Out :=
  tilostRequest sess 0x0004 ident Served.any (fun s =>
    tilostAnswer sess.toNat 0x0004 ident 0 [] (modSess sess.toNat (fun x => { x with mask := mask }) s)) s

/-! ## Modes (R211–R215, R552) -/

/-- The mode request of a session: accepted, it is answered when its outcome is known; refused, at once. -/
def sessionMode (sess : Nat) (ident : BitVec 32) (m : BitVec 4) (s : State) : State :=
  let v := modeVerdict s m
  let s := mgmtRequest m (some (sess, ident)) (modReel (fun u => { u with modeReg := m }) s)
  if v = 1 then s else tilostAnswer sess 0x0020 ident 6 [v.setWidth 32] s

/-- MODE_REQUEST (R211–R215, R552 0x0020): mode 0–11, or 0xF to cancel. -/
def execModeRequest (sess : BitVec 2) (ident mode : BitVec 32) (s : State) : Out :=
  tilostRequest sess 0x0020 ident Served.enrolled (fun s =>
    if mode = 0xF then tilostAnswer sess.toNat 0x0020 ident 0 [0] (writeMode 0xF s)
    else if 11 < mode.toNat then tilostAnswer sess.toNat 0x0020 ident 2 [] s
    else sessionMode sess.toNat ident (mode.setWidth 4) s) (settle s)

/-! ## Registers (R11–R13, R208, R552) -/

/-- Consecutive supervisor reads from an address; none where one ends in a bus fault, with what the reads before it did. -/
def readRun : Nat → Nat → State → Option (List (BitVec 32)) × State
  | 0, _, s => (some [], s)
  | n + 1, a, s =>
    match ctlRead a s with
    | none => (none, s)
    | some (v, s) =>
      let r := readRun n (a + 4) s
      (r.1.map (fun vs => v :: vs), r.2)

/-- Consecutive supervisor writes from an address, up to the first bus fault: whether all were made. -/
def writeRun : List (BitVec 32) → Nat → State → Bool × State
  | [], _, s => (true, s)
  | v :: vs, a, s =>
    match ctlWrite a v s with
    | none => (false, s)
    | some s => writeRun vs (a + 4) s

/-- REGISTER_READ (R552 0x0040). -/
def execRegisterRead (sess : BitVec 2) (ident : BitVec 32) (a : BitVec 64) (count : BitVec 32) (s : State) : Out :=
  tilostRequest sess 0x0040 ident Served.enrolled (fun s =>
    if count = 0 || 64 < count.toNat then tilostAnswer sess.toNat 0x0040 ident 2 [] s
    else match readRun count.toNat a.toNat s with
      | (some vs, t) => tilostAnswer sess.toNat 0x0040 ident 0 vs t
      | (none, t) => tilostRefuse sess.toNat 0x0040 ident t) s

/-- REGISTER_WRITE (R208, R552 0x0041). -/
def execRegisterWrite (sess : BitVec 2) (ident : BitVec 32) (a : BitVec 64) (vs : List (BitVec 32)) (s : State) : Out :=
  tilostRequest sess 0x0041 ident Served.enrolled (fun s =>
    if vs.length = 0 || 64 < vs.length then tilostAnswer sess.toNat 0x0041 ident 2 [] s
    else match writeRun vs a.toNat s with
      | (true, t) => tilostAnswer sess.toNat 0x0041 ident 0 [] t
      | (false, t) => tilostRefuse sess.toNat 0x0041 ident t) (settle s)

/-! ## Internal commands, controllers, keys, reset (R311, R423, R430, R552, R622) -/

/-- INTERNAL_COMMAND (R311, R552 0x0050): the buffer is placed at TASK_BUF of set 63, which then runs the command. DEDUCED, log entry 77. -/
def execInternalCommand (sess : BitVec 2) (ident : BitVec 32) (q : BitVec 512) (buf : List (BitVec 8)) (s : State) : Out :=
  tilostRequest sess 0x0050 ident Served.enrolled (fun s =>
    let a := (taskOf s 63).buf.toNat
    if 1048512 < buf.length then tilostAnswer sess.toNat 0x0050 ident 2 [] s
    else if (taskOf s 63).state = 1 then tilostAnswer sess.toNat 0x0050 ident 4 [] s
    else
      let s := if inDram s a (max buf.length 1) then writeMem none a buf s else s
      let s := modTask 63 (fun x => { x with cmd := natWords q.toNat 16, chained := false }) s
      taskGo 63 (modMgmt (fun u => { u with reply := some (sess.toNat, ident, buf.length) }) s)) s

/-- VIRTUAL_CONTROLLER_OPERATION (R419, R422, R423, R552 0x0051): `rcd` holds bytes 0–63 of the record, which Create writes at
the address in VCT_REC, and `nqn` the controller's entry of the NQN table. DEDUCED, log entry 76. -/
def execVirtualControllerOperation (sess : BitVec 2) (ident : BitVec 32) (op : BitVec 4) (cls : BitVec 8) (index : BitVec 12)
    (rcd : BitVec 512) (nqn : BitVec 4096) (s : State) : Out :=
  tilostRequest sess 0x0051 ident Served.enrolled (fun s =>
    let s := modVct (fun u => { u with idx := index }) s
    let s := if op ≠ 1 then s else
      let s := if inDram s s.vct.recReg.toNat 64 then writeMem none s.vct.recReg.toNat (leBytes 64 rcd.toNat) s else s
      (modVct (fun u => { u with nqn := mset 0 index.toNat nqn u.nqn }) s)
    let s := vctGo op cls s
    tilostAnswer sess.toNat 0x0051 ident (if s.vct.result = 0 then 0 else 6) [s.vct.result.setWidth 32] s) (settle s)

/-- KEY_OPERATION (R430, R552 0x0052): any operation but Load, which would carry a key in plain form; Wrap answers the wrapped
key too. DEDUCED, log entry 76. -/
def execKeyOperation (sess : BitVec 2) (ident : BitVec 32) (op use : BitVec 4) (limit : BitVec 6) (slot : BitVec 14)
    (vc : BitVec 12) (dst : BitVec 14) (wrapped : BitVec 320) (s : State) : Out :=
  tilostRequest sess 0x0052 ident Served.enrolled (fun s =>
    if op = 1 then tilostAnswer sess.toNat 0x0052 ident 2 [] s
    else
      let s := modCiph (fun u => { u with ksel := slot, kvc := vc, kdst := dst, kwrap := natWords wrapped.toNat 10 }) s
      let s := keyGo op use limit s
      let pay := s.ciph.result.setWidth 32 :: (if op = 6 && s.ciph.result = 0 then
        (List.range 10).map (fun k => mget 0 s.ciph.kwrap k) else [])
      tilostAnswer sess.toNat 0x0052 ident (if s.ciph.result = 0 then 0 else 6) pay s) (settle s)

/-- DEVICE_RESET (R552 0x0060, R622): a software reset once the response has been sent. -/
def execDeviceReset (sess : BitVec 2) (ident : BitVec 32) (s : State) : Out :=
  tilostRequest sess 0x0060 ident Served.enrolled (fun s =>
    softwareReset 0x52535431 (tilostAnswer sess.toNat 0x0060 ident 0 [] s)) s

/-- The types of the requests and of the notifications (R552, R554). -/
def tilostTypes : List (BitVec 16) :=
  [0x0001, 0x0002, 0x0003, 0x0004, 0x0010, 0x0011, 0x0012, 0x0013, 0x0014, 0x0020, 0x0021, 0x0030, 0x0031, 0x0032, 0x0033,
   0x0040, 0x0041, 0x0050, 0x0051, 0x0052, 0x0060, 0x0061, 0x8001, 0x8002, 0x8003, 0x8004, 0x8005]

/-- UNKNOWN_REQUEST_TYPE (R553): status 5. DEDUCED, log entry 73. -/
def execUnknownRequestType (sess : BitVec 2) (ident : BitVec 32) (typ : BitVec 16) (s : State) : Out :=
  if tilostTypes.contains typ then .next s
  else tilostRequest sess typ ident Served.any (fun s => tilostAnswer sess.toNat typ ident 5 [] s) s

end Sys2Proof.Machine
end

