-- ==== Sys2Proof/Machine/Dispatch.lean ====
section
/-! DEFINITION. What each command does: one arm for each constructor of Instr, each a direct call of its meaning. -/

namespace Sys2Proof.Machine

/-- The effect of a command on everything but the queue. -/
def exec (i : Instr) (s : State) : Host.Outcome State Fault Refusal :=
  match i with
  | .turnBoundary => Sys2Proof.Machine.execTurnBoundary s
  | .hankCommit => Sys2Proof.Machine.execHankCommit s
  | .earlyGrant k imm o late ecc => Sys2Proof.Machine.execEarlyGrant k imm o late ecc s
  | .slotStart k imm o late window temp lost => Sys2Proof.Machine.execSlotStart k imm o late window temp lost s
  | .slotEnd k imm o lost => Sys2Proof.Machine.execSlotEnd k imm o lost s
  | .suspendComplete d inTime fits => Sys2Proof.Machine.execSuspendComplete d inTime fits s
  | .senseComplete d late => Sys2Proof.Machine.execSenseComplete d late s
  | .instructionResult e => Sys2Proof.Machine.execInstructionResult e s
  | .nop x => Sys2Proof.Machine.execNop x s
  | .add x d a b => Sys2Proof.Machine.execAdd x d a b s
  | .sub x d a b => Sys2Proof.Machine.execSub x d a b s
  | .andOp x d a b => Sys2Proof.Machine.execAnd x d a b s
  | .orOp x d a b => Sys2Proof.Machine.execOr x d a b s
  | .xorOp x d a b => Sys2Proof.Machine.execXor x d a b s
  | .shl x d a b => Sys2Proof.Machine.execShl x d a b s
  | .shr x d a b => Sys2Proof.Machine.execShr x d a b s
  | .sar x d a b => Sys2Proof.Machine.execSar x d a b s
  | .mul x d a b => Sys2Proof.Machine.execMul x d a b s
  | .mulhu x d a b => Sys2Proof.Machine.execMulhu x d a b s
  | .clz x d a => Sys2Proof.Machine.execClz x d a s
  | .popc x d a => Sys2Proof.Machine.execPopc x d a s
  | .bswap x d a fn => Sys2Proof.Machine.execBswap x d a fn s
  | .sel x d a b fn => Sys2Proof.Machine.execSel x d a b fn s
  | .addi x d a imm => Sys2Proof.Machine.execAddi x d a imm s
  | .andi x d a imm => Sys2Proof.Machine.execAndi x d a imm s
  | .ori x d a imm => Sys2Proof.Machine.execOri x d a imm s
  | .xori x d a imm => Sys2Proof.Machine.execXori x d a imm s
  | .shli x d a imm => Sys2Proof.Machine.execShli x d a imm s
  | .shri x d a imm => Sys2Proof.Machine.execShri x d a imm s
  | .sari x d a imm => Sys2Proof.Machine.execSari x d a imm s
  | .movi x d imm => Sys2Proof.Machine.execMovi x d imm s
  | .movs x d imm => Sys2Proof.Machine.execMovs x d imm s
  | .cmpeq x d a b => Sys2Proof.Machine.execCmpeq x d a b s
  | .cmpne x d a b => Sys2Proof.Machine.execCmpne x d a b s
  | .cmplt x d a b => Sys2Proof.Machine.execCmplt x d a b s
  | .cmpltu x d a b => Sys2Proof.Machine.execCmpltu x d a b s
  | .cmpge x d a b => Sys2Proof.Machine.execCmpge x d a b s
  | .cmpgeu x d a b => Sys2Proof.Machine.execCmpgeu x d a b s
  | .cmpeqi x d a imm => Sys2Proof.Machine.execCmpeqi x d a imm s
  | .cmplti x d a imm => Sys2Proof.Machine.execCmplti x d a imm s
  | .cmpltui x d a imm => Sys2Proof.Machine.execCmpltui x d a imm s
  | .plog x d a b fn => Sys2Proof.Machine.execPlog x d a b fn s
  | .ldb x d a imm => Sys2Proof.Machine.execLdb x d a imm s
  | .ldh x d a imm => Sys2Proof.Machine.execLdh x d a imm s
  | .ldw x d a imm => Sys2Proof.Machine.execLdw x d a imm s
  | .ldd x d a imm => Sys2Proof.Machine.execLdd x d a imm s
  | .stb x d a imm => Sys2Proof.Machine.execStb x d a imm s
  | .sth x d a imm => Sys2Proof.Machine.execSth x d a imm s
  | .stw x d a imm => Sys2Proof.Machine.execStw x d a imm s
  | .std x d a imm => Sys2Proof.Machine.execStd x d a imm s
  | .vld x v a imm => Sys2Proof.Machine.execVld x v a imm s
  | .vst x v a imm => Sys2Proof.Machine.execVst x v a imm s
  | .vxacc x v a imm => Sys2Proof.Machine.execVxacc x v a imm s
  | .ldl x d a imm => Sys2Proof.Machine.execLdl x d a imm s
  | .stc x d a b fn => Sys2Proof.Machine.execStc x d a b fn s
  | .vlog x d a b k fn => Sys2Proof.Machine.execVlog x d a b k fn s
  | .vadd x d a b fn => Sys2Proof.Machine.execVadd x d a b fn s
  | .vshuf x d a b k fn => Sys2Proof.Machine.execVshuf x d a b k fn s
  | .vbrev x d a fn => Sys2Proof.Machine.execVbrev x d a fn s
  | .vclmul x d a b fn => Sys2Proof.Machine.execVclmul x d a b fn s
  | .vgfmul x d a b fn => Sys2Proof.Machine.execVgfmul x d a b fn s
  | .vgfx x d a fn => Sys2Proof.Machine.execVgfx x d a fn s
  | .vmovg x v g ln => Sys2Proof.Machine.execVmovg x v g ln s
  | .vinsg x v g ln => Sys2Proof.Machine.execVinsg x v g ln s
  | .vsplat x v g => Sys2Proof.Machine.execVsplat x v g s
  | .spush x v port pq lost => Sys2Proof.Machine.execSpush x v port pq lost s
  | .spop x v port pq lost => Sys2Proof.Machine.execSpop x v port pq lost s
  | .sstatReady x g port => Sys2Proof.Machine.execSstatReady x g port s
  | .sstatRoom x g port => Sys2Proof.Machine.execSstatRoom x g port s
  | .postRead x v pq => Sys2Proof.Machine.execPostRead x v pq s
  | .postProgram x v pq => Sys2Proof.Machine.execPostProgram x v pq s
  | .postErase x v pq => Sys2Proof.Machine.execPostErase x v pq s
  | .postTemperatureRead x v pq => Sys2Proof.Machine.execPostTemperatureRead x v pq s
  | .postRawDiagnosticRead x v pq => Sys2Proof.Machine.execPostRawDiagnosticRead x v pq s
  | .lockAcquire x v pq copies => Sys2Proof.Machine.execLockAcquire x v pq copies s
  | .lockRelease x v pq => Sys2Proof.Machine.execLockRelease x v pq s
  | .abortMark x v pq => Sys2Proof.Machine.execAbortMark x v pq s
  | .lockResult n => Sys2Proof.Machine.execLockResult n s
  | .lockGrant => Sys2Proof.Machine.execLockGrant s
  | .cinEncrypt x v pq lost => Sys2Proof.Machine.execCinEncrypt x v pq lost s
  | .cinDecrypt x v pq lost => Sys2Proof.Machine.execCinDecrypt x v pq lost s
  | .cipherUnitReady k differ => Sys2Proof.Machine.execCipherUnitReady k differ s
  | .dcmdRead x v pq lost => Sys2Proof.Machine.execDcmdRead x v pq lost s
  | .dcmdWrite x v pq lost => Sys2Proof.Machine.execDcmdWrite x v pq lost s
  | .dramReadUnitReady n ecc => Sys2Proof.Machine.execDramReadUnitReady n ecc s
  | .txfRocev2Packet x v pq lost => Sys2Proof.Machine.execTxfRocev2Packet x v pq lost s
  | .txfTcpSegment x v pq lost => Sys2Proof.Machine.execTxfTcpSegment x v pq lost s
  | .txfDeviceFrame x v pq lost => Sys2Proof.Machine.execTxfDeviceFrame x v pq lost s
  | .frameTransmit path => Sys2Proof.Machine.execFrameTransmit path s
  | .poutPlanePage x v pq lost => Sys2Proof.Machine.execPoutPlanePage x v pq lost s
  | .eventEntry n => Sys2Proof.Machine.execEventEntry n s
  | .br x off => Sys2Proof.Machine.execBr x off s
  | .brl x off => Sys2Proof.Machine.execBrl x off s
  | .bri x a => Sys2Proof.Machine.execBri x a s
  | .endOp x => Sys2Proof.Machine.execEnd x s
  | .mfsr x d sn => Sys2Proof.Machine.execMfsr x d sn s
  | .mtsr x sn a => Sys2Proof.Machine.execMtsr x sn a s
  | .sysc x sn => Sys2Proof.Machine.execSysc x sn s
  | .rft x => Sys2Proof.Machine.execRft x s
  | .cacheFence x a => Sys2Proof.Machine.execCacheFence x a s
  | .cacheInvalidateIcache x a => Sys2Proof.Machine.execCacheInvalidateIcache x a s
  | .cacheClean x a => Sys2Proof.Machine.execCacheClean x a s
  | .cacheCleanInvalidate x a => Sys2Proof.Machine.execCacheCleanInvalidate x a s
  | .cacheInvalidateLine x a => Sys2Proof.Machine.execCacheInvalidateLine x a s
  | .cacheInvalidateIline x a => Sys2Proof.Machine.execCacheInvalidateIline x a s
  | .interruptTaken n => Sys2Proof.Machine.execInterruptTaken n s
  | .coreWake n => Sys2Proof.Machine.execCoreWake n s
  | .spindleRestartRequest n => Sys2Proof.Machine.execSpindleRestartRequest n s
  | .controlRegisterWrite a v => Sys2Proof.Machine.execControlRegisterWrite a v s
  | .highWordLatch a => Sys2Proof.Machine.execHighWordLatch a s
  | .checkerVerdict stored => Sys2Proof.Machine.execCheckerVerdict stored s
  | .reelModeRequest m => Sys2Proof.Machine.execReelModeRequest m s
  | .reelModeCancel => Sys2Proof.Machine.execReelModeCancel s
  | .reelHoldRequest => Sys2Proof.Machine.execReelHoldRequest s
  | .sequencerStop poisoned => Sys2Proof.Machine.execSequencerStop poisoned s
  | .activationFirstCommit damaged members => Sys2Proof.Machine.execActivationFirstCommit damaged members s
  | .acknowledgmentTimeout conn => Sys2Proof.Machine.execAcknowledgmentTimeout conn s
  | .receiverLock p k => Sys2Proof.Machine.execReceiverLock p k s
  | .pmdTrainingComplete p k => Sys2Proof.Machine.execPmdTrainingComplete p k s
  | .pcsLock p k inverted reversed => Sys2Proof.Machine.execPcsLock p k inverted reversed s
  | .fecLock p k faults => Sys2Proof.Machine.execFecLock p k faults s
  | .transmitLaneReversal p k => Sys2Proof.Machine.execTransmitLaneReversal p k s
  | .bringUpStepTimeout p k => Sys2Proof.Machine.execBringUpStepTimeout p k s
  | .linkLost p k cause unc => Sys2Proof.Machine.execLinkLost p k cause unc s
  | .frameReceive p k head len tags vid pause bad cacheBad corr unc => Sys2Proof.Machine.execFrameReceive p k head len tags vid pause bad cacheBad corr unc s
  | .connectionEntryFill conn poisoned => Sys2Proof.Machine.execConnectionEntryFill conn poisoned s
  | .roceSend conn op q data ecn => Sys2Proof.Machine.execRoceSend conn op q data ecn s
  | .rdmaReadResponse conn cid op data ecn => Sys2Proof.Machine.execRdmaReadResponse conn cid op data ecn s
  | .acknowledge conn seq nak ecn => Sys2Proof.Machine.execAcknowledge conn seq nak ecn s
  | .cnpReceive conn => Sys2Proof.Machine.execCnpReceive conn s
  | .remoteAccessRequest conn => Sys2Proof.Machine.execRemoteAccessRequest conn s
  | .communicationManagementDatagram sub conn peer far mtu ready => Sys2Proof.Machine.execCommunicationManagementDatagram sub conn peer far mtu ready s
  | .localAckTimeout conn => Sys2Proof.Machine.execLocalAckTimeout conn s
  | .icreq conn pfv hpda maxr2t hdgst ddgst => Sys2Proof.Machine.execIcreq conn pfv hpda maxr2t hdgst ddgst s
  | .capsuleCmd conn typ q data hdBad ddBad => Sys2Proof.Machine.execCapsuleCmd conn typ q data hdBad ddBad s
  | .h2cData conn cid off data hdBad ddBad => Sys2Proof.Machine.execH2cData conn cid off data hdBad ddBad s
  | .h2cTermReq conn => Sys2Proof.Machine.execH2cTermReq conn s
  | .tcpSegment sub conn peer far port syn fin rst data ack window opts => Sys2Proof.Machine.execTcpSegment sub conn peer far port syn fin rst data ack window opts s
  | .tcpRetransmissionTimeout conn => Sys2Proof.Machine.execTcpRetransmissionTimeout conn s
  | .pathMtuMessage conn mtu => Sys2Proof.Machine.execPathMtuMessage conn mtu s
  | .tlsHandshakeRecord conn hello => Sys2Proof.Machine.execTlsHandshakeRecord conn hello s
  | .tlsHandshakeComplete conn kTx kRx ivTx ivRx => Sys2Proof.Machine.execTlsHandshakeComplete conn kTx kRx ivTx ivRx s
  | .tlsRecord conn rec_ => Sys2Proof.Machine.execTlsRecord conn rec_ s
  | .keyUpdate conn installed iv => Sys2Proof.Machine.execKeyUpdate conn installed iv s
  | .keyUpdateSend conn iv => Sys2Proof.Machine.execKeyUpdateSend conn iv s
  | .arpRequest path ip mac far => Sys2Proof.Machine.execArpRequest path ip mac far s
  | .neighborSolicitation path ip mac far => Sys2Proof.Machine.execNeighborSolicitation path ip mac far s
  | .echoRequest path v6 ip far mac body => Sys2Proof.Machine.execEchoRequest path v6 ip far mac body s
  | .ptpMessage path isEvent => Sys2Proof.Machine.execPtpMessage path isEvent s
  | .counterClear p k n => Sys2Proof.Machine.execCounterClear p k n s
  | .transmitTimestampRead p => Sys2Proof.Machine.execTransmitTimestampRead p s
  | .completionPosted n => Sys2Proof.Machine.execCompletionPosted n s
  | .read conn cid ranges sglBad => Sys2Proof.Machine.execRead conn cid ranges sglBad s
  | .write conn cid ranges inCap sglBad => Sys2Proof.Machine.execWrite conn cid ranges inCap sglBad s
  | .writeZeroes conn cid => Sys2Proof.Machine.execWriteZeroes conn cid s
  | .flush conn cid => Sys2Proof.Machine.execFlush conn cid s
  | .verify conn cid => Sys2Proof.Machine.execVerify conn cid s
  | .copy conn cid srcs => Sys2Proof.Machine.execCopy conn cid srcs s
  | .zoneAppend conn cid ranges inCap sglBad => Sys2Proof.Machine.execZoneAppend conn cid ranges inCap sglBad s
  | .zoneOpen conn cid => Sys2Proof.Machine.execZoneOpen conn cid s
  | .zoneClose conn cid => Sys2Proof.Machine.execZoneClose conn cid s
  | .zoneFinish conn cid => Sys2Proof.Machine.execZoneFinish conn cid s
  | .zoneReset conn cid => Sys2Proof.Machine.execZoneReset conn cid s
  | .zoneOffline conn cid => Sys2Proof.Machine.execZoneOffline conn cid s
  | .zoneManagementReceive conn cid => Sys2Proof.Machine.execZoneManagementReceive conn cid s
  | .ioManagementReceive conn cid => Sys2Proof.Machine.execIoManagementReceive conn cid s
  | .ioManagementSend conn cid handles => Sys2Proof.Machine.execIoManagementSend conn cid handles s
  | .getLogPage conn cid => Sys2Proof.Machine.execGetLogPage conn cid s
  | .identify conn cid => Sys2Proof.Machine.execIdentify conn cid s
  | .abort conn cid => Sys2Proof.Machine.execAbort conn cid s
  | .setFeatures conn cid => Sys2Proof.Machine.execSetFeatures conn cid s
  | .getFeatures conn cid => Sys2Proof.Machine.execGetFeatures conn cid s
  | .asynchronousEventRequest conn cid => Sys2Proof.Machine.execAsynchronousEventRequest conn cid s
  | .keepAlive conn cid => Sys2Proof.Machine.execKeepAlive conn cid s
  | .keepAliveTimeout v => Sys2Proof.Machine.execKeepAliveTimeout v s
  | .sanitize conn cid => Sys2Proof.Machine.execSanitize conn cid s
  | .sanitizeSweepEnd => Sys2Proof.Machine.execSanitizeSweepEnd s
  | .fabricsConnect conn cid nqn cntlid => Sys2Proof.Machine.execFabricsConnect conn cid nqn cntlid s
  | .propertySet conn cid => Sys2Proof.Machine.execPropertySet conn cid s
  | .propertyGet conn cid => Sys2Proof.Machine.execPropertyGet conn cid s
  | .fabricsDisconnect conn cid => Sys2Proof.Machine.execFabricsDisconnect conn cid s
  | .deferredCommandRetry cls => Sys2Proof.Machine.execDeferredCommandRetry cls s
  | .orderedCommandRelease conn cid => Sys2Proof.Machine.execOrderedCommandRelease conn cid s
  | .namespaceCreate k => Sys2Proof.Machine.execNamespaceCreate k s
  | .namespaceDelete k => Sys2Proof.Machine.execNamespaceDelete k s
  | .namespaceAttach k => Sys2Proof.Machine.execNamespaceAttach k s
  | .namespaceDetach k => Sys2Proof.Machine.execNamespaceDetach k s
  | .internalSanitize k => Sys2Proof.Machine.execInternalSanitize k s
  | .internalGetLogPage k => Sys2Proof.Machine.execInternalGetLogPage k s
  | .taskGo k chain => Sys2Proof.Machine.execTaskGo k chain s
  | .taskCancel k => Sys2Proof.Machine.execTaskCancel k s
  | .taskCommandComplete k => Sys2Proof.Machine.execTaskCommandComplete k s
  | .taskDoneClear k => Sys2Proof.Machine.execTaskDoneClear k s
  | .eraseComplete d ok => Sys2Proof.Machine.execEraseComplete d ok s
  | .programComplete d ok => Sys2Proof.Machine.execProgramComplete d ok s
  | .hardDecodeComplete d plane ok errs => Sys2Proof.Machine.execHardDecodeComplete d plane ok errs s
  | .softDecodeComplete d plane ok errs => Sys2Proof.Machine.execSoftDecodeComplete d plane ok errs s
  | .temperatureReadComplete d t => Sys2Proof.Machine.execTemperatureReadComplete d t s
  | .dieReadyTimeout d => Sys2Proof.Machine.execDieReadyTimeout d s
  | .dieResetComplete d result => Sys2Proof.Machine.execDieResetComplete d result s
  | .dieIdCheck d ident => Sys2Proof.Machine.execDieIdCheck d ident s
  | .busTimeout c => Sys2Proof.Machine.execBusTimeout c s
  | .bringUpStart c => Sys2Proof.Machine.execBringUpStart c s
  | .pinTestComplete c kind a b => Sys2Proof.Machine.execPinTestComplete c kind a b s
  | .targetIdentificationComplete c found differ invalid ext toggle ident fig bad => Sys2Proof.Machine.execTargetIdentificationComplete c found differ invalid ext toggle ident fig bad s
  | .trainingAttemptComplete c ok centres dqs re margin => Sys2Proof.Machine.execTrainingAttemptComplete c ok centres dqs re margin s
  | .channelFence c => Sys2Proof.Machine.execChannelFence c s
  | .deskewCheck c margin drift centres => Sys2Proof.Machine.execDeskewCheck c margin drift centres s
  | .poolFold g => Sys2Proof.Machine.execPoolFold g s
  | .reclaim n h => Sys2Proof.Machine.execReclaim n h s
  | .memberRelocation => Sys2Proof.Machine.execMemberRelocation s
  | .relocationCommit => Sys2Proof.Machine.execRelocationCommit s
  | .refreshAgeExpiry d b => Sys2Proof.Machine.execRefreshAgeExpiry d b s
  | .rebuildComplete => Sys2Proof.Machine.execRebuildComplete s
  | .tableCheckpoint => Sys2Proof.Machine.execTableCheckpoint s
  | .virtualControllerCreate cls => Sys2Proof.Machine.execVirtualControllerCreate cls s
  | .virtualControllerDelete => Sys2Proof.Machine.execVirtualControllerDelete s
  | .virtualControllerDeleted v => Sys2Proof.Machine.execVirtualControllerDeleted v s
  | .virtualControllerBind cls => Sys2Proof.Machine.execVirtualControllerBind cls s
  | .keyLoad use limit => Sys2Proof.Machine.execKeyLoad use limit s
  | .keyGenerate use limit => Sys2Proof.Machine.execKeyGenerate use limit s
  | .keyZeroize use limit => Sys2Proof.Machine.execKeyZeroize use limit s
  | .keyCopy use limit => Sys2Proof.Machine.execKeyCopy use limit s
  | .keyMove use limit => Sys2Proof.Machine.execKeyMove use limit s
  | .keyWrap use limit => Sys2Proof.Machine.execKeyWrap use limit s
  | .keyUnwrap use limit => Sys2Proof.Machine.execKeyUnwrap use limit s
  | .randomGeneratorFailure => Sys2Proof.Machine.execRandomGeneratorFailure s
  | .dirtyAcknowledgment v => Sys2Proof.Machine.execDirtyAcknowledgment v s
  | .refreshPeriodStart n => Sys2Proof.Machine.execRefreshPeriodStart n s
  | .selfTimedRepair n training window temp => Sys2Proof.Machine.execSelfTimedRepair n training window temp s
  | .controlPortRequest n code who off len data ecc => Sys2Proof.Machine.execControlPortRequest n code who off len data ecc s
  | .eccWriteBack n ecc => Sys2Proof.Machine.execEccWriteBack n ecc s
  | .mergeDrain n ecc => Sys2Proof.Machine.execMergeDrain n ecc s
  | .coreRun n => Sys2Proof.Machine.execCoreRun n s
  | .coreStop n => Sys2Proof.Machine.execCoreStop n s
  | .interruptLineChange k => Sys2Proof.Machine.execInterruptLineChange k s
  | .setPending w v => Sys2Proof.Machine.execSetPending w v s
  | .clearPending w v => Sys2Proof.Machine.execClearPending w v s
  | .claim t => Sys2Proof.Machine.execClaim t s
  | .interruptComplete t k => Sys2Proof.Machine.execInterruptComplete t k s
  | .holdOffEnd g => Sys2Proof.Machine.execHoldOffEnd g s
  | .watcherInput n asserted => Sys2Proof.Machine.execWatcherInput n asserted s
  | .watcherSoftwareInput v => Sys2Proof.Machine.execWatcherSoftwareInput v s
  | .watchdogKick n => Sys2Proof.Machine.execWatchdogKick n s
  | .watchdogExpiry n => Sys2Proof.Machine.execWatchdogExpiry n s
  | .dmaGo n chain => Sys2Proof.Machine.execDmaGo n chain s
  | .dmaCancel n => Sys2Proof.Machine.execDmaCancel n s
  | .dmaDescriptorComplete n => Sys2Proof.Machine.execDmaDescriptorComplete n s
  | .dmaErrorClear n => Sys2Proof.Machine.execDmaErrorClear n s
  | .bacProgramPage => Sys2Proof.Machine.execBacProgramPage s
  | .bacEraseSector => Sys2Proof.Machine.execBacEraseSector s
  | .bacEraseBank => Sys2Proof.Machine.execBacEraseBank s
  | .bacOperationComplete ok => Sys2Proof.Machine.execBacOperationComplete ok s
  | .tilostSessionOpen cert => Sys2Proof.Machine.execTilostSessionOpen cert s
  | .tilostSessionClose sess w => Sys2Proof.Machine.execTilostSessionClose sess w s
  | .status sess ident => Sys2Proof.Machine.execStatus sess ident s
  | .eventRead sess ident first count => Sys2Proof.Machine.execEventRead sess ident first count s
  | .eventRelease sess ident x => Sys2Proof.Machine.execEventRelease sess ident x s
  | .subscribe sess ident mask => Sys2Proof.Machine.execSubscribe sess ident mask s
  | .imageLoadBegin sess ident len => Sys2Proof.Machine.execImageLoadBegin sess ident len s
  | .imageData sess ident off bytes => Sys2Proof.Machine.execImageData sess ident off bytes s
  | .imageLoadEnd sess ident x => Sys2Proof.Machine.execImageLoadEnd sess ident x s
  | .activate sess ident => Sys2Proof.Machine.execActivate sess ident s
  | .raiseFloor sess ident v => Sys2Proof.Machine.execRaiseFloor sess ident v s
  | .modeRequest sess ident mode => Sys2Proof.Machine.execModeRequest sess ident mode s
  | .spanSwitch sess ident mode t => Sys2Proof.Machine.execSpanSwitch sess ident mode t s
  | .spanSwitchTime => Sys2Proof.Machine.execSpanSwitchTime s
  | .keyRingRecord sess ident op signer signed r sg => Sys2Proof.Machine.execKeyRingRecord sess ident op signer signed r sg s
  | .boardDescription sess ident ws => Sys2Proof.Machine.execBoardDescription sess ident ws s
  | .spanConfigurationRecord sess ident r => Sys2Proof.Machine.execSpanConfigurationRecord sess ident r s
  | .clearRecords sess ident => Sys2Proof.Machine.execClearRecords sess ident s
  | .registerRead sess ident a count => Sys2Proof.Machine.execRegisterRead sess ident a count s
  | .registerWrite sess ident a vs => Sys2Proof.Machine.execRegisterWrite sess ident a vs s
  | .internalCommand sess ident q buf => Sys2Proof.Machine.execInternalCommand sess ident q buf s
  | .virtualControllerOperation sess ident op cls index rcd nqn => Sys2Proof.Machine.execVirtualControllerOperation sess ident op cls index rcd nqn s
  | .keyOperation sess ident op use limit slot vc dst wrapped => Sys2Proof.Machine.execKeyOperation sess ident op use limit slot vc dst wrapped s
  | .deviceReset sess ident => Sys2Proof.Machine.execDeviceReset sess ident s
  | .discardFlush sess ident seq => Sys2Proof.Machine.execDiscardFlush sess ident seq s
  | .escalationWindowEnd g => Sys2Proof.Machine.execEscalationWindowEnd g s
  | .reactionDeadline => Sys2Proof.Machine.execReactionDeadline s
  | .reactionAck firmware => Sys2Proof.Machine.execReactionAck firmware s
  | .reactionsEnable => Sys2Proof.Machine.execReactionsEnable s
  | .groupClear g => Sys2Proof.Machine.execGroupClear g s
  | .faultInject c g => Sys2Proof.Machine.execFaultInject c g s
  | .faultNReadBack high => Sys2Proof.Machine.execFaultNReadBack high s
  | .thermNReadBack high => Sys2Proof.Machine.execThermNReadBack high s
  | .recordWrite full => Sys2Proof.Machine.execRecordWrite full s
  | .readIndexWrite x => Sys2Proof.Machine.execReadIndexWrite x s
  | .sensorSample n r => Sys2Proof.Machine.execSensorSample n r s
  | .throttlingEnd => Sys2Proof.Machine.execThrottlingEnd s
  | .flashTemperatureRound => Sys2Proof.Machine.execFlashTemperatureRound s
  | .temperatureAgeExpiry d => Sys2Proof.Machine.execTemperatureAgeExpiry d s
  | .comparatorTrip n => Sys2Proof.Machine.execComparatorTrip n s
  | .thermalRestart => Sys2Proof.Machine.execThermalRestart s
  | .heartbeat late => Sys2Proof.Machine.execHeartbeat late s
  | .heartbeatReceive b known => Sys2Proof.Machine.execHeartbeatReceive b known s
  | .spanFence => Sys2Proof.Machine.execSpanFence s
  | .unfence => Sys2Proof.Machine.execUnfence s
  | .syncMessage ofs base => Sys2Proof.Machine.execSyncMessage ofs base s
  | .syncTimeout => Sys2Proof.Machine.execSyncTimeout s
  | .syncPulseDrive => Sys2Proof.Machine.execSyncPulseDrive s
  | .syncPulse err ns => Sys2Proof.Machine.execSyncPulse err ns s
  | .directoryProposal nsid ent => Sys2Proof.Machine.execDirectoryProposal nsid ent s
  | .directoryAcknowledge m => Sys2Proof.Machine.execDirectoryAcknowledge m s
  | .directoryTimeout => Sys2Proof.Machine.execDirectoryTimeout s
  | .powerUp => Sys2Proof.Machine.execPowerUp s
  | .vinLow mv => Sys2Proof.Machine.execVinLow mv s
  | .internalPowerFail mv => Sys2Proof.Machine.execInternalPowerFail mv s
  | .brownOut => Sys2Proof.Machine.execBrownOut s
  | .railOutOfRegulation rail mv => Sys2Proof.Machine.execRailOutOfRegulation rail mv s
  | .referenceClockCheck bad => Sys2Proof.Machine.execReferenceClockCheck bad s
  | .statusFrame => Sys2Proof.Machine.execStatusFrame s
  | .bootStageComplete b => Sys2Proof.Machine.execBootStageComplete b s
  | .bootRetry => Sys2Proof.Machine.execBootRetry s
  | .warmReset ns => Sys2Proof.Machine.execWarmReset ns s
  | .softwareReset => Sys2Proof.Machine.execSoftwareReset s
  | .powerFail ns => Sys2Proof.Machine.execPowerFail ns s
  | .flushEnd units => Sys2Proof.Machine.execFlushEnd units s
  | .replayRetire => Sys2Proof.Machine.execReplayRetire s
  | .ppsInput ns => Sys2Proof.Machine.execPpsInput ns s
  | .ppsOutput rise => Sys2Proof.Machine.execPpsOutput rise s
  | .dieLinkFlitError k uncorrectable => Sys2Proof.Machine.execDieLinkFlitError k uncorrectable s
  | .dieLinkTrainingLost k => Sys2Proof.Machine.execDieLinkTrainingLost k s
  | .bypass => Sys2Proof.Machine.execBypass s
  | .idcode => Sys2Proof.Machine.execIdcode s
  | .samplePreload => Sys2Proof.Machine.execSamplePreload s
  | .extest => Sys2Proof.Machine.execExtest s
  | .resetNRelease => Sys2Proof.Machine.execResetNRelease s
  | .pwrFailNRise => Sys2Proof.Machine.execPwrFailNRise s
  | .controlRegisterRead a => Sys2Proof.Machine.execControlRegisterRead a s
  | .invalidCommandOpcode conn cid => Sys2Proof.Machine.execInvalidCommandOpcode conn cid s
  | .unknownRequestType sess ident typ => Sys2Proof.Machine.execUnknownRequestType sess ident typ s
  | .receiverNotReadyRetry conn ecn => Sys2Proof.Machine.execReceiverNotReadyRetry conn ecn s
  | .managementLinkChange up => Sys2Proof.Machine.execManagementLinkChange up s

end Sys2Proof.Machine
end

