-- ==== Sys2Proof/Safety.lean ====
section
/-! DEFINITION. The terms the claims use: a state whose memory is in canonical form, an engine that can issue, the guard of an
instruction, and what "an instruction's results" means on a spindle and on a distaff core. -/

namespace Sys2Proof.Machine

/-! ## States -/

/-- A state whose SRAM and DRAM are in canonical form. -/
def memOk (s : State) : Prop := Memory.wf s.mem = true

/-- The outcome is a next state. -/
def completes (o : Out) : Bool := match o with | .next _ => true | .fault _ => false | .refused _ => false

/-- Nothing waits: no command is in the table, no read or die operation is posted, and the device is in no span. -/
def atRest (s : State) : Prop := s.tables.cmds = [] ∧ s.piers.booked = [] ∧ s.piers.ops = [] ∧ inSpan s = false

/-- Between s and t the recorder took an event with this code and these first parameter words, if it was taking events (R571, R572). -/
def told (code : BitVec 16) (ws : BitVec 32 × BitVec 32 × BitVec 32) (s t : State) : Prop :=
  s.evr.stop = false → s.evr.queue.length < 56 →
    ∃ e ∈ t.evr.queue.drop s.evr.queue.length, e.code = code ∧ (e.w0, e.w1, e.w2) = ws

/-- The command closes a connection (R243): the entry is no longer open; and where the connection is bound to no controller and no command
is outstanding, its entry is empty, the event has the code and the reason named, none of its frames waits, and its spindle is told, with no write
data of it left in the spindle's RXQ. -/
def closes (i : Instr) (conn : BitVec 16) (code : BitVec 16) (reason : BitVec 32) (s : State) : Prop :=
  ∃ t, exec i s = .next t ∧ (connOf t conn.toNat).isOpen = false ∧
    (s.tables.cmds = [] → (connOf s conn.toNat).vc = none → connOf t conn.toNat = {} ∧
      told code (0xFFFFFFFF, conn.setWidth 32, reason) s t ∧ (∀ f ∈ t.xpt.tx, f.conn ≠ some conn) ∧
      (spn t (spindleOf s conn.toNat)).rxq = (takeItems (fun h => h.setWidth 8 = 2#8 && rxConn h = conn) (spn s (spindleOf s conn.toNat)).rxq.length
        (spn s (spindleOf s conn.toNat)).rxq).1 ++ [rxHeader 4 conn.toNat 0 0 0 0] ∧
      ∀ j, j ≠ conn.toNat → connOf t j = connOf s j)

/-! ## Tenant commands -/

/-- Command c is outstanding, the one with its identifier on its queue. -/
def alone (s : State) (c : Cmd) : Prop :=
  c ∈ s.tables.cmds ∧ c.internal = false ∧ c.closed = false ∧
    ∀ x ∈ s.tables.cmds, x.internal = false → x.conn = c.conn → x.cid = c.cid → x = c

/-- Command c is outstanding and may be parsed now: nothing of its class waits before it, capsules are passed on, and its spindle holds a parse issue
slot of its class (R69, R299). -/
def fresh (s : State) (c : Cmd) : Prop := alone s c ∧ parseTurn s c = true

/-- The completion of command c between s and t (R202, R250, R284, R286, R302, R372): its entry is free; one completion entry with these two
words and this status, in Hold Device in Hold, is sent on its connection, on one under TLS where its record can be formed; its range locks are
released, those of a read once all is acknowledged; and a failure counts in its controller. -/
def completed (c : Cmd) (st : BitVec 16) (dw0 dw1 : BitVec 32) (s t : State) : Prop :=
  let entry := withHead (withStatus (cqe dw0 dw1 (connOf s c.conn.toNat).qid c.cid st) (sentStatus s st)) (sqHead s c.conn)
  let frame : TxFrame := { path := connPath s c.conn, kind := 3, conn := some c.conn, cid := some c.cid, desc := entry, inval := invalidKey s c }
  (∀ x ∈ t.tables.cmds, x.internal = false → x.conn = c.conn → x.cid ≠ c.cid) ∧
    ((connOf s c.conn.toNat).tls = false → frame ∈ t.xpt.tx.drop s.xpt.tx.length) ∧
    ((connOf s c.conn.toNat).tls = true → (tlsSend c.conn (capsuleResp false entry) s).1 ≠ none →
      ∃ us, { frame with units := us } ∈ t.xpt.tx.drop s.xpt.tx.length) ∧
    (keepsLocks c = false → ∀ k l, mget none t.tables.locks k = some l → ¬ (l.internal = false ∧ l.conn = c.conn ∧ l.cid = c.cid)) ∧
    ∀ v, c.vc = some v → (ctrlOf t v.toNat).errs = (ctrlOf s v.toNat).errs + (if sentStatus s st = 0 then 0 else 1)

/-- The row completes command c with a status and two words. -/
def answered (i : Instr) (c : Cmd) (st : BitVec 16) (dw0 dw1 : BitVec 32) (s : State) : Prop :=
  ∃ t, exec i s = .next t ∧ completed c st dw0 dw1 s t

/-- A range lock is granted at once to a command that holds none: no abort mark, room in its class's share and in the table, and no entry
conflicts (R303, R304, R310). -/
def lockFree (s : State) (c : Cmd) (ex : Bool) (a n : Nat) : Prop :=
  s.tables.marks.contains (c.conn, c.cid) = false ∧ c.locks = [] ∧ lockUse s c.cls.toNat < mget 0 s.tables.shares c.cls.toNat ∧
    freeLockEntry s ≠ none ∧ ∀ e ∈ s.tables.locks, ∀ l, e.2 = some l →
      lockConflict l { nsid := c.nsid.setWidth 15, excl := ex, start := BitVec.ofNat 64 a, count := BitVec.ofNat 64 n } = false

/-- A zoned namespace takes a write now (R63, R289, R293): nothing fails it at parse, its tokens and its staging are there, its class has
program slots, a pool it is directed to has room, and its zone is open at the place written, neither moving nor parked, nor degraded under an
active rebuild (R345, R364). -/
def zoneTakes (s : State) (x : Ns) (c : Cmd) : Prop :=
  let z := zoneOfLba x c.slba
  let e := zoneOf s c.nsid z
  parseStatus s c = none ∧ nsOf s c.nsid.toNat = some x ∧ x.fdp = false ∧ quiesced s c = false ∧ c.ordered = false ∧ 0 < c.nlb ∧
    e.moving = false ∧ e.parked = false ∧ (e.state = 2 ∨ e.state = 3) ∧ writeTokens s c c.nlb = true ∧ canProgram s c = true ∧
    (e.degraded = true → s.media.rebuild = true → s.reel.deck ≠ 5) ∧
    rowNeed (nsGroup x) (toPool s c.cls.toNat) e (e.acc + c.nlb) ≤ stageRoom s c.cls.toNat ∧
    (toPool s c.cls.toNat = true → poolTakes s (nsGroup x) c.cls.toNat e (e.acc + c.nlb) = true) ∧
    (c.opcode = 0x7D → c.slba % zszeOf x = 0 ∧ c.nlb * lbaBytes x ≤ 131072) ∧
    zoneCheck s x c.nsid z (if c.opcode = 0x7D then e.acc else c.slba % zszeOf x) c.nlb = none

/-! ## Tilost requests -/

/-- A request on the session is served at once (R551–R553): it is open, nothing is unanswered, and nothing bars a request of this service. -/
def heard (s : State) (sess : BitVec 2) (sv : Served) : Prop :=
  (sessOf s sess.toNat).isOpen = true ∧ (sessOf s sess.toNat).order = [] ∧ (sessOf s sess.toNat).answers = [] ∧ tilostBar sess.toNat sv s = none

/-- The request is answered on its session with its type and identifier, a status and a payload, and leaves a state with a property. -/
def replies (i : Instr) (sess : BitVec 2) (typ : BitVec 16) (ident : BitVec 32) (st : BitVec 16) (pay : List (BitVec 32)) (s : State)
    (p : State → Prop) : Prop :=
  ∃ t, exec i s = .next t ∧ p t ∧
    { session := sess.toNat, typ := typ, flags := 1, ident := ident, status := st, payload := pay : TMsg } ∈ t.mgmt.out.drop s.mgmt.out.length

/-! ## Engines that can issue -/

/-- Spindle n issues in this cycle and has not yet: the sequencer runs, no hank commit is due, STATE is 1, and the bundle at its
fetch address is one that program memory holds without a recorded error (R99, R108, R116, R134). -/
def spnReady (s : State) (n : Nat) : Prop :=
  s.reel.run = true ∧ s.reel.commitDue = false ∧ (spn s n).state = 1 ∧ (spn s n).issuedAt ≠ some s.reel.core ∧
    (spn s n).a0 < 0x20000 ∧ mget false (spn s n).pmBad ((spn s n).a0 / 16) = false

/-- No hank commit is due, core n is running and awake and nothing bars the fetch of its next bundle, whether its instruction cache still holds the line or not (R141,
R142, R144, R147, R148). -/
def coreReady (s : State) (n : BitVec 4) : Prop :=
  s.reel.commitDue = false ∧ (coreOf s n.toNat).running = true ∧ (coreOf s n.toNat).sleeping = false ∧
    ∀ d, fetchBar { s with draws := d } n (coreOf s n.toNat).a0 .ok = none

/-- The engine can issue. -/
def ready (s : State) (e : Engine) : Prop :=
  match e with
  | .spindle n => spnReady s n.toNat
  | .core n => coreReady s n

/-- An instruction that executes: its engine can issue, its bundle's word is good, it stands in one of the slots R105 allows it, and its
guard is 1 (R98, R102). -/
def issuable (x : Iss) (slots : List Nat) (s : State) : Prop :=
  ready s x.eng ∧ x.prog = .ok ∧ x.slot.toNat ∈ slots ∧ xor (regP s x.eng x.pr) x.pn = true

/-! ## What a bundle leaves -/

/-- A result on a spindle: in flight from this cycle, due `lat` cycles later (R100). -/
def flight (x : Iss) (s : State) (r : RegId) (v : BitVec 256) (lat : Nat) : Inflight :=
  { reg := r, val := v, due := s.reel.core + lat, at_ := s.reel.core, slot := x.slot.toNat }

/-- Spindle n after a bundle with a change of its own, and the fetch sequence moved on as a flow says (R107, R109). -/
def spnStep (n : Nat) (fl : Flow) (f : Spindle → Spindle) (s : State) : State :=
  modSpn n (fun y => spnNext fl s.reel (f y)) s

/-- Core n after a bundle that took `k` DST cycles, likewise; the free number of cycles is one draw. -/
def coreStep (n : Nat) (fl : Flow) (k : BitVec 64) (f : CoreSt → CoreSt) (s : State) : State :=
  modCore n (fun y => coreNext fl (f { y with cycles := y.cycles + k })) { s with draws := s.draws + 1 }

/-- The command completes: its one result is value `v` for register `r` at latency `lat`, the fetch sequence moves on by one bundle, and
nothing else of the machine changes. On a spindle the result is in flight; on a core it is in the register, unless a result already issued lands
there later (R101). -/
def writesReg (c : Instr) (x : Iss) (s : State) (r : RegId) (v : BitVec 256) (lat : Nat) : Prop :=
  match x.eng with
  | .spindle n => exec c s = .next (spnStep n.toNat .seq (fun y => { y with fly := y.fly ++ [flight x s r v lat] }) s)
  | .core n => ∃ k : BitVec 64, k ≠ 0 ∧ exec c s = .next (coreStep n.toNat .seq k (coreLand r v lat) s)

/-- The command completes with a g result. -/
def writesG (c : Instr) (x : Iss) (s : State) (d : BitVec 6) (v : BitVec 64) (lat : Nat) : Prop :=
  writesReg c x s (.g d) (v.setWidth 256) lat

/-- The command completes with a p result. -/
def writesP (c : Instr) (x : Iss) (s : State) (d : BitVec 3) (v : Bool) : Prop :=
  writesReg c x s (.p d) (if v then 1 else 0) 1

/-- The command completes with a v result. -/
def writesV (c : Instr) (x : Iss) (s : State) (d : BitVec 4) (v : BitVec 256) (lat : Nat) : Prop :=
  writesReg c x s (.v d) v lat

end Sys2Proof.Machine
end

