-- ==== Sys2Proof/Certificates/Slice0/Obligations.lean ====
section
/-! DEFINITION. The statements for the provers, each formalising rules of the spec or what follows from them. -/

open Sys2Proof Sys2Proof.Machine


/-! ## The machine -/

/-- Row text: a step is the front command's meaning on the rest of the queue; with nothing queued the device does what one core cycle of its clocks
does on its own (the model's choice, log entry 3). -/
def Obligations.StepRunsFrontCommand : Prop :=
  ∀ (c : Instr) (rest : List Instr) (s : State),
    step (s.withPending (c :: rest)) = exec c (s.withPending rest) ∧
    step (s.withPending []) = .next (idleCycle (s.withPending []))

/-- R84, R135, R207, R262, R378, R467, R504, R511, R530, R547, R573, R577, R591: the reset column of the register tables, read through the
registers; the cores' and the spindles' registers read 0; nothing waits; memory is in its canonical form. The model's own choices that it rests on
are in log entries 9, 10, 12 and 13. -/
def Obligations.ResetState : Prop :=
  let r := State.reset
  let word := fun (o : Nat) (v : BitVec 32) => regWord o r = v
  word 0x8 1 ∧ word 0xC 0 ∧ word 0x100 0 ∧ word 0x104 0 ∧ word 0x100000 0x0000F000 ∧ word 0x100004 0 ∧
  word 0x34000 0 ∧ word 0x34004 0x00FF0000 ∧ word 0x34008 0x00FF0000 ∧ (∀ n < 16, word (0x34040 + 4 * n) 0) ∧ 
  (∀ k < 1024, word (0x30000 + 4 * k) (if isPulse k || decide (896 ≤ k) then 0x00400000 else 0)) ∧
  word 0x70000 0 ∧ word 0x70004 0 ∧ word 0x70010 49152 ∧ word 0x60008 100 ∧ (∀ g < 32, word (0x60100 + 8 * g) 0x100C03E8 ∧ word (0x60104 + 8 * g) 0) ∧
  word 0x80004 0x0050005F ∧ word 0x50010 1 ∧ word 0x2200004 0x3F ∧
  (∀ n < 4, word (0xA0040 + 0x10000 * n) 2 ∧ word (0xA0044 + 0x10000 * n) 8 ∧ word (0xA0048 + 0x10000 * n) 4 ∧
    word (0xA004C + 0x10000 * n) 16 ∧ word (0xA0050 + 0x10000 * n) 1) ∧
  (∀ c < 128, word (0x1000000 + 0x10000 * c) 0x1080) ∧ (∀ p < 8, word (0x400000 + 0x10000 * p) 3) ∧
  (∀ (e : Engine) (g : BitVec 6) (v : BitVec 4), regG r e g = 0 ∧ regV r e v = 0) ∧
  (∀ n, (coreOf r n).ie = false ∧ (coreOf r n).resv = none ∧ (coreOf r n).tvec = 0) ∧
  r.tables.cmds = [] ∧ r.pending = [] ∧ memOk r

/-- R97, R103, R105: slot words written out from the formats and the opcode table. -/
def Obligations.SlotWordsRead : Prop :=
  decodeSlot 0x00000000 = (false, 0, some .nop) ∧
  decodeSlot 0x00208418 = (false, 0, some (.add 1 2 3)) ∧
  decodeSlot 0x06628DFF = (false, 0, some (.ldd 5 6 0x1FF)) ∧
  decodeSlot 0x08024684 = (false, 0, some (.vlog 1 2 3 4 4)) ∧
  decodeSlot 0x0C062800 = (false, 0, some (.spush 3 1 2)) ∧
  decodeSlot 0xDE1FFFFD = (true, 5, some (.br 0x1FFFFD)) ∧
  decodeSlot 0x044C9280 = (false, 0, some (.cmplt 3 9 10)) ∧
  decodeSlot 0x05253600 = (false, 0, some (.plog 1 2 3 3)) ∧
  decodeSlot 0x0A043E00 = (false, 0, some (.vmovg 2 7 3)) ∧
  decodeSlot 0x0E820003 = (false, 0, some (.mfsr 4 3)) ∧
  decodeSlot 0x0F200000 = (false, 0, none)

/-- R102, R103, R105: no bit of an encoding is dropped: decoding the slot word of any instruction under any guard gives back the guard and the
instruction, with every operand at every value its field admits. -/
def Obligations.SlotWordRoundTrip : Prop :=
  ∀ (pn : Bool) (pr : BitVec 3) (op : Op), decodeSlot (encodeSlot pn pr op) = (pn, pr, some op)

/-- Every step, the idle cycle among them, keeps SRAM and DRAM in canonical form (the model's form, log entry 13). Every command completes in every
state, but for a sample or a trip of a sensor the device does not have (R579, R580), which stops; no command is refused. -/
def Obligations.StepKeepsMemory : Prop :=
  let absent : Instr → Prop := fun i => match i with
    | .sensorSample n _ => 28 < n.toNat
    | .comparatorTrip n => 27 < n.toNat
    | _ => False
  (∀ (s t : State), memOk s → step s = .next t → memOk t) ∧
    ∀ (i : Instr) (s : State), (¬ absent i → ∃ t, exec i s = .next t) ∧ (absent i → exec i s = .fault .noSuchUnit)

/-! ## Instructions: guards, control flow, traps (R97–R102, R107–R110, R130, R143–R147) -/

/-- R102: the guard. An instruction executes when p[PR] XOR PN is 1; one that does not has no effect at all, whatever it is, in whatever slot: what
its bundle leaves is what a NOP leaves; one that does has the effect it has unguarded; bit 31 of a slot word is PN and bits 30:28 are PR; with PR 0
the guard is 1 exactly when PN is 0. A NOP that executes has no effect either (R105). -/
def Obligations.GuardsAndNop : Prop :=
  ∀ (x : Iss) (a : Act) (d : BitVec 6) (i : BitVec 15) (s : State), ready s x.eng → x.prog = .ok →
    let guard := xor (regP s x.eng x.pr) x.pn
    let nothing := fun (t : State) => match x.eng with
      | .spindle n => t = spnStep n.toNat .seq id s
      | .core n => ∃ k : BitVec 64, k ≠ 0 ∧ t = coreStep n.toNat .seq k id s
    (guard = false → nothing (issueOne x a s)) ∧
    (guard = true → x.slot.toNat < 2 → writesG (.movi x d i) x s d (i.signExtend 64) 1) ∧
    (guard = true → issueOne x a s = issueOne { x with pn := false, pr := 0 } a s) ∧
    (x.pr = 0 → guard = !x.pn) ∧
    (∀ w : BitVec 32, (decodeSlot w).1 = w.getLsbD 31 ∧ (decodeSlot w).2.1 = (w >>> 28).setWidth 3) ∧
    ∃ t, exec (.nop x) s = .next t ∧ nothing t

/-- R107: the fetch sequence. After the bundle at t come those at a(t+1) and a(t+2), then the target of a branch taken in t, else the address after
a(t+2); so a branch to X followed by one to Y issues t + 1, t + 2, X, Y, Y + 16; on a spindle and on a core alike. An executing BR, BRL or BRI
whose target is aligned (R108, and on a spindle in its program memory) is that branch, and changes nothing but, for BRL, g63 and the fetch
sequence. After an END two more bundles issue, and then the turn program has ended, whatever branches those two take (R109). -/
def Obligations.FetchSequence : Prop :=
  (∀ (r : Reel) (x : Spindle) (u w : BitVec 64),
    let go := fun (f : Flow) (y : Spindle) => spnNext f r y
    let seq := fun (y : Spindle) => (y.a0, y.a1, y.a2)
    seq (go .seq x) = (x.a1, x.a2, x.a2 + 16) ∧ seq (go (.branch u) x) = (x.a1, x.a2, u.toNat) ∧
    seq (go .seq (go (.branch w) (go (.branch u) x))) = (u.toNat, w.toNat, w.toNat + 16) ∧
    (x.endLeft = none → x.state = 1 → (go .seq x).state = 1 ∧ (go .stop x).state = 1 ∧ (∀ f, (go f (go .stop x)).state = 1) ∧
      (∀ f g, (go g (go f (go .stop x))).state = 2))) ∧
  (∀ (x : CoreSt) (u w : BitVec 64),
    let seq := fun (y : CoreSt) => (y.a0, y.a1, y.a2)
    seq (coreNext .seq x) = (x.a1, x.a2, x.a2 + 16) ∧ seq (coreNext (.branch u) x) = (x.a1, x.a2, u) ∧
    seq (coreNext .seq (coreNext (.branch w) (coreNext (.branch u) x))) = (u, w, w + 16)) ∧
  (∀ (x : Iss) (off : BitVec 21) (a : BitVec 6) (s : State), issuable x [0] s →
    let A := regG s x.eng a
    match x.eng with
    | .spindle n =>
      let pc : BitVec 64 := BitVec.ofNat 64 (spn s n.toNat).a0
      let T := pc + off.signExtend 64 * 16
      let inside := fun (t : BitVec 64) => t.toNat % 16 = 0 ∧ t.toNat < 0x20000
      (inside T → exec (.br x off) s = .next (spnStep n.toNat (.branch T) id s) ∧
        exec (.brl x off) s = .next (spnStep n.toNat (.branch T)
          (fun y => { y with fly := y.fly ++ [flight x s (.g 63) ((pc + 48).setWidth 256) 1] }) s)) ∧
      (inside A → exec (.bri x a) s = .next (spnStep n.toNat (.branch A) id s))
    | .core n =>
      let pc := (coreOf s n.toNat).a0
      let T := pc + off.signExtend 64 * 16
      let goes := fun (c : Instr) (t : BitVec 64) (f : CoreSt → CoreSt) => ∃ k : BitVec 64, k ≠ 0 ∧ exec c s = .next (coreStep n.toNat (.branch t) k f s)
      (T.toNat % 16 = 0 → goes (.br x off) T id ∧ goes (.brl x off) T (coreLand (.g 63) ((pc + 48).setWidth 256) 1)) ∧
      (A.toNat % 16 = 0 → goes (.bri x a) A id))

/-- R145: RFT of a core in supervisor mode restores PRIV from PPRIV and IE from PIE, clears INTRAP and the reservation, and fetches TPC0, TPC1 and
TPC2 in that order, after which R107 applies from the bundle at TPC0; no other register, core or byte of memory changes. -/
def Obligations.ReturnFromTrap : Prop :=
  ∀ (x : Iss) (n : BitVec 4) (u : BitVec 64) (s : State), x.eng = .core n → issuable x [0] s → (coreOf s n.toNat).priv = true →
    let o := coreOf s n.toNat
    ∃ t, exec (.rft x) s = .next t ∧
      let c := coreOf t n.toNat
      c.priv = o.ppriv ∧ c.ie = o.pie ∧ c.intrap = false ∧ c.resv = none ∧ (c.a0, c.a1, c.a2) = (o.tpc0, o.tpc1, o.tpc2) ∧
      ((coreNext .seq c).a0, (coreNext .seq c).a1, (coreNext .seq c).a2) = (o.tpc1, o.tpc2, o.tpc2 + 16) ∧
      ((coreNext (.branch u) c).a0, (coreNext (.branch u) c).a1, (coreNext (.branch u) c).a2) = (o.tpc1, o.tpc2, u) ∧
      c.g = o.g ∧ c.v = o.v ∧ c.p = o.p ∧ c.tvec = o.tvec ∧ c.tcause = o.tcause ∧ c.tval = o.tval ∧ c.ppriv = o.ppriv ∧ c.pie = o.pie ∧
      (∀ m, m ≠ n.toNat → coreOf t m = coreOf s m) ∧ t.spindles = s.spindles ∧ t.mem = s.mem

/-! ## Instructions: integer, compare, predicate (R105, R106) -/

/-- R104, R105: the ten integer instructions of three registers, the immediate forms and SEL complete with their result in D, on a spindle and on a
core; nothing else of the machine changes but the fetch sequence. The shift counts are B[5:0] or IMM9[5:0]; the second operand of MOVS is
zero-extended; every other immediate is sign-extended. The model's own choices that it rests on are in log entry 16. -/
def Obligations.IntegerOperations : Prop :=
  (∀ (x : Iss) (d a b : BitVec 6) (s : State), issuable x [0, 1] s →
    let A := regG s x.eng a
    let B := regG s x.eng b
    writesG (.add x d a b) x s d (A + B) 1 ∧
    writesG (.sub x d a b) x s d (A - B) 1 ∧
    writesG (.andOp x d a b) x s d (A &&& B) 1 ∧
    writesG (.orOp x d a b) x s d (A ||| B) 1 ∧
    writesG (.xorOp x d a b) x s d (A ^^^ B) 1 ∧
    writesG (.shl x d a b) x s d (A <<< (B.toNat % 64)) 1 ∧
    writesG (.shr x d a b) x s d (A >>> (B.toNat % 64)) 1 ∧
    writesG (.sar x d a b) x s d (A.sshiftRight (B.toNat % 64)) 1 ∧
    writesG (.mul x d a b) x s d (A * B) 3 ∧
    writesG (.mulhu x d a b) x s d (((A.setWidth 128 * B.setWidth 128) >>> 64).setWidth 64) 3) ∧
  (∀ (x : Iss) (d a b : BitVec 6) (i : BitVec 9) (k : BitVec 15) (f : BitVec 3) (s : State), issuable x [0, 1] s →
    let A := regG s x.eng a
    writesG (.addi x d a i) x s d (A + i.signExtend 64) 1 ∧
    writesG (.andi x d a i) x s d (A &&& i.signExtend 64) 1 ∧
    writesG (.ori x d a i) x s d (A ||| i.signExtend 64) 1 ∧
    writesG (.xori x d a i) x s d (A ^^^ i.signExtend 64) 1 ∧
    writesG (.shli x d a i) x s d (A <<< (i.toNat % 64)) 1 ∧
    writesG (.shri x d a i) x s d (A >>> (i.toNat % 64)) 1 ∧
    writesG (.sari x d a i) x s d (A.sshiftRight (i.toNat % 64)) 1 ∧
    writesG (.movi x d k) x s d (k.signExtend 64) 1 ∧
    writesG (.movs x d k) x s d ((regG s x.eng d <<< 15) ||| k.setWidth 64) 1 ∧
    writesG (.sel x d a b f) x s d (if regP s x.eng f then A else regG s x.eng b) 1)

/-- R105: CLZ, POPC and BSWAP complete with the value the table describes, here said by what it counts or which byte stands where; FN 3 to 7 of
BSWAP are left to `IllegalForms`. The model's own choices that it rests on are in log entry 16. -/
def Obligations.CountsAndByteReversal : Prop :=
  ∀ (x : Iss) (d a : BitVec 6) (s : State), issuable x [0, 1] s →
    let A := regG s x.eng a
    let byte := fun (v : BitVec 64) (k : Nat) => (v >>> (8 * k)).setWidth 8
    (∃ v, writesG (.clz x d a) x s d v 1 ∧ v.toNat ≤ 64 ∧ (A = 0 → v = 64) ∧
      (A ≠ 0 → 2 ^ 63 ≤ A.toNat * 2 ^ v.toNat ∧ A.toNat * 2 ^ v.toNat < 2 ^ 64)) ∧
    (∃ v, writesG (.popc x d a) x s d v 1 ∧ v.toNat = ((List.range 64).filter (fun k => A.getLsbD k)).length) ∧
    (∃ v, writesG (.bswap x d a 0) x s d v 1 ∧ ∀ k < 8, byte v k = byte A (7 - k)) ∧
    (∃ v, writesG (.bswap x d a 1) x s d v 1 ∧ v.toNat < 2 ^ 32 ∧ ∀ k < 4, byte v k = byte A (3 - k)) ∧
    (∃ v, writesG (.bswap x d a 2) x s d v 1 ∧ v.toNat < 2 ^ 16 ∧ ∀ k < 2, byte v k = byte A (1 - k))

/-- R105, R106: the nine compares and PLOG complete with one p result, and NOP with none. The model's own choices that it rests on are in log entry
16. -/
def Obligations.ComparesAndPredicates : Prop :=
  ∀ (x : Iss) (d pa pb : BitVec 3) (a b : BitVec 6) (i : BitVec 12) (s : State), issuable x [0, 1] s →
    let A := regG s x.eng a
    let B := regG s x.eng b
    let P := regP s x.eng pa
    let Q := regP s x.eng pb
    writesP (.cmpeq x d a b) x s d (decide (A = B)) ∧
    writesP (.cmpne x d a b) x s d (decide (A ≠ B)) ∧
    writesP (.cmplt x d a b) x s d (decide (A.toInt < B.toInt)) ∧
    writesP (.cmpltu x d a b) x s d (decide (A.toNat < B.toNat)) ∧
    writesP (.cmpge x d a b) x s d (decide (B.toInt ≤ A.toInt)) ∧
    writesP (.cmpgeu x d a b) x s d (decide (B.toNat ≤ A.toNat)) ∧
    writesP (.cmpeqi x d a i) x s d (decide (A.toInt = i.toInt)) ∧
    writesP (.cmplti x d a i) x s d (decide (A.toInt < i.toInt)) ∧
    writesP (.cmpltui x d a i) x s d (decide (A.toNat < (i.signExtend 64 : BitVec 64).toNat)) ∧
    writesP (.plog x d pa pb 0) x s d (P && Q) ∧
    writesP (.plog x d pa pb 1) x s d (P || Q) ∧
    writesP (.plog x d pa pb 2) x s d (xor P Q) ∧
    writesP (.plog x d pa pb 3) x s d (P && !Q) ∧
    writesP (.plog x d pa pb 4) x s d (!P) ∧
    writesP (.plog x d pa pb 5) x s d P

/-- R98, R129 to R131, R135 to R137, R139, R670: an instruction in a slot that does not allow it, and an FN that the spec does not define, stop a
ready spindle with cause 1 in that slot. What any fault of a spindle leaves: STATE 3, the cause, slot, address, turn and cycle in its registers, no
later bundle, scratch memory and the results in flight as they were, and every other spindle untouched. The model's own choices that it rests on
are in log entries 16 and 48. -/
def Obligations.SpindleFaults : Prop :=
  (∀ (x : Iss) (n : BitVec 6) (d a b : BitVec 6) (p q r f : BitVec 3) (s : State), x.eng = .spindle n → spnReady s n.toNat → x.prog = .ok →
    xor (regP s x.eng x.pr) x.pn = true →
    let stops := fun (c : Instr) => exec c s = .next (spnFault n.toNat (spn s n.toNat).a0 x.slot.toNat { code := 1 } s)
    (2 ≤ x.slot.toNat → stops (.add x d a b) ∧ stops (.ldd x d a 0) ∧ stops (.cmpeq x p a b) ∧ stops (.br x 0)) ∧
    (x.slot.toNat < 2 → stops (.vmovg x 0 d 0) ∧ stops (.vld x 0 a 0) ∧ (3 ≤ f.toNat → stops (.bswap x d a f)) ∧
      (6 ≤ f.toNat → stops (.plog x p q r f))) ∧
    (x.slot.toNat = 1 → f ≠ 0 → stops (.stc x d a b f)) ∧
    (x.slot.toNat = 0 → stops (.sysc x 0) ∧ stops (.rft x) ∧ stops (.mtsr x 0x10 a) ∧ stops (.mfsr x d 4) ∧ stops (.spush x 0 1 p []))) ∧
  (∀ (n m : Nat) (pc slot : Nat) (c : Cause) (s : State), m ≠ n →
    let t := spnFault n pc slot c s
    (spn t n).state = 3 ∧ (spn t n).fpc = BitVec.ofNat 17 pc ∧ (spn t n).fcause = c.code.setWidth 4 ∧
    (spn t n).fslot = BitVec.ofNat 2 slot ∧ (spn t n).fturn = s.reel.turn ∧ (spn t n).fcycle = s.reel.cycle ∧
    (spn t n).faddr = c.val.setWidth 18 ∧ (spn t n).scratch = (spn s n).scratch ∧ (spn t n).g = (spn s n).g ∧
    (spn t n).v = (spn s n).v ∧ (spn t n).p = (spn s n).p ∧ (spn t n).fly = (spn s n).fly ∧ spnIssues t n = false ∧
    spn t m = spn s m ∧ t.mem = s.mem ∧ (groupOf t 9).total = satInc (groupOf s 9).total)

/-! ## Instructions: memory (R112–R116, R142, R150) -/

/-- R104, R105, R112 to R116, R150: the loads and stores of a spindle's scratch memory. At an aligned address inside scratch memory whose word is
good, a scalar load completes with the little-endian number of the bytes there, zero-extended, at latency 3, and nothing else changes. A store,
VXACC and STC among them, completes: every byte of the access holds what the instruction stores, every other byte what it held, no register changes
and no other spindle; STC writes 0 to B. `at_` is the address the instruction stores to. The model's own choices that it rests on are in log
entries 16 and 20. -/
def Obligations.ScratchAccesses : Prop :=
  (∀ (x : Iss) (n : BitVec 6) (d a : BitVec 6) (i : BitVec 9) (s : State), x.eng = .spindle n → issuable x [1] s → x.mem = .ok →
    let at_ := fun (len : Nat) => (regG s x.eng a + i.signExtend 64 * BitVec.ofNat 64 len).toNat
    let good := fun (len : Nat) => at_ len % len = 0 ∧ at_ len + len ≤ 0x40000 ∧ mget false (spn s n.toNat).scBad (at_ len / 32) = false
    let val := fun (len : Nat) => BitVec.ofNat 64 (leNat ((List.range len).map (fun k => scByte (spn s n.toNat) (at_ len + k))))
    (good 1 → writesG (.ldb x d a i) x s d (val 1) 3) ∧
    (good 2 → writesG (.ldh x d a i) x s d (val 2) 3) ∧
    (good 4 → writesG (.ldw x d a i) x s d (val 4) 3) ∧
    (good 8 → writesG (.ldd x d a i) x s d (val 8) 3) ∧
    (good 8 → writesG (.ldl x d a i) x s d (val 8) 3)) ∧
  (∀ (x : Iss) (n : BitVec 6) (d a b : BitVec 6) (v : BitVec 4) (i : BitVec 9) (j : BitVec 11) (s : State), x.eng = .spindle n → x.prog = .ok →
    x.mem = .ok → spnReady s n.toNat → xor (regP s x.eng x.pr) x.pn = true →
    let old := spn s n.toNat
    let stores := fun (c : Instr) (at_ len : Nat) (val : Nat → BitVec 8) (res : List Inflight) =>
      at_ % len = 0 → at_ + len ≤ 0x40000 → ∃ t, exec c s = .next t ∧
        (∀ k < len, scByte (spn t n.toNat) (at_ + k) = val k) ∧
        (∀ q, q < at_ ∨ at_ + len ≤ q → scByte (spn t n.toNat) q = scByte old q) ∧
        (spn t n.toNat).g = old.g ∧ (spn t n.toNat).v = old.v ∧ (spn t n.toNat).p = old.p ∧ (spn t n.toNat).fly = old.fly ++ res ∧
        (spn t n.toNat).a0 = old.a1 ∧ (∀ m, m ≠ n.toNat → spn t m = spn s m) ∧ t.mem = s.mem ∧ t.reel = s.reel
    let gAt := fun (len : Nat) => (regG s x.eng a + i.signExtend 64 * BitVec.ofNat 64 len).toNat
    let vAt := (regG s x.eng a + j.signExtend 64 * 32).toNat
    let gByte := fun (k : Nat) => (regG s x.eng d >>> (8 * k)).setWidth 8
    let vByte := fun (k : Nat) => (regV s x.eng v >>> (8 * k)).setWidth 8
    (x.slot = 1 → stores (.stb x d a i) (gAt 1) 1 gByte [] ∧ stores (.sth x d a i) (gAt 2) 2 gByte [] ∧
      stores (.stw x d a i) (gAt 4) 4 gByte [] ∧ stores (.std x d a i) (gAt 8) 8 gByte [] ∧
      stores (.stc x d a b 0) (regG s x.eng a).toNat 8 gByte [flight x s (.g b) 0 3]) ∧
    (x.slot = 2 → stores (.vst x v a j) vAt 32 vByte [] ∧
      (mget false old.scBad (vAt / 32) = false → stores (.vxacc x v a j) vAt 32 (fun k => scByte old (vAt + k) ^^^ vByte k) [])))

/-- R112, R113, R116, R129, R130: a scratch access that is misaligned stops the spindle with cause 3, also where it is out of range; an aligned one
out of range with cause 2; a read of a word held as uncorrectable with cause 5. SPN_FADDR gets the address, or the address of the word. The model's
own choices that it rests on are in log entry 16. -/
def Obligations.ScratchFaults : Prop :=
  ∀ (x : Iss) (n : BitVec 6) (d a : BitVec 6) (v : BitVec 4) (i : BitVec 9) (j : BitVec 11) (s : State), x.eng = .spindle n → x.prog = .ok →
    x.mem = .ok → spnReady s n.toNat → xor (regP s x.eng x.pr) x.pn = true →
    let stops := fun (c : Instr) (code : BitVec 8) (val : BitVec 64) (nt : Note) =>
      exec c s = .next (spnFault n.toNat (spn s n.toNat).a0 x.slot.toNat { code := code, val := val, note := nt } s)
    let A := regG s x.eng a + i.signExtend 64 * 8
    let V := regG s x.eng a + j.signExtend 64 * 32
    (x.slot = 1 → A.toNat % 8 ≠ 0 → stops (.ldd x d a i) 3 A .none ∧ stops (.std x d a i) 3 A .none) ∧
    (x.slot = 1 → A.toNat % 8 = 0 → 0x40000 < A.toNat + 8 → stops (.ldd x d a i) 2 A .none ∧ stops (.std x d a i) 2 A .none) ∧
    (x.slot = 1 → A.toNat % 8 = 0 → A.toNat + 8 ≤ 0x40000 → mget false (spn s n.toNat).scBad (A.toNat / 32) = true →
      stops (.ldd x d a i) 5 (BitVec.ofNat 64 (A.toNat / 32 * 32)) (.scratch (A.toNat / 32))) ∧
    (x.slot = 2 → V.toNat % 32 ≠ 0 → stops (.vld x v a j) 3 V .none ∧ stops (.vst x v a j) 3 V .none ∧ stops (.vxacc x v a j) 3 V .none) ∧
    (x.slot = 2 → V.toNat % 32 = 0 → 0x40000 < V.toNat + 32 →
      stops (.vld x v a j) 2 V .none ∧ stops (.vst x v a j) 2 V .none ∧ stops (.vxacc x v a j) 2 V .none)

/-- R101, R141, R142, R148, R150: the loads and stores of a distaff core in its SRAM, where nothing bars the access. A load gives the bytes there,
three DST cycles or more later, and changes no memory; LDL also takes a reservation on the 64-byte granule; a store changes its own bytes and no
other byte of memory; STC stores and writes 0 under a reservation that covers its address, else stores nothing and writes 1, and ends the
reservation either way. The model's own choices that it rests on are in log entries 16, 17, 18, 20 and 139. -/
def Obligations.CoreMemory : Prop :=
  ∀ (x : Iss) (n : BitVec 4) (d a b : BitVec 6) (i : BitVec 9) (s : State), x.eng = .core n → issuable x [1] s → x.mem = .ok →
    let A := regG s x.eng a + i.signExtend 64 * 8
    let B := (regG s x.eng a).toNat
    let byte := fun (k : Nat) => (regG s x.eng d >>> (8 * k)).setWidth 8
    let pv := (coreOf s n.toNat).priv
    let lands := fun (c : Instr) (f : CoreSt → CoreSt) => ∃ (k : BitVec 64) (w : Nat), k ≠ 0 ∧ 3 ≤ w ∧
      exec c s = .next (coreStep n.toNat .seq k (fun y =>
        coreLand (.g d) ((BitVec.ofNat 64 (leNat (memBytes s A.toNat 8))).setWidth 256) w (f y)) { s with draws := s.draws + 1 })
    (placeOf s A.toNat = .sram → coreBar pv s n A 8 .read .ok = none →
      lands (.ldd x d a i) id ∧ lands (.ldl x d a i) (fun y => { y with resv := some (A.toNat / 64) })) ∧
    (placeOf s A.toNat = .sram → coreBar pv s n A 8 .write .ok = none →
      ∃ t, exec (.std x d a i) s = .next t ∧ (∀ k < 8, memByte t (A.toNat + k) = byte k) ∧
        ∀ q, q < A.toNat ∨ A.toNat + 8 ≤ q → memByte t q = memByte s q) ∧
    (placeOf s B = .sram → coreBar pv s n (regG s x.eng a) 8 .write .ok = none → mget 0 (coreOf s n.toNat).due b.toNat = 0 →
      ∃ t, exec (.stc x d a b 0) s = .next t ∧ (coreOf t n.toNat).resv = none ∧
        (if (coreOf s n.toNat).resv = some (B / 64) then
           (b ≠ 0 → regG t x.eng b = 0) ∧ (∀ k < 8, memByte t (B + k) = byte k) ∧ ∀ q, q < B ∨ B + 8 ≤ q → memByte t q = memByte s q
         else (b ≠ 0 → regG t x.eng b = 1) ∧ t.mem = s.mem))

/-! ## Instructions: vectors and field arithmetic (R94, R105, R106, R125–R128) -/

/-- R94, R105, R106, R114: VLOG by its eight functions, VMOVG, VINSG and VSPLAT; VADD lane by lane modulo the lane width, VSHUF byte by byte, VBREV
by its three reversals; and VLD of a spindle, which reads 32 bytes of scratch memory: each completes with its result and changes nothing else. The
model's own choices that it rests on are in log entry 16. -/
def Obligations.VectorOperations : Prop :=
  (∀ (x : Iss) (d a b k : BitVec 4) (g : BitVec 6) (ln : BitVec 2) (s : State),
    let A := regV s x.eng a
    let B := regV s x.eng b
    let C := regV s x.eng k
    let G := regG s x.eng g
    let lane64 := fun (v : BitVec 256) (j : Nat) => (v >>> (64 * j)).setWidth 64
    (issuable x [0, 2, 3] s →
      writesV (.vlog x d a b k 0) x s d (A &&& B) 1 ∧ writesV (.vlog x d a b k 1) x s d (A ||| B) 1 ∧
      writesV (.vlog x d a b k 2) x s d (A ^^^ B) 1 ∧ writesV (.vlog x d a b k 3) x s d (A &&& ~~~B) 1 ∧
      writesV (.vlog x d a b k 4) x s d (A ^^^ B ^^^ C) 1 ∧ writesV (.vlog x d a b k 5) x s d ((A &&& C) ||| (B &&& ~~~C)) 1 ∧
      writesV (.vlog x d a b k 6) x s d (~~~A) 1 ∧ writesV (.vlog x d a b k 7) x s d A 1) ∧
    (issuable x [2, 3] s →
      writesG (.vmovg x a g ln) x s g (lane64 A ln.toNat) 2 ∧
      (∃ v, writesV (.vinsg x a g ln) x s a v 1 ∧ ∀ j : BitVec 2, lane64 v j.toNat = if j = ln then G else lane64 A j.toNat) ∧
      (∃ v, writesV (.vsplat x a g) x s a v 1 ∧ ∀ j < 4, lane64 v j = G))) ∧
  (∀ (x : Iss) (d a b k : BitVec 4) (fn : BitVec 5) (g : BitVec 6) (j : BitVec 11) (s : State), issuable x [2] s →
    let A := regV s x.eng a
    let B := regV s x.eng b
    let C := regV s x.eng k
    let byte := fun (v : BitVec 256) (q : Nat) => (v >>> (8 * q)).setWidth 8
    let w := 8 * 2 ^ (fn.toNat % 4)
    let part := fun (v : BitVec 256) (q : Nat) => v.toNat / 2 ^ (w * q) % 2 ^ w
    (fn.toNat < 8 → ∃ v, writesV (.vadd x d a b fn) x s d v 2 ∧ ∀ q < 256 / w,
      part v q = if fn.toNat < 4 then (part A q + part B q) % 2 ^ w else (part A q + 2 ^ w - part B q) % 2 ^ w) ∧
    (∃ v, writesV (.vshuf x d a b k 0) x s d v 2 ∧ ∀ q < 32, byte v q =
      if (byte C q).getLsbD 7 then 0 else if (byte C q).toNat % 64 < 32 then byte A ((byte C q).toNat % 64) else byte B ((byte C q).toNat % 64 - 32)) ∧
    (∃ v, writesV (.vbrev x d a 0) x s d v 1 ∧ ∀ q < 16, byte v q = byte A (15 - q) ∧ byte v (16 + q) = byte A (31 - q)) ∧
    (∃ v, writesV (.vbrev x d a 1) x s d v 1 ∧ ∀ q < 32, ∀ r < 8, (byte v q).getLsbD r = (byte A q).getLsbD (7 - r)) ∧
    (∃ v, writesV (.vbrev x d a 2) x s d v 1 ∧ ∀ q < 16, ∀ r < 8, (byte v q).getLsbD r = (byte A (15 - q)).getLsbD (7 - r) ∧
      (byte v (16 + q)).getLsbD r = (byte A (31 - q)).getLsbD (7 - r)) ∧
    (∀ n : BitVec 6, x.eng = .spindle n → x.mem = .ok →
      let P := (regG s x.eng g + j.signExtend 64 * 32).toNat
      P % 32 = 0 → P + 32 ≤ 0x40000 → mget false (spn s n.toNat).scBad (P / 32) = false →
        ∃ v, writesV (.vld x d g j) x s d v 3 ∧ ∀ q < 32, byte v q = scByte (spn s n.toNat) (P + q)))

/-- R125 to R128: VCLMUL completes with the carry-less product of the 64-bit lanes its FN picks, coefficient by coefficient; VGFX with each half
multiplied by a power of α in XTS order; VGFMUL with the products of `gcmMul` and `xtsMul`, of which `FieldProducts` speaks. The model's own
choices that it rests on are in log entry 16. -/
def Obligations.CarrylessAndField : Prop :=
  ∀ (x : Iss) (d a b : BitVec 4) (fn : BitVec 5) (s : State), issuable x [2] s →
    let A := regV s x.eng a
    let B := regV s x.eng b
    let half := fun (v : BitVec 256) (h : Nat) => (v >>> (128 * h)).setWidth 128
    let times := fun (y : BitVec 128) => (y <<< 1) ^^^ (if y.getLsbD 127 then 0x87#128 else 0)
    (fn.toNat < 4 → ∃ v, writesV (.vclmul x d a b fn) x s d v 4 ∧ ∀ h < 2, ∀ r < 128, (half v h).getLsbD r =
      ((List.range (r + 1)).foldl (fun p q => xor p
        (((A >>> (64 * (2 * h + fn.toNat % 2))).setWidth 64 : BitVec 64).getLsbD q &&
         ((B >>> (64 * (2 * h + fn.toNat / 2))).setWidth 64 : BitVec 64).getLsbD (r - q))) false)) ∧
    (∃ v, writesV (.vgfx x d a 0) x s d v 1 ∧ ∀ h < 2, half v h = times (half A h)) ∧
    (∃ v, writesV (.vgfx x d a 1) x s d v 1 ∧ ∀ h < 2, half v h = times (times (half A h))) ∧
    (∃ v, writesV (.vgfx x d a 2) x s d v 1 ∧ ∀ h < 2, half v h = times (times (times (times (half A h))))) ∧
    (∃ v, writesV (.vgfx x d a 3) x s d v 1 ∧ half v 0 = half A 0 ∧ half v 1 = times (half A 1)) ∧
    (∃ v, writesV (.vgfmul x d a b 0) x s d v 5 ∧ ∀ h < 2, half v h = gcmMul (half A h) (half B h)) ∧
    (∃ v, writesV (.vgfmul x d a b 1) x s d v 5 ∧ ∀ h < 2, half v h = xtsMul (half A h) (half B h))

/-- R125, R127, R128: the product VGFMUL forms. In XTS order it distributes over XOR, α times is a shift with 0x87, the element 1 is neutral, and
multiplying by x^k is k times α; in GCM order it is the same product with the bits of every byte reversed, so that its 1 is the byte 0x80. -/
def Obligations.FieldProducts : Prop :=
  ∀ (a b c : BitVec 128) (k : Nat),
    xtsMul a (b ^^^ c) = xtsMul a b ^^^ xtsMul a c ∧ xtsMul (a ^^^ b) c = xtsMul a c ^^^ xtsMul b c ∧
    xtsMul a 1 = a ∧ xtsMul a 2 = (a <<< 1) ^^^ (if a.getLsbD 127 then 0x87 else 0) ∧
    (k < 128 → xtsMul a (1 <<< k) = xtsAlphaPow a k) ∧
    gcmMul a 0x80 = a ∧ gcmSwap (gcmMul a b) = xtsMul (gcmSwap a) (gcmSwap b) ∧
    (∀ q < 16, ∀ r < 8, (gcmSwap a).getLsbD (8 * q + r) = a.getLsbD (8 * q + 7 - r))

/-! ## Instructions: stream ports (R117–R124, R284, R302–R310, R389–R398, R437, R252) -/

/-- R117 to R120, R124, R172: the ports of a spindle. A push to CMPL or EVQ with room is accepted with PQ 1 at latency 1, one to a full CMPL is
not; a pop of RXQ gives its oldest unit with PQ 1 at latency 2, one of an empty RXQ gives 0 and PQ 0; SSTAT gives units ready and room left. An
operation on a granted port without its slot is a slot violation of kind spindle, counted once, with PQ 0, and no effect on the port. The model's
own choices that it rests on are in log entries 16, 23, 24 and 33. -/
def Obligations.StreamPorts : Prop :=
  (∀ (x : Iss) (n : BitVec 6) (v : BitVec 4) (pq : BitVec 3) (g : BitVec 6) (s : State), x.eng = .spindle n → issuable x [1, 3] s →
    let old := spn s n.toNat
    let V := regV s x.eng v
    let leaves := fun (c : Instr) (f : Spindle → Spindle) (res : List Inflight) =>
      exec c s = .next (spnStep n.toNat .seq (fun y => { f y with fly := y.fly ++ res }) s)
    (old.cmpl.length < 32 → leaves (.spush x v 1 pq []) (fun y => { y with cmpl := y.cmpl ++ [V], cmplAt := y.cmplAt ++ [s.reel.core] }) [flight x s (.p pq) 1 1]) ∧
    (32 ≤ old.cmpl.length → leaves (.spush x v 1 pq []) id [flight x s (.p pq) 0 1]) ∧
    (old.evq.length < 8 → 0x80 ≤ V.toNat % 256 → ∃ t e, exec (.spush x v 12 pq []) s = .next t ∧ (spn t n.toNat).evq = old.evq ++ [e] ∧
      e.unit = V ∧ e.tbase = s.span.lock ∧ e.at_ = s.reel.core ∧ (spn t n.toNat).fly = old.fly ++ [flight x s (.p pq) 1 1] ∧ t.mem = s.mem ∧ t.evr = s.evr) ∧
    (∀ u rest, old.rxq = u :: rest →
      leaves (.spop x v 0 pq []) (fun y => { y with rxq := rest }) [flight x s (.v v) u 2, flight x s (.p pq) 1 2]) ∧
    (old.rxq = [] → leaves (.spop x v 0 pq []) id [flight x s (.v v) 0 2, flight x s (.p pq) 0 2]) ∧
    writesG (.sstatReady x g 0) x s g (BitVec.ofNat 64 old.rxq.length) 2 ∧
    writesG (.sstatRoom x g 1) x s g (BitVec.ofNat 64 (32 - old.cmpl.length)) 2) ∧
  (∀ (x : Iss) (n : BitVec 6) (v port : BitVec 4) (pq : BitVec 3) (s : State), x.eng = .spindle n → issuable x [1, 3] s →
    portGrant s n.toNat port.toNat = none →
    let old := spn s n.toNat
    let none_ := fun (c : Instr) (res : List Inflight) => ∃ t, exec c s = .next t ∧
      spn t n.toNat = spnNext .seq s.reel { old with fly := old.fly ++ res } ∧ t.mem = s.mem ∧ t.piers = s.piers ∧ t.lanes = s.lanes ∧
      (groupOf t 7).total = satInc (groupOf s 7).total
    ((port = 5 ∨ port = 6 ∨ port = 10 ∨ port = 11) → none_ (.spush x v port pq []) [flight x s (.p pq) 0 1]) ∧
    ((port = 4 ∨ port = 7 ∨ port = 9) → none_ (.spop x v port pq []) [flight x s (.v v) 0 2, flight x s (.p pq) 0 2]))

/-- R119, R159, R303, R304, R306, R310, R389 to R391, R404: descriptors to POST and LOCK. One that meets its port's rule and finds room is accepted
with PQ 1: a read is booked into the earliest place of its owner or waits, a program, erase, temperature read or raw read waits for its slot; an
acquire takes the lowest free entry, granted unless a conflicting request is held or came earlier; a release frees its entry; an abort mark is set.
The model's own choices that it rests on are in log entries 28, 29, 32 and 36. -/
def Obligations.DescriptorQueues : Prop :=
  (∀ (x : Iss) (n : BitVec 6) (v : BitVec 4) (pq : BitVec 3) (s : State), x.eng = .spindle n → issuable x [1, 3] s →
    (spn s n.toNat).post < 64 →
    let V := regV s x.eng v
    let d := fun (fn : Nat) => postDesc (issueOwner s n.toNat) fn V
    let ok := fun (fn : Nat) => postOk s (d fn) V = true
    let takes := fun (c : Instr) (p : State → Prop) => ∃ t, exec c s = .next t ∧ p t ∧ (spn t n.toNat).post = (spn s n.toNat).post + 1 ∧
      (spn t n.toNat).fly = (spn s n.toNat).fly ++ [flight x s (.p pq) 1 1] ∧ t.piers.chans = s.piers.chans ∧ t.mem = s.mem
    (ok 0 → ∀ b, bookFor s (d 0) = some b → takes (.postRead x v pq) (fun t =>
      t.piers.booked = s.piers.booked ++ [{ b with desc := d 0, unbound := false }] ∧ t.piers.ops = s.piers.ops)) ∧
    (ok 0 → bookFor s (d 0) = none → takes (.postRead x v pq) (fun t => t.piers.booked = s.piers.booked ∧ t.piers.ops = s.piers.ops ++ [d 0])) ∧
    (ok 1 → isLost s (d 1).die = false → takes (.postProgram x v pq) (fun t => t.piers.ops = s.piers.ops ++ [d 1])) ∧
    (ok 2 → isLost s (d 2).die = false → takes (.postErase x v pq) (fun t => t.piers.ops = s.piers.ops ++ [d 2])) ∧
    (ok 3 → takes (.postTemperatureRead x v pq) (fun t => t.piers.ops = s.piers.ops ++ [d 3])) ∧
    (ok 4 → rawRefusal s (d 4) = none → takes (.postRawDiagnosticRead x v pq) (fun t => t.piers.ops = s.piers.ops ++ [d 4]))) ∧
  (∀ (x : Iss) (n : BitVec 6) (v : BitVec 4) (pq : BitVec 3) (s : State) (c : Cmd) (k : Nat), x.eng = .spindle n → issuable x [1, 3] s →
    (spn s n.toNat).lockReq < 16 →
    let V := regV s x.eng v
    let own := issueOwner s n.toNat
    let e := lockDesc n.toNat own V
    let conn : BitVec 16 := BitVec.ofNat 16 (ubytes V 0 2)
    let cid : BitVec 16 := BitVec.ofNat 16 (ubytes V 8 2)
    (lockOk s own 0 V = true → e.count ≠ 0 → acquireCmd s e.conn e.cid e.internal = some c →
      (!e.internal && s.tables.marks.contains (e.conn, e.cid)) = false → lockUse s own < mget 0 s.tables.shares own →
      freeLockEntry s = some k →
      let g := !lockBlocked s { e with seq := s.tables.seq, granted := false }
      ∃ t, exec (.lockAcquire x v pq 0) s = .next t ∧
        mget none t.tables.locks k = some { e with seq := s.tables.seq, granted := g } ∧
        (∀ j, j ≠ k → mget none t.tables.locks j = mget none s.tables.locks j) ∧
        (spn t n.toNat).lockOut = (spn s n.toNat).lockOut ++ [lockResult e.tag { code := if g then 0 else 1, entry := k }] ∧
        (spn t n.toNat).lockDue = (spn s n.toNat).lockDue ++ [s.reel.core + 64] ∧
        (spn t n.toNat).fly = (spn s n.toNat).fly ++ [flight x s (.p pq) 1 1]) ∧
    (lockOk s own 1 V = true → ∃ t, exec (.lockRelease x v pq) s = .next t ∧ mget none t.tables.locks (ubytes V 0 2) = none ∧
        (∀ j, j ≠ ubytes V 0 2 → mget none t.tables.locks j = mget none s.tables.locks j) ∧ t.tables.cmds = s.tables.cmds) ∧
    (lockOk s own 2 V = true → liveCmd s conn cid = some c → c.locks.contains 65535 = false → locksOf s conn cid false = [] →
      ∃ t, exec (.abortMark x v pq) s = .next t ∧ t.tables.marks = s.tables.marks ++ [(conn, cid)] ∧ t.tables.locks = s.tables.locks ∧
        (spn t n.toNat).lockOut = (spn s n.toNat).lockOut ++ [lockResult (BitVec.ofNat 32 (ubytes V 4 4)) { code := 4 }]))

/-- R119, R121 to R123, R252, R398, R437: a descriptor that meets its port's rule under the slot's grant, with nothing owed on its port and room in its
crossing, is accepted with PQ 1: CIN opens on its lane with the key that stands in the slot, DCMD asks for its units, unless its request was late at the stack, or opens its write, TXF opens the frame (a frame of no
payload is sent at once), POUT opens a plane page of 521 units. The model's own choices that it rests on are in log entries 30 and 31. -/
def Obligations.GrantedDescriptors : Prop :=
  ∀ (x : Iss) (n : BitVec 6) (v : BitVec 4) (pq : BitVec 3) (s : State) (g : Grant), x.eng = .spindle n → issuable x [1, 3] s → x.mem = .ok →
    let V := regV s x.eng v
    let old := spn s n.toNat
    let opens := fun (c : Instr) (port fn : Nat) (p : Spindle → Prop) => portGrant s n.toNat port = some g → cmdOk s g port fn V = true →
      cmdOpen old port fn = false → (port ≠ 6 → crossingLoad s (grantQueue port g).1 (grantQueue port g).2 s.reel.core < crossingDepth (grantQueue port g).1) →
      ∃ t, exec c s = .next t ∧ p (spn t n.toNat) ∧
        (spn t n.toNat).fly = old.fly ++ [flight x s (.p pq) 1 1] ∧ (spn t n.toNat).g = old.g ∧ t.mem = s.mem
    let key := ubytes V 0 2
    (keyRefusal (keyOf s key) = none →
      opens (.cinEncrypt x v pq []) 6 0 (fun y => ∃ d, y.cin = some d ∧ d.left = ubytes V 2 2 ∧ d.addr = key ∧ d.key = (keyOf s key).key ∧
        d.enc = true ∧ d.lane = grantRes g) ∧
      opens (.cinDecrypt x v pq []) 6 1 (fun y => ∃ d, y.cin = some d ∧ d.left = ubytes V 2 2 ∧ d.addr = key ∧ d.key = (keyOf s key).key ∧
        d.enc = false ∧ d.lane = grantRes g)) ∧
    (dinLoad old + ubytes V 8 2 ≤ 1024 → g.late = false → opens (.dcmdRead x v pq []) 8 0 (fun y =>
      y.dreads = old.dreads ++ [{ addr := ubytes V 0 8, left := ubytes V 8 2, port := grantRes g, due := s.reel.core + 160, at_ := s.reel.core }])) ∧
    opens (.dcmdWrite x v pq []) 8 1 (fun y => ∃ d, y.dout = some d ∧ d.left = ubytes V 8 2 ∧ d.addr = ubytes V 0 8) ∧
    (ubytes V 2 2 ≠ 0 →
      opens (.txfRocev2Packet x v pq []) 11 0 (fun y => ∃ d, y.txf = some d ∧ d.left = (ubytes V 2 2 + 31) / 32 ∧ d.desc = V ∧ d.lane = grantRes g) ∧
      opens (.txfTcpSegment x v pq []) 11 1 (fun y => ∃ d, y.txf = some d ∧ d.left = (ubytes V 2 2 + 31) / 32 ∧ d.desc = V ∧ d.lane = grantRes g) ∧
      opens (.txfDeviceFrame x v pq []) 11 2 (fun y => ∃ d, y.txf = some d ∧ d.left = (ubytes V 2 2 + 31) / 32 ∧ d.desc = V ∧ d.lane = grantRes g)) ∧
    opens (.poutPlanePage x v pq []) 5 0 (fun y => ∃ d, y.pout = some d ∧ d.left = 521 ∧ d.desc = V)

/-! ## Instructions: control, system registers, traps (R97–R99, R107–R110, R140–R150) -/

/-- R105, R109, R140: on a spindle END ends the turn program after its two delay bundles, and MFSR gives CYCLE, POS, ID and HANK at latency 2. The
model's own choices that it rests on are in log entry 16. -/
def Obligations.SpindleControl : Prop :=
  ∀ (x : Iss) (n : BitVec 6) (d : BitVec 6) (s : State), x.eng = .spindle n → issuable x [0] s →
    exec (.endOp x) s = .next (spnStep n.toNat .stop id s) ∧
    writesG (.mfsr x d 0) x s d (s.reel.cycle.setWidth 64) 2 ∧
    writesG (.mfsr x d 1) x s d (s.reel.turn.setWidth 64 * 65536 + s.reel.cycle.setWidth 64) 2 ∧
    writesG (.mfsr x d 2) x s d (n.setWidth 64) 2 ∧
    writesG (.mfsr x d 3) x s d s.reel.hanks 2

/-- R140, R143 to R146: what taking a trap leaves in a core: the three fetch addresses, the cause and the value saved, PPRIV and PIE the old PRIV
and IE, supervisor mode with interrupts off and INTRAP set, no reservation, and the fetch at TVEC. SYSC traps with cause 9; in user mode MTSR, RFT
and an MFSR of 0x010 and above trap with cause 2; within a handler such a trap stops the core with a Severe fault; in supervisor mode MTSR writes
and MFSR reads. END is WAIT, and the stream instructions and VXACC are illegal instructions of a core (R141). The model's own choices that it rests
on are in log entries 16, 18, 19, 21 and 22. -/
def Obligations.TrapsAndSystem : Prop :=
  (∀ (n m : Nat) (cause val : BitVec 64) (s : State), m ≠ n →
    let o := coreOf s n
    let t := trapEnter n cause val s
    coreOf t n = { o with tpc0 := o.a0, tpc1 := o.a1, tpc2 := o.a2, tcause := cause, tval := val, ppriv := o.priv, pie := o.ie, priv := true,
                          ie := false, intrap := true, resv := none, waits := [], a0 := o.tvec, a1 := o.tvec + 16, a2 := o.tvec + 32 } ∧
    coreOf t m = coreOf s m ∧ t.spindles = s.spindles ∧ t.mem = s.mem) ∧
  (∀ (x : Iss) (n : BitVec 4) (d a : BitVec 6) (sn : BitVec 9) (s : State), x.eng = .core n → issuable x [0] s →
    let o := coreOf s n.toNat
    let spent := fun (k : BitVec 64) => modCore n.toNat (fun y => { y with cycles := y.cycles + k }) { s with draws := s.draws + 1 }
    let traps := fun (c : Instr) (code val : BitVec 64) => ∃ k : BitVec 64, k ≠ 0 ∧ exec c s = .next (trapEnter n.toNat code val (spent k))
    (o.intrap = false → traps (.sysc x sn) 9 (sn.setWidth 64) ∧
      (o.priv = false → traps (.mtsr x 0x11 a) 2 0 ∧ traps (.rft x) 2 0 ∧ traps (.mfsr x d 0x10) 2 0)) ∧
    (o.intrap = true → ∃ t, exec (.sysc x sn) s = .next t ∧ (coreOf t n.toNat).running = false ∧ (coreOf t n.toNat).dtrap = true ∧
      (groupOf t 5).total = satInc (groupOf s 5).total ∧ t.mem = s.mem) ∧
    (o.priv = true → ∃ k : BitVec 64, k ≠ 0 ∧
      exec (.mtsr x 0x11 a) s = .next (coreStep n.toNat .seq k (fun y => { y with tvec := regG s x.eng a &&& ~~~15#64 }) s)) ∧
    (o.priv = true → ∃ k : BitVec 64, k ≠ 0 ∧
      exec (.mtsr x 0x12 a) s = .next (coreStep n.toNat .seq k (fun y => { y with tcause := regG s x.eng a }) s)) ∧
    (o.priv = true → writesG (.mfsr x d 0x14) x s d o.tpc0 2 ∧ writesG (.mfsr x d 0x12) x s d o.tcause 2) ∧
    writesG (.mfsr x d 2) x s d (n.setWidth 64 ||| 256) 2 ∧
    ∃ k : BitVec 64, k ≠ 0 ∧ exec (.endOp x) s = .next (coreStep n.toNat .stop k id s)) ∧
  (∀ (x : Iss) (n : BitVec 4) (v port : BitVec 4) (pq : BitVec 3) (a : BitVec 6) (i : BitVec 11) (s : State), x.eng = .core n → issuable x [1] s →
    (coreOf s n.toNat).intrap = false →
    let spent := fun (k : BitVec 64) => modCore n.toNat (fun y => { y with cycles := y.cycles + k }) { s with draws := s.draws + 1 }
    ∀ c ∈ [Instr.vxacc x v a i, .spush x v port pq [], .spop x v port pq [], .sstatReady x a port, .sstatRoom x a port, .postRead x v pq, .postProgram x v pq,
        .postErase x v pq, .postTemperatureRead x v pq, .postRawDiagnosticRead x v pq, .lockAcquire x v pq 0, .lockRelease x v pq, .abortMark x v pq,
        .cinEncrypt x v pq [], .cinDecrypt x v pq [], .dcmdRead x v pq [], .dcmdWrite x v pq [], .txfRocev2Packet x v pq [], .txfTcpSegment x v pq [],
        .txfDeviceFrame x v pq [], .poutPlanePage x v pq []],
      ∃ k : BitVec 64, k ≠ 0 ∧ exec c s = .next (trapEnter n.toNat 1 0 (spent k)))

/-- R144, R147 to R149, R670: the cache functions act on the line of the address in A on a core, change no register, and are NOPs on a spindle;
function 4 traps in user mode. An interrupt is taken by a running core with IE 1 that the controller signals: a trap with cause 0x10; WAIT puts the
core to sleep after two more bundles; a core that an eligible source wakes traps with IE 1, else goes on. The model's own choices that it rests on
are in log entries 16, 18 and 21. -/
def Obligations.CachesAndInterrupts : Prop :=
  (∀ (x : Iss) (a : BitVec 6) (s : State), issuable x [0] s →
    let L := (regG s x.eng a).toNat / 64
    match x.eng with
    | .spindle n => ∀ c ∈ [Instr.cacheFence x a, .cacheInvalidateIcache x a, .cacheClean x a, .cacheCleanInvalidate x a,
        .cacheInvalidateLine x a, .cacheInvalidateIline x a], exec c s = .next (spnStep n.toNat .seq id s)
    | .core n =>
      let does := fun (c : Instr) (f : CoreSt → CoreSt) => ∃ k : BitVec 64, k ≠ 0 ∧ exec c s = .next (coreStep n.toNat .seq k f s)
      does (.cacheFence x a) id ∧ does (.cacheInvalidateIcache x a) (fun y => { y with iline := [] }) ∧
      does (.cacheClean x a) (fun y => { y with dirty := mdel L y.dirty }) ∧
      does (.cacheCleanInvalidate x a) (fun y => { y with dirty := mdel L y.dirty, bline := mdel L y.bline }) ∧
      does (.cacheInvalidateIline x a) (fun y => { y with iline := mdel L y.iline }) ∧
      ((coreOf s n.toNat).priv = true → mget [] (coreOf s n.toNat).dirty L = [] →
        does (.cacheInvalidateLine x a) (fun y => { y with dirty := mdel L y.dirty, bline := mdel L y.bline })) ∧
      ((coreOf s n.toNat).priv = false → (coreOf s n.toNat).intrap = false → ∃ k : BitVec 64, k ≠ 0 ∧ exec (.cacheInvalidateLine x a) s =
        .next (trapEnter n.toNat 2 0 (modCore n.toNat (fun y => { y with cycles := y.cycles + k }) { s with draws := s.draws + 1 })))) ∧
  (∀ (n : BitVec 4) (s : State),
    let o := coreOf s n.toNat
    let awake := modCore n.toNat (fun y => { y with sleeping := false }) s
    let spent := fun (k : BitVec 64) (t : State) => modCore n.toNat (fun y => { y with cycles := y.cycles + k }) { t with draws := t.draws + 1 }
    (o.running = true → o.sleeping = false → o.ie = true → signalled s n.toNat = true →
      ∃ k : BitVec 64, k ≠ 0 ∧ exec (.interruptTaken n) s = .next (trapEnter n.toNat 0x10 0 (spent k s))) ∧
    (o.ie = false → exec (.interruptTaken n) s = .next s) ∧
    (o.running = true → o.sleeping = true → wakes s n.toNat = true → o.ie = true →
      ∃ k : BitVec 64, k ≠ 0 ∧ exec (.coreWake n) s = .next (trapEnter n.toNat 0x10 0 (spent k awake))) ∧
    (o.running = true → o.sleeping = true → wakes s n.toNat = true → o.ie = false →
      ∃ k : BitVec 64, k ≠ 0 ∧ exec (.coreWake n) s = .next (spent k awake)) ∧
    (wakes s n.toNat = false → exec (.coreWake n) s = .next s) ∧
    (o.waits = [] → (coreNext .stop o).sleeping = o.sleeping ∧ (coreNext .seq (coreNext .stop o)).sleeping = o.sleeping ∧
      (coreNext .seq (coreNext .seq (coreNext .stop o))).sleeping = true))

/-! ## What follows an instruction (R100, R101, R119, R122, R124, R132, R155, R306, R436, R438) -/

/-- R100, R101: results land at their cycle. In a cycle in which no spindle has a bundle left to issue and that is not the last of a turn, the
clock's next cycle lands every result due by then, on every spindle; of two results for one g register that are due together, the register keeps
the one of the later bundle, and of one bundle that of the higher slot. The model's own choices that it rests on are in log entry 3. -/
def Obligations.ResultsLand : Prop :=
  (∀ (n : BitVec 6) (s : State) (f : Inflight), mwf {} s.spindles = true → s.reel.commitDue = false → s.reel.cycle ≠ 8191 → firstDue (spn s n.toNat).fly = some f.due →
    f.due = s.reel.core + 1 → (∀ m, spnIssues s m = true → (spn s m).issuedAt = some s.reel.core) →
    ∃ t, exec (.instructionResult (.spindle n)) s = .next t ∧ t.reel.core = s.reel.core + 1 ∧
      (∀ m, spn t m = drainPorts (s.reel.core + 1) (landDue (s.reel.core + 1) (spn s m))) ∧ t.cores = s.cores ∧ t.mem = s.mem ∧ t.piers = s.piers) ∧
  (∀ (x : Spindle) (a b : Inflight) (r : BitVec 6) (core : Nat), r ≠ 0 → a.reg = .g r → b.reg = .g r → a.due = core → b.due = core →
    (a.at_ < b.at_ ∨ a.at_ = b.at_ ∧ a.slot < b.slot) →
    mget 0 (landDue core { x with fly := [a, b] }).g r.toNat = b.val.setWidth 64 ∧
    mget 0 (landDue core { x with fly := [b, a] }).g r.toNat = b.val.setWidth 64) ∧
  (∀ (x : Spindle) (a : Inflight) (core : Nat), core < a.due → landDue core { x with fly := [a] } = { x with fly := [a] })

/-- R119, R122, R124, R131, R155, R157, R158, R436, R438, R487: the units that become ready. A decided lock result reaches the spindle's LOCK port
while it holds fewer than 16; the unit at a lane's head whose time has come leaves it for COUT when the two results agree, and is withheld with a
fault of the compare when they differ, and is discarded in a slot that a faulted spindle holds; the next unit of a DRAM read, no earlier than 112
cycles before its latest time, reaches DIN with the bytes of memory, while its crossing has room; an EVQ entry becomes, from the cycle after its
acceptance on, an event of code 0x07 and its low byte, with the spindle as word 0. The model's own choices that it rests on are in log entries 3, 26,
27 and 39. -/
def Obligations.UnitsBecomeReady : Prop :=
  ∀ (n : BitVec 6) (s : State),
    let x := spn s n.toNat
    (∀ u rest, x.lockOut = u :: rest → x.lockRes.length < 16 →
      exec (.lockResult n) s = .next (modSpn n.toNat (fun y =>
        { y with lockOut := rest, lockDue := y.lockDue.drop 1, lockRes := y.lockRes ++ [u] }) s)) ∧
    (∀ (u : LaneUnit) rest, (lane s n.toNat).pipe = u :: rest → u.due ≤ s.reel.core → (lane s n.toNat).bad ≠ some u.desc →
      (laneDiscards s n.toNat = true →
        exec (.cipherUnitReady n false) s = .next (modLane n.toNat (fun l => { l with pipe := rest }) s)) ∧
      (laneDiscards s n.toNat = false →
      exec (.cipherUnitReady n false) s = .next (modLane n.toNat (fun l => { l with pipe := rest, out := l.out ++ [some u.data] }) s) ∧
      ∃ t, exec (.cipherUnitReady n true) s = .next t ∧ (lane t n.toNat).pipe = rest ∧ (lane t n.toNat).bad = some u.desc ∧
        (lane t n.toNat).out = (lane s n.toNat).out ++ [none] ∧ t.ciph.cmpcnt = satInc s.ciph.cmpcnt ∧
        (groupOf t 12).total = satInc (groupOf s 12).total ∧ t.spindles = s.spindles)) ∧
    (∀ (r : DinRead) rest, x.dreads = r :: rest → x.din.length < 1024 → r.due ≤ s.reel.core + 112 → poisoned s r.addr 32 = false →
      (∀ f ∈ (drcOf s (r.port / 16)).fresh, f.addr ≠ r.addr) → crossingLoad s 4 (r.port / 16) s.reel.core < 2048 → x.state ≠ 3 →
      ∃ t, exec (.dramReadUnitReady n .ok) s = .next t ∧
        (spn t n.toNat).din = x.din ++ [{ data := BitVec.ofNat 256 (leNat (memBytes s r.addr 32)), poison := false }] ∧
        (spn t n.toNat).dreads = (if r.left ≤ 1 then rest else { r with addr := r.addr + 32, left := r.left - 1, due := r.due + 1 } :: rest) ∧
        t.mem = s.mem ∧ t.drcs = s.drcs) ∧
    (∀ e rest, x.evq = e :: rest → e.at_ < s.reel.core → x.evqFree ≤ s.reel.core → s.evr.stop = false → s.evr.queue.length < 64 →
      ∃ t r, exec (.eventEntry n) s = .next t ∧ t.evr.queue = s.evr.queue ++ [r] ∧ r.code.toNat = 0x700 + e.unit.toNat % 256 ∧
        r.time = e.time ∧ r.w0 = BitVec.ofNat 32 n.toNat ∧ r.w1 = (e.unit >>> 32).setWidth 32 ∧ (spn t n.toNat).evq = rest) ∧
    (n.toNat < nSpindles s → x.state = 3 →
      exec (.spindleRestartRequest n) s = .next (modSpn n.toNat (fun y => { y with restart := true }) s)) ∧
    (x.state ≠ 3 → ∃ t, exec (.spindleRestartRequest n) s = .next t ∧ (∀ m, spn t m = spn s m) ∧ t.reel = s.reel ∧ t.mem = s.mem)

/-! ## The clock, the sequencer and its slots (R20, R38, R42–R49, R53, R62, R64, R71–R73, R110, R111, R132, R199, R206–R215) -/

/-- R38, R53, R71, R110, R132: TURN_BOUNDARY. With no spindle left to issue, a running clock goes on to the first cycle of the next turn: the core
clock by the cycles left, CYCLE 0, TURN one more modulo 64, and at the end of turn 63 a hank boundary. Within a hank, under a deck of an image,
every spindle that is not faulted starts at the address of the timetable, and a faulted one only where a restart is pending: its registers are then
0 and its scratch memory is as it was. A stopped clock stays. The model's own choices that it rests on are in log entries 3, 5 and 41. -/
def Obligations.ClockTurns : Prop :=
  (∀ s : State, s.reel.run = false → exec .turnBoundary s = .next s) ∧
  (∀ s : State, s.reel.run = true → s.reel.commitDue = false → mwf {} s.spindles = true → s.tables.cmds = [] → (∀ n, (spn s n).state ≠ 1) →
    ∃ t, exec .turnBoundary s = .next t ∧
      t.reel = { s.reel with core := s.reel.core + (8192 - s.reel.cycle.toNat), cycle := 0, turn := s.reel.turn + 1,
                             commitDue := decide (s.reel.turn = 63) } ∧
      t.mem = s.mem ∧ t.cores = s.cores ∧ t.piers = s.piers ∧ t.fcr = s.fcr ∧
      ∀ n, (spn t n).scratch = (spn s n).scratch ∧ (spn t n).pm = (spn s n).pm ∧
        ((spn s n).state = 2 → n < nSpindles s → s.reel.deck ≠ 0 → s.reel.deck ≠ 0xE → (spn t n).lastEnd = (spn s n).lastIssue) ∧
        (s.reel.turn ≠ 63 → s.reel.deck ≠ 0 → s.reel.deck ≠ 0xE → n < nSpindles s →
          let starts := (spn t n).state = 1 ∧ (spn t n).endLeft = none ∧ (spn t n).a1 = (spn t n).a0 + 16 ∧
            (spn t n).a0 = (mget 0 s.reel.tt.entries ((s.reel.phase.toNat * 64 + (s.reel.turn + 1).toNat) * 64 + n)).toNat * 16
          ((spn s n).state ≠ 3 → starts) ∧
          ((spn s n).state = 3 → (spn s n).restart = true → starts ∧ (spn t n).g = [] ∧ (spn t n).v = [] ∧ (spn t n).p = [] ∧
            (spn t n).fcause = 0 ∧ (spn t n).fpc = 0 ∧ (spn t n).restart = false) ∧
          ((spn s n).state = 3 → (spn s n).restart = false → (spn t n).state = 3)))

/-- R39, R59, R62, R72, R206 to R208, R212, R214, R215, R420, R421, R431: HANK_COMMIT with no command in work. The hank count grows by one; with no
request the deck stays and its phase moves on; a management request at least one commit old makes its deck active when the phase returns to 0, with
RESULT 2 where it is the latest, and no request waits then unless a condition of the device asks for a mode; DEFER_LIM, the pending key operations and the pending classes take effect; each bucket gains its refill up to its cap, as the record read since the last
commit has them, or else the one in force. The model's own choices that it rests on are in log entries 41 and 42. -/
def Obligations.HankCommits : Prop :=
  ∀ s : State, s.reel.run = true → s.reel.commitDue = true → maySequencerStop s = false → atRest s → s.pwr.waitCommit = false →
    mwf {} s.reel.cls = true → mwf {} s.vct.ents = true → (∀ e ∈ s.ciph.slots, e.2.warned = true → e.2.flagged = true) →
    ∃ t, exec .hankCommit s = .next t ∧ t.reel.hanks = s.reel.hanks + 1 ∧ t.reel.commitDue = false ∧ t.reel.cycle = s.reel.cycle ∧
      t.reel.turn = s.reel.turn ∧ t.mem = s.mem ∧
      (s.reel.req = none → t.reel.deck = s.reel.deck ∧ t.reel.tt = s.reel.tt ∧ t.reel.phase = nextPhase s.reel ∧
        ∀ c, (clsOf t c).lim = (clsOf s c).limPend.getD (clsOf s c).lim ∧ (clsOf t c).limPend = none) ∧
      (∀ q dk, s.reel.req = some q → q.device = false → q.soon = false → q.tilost = none → q.mode ≠ 0 → q.mode ≠ 11 → q.mode ≠ 0xE →
        s.store.running.bind (deckOf · q.mode) = some dk →
        (if nextPhase s.reel = 0 ∧ 1 ≤ q.commits then
          t.reel.deck = q.mode ∧ t.reel.tt = dk ∧ t.reel.phase = 0 ∧ t.reel.period = dk.period ∧ (q.latest = true → t.reel.result = 2) ∧
          t.reel.ret = some q.mode ∧ ((∀ m, conditionHolds t m = false) → t.reel.req = none ∧ t.reel.pend = 0xF)
         else t.reel.deck = s.reel.deck ∧ t.reel.req = some { q with commits := q.commits + 1 })) ∧
      (∀ k p, (keyOf s k).pend = some p → p.use ≠ 0 → (keyOf t k).pend = none ∧ (keyOf t k).key = p.key ∧ (keyOf t k).use = p.use ∧
        (keyOf t k).vc = p.vc ∧ (keyOf t k).cnt = 0) ∧
      (∀ v, ((vcOf s v).pcls ≠ 0 → (vcOf t v).cls = (vcOf s v).pcls ∧ (vcOf t v).pcls = 0) ∧
        ((vcOf s v).state = 1 → let rec_ := (vcOf s v).next.getD (vcOf s v).inForce
          (vcOf t v).inForce = rec_ ∧ (vcOf t v).next = none ∧ (vcOf t v).rd = min ((vcOf s v).rd + rec_.rdRefill.toNat) rec_.rdCap.toNat))

/-- R199, R320, R487: the activation of a sealed image. SEQUENCER_STOP, at a hank boundary with nothing left to wait for, stops the sequencer at
position 0, loads every spindle's memories, makes its registers 0, and names the bank in the boot record; timetable memory found poisoned ends in
the built-in Hold deck with a fault of group 23. ACTIVATION_FIRST_COMMIT starts the sequencer with the image's boot mode, or mode 10 after Quiesce,
which is a hank commit. Without an activation neither does anything. The model's own choices that it rests on are in log entries 41, 60 and 61. -/
def Obligations.SequencerStopsAndStarts : Prop :=
  ∀ s : State,
    (maySequencerStop s = false → exec (.sequencerStop false) s = .next s) ∧
    (s.store.act ≠ .stopped → exec (.activationFirstCommit [] []) s = .next s) ∧
    (∀ im, maySequencerStop s = true → s.reel.commitDue = true → sealedImage s s.store.actBank.toNat = some im → s.reel.req = none →
      (∃ t, exec (.sequencerStop false) s = .next t ∧ t.reel.run = false ∧ t.reel.turn = 0 ∧ t.reel.cycle = 0 ∧ t.reel.commitDue = false ∧
        t.reel.grants = [] ∧ t.reel.deck = s.reel.deck ∧ t.store.act = .stopped ∧ t.store.running = some im ∧
        (s.store.boot = false → t.store.recBank = s.store.actBank ∧ t.store.recDig = im.digest) ∧ t.mem = s.mem ∧
        ∀ n, n < nSpindles s → spn t n = loadSpindle im n (spn s n) ∧ (spn t n).g = [] ∧ (spn t n).state = 0) ∧
      (∃ t, exec (.sequencerStop true) s = .next t ∧ t.store.act = .none ∧ t.store.running = none ∧ t.reel.deck = 0 ∧
        (groupOf t 23).total = satInc (groupOf s 23).total ∧ (mwf {} s.spindles = true →
          ∀ n, spn t n = { spn s n with state := if (spn s n).state = 3 then 3 else 0, endLeft := none }))) ∧
    (∀ im dk, s.store.act = .stopped → s.store.running = some im → deckOf im (if s.store.fromQuiesce then 10 else im.bootMode) = some dk →
      atRest s → flushInForce s = none → s.xpt.waitCaps = [] → mwf {} s.piers.chans = true →
      (∀ e ∈ s.ciph.slots, e.2.warned = true → e.2.flagged = true) → (∀ d ∈ im.groups.flatten, isLost s d = false) →
      (if s.store.fromQuiesce then 10 else im.bootMode) ≠ 0 → (if s.store.fromQuiesce then 10 else im.bootMode) ≠ 0xE →
      ∃ t, exec (.activationFirstCommit [] []) s = .next t ∧ t.reel.run = true ∧ t.reel.turn = 0 ∧ t.reel.cycle = 0 ∧
        t.reel.deck = (if s.store.fromQuiesce then 10 else im.bootMode) ∧ t.reel.tt = dk ∧ t.reel.hanks = s.reel.hanks + 1 ∧
        t.store.act = .none ∧ t.sys.stage = 9 ∧ t.pwr.imageRan = true ∧ t.mem = s.mem ∧ t.xpt.takes = true)

/-- R20, R42, R45, R48, R53, R73, R88, R152, R158: the slots of a running deck, at the cycle they name, while no other slot holds their resource.
SLOT_START grants the slot: an issue slot, with no command or read of its class to deal with, changes nothing else of the engines; a read window with
a suspend point suspends the operation of a busy die once more for the reads posted to it and adds the resume penalty to its plan; a program slice starts the program that waits for it.
EARLY_GRANT of a die's slot, issued 72 cycles before its start, counts the reads booked there and the operations that wait for it in the crossing
queue of the channel, which has room for them. SLOT_END drops the grant. The model's own choices that it rests on are in log entries 34, 55, 56 and 57. -/
def Obligations.SlotsAndGrants : Prop :=
  ∀ (k : BitVec 16) (i o : BitVec 12) (late : Bool) (e : SlotEntry) (s : State), slotNamed s k.toNat i.toNat o.toNat = some e →
    s.reel.commitDue = false → mget false s.reel.ttBad k.toNat = false →
    let d := e.base + i.toNat * e.istep + o.toNat * e.ostep
    let g : Grant := { slot := e, entry := k.toNat, i := i.toNat, o := o.toNat, since := s.reel.core }
    let early := s.reel.early.find? (isGrant k.toNat i.toNat o.toNat)
    let fresh := grantHeld s k.toNat i.toNat o.toNat = none ∧ startFrom s e i.toNat o.toNat s.reel.core = some s.reel.core ∧ resFree s g = true
    (fresh → early = none → e.typ = 8 → e.kind = 5 → s.tables.cmds = [] → s.piers.ops = [] → s.piers.items = [] →
      (takeItems (fun h => h.setWidth 8 = 2#8 || h.setWidth 8 = 3#8) (spn s d).rxq.length (spn s d).rxq).2 = [] → (∀ x ∈ s.xpt.conns, x.2.recs = []) → ∃ t, exec (.slotStart k i o false 0 0 []) s = .next t ∧
      t.reel.grants = s.reel.grants ++ [{ g with spindle := some d }] ∧ t.spindles = s.spindles ∧ t.piers.booked = s.piers.booked ∧ t.mem = s.mem ∧
      t.reel.core = s.reel.core) ∧
    (∀ y op, fresh → early = some y → y.since + 72 = s.reel.core → y.late = false → e.typ = 2 → e.kind = 1 → e.owner ≠ 0x1FF →
      (dieOf s d).op = some op → op.suspended = false →
      toIssue s d ≠ [] → op.suspends < suspendLimit s d op.desc.fn → ∃ t, exec (.slotStart k i o false 0 0 []) s = .next t ∧
        t.reel.grants = s.reel.grants ++ [g] ∧
        (dieOf t d).op = some { op with suspends := op.suspends + 1, suspended := true, left := op.left + nsCycles (runFig s d).resumeNs } ∧
        (∀ q, q ≠ d → dieOf t q = dieOf s q) ∧ t.piers.booked = s.piers.booked ∧ t.spindles = s.spindles) ∧
    (∀ y x, fresh → early = some y → y.since + 72 = s.reel.core → y.late = false → e.typ = 3 → e.kind = 1 → e.owner ≠ 0x1FF → s.reel.deck ≠ 0 → s.reel.deck ≠ 0xE → s.piers.ops = [x] →
      x.fn = 1 → waitsFor s g d x = true → isLost s d = false → (dieOf s d).op = none → dataHere s x = true →
      ∃ t, exec (.slotStart k i o false 0 0 []) s = .next t ∧
        t.reel.grants = s.reel.grants ++ [g] ∧ (dieOf t d).op = some { desc := x, left := planned s x } ∧ t.piers.ops = [] ∧
        (∀ q, q ≠ d → dieOf t q = dieOf s q)) ∧
    (let n := earlyEntries s g (s.reel.core + 72)
     e.kind = 1 → startFrom s e i.toNat o.toNat (s.reel.core + 72) = some (s.reel.core + 72) → crossingLoad s 0 (d / 16) s.reel.core + n ≤ 320 →
      ∃ t, exec (.earlyGrant k i o late .ok) s = .next t ∧
        mget 0 t.reel.xq (crossingKey 0 (d / 16)) = mget 0 s.reel.xq (crossingKey 0 (d / 16)) + n ∧
        (∃ y ∈ t.reel.early, isGrant k.toNat i.toNat o.toNat y = true ∧ y.pushed = n ∧ y.late = late) ∧ t.reel.vcount = s.reel.vcount ∧
        t.piers = s.piers) ∧
    (∀ h, grantHeld s k.toNat i.toNat o.toNat = some h → h.slot.typ = 8 → h.since + h.slot.len ≤ s.reel.core →
      ∃ t, exec (.slotEnd k i o []) s = .next t ∧ t.reel.grants = s.reel.grants.filter (fun x => !sameSlot h x) ∧
        t.spindles = s.spindles ∧ t.lanes = s.lanes ∧ t.mem = s.mem)

/-! ## Modes (R204, R211–R215) -/

/-- R204, R211, R213 to R215: what a management request for a mode answers. One that the matrix permits, whose deck the image holds and that no
mode of higher rank bars is accepted, with RESULT 1, and waits; otherwise RESULT says why, from then on, and nothing else of the sequencer changes; a
cancelled request leaves RESULT 0, and none waits unless a condition of the device asks for a mode; Hold is accepted from mode 10 or with nothing staged. The model's own choices that it rests on are in log entry 44. -/
def Obligations.ModeRequests : Prop :=
  ∀ (m : BitVec 4) (s : State) (im : Image), s.store.running = some im → s.reel.commitDue = false → m ≠ 0xF →
    let may := bit (mget 0 im.matrix s.reel.deck.toNat) m.toNat
    let asks := fun (c : Instr) => c = (if m = 0 then Instr.reelHoldRequest else .reelModeRequest m)
    let kept := fun (t : State) => t.reel.req = s.reel.req.map (fun q => { q with latest := false }) ∧ t.reel.pend = s.reel.pend ∧ t.reel.deck = s.reel.deck ∧ t.mem = s.mem
    let answers := fun (r : BitVec 8) => ∀ c, asks c → ∃ t, exec c s = .next t ∧ t.reel.modeReg = m ∧ t.reel.result = r ∧ kept t
    let accepted := ∀ c, asks c → ∃ t, exec c s = .next t ∧ t.reel.modeReg = m ∧ t.reel.result = 1 ∧ t.reel.pend = m ∧
      t.reel.req = some (newRequest m false false none s) ∧ t.reel.deck = s.reel.deck ∧ t.reel.cls = s.reel.cls ∧ t.mem = s.mem
    (m ≠ 0 → m.toNat < 12 → may = true → (deckOf im m).isSome = true → s.reel.req = none → activeRank s = 5 → accepted) ∧
    (m ≠ 0 → m.toNat < 12 → may = true → (deckOf im m).isSome = true → s.reel.req = none → activeRank s < 5 →
      modeRank m < activeRank s → accepted) ∧
    (m ≠ 0 → m.toNat < 12 → may = true → (deckOf im m).isSome = true → s.reel.req = none → activeRank s < 5 →
      activeRank s ≤ modeRank m → answers 5) ∧
    (m.toNat < 12 → may = false → answers 3) ∧
    (m ≠ 0 → m.toNat < 12 → may = true → deckOf im m = none → answers 4) ∧
    (12 ≤ m.toNat → answers 7) ∧
    (m = 0 → may = true → s.reel.req = none → (s.reel.deck = 10 ∨ stagedBytes s = 0) → accepted) ∧
    (m = 0 → may = true → s.reel.deck ≠ 10 → stagedBytes s ≠ 0 → answers 8) ∧
    (∀ q, s.reel.req = some q → q.device = false → q.tilost = none → ∃ t, exec .reelModeCancel s = .next t ∧
      ((∀ m, conditionHolds s m = false) → modeEnded s = false → t.reel.req = none ∧ t.reel.pend = 0xF) ∧ t.reel.result = 0 ∧
      t.reel.deck = s.reel.deck) ∧
    (∀ q, s.reel.req = some q → q.device = true → ∃ t, exec .reelModeCancel s = .next t ∧ t.reel.req = some q ∧ t.reel.result = s.reel.result)

/-! ## The piers (R45, R70, R378–R388, R392–R396, R399–R407) -/

/-- R376, R381 to R388, R406, R407: a flash channel's bring-up and its fencing. START, the pin test, identification and training lead from STATE 0
to STATE 2 and leave what they found in the channel's registers; a pin fault, targets other than expected, a failed training at rate code 5, a
narrowed window at an extended rate in the sweep that is due, a dead bus or FENCE leaves STATE 3 with its cause and a Degraded fault of group 11.
No other channel changes. The model's own choices that it rests on are in log entries 1, 5 and 192: the last is a failure at a rate code below 5. -/
def Obligations.ChannelBringUp : Prop :=
  ∀ (c : BitVec 7) (s : State) (f : BitVec 16) (centres : BitVec 48) (ident : BitVec 64) (fig : DieFig) (tog : Bool) (kind : BitVec 4)
    (a b margin : BitVec 8) (dqs re : BitVec 6), c.toNat < nChannels s →
    let n := c.toNat
    let x := chan s n
    let goes := fun (i : Instr) (p : Chan → Prop) => ∃ t, exec i s = .next t ∧ p (chan t n) ∧ t.mem = s.mem ∧ t.spindles = s.spindles ∧
      ∀ k, k ≠ n → chan t k = chan s k
    let fences := fun (i : Instr) (cause : BitVec 4) => ∃ t, exec i s = .next t ∧ (chan t n).state = 3 ∧ (chan t n).cause = cause ∧
      bit (chan t n).irq 0 = true ∧ (groupOf t 11).total = satInc (groupOf s 11).total ∧ t.mem = s.mem ∧ t.spindles = s.spindles ∧
      ∀ k, k ≠ n → chan t k = chan s k
    (x.state = 0 → goes (.bringUpStart c) (fun y => y = { x with state := 1, step := 1 })) ∧
    (x.state = 1 → x.step = 1 → goes (.pinTestComplete c 0 a b) (fun y => y = { x with step := 2 }) ∧
      (kind ≠ 0 → fences (.pinTestComplete c kind a b) 1 ∧
        goes (.pinTestComplete c kind a b) (fun y => y.pinKind = kind ∧ y.pinA = a ∧ y.pinB = if kind = 3 then b else 0))) ∧
    (x.state = 1 → x.step = 2 →
      ((x.tgtExp = 0 ∨ x.tgtExp = f) → goes (.targetIdentificationComplete c f 0 0 0 tog ident fig [])
        (fun y => y.found = f ∧ y.step = 4 ∧ y.state = 1 ∧ y.iface = (if tog then 2 else 1) ∧ y.tryRate = minRate 5 (minRate x.rateMax fig.maxRate) ∧
          ∀ k < 16, bit f k = true → (mget {} y.dies k).fitted = true ∧ (mget {} y.dies k).ident = ident ∧ (mget {} y.dies k).fig = some fig)) ∧
      (x.tgtExp ≠ 0 → x.tgtExp ≠ f → fences (.targetIdentificationComplete c f 0 0 0 tog ident fig []) 2)) ∧
    (x.state = 1 → x.step = 4 → x.iface ≠ 3 →
      goes (.trainingAttemptComplete c true centres dqs re margin)
        (fun y => y.state = 2 ∧ y.rate = x.tryRate ∧ y.dqs = dqs ∧ y.re = re ∧ y.margin = margin ∧ bit y.irq 8 = true ∧
          (∀ k < 8, mget 0 y.skew k = (centres >>> (6 * k)).setWidth 6) ∧ (y.slewUsed = x.slew ∨ x.slew < y.slewUsed)) ∧
      (5 < x.tryRate.toNat → goes (.trainingAttemptComplete c false centres dqs re margin)
        (fun y => y.state = 1 ∧ y.step = 4 ∧ y.tryRate = x.tryRate - 1)) ∧
      (x.tryRate.toNat ≤ 5 → fences (.trainingAttemptComplete c false centres dqs re margin) 3)) ∧
    (x.state ≠ 3 → fences (.channelFence c) 5) ∧
    (x.state = 2 → fences (.busTimeout c) 6) ∧
    (x.state = 2 → x.iface = 3 → sweepDue s n = true → (margin.toNat < 16 → fences (.deskewCheck c margin false centres) 4) ∧
      (16 ≤ margin.toNat → goes (.deskewCheck c margin false centres) (fun y => y = { x with margin := margin, swept := s.reel.hanks.toNat / 1024 + 1 }) ∧
        goes (.deskewCheck c margin true centres)
          (fun y => y.margin = margin ∧ bit y.irq 9 = true ∧ ∀ k < 8, mget 0 y.skew k = (centres >>> (6 * k)).setWidth 6)))

/-- R45, R70, R336, R360, R367, R394, R396, R399, R404, R405: a die's operations. A suspend in time issues the posted reads, a late one that still
fits does so with an overrun of row 1; the end of the last sense resumes the operation, and its reads await their decode; a program or an erase that ends leaves the die free and an
outcome item with its code, and its pages or the worn and empty block unit; a die that is not ready, fails its reset or shows another ID is lost; a
temperature goes to PIER_TEMP. The model's own choices that it rests on are in log entries 32 and 93. -/
def Obligations.DieOperations : Prop :=
  ∀ (d : BitVec 11) (s : State) (o : DieOp) (T : BitVec 8) (r : BitVec 2) (ident : BitVec 64),
    let n := d.toNat
    let x := o.desc
    let item := fun (code : Nat) => (x.spindle, x.owner, x.row, statusUnit x.tag code 0 0 o.suspends x.die x.block x.page 0)
    let issues := fun (t : State) => t.piers.booked.length = s.piers.booked.length ∧ t.mem = s.mem ∧
      ∀ b ∈ t.piers.booked, b.desc.die = n → b.at_ ≤ s.reel.core → b.issued = true
    (openBookings s n ≠ [] → (∃ t, exec (.suspendComplete d true true) s = .next t ∧ issues t ∧ t.fcr = s.fcr ∧ t.piers.chans = s.piers.chans) ∧
      ∃ t, exec (.suspendComplete d false true) s = .next t ∧ issues t ∧ (groupOf t 10).total = satInc (groupOf s 10).total ∧
        (chan t (n / 16)).ovrCount = satInc (chan s (n / 16)).ovrCount ∧ (chan t (n / 16)).ovrCase = 1) ∧
    ((openBookings s n).any (·.issued) = true → (dieOf s n).op = some o → ∃ t, exec (.senseComplete d false) s = .next t ∧
      (dieOf t n).op = some { o with suspended := false } ∧
      t.piers.booked = s.piers.booked.map (fun b => if b.desc.die = n ∧ b.at_ ≤ s.reel.core ∧ b.issued = true then { b with sensed := true } else b) ∧
      ∀ q, q ≠ n → dieOf t q = dieOf s q) ∧
    ((dieOf s n).op = some o → o.suspended = false →
      (x.fn = 1 → (∃ t, exec (.programComplete d true) s = .next t ∧ (dieOf t n).op = none ∧ t.piers.outcomes = s.piers.outcomes ++ [item 8] ∧
          ∀ p ∈ programPages x, mget [] t.piers.data (pageNumber x.die x.block p) = mget [] s.piers.data (2 ^ 60 + pageNumber x.die x.block p)) ∧
        ∃ t, exec (.programComplete d false) s = .next t ∧ (dieOf t n).op = none ∧ t.piers.outcomes = s.piers.outcomes ++ [item 9] ∧
          bit (chan t (x.die / 16)).irq 2 = true) ∧
      (x.fn = 2 → (∃ t, exec (.eraseComplete d true) s = .next t ∧ (dieOf t n).op = none ∧ t.piers.outcomes = s.piers.outcomes ++ [item 10] ∧
          (blockOf t x.die x.block).wear = satAdd (blockOf s x.die x.block).wear (if (blockOf s x.die x.block).pslc = true ∨
            blockState s x.die x.block = 7 ∨ blockState s x.die x.block = 8 then 1 else 4) ∧
          (blockOf t x.die x.block).pages = 0 ∧ ∀ e ∈ t.piers.data, e.1 / 8208 ≠ x.die * 2048 + x.block) ∧
        ∃ t, exec (.eraseComplete d false) s = .next t ∧ (dieOf t n).op = none ∧ t.piers.outcomes = s.piers.outcomes ++ [item 11] ∧
          bit (chan t (x.die / 16)).irq 2 = true)) ∧
    (isLost s n = false → (dieOf s n).op = some o → ∃ t, exec (.dieReadyTimeout d) s = .next t ∧ (dieOf t n).reset = true ∧
      (dieOf t n).op = some o ∧ t.piers.outcomes = s.piers.outcomes) ∧
    (isLost s n = false → (dieOf s n).resetting = true →
      ((dieOf s n).op = some o → ∃ t, exec (.dieResetComplete d 0) s = .next t ∧ (dieOf t n).op = none ∧ (dieOf t n).reset = false ∧ (dieOf t n).resetting = false ∧
        isLost t n = false ∧ t.piers.outcomes = s.piers.outcomes ++ [item (if x.fn = 2 then 11 else 9)]) ∧
      (r ≠ 0 → ∃ t, exec (.dieResetComplete d r) s = .next t ∧ isLost t n = true ∧ bit (chan t (n / 16)).irq 1 = true ∧
        (groupOf t 11).total = satInc (groupOf s 11).total)) ∧
    ((dieOf s n).fitted = true → (chan s (n / 16)).state = 2 → ident ≠ (dieOf s n).ident →
      ∃ t, exec (.dieIdCheck d ident) s = .next t ∧ isLost t n = true) ∧
    ((dieOf s n).fitted = true → isLost s n = false → (dieOf s n).reading = true → ∃ t, exec (.temperatureReadComplete d T) s = .next t ∧
      pierTemp t n = { valid := true, age := 0, temp := T } ∧ ∀ y ∈ t.piers.ops, ¬ (y.fn = 3 ∧ y.die = n))

/-- R54, R82, R158, R392 to R395, R400 to R402, R411, R412: what a place's ready time and a soft-decode engine's end put on PIN, while the channel's
crossing has room. A refused read gets one status unit; a read that decodes gets its data units, its metadata units where asked for, its records and a
status unit, the data being what the plane page holds; a hard failure counts HFAIL and goes to a recovery, a recovery's failure waits for a soft-decode
engine, which is free again at its end, and whose failure is code 3, an overrun of row 5 and UNCORR. The model's own choices that it rests on are in
log entries 1, 34 and 111. -/
def Obligations.DecodedReads : Prop :=
  ∀ (d : BitVec 11) (pl : BitVec 3) (errs : BitVec 16) (b : Booking) (r : Nat) (s : State),
    let x := b.desc
    let n := x.spindle
    let ch := x.die / 16
    let num := if x.job.isSome || x.recon.isSome then s.piers.nextId else 0
    let room := (spn s n).state ≠ 3 ∧ ∀ m, crossingLoad s 1 ch m < 200
    let mk := fun (ci after : Nat) (u : BitVec 256) => ({ data := u, owner := x.owner, cipher := ci, from_ := after, item := num } : PinUnit)
    let item := fun (t : State) (ci after code retry : Nat) => ∃ us : List (BitVec 256), (spn t n).pin = (spn s n).pin ++ us.map (mk ci after) ∧
      us.length = descCount x * 128 + (if bit x.flags 1 then descCount x * 2 else 0) + 2 ∧
      us.getLast? = some (statusUnit x.tag code (descCount x) retry 0 x.die x.block x.page errs.toNat) ∧
      ∀ k u, k < descCount x * 128 → (mget [] s.piers.data (pageNumber x.die x.block x.page))[130 * (x.cws.toNat % 4 + k / 128) + k % 128]? =
        some u → us[k]? = some u
    (readyBooking s d.toNat pl.toNat = some b →
      (∀ code, refusal s x = some code → room → ∃ t, exec (.hardDecodeComplete d pl true errs) s = .next t ∧
        (spn t n).pin = (spn s n).pin ++ [mk (placeCipher s b) 0 (statusUnit x.tag code 0 0 0 x.die x.block x.page 0)] ∧ b ∉ t.piers.booked) ∧
      (refusal s x = none → b.issued = true → room → ∃ t, exec (.hardDecodeComplete d pl true errs) s = .next t ∧
        b ∉ t.piers.booked ∧ item t (placeCipher s b) 0 (if b.recovery then 1 else 0) (if b.recovery then retryEntry s x else 0)) ∧
      (refusal s x = none → b.issued = true → ∃ t, exec (.hardDecodeComplete d pl false errs) s = .next t ∧
        (chan t ch).hfail = satInc (chan s ch).hfail ∧ t.spindles = s.spindles ∧ (b.recovery = true → t.piers.soft = s.piers.soft ++ [b]))) ∧
    (softEngine s d pl = some (r, b) → room →
      (∃ t, exec (.softDecodeComplete d pl true errs) s = .next t ∧ (chan t ch).softOk = satInc (chan s ch).softOk ∧
        mget none t.piers.engines r = none ∧ item t 0xFFFF (b.at_ + 88) 2 (retryEntry s x)) ∧
      (∃ t, exec (.softDecodeComplete d pl false errs) s = .next t ∧ (chan t ch).uncorr = satInc (chan s ch).uncorr ∧
        bit (chan t ch).irq 4 = true ∧ (chan t ch).ovrCase = 5 ∧ mget none t.piers.engines r = none ∧
        (spn t n).pin = (spn s n).pin ++ [mk 0xFFFF (b.at_ + 88) (statusUnit x.tag 3 0 0 0 x.die x.block x.page 0xFFFF)]))

/-! ## Media management (R330, R336, R343, R346, R350, R355–R358, R371) -/

/-- R336, R346, R350, R355 to R358, R371: the media's own work. A bound block unit 90 days old joins the refresh queue; the oldest refresh starts
its copy onto the least-worn spare, in a window it may run in; a relocation that commits makes the target the member and passes the source to Erasing;
folding hands a whole row that the pool holds of a zone to QLC programming, and a pool skein with no live data leaves the pool with its members
Erasing; a reclaim moves the victim's valid LBAs, in the windows and slices it may run in; the end of a Rebuild in mode 5 ends its condition; a checkpoint
empties the journal, but in Hold. The model's own choices that it rests on are in log entries 5, 6 and 62. -/
def Obligations.MediaManagement : Prop :=
  ∀ (s : State),
    (inHold s = false → ∃ t, exec .tableCheckpoint s = .next t ∧ t.media.journal = 0 ∧ t.media.ckptHank = s.reel.hanks ∧ t.media.zones = s.media.zones ∧
      t.media.blocks = s.media.blocks ∧ t.mem = s.mem) ∧
    (inHold s = true → exec .tableCheckpoint s = .next s) ∧
    (∀ d b : BitVec 11, (blockState s d.toNat b.toNat = 4 ∨ blockState s d.toNat b.toNat = 5) → (blockOf s d.toNat b.toNat).refreshQ = false →
      ∃ t, exec (.refreshAgeExpiry d b) s = .next t ∧ t.media.refresh = s.media.refresh ++ [(d.toNat, b.toNat, 1)] ∧
        blockOf t d.toNat b.toNat = { blockOf s d.toNat b.toNat with refreshQ := true }) ∧
    (∀ d b c sp rest, s.media.refresh = (d, b, c) :: rest → refreshOpen s (d, b, c) = true → c ≠ 2 → (blockState s d b = 4 ∨ blockState s d b = 5) →
      s.media.relocs.any (fun r => r.die = d && r.src = b) = false → leastWorn s d (sparesOf s d) = some sp →
      ∃ t, exec .memberRelocation s = .next t ∧ t.media.refresh = rest ∧ (blockOf t d sp).state = 9 ∧ (blockOf t d b).relocSrc = true ∧
        t.media.relocs = s.media.relocs ++ [{ die := d, src := b, tgt := sp, copied := 0, cause := c }]) ∧
    (∀ r rest, s.media.relocs = r :: rest → poolSource s r = none → r.tgt ≠ r.src → inHold s = false →
      programsTo s r.die r.src = false → ∃ t, exec .relocationCommit s = .next t ∧ r ∉ t.media.relocs ∧
      (blockOf t r.die r.tgt).state = (if (blockOf s r.die r.src).state = 5 then 5 else 4) ∧
      (blockOf t r.die r.tgt).zone = (blockOf s r.die r.src).zone ∧ (blockOf t r.die r.tgt).pages = (blockOf s r.die r.src).pages ∧
      (blockOf t r.die r.src).zone = none ∧ t.media.journal = s.media.journal + 1 ∧
      ((blockOf s r.die r.src).state ≠ 10 → (blockOf t r.die r.src).state = 3 ∧ t.media.erases = s.media.erases ++ [(r.die, r.src, 0)])) ∧
    (∀ (g : BitVec 8), (∀ e ∈ s.media.zones, e.2.group = g.toNat → e.2.parked = true ∨ e.2.acc ≤ e.2.stagedTo) →
      (foldable s g.toNat = none → ∃ t, exec (.poolFold g) s = .next t ∧
        ∀ p ∈ s.media.pool, (p.exts = [] → poolBusy s p = false → p ∉ t.media.pool ∧
            ∀ d ∈ groupDies s p.group, blockState s d (memberOf s d p.skein) = 5 → blockState t d (memberOf s d p.skein) = 3) ∧
          ((p.exts ≠ [] ∨ poolBusy s p = true) → p ∈ t.media.pool)) ∧
      (∀ p x y, foldable s g.toNat = some p → p.exts = [x] → x.key < 2 ^ 52 → nsOf s (x.key / 2 ^ 20) = some y →
        let n : BitVec 32 := BitVec.ofNat 32 (x.key / 2 ^ 20)
        let e := zoneOf s n (x.key % 2 ^ 20)
        e.qlcTo < e.stagedTo → rowEnd (nsGroup y) false e.qlcTo ≤ e.stagedTo → ∃ t, exec (.poolFold g) s = .next t ∧
          ∃ r ∈ t.media.rows, r.nsid = n ∧ r.zone = x.key % 2 ^ 20 ∧ r.from_ = e.qlcTo ∧ r.upto = rowEnd (nsGroup y) false e.qlcTo ∧ r.pool = none)) ∧
    (∀ (n : BitVec 32) (h : BitVec 4) x k v c, nsOf s n.toNat = some x → x.fdp = true → freeCommitted s x < 8 →
      victimOf s n h.toNat = some (k, v) → reclaimOpen s x v = true → openRu s n h.toNat true = some c → c ≠ k →
      v.valid ≤ ruLbas s (ruOf s c) - (ruOf s c).wp →
      ∃ t, exec (.reclaim n h) s = .next t ∧ (ruOf t c).wp = (ruOf s c).wp + v.valid ∧ (ruOf t c).valid = (ruOf s c).valid + v.valid ∧
        ruOf t k = {} ∧ ∀ j, j ≠ c → j ≠ k → ruOf t j = ruOf s j) ∧
    (s.media.rebuild = true → s.reel.deck = 5 → ∃ t, exec .rebuildComplete s = .next t ∧ t.media.rebuild = false ∧ t.reel.condRebuild = false) ∧
    (∀ k x, k < 2 ^ 52 → nsOf s (k / 2 ^ 20) = some x → k / 2 ^ 20 < 2 ^ 32 →
      let e := zoneOf s (BitVec.ofNat 32 (k / 2 ^ 20)) (k % 2 ^ 20)
      e.skeins ≠ [] → (grpOf s e.group).degraded = true → readOnlyPolicy s = false →
      bindGroup s x e.skeins.length ((classGroups s x.cls.toNat).filter (· ≠ e.group)) = none →
      (zoneOf (rebuildZone k s) (BitVec.ofNat 32 (k / 2 ^ 20)) (k % 2 ^ 20)).state = 0xD ∧
        (rebuildZone k s).media.offlined = s.media.offlined + 1)

/-! ## Faults, events, temperature (R552–R591, R673) -/

/-- R560 to R565, R577, R578, R673: fault collection. A fault counts in its group and lifts the group's class; class 4 is Grave; a Severe fault
opens the reaction where reactions are enabled, and another group's during one is Grave with cause 2; the count that reaches N escalates; ACK ends
the reaction, its deadline makes it Grave with cause 3; CLEAR clears a group that is neither Grave nor the reaction's. The model's own choices that
it rests on are in log entries 5, 6 and 7. -/
def Obligations.FaultCollection : Prop :=
  ∀ (g : BitVec 6) (c : BitVec 3) (s : State),
    let n := g.toNat
    let x := groupOf s n
    (1 ≤ c.toNat → c.toNat ≤ 4 → x.cls.toNat ≤ 4 → ∃ t, exec (.faultInject c g) s = .next t ∧ (groupOf t n).total = satInc x.total ∧ t.fcr.injClass = c ∧
      t.fcr.injGroup = g ∧ c.toNat ≤ (groupOf t n).cls.toNat ∧ x.cls.toNat ≤ (groupOf t n).cls.toNat ∧ t.mem = s.mem ∧
      (∀ m, m ≠ n → groupOf t m = groupOf s m) ∧
      (c = 4 → (groupOf t n).cls = 4 ∧ t.fcr.grave = true ∧ (s.fcr.grave = false → t.fcr.graveGroup = g ∧ t.fcr.graveCause = 1) ∧
        (s.fcr.grave = true → t.fcr.graveGroup = s.fcr.graveGroup ∧ t.fcr.graveCause = s.fcr.graveCause)) ∧
      (c = 3 → s.fcr.ren = true → s.fcr.reactOpen = false → t.fcr.reactOpen = true ∧ t.fcr.reactGroup = g ∧ t.fcr.reactCount = 0) ∧
      (c = 3 → s.fcr.ren = true → s.fcr.reactOpen = true → s.fcr.reactGroup = g → t.fcr.reactOpen = true ∧
        t.fcr.reactCount = satInc s.fcr.reactCount) ∧
      (c = 3 → s.fcr.ren = true → s.fcr.reactOpen = true → s.fcr.reactGroup ≠ g → t.fcr.grave = true ∧
        (s.fcr.grave = false → t.fcr.graveGroup = g ∧ t.fcr.graveCause = 2)) ∧
      (c = 3 → s.fcr.ren = false → t.fcr.reactOpen = s.fcr.reactOpen ∧ t.fcr.grave = s.fcr.grave) ∧
      (c = 1 → x.winOpen = true → x.n ≠ 0 → x.n = x.wcount + 1 → x.esc = 2 → x.cls.toNat < 2 → (groupOf t n).cls = 2)) ∧
    (exec (.escalationWindowEnd g) s = .next (modGroup n (fun y => { y with wcount := 0, winOpen := false }) s)) ∧
    (x.cls ≠ 4 → (s.fcr.reactOpen = true → s.fcr.reactGroup ≠ g) →
      ∃ t, exec (.groupClear g) s = .next t ∧ groupOf t n = { x with cls := 0, wcount := 0, winOpen := false } ∧ ∀ m, m ≠ n → groupOf t m = groupOf s m) ∧
    ((x.cls = 4 ∨ (s.fcr.reactOpen = true ∧ s.fcr.reactGroup = g)) → exec (.groupClear g) s = .next s) ∧
    (s.fcr.reactOpen = true → ∃ t, exec (.reactionAck false) s = .next t ∧ t.fcr = { s.fcr with reactOpen := false } ∧ t.reel = s.reel ∧ t.mem = s.mem) ∧
    (s.fcr.reactOpen = false → exec (.reactionAck false) s = .next s) ∧
    (s.fcr.reactOpen = true → s.fcr.reactGroup = g → x.cls ≠ 4 → s.fcr.grave = false → ∃ t, exec .reactionDeadline s = .next t ∧
      t.fcr.grave = true ∧ t.fcr.graveCause = 3 ∧ t.fcr.graveGroup = g ∧ (groupOf t n).cls = 4 ∧ (groupOf t n).total = x.total) ∧
    (∃ t, exec .reactionsEnable s = .next t ∧ t.fcr = { s.fcr with ren := true } ∧ t.reel = s.reel ∧ t.mem = s.mem)

/-- R568 to R572, R574: the event recorder and the two read-backs. RECORD_WRITE, with any send buffers full: the oldest queued event becomes a record at
the write index, with LOSS after a drop, no other record changes, and the recorder stops at 65,536 unread records; a stopped recorder, or one with
nothing queued, writes none. READ_INDEX_WRITE, with any value: one within range releases records, another sets BADW. The read-backs of FAULT_N and
THERM_N, at either level: the third disagreeing one in a row asserts its watcher input, which is latched, and an agreeing one releases it. The model's
own choices that it rests on are in log entry 7. -/
def Obligations.EventRecorder : Prop :=
  ∀ (full : BitVec 4) (x : BitVec 32) (high : Bool) (s : State),
    (∀ e rest, s.evr.queue = e :: rest → s.evr.stop = false → ∃ t, exec (.recordWrite full) s = .next t ∧ t.evr.queue = rest ∧
      t.evr.widx = s.evr.widx + 1 ∧ t.evr.loss = false ∧ t.evr.ridx = s.evr.ridx ∧
      mget {} t.evr.recs (s.evr.widx.toNat % 65536) = (if s.evr.loss then { e with flags := e.flags ||| 0x20 } else e) ∧
      (∀ k, k ≠ s.evr.widx.toNat % 65536 → mget {} t.evr.recs k = mget {} s.evr.recs k) ∧
      t.evr.stop = decide (65536 ≤ (s.evr.widx + 1 - s.evr.ridx).toNat) ∧ t.fcr = s.fcr ∧ t.mem = s.mem) ∧
    ((s.evr.queue = [] ∨ s.evr.stop = true) → exec (.recordWrite full) s = .next s) ∧
    (∃ t, exec (.readIndexWrite x) s = .next t ∧
      ((s.evr.widx - x).toNat ≤ 65536 →
        t.evr = { s.evr with ridx := x, stop := s.evr.stop && decide (65536 ≤ (s.evr.widx - x).toNat) }) ∧
      (65536 < (s.evr.widx - x).toNat → t.evr = { s.evr with badw := true }) ∧ t.fcr = s.fcr ∧ t.mem = s.mem) ∧
    (∃ t, exec (.faultNReadBack high) s = .next t ∧ t.fcr.fpin = high ∧ t.fcr.tpin = s.fcr.tpin ∧ t.mem = s.mem ∧
      (high = faultN s → t.fcr.fpinBad = s.fcr.fpinBad + 1 ∧ (s.fcr.fpinBad < 2 → t.watch = s.watch) ∧
        (2 ≤ s.fcr.fpinBad → bit t.watch.input 22 = true ∧ bit t.watch.stat 22 = true)) ∧
      (high ≠ faultN s → t.fcr.fpinBad = 0 ∧ bit t.watch.input 22 = false ∧ t.watch.stat = s.watch.stat)) ∧
    (∃ t, exec (.thermNReadBack high) s = .next t ∧ t.fcr.tpin = high ∧ t.fcr.fpin = s.fcr.fpin ∧ t.mem = s.mem ∧
      (high = thermN s → t.fcr.tpinBad = s.fcr.tpinBad + 1 ∧ (s.fcr.tpinBad < 2 → t.watch = s.watch) ∧
        (2 ≤ s.fcr.tpinBad → bit t.watch.input 23 = true ∧ bit t.watch.stat 23 = true)) ∧
      (high ≠ thermN s → t.fcr.tpinBad = 0 ∧ bit t.watch.input 23 = false ∧ t.watch.stat = s.watch.stat))

/-- R579 to R589, R591: temperature. A sample is the sensor's reading unless it disagrees with every neighbour for the third time, when the sensor
is faulty and shows the highest neighbour; a reading at or above THROT_HI begins throttling; it ends after 64 cool hanks; an old reading of a die
sets its flag; a comparator shuts the device down, and the restart resets it with cause 3; the temperature round posts its reads. The model's own
choices that it rests on are in log entries 6 and 127. -/
def Obligations.ThermalManagement : Prop :=
  ∀ (n : BitVec 5) (r : BitVec 8) (d : BitVec 11) (s : State),
    let k := n.toNat
    let x := sensorOf s k
    let here := k ≤ 28 ∧ ¬ (s.varB = true ∧ 20 ≤ k ∧ k ≤ 23)
    (28 < k → exec (.sensorSample n r) s = .fault .noSuchUnit) ∧
    (here → ∃ t, exec (.sensorSample n r) s = .next t ∧ (sensorOf t k).valid = true ∧ (sensorOf t k).raw = r ∧
      (∀ j, j ≠ k → sensorOf t j = sensorOf s j) ∧ t.mem = s.mem ∧
      (x.faulty = false → disagrees s k r = false → (sensorOf t k).temp = r ∧ (sensorOf t k).faulty = false ∧ (sensorOf t k).disagree = 0) ∧
      (disagrees s k r = true → x.disagree = 2 → (sensorOf t k).faulty = true ∧ some (sensorOf t k).temp = maxTemp (neighbourReadings s k) ∧
        (x.faulty = false → bit t.thm.irq 2 = true)) ∧
      (k < 28 → x.faulty = false → disagrees s k r = false → degC s.thm.cfgThrot ≤ degC r → s.thm.throt = false →
        t.thm.throt = true ∧ t.reel.condThermal = true ∧ bit t.thm.irq 0 = true ∧ thermN t = true)) ∧
    (s.thm.throt = true → 64 ≤ s.thm.cool → throttleCause s = none → ∃ t, exec .throttlingEnd s = .next t ∧ t.thm.throt = false ∧
      t.reel.condThermal = false ∧ bit t.thm.irq 0 = true ∧ t.mem = s.mem) ∧
    (8192 < (pierTemp s d.toNat).age.toNat → ∃ t, exec (.temperatureAgeExpiry d) s = .next t ∧ bit t.thm.irq 4 = true ∧ t.piers = s.piers) ∧
    (27 < k → exec (.comparatorTrip n) s = .fault .noSuchUnit) ∧
    (k ≤ 27 → ¬ (s.varB = true ∧ 20 ≤ k ∧ k ≤ 23) → x.faulty = true → exec (.comparatorTrip n) s = .next s) ∧
    (k ≤ 27 → ¬ (s.varB = true ∧ 20 ≤ k ∧ k ≤ 23) → x.faulty = false → s.thm.shutdown = false → s.media.staged = 0 → s.pwr.flush ≠ 1 →
      ∃ t, exec (.comparatorTrip n) s = .next t ∧ t.thm.shutdown = true ∧ t.thm.tripped = n.setWidth 8 ∧ t.reel.run = false ∧
        t.spindles = [] ∧ t.cores = [] ∧ t.pwr.rails = false ∧ t.xpt.takes = false) ∧
    (s.pwr.aon = true → s.thm.shutdown = true → s.pwr.flush ≠ 1 → ∃ t, exec .thermalRestart s = .next t ∧ t.sys.rstc = 3 ∧ t.sys.stage = 1 ∧
      t.thm.shutdown = false ∧ t.fcr = {} ∧ t.spindles = [] ∧ t.mem = []) ∧
    (s.reel.hanks.toNat % 64 ≠ 0 → exec .flashTemperatureRound s = .next s) ∧
    (s.reel.hanks.toNat % 256 = 0 → ∃ t, exec .flashTemperatureRound s = .next t ∧ ∀ c < nChannels s,
      let q := c * 16 + s.reel.hanks.toNat / 256 % 16
      (dieOf s q).fitted = true → isLost s q = false → ∃ y ∈ t.piers.ops, y.fn = 3 ∧ y.die = q)

/-! ## Control space, interrupts, DMA, the boot array (R11–R13, R86, R206–R210, R511–R548) -/

/-- R11 to R13, R84, R86, R206, R208, R209, R669: control registers. A read answers the register's fields and changes nothing else; a read of a low
word latches the high word for its next read; an address with no register, or an access off its alignment, is a bus fault; a write has the effect
of each field's type: RO none, W1C clears, RWS waits for the commit, and a change of an RWL field while its block runs is refused and reported in
group 6. At any address a read, a high-word latch and a write complete, the write after a commit that is due (R206). The model's own choices that it rests on are in log entries 81, 83 and 84. -/
def Obligations.ControlRegisters : Prop :=
  ∀ (v : BitVec 32) (c : BitVec 8) (s : State),
    let base : BitVec 40 := 0x100000000
    let reads := fun (a : BitVec 40) (p : BitVec 32 → Prop) => mget none s.latch a.toNat = none →
      ∃ d, exec (.controlRegisterRead a) s = .next { s with bus := { data := d, fault := false } } ∧ p d
    let writes := fun (a : BitVec 40) (p : State → Prop) => s.reel.commitDue = false →
      ∃ t, exec (.controlRegisterWrite a v) s = .next t ∧ t.bus = { data := 0, fault := false } ∧ p t
    let f4 := fun (d : BitVec 32) (lo : Nat) => ((d >>> lo).setWidth 4 : BitVec 4)
    reads (base + 0x100000) (fun d => f4 d 8 = s.reel.deck ∧ f4 d 12 = pendDeck s ∧ bit d 16 = s.reel.run ∧
      ((d >>> 19).setWidth 2 : BitVec 2) = s.reel.period ∧ ((d >>> 21).setWidth 3 : BitVec 3) = s.reel.phase) ∧
    reads (base + 0x100004) (fun d => d = s.reel.turn.setWidth 32 <<< 16 ||| s.reel.cycle.setWidth 32) ∧
    reads (base + 0xC) (fun d => d = s.sys.rstc.setWidth 32) ∧
    (activeGroups s ≤ 64 → reads (base + 0x60000) (fun d => bit d 31 = s.fcr.grave ∧ bit d 30 = s.fcr.reactOpen ∧ bit d 26 = faultN s ∧
      ((d >>> 27).setWidth 3 : BitVec 3) = highClass s)) ∧
    (mget none s.latch (base + 0x100008).toNat = none → ∃ t, exec (.highWordLatch (base + 0x100008)) s = .next t ∧
      t.bus.data = s.reel.hanks.setWidth 32 ∧ t.reel = s.reel ∧
      ∀ u : State, u.latch = t.latch → ∃ w, exec (.controlRegisterRead (base + 0x10000C)) u = .next w ∧
        w.bus.data = (s.reel.hanks >>> 32).setWidth 32 ∧ mget none w.latch (base + 0x10000C).toNat = none) ∧
    (∀ a : BitVec 40, (placeOf s a.toNat ≠ .control ∨ a.toNat % 4 ≠ 0) →
      exec (.controlRegisterRead a) s = .next { s with bus := { data := 0, fault := true } } ∧
      (s.reel.commitDue = false → exec (.controlRegisterWrite a v) s = .next { s with bus := { data := 0, fault := true } })) ∧
    (∀ a : BitVec 40, placeOf s a.toNat = .control → a.toNat % 4 = 0 →
      (let w := regRead (a.toNat - ctlBase) s
       exec (.controlRegisterRead a) s = .next { w.2 with bus := { data := w.1, fault := false } } ∧
        exec (.highWordLatch a) s = .next (if isLow (a.toNat - ctlBase) then { w.2 with bus := { data := w.1, fault := false } } else s)) ∧
      (s.reel.commitDue = false → exec (.controlRegisterWrite a v) s =
        .next { regWrite (a.toNat - ctlBase) v s with bus := { data := 0, fault := false } })) ∧
    (∀ a : BitVec 40, (∃ t, exec (.highWordLatch a) s = .next t ∧ t.reel = s.reel ∧ t.mem = s.mem) ∧
      ∃ t, exec (.controlRegisterWrite a v) s = .next t ∧ t = answerWrite (ctlWrite a.toNat v (settle s)) (settle s) ∧ t.bus.data = 0) ∧
    writes (base + 0x100000) (fun t => t = { s with bus := {} }) ∧
    writes (base + 0x10) (fun t => t.sys.lockv = s.sys.lockv &&& ~~~ (v.setWidth 16) ∧ t.sys.lockvAt = s.sys.lockvAt ∧ t.mem = s.mem) ∧
    writes (base + 0x80000 + 0xC) (fun t => t.thm.irq = s.thm.irq &&& ~~~ (v.setWidth 6)) ∧
    writes (base + 0x101000 + c.setWidth 40 * 16) (fun t => (clsOf t c.toNat).limPend = some (v.setWidth 8) ∧ (clsOf t c.toNat).lim = (clsOf s c.toNat).lim ∧
      ∀ k, k ≠ c.toNat → clsOf t k = clsOf s k) ∧
    writes (base + 0x800008) (fun t =>
      if s.reel.run = true ∧ s.reel.deck ≠ 0 ∧ s.store.running ≠ none then
        t.xpt.listen = s.xpt.listen ∧ (s.xpt.listen ≠ v.setWidth 16 → bit t.sys.lockv 8 = true ∧ (groupOf t 6).total = satInc (groupOf s 6).total ∧
          (s.sys.lockv = 0 → t.sys.lockvAt = 0x800008))
      else t.xpt.listen = v.setWidth 16 ∧ t.fcr = s.fcr)

/-- R35, R511 to R513, R520 to R531, R671: the interrupt controller, the watcher and the cores. A sampled line makes its source pending as its EDGE
says; INTC_SETP and INTC_PEND set and clear; a claim takes the eligible source of the highest priority, the lowest number among equals, and starts
its hold-off; a completion of what the target claimed ends it; the watcher latches its inputs and an expired watchdog's; a stopped core starts at
SYS_CORE_ENTRY with its watchdog at 1,000 ms, and a running one stops. The model's own choices that it rests on are in log entries 14, 15 and 80. -/
def Obligations.InterruptsAndCores : Prop :=
  ∀ (k : BitVec 10) (w : BitVec 5) (v : BitVec 32) (n g4 : BitVec 4) (g : BitVec 6) (i : BitVec 5) (s : State),
    let x := srcOf s k.toNat
    let lvl := lineLevel s k.toNat && !srcAbsent s k.toNat
    (k ≠ 0 → ∃ t, exec (.interruptLineChange k) s = .next t ∧ srcOf t k.toNat = { x with line := lvl, pend :=
        (if isEdge s k.toNat then x.pend || (lvl && !x.line) else if x.active then x.pend else lvl || x.forced) } ∧
      ∀ j, j ≠ k.toNat → srcOf t j = srcOf s j) ∧
    (∃ t, exec (.setPending w v) s = .next t ∧ t.mem = s.mem ∧ ∀ b < 32, let q := 32 * w.toNat + b
      (bit v b = true → q ≠ 0 → srcAbsent s q = false → (srcOf t q).pend = true) ∧ (bit v b = false → srcOf t q = srcOf s q)) ∧
    (∃ t, exec (.clearPending w v) s = .next t ∧ ∀ b < 32, let q := 32 * w.toNat + b
      (bit v b = true → q ≠ 0 → (srcOf t q).pend = (!isEdge s q && !(srcOf s q).active && lineLevel s q && !srcAbsent s q)) ∧
      (bit v b = false → srcOf t q = srcOf s q)) ∧
    ((∀ e ∈ s.intc.src, eligible s n.toNat e.2 = false) → exec (.claim n) s = .next { s with bus := { data := 0 } }) ∧
    (mwf {} s.intc.src = true → (∃ e ∈ s.intc.src, eligible s n.toNat e.2 = true) → ∃ e ∈ s.intc.src, eligible s n.toNat e.2 = true ∧
      (∀ f ∈ s.intc.src, eligible s n.toNat f.2 = true → f.2.prio.toNat < e.2.prio.toNat ∨ f.2.prio = e.2.prio ∧ e.1 ≤ f.1) ∧
      ∃ t, exec (.claim n) s = .next t ∧ t.bus.data = BitVec.ofNat 32 e.1 ∧
        srcOf t e.1 = { e.2 with pend := false, forced := false, active := true, claimT := n } ∧ (∀ j, j ≠ e.1 → srcOf t j = srcOf s j) ∧
        (e.2.gen = true → (mget {} s.intc.hold e.2.group.toNat).time ≠ 0 →
          (mget {} t.intc.hold e.2.group.toNat).timer = (mget {} s.intc.hold e.2.group.toNat).time)) ∧
    (x.active = true → x.claimT = n → ∃ t, exec (.interruptComplete n k) s = .next t ∧ (srcOf t k.toNat).active = false ∧
      (srcOf t k.toNat).edge = x.edgeReq.getD x.edge ∧ (srcOf t k.toNat).edgeReq = none ∧ (isPulse k.toNat = true → (srcOf t k.toNat).pend = x.pend)) ∧
    ((x.active = false ∨ x.claimT ≠ n) → exec (.interruptComplete n k) s = .next s) ∧
    (∃ t, exec (.holdOffEnd g) s = .next t ∧ inHoldOff t g = false ∧ (mget {} t.intc.hold g.toNat).time = (mget {} s.intc.hold g.toNat).time) ∧
    (∃ t, exec (.watcherSoftwareInput g4) s = .next t ∧ ∀ b < 4, bit g4 b = true → bit t.watch.stat (28 + b) = true) ∧
    (i.toNat < 24 → i ≠ 18 → bit s.watch.stat i.toNat = false → ∃ t, exec (.watcherInput i true) s = .next t ∧ bit t.watch.stat i.toNat = true ∧
      bit t.watch.input i.toNat = true ∧
      ∀ gc, watchFault i.toNat = some gc → bit s.watch.esc i.toNat = true → (groupOf t gc.1).total = satInc (groupOf s gc.1).total) ∧
    (¬ (24 ≤ i.toNat ∧ i.toNat ≤ 27) → ∃ t, exec (.watcherInput i false) s = .next t ∧ bit t.watch.input i.toNat = false ∧
      t.watch.stat = s.watch.stat ∧ t.fcr = s.fcr) ∧
    (∃ t, exec (.watchdogKick n) s = .next t ∧ mget 0 t.watch.kicked n.toNat = s.now ∧ t.watch.stat = s.watch.stat) ∧
    (mget 0 s.watch.wdp n.toNat ≠ 0 → ∃ t, exec (.watchdogExpiry n) s = .next t ∧ bit t.watch.stat n.toNat = true) ∧
    (mget 0 s.watch.wdp n.toNat = 0 → exec (.watchdogExpiry n) s = .next s) ∧
    ((coreOf s n.toNat).running = false → ∃ t, exec (.coreRun n) s = .next t ∧ (coreOf t n.toNat).running = true ∧
      (coreOf t n.toNat).a0 = s.sys.coreEntry.setWidth 64 ∧ (coreOf t n.toNat).priv = true ∧ (coreOf t n.toNat).ie = false ∧ (coreOf t n.toNat).g = [] ∧
      mget 0 t.watch.wdp n.toNat = 1000 ∧ bit t.watch.esc n.toNat = true ∧ ∀ m, m ≠ n.toNat → coreOf t m = coreOf s m) ∧
    ((coreOf s n.toNat).running = true → ∃ t, exec (.coreStop n) s = .next t ∧ mget 0 t.watch.wdp n.toNat = 0 ∧
      coreOf t n.toNat = { coreOf s n.toNat with running := false, sleeping := false, resv := none, waits := [] } ∧
      ∀ m, m ≠ n.toNat → coreOf t m = coreOf s m)

/-- R532 to R548: DMA and the boot array. GO of an idle channel moves the bytes of a single transfer from source to destination and nothing else;
the end of its descriptor counts it, stops the channel with STATE 2 and pulses its source; CANCEL and the clearing of ERR act on the channel. A
program or erase is refused by address, protection, written marks or page order, with its RESULT, or starts; it ends with the masked code words
programmed, or the range reading 0xFF. The model's own choices that it rests on are in log entries 88, 89, 92 and 93. -/
def Obligations.DmaAndBootArray : Prop :=
  ∀ (n : BitVec 4) (s : State),
    let c := dmaOf s n.toNat
    let S := c.src.toNat
    let D := c.dst.toNat
    let L := c.len.toNat
    let inSram := fun (a : Nat) => 0x10000000 ≤ a ∧ a % 32 + L ≤ 32 ∧ a + L ≤ 0x10800000
    (c.state ≠ 1 → c.state ≠ 3 → c.flags = 0 → L ≠ 0 → inSram S → inSram D → protAllows s (.dma n) S L .read = true →
      protAllows s (.dma n) D L .write = true → poisoned s S L = false →
      ∃ t, exec (.dmaGo n false) s = .next t ∧ (∀ k < L, memByte t (D + k) = memByte s (S + k)) ∧
        (∀ a, a < D ∨ D + L ≤ a → memByte t a = memByte s a) ∧ (dmaOf t n.toNat).state = 1 ∧ (dmaOf t n.toNat).moved = true ∧
        t.spindles = s.spindles ∧ t.reel = s.reel) ∧
    (∀ d, c.state = 1 → c.run = some d → c.moved = true → d.addr = 0 → bit d.ctl 0 = true → srcAbsent s (96 + 2 * n.toNat) = false →
      ∃ t, exec (.dmaDescriptorComplete n) s = .next t ∧ dmaOf t n.toNat =
        { c with state := 2, run := none, moved := false, cancel := false, cnt := c.cnt + 1 } ∧
        (srcOf t (96 + 2 * n.toNat)).pend = true ∧ t.mem = s.mem) ∧
    (c.state = 1 → ∃ t, exec (.dmaCancel n) s = .next t ∧ dmaOf t n.toNat = { c with cancel := true } ∧ t.mem = s.mem) ∧
    (c.err = true → ∃ t, exec (.dmaErrorClear n) s = .next t ∧ dmaOf t n.toNat = { c with err := false, state := 0 } ∧ t.mem = s.mem) ∧
    (let b := s.bac
     let A := b.addr.toNat
     let bank := A / 2 ^ 24
     let starts := fun (i : Instr) (op : BitVec 4) => ∃ t, exec i s = .next t ∧ t.bac = { b with
       op := op, bank := BitVec.ofNat 2 bank, busy := true, told := false, cur := some { op := op, addr := b.addr, mask := b.mask, data := b.pbuf } }
     let refuses := fun (i : Instr) (op : BitVec 4) (r : BitVec 3) => ∃ t, exec i s = .next t ∧ t.bac = { b with
       op := op, bank := BitVec.ofNat 2 bank, done := true, result := r }
     let unmarked := ∀ k < 32, mget false b.marks (A / 32 + k) = false
     (b.busy = true → ∀ i ∈ [Instr.bacProgramPage, .bacEraseSector, .bacEraseBank], ∃ t, exec i s = .next t ∧ t.bac = { b with busyw := true }) ∧
     (b.busy = false →
       (A % 512 ≠ 0 ∨ b.mask = 0 → refuses .bacProgramPage 1 6) ∧ (A % 65536 ≠ 0 → refuses .bacEraseSector 2 6) ∧
       (A % 512 = 0 → b.mask ≠ 0 → bit b.wp bank = true → refuses .bacProgramPage 1 4) ∧
       (A % 512 = 0 → bit b.wp bank = false → (∃ k < 16, bit b.mask k = true ∧ mget false b.marks (A / 32 + k) = true) → refuses .bacProgramPage 1 2) ∧
       (A % 512 = 0 → b.mask ≠ 0 → bit b.wp bank = false → unmarked → starts .bacProgramPage 1) ∧
       (A % 65536 = 0 → bit b.wp bank = false → starts .bacEraseSector 2) ∧
       (A % 2 ^ 24 = 0 → bit b.wp bank = false → starts .bacEraseBank 3)) ∧
     (∀ o, b.cur = some o → o.addr.toNat % 32 = 0 →
       (∃ t, exec (.bacOperationComplete false) s = .next t ∧ t.bac.busy = false ∧ t.bac.done = true ∧ t.bac.result = 1) ∧
       ∃ t, exec (.bacOperationComplete true) s = .next t ∧ t.bac.busy = false ∧ t.bac.cur = none ∧ t.bac.done = true ∧ t.bac.result = 0 ∧
         (o.op = 1 → ∀ k < 16, ∀ j < 32, bacByte t.bac (o.addr.toNat + 32 * k + j) =
           if bit o.mask k then ((mget 0 o.data (8 * k + j / 4) >>> (8 * (j % 4))).setWidth 8 : BitVec 8)
           else bacByte b (o.addr.toNat + 32 * k + j)) ∧
         (o.op = 1 → ∀ k < 16, bit o.mask k = true → mget false t.bac.marks (o.addr.toNat / 32 + k) = true) ∧
         (o.op = 2 → ∀ a, bacByte t.bac a = if o.addr.toNat ≤ a ∧ a < o.addr.toNat + 65536 then 0xFF else bacByte b a)))

/-! ## Supply, resets, boot, pins (R18, R34, R35, R564, R613–R666) -/

/-- R613 to R615, R622 to R626, R633, R635, R638, R641 to R643, R664: the supply, the resets and the power-fail flush. A reset gives the reset
values, keeping what R623 keeps; a warm reset of a device whose image has run flushes first, and one whose main supplies are off waits for its
power-up; a lost supply starts a flush, takes no further
capsules and is shown by the pins and the watcher; the end of a flush leads to Hold, and its replay's end retires it. The model's own choices that
it rests on are in log entries 1, 121, 122 and 123. -/
def Obligations.PowerAndResets : Prop :=
  ∀ (ns units : BitVec 32) (mv : BitVec 16) (rail : BitVec 3) (s : State),
    let cold := s.pwr.imageRan = false ∧ s.pwr.flush ≠ 1
    let running := s.pwr.imageRan = true ∧ s.pwr.flush ≠ 1
    let flushes := fun (t : State) => t.pwr.flush = 1 ∧ t.xpt.takes = false
    let resets := fun (t : State) (cause : BitVec 2) => t.sys = { rstc := cause } ∧ t.spindles = [] ∧ t.cores = [] ∧ t.mem = [] ∧
      t.reel = { condRebuild := s.reel.condRebuild } ∧
      t.intc = {} ∧ t.ports = [] ∧ t.drcs = [] ∧ t.store.running = none ∧ t.varB = s.varB ∧ t.store.floor = s.store.floor ∧ t.store.ring = s.store.ring
    (s.pwr.aon = false → ∃ t, exec .powerUp s = .next t ∧ resets t 0 ∧ t.fcr = {} ∧ t.pwr.aon = true ∧ t.media.cycles = s.media.cycles + 1) ∧
    (s.pwr.aon = true → exec .powerUp s = .next s) ∧
    (unpowered s = true → exec .softwareReset s = .next s ∧ (10000 ≤ ns.toNat → exec (.warmReset ns) s =
      .next { s with pins := { s.pins with resetN := false, resetReady := false } })) ∧
    (unpowered s = false → cold → (1000 * 10 ≤ ns.toNat → ∃ t, exec (.warmReset ns) s = .next t ∧ resets t 1 ∧ t.fcr.grave = s.fcr.grave ∧ t.fcr.graveGroup = s.fcr.graveGroup ∧
        t.watch.stat = s.watch.stat ∧ t.pins.resetN = false ∧ t.pins.resetReady = false) ∧
      ∃ t, exec .softwareReset s = .next t ∧ resets t 2 ∧ t.fcr.grave = s.fcr.grave ∧ t.watch.stat = s.watch.stat) ∧
    (unpowered s = false → running → (10000 ≤ ns.toNat → ∃ t, exec (.warmReset ns) s = .next t ∧ flushes t ∧ t.pwr.trigger = 3 ∧ t.pwr.warmAfter = true ∧
        t.pwr.warmCause = 1) ∧
      ∃ t, exec .softwareReset s = .next t ∧ flushes t ∧ t.pwr.trigger = 3 ∧ t.pwr.warmCause = 2 ∧ t.pwr.seq = s.pwr.seq + 1) ∧
    (ns.toNat < 1000 → exec (.warmReset ns) s = .next s) ∧
    (ns.toNat < 500 → exec (.powerFail ns) s = .next s) ∧
    (∃ t, exec .resetNRelease s = .next t ∧ t.pins = { s.pins with resetN := true, resetReady := s.pins.resetReady || !s.pwr.warmAfter }) ∧
    (1000 ≤ ns.toNat → ∃ t, exec (.powerFail ns) s = .next t ∧ t.pwr.pfn = false ∧ t.pins.pfN = false ∧ bit t.watch.stat 16 = true ∧
      (running → flushes t)) ∧
    (∃ t, exec .pwrFailNRise s = .next t ∧ t.pwr.pfn = true ∧ t.pins.pfN = true ∧ bit t.watch.input 16 = false ∧ t.pwr.flush = s.pwr.flush) ∧
    (∃ t, exec (.vinLow mv) s = .next t ∧ t.pwr.mv = mv ∧ bit t.pwr.irq 2 = true ∧ bit t.watch.stat 17 = true) ∧
    (∃ t, exec (.internalPowerFail mv) s = .next t ∧ t.pwr.mv = mv ∧ (running → flushes t) ∧
      (running → s.pwr.pfn = false → t.pwr.trigger = 2 ∧ t.fcr = s.fcr) ∧
      (s.pwr.pfn = true → (groupOf t 29).total = satInc (groupOf s 29).total)) ∧
    (s.pwr.aon = true → ∃ t, exec .brownOut s = .next t ∧ t.pwr.aon = false ∧ unpowered t = true ∧ t.reel.run = false ∧ t.spindles = [] ∧ t.cores = []) ∧
    (unpowered s = false → s.sys.stage = 2 → ∃ t, exec (.railOutOfRegulation rail mv) s = .next t ∧ t.sys.bootErr = 3 ∧ t.fcr = s.fcr) ∧
    (unpowered s = true → exec (.railOutOfRegulation rail mv) s = .next s) ∧
    (unpowered s = false → 2 < s.sys.stage.toNat → ∃ t, exec (.railOutOfRegulation rail mv) s = .next t ∧ (groupOf t 30).cls = 4 ∧ t.fcr.grave = true ∧
      (groupOf t 30).total = satInc (groupOf s 30).total) ∧
    (s.pwr.flush = 1 → s.reel.deck = 0xE → s.reel.run = true → s.pwr.graveAfter = false → s.pwr.thermAfter = false → s.pwr.warmAfter = false →
      ∃ t, exec (.flushEnd units) s = .next t ∧ t.pwr.flush = 2 ∧ t.pwr.units = units ∧ bit t.pwr.irq 1 = true ∧ t.media.staged = 0 ∧
        t.reel.req = some { mode := 0, device := true, soon := true } ∧ t.pwr.emergency = s.pwr.emergency + units.toNat ∧
        ∃ f, t.pwr.records = s.pwr.records ++ [f] ∧ f.kind = 2 ∧ f.seq = s.pwr.seq ∧ f.units = units.toNat) ∧
    (∀ f, flushInForce s = some f → s.pwr.replaying = true → s.media.rows = [] → ∃ t, exec .replayRetire s = .next t ∧
      flushInForce t = none ∧ t.pwr.replaying = false ∧ t.pwr.emergency = 0 ∧ t.pwr.recompute = true) ∧
    (flushInForce s = none → exec .replayRetire s = .next s)

/-- R34, R494 to R496, R505, R508, R511, R616 to R621, R634, R640, R673: clocks and boot. A bad reference is shown at once and a good one after two
windows; each boot stage ends in the next one or in its error, a boot held with error 1, 3 or 4 tries again, and a status frame shows where it
stands; firmware found starts core 0, enables reactions and the watcher's software inputs; a failed checker is Grave. The model's own choices that
it rests on are in log entries 1, 5 and 6. -/
def Obligations.BootAndClocks : Prop :=
  ∀ (bad : BitVec 7) (b : BootIn) (s : State),
    let ends := fun (p : State → Prop) => ∃ t, exec (.bootStageComplete b) s = .next t ∧ p t
    let at_ := fun (k : BitVec 8) => bootRuns s = true ∧ s.sys.stage = k
    (bootRuns s = false → exec (.bootStageComplete b) s = .next s) ∧
    (at_ 1 → clocksGood s = true → ends (fun t => t.sys = { s.sys with stage := 2, strap := s.pins.bootSel } ∧ t.mem = s.mem)) ∧
    (at_ 1 → clocksGood s = false → ends (fun t => t.sys = { s.sys with bootErr := 1 })) ∧
    (at_ 2 → ends (fun t => t.sys.stage = 3 ∧ t.pwr.rails = true)) ∧
    (at_ 3 → b.links = true → ends (fun t => t.sys.stage = 4 ∧ t.sys.netUp = true ∧ t.sys.pierAUp = true ∧ t.sys.pierBUp = !s.varB ∧
      t.sys.dramUp = (if s.varB then 3 else 15))) ∧
    (at_ 3 → b.links = false → ends (fun t => t.sys.stage = 3 ∧ t.sys.bootErr = 4)) ∧
    (at_ 4 → firmwareFound b s = none → ends (fun t => t.sys.stage = 4 ∧ t.sys.bootErr = 2)) ∧
    (∀ l a, at_ 4 → firmwareFound b s = some (l, a) → ends (fun t => t.sys.stage = 5 ∧ t.sys.fwLevel = l ∧ (coreOf t 0).running = true ∧
      (coreOf t 0).a0 = a.setWidth 64 ∧ (coreOf t 0).priv = true ∧ t.fcr.ren = true ∧ (∀ k, 28 ≤ k → k < 32 → bit t.watch.esc k = true) ∧
      mget 0 t.watch.wdp 0 = 1000)) ∧
    (at_ 5 → b.fails = 0 → ends (fun t => t.sys.stage = 6 ∧ t.sys.bistDone = true ∧ t.sys.bistPass = true ∧ t.fcr.selfTest = true)) ∧
    (at_ 5 → b.fails ≠ 0 → ends (fun t => t.sys.bootErr = 5 ∧ t.sys.bistPass = false ∧ t.sys.bistFail = b.fails ∧ t.fcr.grave = true ∧
      t.reel.run = true ∧ t.reel.deck = 0)) ∧
    (at_ 6 → channelsDone s = true → ends (fun t => t.sys.stage = 7 ∧ t.pwr.keysReady = true)) ∧
    (at_ 6 → channelsDone s = false → exec (.bootStageComplete b) s = .next s) ∧
    (at_ 7 → flushesInForce s = [] → ends (fun t => t.sys.stage = 8 ∧ t.media = s.media)) ∧
    (at_ 8 → s.store.loading = none → s.store.act = .none → s.sys.strap = 3 → s.store.graveRecs = 0 → s.store.thermRecs = 0 →
      ends (fun t => t.sys.stage = 9 ∧ t.reel.run = true ∧ t.reel.deck = 0 ∧ t.ciph.slots = s.ciph.stored ∧ t.store.running = s.store.running)) ∧
    ((s.sys.bootErr = 1 ∨ s.sys.bootErr = 3 ∨ s.sys.bootErr = 4) → ∃ t, exec .bootRetry s = .next t ∧
      (clocksGood s = true → t.sys = { s.sys with bootErr := 0 }) ∧ (clocksGood s = false → s.sys.stage.toNat ≤ 3 → t.sys = { s.sys with bootErr := 1 })) ∧
    (¬ (s.sys.bootErr = 1 ∨ s.sys.bootErr = 3 ∨ s.sys.bootErr = 4) → exec .bootRetry s = .next s) ∧
    (∃ t, exec (.referenceClockCheck bad) s = .next t ∧
      (bit bad 0 = true → t.clk.xtal = true) ∧ (bit bad 1 = true ∨ bit bad 2 = true → t.clk.sysMiss = bit bad 1 ∧ t.clk.sysRng = bit bad 2 ∧
        bit t.watch.stat 19 = true) ∧
      (bit bad 0 = false → 1 ≤ mget 0 s.clk.good 0 → t.clk.xtal = false) ∧
      (bit bad 3 = false → bit bad 4 = false → 1 ≤ mget 0 s.clk.good 2 → t.clk.net0Miss = false ∧ t.clk.net0Rng = false)) ∧
    (s.pwr.aon = true → s.sys.stage.toNat < 6 → s.clk.xtal = false → ∃ t, exec .statusFrame s = .next t ∧ t.mgmt.frames = s.mgmt.frames + 1 ∧
      t.mgmt.frame = [sysId s, sysBoot s, clkStat s.clk, s.sys.rstc.setWidth 32] ∧ t.sys = s.sys)

/-- R18, R34, R35, R559, R664 to R666: the die-to-die links, the management link, the pulse pins and the test access port. A flit error is counted,
or uncorrectable and a Severe fault; training lost after boot is Grave; a pulse in is recorded once a hank, a pulse out is high while PTP time is
locked; BYPASS, IDCODE and SAMPLE select their registers, EXTEST only while RESET_N is low. The model's own choices that it rests on are in log
entries 124 and 125. -/
def Obligations.LinksAndPins : Prop :=
  ∀ (k : BitVec 3) (ns : BitVec 32) (up : Bool) (s : State),
    (hasLink s k.toNat = true →
      (∃ t, exec (.dieLinkFlitError k false) s = .next t ∧ t.sys = { s.sys with corrCnt := satInc s.sys.corrCnt } ∧ t.fcr = s.fcr) ∧
      (∃ t, exec (.dieLinkFlitError k true) s = .next t ∧ bit t.sys.uncorr k.toNat = true ∧ (groupOf t 0).total = satInc (groupOf s 0).total) ∧
      (s.sys.stage = 9 → ∃ t, exec (.dieLinkTrainingLost k) s = .next t ∧ (groupOf t 0).cls = 4 ∧ t.fcr.grave = true ∧ t.sys = linkDown k.toNat s.sys) ∧
      (s.sys.stage ≠ 9 → ∃ t, exec (.dieLinkTrainingLost k) s = .next t ∧ t.fcr = s.fcr ∧ t.sys = linkDown k.toNat s.sys)) ∧
    (hasLink s k.toNat = false → exec (.dieLinkFlitError k up) s = .next s ∧ exec (.dieLinkTrainingLost k) s = .next s) ∧
    (linkDown 2 s.sys = { s.sys with netUp := false } ∧ linkDown 0 s.sys = { s.sys with pierAUp := false } ∧ linkDown 1 s.sys = { s.sys with pierBUp := false }) ∧
    (∃ t, exec (.managementLinkChange up) s = .next t ∧ t.mgmt.link = up ∧ lineLevel t 14 = true ∧ t.mgmt.sessions = s.mgmt.sessions) ∧
    ((ns.toNat < 20 ∨ s.pins.ppsTold = true) → exec (.ppsInput ns) s = .next s) ∧
    (20 ≤ ns.toNat → s.pins.ppsTold = false → s.evr.stop = false → s.evr.queue.length < 64 → ∃ t e, exec (.ppsInput ns) s = .next t ∧
      t.pins = { s.pins with ppsTold := true } ∧ t.evr.queue = s.evr.queue ++ [e] ∧ e.code = 0x0161 ∧ e.w0 = 0 ∧ bit e.w1 0 = false) ∧
    (∃ t, exec (.ppsOutput up) s = .next t ∧ t.pins = { s.pins with ppsOut := up && s.span.lock } ∧ t.mem = s.mem) ∧
    (∃ t, exec .bypass s = .next t ∧ t.pins.tap = .bypass ∧ t.reel = s.reel) ∧
    (∃ t, exec .idcode s = .next t ∧ t.pins.tap = .idcode ∧ bit t.pins.tapOut 0 = true ∧
      ((t.pins.tapOut >>> 12).setWidth 16 : BitVec 16) = (if s.varB then 0x9641 else 0x9640) ∧ t.reel = s.reel) ∧
    (∃ t, exec .samplePreload s = .next t ∧ t.pins.tap = .sample ∧ t.reel = s.reel ∧ t.mem = s.mem) ∧
    (s.pins.resetN = true → ∃ t, exec .extest s = .next t ∧ t.pins.tap = .bypass ∧ t.reel = s.reel) ∧
    (s.pins.resetN = false → ∃ t, exec .extest s = .next t ∧ t.pins.tap = .extest ∧ t.reel = s.reel)

/-! ## The network (R219–R274) -/

/-- R223, R225, R226, R260, R261, R264 to R267: ports. Bring-up goes through its steps in order: receiver lock, training, PCS lock (which sets the
sub-port's bits of RX_POL), FEC lock; link-up sets UP and CHG and records 0x0801; the transmitter reverses once; a step that takes too long is
counted, recorded with 0x0804 and starts again at step 1; a lost link is recorded with 0x0802 and closes no connection. The model's own choices
that it rests on are in log entries 1, 6 and 63. -/
def Obligations.PortBringUp : Prop :=
  ∀ (p : BitVec 3) (k : BitVec 2) (s : State),
    let P := p.toNat
    let K := k.toNat
    let x := portOf s P
    let st := subStep s P K
    let awake := inHold s = false ∧ s.reel.run = true
    let only := fun (t : State) => (∀ q, q ≠ P → portOf t q = portOf s q) ∧ t.xpt = s.xpt ∧ t.mem = s.mem
    (hasSub s P K = true →
      (st = 1 → ∃ t, exec (.receiverLock p k) s = .next t ∧ portOf t P = { x with step := mset 0 K 2 x.step } ∧ only t) ∧
      (st = 2 → ∃ t, exec (.pmdTrainingComplete p k) s = .next t ∧ portOf t P = { x with step := mset 0 K 3 x.step } ∧ only t) ∧
      (∀ inv rev, st = 2 ∨ st = 3 → ∃ t, exec (.pcsLock p k inv rev) s = .next t ∧ subStep t P K = 4 ∧ (portOf t P).rxRev = rev ∧
        (∀ b < 8, bit (portOf t P).rxPol b = if bit (subLanes x.mode K) b then bit inv b else bit x.rxPol b) ∧ only t) ∧
      (st = 4 ∨ st = 5 → (∃ t, exec (.fecLock p k true) s = .next t ∧ subStep t P K = 5 ∧ (portOf t P).up = x.up ∧ only t) ∧
        ∃ t, exec (.fecLock p k false) s = .next t ∧ subStep t P K = 0 ∧ (portOf t P).up = setBit x.up K ∧ (portOf t P).chg = setBit x.chg K ∧
          told 0x0801 (p.setWidth 32, k.setWidth 32, netLane x) s t ∧ only t) ∧
      (st = 5 → x.txRevLock = false → bit x.tried K = false → ∃ t, exec (.transmitLaneReversal p k) s = .next t ∧
        (portOf t P).txRev = (!x.txRev) ∧ exec (.transmitLaneReversal p k) t = .next t ∧ only t) ∧
      (st = 5 → x.txRevLock = true → exec (.transmitLaneReversal p k) s = .next s) ∧
      (st ≠ 0 → ∃ t, exec (.bringUpStepTimeout p k) s = .next t ∧ (portOf t P).retry = satInc x.retry ∧ (awake → subStep t P K = 1) ∧
        told 0x0804 (p.setWidth 32, BitVec.ofNat 32 st, k.setWidth 32) s t ∧ only t)) ∧
    (∀ (c : BitVec 2) (unc : BitVec 16),
      let i := Instr.linkLost p k c unc
      let n := mget 0 x.uncHank K + unc.toNat
      let loses := ∃ t, exec i s = .next t ∧ (portOf t P).up = clrBit x.up K ∧ (portOf t P).chg = setBit x.chg K ∧ (awake → subStep t P K = 1) ∧
        told 0x0802 (p.setWidth 32, k.setWidth 32, c.setWidth 32) s t ∧ only t
      (bit x.up K = true →
        (c = 1 ∨ c = 3 ∨ c = 2 ∧ 1024 < n → loses) ∧
        (c = 2 → n ≤ 1024 → ∃ t, exec i s = .next t ∧ (portOf t P).up = x.up ∧ mget 0 (portOf t P).uncHank K = n ∧ only t) ∧
        (c = 0 → exec i s = .next s)) ∧
      (bit x.up K = false → exec i s = .next s)) ∧
    (∀ n : BitVec 3, ∃ t, exec (.counterClear p k n) s = .next t ∧ mget 0 (portOf t P).cnt (8 * K + n.toNat) = 0 ∧
      (∀ j, j ≠ 8 * K + n.toNat → mget 0 (portOf t P).cnt j = mget 0 x.cnt j) ∧ (portOf t P).rx = x.rx ∧ only t) ∧
    (∃ t, exec (.transmitTimestampRead p) s = .next t ∧ t.bus.data = x.txts.setWidth 32 ∧ (portOf t P).txtsWait = false ∧
      mget none t.latch (0x0100400000 + P * 0x10000 + 0x24) = some ((x.txts >>> 32).setWidth 32) ∧
      mget none t.latch (0x0100400000 + P * 0x10000 + 0x28) = some (x.txtsId.setWidth 32) ∧ only t) ∧
    (∀ path : BitVec 5,
      let kept := fun (t : State) => (portOf t (path.toNat / 4)).frames = (portOf s (path.toNat / 4)).frames.tail
      let answers := fun (i : Instr) (mac : BitVec 48) (typ : Nat) => ∃ t f, exec i s = .next t ∧ t.xpt.tx = s.xpt.tx ++ [f] ∧ kept t ∧
        f.path = path ∧ f.kind = 8 ∧ f.conn = none ∧ f.raw.take 14 = etherTo s path.toNat mac typ
      let counts := fun (i : Instr) => ∃ t, exec i s = .next t ∧ t.xpt = s.xpt ∧ kept t ∧ mget 0 (portOf t (path.toNat / 4)).cnt (8 * (path.toNat % 4) + 4) =
        mget 0 (portOf s (path.toNat / 4)).cnt (8 * (path.toNat % 4) + 4) + 1
      let a := mget {} s.xpt.addrs path.toNat
      (∀ ip mac far, let i := Instr.arpRequest path ip mac far
        (a.ip4 = ip → ip ≠ 0 → answers i mac 0x0806) ∧ (a.ip4 ≠ ip ∨ ip = 0 → counts i)) ∧
      (∀ ip mac far, let i := Instr.neighborSolicitation path ip mac far
        (a.ip6 = ip → ip ≠ 0 → answers i mac 0x86DD) ∧ (a.ip6 ≠ ip ∨ ip = 0 → counts i)) ∧
      (∀ v6 ip far mac (body : List (BitVec 8)),
        let i := Instr.echoRequest path v6 ip far mac body
        let ours := ip ≠ 0 ∧ (if v6 then a.ip6 = ip else a.ip4.setWidth 128 = ip)
        let n := (if v6 then 44 else 24) + body.length
        (ours → n ≤ 1500 → answers i mac (if v6 then 0x86DD else 0x0800)) ∧ (¬ ours ∨ 1500 < n → counts i)) ∧
      (∀ isEvent, (bit (portOf s (path.toNat / 4)).up (path.toNat % 4) = true →
        ∃ t, exec (.ptpMessage path isEvent) s = .next t ∧ kept t ∧
          t.xpt = { s.xpt with ptp := s.xpt.ptp + 1, ptpAt := if isEvent then spanTime t &&& 0xFFFFFFFFFFFFFFFE else s.xpt.ptpAt }) ∧
        (bit (portOf s (path.toNat / 4)).up (path.toNat % 4) = false → exec (.ptpMessage path isEvent) s = .next s)))

/-- R222, R226, R227, R229, R230, R232, R234, R260, R266, R270: receiving. A sub-port with too many uncorrectable codewords loses its link. A frame too
long, wrongly tagged, failing a check or for nobody here is dropped and counted; one that finds its class's share full sets DROP, and no other class's
share changes; any other is counted and buffered in its class's share, and waits where its connection's entry is not cached, until the fill. A queue
pair's number names its connection. The model's own choices that it rests on are in log entries 45, 95, 175 and 179. -/
def Obligations.FrameReception : Prop :=
  ∀ (p : BitVec 3) (k : BitVec 2) (head : FrameHead) (conn len : BitVec 16) (tags : BitVec 2) (vid : BitVec 12) (pause bad cacheBad : Bool)
    (corr unc : BitVec 16) (s : State),
    let P := p.toNat
    let K := k.toNat
    let N := conn.toNat
    let x := portOf s P
    let i := Instr.frameReceive p k head len tags vid pause bad cacheBad corr unc
    let dest := frameDest s (p ++ k) head
    let cls := match dest with | some (some n) => connClass s n | _ => 0
    let tagged := if bit x.vlanEn K then tags = 1 ∧ vid = mget 0 x.vlan K else tags = 0
    let quiet := mget 0 x.uncHank K + unc.toNat ≤ 1024
    let c := fun (t : State) (j : Nat) => mget 0 (portOf t P).cnt (8 * K + j)
    let drops := fun (j : Nat) => ∃ t, exec i s = .next t ∧ c t j = c s j + 1 ∧ (∀ m < 6, m ≠ j → c t m = c s m) ∧ (portOf t P).rx = x.rx ∧
      c t 6 = c s 6 + corr.setWidth 64 ∧ c t 7 = c s 7 + unc.setWidth 64 ∧ t.xpt = s.xpt ∧ t.tables = s.tables
    (bit x.up K = false → exec i s = .next s) ∧
    (bit x.up K = true → ¬ quiet → ∃ t, exec i s = .next t ∧ (portOf t P).up = clrBit x.up K ∧ (portOf t P).rx = x.rx ∧ t.xpt = s.xpt ∧
      told 0x0802 (p.setWidth 32, k.setWidth 32, 2) s t) ∧
    (bit x.up K = true → quiet →
      (9216 < len.toNat ∨ ¬tagged ∨ pause = true → drops 4) ∧
      (len.toNat ≤ 9216 → tagged → pause = false →
        (bad = true → drops 3) ∧
        (bad = false →
          (dest = none → drops 4) ∧
          (dest ≠ none → rxRoom s P cls < len.toNat → drops 2 ∧ ∃ t, exec i s = .next t ∧ bit (portOf t P).drop K = true) ∧
          (dest ≠ none → len.toNat ≤ rxRoom s P cls → ∃ t, exec i s = .next t ∧ c t 0 = c s 0 + 1 ∧ (∀ m < 6, m ≠ 0 → c t m = c s m) ∧
            mget 0 (portOf t P).rx cls = mget 0 x.rx cls + len.toNat ∧ (∀ m, m ≠ cls → mget 0 (portOf t P).rx m = mget 0 x.rx m) ∧
            t.tables = s.tables ∧ t.mem = s.mem ∧
            (dest = some none → (portOf t P).frames = x.frames ++ [len.toNat] ∧ t.xpt = s.xpt) ∧
            ∀ n, dest = some (some n) → (connOf t n).frames = (connOf s n).frames ++ [(cls, len.toNat)] ∧
              ((connOf s n).cached = false → (connOf t n).held = (connOf s n).held + 1) ∧
              ((connOf s n).cached = true → cacheBad = true → (groupOf t 20).total = satInc (groupOf s 20).total))))) ∧
    ((connOf s N).isOpen = true → (connOf s N).tcp = false → (connOf s N).sub = p ++ k →
      frameDest s (p ++ k) (.roce (BitVec.ofNat 24 (256 + N))) = some (some N)) ∧
    ((connOf s N).isOpen = true → (connOf s N).cached = false → dramSlot s (connClass s N) = true → cacheFull s = false →
      closes (.connectionEntryFill conn true) conn 0x0811 1 s ∧
      ∃ t, exec (.connectionEntryFill conn false) s = .next t ∧ t.xpt.miss = satInc s.xpt.miss ∧
        connOf t N = { connOf s N with cached := true, late := (connOf s N).late + (connOf s N).held, held := 0 } ∧
        ((cachedConns s).length < (if s.varB then 8192 else 16384) → ∀ j, j ≠ N → connOf t j = connOf s j) ∧
        (mwf {} s.xpt.conns = true → ∀ j, j ≠ N → (connOf s j).pinned = true → connOf t j = connOf s j))

/-- R57, R231, R236, R237, R239, R240, R243, R245, R253, R255 to R258, R261, R267, R274, R287, R288: RoCEv2 and sending. A SEND's capsule enters the
command table and its spindle's RXQ; a duplicate identifier or a queue above its size closes the queue pair as a protocol error; write data goes
through RXQ and is staged in a parse slot of its class; an acknowledgment retires frames up to its number; a timeout or a NAK sends the oldest again,
and closes after 7 tries; a frame that leaves keeps its record, and a PTP event its time. The model's own choices that it rests on are in log entries
95, 151, 173 and 176. -/
def Obligations.RoceAndSending : Prop :=
  ∀ (conn : BitVec 16) (s : State),
    let N := conn.toNat
    let c := connOf s N
    let n := spindleOf s N
    let P := connPath s conn
    let frame := fun (kd : BitVec 4) => ({ path := P, kind := kd, conn := some conn } : TxFrame)
    let ok := connReady s N = true ∧ c.tcp = false
    let took : Conn := if c.frames = [] then c else { c with frames := c.frames.tail, late := c.late - 1, lateNow := decide (0 < c.late) }
    let others := fun (t : State) => ∀ j, j ≠ N → connOf t j = connOf s j
    let live := s.tables.cmds.filter (fun x => !x.internal && !x.closed && x.conn = conn)
    let fits := fun (q : BitVec 512) (data : List (BitVec 256)) => (∀ x ∈ live, x.cid ≠ sqeCid q) ∧ live.length < c.sqSize ∧ data.length ≤ 256
    let acked := fun (ecn : Bool) (t : State) => (connOf t N).ackDue = (if c.ackDue + 1 = 16 then 0 else c.ackDue + 1) ∧ others t ∧
      (ecn = false → t.xpt.tx = s.xpt.tx ++ if c.ackDue + 1 = 16 then [frame 4] else []) ∧ (ecn = true → c.ecnNs = none → frame 6 ∈ t.xpt.tx)
    let resends := fun (i : Instr) (c : Conn) (limit : Nat) (tries : RtxRec → Nat) (up : RtxRec → RtxRec) => ∀ r rest, c.unack = r :: rest →
      r.sacked = false →
      (tries r < limit → ∃ t, exec i s = .next t ∧ (connOf t N) = { c with unack := c.unack.map (fun y => if y = r then up r else y) } ∧
        (∀ cid, r.cid = some cid → r.frame.src ≠ none →
          (spn t n).rxq = (spn s n).rxq ++ [rxHeader 3 N 0 cid.toNat r.off.toNat r.len.toNat] ∧ t.xpt.tx = s.xpt.tx) ∧
        (r.frame.src = none → t.xpt.tx = s.xpt.tx ++ [{ r.frame with again := true, seq := r.seq }] ∧ t.spindles = s.spindles)) ∧
      (limit ≤ tries r → closes i conn 0x0811 3 s)
    let refused := fun (i : Instr) (op : BitVec 8) =>
      if (6 ≤ op.toNat ∧ op.toNat ≤ 0x0C) ∨ op = 0x13 ∨ op = 0x14 then
        closes i conn 0x0811 4 s ∧ (s.tables.cmds = [] → c.vc = none → ∃ t f h psn msn, exec i s = .next t ∧
          t.xpt.tx = s.xpt.tx.filter (fun g => decide (g.conn ≠ some conn)) ++ [f] ∧ f.path = P ∧ f.kind = 8 ∧ f.conn = none ∧
          f.raw = etherHeader s P.toNat c ++ rocePacket s P.toNat c h 0x11 false psn (0x62 :: msn) [])
      else closes i conn 0x0811 1 s
    (∀ (op : BitVec 8) q data ecn, ok →
      let i := Instr.roceSend conn op q data ecn
      (op = 0 ∨ op = 1 → ∃ t, exec i s = .next t ∧ t.tables = s.tables ∧ t.spindles = s.spindles ∧ acked ecn t) ∧
      (op = 2 ∨ op = 4 → (¬ fits q data → closes i conn 0x0811 1 s) ∧
        (fits q data → ∃ t, exec i s = .next t ∧
          t.tables.cmds = s.tables.cmds ++ [{ cmdOfSqe s conn q with rx := capsuleData data, unbound := decide (c.unb ≠ 0) || took.lateNow }] ∧
          t.tables.arrivals = s.tables.arrivals + 1 ∧
          (s.xpt.takes = true → (spn s n).state ≠ 3 → (spn t n).rxq = (spn s n).rxq ++
            [rxHeader 1 N (2 + data.length) (sqeCid q).toNat 0 0, q.setWidth 256, (q >>> 256).setWidth 256] ++ data) ∧
          (s.xpt.takes = false ∨ (spn s n).state = 3 → t.spindles = s.spindles ∧ t.xpt.waitCaps.length = s.xpt.waitCaps.length + 1) ∧ acked ecn t)) ∧
      (op = 3 ∨ 4 < op.toNat → refused i op)) ∧
    (∀ cid (op : BitVec 8) data ecn, ok →
      let i := Instr.rdmaReadResponse conn cid op data ecn
      (op.toNat < 0x0D ∨ 0x10 < op.toNat → refused i op) ∧
      (0x0D ≤ op.toNat → op.toNat ≤ 0x10 → ∀ m r rest, liveCmd s conn cid = some m → m.asked = r :: rest →
        let short := (op = 0x0F ∨ op = 0x10) ∧ r.1 + data.length ≠ r.2
        (r.2 < r.1 + data.length ∨ short → closes i conn 0x0811 1 s) ∧
        (r.1 + data.length ≤ r.2 → ¬ short → parseRuns s n (connClass s N) = false → ∃ t, exec i s = .next t ∧ t.mem = s.mem ∧ t.media = s.media ∧
          (spn t n).rxq = (spn s n).rxq ++ rxHeader 2 N (bytesUnits data).length m.cid.toNat r.1 data.length :: bytesUnits data) ∧
        (m.phase = .waitData → r.1 + data.length ≤ r.2 → ¬ short → data.length < m.left → parseRuns s n (connClass s N) = true → (spn s n).rxq = [] →
          data.length ≤ 9216 → r.2 < 2 ^ 64 → ∃ t, exec i s = .next t ∧ t.mem = s.mem ∧ t.media = s.media ∧ (spn t n).rxq = [] ∧
          ∃ y ∈ t.tables.cmds, y.conn = conn ∧ y.cid = m.cid ∧ y.left = m.left - data.length ∧ y.staged = m.staged + data.length ∧
            y.rx = putAt r.1 data m.rx))) ∧
    (ok → ∀ pre r rest, c.unack = pre ++ r :: rest → (∀ y ∈ pre, y.seq ≠ r.seq) →
      ∃ t, exec (.acknowledge conn r.seq false false) s = .next t ∧ connOf t N = { took with unack := rest } ∧ t.xpt.tx = s.xpt.tx ∧ others t ∧
        ∀ j l, mwf none s.tables.locks = true → mget none s.tables.locks j = some l →
          let of_ := fun (f : TxFrame) => f.cid = some l.cid ∨ f.cid = none ∧ f.pushed = true
          let ends := l.internal = false ∧ l.excl = false ∧ l.conn = conn ∧ findCmd s conn l.cid = none ∧ (∀ y ∈ rest, ¬ of_ y.frame) ∧
            ∀ f ∈ s.xpt.tx, f.conn = some conn → ¬ of_ f
          (ends → mget none t.tables.locks j = none) ∧ (¬ ends → mget none t.tables.locks j = some l)) ∧
    (ok → ∀ seq, (∀ y ∈ c.unack, y.seq = seq → c.unack.head? = some y) →
      resends (.acknowledge conn seq true false) took 7 (·.tries) (fun r => { r with tries := r.tries + 1 })) ∧
    (ok → resends (.localAckTimeout conn) c 7 (·.tries) (fun r => { r with tries := r.tries + 1 })) ∧
    (ok → resends (.receiverNotReadyRetry conn false) took 7 (·.rnr) (fun r => { r with rnr := r.rnr + 1 })) ∧
    (ok → c.unack = [] → c.ecnNs = none → ∃ t, exec (.receiverNotReadyRetry conn true) s = .next t ∧ t.xpt.tx = s.xpt.tx ++ [frame 6]) ∧
    (ok → ∃ t, exec (.cnpReceive conn) s = .next t ∧ t.xpt.cnps = s.xpt.cnps + 1 ∧ connOf t N = took ∧ others t ∧ t.xpt.tx = s.xpt.tx ∧
      t.tables = s.tables) ∧
    (ok → refused (.remoteAccessRequest conn) 0x0C) ∧
    (∀ sub peer far mtu, (∃ t, exec (.communicationManagementDatagram sub conn peer far mtu false) s = .next t ∧ t.xpt = { s.xpt with qp1 := s.xpt.qp1 + 1 }) ∧
      (c.isOpen = false → N < nConns s → ∃ t, exec (.communicationManagementDatagram sub conn peer far mtu true) s = .next t ∧ t.xpt.qp1 = s.xpt.qp1 + 1 ∧
        (connOf t N).isOpen = true ∧ (connOf t N).tcp = false ∧ (connOf t N).peer = peer ∧ (connOf t N).sub = sub ∧ (connOf t N).vc = none ∧
        (connOf t N).v6 = far.v6 ∧ (connOf t N).ip = far.ip ∧ (connOf t N).dqp = far.qp ∧ (connOf t N).dscp = far.dscp ∧
        ((connOf t N).mtu ≤ mtu.toNat ∨ (connOf t N).mtu = 1024) ∧ (connOf t N).mtu ∈ [1024, 2048, 4096] ∧ others t)) ∧
    (s.store.act = .accepted → (∃ r ∈ c.unack, r.frame.src ≠ none) → c.isOpen = true → closes (.acknowledgmentTimeout conn) conn 0x0811 3 s) ∧
    (∀ (path : BitVec 5) pre f rest, s.xpt.tx = pre ++ f :: rest → f.path = path → frameSlot s f = true →
      (∀ g ∈ pre, g.path = path → frameSlot s g = false) →
      let q := path.toNat / 4
      mget 0 s.reel.xq (crossingKey 2 q) + (mget [] s.reel.xfly (crossingKey 2 q)).length + frameUnits f ≤ crossingDepth 2 →
      let up := bit (portOf s q).up (path.toNat % 4)
      let j := 8 * (path.toNat % 4) + if up then 1 else 5
      let goes := ∀ d, f.conn = some d → windowTakes s d f = true
      ∃ t, exec (.frameTransmit path) s = .next t ∧ t.xpt.tx = pre ++ rest ∧
        (goes → mget 0 (portOf t q).cnt j = mget 0 (portOf s q).cnt j + 1) ∧
        (f.ptp = none → t.now = s.now) ∧
        (∀ m, f.ptp = some m → goes → up = true → (portOf t q).txts = spanTime t &&& 0xFFFFFFFFFFFFFFFE ∧
          (portOf t q).txtsId = BitVec.ofNat 2 (path.toNat % 4) ++ m ∧ (portOf t q).txtsWait = true) ∧
        (∀ d, f.conn = some d → (connOf s d.toNat).isOpen = true → keepsRecord f = true → f.again = false →
          let e := connOf s d.toNat
          (connOf t d.toNat).seqNo = e.seqNo + BitVec.ofNat 32 (seqLen e f) ∧ (e.tcp = false → f.kind ≠ 0 → seqLen e f = 1) ∧
          ∃ r, (connOf t d.toNat).unack = e.unack ++ [r] ∧ r.seq = e.seqNo ∧ r.tries = 0 ∧ r.cid = f.cid) ∧
        (∀ d, f.conn = some d → keepsRecord f = false ∨ f.again = true → ∀ m, connOf t m = connOf s m)) ∧
    (∀ path : BitVec 5, (∀ f ∈ s.xpt.tx, f.path = path → frameSlot s f = false) → exec (.frameTransmit path) s = .next s)

/-- R241 to R251, R273, R287, R288: TCP, NVMe/TCP and TLS. A SYN to a listening port opens an entry, RST closes it by error, FIN in order; an ICReq with
PFV 0 and HPDA up to 31 sets the digests, without TLS only; a capsule and H2C data act as on RoCEv2, under TLS only from verified text, and a digest
error or a PDU out of place closes after a C2HTermReq; a handshake binds two keys of its tenant's range or ends with its alert; a record waits for its
slots and opens there, and a bad one closes with its alert; a KeyUpdate holds the records. The model's own choices that it rests on are in log entries
1, 95, 112, 149, 151, 152, 153, 173, 178 and 181 to 184. -/
def Obligations.TcpAndTls : Prop :=
  ∀ (conn : BitVec 16) (s : State),
    let N := conn.toNat
    let c := connOf s N
    let n := spindleOf s N
    let P := connPath s conn
    let ok := connReady s N = true ∧ c.tcp = true
    let others := fun (t : State) => ∀ j, j ≠ N → connOf t j = connOf s j
    let live := s.tables.cmds.filter (fun x => !x.internal && !x.closed && x.conn = conn)
    let sendable := c.tls = false ∨ keyRefusal (keyOf s c.kTx.toNat) = none
    let last := fun (i : Instr) (p : List (BitVec 8) → Prop) => c.tls = false → s.tables.cmds = [] → c.vc = none → ∃ t f h l, exec i s = .next t ∧ p l ∧
      t.xpt.tx = s.xpt.tx.filter (fun g => decide (g.conn ≠ some conn)) ++ [f] ∧ f.path = P ∧ f.kind = 8 ∧ f.conn = none ∧
      f.raw = etherHeader s P.toNat c ++ tcpPacket s P.toNat c h 0x18 c.seqNo (tsOption c h) l (onesSum l)
    let term := fun (i : Instr) (r : BitVec 32) (fes : BitVec 16 → Prop) => (∃ t, exec i s = .next t ∧ (connOf t N).isOpen = false) ∧
      (sendable → closes i conn 0x0811 r s) ∧ last i (fun l => ∃ x, fes x ∧ l = termReq x)
    let alert := fun (i : Instr) (a : BitVec 32) => (∃ t, exec i s = .next t ∧ (connOf t N).isOpen = false) ∧
      (sendable → closes i conn 0x0811 5 s ∧
        (s.tables.cmds = [] → c.vc = none → ∃ t, exec i s = .next t ∧ told 0x0812 (0xFFFFFFFF, conn.setWidth 32, a) s t))
    let left := fun (k : Nat) (c : Conn) => { c with plain := c.plain.drop k, unb := c.unb - k }
    (∀ pfv (hpda : BitVec 8) r2t h d, ok →
      let i := Instr.icreq conn pfv hpda r2t h d
      let up : Conn := { c with icDone := true, hpda := hpda, maxr2t := r2t, hdgst := h && !c.tls, ddgst := d && !c.tls }
      (plainPdu c 0 = none → exec i s = .next s) ∧
      (∀ k, plainPdu c 0 = some k →
        (c.icDone = false → pfv = 0 → hpda.toNat ≤ 31 → ∃ t, exec i s = .next t ∧ { connOf t N with txSeq := c.txSeq } = left k up ∧ others t ∧
          (c.tls = false → connOf t N = left k up ∧ ∃ f, t.xpt.tx = s.xpt.tx ++ [f] ∧ f.path = P ∧ f.kind = 9 ∧ f.conn = some conn ∧
            f.units = bytesUnits (icResp up))) ∧
        (c.icDone = true → term i 1 (· = 2)) ∧ (c.icDone = false → pfv ≠ 0 ∨ 31 < hpda.toNat → term i 1 (· = 6)))) ∧
    (∀ (typ : BitVec 8) q data hb db, ok →
      let i := Instr.capsuleCmd conn typ q data hb db
      (plainPdu c typ = none → exec i s = .next s) ∧
      (∀ k, plainPdu c typ = some k →
        (typ = 0 ∨ typ = 2 ∨ typ = 6 → ∃ t, exec i s = .next t ∧ connOf t N = left k c ∧ others t ∧ t.xpt.tx = s.xpt.tx ∧ t.tables = s.tables) ∧
        (typ ≠ 0 → typ ≠ 2 → typ ≠ 6 → typ ≠ 4 → term i 1 (· = 1)) ∧
        (typ = 4 → c.icDone = false → term i 1 (· = 2)) ∧
        (typ = 4 → c.icDone = true → hb = true → c.hdgst = true → term i 2 (· = 3)) ∧
        (typ = 4 → c.icDone = true → (hb && c.hdgst) = false → db = true → c.ddgst = true → term i 2 (fun _ => True)) ∧
        (typ = 4 → c.icDone = true → (hb && c.hdgst) = false → (db && c.ddgst) = false → (∀ x ∈ live, x.cid ≠ sqeCid q) → live.length < c.sqSize →
          data.length ≤ 256 → s.xpt.takes = true → (spn s n).state ≠ 3 →
          ∃ t, exec i s = .next t ∧ t.tables.cmds = s.tables.cmds ++ [{ cmdOfSqe s conn q with rx := capsuleData data }] ∧
            (spn t n).rxq = (spn s n).rxq ++ [rxHeader 1 N (2 + data.length) (sqeCid q).toNat 0 0, q.setWidth 256, (q >>> 256).setWidth 256] ++ data ∧
            connOf t N = left k c ∧ others t ∧ t.xpt.tx = s.xpt.tx))) ∧
    (∀ cid (off : BitVec 32) data hb db, ok →
      let i := Instr.h2cData conn cid off data hb db
      let good := (hb && c.hdgst) = false ∧ (db && c.ddgst) = false
      (plainPdu c 6 = none → exec i s = .next s) ∧
      (∀ k, plainPdu c 6 = some k →
        (∀ m r, liveCmd s conn cid = some m → answersAsk m off.toNat data.length = some r → good →
          (m.phase ≠ .waitData → term i 1 (· = 2)) ∧
          (m.phase = .waitData → parseRuns s n (connClass s N) = false → ∃ t, exec i s = .next t ∧ t.mem = s.mem ∧ t.media = s.media ∧
            (spn t n).rxq = (spn s n).rxq ++ rxHeader 2 N (bytesUnits data).length m.cid.toNat r.1 data.length :: bytesUnits data) ∧
          (m.phase = .waitData → data.length < m.left → parseRuns s n (connClass s N) = true → (spn s n).rxq = [] → data.length ≤ 131072 →
            ∃ t, exec i s = .next t ∧ t.mem = s.mem ∧ t.media = s.media ∧ (spn t n).rxq = [] ∧
            ∃ y ∈ t.tables.cmds, y.conn = conn ∧ y.cid = m.cid ∧ y.left = m.left - data.length ∧ y.staged = m.staged + data.length ∧
              y.rx = putAt r.1 data m.rx)) ∧
        (liveCmd s conn cid = none → good → term i 1 (· = 1)) ∧
        (∀ m, liveCmd s conn cid = some m → answersAsk m off.toNat data.length = none → good → term i 1 (· = 4)) ∧
        (hb = true → c.hdgst = true → term i 2 (· = 3)) ∧ ((hb && c.hdgst) = false → db = true → c.ddgst = true → term i 2 (fun _ => True)))) ∧
    (ok → plainPdu c 2 ≠ none → closes (.h2cTermReq conn) conn 0x0811 1 s) ∧
    (∀ sub peer far port ack (wnd : BitVec 16) data o,
      let seg := fun (syn fin rst : Bool) => Instr.tcpSegment sub conn peer far port syn fin rst data ack wnd o
      (port = s.xpt.listen ∨ port = 8009 → frameConn s sub (.tcp far.v6 far.ip far.port port true) = none → c.isOpen = false → N < nConns s →
        ∃ t f h, exec (seg true false false) s = .next t ∧ others t ∧ t.xpt.tx = s.xpt.tx ++ [f] ∧
        let e := connOf t N
        e.isOpen = true ∧ e.tcp = true ∧ e.port = port ∧ e.peer = peer ∧ e.wnd = wnd.toNat ∧ e.rport = far.port ∧ e.ip = far.ip ∧ e.mtu = 9198 ∧
        e.mss = (o.mss.getD 536).toNat ∧ e.sackOk = o.sackOk ∧ e.tsOk = o.ts.isSome ∧ e.cwnd = 10 * smss e ∧
        f.path = sub ∧ f.kind = 8 ∧ f.conn = none ∧
        f.raw = etherHeader s sub.toNat e ++ tcpPacket s sub.toNat e h 0x12 (e.seqNo - 1) (synOptions e o h) [] (onesSum [])) ∧
      (frameConn s sub (.tcp far.v6 far.ip far.port port true) ≠ none → ∃ t, exec (seg true false false) s = .next t ∧ t.xpt = s.xpt) ∧
      (c.isOpen = true → c.tcp = true → c.cached = true → closes (seg false false true) conn 0x0811 1 s ∧ closes (seg false true false) conn 0x0814 4 s ∧
        (∃ t, exec (seg false false false) s = .next t) ∧
        (data = true → c.recover = none → ∃ t, exec (seg false false false) s = .next t ∧ (connOf t N).wnd = wnd.toNat * 2 ^ c.wscale ∧ others t ∧
          (connOf t N).unack = (c.unack.drop (c.unack.takeWhile (ackedBy ack)).length).map
            (fun r => if c.sackOk && o.sacks.any (fun b => sackedBy b r) then { r with sacked := true } else r) ∧
          (connOf t N).frames = c.frames.tail)) ∧
      (c.isOpen = true → c.cached = false → exec (seg false false false) s = .next s)) ∧
    (c.isOpen = true → c.tcp = true → ∀ r rest, c.unack = r :: rest →
      let clear := fun (y : RtxRec) => { y with sacked := false }
      (r.tries < 8 → ∃ t, exec (.tcpRetransmissionTimeout conn) s = .next t ∧ others t ∧ connOf t N = { c with
        unack := (c.unack.map clear).map (fun y => if y = clear r then { y with tries := y.tries + 1 } else y)
        ssth := lossThreshold s N, cwnd := smss c, dups := 0, recover := none }) ∧
      (8 ≤ r.tries → closes (.tcpRetransmissionTimeout conn) conn 0x0811 3 s)) ∧
    (∀ mtu : BitVec 16, c.isOpen = true → c.tcp = true →
      (mtu.toNat < c.mtu → ∃ t, exec (.pathMtuMessage conn mtu) s = .next t ∧ connOf t N = { c with mtu := max 1280 mtu.toNat } ∧ others t) ∧
      (c.mtu ≤ mtu.toNat → ∃ t, exec (.pathMtuMessage conn mtu) s = .next t ∧ t.xpt = s.xpt)) ∧
    (∀ hello : Option Hello, c.isOpen = true → c.tcp = true → c.cached = true → c.tls = false →
      let i := Instr.tlsHandshakeRecord conn hello
      (∀ h, hello = some h → h.suite ≠ 0x1302 ∨ h.group ≠ 24 ∨ h.psk = false ∨ h.early = true ∨ h.ticket = true ∨
        bit (vcOf s h.vc.toNat).inForce.flags 0 = false → alert i 40 ∧ last i (· = [21, 3, 3, 0, 2, 2, 40])) ∧
      ((∀ h, hello = some h → h.suite = 0x1302 ∧ h.group = 24 ∧ h.psk = true ∧ h.early = false ∧ h.ticket = false ∧
        bit (vcOf s h.vc.toNat).inForce.flags 0 = true) → ∃ t, exec i s = .next t ∧ t.xpt.tlsWait = s.xpt.tlsWait + 1 ∧ others t ∧
          connOf t N = { c with hand := true, osWait := c.osWait + 1, tlsVc := match hello with | some h => some h.vc | none => c.tlsVc })) ∧
    (∀ hello, c.cached = false → exec (.tlsHandshakeRecord conn hello) s = .next s) ∧
    (∀ kTx kRx ivTx ivRx, c.isOpen = true → c.tcp = true → c.hand = true → c.tls = false →
      let i := Instr.tlsHandshakeComplete conn kTx kRx ivTx ivRx
      let r := match c.tlsVc with | some v => (vcOf s v.toNat).inForce | none => {}
      let above := (if s.varB then 2048 else 4096) ≤ tlsConns s
      let full := r.tlsCnt.toNat < (tlsSlotsUsed s r).length + 2
      (above ∨ full → alert i 80 ∧ (s.tables.cmds = [] → c.vc = none → ∃ t, exec i s = .next t ∧
        told 0x0810 (0xFFFFFFFF, conn.setWidth 32, if above then 2 else 3) s t)) ∧
      (¬ above → ¬ full →
        (slotsTake s r kTx kRx = true → ∃ t, exec i s = .next t ∧ others t ∧ t.xpt.tlsWait = s.xpt.tlsWait - c.osWait ∧ connOf t N =
          { c with tls := true, hand := false, kTx := kTx, kRx := kRx, ivTx := ivTx, ivRx := ivRx, txSeq := 0, rxSeq := 0, osWait := 0 }) ∧
        (slotsTake s r kTx kRx = false → exec i s = .next s))) ∧
    (∀ rec_ : List (BitVec 8), connReady s N = true → c.tls = true →
      let i := Instr.tlsRecord conn rec_
      let len := beNat ((rec_.drop 3).take 2)
      let text := tlsOpen (keyOf s c.kRx.toNat).key c.ivRx c.rxSeq rec_
      let opens := len ≤ 16640 ∧ recordSlot s N = true ∧ c.recs = [] ∧ c.keyWait = false
      let key := keyRefusal (keyOf s c.kRx.toNat) = none
      (16640 < len → alert i 22) ∧
      (len ≤ 16640 → recordSlot s N = false ∨ c.keyWait = true → ∃ t, exec i s = .next t ∧ others t ∧ t.xpt.tx = s.xpt.tx ∧
        connOf t N = { c with recs := c.recs ++ [(connClass s N, c.keyWait || c.lateNow, rec_)] } ∧
        mget 0 (portOf t (connPort s N)).rx (connClass s N) = mget 0 (portOf s (connPort s N)).rx (connClass s N) + rec_.length) ∧
      (opens → ¬ key → ∃ t, exec i s = .next t ∧ (connOf t N).isOpen = false) ∧
      (opens → key → text = none → alert i 20) ∧
      (∀ typ l, opens → key → text = some (typ, l) →
        (typ ≠ 21 → typ ≠ 22 → ∃ t, exec i s = .next t ∧ others t ∧
          connOf t N = { c with rxSeq := c.rxSeq + 1, plain := c.plain ++ l, unb := if c.lateNow then c.plain.length + l.length else c.unb }) ∧
        (typ = 22 → ∃ t, exec i s = .next t ∧ others t ∧
          connOf t N = (if l.getD 0 0 = 24 then { c with rxSeq := c.rxSeq + 1, keyWait := true, osWait := c.osWait + 1 }
            else { c with rxSeq := c.rxSeq + 1 })) ∧
        (typ = 21 → l.getD 1 0 = 0 → closes i conn 0x0814 4 s) ∧
        (typ = 21 → l.getD 1 0 ≠ 0 → alert i (l.getD 1 0 |>.setWidth 32)))) ∧
    (∀ iv, connReady s N = true → c.tls = true →
      (c.keyWait = false → ∃ t, exec (.keyUpdate conn false iv) s = .next t ∧ connOf t N = { c with keyWait := true, osWait := c.osWait + 1 } ∧
        t.xpt.tlsWait = s.xpt.tlsWait + 1 ∧ others t) ∧
      (c.keyWait = true → c.recs = [] → ∃ t, exec (.keyUpdate conn true iv) s = .next t ∧ t.xpt.tlsWait = s.xpt.tlsWait - c.osWait ∧
        connOf t N = { c with keyWait := false, ivRx := iv, rxSeq := 0, osWait := 0 } ∧ told 0x0813 (0xFFFFFFFF, conn.setWidth 32, 1) s t ∧ others t) ∧
      (2 ^ 24 ≤ c.txSeq.toNat → sendable → ∃ t f, exec (.keyUpdateSend conn iv) s = .next t ∧
        connOf t N = { c with txSeq := 0, ivTx := iv, kuSent := true } ∧ t.xpt.tx = s.xpt.tx ++ [f] ∧ f.path = P ∧ f.kind = 9 ∧ f.conn = some conn ∧
        f.units = bytesUnits (tlsRecordOf 22 (keyOf s c.kTx.toNat).key c.ivTx c.txSeq [24, 0, 0, 1, 0]) ∧
        told 0x0813 (0xFFFFFFFF, conn.setWidth 32, 0) s t ∧ others t) ∧
      (c.txSeq.toNat < 2 ^ 24 → exec (.keyUpdateSend conn iv) s = .next s))

/-! ## Commands of a tenant (R61–R66, R275–R322) -/

/-- R69, R119, R202, R238, R278, R282, R284, R286, R291, R292, R299 to R303, R306, R307, R310, R322, R349: the command table and the locks. An ordered
command waits for its predecessors before anything else of it is checked, and fails with one of them; what the mode, the namespace, the opcode or the
fields do not admit completes with its status, frees the entry and counts, as does a command with an abort mark; a Flush with nothing to wait for
completes; reports complete; the earliest unblocked lock is granted; a posted unit is accepted once. The model's own choices that it rests on are in
log entries 95, 98, 112, 150, 168, 171 and 174. -/
def Obligations.CommandTable : Prop :=
  ∀ (c : Cmd) (s : State),
    let a := zoneSendAction c
    let ok := fresh s c ∧ c.admin = false
    let marked := s.tables.marks.contains (c.conn, c.cid) = true
    let bare := s.tables.marks.contains (c.conn, c.cid) = false
    let done := predecessorsDone s c = true
    let free := c.ordered = false ∨ (done ∧ predecessorFailed s c = false)
    let serves := modeStatus s c = none ∧ ∃ x, cmdNs s c = some x ∧ kindOk x c.opcode = true ∧ (x.span && fenced s) = false ∧
      (isWriteOp c.opcode && writesRefused s c) = false ∧ (isWriteOp c.opcode && !placementOk x c) = false
    let rows := fun (rg : List (BitVec 64 × BitVec 32 × BitVec 32)) (cap b : Bool) =>
      ([(.read c.conn c.cid rg b, 2, withRanges c rg false b), (.write c.conn c.cid rg cap b, 1, withRanges c rg cap b),
        (.zoneAppend c.conn c.cid rg cap b, 0x7D, withRanges c rg cap b), (.writeZeroes c.conn c.cid, 8, c), (.flush c.conn c.cid, 0, c),
        (.verify c.conn c.cid, 0x0C, c)] : List (Instr × BitVec 8 × Cmd))
    let reports := fun (hs : List (BitVec 4)) => ([(.zoneManagementReceive c.conn c.cid, 0x7A), (.ioManagementReceive c.conn c.cid, 0x12),
      (.ioManagementSend c.conn c.cid hs, 0x1D)] : List (Instr × BitVec 8))
    let send : List (Instr × Nat) := [(.zoneOpen c.conn c.cid, 3), (.zoneClose c.conn c.cid, 1), (.zoneFinish c.conn c.cid, 2),
      (.zoneReset c.conn c.cid, 4), (.zoneOffline c.conn c.cid, 5)]
    (ok → ∀ rg cap b i op d, (i, op, d) ∈ rows rg cap b → c.opcode = op →
      (c.ordered = true → ¬ done → ∃ t y, exec i s = .next t ∧ liveCmd t c.conn c.cid = some y ∧ y.phase = .waitOrder ∧ t.xpt.tx = s.xpt.tx) ∧
      (c.ordered = true → done → predecessorFailed s c = true → answered i c (status 7 0x84) 0 0 s) ∧
      (free → (∀ st, parseStatus s d = some st → answered i c st 0 0 s) ∧
        (inHold s = true → answered i c (status 7 0x83) 0 0 s) ∧
        (inHold s = false → s.reel.deck ∉ [9, 11] → nsOf s c.nsid.toNat = none → op ≠ 0 → answered i c (status 0 0x0B) 0 0 s) ∧
        (serves → op ∈ [1, 2, 0x7D] → b = true ∨ 16 < rg.length → answered i c (status 0 2) 0 0 s) ∧
        (parseStatus s d = none → marked → answered i c (status 0 7) 0 0 s))) ∧
    (ok → ∀ hs i op, (i, op) ∈ reports hs → c.opcode = op →
      (∀ st, parseStatus s c = some st → answered i c st 0 0 s) ∧
      (inHold s = true → answered i c (status 7 0x83) 0 0 s) ∧
      (inHold s = false → s.reel.deck ∉ [9, 11] → nsOf s c.nsid.toNat = none → answered i c (status 0 0x0B) 0 0 s) ∧
      (parseStatus s c = none → marked → answered i c (status 0 7) 0 0 s)) ∧
    (ok → c.opcode = 0x79 → free → ∀ i k, (i, k) ∈ send →
      (a = k ∨ a = 0 ∨ 5 < a → ∀ st, parseStatus s c = some st → answered i c st 0 0 s) ∧
      (a = 0 ∨ 5 < a → serves → answered i c (status 0 2) 0 0 s) ∧ (a = k → parseStatus s c = none → marked → answered i c (status 0 7) 0 0 s)) ∧
    (ok → c.opcode = 0 → parseStatus s c = none → free → bare → flushTargets s c = [] → answered (.flush c.conn c.cid) c 0 c.dw0 c.dw1 s) ∧
    (ok → c.opcode = 0 → parseStatus s c = none → free → bare → flushTargets s c ≠ [] →
      ∃ t d, exec (.flush c.conn c.cid) s = .next t ∧ liveCmd t c.conn c.cid = some d ∧ d.phase = .waiting ∧ d.wait = flushTargets s c) ∧
    (∀ conn cid, liveCmd s conn cid = none → exec (.flush conn cid) s = .next s) ∧
    (ok → c.opcode = 0x19 → free → ∀ srcs : List (BitVec 64 × BitVec 17), let n := (srcs.map (fun r => r.2.toNat)).sum
      let i := Instr.copy c.conn c.cid srcs
      (∀ st, parseStatus s { c with srcs := srcs.map (fun r => (r.1.toNat, r.2.toNat)), nlb := n } = some st → answered i c st 0 0 s) ∧
      (serves → copyFormat c ≠ 0 ∨ 16 < srcs.length ∨ 65536 < n ∨ n = 0 → answered i c (status 0 2) 0 0 s) ∧
      (serves → c.bad = false → copyFormat c = 0 → 0 < n → srcs.length ≤ 16 → n ≤ 65536 →
        (∃ r ∈ srcs, r.1.toNat < c.slba + n ∧ c.slba < r.1.toNat + r.2.toNat) → answered i c (status 7 0x85 true) 0 0 s)) ∧
    (∀ x, ok → parseStatus s c = none → bare → c.opcode = 0x7A → nsOf s c.nsid.toNat = some x →
      let o : BitVec 8 := (sqeDw c.sqe 13 >>> 8).setWidth 8
      let i := Instr.zoneManagementReceive c.conn c.cid
      (a ≠ 0 ∨ 7 < o.toNat → answered i c (status 0 2) 0 0 s) ∧
      (a = 0 → o.toNat ≤ 7 → nsLbas x ≤ c.slba → answered i c (status 0 0x80) 0 0 s) ∧
      (a = 0 → o.toNat ≤ 7 → c.slba < nsLbas x → answered i c 0 0 0 s ∧ (o = 0 → bit (sqeDw c.sqe 13) 16 = false →
        ∃ t, exec i s = .next t ∧ ∃ f ∈ t.xpt.tx, f.conn = some c.conn ∧ f.cid = some c.cid ∧
          f.data.head? = some (0, 8, zoneCount x - zoneOfLba x c.slba)))) ∧
    (ok → parseStatus s c = none → bare → c.opcode = 0x12 →
      answered (.ioManagementReceive c.conn c.cid) c (if (sqeDw c.sqe 10).setWidth 8 = 1#8 then 0 else status 0 2) 0 0 s) ∧
    (∀ x hs, ok → parseStatus s c = none → bare → c.opcode = 0x1D → nsOf s c.nsid.toNat = some x →
      ((sqeDw c.sqe 10).setWidth 8 ≠ 1#8 ∨ (∃ h ∈ hs, x.handles ≤ BitVec.toNat h) → answered (.ioManagementSend c.conn c.cid hs) c (status 0 2) 0 0 s) ∧
      ((sqeDw c.sqe 10).setWidth 8 = 1#8 → (∀ h ∈ hs, BitVec.toNat h < x.handles) → answered (.ioManagementSend c.conn c.cid hs) c 0 0 0 s)) ∧
    (fresh s c → (c.admin = true ∧ c.opcode ∉ [0x02, 0x06, 0x08, 0x09, 0x0A, 0x0C, 0x18, 0x84, 0x7F] ∨
        c.admin = false ∧ c.opcode ∉ [0x00, 0x01, 0x02, 0x08, 0x0C, 0x19, 0x79, 0x7A, 0x7D, 0x12, 0x1D, 0x7F]) →
      answered (.invalidCommandOpcode c.conn c.cid) c (status 0 1 true) 0 0 s) ∧
    (alone s c → c.phase = .waitOrder →
      let i := Instr.orderedCommandRelease c.conn c.cid
      (¬ done → exec i s = .next s) ∧ (done → c.ordered = true → predecessorFailed s c = true → answered i c (status 7 0x84) 0 0 s) ∧
      (done → free → (∀ st, parseStatus s c = some st → answered i c st 0 0 s) ∧
        (parseStatus s c = none → marked → answered i c (status 0 7) 0 0 s) ∧
        (parseStatus s c = none → bare → c.opcode = 0 → flushTargets s c = [] → answered i c 0 c.dw0 c.dw1 s))) ∧
    (∀ k l, nextGrant s = some (k, l) → ∃ t, exec .lockGrant s = .next t ∧
      (∀ n, l.spindle = some n → mget none t.tables.locks k = some { l with granted := true } ∧
        (spn t n).lockOut = (spn s n).lockOut ++ [lockResult l.tag { code := 0, entry := k }] ∧ t.tables.cmds = s.tables.cmds) ∧
      (∀ d, l.spindle = none → acquireCmd s l.conn l.cid l.internal = some d → d.phase = .waitLock → allGranted (grantLock k l s) d = true →
        t = retryCmd (grantLock k l s) d) ∧
      (l.spindle = none → l.internal = false → liveCmd s l.conn l.cid = none → mget none t.tables.locks k = some { l with granted := true } ∧
        t.spindles = s.spindles)) ∧
    (nextGrant s = none → exec .lockGrant s = .next s) ∧
    (∀ (n : BitVec 6), (spn s n.toNat).cmpl = [] ∨ cmplDrains s n.toNat = false → exec (.completionPosted n) s = .next s) ∧
    (∀ (n : BitVec 6) u rest, (spn s n.toNat).cmpl = u :: rest → (spn s n.toNat).cmplAt.headD 0 < s.reel.core → (spn s n.toNat).cmplFree ≤ s.reel.core →
      let conn : BitVec 16 := (u >>> 128).setWidth 16
      let cid : BitVec 16 := (u >>> 96).setWidth 16
      let own := bit u 144
      ∃ t, exec (.completionPosted n) s = .next t ∧ (spn t n.toNat).cmpl = rest ∧ s.reel.core < (spn t n.toNat).cmplFree ∧
        (findCmd s conn cid = none → t.tables = s.tables ∧ t.xpt = s.xpt ∧ told 0x0820 (0xFFFFFFFF, conn.setWidth 32, cid.setWidth 32) s t) ∧
        (∀ d, findCmd s conn cid = some d → d ∉ t.tables.cmds ∧ (∀ x ∈ s.tables.cmds, x ≠ d → x ∈ t.tables.cmds) ∧
          (d.closed = true ∨ own = true → t.xpt = s.xpt) ∧
          (d.closed = false → own = false → (connOf s conn.toNat).tls = false → ∃ f, t.xpt.tx = s.xpt.tx ++ [f] ∧ f.kind = 3 ∧ f.conn = some conn ∧
            f.cid = some cid ∧ f.inval = (if bit u 145 then some (BitVec.extractLsb' 160 32 u) else none) ∧
            BitVec.extractLsb' 113 15 f.desc = (if inHold s then (status 7 0x83).setWidth 15 else BitVec.extractLsb' 113 15 u) ∧
            f.desc.setWidth 64 = (u.setWidth 64 : BitVec 64) ∧ BitVec.extractLsb' 64 16 f.desc = BitVec.ofNat 16 (sqHead s conn))))

/-- R61 to R66, R238, R283, R288 to R290, R293 to R296, R302, R307, R308: reads and writes of a tenant. A read whose tokens, place and transport are
there is charged once and posted with its shared lock; without its tokens it is deferred without a charge; a range of an Offline zone fails it, and lost
data once what is readable of it has come. A write advances its zone's accepted write pointer, is charged, and asks for its data, or, with the data at
hand, completes; an Append answers where it lies. The model's own choices that it rests on are in log entries 46, 91, 112, 135, 148 and 150. -/
def Obligations.ReadsAndWrites : Prop :=
  ∀ (c : Cmd) (x : Ns) (s : State),
    let z := zoneOfLba x c.slba
    let e := zoneOf s c.nsid z
    let ok := fresh s c ∧ c.admin = false
    let parsed := parseStatus s c = none ∧ nsOf s c.nsid.toNat = some x ∧ quiesced s c = false ∧ c.ordered = false
    let parts := splitRead s x c.nsid c.slba c.nlb
    let units := c.nlb * (if parts.any (overdue s) then 2 else 1)
    let media := readyLbas s x c.nsid c.slba c.nlb = []
    let sound := rangeOffline s x c.nsid c.slba c.nlb = false ∧ rangePoisoned s x c.nsid c.slba c.nlb = false
    let can := readTokens s c units = true ∧
      readSlots s c ((parts.map (partReads s c x)).flatten) (anyStaged s x c.nsid c.slba c.nlb) = true ∧ (c.opcode = 2 → transportTakes s c (c.nlb * lbaBytes x) = true)
    let posts := fun (i : Instr) => ∃ t d, exec i s = .next t ∧ liveCmd t c.conn c.cid = some d ∧ d.phase = .posted ∧ t.xpt.tx = s.xpt.tx ∧
      (∀ v, c.vc = some v → (vcOf t v.toNat).rd = (vcOf s v.toNat).rd - units) ∧ t.media = s.media
    let defers := fun (i : Instr) => ∃ t d, exec i s = .next t ∧ liveCmd t c.conn c.cid = some d ∧ d.phase = .deferred ∧ t.vct = s.vct ∧
      t.media = s.media ∧ t.piers = s.piers
    let wrote := fun (t : State) => (zoneOf t c.nsid z).acc = e.acc + c.nlb ∧
      (zoneOf t c.nsid z).state = (if e.acc + c.nlb = zcapOf x then 0xE else e.state) ∧
      ∀ v, c.vc = some v → (vcOf t v.toNat).wr = (vcOf s v.toNat).wr - c.nlb
    let w := z * zszeOf x + e.acc
    let asks := fun (i : Instr) (app : Bool) => ∃ t d, exec i s = .next t ∧ wrote t ∧ liveCmd t c.conn c.cid = some d ∧ d.phase = .waitData ∧
      d.left = c.nlb * lbaBytes x ∧ d.zone = some z ∧ d.slba = e.acc ∧ d.locks ≠ [] ∧
      d.dw0 = (if app then BitVec.ofNat 32 w else 0) ∧ d.dw1 = (if app then BitVec.ofNat 32 (w / 2 ^ 32) else 0) ∧
      (∃ l, t.xpt.tx = s.xpt.tx ++ l ∧ ∀ f ∈ l, f.conn = some c.conn) ∧
      ((connOf s c.conn.toNat).isOpen = true → (connOf s c.conn.toNat).tcp = true → c.staged = 0 →
        d.asked.head? = some (0, min (c.nlb * lbaBytes x) 131072))
    let ends := fun (i : Instr) (dw0 dw1 : BitVec 32) => ∃ t, exec i s = .next t ∧ wrote t ∧ completed c 0 dw0 dw1 s t
    let reads : List (Instr × BitVec 8) := [(.read c.conn c.cid c.ranges false, 2), (.verify c.conn c.cid, 0x0C)]
    let free := lockFree s c true c.slba c.nlb
    (ok → parsed → lockFree s c false c.slba c.nlb → c.ranges.length ≤ 16 → ∀ i op, (i, op) ∈ reads → c.opcode = op →
      (sound → can → media → 0 < c.nlb → posts i) ∧
      (sound → can → parts = [] → 0 < c.nlb → c.got = 0 → c.fail = false → op = 0x0C →
        anyStaged s x c.nsid c.slba c.nlb = false ∨ dramSlot s c.cls.toNat = true → answered i c 0 0 0 s) ∧
      (sound → readTokens s c units = false → defers i) ∧
      (rangeOffline s x c.nsid c.slba c.nlb = true → answered i c (status 1 0xBB) 0 0 s) ∧
      (rangeOffline s x c.nsid c.slba c.nlb = false → can → 0 < c.nlb → c.got = 0 →
        (goodRuns s x c.nsid c.slba c.nlb = [] → answered i c (status 2 0x81) 0 0 s) ∧
        (0 < ((goodRuns s x c.nsid c.slba c.nlb).map (·.2)).sum → ((goodRuns s x c.nsid c.slba c.nlb).map (·.2)).sum < c.nlb → media →
          ∃ t d, exec i s = .next t ∧ liveCmd t c.conn c.cid = some d ∧ d.phase = .posted ∧ d.fail = true ∧ t.xpt.tx = s.xpt.tx))) ∧
    (ok → zoneTakes s x c → free →
      (∀ rg : List (BitVec 64 × BitVec 32 × BitVec 32), rg.length ≤ 16 → c.opcode = 1 → asks (.write c.conn c.cid rg false false) false) ∧
      (∀ rg : List (BitVec 64 × BitVec 32 × BitVec 32), rg.length ≤ 16 → c.opcode = 0x7D → asks (.zoneAppend c.conn c.cid rg false false) true) ∧
      (∀ rg : List (BitVec 64 × BitVec 32 × BitVec 32), rg.length ≤ 16 → c.fua = false → c.opcode = 1 → tagBytesSet s x c = false → ends (.write c.conn c.cid rg true false) 0 0) ∧
      (c.fua = false → c.opcode = 8 → ends (.writeZeroes c.conn c.cid) 0 0) ∧
      (∀ rg : List (BitVec 64 × BitVec 32 × BitVec 32), rg.length ≤ 16 → c.fua = false → c.opcode = 0x7D → tagBytesSet s x c = false →
        ends (.zoneAppend c.conn c.cid rg true false) (BitVec.ofNat 32 w) (BitVec.ofNat 32 (w / 2 ^ 32)))) ∧
    (∀ (rg : List (BitVec 64 × BitVec 32 × BitVec 32)) cap, rg.length ≤ 16 → ok → parsed → free → x.fdp = false → e.moving = false → ¬ (e.degraded = true ∧ s.media.rebuild = true ∧ s.reel.deck = 5) →
      writeTokens s c c.nlb = true → canProgram s c = true → c.opcode = 1 → 0 < c.nlb →
      rowNeed (nsGroup x) (toPool s c.cls.toNat) e (e.acc + c.nlb) ≤ stageRoom s c.cls.toNat →
      ∀ st, zoneCheck s x c.nsid z (c.slba % zszeOf x) c.nlb = some st → answered (.write c.conn c.cid rg cap false) c st 0 0 s) ∧
    (∀ (srcs : List (BitVec 64 × BitVec 17)), ok → c.opcode = 0x19 → srcs.length ≤ 16 →
      (srcs.map (fun r => r.2.toNat)).sum = c.nlb → c.nlb ≤ 65536 → (∀ r ∈ srcs, ¬ (r.1.toNat < c.slba + c.nlb ∧ c.slba < r.1.toNat + r.2.toNat)) →
      let l := srcs.map (fun r => (r.1.toNat, r.2.toNat))
      let cparts := (l.map (fun r => splitRead s x c.nsid r.1 r.2)).flatten
      zoneTakes s x { c with srcs := l } → c.slba < 2 ^ 63 → c.fua = false → c.locks = [] → c.got = 0 →
      s.tables.marks.contains (c.conn, c.cid) = false → s.tables.locks = [] →
      srcs.length < mget 0 s.tables.shares c.cls.toNat → srcs.length < nLocks s → readTokens s c c.nlb = true →
      readSlots s c ((cparts.map (partReads s c x)).flatten) (l.any (fun r => anyStaged s x c.nsid r.1 r.2)) = true → (∀ r ∈ l, rangeOffline s x c.nsid r.1 r.2 = false) →
      ((∃ r ∈ l, rangePoisoned s x c.nsid r.1 r.2 = true) → answered (.copy c.conn c.cid srcs) c (status 2 0x81) 0 0 s) ∧
      ((∀ r ∈ l, rangePoisoned s x c.nsid r.1 r.2 = false) →
        (cparts = [] → l.any (fun r => anyStaged s x c.nsid r.1 r.2) = false ∨ dramSlot s c.cls.toNat = true →
          bit ((homeRecord s x).getD {}).flags 2 = false → ends (.copy c.conn c.cid srcs) 0 0) ∧
        (cparts ≠ [] → ∃ t d, exec (.copy c.conn c.cid srcs) s = .next t ∧ liveCmd t c.conn c.cid = some d ∧ d.phase = .posted ∧
          d.srcs = l ∧ zoneOf t c.nsid z = e ∧ ∀ v, c.vc = some v → (vcOf t v.toNat).rd = (vcOf s v.toNat).rd - c.nlb))) ∧
    (dueDeferred s c.cls = [c] → alone s c →
      (∀ st, modeStatus s c = some st → answered (.deferredCommandRetry c.cls) c st 0 0 s) ∧
      (modeStatus s c = none → s.tables.marks.contains (c.conn, c.cid) = true → answered (.deferredCommandRetry c.cls) c (status 0 7) 0 0 s) ∧
      (modeStatus s c = none → quiesced s c = true → s.tables.marks.contains (c.conn, c.cid) = false →
        ∃ t d, exec (.deferredCommandRetry c.cls) s = .next t ∧ liveCmd t c.conn c.cid = some d ∧ d.phase = .held) ∧
      (modeStatus s c = none → parsed → isReadOp c.opcode = true → lockFree s c false c.slba c.nlb → sound → can → media →
        0 < c.nlb → posts (.deferredCommandRetry c.cls))) ∧
    (dueDeferred s c.cls = [] → exec (.deferredCommandRetry c.cls) s = .next s)

/-- R292 to R297, R302, R335, R336, R341: zone management. Open makes a zone Explicitly Opened, Close Closed or Empty, Finish Full, Reset Empty
with nothing bound, and Offline takes a Read Only zone out of use; an action not listed for the zone's state fails with 1h / BFh. The model's own
choices that it rests on are in log entries 95 and 110. -/
def Obligations.ZoneManagement : Prop :=
  ∀ (c : Cmd) (x : Ns) (s : State),
    let z := zoneOfLba x c.slba
    let e := zoneOf s c.nsid z
    let st := e.state
    let set := fresh s c ∧ c.admin = false ∧ c.opcode = 0x79 ∧ selectAll c = false ∧ c.slba % zszeOf x = 0 ∧ z < zoneCount x ∧
      parseStatus s c = none ∧ nsOf s c.nsid.toNat = some x ∧ quiesced s c = false ∧ c.ordered = false ∧ lockFree s c true (z * zszeOf x) (zszeOf x)
    let does := fun (i : Instr) (p : Zone → Prop) => ∃ t, exec i s = .next t ∧ p (zoneOf t c.nsid z) ∧ completed c 0 0 0 s t
    set →
    (zoneSendAction c = 3 → (st = 2 ∨ st = 3 ∨ st = 4 ∧ e.skeins ≠ [] ∧ openLimit s x c.nsid z = none) → does (.zoneOpen c.conn c.cid) (fun y => y.state = 3 ∧ y.acc = e.acc)) ∧
    (zoneSendAction c = 3 → st = 1 ∨ st = 4 → ∀ r, openLimit s x c.nsid z = some r → answered (.zoneOpen c.conn c.cid) c r 0 0 s) ∧
    (zoneSendAction c = 1 → st = 2 ∨ st = 3 ∨ st = 4 → does (.zoneClose c.conn c.cid) (fun y => y.state = (if e.acc = 0 then 1 else 4) ∧ y.acc = e.acc)) ∧
    (zoneSendAction c = 2 → st = 1 ∨ st = 2 ∨ st = 3 ∨ st = 4 ∨ st = 0xE → ∃ t, exec (.zoneFinish c.conn c.cid) s = .next t ∧ (zoneOf t c.nsid z).state = 0xE ∧
      (st ≠ 0xE → (zoneOf t c.nsid z).finValid = true ∧ (zoneOf t c.nsid z).fin = e.acc)) ∧
    (zoneSendAction c = 4 → st = 1 ∨ st = 2 ∨ st = 3 ∨ st = 4 ∨ st = 0xE → does (.zoneReset c.conn c.cid) (fun y => y = {})) ∧
    (zoneSendAction c = 5 → st = 0xD → does (.zoneOffline c.conn c.cid) (fun y => y.state = 0xF ∧ y.skeins = [] ∧ y.acc = e.acc)) ∧
    (zoneSendAction c = 3 → st = 0xD ∨ st = 0xE ∨ st = 0xF → answered (.zoneOpen c.conn c.cid) c (status 1 0xBF) 0 0 s) ∧
    (zoneSendAction c = 1 → st = 1 ∨ st = 0xD ∨ st = 0xE ∨ st = 0xF → answered (.zoneClose c.conn c.cid) c (status 1 0xBF) 0 0 s) ∧
    (zoneSendAction c = 2 → st = 0xD ∨ st = 0xF → answered (.zoneFinish c.conn c.cid) c (status 1 0xBF) 0 0 s) ∧
    (zoneSendAction c = 4 → st = 0xD ∨ st = 0xF → answered (.zoneReset c.conn c.cid) c (status 1 0xBF) 0 0 s) ∧
    (zoneSendAction c = 5 → st = 1 ∨ st = 2 ∨ st = 3 ∨ st = 4 ∨ st = 0xE → answered (.zoneOffline c.conn c.cid) c (status 1 0xBF) 0 0 s)

/-- R202, R217, R277 to R282, R309, R319, R322, R364, R372, R422, R435: admin and Fabrics commands. Each is failed by the mode that does not serve
it, and one with an abort mark ends with 07h; Get Log Page and Identify send their data; Set Features changes what Get Features then answers; a fifth Abort fails, and a mark taken answers
0; an event request waits; Keep Alive restarts the timer whose end resets the controller; Sanitize starts the sweep; Connect joins the queue,
Disconnect closes it. The model's own choices that it rests on are in log entries 95, 96, 98 to 102, 104 and 167. -/
def Obligations.AdminCommands : Prop :=
  ∀ (c : Cmd) (v : BitVec 12) (s : State),
    let V := v.toNat
    let x := ctrlOf s V
    let w := sqeDw c.sqe 10
    let w11 := sqeDw c.sqe 11
    let admin : List (Instr × BitVec 8) := [(.getLogPage c.conn c.cid, 2), (.identify c.conn c.cid, 6), (.abort c.conn c.cid, 8),
      (.setFeatures c.conn c.cid, 9), (.getFeatures c.conn c.cid, 0x0A), (.asynchronousEventRequest c.conn c.cid, 0x0C), (.keepAlive c.conn c.cid, 0x18),
      (.sanitize c.conn c.cid, 0x84)]
    let frame := fun (d : List (Nat × Nat × Nat)) =>
      ({ path := connPath s c.conn, kind := 8, conn := some c.conn, cid := some c.cid, data := d } : TxFrame)
    let sends := fun (i : Instr) (d : List (Nat × Nat × Nat)) => ∃ t, exec i s = .next t ∧ completed c 0 0 0 s t ∧ frame d ∈ t.xpt.tx
    let port := (connOf s c.conn.toNat).port
    let lid := ((w.setWidth 8 : BitVec 8)).toNat
    (fresh s c → c.admin = true → ∀ i op, (i, op) ∈ admin → c.opcode = op → ∀ st, adminMode s c = some st → answered i c st 0 0 s) ∧
    (fresh s c → c.admin = true → c.vc = some v → adminMode s c = none →
      (s.tables.marks.contains (c.conn, c.cid) = true → ∀ i op, (i, op) ∈ admin → c.opcode = op → op ≠ 0x0C → answered i c (status 0 7) 0 0 s) ∧
      (s.tables.marks.contains (c.conn, c.cid) = false ∨ c.opcode = 0x0C →
      (c.opcode = 2 → (∀ st d, logPage s V lid c.nsid port = (st, d) → st ≠ 0 → answered (.getLogPage c.conn c.cid) c st 0 0 s) ∧
        (∀ d, logPage s V lid c.nsid port = (0, d) → sends (.getLogPage c.conn c.cid) (pagePart c d)) ∧
        (lid = 0xBF → pageNs s V c.nsid false = true → ∃ t, exec (.getLogPage c.conn c.cid) s = .next t ∧ ∀ n, nsOf t c.nsid.toNat = some n → n.changed = [])) ∧
      (c.opcode = 6 → (lid ∉ identifyCns → answered (.identify c.conn c.cid) c (status 0 2) 0 0 s) ∧
        (lid ∈ [0, 3, 5, 8] → cmdNs s c = none → answered (.identify c.conn c.cid) c (status 0 0x0B) 0 0 s) ∧
        (lid ∈ identifyCns → (cmdNs s c ≠ none ∨ lid ∈ [1, 2, 6, 7, 0x1C]) → sends (.identify c.conn c.cid) (identifyData s V lid (w11 >>> 24).toNat c.nsid))) ∧
      (c.opcode = 8 →
        let tcid : BitVec 16 := (w >>> 16).setWidth 16
        (4 < abortsOut s c.vc → answered (.abort c.conn c.cid) c (status 1 3) 0 0 s) ∧
        (abortsOut s c.vc ≤ 4 → queueConn s V (w.setWidth 16) = none → answered (.abort c.conn c.cid) c 0 1 0 s) ∧
        (∀ tc, abortsOut s c.vc ≤ 4 → queueConn s V (w.setWidth 16) = some tc →
          (liveCmd s tc tcid = none → answered (.abort c.conn c.cid) c 0 1 0 s) ∧
          (∀ d, liveCmd s tc tcid = some d → d ≠ c → d.admin = false → d.locks.contains 65535 = false →
            (∀ k ∈ locksOf s tc tcid false, ∀ l, mget none s.tables.locks k = some l → l.granted = false) →
            ∃ t, exec (.abort c.conn c.cid) s = .next t ∧ completed c 0 0 0 s t ∧ t.tables.marks.contains (tc, tcid) = true))) ∧
      (c.opcode = 9 → (bit w 31 = true → answered (.setFeatures c.conn c.cid) c (status 1 0x0D) 0 0 s) ∧
        (bit w 31 = false → lid = 4 ∨ lid = 0x1D → answered (.setFeatures c.conn c.cid) c (status 1 0x0E) 0 0 s) ∧
        (bit w 31 = false → lid = 0x0F → w11.toNat < 1000 ∨ 120000 < w11.toNat → answered (.setFeatures c.conn c.cid) c (status 0 2) 0 0 s) ∧
        (bit w 31 = false → lid ∈ [0x0B, 0xC0] → ∃ t, exec (.setFeatures c.conn c.cid) s = .next t ∧ completed c 0 0 0 s t ∧
          getFeature t V lid 0 = (0, if lid = 0x0B then w11 else w11 &&& 1)) ∧
        (bit w 31 = false → lid = 0x0F → 1000 ≤ w11.toNat → w11.toNat ≤ 120000 → ∃ t, exec (.setFeatures c.conn c.cid) s = .next t ∧
          completed c 0 0 0 s t ∧ w11.toNat ≤ (ctrlOf t V).kato ∧ (ctrlOf t V).kato < w11.toNat + 100 ∧ (ctrlOf t V).kato % 100 = 0 ∧
          (ctrlOf t V).kaRuns = true)) ∧
      (c.opcode = 0x0A → let sel : BitVec 3 := (w >>> 8).setWidth 3
        (sel ≠ 0 → sel ≠ 3 → answered (.getFeatures c.conn c.cid) c (status 0 2) 0 0 s) ∧
        (∀ r, getFeature s V lid w11 = (0, r) → (sel = 0 → answered (.getFeatures c.conn c.cid) c 0 r 0 s) ∧
          (sel = 3 → answered (.getFeatures c.conn c.cid) c 0 (if lid = 4 ∨ lid = 0x1D then 0 else 4) 0 s))) ∧
      (c.opcode = 0x0C → (4 < aersOut s c.vc → answered (.asynchronousEventRequest c.conn c.cid) c (status 0 2) 0 0 s) ∧
        (aersOut s c.vc ≤ 4 → x.notices = 0 → ∃ t d, exec (.asynchronousEventRequest c.conn c.cid) s = .next t ∧ liveCmd t c.conn c.cid = some d ∧
          d.phase = .posted ∧ t.xpt.tx = s.xpt.tx)) ∧
      (c.opcode = 0x18 → ∃ t, exec (.keepAlive c.conn c.cid) s = .next t ∧ completed c 0 0 0 s t ∧ (ctrlOf t V).kaSince = s.now ∧ (ctrlOf t V).kaRuns = true) ∧
      (c.opcode = 0x84 → (maySanitize s V = false → answered (.sanitize c.conn c.cid) c (status 0 1 true) 0 0 s) ∧
        (maySanitize s V = true → sanAction c ≠ 2 → sanAction c ≠ 4 → answered (.sanitize c.conn c.cid) c (status 0 2) 0 0 s) ∧
        (maySanitize s V = true → sanAction c = 4 → cryptoEraseOk s V = false → answered (.sanitize c.conn c.cid) c (status 0 2) 0 0 s) ∧
        (maySanitize s V = true → sanAction c = 2 → ∃ t, exec (.sanitize c.conn c.cid) s = .next t ∧ completed c 0 0 0 s t ∧
          t.media.sanitize = true ∧ t.media.sanLog = 2 ∧
          t.media.sanNs = s.media.sanNs ++ ((vcNamespaces s V).map (·.1)).filter (fun m => !s.media.sanNs.contains m) ∧
          (modeRank 11 ≤ pendRank s → modeRank 11 ≤ activeRank s → permits s s.reel.deck 11 = true → ∃ q, t.reel.req = some q ∧ q.mode = 11))))) ∧
    (x.kaRuns = true → ∃ t, exec (.keepAliveTimeout v) s = .next t ∧ (ctrlOf t V).rdy = false ∧ (ctrlOf t V).kaRuns = false ∧ bit (ctrlOf t V).cc 0 = false ∧
      ∀ q ∈ x.ios, (connOf t q.1.toNat).isOpen = false) ∧
    (x.kaRuns = false → exec (.keepAliveTimeout v) s = .next s) ∧
    (s.reel.deck = 11 → s.media.sanitize = true → ∃ t, exec .sanitizeSweepEnd s = .next t ∧ t.media.sanitize = false ∧ t.media.sanLog = 1 ∧ t.media.sanNs = [] ∧ t.media.erases = []) ∧
    (fresh s c → c.opcode = 0x7F → inHold s = false → s.reel.deck ≠ 11 →
      (∀ nqn cntlid, fctype c = 1 → (nqnVc s nqn = none → answered (.fabricsConnect c.conn c.cid nqn cntlid) c (status 0 2) 0 0 s) ∧
        (nqnVc s nqn = some V → connectOk s c V cntlid = false → answered (.fabricsConnect c.conn c.cid nqn cntlid) c (status 0 2) 0 0 s) ∧
        (nqnVc s nqn = some V → connectOk s c V cntlid = true → pinFull s V = false → ∃ t, exec (.fabricsConnect c.conn c.cid nqn cntlid) s = .next t ∧
          (connOf t c.conn.toNat).vc = some v ∧ (connOf t c.conn.toNat).qid = (w >>> 16).setWidth 16 ∧
          (connOf t c.conn.toNat).sqSize = (w11.setWidth 16 : BitVec 16).toNat + 1 ∧
          ((w >>> 16).setWidth 16 = (0 : BitVec 16) → (ctrlOf t V).admin = some c.conn ∧ (ctrlOf t V).rdy = false ∧ (ctrlOf t V).kaRuns = true) ∧
          ((w >>> 16).setWidth 16 ≠ (0 : BitVec 16) → (ctrlOf t V).ios = x.ios ++ [(c.conn, (w >>> 16).setWidth 16)]) ∧
          ((connOf s c.conn.toNat).tls = false →
            ∃ f ∈ t.xpt.tx.drop s.xpt.tx.length, f.kind = 3 ∧ f.cid = some c.cid ∧ f.desc.setWidth 32 = BitVec.ofNat 32 (V + 1)))) ∧
      (c.vc = some v → fctype c = 0 → w11 = 0x14 →
        let cc := sqeDw c.sqe 12
        (bit cc 0 = true → (cc >>> 14).setWidth 2 = (0 : BitVec 2) → ∃ t, exec (.propertySet c.conn c.cid) s = .next t ∧ completed c 0 0 0 s t ∧
          (ctrlOf t V).rdy = true ∧ (ctrlOf t V).cc = cc) ∧
        (bit x.cc 0 = true → bit cc 0 = false → ∃ t, exec (.propertySet c.conn c.cid) s = .next t ∧ (ctrlOf t V).rdy = false ∧
          ∀ q ∈ x.ios, (connOf t q.1.toNat).isOpen = false)) ∧
      (c.vc = some v → fctype c = 0 → w11 ≠ 0x14 → answered (.propertySet c.conn c.cid) c (status 0 2) 0 0 s) ∧
      (c.vc = some v → fctype c = 4 →
        (w11 = 0x14 → answered (.propertyGet c.conn c.cid) c 0 x.cc 0 s) ∧
        (w11 = 0x1C → answered (.propertyGet c.conn c.cid) c 0 ((if x.rdy then 1 else 0) ||| x.shst.setWidth 32 <<< 2) 0 s) ∧
        (w11 = 0 → ∃ lo hi, answered (.propertyGet c.conn c.cid) c 0 lo hi s ∧ lo.setWidth 16 = (1023 : BitVec 16)) ∧
        (w11 ∉ [0, 8, 0x14, 0x1C] → answered (.propertyGet c.conn c.cid) c (status 0 2) 0 0 s)) ∧
      (fctype c = 8 → c.admin = true → answered (.fabricsDisconnect c.conn c.cid) c (status 0 1 true) 0 0 s) ∧
      (fctype c = 8 → c.admin = false → ∃ t, exec (.fabricsDisconnect c.conn c.cid) s = .next t ∧ (connOf t c.conn.toNat).isOpen = false))

/-! ## Task sets and namespaces (R311–R318, R334) -/

/-- R311, R313 to R318: task register sets. GO issues the set's command as an internal command of class 0, its item on a spindle's RXQ; in a running
set it sets BUSYW; a chain address that cannot be used stops the set with STATE 3; CANCEL reads 1 while the set runs; an opcode of no command ends
with 01h; a completion writes the result and the status and frees the entry, and the data a command read stands in the buffer; clearing DONE returns
STATE to 0. The model's own choices that it rests on are in log entries 87, 109 and 150. -/
def Obligations.TaskSets : Prop :=
  ∀ (k : BitVec 6) (s : State),
    let K := k.toNat
    let x := taskOf s K
    let op := sqeOp (taskSqe x)
    let a := x.chain.toNat
    let issued := fun (t : State) (c : Cmd) => t.tables.cmds = s.tables.cmds ++ [c] ∧ (taskOf t K).state = 1 ∧ (taskOf t K).done = false ∧
      ∃ n, (spn t n).rxq = (spn s n).rxq ++ [rxHeader 5 K 2 0 0 0, c.sqe.setWidth 256, (c.sqe >>> 256).setWidth 256]
    (x.state = 1 → ∀ b, ∃ t, exec (.taskGo k b) s = .next t ∧ (taskOf t K).busyw = true ∧ (taskOf t K).state = 1 ∧ (taskOf t K).chained = x.chained ∧
      t.tables = s.tables ∧ t.spindles = s.spindles) ∧
    (x.state ≠ 1 → setCmd s K = none →
      ((inHold s = true ∨ op ∈ taskOps) → ∃ t, exec (.taskGo k false) s = .next t ∧ issued t (taskCmd s K (taskSqe x) x.buf.toNat)) ∧
      (inHold s = false → op ∉ taskOps → op ∉ taskIoOps → ∃ t d, exec (.taskGo k false) s = .next t ∧ setCmd t K = some d ∧ d.phase = .ended ∧
        d.status = status 0 1 ∧ d.opcode = op) ∧
      (chainOk s a = false → ∃ t, exec (.taskGo k true) s = .next t ∧ (taskOf t K).state = 3 ∧ (taskOf t K).done = true ∧
        told 0x0121 (BitVec.ofNat 32 K, BitVec.ofNat 32 a, BitVec.ofNat 32 (a / 2 ^ 32)) s t ∧ t.tables = s.tables) ∧
      (chainOk s a = true → inHold s = true ∨ portByte s a ∈ taskOps → ∃ t c, exec (.taskGo k true) s = .next t ∧ issued t c ∧
        c.opcode = portByte s a ∧ ∀ j < 64, BitVec.extractLsb' (8 * j) 8 c.sqe = portByte s (a + j))) ∧
    (∃ t, exec (.taskCancel k) s = .next t ∧ (taskOf t K).cancel = (x.cancel || x.state == 1) ∧ (taskOf t K).state = x.state ∧ t.tables = s.tables) ∧
    (∃ t, exec (.taskDoneClear k) s = .next t ∧ (taskOf t K).done = false ∧ (taskOf t K).state = (if x.done then 0 else x.state) ∧ t.tables = s.tables) ∧
    (∀ c, setCmd s K = some c → c.phase = .ended → (runOf s K).chain = false → s.mgmt.reply = none ∨ K ≠ 63 →
      let e := taskCqe c c.status
      ∃ t, exec (.taskCommandComplete k) s = .next t ∧ c ∉ t.tables.cmds ∧ (∀ y ∈ s.tables.cmds, y ≠ c → y ∈ t.tables.cmds) ∧
        (∀ j < 4, mget 0 (taskOf t K).res j = BitVec.extractLsb' (32 * j) 32 e) ∧ (taskOf t K).lastSts = c.status.setWidth 15 ∧
        (taskOf t K).state = 2 ∧ (taskOf t K).done = true ∧ t.mem = s.mem) ∧
    (∀ c, setCmd s K = some c → c.phase = .ended → (runOf s K).chain = true → x.cancel = true →
      ∃ t, exec (.taskCommandComplete k) s = .next t ∧ c ∉ t.tables.cmds ∧ (taskOf t K).state = 2 ∧ (taskOf t K).last = (runOf s K).desc ∧
        memNat t ((runOf s K).desc.toNat + 80) 32 = (taskCqe c c.status).toNat ∧ (bit (runOf s K).ctl 1 = true → (srcOf t (320 + K)).pend = true)) ∧
    ((∀ c, setCmd s K = some c → c.phase ≠ .ended) → exec (.taskCommandComplete k) s = .next s) ∧
    (∀ c y lba off blocks, c.internal = true → c.opcode = 2 →
      let place := taskBuf s c.cid.toNat + off * lbaBytes y
      let data := blocks.flatten
      inDram s place (max 1 data.length) = true → ∃ d, (putBlocks c y lba off blocks s).1 = some d ∧ d.got = c.got + blocks.length ∧
        ∀ j < data.length, memByte (putBlocks c y lba off blocks s).2 (place + j) = data.getD j 0)

/-- R217, R281, R305, R311, R312, R334, R348, R434, R435, R600: the namespace commands. Create checks the block and commits the skeins, or fails
with 02h, 16h or 15h and commits nothing; Delete fails while a controller is attached, else the namespace is gone; the first attachment makes the
key home; Detach removes the controller; an internal Sanitize starts the sweep of every namespace; an internal log page is written at the buffer.
The model's own choices that it rests on are in log entries 105, 106 and 107. -/
def Obligations.NamespaceCommands : Prop :=
  ∀ (k : BitVec 6) (c : Cmd) (x : Ns) (s : State),
    let K := k.toNat
    let b := paramBlock s (runOf s K).buf.toNat
    let n := pNsid b
    let v := taskVc c
    let y := nsOf s c.nsid.toNat
    let ends := fun (i : Instr) (st : BitVec 16) (p : State → Prop) => ∃ t d, exec i s = .next t ∧ setCmd t K = some d ∧ d.phase = .ended ∧ d.status = st ∧ p t
    let same := fun (t : State) => t.media = s.media
    let got := setCmd s K = some c ∧ c.phase = .received ∧ inHold s = false ∧ parseSlot s c = true ∧ firstOfClass s c = true
    let zones := activeTotal s + activeShare (blockNs s b) ≤ (if s.varB then 8192 else 16384)
    (got → c.opcode = 0xE0 → (blockNs s b).span = false →
      (blockOk s b = false → ends (.namespaceCreate k) (status 0 2) same) ∧
      (blockOk s b = true → nsOf s n ≠ none → ends (.namespaceCreate k) (status 1 0x16) same) ∧
      (blockOk s b = true → nsOf s n = none → mget {} s.span.dir n = {} →
        (¬ zones → ends (.namespaceCreate k) (status 0 2) same) ∧
        (zones → ((createGroups s b).map (uncommitted s)).sum < (blockNs s b).skeins → ends (.namespaceCreate k) (status 1 0x15) same) ∧
        ((createNs b s).1 = 0 → ends (.namespaceCreate k) 0 (fun t => ∃ z, nsOf t n = some z ∧ z.fdp = (blockNs s b).fdp ∧ z.cls = (blockNs s b).cls ∧
          z.spz = (blockNs s b).spz ∧ z.attached = [] ∧ z.home = none ∧ ∀ m, m ≠ n → nsOf t m = nsOf s m)))) ∧
    (got → c.opcode = 0xE0 → (blockNs s b).span = true → blockOk s b = true → nsOf s n = none → mget {} s.span.dir n = {} →
      (fenced s = true → ends (.namespaceCreate k) (status 7 0x82) same) ∧ (s.span.state = 0 → ends (.namespaceCreate k) (status 0 2) same)) ∧
    (got → c.opcode = 0xE1 →
      (y = none → ends (.namespaceDelete k) (status 0 0x0B) same) ∧
      (y = some x → x.span = false → x.attached ≠ [] → ends (.namespaceDelete k) (status 0 2) same) ∧
      (y = some x → x.span = false → x.attached = [] → ends (.namespaceDelete k) 0 (fun t => nsOf t c.nsid.toNat = none ∧
        ∀ m, m ≠ c.nsid.toNat → (nsOf t m).isSome = (nsOf s m).isSome))) ∧
    (got → c.opcode = 0xE2 →
      (y = none → ends (.namespaceAttach k) (status 0 0x0B) same) ∧
      (y = some x → (x.span = true → fenced s = false) →
        (v ∈ x.attached → ends (.namespaceAttach k) (status 1 0x18) same) ∧
        (v ∉ x.attached → attachBad s x v.toNat = true → ends (.namespaceAttach k) (status 1 0x1C) same) ∧
        (v ∉ x.attached → attachBad s x v.toNat = false → ends (.namespaceAttach k) 0 (fun t =>
          nsOf t c.nsid.toNat = some { x with attached := x.attached ++ [v], home := if x.home.isNone then some v else x.home })))) ∧
    (got → c.opcode = 0xE3 →
      (y = none → ends (.namespaceDetach k) (status 0 0x0B) same) ∧
      (y = some x → (x.span = true → fenced s = false) →
        (v ∉ x.attached → ends (.namespaceDetach k) (status 1 0x1A) same) ∧
        (v ∈ x.attached → ends (.namespaceDetach k) 0 (fun t => ∃ z, nsOf t c.nsid.toNat = some z ∧ v ∉ z.attached ∧ z.home = x.home ∧
          ∀ w ∈ x.attached, w ≠ v → w ∈ z.attached)))) ∧
    (got → c.opcode = 0xE8 →
      (hasDeck s 11 = false → ends (.internalSanitize k) (status 0 1 true) same) ∧
      (hasDeck s 11 = true → sanAction c ≠ 2 → sanAction c ≠ 4 → ends (.internalSanitize k) (status 0 2) same) ∧
      (hasDeck s 11 = true → sanAction c = 2 → ends (.internalSanitize k) 0 (fun t => t.media.sanitize = true ∧
        t.media.sanNs = s.media.sanNs ++ (s.media.nss.map (·.1)).filter (fun m => !s.media.sanNs.contains m) ∧ t.ciph = s.ciph))) ∧
    (got → c.opcode = 0xE9 →
      let V : BitVec 12 := (sqeDw c.sqe 15).setWidth 12
      let lid := ((sqeDw c.sqe 10).setWidth 8 : BitVec 8).toNat
      (∀ d, logPage s V.toNat lid c.nsid 0 = (0, d) → ends (.internalGetLogPage k) 0 (fun t => lid ≠ 0xBF → same t)) ∧
      (lid = 0x81 → sqeDw c.sqe 12 = 0 → sqeDw c.sqe 13 = 0 → inDram s ((runOf s K).buf.toNat + 2) 2 = true →
        ends (.internalGetLogPage k) 0 (fun t => memNat t ((runOf s K).buf.toNat + 2) 2 = s.media.sanLog.toNat)) ∧
      (∀ st d, logPage s V.toNat lid c.nsid 0 = (st, d) → st ≠ 0 → lid ≠ 2 → lid ≠ 0xBF → ends (.internalGetLogPage k) (status 1 9) same))

/-! ## Keys and virtual controllers (R419–R461) -/

/-- R428 to R432, R453, R460, R461: key operations, each after a commit that is due (R206). One that R453 refuses ends with its result and changes no
slot; Load, Generate and Unwrap schedule the selected slot's new key, Zeroize its clearing, Copy and Move the destination's, for the next hank commit;
Wrap answers at once; CIPH_KDATA is cleared when a Load ends; a failed random generator refuses Generate. The model's own choices that it rests on are
in log entries 5, 31 and 120. -/
def Obligations.KeyStore : Prop :=
  ∀ (use : BitVec 4) (limit : BitVec 6) (s : State),
    let K := s.ciph.ksel.toNat
    let D := s.ciph.kdst.toNat
    let gives : List Instr := [.keyLoad use limit, .keyGenerate use limit, .keyUnwrap use limit]
    let copies : List Instr := [.keyCopy use limit, .keyMove use limit]
    let refuses := fun (i : Instr) (r : BitVec 4) => ∃ t, exec i s = .next t ∧ t.ciph.result = r ∧ t.ciph.ended = true ∧ t.ciph.slots = s.ciph.slots ∧ t.mem = s.mem
    let ends := fun (i : Instr) (p : State → Prop) => ∃ t, exec i s = .next t ∧ t.ciph.result = 0 ∧ t.ciph.ended = true ∧ p t ∧ t.mem = s.mem
    let fresh := fun (t : State) (j : Nat) (q : KeyPend) => keyOf t j = { keyOf s j with pend := some q }
    let others := fun (t : State) (l : List Nat) => ∀ j, j ∉ l → keyOf t j = keyOf s j
    let limitOk := 35 ≤ limit.toNat ∧ limit.toNat ≤ 56
    let useOk := use ≠ 0 ∧ use.toNat ≤ 6
    let src := keyAfter (keyOf s K)
    let rows : List Instr := gives ++ copies ++ [.keyZeroize use limit, .keyWrap use limit]
    (∀ i ∈ rows, ∃ t, exec i s = .next t ∧ (settle (settle s) = settle s → exec i (settle s) = .next t)) ∧
    (settle s = s → ∀ i ∈ gives, (nKeys s ≤ K → refuses i 8) ∧ (K < nKeys s → ¬limitOk → refuses i 6) ∧ (K < nKeys s → limitOk → ¬useOk → refuses i 7) ∧
      (K < nKeys s → limitOk → useOk → slotForVc s K s.ciph.kvc = false → refuses i 4)) ∧
    (settle s = s → K < nKeys s → limitOk → useOk → slotForVc s K s.ciph.kvc = true →
      ends (.keyLoad use limit) (fun t => fresh t K { op := 1, key := BitVec.ofNat 256 (wordsNat s.ciph.kdata 8), use := use, limit := limit, vc := s.ciph.kvc } ∧
        t.ciph.kdata = [] ∧ others t [K]) ∧
      (s.ciph.rngBad = true → refuses (.keyGenerate use limit) 5) ∧
      (s.ciph.rngBad = false → ends (.keyGenerate use limit) (fun t => (∃ key, fresh t K { op := 2, key := key, use := use, limit := limit, vc := s.ciph.kvc }) ∧
        others t [K])) ∧
      (match Config.unwrapKey (BitVec.ofNat 320 (wordsNat s.ciph.kwrap 10)) with
        | none => refuses (.keyUnwrap use limit) 2
        | some key => ends (.keyUnwrap use limit) (fun t => fresh t K { op := 7, key := key, use := use, limit := limit, vc := s.ciph.kvc } ∧ others t [K]))) ∧
    (settle s = s → nKeys s ≤ K → refuses (.keyZeroize use limit) 8 ∧ refuses (.keyWrap use limit) 8 ∧ ∀ i ∈ copies, refuses i 8) ∧
    (settle s = s → K < nKeys s →
      ends (.keyZeroize use limit) (fun t => (∃ q, fresh t K q ∧ q.use = 0 ∧ q.key = 0) ∧ others t [K]) ∧
      ((keyOf s K).use = 0 → refuses (.keyWrap use limit) 3) ∧
      ((keyOf s K).use ≠ 0 → ends (.keyWrap use limit) (fun t => t.ciph.slots = s.ciph.slots ∧
        wordsNat t.ciph.kwrap 10 = (Config.wrapKey (keyOf s K).key).toNat ∧ told 0x0A04 (BitVec.ofNat 32 K, 6, (keyOf s K).vc.setWidth 32) s t)) ∧
      (∀ i ∈ copies, (nKeys s ≤ D → refuses i 8) ∧ (D < nKeys s →
        (src.use = 0 → refuses i 3) ∧
        (src.use ≠ 0 → (keyOf s D).use ≠ 0 ∨ (keyOf s D).pend ≠ none → refuses i 1) ∧
        (src.use ≠ 0 → (keyOf s D).use = 0 → (keyOf s D).pend = none →
          (use ≠ 0 → use ≠ src.use → ¬ (src.use = 3 ∧ use = 4) → refuses i 7) ∧
          (use = 0 ∨ use = src.use → slotForVc s D src.vc = false → refuses i 4)))) ∧
      (D < nKeys s → D ≠ K → src.use ≠ 0 → (keyOf s D).use = 0 → (keyOf s D).pend = none → use = 0 ∨ use = src.use → slotForVc s D src.vc = true →
        ends (.keyCopy use limit) (fun t => fresh t D { op := 4, key := src.key, use := src.use, limit := src.limit, vc := src.vc } ∧ others t [D]) ∧
        ends (.keyMove use limit) (fun t => fresh t D { op := 5, key := src.key, use := src.use, limit := src.limit, vc := src.vc } ∧
          (∃ q, fresh t K q ∧ q.use = 0 ∧ q.key = 0) ∧ others t [D, K]))) ∧
    (s.ciph.rngBad = false → ∃ t, exec .randomGeneratorFailure s = .next t ∧ t.ciph = { s.ciph with rngBad := true } ∧
      (groupOf t 14).total = satInc (groupOf s 14).total ∧ t.mem = s.mem) ∧
    (s.ciph.rngBad = true → exec .randomGeneratorFailure s = .next s)

/-- R421, R423, R426, R451, R459: virtual controllers. A VCT operation comes after a commit that is due (R206); one that R459 refuses ends with its
result and event 0x0B04; Create makes the entry with full buckets and event 0x0B01, Delete closes every connection of the controller, whose entry is
free when the last has closed, Bind schedules the class for the next commit; a changed selector is acknowledged in the record, in a DRAM port slot of
the class. The model's own choices that it rests on are in log entry 5. -/
def Obligations.VirtualControllers : Prop :=
  ∀ (cls : BitVec 8) (s : State),
    let V := s.vct.idx.toNat
    let x := vcOf s V
    let a := s.vct.recReg.toNat
    let refuses := fun (i : Instr) (op r : BitVec 4) => ∃ t, exec i s = .next t ∧ t.vct.result = r ∧ t.vct.ended = true ∧ t.vct.ents = s.vct.ents ∧
      told 0x0B04 (s.vct.idx.setWidth 32, op.setWidth 32, r.setWidth 32) s t ∧ t.mem = s.mem ∧ t.xpt = s.xpt
    let create := Instr.virtualControllerCreate cls
    let bind_ := Instr.virtualControllerBind cls
    let rows : List Instr := [create, .virtualControllerDelete, bind_]
    (∀ i ∈ rows, ∃ t, exec i s = .next t ∧ (settle (settle s) = settle s → exec i (settle s) = .next t)) ∧
    (settle s = s → nVcs s ≤ V → refuses create 1 8 ∧ refuses .virtualControllerDelete 2 8 ∧ refuses bind_ 3 8) ∧
    (settle s = s → V < nVcs s →
      (x.state ≠ 0 → refuses create 1 2) ∧ (x.state = 0 → cls = 0 → refuses create 1 3) ∧
      (x.state = 0 → cls ≠ 0 → a % 128 ≠ 0 ∨ dramInRange s cls.toNat a 128 = false → refuses create 1 7) ∧
      (x.state = 0 → cls ≠ 0 → a % 128 = 0 → dramInRange s cls.toNat a 128 = true → ∃ t, exec create s = .next t ∧ t.vct.result = 0 ∧
        vcOf t V = { state := 1, cls := cls, recAddr := s.vct.recReg, inForce := readRecord s a, rd := memNat s (a + 16) 4, wr := memNat s (a + 24) 4 } ∧
        told 0x0B01 (s.vct.idx.setWidth 32, cls.setWidth 32, 0) s t ∧ ∀ w, w ≠ V → vcOf t w = vcOf s w) ∧
      (x.state ≠ 1 → refuses .virtualControllerDelete 2 2 ∧ refuses bind_ 3 2) ∧
      (x.state = 1 → (vcNamespaces s V ≠ [] ∨ isHome s V = true) → refuses .virtualControllerDelete 2 5) ∧
      (x.state = 1 → vcNamespaces s V = [] → isHome s V = false → ∃ t, exec .virtualControllerDelete s = .next t ∧ t.vct.result = 0 ∧
        (vcOf t V).state = 2 ∧ ∀ k, (connOf s k).isOpen = true → (connOf s k).vc = some s.vct.idx → (connOf t k).isOpen = false) ∧
      (x.state = 1 → cls = 0 → refuses bind_ 3 3) ∧
      (x.state = 1 → cls ≠ 0 →
        let all := sharers s (s.media.nss.length + 1) [V]
        ((∃ k ∈ all, vcConns s k ≠ 0) → refuses bind_ 3 4) ∧
        ((∀ k ∈ all, vcConns s k = 0) → refillsFit s cls.toNat all = false → refuses bind_ 3 6) ∧
        ((∀ k ∈ all, vcConns s k = 0) → refillsFit s cls.toNat all = true → ∃ t, exec bind_ s = .next t ∧ t.vct.result = 0 ∧
          V ∈ all ∧ ∀ k, vcOf t k = if k ∈ all then { vcOf s k with pcls := cls } else vcOf s k))) ∧
    (∀ v : BitVec 12, let y := vcOf s v.toNat
      (y.state = 2 → vcConns s v.toNat = 0 → ∃ t, exec (.virtualControllerDeleted v) s = .next t ∧ vcOf t v.toNat = {} ∧ ctrlOf t v.toNat = {} ∧
        told 0x0B02 (v.setWidth 32, 0, 0) s t) ∧
      (y.state ≠ 2 ∨ vcConns s v.toNat ≠ 0 → exec (.virtualControllerDeleted v) s = .next s) ∧
      (y.state = 1 → bit y.inForce.flags 5 = true → portOpen s y.cls.toNat = true → ∃ t, exec (.dirtyAcknowledgment v) s = .next t ∧ t.vct = s.vct ∧
        memNat t (y.recAddr.toNat + 64) 4 = (if bit y.inForce.flags 6 then 1 else 0) ∧
        ∀ j, j < y.recAddr.toNat + 64 ∨ y.recAddr.toNat + 68 ≤ j → memByte t j = memByte s j) ∧
      (portOpen s y.cls.toNat = false → exec (.dirtyAcknowledgment v) s = .next s))

/-! ## DRAM controllers (R462–R488) -/

/-- R464 to R476, R481 to R488: the DRAM controllers. A refresh period clears the counting tables; a repair window is six rows; a retraining sets the
margin, and one with no window loses the stack; a control-port request is served in a control-port slot, or waits, and one of another size or
unaligned is not made (R32): a read leaves memory, a write of whole units lands, a narrow one merges; in a control-port slot a drained entry lands its valid bytes and a write-back
leaves the queue. The model's own choices that it rests on are in log entries 1, 5, 6 and 138. -/
def Obligations.DramControllers : Prop :=
  ∀ (n : BitVec 2) (s : State),
    let N := n.toNat
    let d := drcOf s N
    let base := 0x1000000000 + N * 0x600000000
    let frees := fun (t : State) => ∀ j, j ≠ N → drcOf t j = drcOf s j
    (d.state = 2 → mwf {} d.banks = true → ∃ t, exec (.refreshPeriodStart n) s = .next t ∧ (drcOf t N).row = 0 ∧
      (∀ k, (mget {} (drcOf t N).banks k).rows = [] ∧ (mget {} (drcOf t N).banks k).queue = (mget {} d.banks k).queue) ∧ frees t ∧ t.mem = s.mem) ∧
    (d.state ≠ 2 → exec (.refreshPeriodStart n) s = .next s) ∧
    (s.reel.run = false → d.state = 2 → ∀ w tmp : BitVec 8,
      (∃ t, exec (.selfTimedRepair n false w tmp) s = .next t ∧ (drcOf t N).row = (d.row + 6) % 12288 ∧ frees t ∧ t.mem = s.mem ∧
        (mwf {} d.banks = true → ∀ k, (mget {} (drcOf t N).banks k).queue = (mget {} d.banks k).queue.drop 1)) ∧
      (w ≠ 0 → ∃ t, exec (.selfTimedRepair n true w tmp) s = .next t ∧ (drcOf t N).margin = w ∧ (drcOf t N).temp = tmp ∧ (drcOf t N).state = 2 ∧
        (drcOf t N).trange = (if 105 < degC tmp then 2 else if 85 < degC tmp then 1 else 0) ∧ (w.toNat < 16 → bit (drcOf t N).irq 3 = true) ∧ t.mem = s.mem) ∧
      ∃ t, exec (.selfTimedRepair n true 0 tmp) s = .next t ∧ (drcOf t N).state = 3 ∧ t.fcr.grave = true ∧ t.mem = s.mem) ∧
    (s.reel.run = true → ∀ b w tmp, exec (.selfTimedRepair n b w tmp) s = .next s) ∧
    (∀ (code : BitVec 3) (who : BitVec 4) (off : BitVec 35), d.state = 2 → code.toNat ≤ 4 → d.queue = [] →
      (∀ len : BitVec 10, len.toNat ∈ [1, 2, 4, 8, 16, 32, 64] → off.toNat + len.toNat ≤ 24 * 2 ^ 30 → off.toNat % len.toNat = 0 →
        (s.reel.run = false → ∃ t, exec (.controlPortRequest n code who off len none .ok) s = .next t ∧ t.mem = s.mem ∧ (drcOf t N).queue = []) ∧
        (s.reel.run = true → controlSlot s N = none → ∃ t, exec (.controlPortRequest n code who off len none .ok) s = .next t ∧ t.mem = s.mem ∧
          (drcOf t N).queue = [{ code := code, who := who.toNat, addr := base + off.toNat, len := len.toNat, wr := none, ecc := 0 }])) ∧
      (∀ l : List (BitVec 8), l.length = 32 ∨ l.length = 64 → off.toNat % l.length = 0 → off.toNat + l.length ≤ 24 * 2 ^ 30 →
        s.reel.run = false → ∃ t, exec (.controlPortRequest n code who off 0 (some l) .ok) s = .next t ∧ (∀ j < l.length, memByte t (base + off.toNat + j) = l.getD j 0) ∧
          ∀ j, j < base + off.toNat ∨ base + off.toNat + l.length ≤ j → memByte t j = memByte s j) ∧
      (∀ v : BitVec 8, s.reel.run = false → d.merge = [] → off.toNat < 24 * 2 ^ 30 → ∃ t e, exec (.controlPortRequest n code who off 0 (some [v]) .ok) s = .next t ∧
        t.mem = s.mem ∧ (drcOf t N).merge = [e] ∧ e.unit = (base + off.toNat) / 32 ∧ e.mask = 1#32 <<< (off.toNat % 32) ∧ e.bytes.getD (off.toNat % 32) 0 = v ∧
        (drcOf t N).merged = satInc d.merged) ∧
      (∀ (len : BitVec 10) (data : Option (List (BitVec 8))), let k := match data with | some l => l.length | none => len.toNat
        k ∉ [1, 2, 4, 8, 16, 32, 64] ∨ off.toNat % k ≠ 0 → exec (.controlPortRequest n code who off len data .ok) s = .next s)) ∧
    (controlSlot s N = none → ∀ ecc, exec (.mergeDrain n ecc) s = .next s ∧ exec (.eccWriteBack n ecc) s = .next s) ∧
    (∀ e rest ecc, d.merge = e :: rest → e.bytes.length = 32 → controlSlot s N ≠ none → ∃ t, exec (.mergeDrain n ecc) s = .next t ∧ e ∉ (drcOf t N).merge ∧
      (∀ j, memByte t j = if j / 32 = e.unit ∧ bit e.mask (j % 32) then e.bytes.getD (j % 32) 0 else memByte s j)) ∧
    (∀ u rest, d.wback = u :: rest → controlSlot s N ≠ none → ∃ t, exec (.eccWriteBack n .ok) s = .next t ∧ (drcOf t N).wback = rest ∧ t.mem = s.mem)

/-! ## The management port, the image store, the span (R162–R201, R549–R555, R593–R612) -/

/-- R194, R208, R211 to R215, R311, R419, R423, R430, R549 to R555, R567, R574, R619, R622, R635, R636: Tilost. A session opens for an enrolled
host, or for any while the ring holds no hash; on a closed session nothing happens, the 17th unanswered request closes it; a request that may not
be served is answered 1 or 3; each request has its effect and its answer, and a type the device does not know is answered 5. The model's own
choices that it rests on are in log entries 66, 67, 70, 72, 73, 74, 75, 76, 77 and 78. -/
def Obligations.TilostRequests : Prop :=
  ∀ (sess : BitVec 2) (ident : BitVec 32) (s : State),
    let n := sess.toNat
    let x := sessOf s n
    let any := heard s sess .any
    let enr := heard s sess .enrolled
    let hold := heard s sess .enrolledHold
    let rows : List (Instr × BitVec 16 × Served) := [(.status sess ident, 0x0001, .any), (.eventRead sess ident 0 1, 0x0002, .any),
      (.eventRelease sess ident 0, 0x0003, .enrolled), (.subscribe sess ident 0, 0x0004, .any), (.imageLoadBegin sess ident 512, 0x0010, .enrolled),
      (.imageData sess ident 0 [], 0x0011, .enrolled), (.imageLoadEnd sess ident {}, 0x0012, .enrolled), (.activate sess ident, 0x0013, .enrolled),
      (.raiseFloor sess ident 0, 0x0014, .enrolled), (.spanSwitch sess ident 1 0, 0x0021, .enrolled),
      (.keyRingRecord sess ident (.addKey 1 0 0) 0 [] 0 0, 0x0030, .any), (.boardDescription sess ident [], 0x0031, .enrolledHold),
      (.spanConfigurationRecord sess ident {}, 0x0032, .enrolled), (.clearRecords sess ident, 0x0033, .enrolledHold),
      (.registerRead sess ident 0 1, 0x0040, .enrolled), (.internalCommand sess ident 0 [], 0x0050, .enrolled),
      (.deviceReset sess ident, 0x0060, .enrolled), (.discardFlush sess ident 0, 0x0061, .enrolledHold), (.unknownRequestType sess ident 0x00FF, 0x00FF, .any)]
    let settled : List (Instr × BitVec 16 × Served) := [(.modeRequest sess ident 1, 0x0020, .enrolled),
      (.registerWrite sess ident 0 [0], 0x0041, .enrolled), (.virtualControllerOperation sess ident 1 1 0 0 0, 0x0051, .enrolled),
      (.keyOperation sess ident 2 1 40 0 0 0 0, 0x0052, .enrolled)]
    let refuses := fun (i : Instr) (typ : BitVec 16) (p : State → Prop) => ∃ f, replies i sess typ ident 6 [f] s p
    (∀ cert, let known := s.store.hashes.contains cert
      ((∀ k < 4, (sessOf s k).isOpen = true) → ∃ t, exec (.tilostSessionOpen cert) s = .next t ∧ t.mgmt = s.mgmt ∧ told 0x0172 (0, 1, 0) s t) ∧
      (∀ k < 4, (sessOf s k).isOpen = false → (∀ j < k, (sessOf s j).isOpen = true) →
        (known = false → s.store.hashes ≠ [] → ∃ t, exec (.tilostSessionOpen cert) s = .next t ∧ t.mgmt = s.mgmt ∧ told 0x0172 (0, 2, 0) s t) ∧
        (known = true ∨ s.store.hashes = [] → ∃ t, exec (.tilostSessionOpen cert) s = .next t ∧ sessOf t k = { isOpen := true, enrolled := known } ∧
          told 0x0170 (BitVec.ofNat 32 k, if known then 1 else 0, 0) s t ∧ ∀ j, j ≠ k → sessOf t j = sessOf s j))) ∧
    (∀ w, (x.isOpen = true → ∃ t, exec (.tilostSessionClose sess w) s = .next t ∧ sessOf t n = {} ∧ t.mgmt.load ≠ some n ∧
        told 0x0171 (sess.setWidth 32, BitVec.ofNat 32 (closeReason w), 0) s t) ∧ (x.isOpen = false → exec (.tilostSessionClose sess w) s = .next s)) ∧
    (∀ i typ sv, (i, typ, sv) ∈ rows ∨ settle s = s ∧ (i, typ, sv) ∈ settled → (x.isOpen = false → exec i s = .next s) ∧
      (x.isOpen = true → 16 ≤ x.order.length → ∃ t, exec i s = .next t ∧ sessOf t n = {} ∧ told 0x0171 (sess.setWidth 32, 4, 0) s t) ∧
      (x.isOpen = true → x.order = [] → x.answers = [] → ∀ st, tilostBar n sv s = some st → replies i sess typ ident st [] s (fun t => t.store = s.store ∧ t.reel = s.reel))) ∧
    (any → replies (.status sess ident) sess 0x0001 ident 0 (statusWords s) s (fun t => t.reel = s.reel)) ∧
    (any → ∀ first count : BitVec 32,
      (count = 0 ∨ 1024 < count.toNat → replies (.eventRead sess ident first count) sess 0x0002 ident 2 [] s (fun t => t.evr = s.evr)) ∧
      (count ≠ 0 → count.toNat ≤ 1024 → replies (.eventRead sess ident first count) sess 0x0002 ident 0
        ((List.range count.toNat).flatMap (fun k => eventWords (evrSlot s (first.toNat + k)))) s (fun t => t.evr = s.evr))) ∧
    (enr → ∀ r : BitVec 32, ((s.evr.widx - r).toNat ≤ 65536 → replies (.eventRelease sess ident r) sess 0x0003 ident 0 [] s (fun t => t.evr.ridx = r)) ∧
      (65536 < (s.evr.widx - r).toNat → refuses (.eventRelease sess ident r) 0x0003 (fun t => t.evr.ridx = s.evr.ridx ∧ t.evr.badw = true))) ∧
    (any → ∀ m, replies (.subscribe sess ident m) sess 0x0004 ident 0 [] s (fun t => (sessOf t n).mask = m)) ∧
    (enr → settle s = s → ∀ m : BitVec 32, let v := modeVerdict s (m.setWidth 4)
      ((∀ q, s.reel.req = some q → q.tilost = none) → m = 0xF → replies (.modeRequest sess ident m) sess 0x0020 ident 0 [0] s
        (fun t => (∀ k, conditionHolds s k = false) → modeEnded s = false → ∀ q, s.reel.req = some q → q.device = false → t.reel.req = none)) ∧
      (11 < m.toNat → m ≠ 0xF → replies (.modeRequest sess ident m) sess 0x0020 ident 2 [] s (fun t => t.reel = s.reel)) ∧
      (m.toNat ≤ 11 → v ≠ 1 → replies (.modeRequest sess ident m) sess 0x0020 ident 6 [v.setWidth 32] s (fun t => t.reel.result = v ∧
        t.reel.req = s.reel.req.map (fun q => { q with latest := false }))) ∧
      (m.toNat ≤ 11 → v = 1 → ∃ t, exec (.modeRequest sess ident m) s = .next t ∧ t.reel.result = 1 ∧
        ∃ q, t.reel.req = some q ∧ q.mode = m.setWidth 4 ∧ q.device = false ∧ q.tilost = some (n, ident))) ∧
    (enr → ∀ (a : BitVec 64) (c : BitVec 32) (v : BitVec 32),
      (c = 0 ∨ 64 < c.toNat → replies (.registerRead sess ident a c) sess 0x0040 ident 2 [] s (fun t => t.reel = s.reel)) ∧
      (c ≠ 0 → c.toNat ≤ 64 → a.toNat % 4 ≠ 0 → refuses (.registerRead sess ident a c) 0x0040 (fun t => t.reel = s.reel)) ∧
      (mget none s.latch 0x10000000C = none → replies (.registerRead sess ident 0x10000000C 1) sess 0x0040 ident 0 [s.sys.rstc.setWidth 32] s (fun t => t.sys = s.sys)) ∧
      (settle s = s → a.toNat % 4 ≠ 0 → refuses (.registerWrite sess ident a [v]) 0x0041 (fun t => t.sys = s.sys)) ∧
      (settle s = s → replies (.registerWrite sess ident 0x100000010 [v]) sess 0x0041 ident 0 [] s (fun t => t.sys.lockv = s.sys.lockv &&& ~~~ (v.setWidth 16)))) ∧
    (enr → ∀ (q : BitVec 512) (buf : List (BitVec 8)),
      (1048512 < buf.length → replies (.internalCommand sess ident q buf) sess 0x0050 ident 2 [] s (fun t => t.tasks = s.tasks)) ∧
      (buf.length ≤ 1048512 → (taskOf s 63).state = 1 → replies (.internalCommand sess ident q buf) sess 0x0050 ident 4 [] s (fun t => t.tasks = s.tasks)) ∧
      (buf.length ≤ 1048512 → (taskOf s 63).state ≠ 1 → setCmd s 63 = none → inHold s = true ∨ sqeOp q ∈ taskOps →
        ∃ t c, exec (.internalCommand sess ident q buf) s = .next t ∧ t.tables.cmds = s.tables.cmds ++ [c] ∧ c.sqe = q ∧ c.internal = true ∧
          (taskOf t 63).state = 1 ∧ t.mgmt.reply = some (n, ident, buf.length) ∧
          (inDram s (taskOf s 63).buf.toNat (max buf.length 1) = true → ∀ j < buf.length, memByte t ((taskOf s 63).buf.toNat + j) = buf.getD j 0))) ∧
    (enr → settle s = s → ∀ op cls index rcd nqn, ∃ r : BitVec 4, replies (.virtualControllerOperation sess ident op cls index rcd nqn) sess 0x0051 ident (if r = 0 then 0 else 6)
      [r.setWidth 32] s (fun t => t.vct.result = r ∧ t.vct.idx = index ∧ (op ∉ [1, 2, 3] → r = 9) ∧ (op ∈ [1, 2, 3] → nVcs s ≤ index.toNat → r = 8))) ∧
    (enr → settle s = s → ∀ use limit slot vc dst w, replies (.keyOperation sess ident 1 use limit slot vc dst w) sess 0x0052 ident 2 [] s (fun t => t.ciph = s.ciph) ∧
      ∀ op, op ≠ 1 → ∃ (r : BitVec 4) (l : List (BitVec 32)), replies (.keyOperation sess ident op use limit slot vc dst w) sess 0x0052 ident (if r = 0 then 0 else 6)
        (r.setWidth 32 :: l) s (fun t => t.ciph.result = r ∧ t.ciph.ksel = slot ∧ l.length = (if op = 6 ∧ r = 0 then 10 else 0) ∧
          (op = 0 ∨ 7 < op.toNat → r = 9) ∧ (op ≠ 0 → op.toNat ≤ 7 → nKeys s ≤ slot.toNat → r = 8))) ∧
    (enr → ∃ u t, exec (.deviceReset sess ident) s = .next t ∧ exec .softwareReset u = .next t ∧ u = { s with mgmt := u.mgmt } ∧
      { session := n, typ := 0x0060, flags := 1, ident := ident, status := 0, payload := [] } ∈ u.mgmt.out.drop s.mgmt.out.length) ∧
    (hold → ∀ seq, ((flushesInForce s).find? (fun f => f.seq = seq) = none → refuses (.discardFlush sess ident seq) 0x0061 (fun t => t.media = s.media)) ∧
      ((flushesInForce s).find? (fun f => f.seq = seq) ≠ none → replies (.discardFlush sess ident seq) sess 0x0061 ident 0 [] s (fun t => t.media.rows = [] ∧
        t.media.staged = 0))) ∧
    (hold → replies (.clearRecords sess ident) sess 0x0033 ident 0 [] s (fun t => t.store.graveRecs = 0 ∧ t.store.thermRecs = 0 ∧
      ∀ j < 131072, bacByte t.bac (bank3 6 0 + j) = 0xFF)) ∧
    (hold → ∀ ws, replies (.boardDescription sess ident ws) sess 0x0031 ident 0 [] s (fun t => t.store = { s.store with board := ws })) ∧
    (any → ∀ typ, typ ∉ tilostTypes → replies (.unknownRequestType sess ident typ) sess typ ident 5 [] s (fun t => t.store = s.store))

/-- R162 to R170, R178 to R200, R320, R552: the image store. A load opens the receive area, takes the bytes into DRAM, is checked (form, key,
signature, floor) and goes to the checker, whose verdict stages the image in the bank that is not active, if it reads back, or ends the load with its
reason; an activation is refused with the first reason that applies, accepted on a fresh verdict, or checked again; the floor only rises, and the
older copy of the boot record is replaced; a ring record that its key verifies takes effect where R194 allows it. The model's own choices that it
rests on are in log entries 59, 64, 65, 66, 67, 68, 70, 71, 141 and 142. -/
def Obligations.ImageStore : Prop :=
  ∀ (sess : BitVec 2) (ident : BitVec 32) (s : State),
    let n := sess.toNat
    let enr := heard s sess .enrolled
    let ans := fun (i : Instr) (typ st : BitVec 16) (pay : List (BitVec 32)) (p : State → Prop) => replies i sess typ ident st pay s p
    (enr → ∀ len : BitVec 64,
      ((∃ k, s.mgmt.load = some k ∧ k ≠ n) ∨ s.store.loading ≠ none → ans (.imageLoadBegin sess ident len) 0x0010 4 [] (fun t => t.mgmt.load = s.mgmt.load)) ∧
      ((s.mgmt.load = none ∨ s.mgmt.load = some n) → s.store.loading = none → ans (.imageLoadBegin sess ident len) 0x0010 0 [] (fun t =>
        t.mgmt.load = some n ∧ t.mgmt.loadLen = len.toNat ∧ ∀ j, areaByte t j = 0))) ∧
    (enr → ∀ (off : BitVec 64) (bytes : List (BitVec 8)),
      (s.mgmt.load ≠ some n → ans (.imageData sess ident off bytes) 0x0011 (if s.mgmt.load.isSome then 4 else 2) [] (fun t => t.mgmt.got = s.mgmt.got ∧ t.mem = s.mem)) ∧
      (s.mgmt.load = some n → 1048568 < bytes.length ∨ s.mgmt.loadLen < off.toNat + bytes.length →
        ans (.imageData sess ident off bytes) 0x0011 2 [] (fun t => t.mgmt.got = s.mgmt.got ∧ t.mem = s.mem)) ∧
      (s.mgmt.load = some n → bytes.length ≤ 1048568 → off.toNat + bytes.length ≤ s.mgmt.loadLen → 2 ^ 24 < off.toNat + bytes.length →
        ans (.imageData sess ident off bytes) 0x0011 0 [] (fun t => t.mgmt.got = s.mgmt.got ∧ t.mem = s.mem)) ∧
      (s.mgmt.load = some n → bytes.length ≤ 1048568 → off.toNat + bytes.length ≤ s.mgmt.loadLen → off.toNat + bytes.length ≤ 2 ^ 24 →
        ((drcOf s 0).merge.map (·.unit)).Nodup → mwf {} s.drcs = true → (∀ u, areaBase / 32 ≤ u → u < areaBase / 32 + 2 ^ 19 → mget false s.poison u = false) → ans (.imageData sess ident off bytes) 0x0011 0 [] (fun t =>
        (∀ j < bytes.length, areaByte t (off.toNat + j) = bytes.getD j 0) ∧ ∀ j, j < off.toNat ∨ off.toNat + bytes.length ≤ j → areaByte t j = areaByte s j))) ∧
    (enr → ∀ x : ImageRest,
      let im := readImage (areaByte s) x
      let r := stepTwo (areaByte s) s.mgmt.loadLen s
      (s.store.loading ≠ none → ans (.imageLoadEnd sess ident x) 0x0012 4 [] (fun t => t.store = s.store)) ∧
      (s.store.loading = none → s.mgmt.load = some n →
        (r ≠ 0 → ans (.imageLoadEnd sess ident x) 0x0012 6 [r.setWidth 32] (fun t => t.store.reason = r ∧ t.mgmt.load = none ∧ told 0x0608 (r.setWidth 32, 0, 0) s t)) ∧
        (r = 0 → ∃ t, exec (.imageLoadEnd sess ident x) s = .next t ∧ t.store.loading = some im ∧ t.store.purpose = 0 ∧
          t.store.loadFrom = some (n, ident) ∧ t.store.loadBank = BitVec.ofNat 2 (otherBank s) ∧ t.mgmt.out = s.mgmt.out))) ∧
    (enr →
      let r := activateBar s
      let b := s.store.staged.getD 0
      (s.store.loading ≠ none ∨ s.store.act ≠ .none → ans (.activate sess ident) 0x0013 4 [] (fun t => t.store = s.store)) ∧
      (s.store.loading = none → s.store.act = .none →
        (r ≠ 0 → ans (.activate sess ident) 0x0013 6 [r.setWidth 32] (fun t => t.store.act = .none ∧ t.store.reason = r)) ∧
        (r = 0 → s.store.verdict = some (0, s.store.inv) → s.tables.cmds = [] → (∀ e ∈ s.tasks, e.2.state ≠ 1) → ans (.activate sess ident) 0x0013 0 [0] (fun t =>
          t.store.act = .accepted ∧ t.store.actBank = b ∧ t.xpt.takes = false)) ∧
        (r = 0 → s.store.verdict ≠ some (0, s.store.inv) → ∃ t, exec (.activate sess ident) s = .next t ∧ t.store.loading = bankImage s b.toNat ∧ t.store.purpose = 1 ∧
          t.store.act = .none))) ∧
    (enr → ∀ v : BitVec 16,
      (s.store.running = none → ∃ f, ans (.raiseFloor sess ident v) 0x0014 6 [f] (fun t => t.store = s.store)) ∧
      (∀ im, s.store.running = some im →
        (im.secver.toNat < v.toNat → ∃ f, ans (.raiseFloor sess ident v) 0x0014 6 [f] (fun t => t.store = s.store)) ∧
        (v.toNat ≤ im.secver.toNat → ans (.raiseFloor sess ident v) 0x0014 0 [] (fun t => t.store.floor.toNat = max s.store.floor.toNat v.toNat ∧
          let k := olderSector s.bac 0
          let copy := copyBytes (((copyInForce s.bac 0).map (·.1)).getD 0 + 1) (selectPay t.store)
          (∀ j < copy.length, copyByte t.bac k j = copy.getD j 0) ∧ ∀ j < 65536, copyByte t.bac (1 - k) j = copyByte s.bac (1 - k) j)))) ∧
    (heard s sess .any → ∀ (signer : BitVec 3) (signed : List (BitVec 8)) (r sg : BitVec 384),
      let record := fun op => Instr.keyRingRecord sess ident op signer signed r sg
      let good := ecdsaVerify (ringKey s signer.toNat) (sha384 signed) r.toNat sg.toNat
      (ringHolds s signer.toNat = false → ∀ op, ans (record op) 0x0030 6 [3] (fun t => t.store = s.store)) ∧
      (ringHolds s signer.toNat = true → good = false → ∀ op, ans (record op) 0x0030 6 [2] (fun t => t.store = s.store)) ∧
      (ringHolds s signer.toNat = true → good = true →
        (∀ (slot : BitVec 3) (x y : BitVec 384),
          ((slot = 0 ∨ 4 < slot.toNat ∨ slot = signer) → ans (record (.addKey slot x y)) 0x0030 6 [3] (fun t => t.store = s.store) ∧
            ans (record (.revokeKey slot)) 0x0030 6 [3] (fun t => t.store = s.store)) ∧
          (slot ≠ 0 → slot.toNat ≤ 4 → slot ≠ signer →
            ans (record (.revokeKey slot)) 0x0030 0 [] (fun t => (mget {} t.store.ring slot.toNat).revoked = true ∧ ringHolds t slot.toNat = false) ∧
            (signer = 0 ∨ (mget {} s.store.ring slot.toNat).revoked = false →
              ans (record (.addKey slot x y)) 0x0030 0 [] (fun t => ringHolds t slot.toNat = true ∧ ringKey t slot.toNat = (x.toNat, y.toNat) ∧
                ∀ k, k ≠ slot.toNat → ringKey t k = ringKey s k)) ∧
            (signer ≠ 0 → (mget {} s.store.ring slot.toNat).revoked = true → ans (record (.addKey slot x y)) 0x0030 6 [3] (fun t => t.store = s.store)))) ∧
        ∀ h : BitVec 384,
          (h ∉ s.store.hashes → s.store.hashes.length < 8 → ans (record (.addHash h)) 0x0030 0 [] (fun t => t.store = { s.store with hashes := s.store.hashes ++ [h] })) ∧
          (h ∉ s.store.hashes → 8 ≤ s.store.hashes.length → ans (record (.addHash h)) 0x0030 6 [3] (fun t => t.store = s.store)) ∧
          ans (record (.removeHash h)) 0x0030 0 [] (fun t => t.store = { s.store with hashes := s.store.hashes.erase h }))) ∧
    (∀ stored : Bool,
      (s.store.loading = none → exec (.checkerVerdict stored) s = .next s) ∧
      (∀ im, s.store.loading = some im → ∃ t, exec (.checkerVerdict stored) s = .next t ∧
        let f := checkVerdict s im
        let v := verdictCode f
        let b := s.store.loadBank.toNat
        let r := activateBar s
        let len := s.mgmt.loadLen
        let back := readsBack (programBank b im len ((List.range len).map (areaByte s)) (eraseBank b s)) b len
        (s.tables.cmds = [] → (∀ e ∈ s.tasks, e.2.state ≠ 1) →
          t.store.loading = none ∧
          (f = none → told 0x0605 (0x3F00, 0, 0xFFFFFFFF) s t) ∧
          (∀ x, f = some x → told 0x0605 (BitVec.ofNat 32 (x.what * 4096 + x.deck * 256 + x.verdict), BitVec.ofNat 32 x.at_,
            BitVec.ofNat 32 (x.res * 65536 + x.second)) s t) ∧
          (v ≠ 0 → s.store.purpose = 0 ∨ s.store.purpose = 1 ∧ r = 0 → t.store.reason = 5 ∧ t.store.act = s.store.act ∧ t.store.staged = s.store.staged) ∧
          (v = 0 → s.store.purpose = 0 → b = 1 ∨ b = 2 →
            (stored = true → back = true → t.store.staged = some s.store.loadBank ∧ bankImage t b = some im ∧ t.store.verdict = some (0, t.store.inv)) ∧
            (stored = false ∨ back = false → bankImage t b = none ∧ t.store.reason = 6)) ∧
          (s.store.purpose = 1 → r ≠ 0 → t.store.reason = r ∧ t.store.act = s.store.act ∧ t.store.staged = s.store.staged) ∧
          (v = 0 → s.store.purpose = 1 → r = 0 → t.store.act = .accepted ∧ t.store.actBank = s.store.loadBank) ∧
          (2 ≤ s.store.purpose → (v = 0 → t.store.act = .accepted ∧ t.store.boot = true) ∧ (v ≠ 0 → t.reel.deck = 0 ∧ t.sys.stage = 9)))))

/-- R593 to R608: the span. A heartbeat is sent every 16th commit with the agreement then evaluated; a collision, FENCE or four failures fence at
the next commit; UNFENCE needs the quorum, the own checks and the directory; 16 Syncs within 500 ns lock and 4 beyond 1,000 ns unlock; the driver
pulses, four pulses out of place raise SYNCF; a change is acknowledged, voted and committed by a majority, or abandoned. The model's own choices
that it rests on are in log entries 113, 114, 115, 116 and 117. -/
def Obligations.SpanMember : Prop :=
  ∀ (sess : BitVec 2) (ident : BitVec 32) (s : State),
    let p := s.span
    let enr := heard s sess .enrolled
    let inn := inSpan s = true
    (enr → ∀ (m : BitVec 32) (T : BitVec 64),
      (12 ≤ m.toNat → replies (.spanSwitch sess ident m T) sess 0x0021 ident 2 [] s (fun t => t.span = s.span)) ∧
      (m.toNat < 12 → replies (.spanSwitch sess ident m T) sess 0x0021 ident 0 [] s (fun t => t.span = { p with switches := p.switches ++ [(m.setWidth 4, T)] }))) ∧
    (enr → ∀ r : SpanRec,
      (r.spanId = 0 ∨ r.count < 1 ∨ 16 < r.count → replies (.spanConfigurationRecord sess ident r) sess 0x0032 ident 2 [] s (fun t => t.span = s.span)) ∧
      (r.spanId ≠ 0 → 1 ≤ r.count → r.count ≤ 16 →
        (p.inForce ≠ none → r.epoch ≤ p.epoch → ∃ f, replies (.spanConfigurationRecord sess ident r) sess 0x0032 ident 6 [f] s (fun t => t.span = s.span ∧
          told 0x0C08 (r.epoch, p.epoch, 0) s t)) ∧
        (p.inForce = none ∨ p.epoch < r.epoch → replies (.spanConfigurationRecord sess ident r) sess 0x0032 ident 0 [] s (fun t => t.span = { p with nextRec := some r })))) ∧
    (p.switches = [] → exec .spanSwitchTime s = .next s) ∧
    (∀ x, p.switches = [x] → p.state = 2 → p.ownOk = true →
      let v := modeVerdict s x.1
      (v = 1 → ∃ t q, exec .spanSwitchTime s = .next t ∧ t.span.switches = [] ∧ t.reel.req = some q ∧ q.mode = x.1 ∧ q.device = false) ∧
      (v ≠ 1 → ∃ t, exec .spanSwitchTime s = .next t ∧ t.span.switches = [] ∧ t.reel.req = s.reel.req ∧ told 0x0C06 (x.1.setWidth 32, v.setWidth 32, 0) s t)) ∧
    (∀ x, p.switches = [x] → p.state ≠ 2 ∨ p.ownOk = false → exec .spanSwitchTime s = .next { s with span := { p with switches := [] } }) ∧
    (∀ late, (inn → s.reel.hanks.toNat % 16 = 0 → p.beatHank ≠ some s.reel.hanks → ∃ t b, exec (.heartbeat late) s = .next t ∧ t.span.sent = some b ∧
        b.spanId = p.cfgId ∧ b.member = p.member ∧ b.dirv = p.dirv ∧ b.fenced = fenced s ∧ b.lock = p.lock ∧ t.span.beatHank = some s.reel.hanks ∧
        (t.span.qOk = true ↔ quorum t (agreeSet t) = true) ∧ (p.state = 2 → 3 ≤ p.badQ → t.span.qOk = false → t.span.pend = 1)) ∧
      (inSpan s = false ∨ s.reel.hanks.toNat % 16 ≠ 0 → exec (.heartbeat late) s = .next s)) ∧
    (∀ b : Beat, (inSpan s = false → ∀ k, exec (.heartbeatReceive b k) s = .next s) ∧
      (inn → b.member = p.member ∨ b.spanId = p.cfgId → p.state ≠ 3 → ∃ t, exec (.heartbeatReceive b false) s = .next t ∧ t.span.pend = 1 ∧ bit t.span.pendCause 0 = true ∧
        t.span.peers = p.peers) ∧
      (inn → b.member ≠ p.member → p.acked = none → ∃ t, exec (.heartbeatReceive b true) s = .next t ∧ t.span.msgWait = p.msgWait + 1 ∧
        mget {} t.span.peers b.member.toNat = { b with fresh := true } ∧ t.span.pend = p.pend ∧ t.span.dir = p.dir)) ∧
    (inn → p.state ≠ 3 → ∃ t, exec .spanFence s = .next t ∧ t.span = { p with pend := 1, pendCause := p.pendCause ||| 1 }) ∧
    (inSpan s = false ∨ p.state = 3 → exec .spanFence s = .next s) ∧
    (p.state ≠ 3 → exec .unfence s = .next s) ∧
    (p.state = 3 →
      (p.qOk = false → ∃ t, exec .unfence s = .next t ∧ t.span = { p with badu := true } ∧ told 0x0C03 (1, 0, 0) s t) ∧
      (p.qOk = true → p.ownOk = false → ∃ t, exec .unfence s = .next t ∧ t.span = { p with badu := true } ∧ told 0x0C03 (2, 0, 0) s t) ∧
      (p.qOk = true → p.ownOk = true → p.dirv ≠ topVersion s → ∃ t, exec .unfence s = .next t ∧ t.span = { p with badu := true } ∧ told 0x0C03 (3, 0, 0) s t) ∧
      (p.qOk = true → p.ownOk = true → p.dirv = topVersion s → ∃ t, exec .unfence s = .next t ∧ t.span = { p with pend := 2 } ∧ told 0x0C03 (0, 0, 0) s t)) ∧
    (∀ (ofs : BitVec 32) (base : BitVec 64), let a := ofs.toInt.natAbs
      ∃ t, exec (.syncMessage ofs base) s = .next t ∧ t.span.ofs = ofs ∧ t.span.base = base ∧ t.mem = s.mem ∧
        (a ≤ 500 → p.lock = false → 15 ≤ p.inSync → t.span.lock = true ∧ t.span.chLock = true) ∧
        (p.lock = false → 500 < a ∨ p.inSync < 15 → t.span.lock = false) ∧
        (1000 < a → p.lock = true → 3 ≤ p.outSync → t.span.lock = false ∧ t.span.chLock = true) ∧
        (p.lock = true → a ≤ 1000 ∨ p.outSync < 3 → t.span.lock = true)) ∧
    (∃ t, exec .syncTimeout s = .next t ∧ t.span.lock = false ∧ (p.lock = true → (groupOf t 27).total = satInc (groupOf s 27).total)) ∧
    (syncDriver s = true → p.lock = true → fenced s = false → exec .syncPulseDrive s = .next { s with span := { p with driven := p.driven + 1 } }) ∧
    (syncDriver s = false ∨ p.lock = false ∨ fenced s = true → exec .syncPulseDrive s = .next s) ∧
    (∀ err ns : BitVec 32, inn → syncDriver s = false → 20 ≤ ns.toNat → ∃ t, exec (.syncPulse err ns) s = .next t ∧
      (err.toInt.natAbs ≤ 2000 → t.span.badPulse = 0 ∧ t.span.syncf = false ∧ t.evr = s.evr) ∧
      (2000 < err.toInt.natAbs → t.span.badPulse = p.badPulse + 1 ∧ (3 ≤ p.badPulse → t.span.syncf = true) ∧ (p.badPulse < 3 → t.span.syncf = p.syncf) ∧
        (p.pulseTold = false → told 0x0C05 (err, 0, 0) s t))) ∧
    (∀ nsid (ent : DirEnt), inn → ∃ t, exec (.directoryProposal nsid ent) s = .next t ∧ t.span.msgWait = p.msgWait + 1 ∧ t.span.dir = p.dir ∧
      (fenced s = true ∨ ent.ver ≤ p.dirv → t.span.acks = p.acks) ∧
      (fenced s = false → p.dirv < ent.ver → p.prop = none → p.acked = none → t.span.acks = p.acks + 1 ∧ t.span.acked = some (nsid, ent))) ∧
    (∀ (m : BitVec 4) q, p.prop = some q → fenced s = false → m.toNat ∉ q.votes → m ≠ p.member → m.toNat ≤ p.count.toNat →
      (2 * (q.votes.length + 1) ≤ p.count.toNat + 1 → ∃ t, exec (.directoryAcknowledge m) s = .next t ∧ t.span.prop = some { q with votes := q.votes ++ [m.toNat] } ∧
        t.span.dir = p.dir) ∧
      (p.count.toNat + 1 < 2 * (q.votes.length + 1) → q.create = none → q.ent.state ≠ 0 → ∃ t, exec (.directoryAcknowledge m) s = .next t ∧ t.span.prop = none ∧
        t.span.dirv = p.dirv + 1 ∧ mget {} t.span.dir q.nsid.toNat = { q.ent with ver := p.dirv + 1 } ∧ t.span.chDir = true)) ∧
    (p.prop = none → exec .directoryTimeout s = .next { s with span := { p with acked := none } }) ∧
    (∀ q, p.prop = some q → ∃ t, exec .directoryTimeout s = .next t ∧ t.span.prop = none ∧ t.span.dir = p.dir ∧
      ∀ k c, q.set_ = some k → setCmd s k = some c → ∃ d, setCmd t k = some d ∧ d.phase = .ended ∧ d.status = status 7 0x82)
end

