-- ==== Sys2Proof/Laws/Map.lean ====
section
/-! SUPPORT. The laws of the sparse maps: what a read after a write gives, what a write leaves alone, and that every operation keeps
the canonical form. The read laws hold of any list; only the form laws ask for the form. -/

namespace Sys2Proof.Machine

variable {α : Type}

@[simp] theorem mget_nil (d : α) (k : Nat) : mget d [] k = d := rfl

@[simp] theorem mget_mdel_same (d : α) (k : Nat) (m : SMap α) : mget d (mdel k m) k = d := by
  induction m with
  | nil => rfl
  | cons e m ih => obtain ⟨j, v⟩ := e; by_cases h : j = k <;> simp [mdel, mget, h, ih]

theorem mget_mdel_other (d : α) {k j : Nat} (h : j ≠ k) (m : SMap α) : mget d (mdel k m) j = mget d m j := by
  induction m with
  | nil => rfl
  | cons e m ih =>
    obtain ⟨i, v⟩ := e
    by_cases hi : i = k
    · subst hi; simp [mdel, mget, ih, Ne.symm h]
    · by_cases hj : i = j
      · subst hj; simp [mdel, mget, hi]
      · simp [mdel, mget, hi, hj, ih]

/-- No entry of the list has the key. -/
def mfresh (k : Nat) (m : SMap α) : Prop := ∀ e ∈ m, e.1 ≠ k

theorem mfresh_mdel (k : Nat) (m : SMap α) : mfresh k (mdel k m) := by
  induction m with
  | nil => simp [mfresh, mdel]
  | cons e m ih =>
    obtain ⟨i, v⟩ := e
    by_cases hi : i = k
    · simpa [mdel, hi] using ih
    · simp only [mdel, hi, if_false, mfresh, List.mem_cons, forall_eq_or_imp]
      exact ⟨hi, ih⟩

theorem mget_mins_same (d v : α) (k : Nat) (m : SMap α) (h : mfresh k m) : mget d (mins k v m) k = v := by
  induction m with
  | nil => simp [mins, mget]
  | cons e m ih =>
    obtain ⟨i, w⟩ := e
    have hi : i ≠ k := h (i, w) (by simp)
    have hm : mfresh k m := fun e he => h e (by simp [he])
    by_cases hk : k < i <;> simp [mins, mget, hk, hi, ih hm]

theorem mget_mins_other (d v : α) {k j : Nat} (hj : j ≠ k) (m : SMap α) : mget d (mins k v m) j = mget d m j := by
  induction m with
  | nil => simp [mins, mget, Ne.symm hj]
  | cons e m ih =>
    obtain ⟨i, w⟩ := e
    by_cases hk : k < i
    · simp [mins, mget, hk, Ne.symm hj]
    · by_cases hi : i = j
      · subst hi; simp [mins, mget, hk]
      · simp [mins, mget, hk, hi, ih]

theorem mdel_fresh (k : Nat) (m : SMap α) (h : mfresh k m) : mdel k m = m := by
  induction m with
  | nil => rfl
  | cons e m ih =>
    obtain ⟨i, w⟩ := e
    have hi : i ≠ k := h (i, w) (by simp)
    have hm : mfresh k m := fun e he => h e (by simp [he])
    simp [mdel, hi, ih hm]

@[simp] theorem mdel_mdel (k : Nat) (m : SMap α) : mdel k (mdel k m) = mdel k m := mdel_fresh k _ (mfresh_mdel k m)

theorem mdel_mins (k : Nat) (v : α) (m : SMap α) (h : mfresh k m) : mdel k (mins k v m) = m := by
  induction m with
  | nil => simp [mins, mdel]
  | cons e m ih =>
    obtain ⟨i, w⟩ := e
    have hi : i ≠ k := h (i, w) (by simp)
    have hm : mfresh k m := fun e he => h e (by simp [he])
    by_cases hk : k < i
    · simp [mins, mdel, hk, hi, mdel_fresh k m hm]
    · simp [mins, mdel, hk, hi, ih hm]


section writes
variable [DecidableEq α]

/-- A read after a write to the same key gives the value written. -/
@[simp] theorem mget_mset_same (d v : α) (k : Nat) (m : SMap α) : mget d (mset d k v m) k = v := by
  by_cases h : v = d
  · simp [mset, h]
  · simp [mset, h, mget_mins_same d v k _ (mfresh_mdel k m)]

/-- A write leaves every other key alone. -/
theorem mget_mset_other (d v : α) {k j : Nat} (h : j ≠ k) (m : SMap α) : mget d (mset d k v m) j = mget d m j := by
  by_cases hv : v = d
  · simp [mset, hv, mget_mdel_other d h]
  · simp [mset, hv, mget_mins_other d v h, mget_mdel_other d h]

/-- A second write to a key replaces the first. -/
@[simp] theorem mset_mset (d v w : α) (k : Nat) (m : SMap α) : mset d k v (mset d k w m) = mset d k v m := by
  have hd : mdel k (mset d k w m) = mdel k m := by
    by_cases hw : w = d
    · simp [mset, hw]
    · simp [mset, hw, mdel_mins k w _ (mfresh_mdel k m)]
  by_cases hv : v = d
  · subst hv
    rw [mset, if_pos rfl, hd, mset, if_pos rfl]
  · rw [mset, if_neg hv, hd, mset, if_neg hv]

@[simp] theorem mget_mmod_same (d : α) (k : Nat) (f : α → α) (m : SMap α) : mget d (mmod d k f m) k = f (mget d m k) := by
  simp [mmod]

theorem mget_mmod_other (d : α) {k j : Nat} (h : j ≠ k) (f : α → α) (m : SMap α) : mget d (mmod d k f m) j = mget d m j := by
  simp [mmod, mget_mset_other d _ h]

/-- Two changes of one key are one. -/
@[simp] theorem mmod_mmod (d : α) (k : Nat) (f g : α → α) (m : SMap α) :
    mmod d k f (mmod d k g m) = mmod d k (fun x => f (g x)) m := by
  simp [mmod]

end writes

/-! ## The canonical form -/

/-- Every key of a list is above a bound, and the list is in rising order. -/
def mabove (b : Option Nat) : SMap α → Prop
  | [] => True
  | (k, _) :: rest => (∀ n, b = some n → n < k) ∧ mabove (some k) rest

theorem mrising_iff (m : SMap α) : mrising m = true ↔ mabove none m := by
  induction m with
  | nil => simp [mrising, mabove]
  | cons e m ih =>
    obtain ⟨k, v⟩ := e
    cases m with
    | nil => simp [mrising, mabove]
    | cons f m =>
      obtain ⟨j, w⟩ := f
      simp only [mrising, Bool.and_eq_true, decide_eq_true_eq, ih, mabove]
      constructor
      · rintro ⟨h, h2⟩; exact ⟨by simp, by simpa using h, h2.2⟩
      · rintro ⟨-, h, h2⟩; exact ⟨by simpa using h, by simp, h2⟩

theorem mabove_weaken {b c : Option Nat} (m : SMap α) (h : mabove b m) (hc : ∀ n, c = some n → ∃ k, b = some k ∧ n ≤ k) :
    mabove c m := by
  cases m with
  | nil => trivial
  | cons e m =>
    obtain ⟨k, v⟩ := e
    refine ⟨fun n hn => ?_, h.2⟩
    obtain ⟨j, hj, hle⟩ := hc n hn
    exact lt_of_le_of_lt hle (h.1 j hj)

theorem mabove_mdel (b : Option Nat) (k : Nat) (m : SMap α) (h : mabove b m) : mabove b (mdel k m) := by
  induction m generalizing b with
  | nil => trivial
  | cons e m ih =>
    obtain ⟨j, v⟩ := e
    by_cases hj : j = k
    · simp only [mdel, hj, if_true]
      refine ih b (mabove_weaken m h.2 ?_)
      intro n hn; exact ⟨j, rfl, le_of_lt (h.1 n hn)⟩
    · simp only [mdel, hj, if_false]
      exact ⟨h.1, ih _ h.2⟩

theorem mabove_mins (b : Option Nat) (k : Nat) (v : α) (m : SMap α) (hf : mfresh k m) (hb : ∀ n, b = some n → n < k)
    (h : mabove b m) : mabove b (mins k v m) := by
  induction m generalizing b with
  | nil => exact ⟨hb, trivial⟩
  | cons e m ih =>
    obtain ⟨j, w⟩ := e
    by_cases hk : k < j
    · simp only [mins, hk, if_true]
      exact ⟨hb, fun n hn => by cases hn; exact hk, h.2⟩
    · simp only [mins, hk, if_false]
      have hj : j ≠ k := hf (j, w) (by simp)
      refine ⟨h.1, ih _ (fun e he => hf e (by simp [he])) (fun n hn => by cases hn; omega) h.2⟩

theorem mem_mdel {k : Nat} {m : SMap α} {e : Nat × α} (h : e ∈ mdel k m) : e ∈ m := by
  induction m with
  | nil => simp [mdel] at h
  | cons f m ih =>
    obtain ⟨j, v⟩ := f
    by_cases hj : j = k
    · simp only [mdel, hj, if_true] at h; exact List.mem_cons_of_mem _ (ih h)
    · simp only [mdel, hj, if_false, List.mem_cons] at h
      rcases h with h | h
      · simp [h]
      · exact List.mem_cons_of_mem _ (ih h)

theorem mem_mins {k : Nat} {v : α} {m : SMap α} {e : Nat × α} (h : e ∈ mins k v m) : e = (k, v) ∨ e ∈ m := by
  induction m with
  | nil => simpa [mins] using h
  | cons f m ih =>
    obtain ⟨j, w⟩ := f
    by_cases hk : k < j
    · simpa [mins, hk] using h
    · simp only [mins, hk, if_false, List.mem_cons] at h
      rcases h with h | h
      · simp [h]
      · rcases ih h with h | h <;> simp [h]

variable [DecidableEq α]

theorem mwf_iff (d : α) (m : SMap α) : mwf d m = true ↔ mabove none m ∧ ∀ e ∈ m, e.2 ≠ d := by
  simp [mwf, mrising_iff, List.all_eq_true]

/-- A write keeps the canonical form. -/
theorem mwf_mset (d v : α) (k : Nat) (m : SMap α) (h : mwf d m = true) : mwf d (mset d k v m) = true := by
  rw [mwf_iff] at *
  by_cases hv : v = d
  · simp only [mset, hv, if_true]
    exact ⟨mabove_mdel _ k m h.1, fun e he => h.2 e (mem_mdel he)⟩
  · simp only [mset, hv, if_false]
    refine ⟨mabove_mins _ k v _ (mfresh_mdel k m) (by simp) (mabove_mdel _ k m h.1), ?_⟩
    intro e he
    rcases mem_mins he with rfl | he
    · exact hv
    · exact h.2 e (mem_mdel he)

/-- A change of one key keeps the canonical form. -/
theorem mwf_mmod (d : α) (k : Nat) (f : α → α) (m : SMap α) (h : mwf d m = true) : mwf d (mmod d k f m) = true :=
  mwf_mset d _ k m h

end Sys2Proof.Machine
end

