-- ==== Sys2Proof/Laws/State.lean ====
section
/-! SUPPORT. What every update of State leaves alone, one lemma per field, and what a read of a unit after an update gives. -/

namespace Sys2Proof.Machine

/-! ## modReel -/

section modReel_laws
variable (f : Reel → Reel) (s : State)

@[simp] theorem modReel_varB : (modReel f s).varB = s.varB := rfl
@[simp] theorem modReel_draws : (modReel f s).draws = s.draws := rfl
@[simp] theorem modReel_now : (modReel f s).now = s.now := rfl
@[simp] theorem modReel_bus : (modReel f s).bus = s.bus := rfl
@[simp] theorem modReel_latch : (modReel f s).latch = s.latch := rfl
@[simp] theorem modReel_spindles : (modReel f s).spindles = s.spindles := rfl
@[simp] theorem modReel_lanes : (modReel f s).lanes = s.lanes := rfl
@[simp] theorem modReel_cores : (modReel f s).cores = s.cores := rfl
@[simp] theorem modReel_evr : (modReel f s).evr = s.evr := rfl
@[simp] theorem modReel_fcr : (modReel f s).fcr = s.fcr := rfl
@[simp] theorem modReel_thm : (modReel f s).thm = s.thm := rfl
@[simp] theorem modReel_intc : (modReel f s).intc = s.intc := rfl
@[simp] theorem modReel_watch : (modReel f s).watch = s.watch := rfl
@[simp] theorem modReel_memp : (modReel f s).memp = s.memp := rfl
@[simp] theorem modReel_dma : (modReel f s).dma = s.dma := rfl
@[simp] theorem modReel_bac : (modReel f s).bac = s.bac := rfl
@[simp] theorem modReel_sys : (modReel f s).sys = s.sys := rfl
@[simp] theorem modReel_clk : (modReel f s).clk = s.clk := rfl
@[simp] theorem modReel_pwr : (modReel f s).pwr = s.pwr := rfl
@[simp] theorem modReel_span : (modReel f s).span = s.span := rfl
@[simp] theorem modReel_store : (modReel f s).store = s.store := rfl
@[simp] theorem modReel_pins : (modReel f s).pins = s.pins := rfl
@[simp] theorem modReel_ports : (modReel f s).ports = s.ports := rfl
@[simp] theorem modReel_xpt : (modReel f s).xpt = s.xpt := rfl
@[simp] theorem modReel_tables : (modReel f s).tables = s.tables := rfl
@[simp] theorem modReel_tasks : (modReel f s).tasks = s.tasks := rfl
@[simp] theorem modReel_ctrls : (modReel f s).ctrls = s.ctrls := rfl
@[simp] theorem modReel_mgmt : (modReel f s).mgmt = s.mgmt := rfl
@[simp] theorem modReel_piers : (modReel f s).piers = s.piers := rfl
@[simp] theorem modReel_media : (modReel f s).media = s.media := rfl
@[simp] theorem modReel_ciph : (modReel f s).ciph = s.ciph := rfl
@[simp] theorem modReel_vct : (modReel f s).vct = s.vct := rfl
@[simp] theorem modReel_drcs : (modReel f s).drcs = s.drcs := rfl
@[simp] theorem modReel_mem : (modReel f s).mem = s.mem := rfl
@[simp] theorem modReel_poison : (modReel f s).poison = s.poison := rfl
@[simp] theorem modReel_unc : (modReel f s).unc = s.unc := rfl
@[simp] theorem modReel_pending : (modReel f s).pending = s.pending := rfl

@[simp] theorem modReel_reel : (modReel f s).reel = f s.reel := rfl

end modReel_laws

/-! ## modEvr -/

section modEvr_laws
variable (f : Evr → Evr) (s : State)

@[simp] theorem modEvr_varB : (modEvr f s).varB = s.varB := rfl
@[simp] theorem modEvr_draws : (modEvr f s).draws = s.draws := rfl
@[simp] theorem modEvr_now : (modEvr f s).now = s.now := rfl
@[simp] theorem modEvr_bus : (modEvr f s).bus = s.bus := rfl
@[simp] theorem modEvr_latch : (modEvr f s).latch = s.latch := rfl
@[simp] theorem modEvr_reel : (modEvr f s).reel = s.reel := rfl
@[simp] theorem modEvr_spindles : (modEvr f s).spindles = s.spindles := rfl
@[simp] theorem modEvr_lanes : (modEvr f s).lanes = s.lanes := rfl
@[simp] theorem modEvr_cores : (modEvr f s).cores = s.cores := rfl
@[simp] theorem modEvr_fcr : (modEvr f s).fcr = s.fcr := rfl
@[simp] theorem modEvr_thm : (modEvr f s).thm = s.thm := rfl
@[simp] theorem modEvr_intc : (modEvr f s).intc = s.intc := rfl
@[simp] theorem modEvr_watch : (modEvr f s).watch = s.watch := rfl
@[simp] theorem modEvr_memp : (modEvr f s).memp = s.memp := rfl
@[simp] theorem modEvr_dma : (modEvr f s).dma = s.dma := rfl
@[simp] theorem modEvr_bac : (modEvr f s).bac = s.bac := rfl
@[simp] theorem modEvr_sys : (modEvr f s).sys = s.sys := rfl
@[simp] theorem modEvr_clk : (modEvr f s).clk = s.clk := rfl
@[simp] theorem modEvr_pwr : (modEvr f s).pwr = s.pwr := rfl
@[simp] theorem modEvr_span : (modEvr f s).span = s.span := rfl
@[simp] theorem modEvr_store : (modEvr f s).store = s.store := rfl
@[simp] theorem modEvr_pins : (modEvr f s).pins = s.pins := rfl
@[simp] theorem modEvr_ports : (modEvr f s).ports = s.ports := rfl
@[simp] theorem modEvr_xpt : (modEvr f s).xpt = s.xpt := rfl
@[simp] theorem modEvr_tables : (modEvr f s).tables = s.tables := rfl
@[simp] theorem modEvr_tasks : (modEvr f s).tasks = s.tasks := rfl
@[simp] theorem modEvr_ctrls : (modEvr f s).ctrls = s.ctrls := rfl
@[simp] theorem modEvr_mgmt : (modEvr f s).mgmt = s.mgmt := rfl
@[simp] theorem modEvr_piers : (modEvr f s).piers = s.piers := rfl
@[simp] theorem modEvr_media : (modEvr f s).media = s.media := rfl
@[simp] theorem modEvr_ciph : (modEvr f s).ciph = s.ciph := rfl
@[simp] theorem modEvr_vct : (modEvr f s).vct = s.vct := rfl
@[simp] theorem modEvr_drcs : (modEvr f s).drcs = s.drcs := rfl
@[simp] theorem modEvr_mem : (modEvr f s).mem = s.mem := rfl
@[simp] theorem modEvr_poison : (modEvr f s).poison = s.poison := rfl
@[simp] theorem modEvr_unc : (modEvr f s).unc = s.unc := rfl
@[simp] theorem modEvr_pending : (modEvr f s).pending = s.pending := rfl

@[simp] theorem modEvr_evr : (modEvr f s).evr = f s.evr := rfl

end modEvr_laws

/-! ## modFcr -/

section modFcr_laws
variable (f : Fcr → Fcr) (s : State)

@[simp] theorem modFcr_varB : (modFcr f s).varB = s.varB := rfl
@[simp] theorem modFcr_draws : (modFcr f s).draws = s.draws := rfl
@[simp] theorem modFcr_now : (modFcr f s).now = s.now := rfl
@[simp] theorem modFcr_bus : (modFcr f s).bus = s.bus := rfl
@[simp] theorem modFcr_latch : (modFcr f s).latch = s.latch := rfl
@[simp] theorem modFcr_reel : (modFcr f s).reel = s.reel := rfl
@[simp] theorem modFcr_spindles : (modFcr f s).spindles = s.spindles := rfl
@[simp] theorem modFcr_lanes : (modFcr f s).lanes = s.lanes := rfl
@[simp] theorem modFcr_cores : (modFcr f s).cores = s.cores := rfl
@[simp] theorem modFcr_evr : (modFcr f s).evr = s.evr := rfl
@[simp] theorem modFcr_thm : (modFcr f s).thm = s.thm := rfl
@[simp] theorem modFcr_intc : (modFcr f s).intc = s.intc := rfl
@[simp] theorem modFcr_watch : (modFcr f s).watch = s.watch := rfl
@[simp] theorem modFcr_memp : (modFcr f s).memp = s.memp := rfl
@[simp] theorem modFcr_dma : (modFcr f s).dma = s.dma := rfl
@[simp] theorem modFcr_bac : (modFcr f s).bac = s.bac := rfl
@[simp] theorem modFcr_sys : (modFcr f s).sys = s.sys := rfl
@[simp] theorem modFcr_clk : (modFcr f s).clk = s.clk := rfl
@[simp] theorem modFcr_pwr : (modFcr f s).pwr = s.pwr := rfl
@[simp] theorem modFcr_span : (modFcr f s).span = s.span := rfl
@[simp] theorem modFcr_store : (modFcr f s).store = s.store := rfl
@[simp] theorem modFcr_pins : (modFcr f s).pins = s.pins := rfl
@[simp] theorem modFcr_ports : (modFcr f s).ports = s.ports := rfl
@[simp] theorem modFcr_xpt : (modFcr f s).xpt = s.xpt := rfl
@[simp] theorem modFcr_tables : (modFcr f s).tables = s.tables := rfl
@[simp] theorem modFcr_tasks : (modFcr f s).tasks = s.tasks := rfl
@[simp] theorem modFcr_ctrls : (modFcr f s).ctrls = s.ctrls := rfl
@[simp] theorem modFcr_mgmt : (modFcr f s).mgmt = s.mgmt := rfl
@[simp] theorem modFcr_piers : (modFcr f s).piers = s.piers := rfl
@[simp] theorem modFcr_media : (modFcr f s).media = s.media := rfl
@[simp] theorem modFcr_ciph : (modFcr f s).ciph = s.ciph := rfl
@[simp] theorem modFcr_vct : (modFcr f s).vct = s.vct := rfl
@[simp] theorem modFcr_drcs : (modFcr f s).drcs = s.drcs := rfl
@[simp] theorem modFcr_mem : (modFcr f s).mem = s.mem := rfl
@[simp] theorem modFcr_poison : (modFcr f s).poison = s.poison := rfl
@[simp] theorem modFcr_unc : (modFcr f s).unc = s.unc := rfl
@[simp] theorem modFcr_pending : (modFcr f s).pending = s.pending := rfl

@[simp] theorem modFcr_fcr : (modFcr f s).fcr = f s.fcr := rfl

end modFcr_laws

/-! ## modThm -/

section modThm_laws
variable (f : Thm → Thm) (s : State)

@[simp] theorem modThm_varB : (modThm f s).varB = s.varB := rfl
@[simp] theorem modThm_draws : (modThm f s).draws = s.draws := rfl
@[simp] theorem modThm_now : (modThm f s).now = s.now := rfl
@[simp] theorem modThm_bus : (modThm f s).bus = s.bus := rfl
@[simp] theorem modThm_latch : (modThm f s).latch = s.latch := rfl
@[simp] theorem modThm_reel : (modThm f s).reel = s.reel := rfl
@[simp] theorem modThm_spindles : (modThm f s).spindles = s.spindles := rfl
@[simp] theorem modThm_lanes : (modThm f s).lanes = s.lanes := rfl
@[simp] theorem modThm_cores : (modThm f s).cores = s.cores := rfl
@[simp] theorem modThm_evr : (modThm f s).evr = s.evr := rfl
@[simp] theorem modThm_fcr : (modThm f s).fcr = s.fcr := rfl
@[simp] theorem modThm_intc : (modThm f s).intc = s.intc := rfl
@[simp] theorem modThm_watch : (modThm f s).watch = s.watch := rfl
@[simp] theorem modThm_memp : (modThm f s).memp = s.memp := rfl
@[simp] theorem modThm_dma : (modThm f s).dma = s.dma := rfl
@[simp] theorem modThm_bac : (modThm f s).bac = s.bac := rfl
@[simp] theorem modThm_sys : (modThm f s).sys = s.sys := rfl
@[simp] theorem modThm_clk : (modThm f s).clk = s.clk := rfl
@[simp] theorem modThm_pwr : (modThm f s).pwr = s.pwr := rfl
@[simp] theorem modThm_span : (modThm f s).span = s.span := rfl
@[simp] theorem modThm_store : (modThm f s).store = s.store := rfl
@[simp] theorem modThm_pins : (modThm f s).pins = s.pins := rfl
@[simp] theorem modThm_ports : (modThm f s).ports = s.ports := rfl
@[simp] theorem modThm_xpt : (modThm f s).xpt = s.xpt := rfl
@[simp] theorem modThm_tables : (modThm f s).tables = s.tables := rfl
@[simp] theorem modThm_tasks : (modThm f s).tasks = s.tasks := rfl
@[simp] theorem modThm_ctrls : (modThm f s).ctrls = s.ctrls := rfl
@[simp] theorem modThm_mgmt : (modThm f s).mgmt = s.mgmt := rfl
@[simp] theorem modThm_piers : (modThm f s).piers = s.piers := rfl
@[simp] theorem modThm_media : (modThm f s).media = s.media := rfl
@[simp] theorem modThm_ciph : (modThm f s).ciph = s.ciph := rfl
@[simp] theorem modThm_vct : (modThm f s).vct = s.vct := rfl
@[simp] theorem modThm_drcs : (modThm f s).drcs = s.drcs := rfl
@[simp] theorem modThm_mem : (modThm f s).mem = s.mem := rfl
@[simp] theorem modThm_poison : (modThm f s).poison = s.poison := rfl
@[simp] theorem modThm_unc : (modThm f s).unc = s.unc := rfl
@[simp] theorem modThm_pending : (modThm f s).pending = s.pending := rfl

@[simp] theorem modThm_thm : (modThm f s).thm = f s.thm := rfl

end modThm_laws

/-! ## modIntc -/

section modIntc_laws
variable (f : Intc → Intc) (s : State)

@[simp] theorem modIntc_varB : (modIntc f s).varB = s.varB := rfl
@[simp] theorem modIntc_draws : (modIntc f s).draws = s.draws := rfl
@[simp] theorem modIntc_now : (modIntc f s).now = s.now := rfl
@[simp] theorem modIntc_bus : (modIntc f s).bus = s.bus := rfl
@[simp] theorem modIntc_latch : (modIntc f s).latch = s.latch := rfl
@[simp] theorem modIntc_reel : (modIntc f s).reel = s.reel := rfl
@[simp] theorem modIntc_spindles : (modIntc f s).spindles = s.spindles := rfl
@[simp] theorem modIntc_lanes : (modIntc f s).lanes = s.lanes := rfl
@[simp] theorem modIntc_cores : (modIntc f s).cores = s.cores := rfl
@[simp] theorem modIntc_evr : (modIntc f s).evr = s.evr := rfl
@[simp] theorem modIntc_fcr : (modIntc f s).fcr = s.fcr := rfl
@[simp] theorem modIntc_thm : (modIntc f s).thm = s.thm := rfl
@[simp] theorem modIntc_watch : (modIntc f s).watch = s.watch := rfl
@[simp] theorem modIntc_memp : (modIntc f s).memp = s.memp := rfl
@[simp] theorem modIntc_dma : (modIntc f s).dma = s.dma := rfl
@[simp] theorem modIntc_bac : (modIntc f s).bac = s.bac := rfl
@[simp] theorem modIntc_sys : (modIntc f s).sys = s.sys := rfl
@[simp] theorem modIntc_clk : (modIntc f s).clk = s.clk := rfl
@[simp] theorem modIntc_pwr : (modIntc f s).pwr = s.pwr := rfl
@[simp] theorem modIntc_span : (modIntc f s).span = s.span := rfl
@[simp] theorem modIntc_store : (modIntc f s).store = s.store := rfl
@[simp] theorem modIntc_pins : (modIntc f s).pins = s.pins := rfl
@[simp] theorem modIntc_ports : (modIntc f s).ports = s.ports := rfl
@[simp] theorem modIntc_xpt : (modIntc f s).xpt = s.xpt := rfl
@[simp] theorem modIntc_tables : (modIntc f s).tables = s.tables := rfl
@[simp] theorem modIntc_tasks : (modIntc f s).tasks = s.tasks := rfl
@[simp] theorem modIntc_ctrls : (modIntc f s).ctrls = s.ctrls := rfl
@[simp] theorem modIntc_mgmt : (modIntc f s).mgmt = s.mgmt := rfl
@[simp] theorem modIntc_piers : (modIntc f s).piers = s.piers := rfl
@[simp] theorem modIntc_media : (modIntc f s).media = s.media := rfl
@[simp] theorem modIntc_ciph : (modIntc f s).ciph = s.ciph := rfl
@[simp] theorem modIntc_vct : (modIntc f s).vct = s.vct := rfl
@[simp] theorem modIntc_drcs : (modIntc f s).drcs = s.drcs := rfl
@[simp] theorem modIntc_mem : (modIntc f s).mem = s.mem := rfl
@[simp] theorem modIntc_poison : (modIntc f s).poison = s.poison := rfl
@[simp] theorem modIntc_unc : (modIntc f s).unc = s.unc := rfl
@[simp] theorem modIntc_pending : (modIntc f s).pending = s.pending := rfl

@[simp] theorem modIntc_intc : (modIntc f s).intc = f s.intc := rfl

end modIntc_laws

/-! ## modWatch -/

section modWatch_laws
variable (f : Watch → Watch) (s : State)

@[simp] theorem modWatch_varB : (modWatch f s).varB = s.varB := rfl
@[simp] theorem modWatch_draws : (modWatch f s).draws = s.draws := rfl
@[simp] theorem modWatch_now : (modWatch f s).now = s.now := rfl
@[simp] theorem modWatch_bus : (modWatch f s).bus = s.bus := rfl
@[simp] theorem modWatch_latch : (modWatch f s).latch = s.latch := rfl
@[simp] theorem modWatch_reel : (modWatch f s).reel = s.reel := rfl
@[simp] theorem modWatch_spindles : (modWatch f s).spindles = s.spindles := rfl
@[simp] theorem modWatch_lanes : (modWatch f s).lanes = s.lanes := rfl
@[simp] theorem modWatch_cores : (modWatch f s).cores = s.cores := rfl
@[simp] theorem modWatch_evr : (modWatch f s).evr = s.evr := rfl
@[simp] theorem modWatch_fcr : (modWatch f s).fcr = s.fcr := rfl
@[simp] theorem modWatch_thm : (modWatch f s).thm = s.thm := rfl
@[simp] theorem modWatch_intc : (modWatch f s).intc = s.intc := rfl
@[simp] theorem modWatch_memp : (modWatch f s).memp = s.memp := rfl
@[simp] theorem modWatch_dma : (modWatch f s).dma = s.dma := rfl
@[simp] theorem modWatch_bac : (modWatch f s).bac = s.bac := rfl
@[simp] theorem modWatch_sys : (modWatch f s).sys = s.sys := rfl
@[simp] theorem modWatch_clk : (modWatch f s).clk = s.clk := rfl
@[simp] theorem modWatch_pwr : (modWatch f s).pwr = s.pwr := rfl
@[simp] theorem modWatch_span : (modWatch f s).span = s.span := rfl
@[simp] theorem modWatch_store : (modWatch f s).store = s.store := rfl
@[simp] theorem modWatch_pins : (modWatch f s).pins = s.pins := rfl
@[simp] theorem modWatch_ports : (modWatch f s).ports = s.ports := rfl
@[simp] theorem modWatch_xpt : (modWatch f s).xpt = s.xpt := rfl
@[simp] theorem modWatch_tables : (modWatch f s).tables = s.tables := rfl
@[simp] theorem modWatch_tasks : (modWatch f s).tasks = s.tasks := rfl
@[simp] theorem modWatch_ctrls : (modWatch f s).ctrls = s.ctrls := rfl
@[simp] theorem modWatch_mgmt : (modWatch f s).mgmt = s.mgmt := rfl
@[simp] theorem modWatch_piers : (modWatch f s).piers = s.piers := rfl
@[simp] theorem modWatch_media : (modWatch f s).media = s.media := rfl
@[simp] theorem modWatch_ciph : (modWatch f s).ciph = s.ciph := rfl
@[simp] theorem modWatch_vct : (modWatch f s).vct = s.vct := rfl
@[simp] theorem modWatch_drcs : (modWatch f s).drcs = s.drcs := rfl
@[simp] theorem modWatch_mem : (modWatch f s).mem = s.mem := rfl
@[simp] theorem modWatch_poison : (modWatch f s).poison = s.poison := rfl
@[simp] theorem modWatch_unc : (modWatch f s).unc = s.unc := rfl
@[simp] theorem modWatch_pending : (modWatch f s).pending = s.pending := rfl

@[simp] theorem modWatch_watch : (modWatch f s).watch = f s.watch := rfl

end modWatch_laws

/-! ## modMemp -/

section modMemp_laws
variable (f : Memp → Memp) (s : State)

@[simp] theorem modMemp_varB : (modMemp f s).varB = s.varB := rfl
@[simp] theorem modMemp_draws : (modMemp f s).draws = s.draws := rfl
@[simp] theorem modMemp_now : (modMemp f s).now = s.now := rfl
@[simp] theorem modMemp_bus : (modMemp f s).bus = s.bus := rfl
@[simp] theorem modMemp_latch : (modMemp f s).latch = s.latch := rfl
@[simp] theorem modMemp_reel : (modMemp f s).reel = s.reel := rfl
@[simp] theorem modMemp_spindles : (modMemp f s).spindles = s.spindles := rfl
@[simp] theorem modMemp_lanes : (modMemp f s).lanes = s.lanes := rfl
@[simp] theorem modMemp_cores : (modMemp f s).cores = s.cores := rfl
@[simp] theorem modMemp_evr : (modMemp f s).evr = s.evr := rfl
@[simp] theorem modMemp_fcr : (modMemp f s).fcr = s.fcr := rfl
@[simp] theorem modMemp_thm : (modMemp f s).thm = s.thm := rfl
@[simp] theorem modMemp_intc : (modMemp f s).intc = s.intc := rfl
@[simp] theorem modMemp_watch : (modMemp f s).watch = s.watch := rfl
@[simp] theorem modMemp_dma : (modMemp f s).dma = s.dma := rfl
@[simp] theorem modMemp_bac : (modMemp f s).bac = s.bac := rfl
@[simp] theorem modMemp_sys : (modMemp f s).sys = s.sys := rfl
@[simp] theorem modMemp_clk : (modMemp f s).clk = s.clk := rfl
@[simp] theorem modMemp_pwr : (modMemp f s).pwr = s.pwr := rfl
@[simp] theorem modMemp_span : (modMemp f s).span = s.span := rfl
@[simp] theorem modMemp_store : (modMemp f s).store = s.store := rfl
@[simp] theorem modMemp_pins : (modMemp f s).pins = s.pins := rfl
@[simp] theorem modMemp_ports : (modMemp f s).ports = s.ports := rfl
@[simp] theorem modMemp_xpt : (modMemp f s).xpt = s.xpt := rfl
@[simp] theorem modMemp_tables : (modMemp f s).tables = s.tables := rfl
@[simp] theorem modMemp_tasks : (modMemp f s).tasks = s.tasks := rfl
@[simp] theorem modMemp_ctrls : (modMemp f s).ctrls = s.ctrls := rfl
@[simp] theorem modMemp_mgmt : (modMemp f s).mgmt = s.mgmt := rfl
@[simp] theorem modMemp_piers : (modMemp f s).piers = s.piers := rfl
@[simp] theorem modMemp_media : (modMemp f s).media = s.media := rfl
@[simp] theorem modMemp_ciph : (modMemp f s).ciph = s.ciph := rfl
@[simp] theorem modMemp_vct : (modMemp f s).vct = s.vct := rfl
@[simp] theorem modMemp_drcs : (modMemp f s).drcs = s.drcs := rfl
@[simp] theorem modMemp_mem : (modMemp f s).mem = s.mem := rfl
@[simp] theorem modMemp_poison : (modMemp f s).poison = s.poison := rfl
@[simp] theorem modMemp_unc : (modMemp f s).unc = s.unc := rfl
@[simp] theorem modMemp_pending : (modMemp f s).pending = s.pending := rfl

@[simp] theorem modMemp_memp : (modMemp f s).memp = f s.memp := rfl

end modMemp_laws

/-! ## modBac -/

section modBac_laws
variable (f : Bac → Bac) (s : State)

@[simp] theorem modBac_varB : (modBac f s).varB = s.varB := rfl
@[simp] theorem modBac_draws : (modBac f s).draws = s.draws := rfl
@[simp] theorem modBac_now : (modBac f s).now = s.now := rfl
@[simp] theorem modBac_bus : (modBac f s).bus = s.bus := rfl
@[simp] theorem modBac_latch : (modBac f s).latch = s.latch := rfl
@[simp] theorem modBac_reel : (modBac f s).reel = s.reel := rfl
@[simp] theorem modBac_spindles : (modBac f s).spindles = s.spindles := rfl
@[simp] theorem modBac_lanes : (modBac f s).lanes = s.lanes := rfl
@[simp] theorem modBac_cores : (modBac f s).cores = s.cores := rfl
@[simp] theorem modBac_evr : (modBac f s).evr = s.evr := rfl
@[simp] theorem modBac_fcr : (modBac f s).fcr = s.fcr := rfl
@[simp] theorem modBac_thm : (modBac f s).thm = s.thm := rfl
@[simp] theorem modBac_intc : (modBac f s).intc = s.intc := rfl
@[simp] theorem modBac_watch : (modBac f s).watch = s.watch := rfl
@[simp] theorem modBac_memp : (modBac f s).memp = s.memp := rfl
@[simp] theorem modBac_dma : (modBac f s).dma = s.dma := rfl
@[simp] theorem modBac_sys : (modBac f s).sys = s.sys := rfl
@[simp] theorem modBac_clk : (modBac f s).clk = s.clk := rfl
@[simp] theorem modBac_pwr : (modBac f s).pwr = s.pwr := rfl
@[simp] theorem modBac_span : (modBac f s).span = s.span := rfl
@[simp] theorem modBac_store : (modBac f s).store = s.store := rfl
@[simp] theorem modBac_pins : (modBac f s).pins = s.pins := rfl
@[simp] theorem modBac_ports : (modBac f s).ports = s.ports := rfl
@[simp] theorem modBac_xpt : (modBac f s).xpt = s.xpt := rfl
@[simp] theorem modBac_tables : (modBac f s).tables = s.tables := rfl
@[simp] theorem modBac_tasks : (modBac f s).tasks = s.tasks := rfl
@[simp] theorem modBac_ctrls : (modBac f s).ctrls = s.ctrls := rfl
@[simp] theorem modBac_mgmt : (modBac f s).mgmt = s.mgmt := rfl
@[simp] theorem modBac_piers : (modBac f s).piers = s.piers := rfl
@[simp] theorem modBac_media : (modBac f s).media = s.media := rfl
@[simp] theorem modBac_ciph : (modBac f s).ciph = s.ciph := rfl
@[simp] theorem modBac_vct : (modBac f s).vct = s.vct := rfl
@[simp] theorem modBac_drcs : (modBac f s).drcs = s.drcs := rfl
@[simp] theorem modBac_mem : (modBac f s).mem = s.mem := rfl
@[simp] theorem modBac_poison : (modBac f s).poison = s.poison := rfl
@[simp] theorem modBac_unc : (modBac f s).unc = s.unc := rfl
@[simp] theorem modBac_pending : (modBac f s).pending = s.pending := rfl

@[simp] theorem modBac_bac : (modBac f s).bac = f s.bac := rfl

end modBac_laws

/-! ## modSys -/

section modSys_laws
variable (f : Sys → Sys) (s : State)

@[simp] theorem modSys_varB : (modSys f s).varB = s.varB := rfl
@[simp] theorem modSys_draws : (modSys f s).draws = s.draws := rfl
@[simp] theorem modSys_now : (modSys f s).now = s.now := rfl
@[simp] theorem modSys_bus : (modSys f s).bus = s.bus := rfl
@[simp] theorem modSys_latch : (modSys f s).latch = s.latch := rfl
@[simp] theorem modSys_reel : (modSys f s).reel = s.reel := rfl
@[simp] theorem modSys_spindles : (modSys f s).spindles = s.spindles := rfl
@[simp] theorem modSys_lanes : (modSys f s).lanes = s.lanes := rfl
@[simp] theorem modSys_cores : (modSys f s).cores = s.cores := rfl
@[simp] theorem modSys_evr : (modSys f s).evr = s.evr := rfl
@[simp] theorem modSys_fcr : (modSys f s).fcr = s.fcr := rfl
@[simp] theorem modSys_thm : (modSys f s).thm = s.thm := rfl
@[simp] theorem modSys_intc : (modSys f s).intc = s.intc := rfl
@[simp] theorem modSys_watch : (modSys f s).watch = s.watch := rfl
@[simp] theorem modSys_memp : (modSys f s).memp = s.memp := rfl
@[simp] theorem modSys_dma : (modSys f s).dma = s.dma := rfl
@[simp] theorem modSys_bac : (modSys f s).bac = s.bac := rfl
@[simp] theorem modSys_clk : (modSys f s).clk = s.clk := rfl
@[simp] theorem modSys_pwr : (modSys f s).pwr = s.pwr := rfl
@[simp] theorem modSys_span : (modSys f s).span = s.span := rfl
@[simp] theorem modSys_store : (modSys f s).store = s.store := rfl
@[simp] theorem modSys_pins : (modSys f s).pins = s.pins := rfl
@[simp] theorem modSys_ports : (modSys f s).ports = s.ports := rfl
@[simp] theorem modSys_xpt : (modSys f s).xpt = s.xpt := rfl
@[simp] theorem modSys_tables : (modSys f s).tables = s.tables := rfl
@[simp] theorem modSys_tasks : (modSys f s).tasks = s.tasks := rfl
@[simp] theorem modSys_ctrls : (modSys f s).ctrls = s.ctrls := rfl
@[simp] theorem modSys_mgmt : (modSys f s).mgmt = s.mgmt := rfl
@[simp] theorem modSys_piers : (modSys f s).piers = s.piers := rfl
@[simp] theorem modSys_media : (modSys f s).media = s.media := rfl
@[simp] theorem modSys_ciph : (modSys f s).ciph = s.ciph := rfl
@[simp] theorem modSys_vct : (modSys f s).vct = s.vct := rfl
@[simp] theorem modSys_drcs : (modSys f s).drcs = s.drcs := rfl
@[simp] theorem modSys_mem : (modSys f s).mem = s.mem := rfl
@[simp] theorem modSys_poison : (modSys f s).poison = s.poison := rfl
@[simp] theorem modSys_unc : (modSys f s).unc = s.unc := rfl
@[simp] theorem modSys_pending : (modSys f s).pending = s.pending := rfl

@[simp] theorem modSys_sys : (modSys f s).sys = f s.sys := rfl

end modSys_laws

/-! ## modClk -/

section modClk_laws
variable (f : Clk → Clk) (s : State)

@[simp] theorem modClk_varB : (modClk f s).varB = s.varB := rfl
@[simp] theorem modClk_draws : (modClk f s).draws = s.draws := rfl
@[simp] theorem modClk_now : (modClk f s).now = s.now := rfl
@[simp] theorem modClk_bus : (modClk f s).bus = s.bus := rfl
@[simp] theorem modClk_latch : (modClk f s).latch = s.latch := rfl
@[simp] theorem modClk_reel : (modClk f s).reel = s.reel := rfl
@[simp] theorem modClk_spindles : (modClk f s).spindles = s.spindles := rfl
@[simp] theorem modClk_lanes : (modClk f s).lanes = s.lanes := rfl
@[simp] theorem modClk_cores : (modClk f s).cores = s.cores := rfl
@[simp] theorem modClk_evr : (modClk f s).evr = s.evr := rfl
@[simp] theorem modClk_fcr : (modClk f s).fcr = s.fcr := rfl
@[simp] theorem modClk_thm : (modClk f s).thm = s.thm := rfl
@[simp] theorem modClk_intc : (modClk f s).intc = s.intc := rfl
@[simp] theorem modClk_watch : (modClk f s).watch = s.watch := rfl
@[simp] theorem modClk_memp : (modClk f s).memp = s.memp := rfl
@[simp] theorem modClk_dma : (modClk f s).dma = s.dma := rfl
@[simp] theorem modClk_bac : (modClk f s).bac = s.bac := rfl
@[simp] theorem modClk_sys : (modClk f s).sys = s.sys := rfl
@[simp] theorem modClk_pwr : (modClk f s).pwr = s.pwr := rfl
@[simp] theorem modClk_span : (modClk f s).span = s.span := rfl
@[simp] theorem modClk_store : (modClk f s).store = s.store := rfl
@[simp] theorem modClk_pins : (modClk f s).pins = s.pins := rfl
@[simp] theorem modClk_ports : (modClk f s).ports = s.ports := rfl
@[simp] theorem modClk_xpt : (modClk f s).xpt = s.xpt := rfl
@[simp] theorem modClk_tables : (modClk f s).tables = s.tables := rfl
@[simp] theorem modClk_tasks : (modClk f s).tasks = s.tasks := rfl
@[simp] theorem modClk_ctrls : (modClk f s).ctrls = s.ctrls := rfl
@[simp] theorem modClk_mgmt : (modClk f s).mgmt = s.mgmt := rfl
@[simp] theorem modClk_piers : (modClk f s).piers = s.piers := rfl
@[simp] theorem modClk_media : (modClk f s).media = s.media := rfl
@[simp] theorem modClk_ciph : (modClk f s).ciph = s.ciph := rfl
@[simp] theorem modClk_vct : (modClk f s).vct = s.vct := rfl
@[simp] theorem modClk_drcs : (modClk f s).drcs = s.drcs := rfl
@[simp] theorem modClk_mem : (modClk f s).mem = s.mem := rfl
@[simp] theorem modClk_poison : (modClk f s).poison = s.poison := rfl
@[simp] theorem modClk_unc : (modClk f s).unc = s.unc := rfl
@[simp] theorem modClk_pending : (modClk f s).pending = s.pending := rfl

@[simp] theorem modClk_clk : (modClk f s).clk = f s.clk := rfl

end modClk_laws

/-! ## modPwr -/

section modPwr_laws
variable (f : Pwr → Pwr) (s : State)

@[simp] theorem modPwr_varB : (modPwr f s).varB = s.varB := rfl
@[simp] theorem modPwr_draws : (modPwr f s).draws = s.draws := rfl
@[simp] theorem modPwr_now : (modPwr f s).now = s.now := rfl
@[simp] theorem modPwr_bus : (modPwr f s).bus = s.bus := rfl
@[simp] theorem modPwr_latch : (modPwr f s).latch = s.latch := rfl
@[simp] theorem modPwr_reel : (modPwr f s).reel = s.reel := rfl
@[simp] theorem modPwr_spindles : (modPwr f s).spindles = s.spindles := rfl
@[simp] theorem modPwr_lanes : (modPwr f s).lanes = s.lanes := rfl
@[simp] theorem modPwr_cores : (modPwr f s).cores = s.cores := rfl
@[simp] theorem modPwr_evr : (modPwr f s).evr = s.evr := rfl
@[simp] theorem modPwr_fcr : (modPwr f s).fcr = s.fcr := rfl
@[simp] theorem modPwr_thm : (modPwr f s).thm = s.thm := rfl
@[simp] theorem modPwr_intc : (modPwr f s).intc = s.intc := rfl
@[simp] theorem modPwr_watch : (modPwr f s).watch = s.watch := rfl
@[simp] theorem modPwr_memp : (modPwr f s).memp = s.memp := rfl
@[simp] theorem modPwr_dma : (modPwr f s).dma = s.dma := rfl
@[simp] theorem modPwr_bac : (modPwr f s).bac = s.bac := rfl
@[simp] theorem modPwr_sys : (modPwr f s).sys = s.sys := rfl
@[simp] theorem modPwr_clk : (modPwr f s).clk = s.clk := rfl
@[simp] theorem modPwr_span : (modPwr f s).span = s.span := rfl
@[simp] theorem modPwr_store : (modPwr f s).store = s.store := rfl
@[simp] theorem modPwr_pins : (modPwr f s).pins = s.pins := rfl
@[simp] theorem modPwr_ports : (modPwr f s).ports = s.ports := rfl
@[simp] theorem modPwr_xpt : (modPwr f s).xpt = s.xpt := rfl
@[simp] theorem modPwr_tables : (modPwr f s).tables = s.tables := rfl
@[simp] theorem modPwr_tasks : (modPwr f s).tasks = s.tasks := rfl
@[simp] theorem modPwr_ctrls : (modPwr f s).ctrls = s.ctrls := rfl
@[simp] theorem modPwr_mgmt : (modPwr f s).mgmt = s.mgmt := rfl
@[simp] theorem modPwr_piers : (modPwr f s).piers = s.piers := rfl
@[simp] theorem modPwr_media : (modPwr f s).media = s.media := rfl
@[simp] theorem modPwr_ciph : (modPwr f s).ciph = s.ciph := rfl
@[simp] theorem modPwr_vct : (modPwr f s).vct = s.vct := rfl
@[simp] theorem modPwr_drcs : (modPwr f s).drcs = s.drcs := rfl
@[simp] theorem modPwr_mem : (modPwr f s).mem = s.mem := rfl
@[simp] theorem modPwr_poison : (modPwr f s).poison = s.poison := rfl
@[simp] theorem modPwr_unc : (modPwr f s).unc = s.unc := rfl
@[simp] theorem modPwr_pending : (modPwr f s).pending = s.pending := rfl

@[simp] theorem modPwr_pwr : (modPwr f s).pwr = f s.pwr := rfl

end modPwr_laws

/-! ## modSpan -/

section modSpan_laws
variable (f : Span → Span) (s : State)

@[simp] theorem modSpan_varB : (modSpan f s).varB = s.varB := rfl
@[simp] theorem modSpan_draws : (modSpan f s).draws = s.draws := rfl
@[simp] theorem modSpan_now : (modSpan f s).now = s.now := rfl
@[simp] theorem modSpan_bus : (modSpan f s).bus = s.bus := rfl
@[simp] theorem modSpan_latch : (modSpan f s).latch = s.latch := rfl
@[simp] theorem modSpan_reel : (modSpan f s).reel = s.reel := rfl
@[simp] theorem modSpan_spindles : (modSpan f s).spindles = s.spindles := rfl
@[simp] theorem modSpan_lanes : (modSpan f s).lanes = s.lanes := rfl
@[simp] theorem modSpan_cores : (modSpan f s).cores = s.cores := rfl
@[simp] theorem modSpan_evr : (modSpan f s).evr = s.evr := rfl
@[simp] theorem modSpan_fcr : (modSpan f s).fcr = s.fcr := rfl
@[simp] theorem modSpan_thm : (modSpan f s).thm = s.thm := rfl
@[simp] theorem modSpan_intc : (modSpan f s).intc = s.intc := rfl
@[simp] theorem modSpan_watch : (modSpan f s).watch = s.watch := rfl
@[simp] theorem modSpan_memp : (modSpan f s).memp = s.memp := rfl
@[simp] theorem modSpan_dma : (modSpan f s).dma = s.dma := rfl
@[simp] theorem modSpan_bac : (modSpan f s).bac = s.bac := rfl
@[simp] theorem modSpan_sys : (modSpan f s).sys = s.sys := rfl
@[simp] theorem modSpan_clk : (modSpan f s).clk = s.clk := rfl
@[simp] theorem modSpan_pwr : (modSpan f s).pwr = s.pwr := rfl
@[simp] theorem modSpan_store : (modSpan f s).store = s.store := rfl
@[simp] theorem modSpan_pins : (modSpan f s).pins = s.pins := rfl
@[simp] theorem modSpan_ports : (modSpan f s).ports = s.ports := rfl
@[simp] theorem modSpan_xpt : (modSpan f s).xpt = s.xpt := rfl
@[simp] theorem modSpan_tables : (modSpan f s).tables = s.tables := rfl
@[simp] theorem modSpan_tasks : (modSpan f s).tasks = s.tasks := rfl
@[simp] theorem modSpan_ctrls : (modSpan f s).ctrls = s.ctrls := rfl
@[simp] theorem modSpan_mgmt : (modSpan f s).mgmt = s.mgmt := rfl
@[simp] theorem modSpan_piers : (modSpan f s).piers = s.piers := rfl
@[simp] theorem modSpan_media : (modSpan f s).media = s.media := rfl
@[simp] theorem modSpan_ciph : (modSpan f s).ciph = s.ciph := rfl
@[simp] theorem modSpan_vct : (modSpan f s).vct = s.vct := rfl
@[simp] theorem modSpan_drcs : (modSpan f s).drcs = s.drcs := rfl
@[simp] theorem modSpan_mem : (modSpan f s).mem = s.mem := rfl
@[simp] theorem modSpan_poison : (modSpan f s).poison = s.poison := rfl
@[simp] theorem modSpan_unc : (modSpan f s).unc = s.unc := rfl
@[simp] theorem modSpan_pending : (modSpan f s).pending = s.pending := rfl

@[simp] theorem modSpan_span : (modSpan f s).span = f s.span := rfl

end modSpan_laws

/-! ## modStore -/

section modStore_laws
variable (f : Store → Store) (s : State)

@[simp] theorem modStore_varB : (modStore f s).varB = s.varB := rfl
@[simp] theorem modStore_draws : (modStore f s).draws = s.draws := rfl
@[simp] theorem modStore_now : (modStore f s).now = s.now := rfl
@[simp] theorem modStore_bus : (modStore f s).bus = s.bus := rfl
@[simp] theorem modStore_latch : (modStore f s).latch = s.latch := rfl
@[simp] theorem modStore_reel : (modStore f s).reel = s.reel := rfl
@[simp] theorem modStore_spindles : (modStore f s).spindles = s.spindles := rfl
@[simp] theorem modStore_lanes : (modStore f s).lanes = s.lanes := rfl
@[simp] theorem modStore_cores : (modStore f s).cores = s.cores := rfl
@[simp] theorem modStore_evr : (modStore f s).evr = s.evr := rfl
@[simp] theorem modStore_fcr : (modStore f s).fcr = s.fcr := rfl
@[simp] theorem modStore_thm : (modStore f s).thm = s.thm := rfl
@[simp] theorem modStore_intc : (modStore f s).intc = s.intc := rfl
@[simp] theorem modStore_watch : (modStore f s).watch = s.watch := rfl
@[simp] theorem modStore_memp : (modStore f s).memp = s.memp := rfl
@[simp] theorem modStore_dma : (modStore f s).dma = s.dma := rfl
@[simp] theorem modStore_bac : (modStore f s).bac = s.bac := rfl
@[simp] theorem modStore_sys : (modStore f s).sys = s.sys := rfl
@[simp] theorem modStore_clk : (modStore f s).clk = s.clk := rfl
@[simp] theorem modStore_pwr : (modStore f s).pwr = s.pwr := rfl
@[simp] theorem modStore_span : (modStore f s).span = s.span := rfl
@[simp] theorem modStore_pins : (modStore f s).pins = s.pins := rfl
@[simp] theorem modStore_ports : (modStore f s).ports = s.ports := rfl
@[simp] theorem modStore_xpt : (modStore f s).xpt = s.xpt := rfl
@[simp] theorem modStore_tables : (modStore f s).tables = s.tables := rfl
@[simp] theorem modStore_tasks : (modStore f s).tasks = s.tasks := rfl
@[simp] theorem modStore_ctrls : (modStore f s).ctrls = s.ctrls := rfl
@[simp] theorem modStore_mgmt : (modStore f s).mgmt = s.mgmt := rfl
@[simp] theorem modStore_piers : (modStore f s).piers = s.piers := rfl
@[simp] theorem modStore_media : (modStore f s).media = s.media := rfl
@[simp] theorem modStore_ciph : (modStore f s).ciph = s.ciph := rfl
@[simp] theorem modStore_vct : (modStore f s).vct = s.vct := rfl
@[simp] theorem modStore_drcs : (modStore f s).drcs = s.drcs := rfl
@[simp] theorem modStore_mem : (modStore f s).mem = s.mem := rfl
@[simp] theorem modStore_poison : (modStore f s).poison = s.poison := rfl
@[simp] theorem modStore_unc : (modStore f s).unc = s.unc := rfl
@[simp] theorem modStore_pending : (modStore f s).pending = s.pending := rfl

@[simp] theorem modStore_store : (modStore f s).store = f s.store := rfl

end modStore_laws

/-! ## modPins -/

section modPins_laws
variable (f : Pins → Pins) (s : State)

@[simp] theorem modPins_varB : (modPins f s).varB = s.varB := rfl
@[simp] theorem modPins_draws : (modPins f s).draws = s.draws := rfl
@[simp] theorem modPins_now : (modPins f s).now = s.now := rfl
@[simp] theorem modPins_bus : (modPins f s).bus = s.bus := rfl
@[simp] theorem modPins_latch : (modPins f s).latch = s.latch := rfl
@[simp] theorem modPins_reel : (modPins f s).reel = s.reel := rfl
@[simp] theorem modPins_spindles : (modPins f s).spindles = s.spindles := rfl
@[simp] theorem modPins_lanes : (modPins f s).lanes = s.lanes := rfl
@[simp] theorem modPins_cores : (modPins f s).cores = s.cores := rfl
@[simp] theorem modPins_evr : (modPins f s).evr = s.evr := rfl
@[simp] theorem modPins_fcr : (modPins f s).fcr = s.fcr := rfl
@[simp] theorem modPins_thm : (modPins f s).thm = s.thm := rfl
@[simp] theorem modPins_intc : (modPins f s).intc = s.intc := rfl
@[simp] theorem modPins_watch : (modPins f s).watch = s.watch := rfl
@[simp] theorem modPins_memp : (modPins f s).memp = s.memp := rfl
@[simp] theorem modPins_dma : (modPins f s).dma = s.dma := rfl
@[simp] theorem modPins_bac : (modPins f s).bac = s.bac := rfl
@[simp] theorem modPins_sys : (modPins f s).sys = s.sys := rfl
@[simp] theorem modPins_clk : (modPins f s).clk = s.clk := rfl
@[simp] theorem modPins_pwr : (modPins f s).pwr = s.pwr := rfl
@[simp] theorem modPins_span : (modPins f s).span = s.span := rfl
@[simp] theorem modPins_store : (modPins f s).store = s.store := rfl
@[simp] theorem modPins_ports : (modPins f s).ports = s.ports := rfl
@[simp] theorem modPins_xpt : (modPins f s).xpt = s.xpt := rfl
@[simp] theorem modPins_tables : (modPins f s).tables = s.tables := rfl
@[simp] theorem modPins_tasks : (modPins f s).tasks = s.tasks := rfl
@[simp] theorem modPins_ctrls : (modPins f s).ctrls = s.ctrls := rfl
@[simp] theorem modPins_mgmt : (modPins f s).mgmt = s.mgmt := rfl
@[simp] theorem modPins_piers : (modPins f s).piers = s.piers := rfl
@[simp] theorem modPins_media : (modPins f s).media = s.media := rfl
@[simp] theorem modPins_ciph : (modPins f s).ciph = s.ciph := rfl
@[simp] theorem modPins_vct : (modPins f s).vct = s.vct := rfl
@[simp] theorem modPins_drcs : (modPins f s).drcs = s.drcs := rfl
@[simp] theorem modPins_mem : (modPins f s).mem = s.mem := rfl
@[simp] theorem modPins_poison : (modPins f s).poison = s.poison := rfl
@[simp] theorem modPins_unc : (modPins f s).unc = s.unc := rfl
@[simp] theorem modPins_pending : (modPins f s).pending = s.pending := rfl

@[simp] theorem modPins_pins : (modPins f s).pins = f s.pins := rfl

end modPins_laws

/-! ## modXpt -/

section modXpt_laws
variable (f : Xpt → Xpt) (s : State)

@[simp] theorem modXpt_varB : (modXpt f s).varB = s.varB := rfl
@[simp] theorem modXpt_draws : (modXpt f s).draws = s.draws := rfl
@[simp] theorem modXpt_now : (modXpt f s).now = s.now := rfl
@[simp] theorem modXpt_bus : (modXpt f s).bus = s.bus := rfl
@[simp] theorem modXpt_latch : (modXpt f s).latch = s.latch := rfl
@[simp] theorem modXpt_reel : (modXpt f s).reel = s.reel := rfl
@[simp] theorem modXpt_spindles : (modXpt f s).spindles = s.spindles := rfl
@[simp] theorem modXpt_lanes : (modXpt f s).lanes = s.lanes := rfl
@[simp] theorem modXpt_cores : (modXpt f s).cores = s.cores := rfl
@[simp] theorem modXpt_evr : (modXpt f s).evr = s.evr := rfl
@[simp] theorem modXpt_fcr : (modXpt f s).fcr = s.fcr := rfl
@[simp] theorem modXpt_thm : (modXpt f s).thm = s.thm := rfl
@[simp] theorem modXpt_intc : (modXpt f s).intc = s.intc := rfl
@[simp] theorem modXpt_watch : (modXpt f s).watch = s.watch := rfl
@[simp] theorem modXpt_memp : (modXpt f s).memp = s.memp := rfl
@[simp] theorem modXpt_dma : (modXpt f s).dma = s.dma := rfl
@[simp] theorem modXpt_bac : (modXpt f s).bac = s.bac := rfl
@[simp] theorem modXpt_sys : (modXpt f s).sys = s.sys := rfl
@[simp] theorem modXpt_clk : (modXpt f s).clk = s.clk := rfl
@[simp] theorem modXpt_pwr : (modXpt f s).pwr = s.pwr := rfl
@[simp] theorem modXpt_span : (modXpt f s).span = s.span := rfl
@[simp] theorem modXpt_store : (modXpt f s).store = s.store := rfl
@[simp] theorem modXpt_pins : (modXpt f s).pins = s.pins := rfl
@[simp] theorem modXpt_ports : (modXpt f s).ports = s.ports := rfl
@[simp] theorem modXpt_tables : (modXpt f s).tables = s.tables := rfl
@[simp] theorem modXpt_tasks : (modXpt f s).tasks = s.tasks := rfl
@[simp] theorem modXpt_ctrls : (modXpt f s).ctrls = s.ctrls := rfl
@[simp] theorem modXpt_mgmt : (modXpt f s).mgmt = s.mgmt := rfl
@[simp] theorem modXpt_piers : (modXpt f s).piers = s.piers := rfl
@[simp] theorem modXpt_media : (modXpt f s).media = s.media := rfl
@[simp] theorem modXpt_ciph : (modXpt f s).ciph = s.ciph := rfl
@[simp] theorem modXpt_vct : (modXpt f s).vct = s.vct := rfl
@[simp] theorem modXpt_drcs : (modXpt f s).drcs = s.drcs := rfl
@[simp] theorem modXpt_mem : (modXpt f s).mem = s.mem := rfl
@[simp] theorem modXpt_poison : (modXpt f s).poison = s.poison := rfl
@[simp] theorem modXpt_unc : (modXpt f s).unc = s.unc := rfl
@[simp] theorem modXpt_pending : (modXpt f s).pending = s.pending := rfl

@[simp] theorem modXpt_xpt : (modXpt f s).xpt = f s.xpt := rfl

end modXpt_laws

/-! ## modTables -/

section modTables_laws
variable (f : Tables → Tables) (s : State)

@[simp] theorem modTables_varB : (modTables f s).varB = s.varB := rfl
@[simp] theorem modTables_draws : (modTables f s).draws = s.draws := rfl
@[simp] theorem modTables_now : (modTables f s).now = s.now := rfl
@[simp] theorem modTables_bus : (modTables f s).bus = s.bus := rfl
@[simp] theorem modTables_latch : (modTables f s).latch = s.latch := rfl
@[simp] theorem modTables_reel : (modTables f s).reel = s.reel := rfl
@[simp] theorem modTables_spindles : (modTables f s).spindles = s.spindles := rfl
@[simp] theorem modTables_lanes : (modTables f s).lanes = s.lanes := rfl
@[simp] theorem modTables_cores : (modTables f s).cores = s.cores := rfl
@[simp] theorem modTables_evr : (modTables f s).evr = s.evr := rfl
@[simp] theorem modTables_fcr : (modTables f s).fcr = s.fcr := rfl
@[simp] theorem modTables_thm : (modTables f s).thm = s.thm := rfl
@[simp] theorem modTables_intc : (modTables f s).intc = s.intc := rfl
@[simp] theorem modTables_watch : (modTables f s).watch = s.watch := rfl
@[simp] theorem modTables_memp : (modTables f s).memp = s.memp := rfl
@[simp] theorem modTables_dma : (modTables f s).dma = s.dma := rfl
@[simp] theorem modTables_bac : (modTables f s).bac = s.bac := rfl
@[simp] theorem modTables_sys : (modTables f s).sys = s.sys := rfl
@[simp] theorem modTables_clk : (modTables f s).clk = s.clk := rfl
@[simp] theorem modTables_pwr : (modTables f s).pwr = s.pwr := rfl
@[simp] theorem modTables_span : (modTables f s).span = s.span := rfl
@[simp] theorem modTables_store : (modTables f s).store = s.store := rfl
@[simp] theorem modTables_pins : (modTables f s).pins = s.pins := rfl
@[simp] theorem modTables_ports : (modTables f s).ports = s.ports := rfl
@[simp] theorem modTables_xpt : (modTables f s).xpt = s.xpt := rfl
@[simp] theorem modTables_tasks : (modTables f s).tasks = s.tasks := rfl
@[simp] theorem modTables_ctrls : (modTables f s).ctrls = s.ctrls := rfl
@[simp] theorem modTables_mgmt : (modTables f s).mgmt = s.mgmt := rfl
@[simp] theorem modTables_piers : (modTables f s).piers = s.piers := rfl
@[simp] theorem modTables_media : (modTables f s).media = s.media := rfl
@[simp] theorem modTables_ciph : (modTables f s).ciph = s.ciph := rfl
@[simp] theorem modTables_vct : (modTables f s).vct = s.vct := rfl
@[simp] theorem modTables_drcs : (modTables f s).drcs = s.drcs := rfl
@[simp] theorem modTables_mem : (modTables f s).mem = s.mem := rfl
@[simp] theorem modTables_poison : (modTables f s).poison = s.poison := rfl
@[simp] theorem modTables_unc : (modTables f s).unc = s.unc := rfl
@[simp] theorem modTables_pending : (modTables f s).pending = s.pending := rfl

@[simp] theorem modTables_tables : (modTables f s).tables = f s.tables := rfl

end modTables_laws

/-! ## modMgmt -/

section modMgmt_laws
variable (f : Mgmt → Mgmt) (s : State)

@[simp] theorem modMgmt_varB : (modMgmt f s).varB = s.varB := rfl
@[simp] theorem modMgmt_draws : (modMgmt f s).draws = s.draws := rfl
@[simp] theorem modMgmt_now : (modMgmt f s).now = s.now := rfl
@[simp] theorem modMgmt_bus : (modMgmt f s).bus = s.bus := rfl
@[simp] theorem modMgmt_latch : (modMgmt f s).latch = s.latch := rfl
@[simp] theorem modMgmt_reel : (modMgmt f s).reel = s.reel := rfl
@[simp] theorem modMgmt_spindles : (modMgmt f s).spindles = s.spindles := rfl
@[simp] theorem modMgmt_lanes : (modMgmt f s).lanes = s.lanes := rfl
@[simp] theorem modMgmt_cores : (modMgmt f s).cores = s.cores := rfl
@[simp] theorem modMgmt_evr : (modMgmt f s).evr = s.evr := rfl
@[simp] theorem modMgmt_fcr : (modMgmt f s).fcr = s.fcr := rfl
@[simp] theorem modMgmt_thm : (modMgmt f s).thm = s.thm := rfl
@[simp] theorem modMgmt_intc : (modMgmt f s).intc = s.intc := rfl
@[simp] theorem modMgmt_watch : (modMgmt f s).watch = s.watch := rfl
@[simp] theorem modMgmt_memp : (modMgmt f s).memp = s.memp := rfl
@[simp] theorem modMgmt_dma : (modMgmt f s).dma = s.dma := rfl
@[simp] theorem modMgmt_bac : (modMgmt f s).bac = s.bac := rfl
@[simp] theorem modMgmt_sys : (modMgmt f s).sys = s.sys := rfl
@[simp] theorem modMgmt_clk : (modMgmt f s).clk = s.clk := rfl
@[simp] theorem modMgmt_pwr : (modMgmt f s).pwr = s.pwr := rfl
@[simp] theorem modMgmt_span : (modMgmt f s).span = s.span := rfl
@[simp] theorem modMgmt_store : (modMgmt f s).store = s.store := rfl
@[simp] theorem modMgmt_pins : (modMgmt f s).pins = s.pins := rfl
@[simp] theorem modMgmt_ports : (modMgmt f s).ports = s.ports := rfl
@[simp] theorem modMgmt_xpt : (modMgmt f s).xpt = s.xpt := rfl
@[simp] theorem modMgmt_tables : (modMgmt f s).tables = s.tables := rfl
@[simp] theorem modMgmt_tasks : (modMgmt f s).tasks = s.tasks := rfl
@[simp] theorem modMgmt_ctrls : (modMgmt f s).ctrls = s.ctrls := rfl
@[simp] theorem modMgmt_piers : (modMgmt f s).piers = s.piers := rfl
@[simp] theorem modMgmt_media : (modMgmt f s).media = s.media := rfl
@[simp] theorem modMgmt_ciph : (modMgmt f s).ciph = s.ciph := rfl
@[simp] theorem modMgmt_vct : (modMgmt f s).vct = s.vct := rfl
@[simp] theorem modMgmt_drcs : (modMgmt f s).drcs = s.drcs := rfl
@[simp] theorem modMgmt_mem : (modMgmt f s).mem = s.mem := rfl
@[simp] theorem modMgmt_poison : (modMgmt f s).poison = s.poison := rfl
@[simp] theorem modMgmt_unc : (modMgmt f s).unc = s.unc := rfl
@[simp] theorem modMgmt_pending : (modMgmt f s).pending = s.pending := rfl

@[simp] theorem modMgmt_mgmt : (modMgmt f s).mgmt = f s.mgmt := rfl

end modMgmt_laws

/-! ## modPiers -/

section modPiers_laws
variable (f : Piers → Piers) (s : State)

@[simp] theorem modPiers_varB : (modPiers f s).varB = s.varB := rfl
@[simp] theorem modPiers_draws : (modPiers f s).draws = s.draws := rfl
@[simp] theorem modPiers_now : (modPiers f s).now = s.now := rfl
@[simp] theorem modPiers_bus : (modPiers f s).bus = s.bus := rfl
@[simp] theorem modPiers_latch : (modPiers f s).latch = s.latch := rfl
@[simp] theorem modPiers_reel : (modPiers f s).reel = s.reel := rfl
@[simp] theorem modPiers_spindles : (modPiers f s).spindles = s.spindles := rfl
@[simp] theorem modPiers_lanes : (modPiers f s).lanes = s.lanes := rfl
@[simp] theorem modPiers_cores : (modPiers f s).cores = s.cores := rfl
@[simp] theorem modPiers_evr : (modPiers f s).evr = s.evr := rfl
@[simp] theorem modPiers_fcr : (modPiers f s).fcr = s.fcr := rfl
@[simp] theorem modPiers_thm : (modPiers f s).thm = s.thm := rfl
@[simp] theorem modPiers_intc : (modPiers f s).intc = s.intc := rfl
@[simp] theorem modPiers_watch : (modPiers f s).watch = s.watch := rfl
@[simp] theorem modPiers_memp : (modPiers f s).memp = s.memp := rfl
@[simp] theorem modPiers_dma : (modPiers f s).dma = s.dma := rfl
@[simp] theorem modPiers_bac : (modPiers f s).bac = s.bac := rfl
@[simp] theorem modPiers_sys : (modPiers f s).sys = s.sys := rfl
@[simp] theorem modPiers_clk : (modPiers f s).clk = s.clk := rfl
@[simp] theorem modPiers_pwr : (modPiers f s).pwr = s.pwr := rfl
@[simp] theorem modPiers_span : (modPiers f s).span = s.span := rfl
@[simp] theorem modPiers_store : (modPiers f s).store = s.store := rfl
@[simp] theorem modPiers_pins : (modPiers f s).pins = s.pins := rfl
@[simp] theorem modPiers_ports : (modPiers f s).ports = s.ports := rfl
@[simp] theorem modPiers_xpt : (modPiers f s).xpt = s.xpt := rfl
@[simp] theorem modPiers_tables : (modPiers f s).tables = s.tables := rfl
@[simp] theorem modPiers_tasks : (modPiers f s).tasks = s.tasks := rfl
@[simp] theorem modPiers_ctrls : (modPiers f s).ctrls = s.ctrls := rfl
@[simp] theorem modPiers_mgmt : (modPiers f s).mgmt = s.mgmt := rfl
@[simp] theorem modPiers_media : (modPiers f s).media = s.media := rfl
@[simp] theorem modPiers_ciph : (modPiers f s).ciph = s.ciph := rfl
@[simp] theorem modPiers_vct : (modPiers f s).vct = s.vct := rfl
@[simp] theorem modPiers_drcs : (modPiers f s).drcs = s.drcs := rfl
@[simp] theorem modPiers_mem : (modPiers f s).mem = s.mem := rfl
@[simp] theorem modPiers_poison : (modPiers f s).poison = s.poison := rfl
@[simp] theorem modPiers_unc : (modPiers f s).unc = s.unc := rfl
@[simp] theorem modPiers_pending : (modPiers f s).pending = s.pending := rfl

@[simp] theorem modPiers_piers : (modPiers f s).piers = f s.piers := rfl

end modPiers_laws

/-! ## modMedia -/

section modMedia_laws
variable (f : Media → Media) (s : State)

@[simp] theorem modMedia_varB : (modMedia f s).varB = s.varB := rfl
@[simp] theorem modMedia_draws : (modMedia f s).draws = s.draws := rfl
@[simp] theorem modMedia_now : (modMedia f s).now = s.now := rfl
@[simp] theorem modMedia_bus : (modMedia f s).bus = s.bus := rfl
@[simp] theorem modMedia_latch : (modMedia f s).latch = s.latch := rfl
@[simp] theorem modMedia_reel : (modMedia f s).reel = s.reel := rfl
@[simp] theorem modMedia_spindles : (modMedia f s).spindles = s.spindles := rfl
@[simp] theorem modMedia_lanes : (modMedia f s).lanes = s.lanes := rfl
@[simp] theorem modMedia_cores : (modMedia f s).cores = s.cores := rfl
@[simp] theorem modMedia_evr : (modMedia f s).evr = s.evr := rfl
@[simp] theorem modMedia_fcr : (modMedia f s).fcr = s.fcr := rfl
@[simp] theorem modMedia_thm : (modMedia f s).thm = s.thm := rfl
@[simp] theorem modMedia_intc : (modMedia f s).intc = s.intc := rfl
@[simp] theorem modMedia_watch : (modMedia f s).watch = s.watch := rfl
@[simp] theorem modMedia_memp : (modMedia f s).memp = s.memp := rfl
@[simp] theorem modMedia_dma : (modMedia f s).dma = s.dma := rfl
@[simp] theorem modMedia_bac : (modMedia f s).bac = s.bac := rfl
@[simp] theorem modMedia_sys : (modMedia f s).sys = s.sys := rfl
@[simp] theorem modMedia_clk : (modMedia f s).clk = s.clk := rfl
@[simp] theorem modMedia_pwr : (modMedia f s).pwr = s.pwr := rfl
@[simp] theorem modMedia_span : (modMedia f s).span = s.span := rfl
@[simp] theorem modMedia_store : (modMedia f s).store = s.store := rfl
@[simp] theorem modMedia_pins : (modMedia f s).pins = s.pins := rfl
@[simp] theorem modMedia_ports : (modMedia f s).ports = s.ports := rfl
@[simp] theorem modMedia_xpt : (modMedia f s).xpt = s.xpt := rfl
@[simp] theorem modMedia_tables : (modMedia f s).tables = s.tables := rfl
@[simp] theorem modMedia_tasks : (modMedia f s).tasks = s.tasks := rfl
@[simp] theorem modMedia_ctrls : (modMedia f s).ctrls = s.ctrls := rfl
@[simp] theorem modMedia_mgmt : (modMedia f s).mgmt = s.mgmt := rfl
@[simp] theorem modMedia_piers : (modMedia f s).piers = s.piers := rfl
@[simp] theorem modMedia_ciph : (modMedia f s).ciph = s.ciph := rfl
@[simp] theorem modMedia_vct : (modMedia f s).vct = s.vct := rfl
@[simp] theorem modMedia_drcs : (modMedia f s).drcs = s.drcs := rfl
@[simp] theorem modMedia_mem : (modMedia f s).mem = s.mem := rfl
@[simp] theorem modMedia_poison : (modMedia f s).poison = s.poison := rfl
@[simp] theorem modMedia_unc : (modMedia f s).unc = s.unc := rfl
@[simp] theorem modMedia_pending : (modMedia f s).pending = s.pending := rfl

@[simp] theorem modMedia_media : (modMedia f s).media = f s.media := rfl

end modMedia_laws

/-! ## modCiph -/

section modCiph_laws
variable (f : Ciph → Ciph) (s : State)

@[simp] theorem modCiph_varB : (modCiph f s).varB = s.varB := rfl
@[simp] theorem modCiph_draws : (modCiph f s).draws = s.draws := rfl
@[simp] theorem modCiph_now : (modCiph f s).now = s.now := rfl
@[simp] theorem modCiph_bus : (modCiph f s).bus = s.bus := rfl
@[simp] theorem modCiph_latch : (modCiph f s).latch = s.latch := rfl
@[simp] theorem modCiph_reel : (modCiph f s).reel = s.reel := rfl
@[simp] theorem modCiph_spindles : (modCiph f s).spindles = s.spindles := rfl
@[simp] theorem modCiph_lanes : (modCiph f s).lanes = s.lanes := rfl
@[simp] theorem modCiph_cores : (modCiph f s).cores = s.cores := rfl
@[simp] theorem modCiph_evr : (modCiph f s).evr = s.evr := rfl
@[simp] theorem modCiph_fcr : (modCiph f s).fcr = s.fcr := rfl
@[simp] theorem modCiph_thm : (modCiph f s).thm = s.thm := rfl
@[simp] theorem modCiph_intc : (modCiph f s).intc = s.intc := rfl
@[simp] theorem modCiph_watch : (modCiph f s).watch = s.watch := rfl
@[simp] theorem modCiph_memp : (modCiph f s).memp = s.memp := rfl
@[simp] theorem modCiph_dma : (modCiph f s).dma = s.dma := rfl
@[simp] theorem modCiph_bac : (modCiph f s).bac = s.bac := rfl
@[simp] theorem modCiph_sys : (modCiph f s).sys = s.sys := rfl
@[simp] theorem modCiph_clk : (modCiph f s).clk = s.clk := rfl
@[simp] theorem modCiph_pwr : (modCiph f s).pwr = s.pwr := rfl
@[simp] theorem modCiph_span : (modCiph f s).span = s.span := rfl
@[simp] theorem modCiph_store : (modCiph f s).store = s.store := rfl
@[simp] theorem modCiph_pins : (modCiph f s).pins = s.pins := rfl
@[simp] theorem modCiph_ports : (modCiph f s).ports = s.ports := rfl
@[simp] theorem modCiph_xpt : (modCiph f s).xpt = s.xpt := rfl
@[simp] theorem modCiph_tables : (modCiph f s).tables = s.tables := rfl
@[simp] theorem modCiph_tasks : (modCiph f s).tasks = s.tasks := rfl
@[simp] theorem modCiph_ctrls : (modCiph f s).ctrls = s.ctrls := rfl
@[simp] theorem modCiph_mgmt : (modCiph f s).mgmt = s.mgmt := rfl
@[simp] theorem modCiph_piers : (modCiph f s).piers = s.piers := rfl
@[simp] theorem modCiph_media : (modCiph f s).media = s.media := rfl
@[simp] theorem modCiph_vct : (modCiph f s).vct = s.vct := rfl
@[simp] theorem modCiph_drcs : (modCiph f s).drcs = s.drcs := rfl
@[simp] theorem modCiph_mem : (modCiph f s).mem = s.mem := rfl
@[simp] theorem modCiph_poison : (modCiph f s).poison = s.poison := rfl
@[simp] theorem modCiph_unc : (modCiph f s).unc = s.unc := rfl
@[simp] theorem modCiph_pending : (modCiph f s).pending = s.pending := rfl

@[simp] theorem modCiph_ciph : (modCiph f s).ciph = f s.ciph := rfl

end modCiph_laws

/-! ## modVct -/

section modVct_laws
variable (f : Vct → Vct) (s : State)

@[simp] theorem modVct_varB : (modVct f s).varB = s.varB := rfl
@[simp] theorem modVct_draws : (modVct f s).draws = s.draws := rfl
@[simp] theorem modVct_now : (modVct f s).now = s.now := rfl
@[simp] theorem modVct_bus : (modVct f s).bus = s.bus := rfl
@[simp] theorem modVct_latch : (modVct f s).latch = s.latch := rfl
@[simp] theorem modVct_reel : (modVct f s).reel = s.reel := rfl
@[simp] theorem modVct_spindles : (modVct f s).spindles = s.spindles := rfl
@[simp] theorem modVct_lanes : (modVct f s).lanes = s.lanes := rfl
@[simp] theorem modVct_cores : (modVct f s).cores = s.cores := rfl
@[simp] theorem modVct_evr : (modVct f s).evr = s.evr := rfl
@[simp] theorem modVct_fcr : (modVct f s).fcr = s.fcr := rfl
@[simp] theorem modVct_thm : (modVct f s).thm = s.thm := rfl
@[simp] theorem modVct_intc : (modVct f s).intc = s.intc := rfl
@[simp] theorem modVct_watch : (modVct f s).watch = s.watch := rfl
@[simp] theorem modVct_memp : (modVct f s).memp = s.memp := rfl
@[simp] theorem modVct_dma : (modVct f s).dma = s.dma := rfl
@[simp] theorem modVct_bac : (modVct f s).bac = s.bac := rfl
@[simp] theorem modVct_sys : (modVct f s).sys = s.sys := rfl
@[simp] theorem modVct_clk : (modVct f s).clk = s.clk := rfl
@[simp] theorem modVct_pwr : (modVct f s).pwr = s.pwr := rfl
@[simp] theorem modVct_span : (modVct f s).span = s.span := rfl
@[simp] theorem modVct_store : (modVct f s).store = s.store := rfl
@[simp] theorem modVct_pins : (modVct f s).pins = s.pins := rfl
@[simp] theorem modVct_ports : (modVct f s).ports = s.ports := rfl
@[simp] theorem modVct_xpt : (modVct f s).xpt = s.xpt := rfl
@[simp] theorem modVct_tables : (modVct f s).tables = s.tables := rfl
@[simp] theorem modVct_tasks : (modVct f s).tasks = s.tasks := rfl
@[simp] theorem modVct_ctrls : (modVct f s).ctrls = s.ctrls := rfl
@[simp] theorem modVct_mgmt : (modVct f s).mgmt = s.mgmt := rfl
@[simp] theorem modVct_piers : (modVct f s).piers = s.piers := rfl
@[simp] theorem modVct_media : (modVct f s).media = s.media := rfl
@[simp] theorem modVct_ciph : (modVct f s).ciph = s.ciph := rfl
@[simp] theorem modVct_drcs : (modVct f s).drcs = s.drcs := rfl
@[simp] theorem modVct_mem : (modVct f s).mem = s.mem := rfl
@[simp] theorem modVct_poison : (modVct f s).poison = s.poison := rfl
@[simp] theorem modVct_unc : (modVct f s).unc = s.unc := rfl
@[simp] theorem modVct_pending : (modVct f s).pending = s.pending := rfl

@[simp] theorem modVct_vct : (modVct f s).vct = f s.vct := rfl

end modVct_laws

/-! ## modSpn -/

section modSpn_laws
variable (n : Nat) (f : Spindle → Spindle) (s : State)

@[simp] theorem modSpn_varB : (modSpn n f s).varB = s.varB := rfl
@[simp] theorem modSpn_draws : (modSpn n f s).draws = s.draws := rfl
@[simp] theorem modSpn_now : (modSpn n f s).now = s.now := rfl
@[simp] theorem modSpn_bus : (modSpn n f s).bus = s.bus := rfl
@[simp] theorem modSpn_latch : (modSpn n f s).latch = s.latch := rfl
@[simp] theorem modSpn_reel : (modSpn n f s).reel = s.reel := rfl
@[simp] theorem modSpn_lanes : (modSpn n f s).lanes = s.lanes := rfl
@[simp] theorem modSpn_cores : (modSpn n f s).cores = s.cores := rfl
@[simp] theorem modSpn_evr : (modSpn n f s).evr = s.evr := rfl
@[simp] theorem modSpn_fcr : (modSpn n f s).fcr = s.fcr := rfl
@[simp] theorem modSpn_thm : (modSpn n f s).thm = s.thm := rfl
@[simp] theorem modSpn_intc : (modSpn n f s).intc = s.intc := rfl
@[simp] theorem modSpn_watch : (modSpn n f s).watch = s.watch := rfl
@[simp] theorem modSpn_memp : (modSpn n f s).memp = s.memp := rfl
@[simp] theorem modSpn_dma : (modSpn n f s).dma = s.dma := rfl
@[simp] theorem modSpn_bac : (modSpn n f s).bac = s.bac := rfl
@[simp] theorem modSpn_sys : (modSpn n f s).sys = s.sys := rfl
@[simp] theorem modSpn_clk : (modSpn n f s).clk = s.clk := rfl
@[simp] theorem modSpn_pwr : (modSpn n f s).pwr = s.pwr := rfl
@[simp] theorem modSpn_span : (modSpn n f s).span = s.span := rfl
@[simp] theorem modSpn_store : (modSpn n f s).store = s.store := rfl
@[simp] theorem modSpn_pins : (modSpn n f s).pins = s.pins := rfl
@[simp] theorem modSpn_ports : (modSpn n f s).ports = s.ports := rfl
@[simp] theorem modSpn_xpt : (modSpn n f s).xpt = s.xpt := rfl
@[simp] theorem modSpn_tables : (modSpn n f s).tables = s.tables := rfl
@[simp] theorem modSpn_tasks : (modSpn n f s).tasks = s.tasks := rfl
@[simp] theorem modSpn_ctrls : (modSpn n f s).ctrls = s.ctrls := rfl
@[simp] theorem modSpn_mgmt : (modSpn n f s).mgmt = s.mgmt := rfl
@[simp] theorem modSpn_piers : (modSpn n f s).piers = s.piers := rfl
@[simp] theorem modSpn_media : (modSpn n f s).media = s.media := rfl
@[simp] theorem modSpn_ciph : (modSpn n f s).ciph = s.ciph := rfl
@[simp] theorem modSpn_vct : (modSpn n f s).vct = s.vct := rfl
@[simp] theorem modSpn_drcs : (modSpn n f s).drcs = s.drcs := rfl
@[simp] theorem modSpn_mem : (modSpn n f s).mem = s.mem := rfl
@[simp] theorem modSpn_poison : (modSpn n f s).poison = s.poison := rfl
@[simp] theorem modSpn_unc : (modSpn n f s).unc = s.unc := rfl
@[simp] theorem modSpn_pending : (modSpn n f s).pending = s.pending := rfl

@[simp] theorem spn_modSpn_same : spn (modSpn n f s) n = f (spn s n) := mget_mmod_same _ _ _ _
theorem spn_modSpn_other {m : Nat} (h : m ≠ n) : spn (modSpn n f s) m = spn s m := mget_mmod_other _ h _ _

end modSpn_laws

/-! ## modLane -/

section modLane_laws
variable (n : Nat) (f : Lane → Lane) (s : State)

@[simp] theorem modLane_varB : (modLane n f s).varB = s.varB := rfl
@[simp] theorem modLane_draws : (modLane n f s).draws = s.draws := rfl
@[simp] theorem modLane_now : (modLane n f s).now = s.now := rfl
@[simp] theorem modLane_bus : (modLane n f s).bus = s.bus := rfl
@[simp] theorem modLane_latch : (modLane n f s).latch = s.latch := rfl
@[simp] theorem modLane_reel : (modLane n f s).reel = s.reel := rfl
@[simp] theorem modLane_spindles : (modLane n f s).spindles = s.spindles := rfl
@[simp] theorem modLane_cores : (modLane n f s).cores = s.cores := rfl
@[simp] theorem modLane_evr : (modLane n f s).evr = s.evr := rfl
@[simp] theorem modLane_fcr : (modLane n f s).fcr = s.fcr := rfl
@[simp] theorem modLane_thm : (modLane n f s).thm = s.thm := rfl
@[simp] theorem modLane_intc : (modLane n f s).intc = s.intc := rfl
@[simp] theorem modLane_watch : (modLane n f s).watch = s.watch := rfl
@[simp] theorem modLane_memp : (modLane n f s).memp = s.memp := rfl
@[simp] theorem modLane_dma : (modLane n f s).dma = s.dma := rfl
@[simp] theorem modLane_bac : (modLane n f s).bac = s.bac := rfl
@[simp] theorem modLane_sys : (modLane n f s).sys = s.sys := rfl
@[simp] theorem modLane_clk : (modLane n f s).clk = s.clk := rfl
@[simp] theorem modLane_pwr : (modLane n f s).pwr = s.pwr := rfl
@[simp] theorem modLane_span : (modLane n f s).span = s.span := rfl
@[simp] theorem modLane_store : (modLane n f s).store = s.store := rfl
@[simp] theorem modLane_pins : (modLane n f s).pins = s.pins := rfl
@[simp] theorem modLane_ports : (modLane n f s).ports = s.ports := rfl
@[simp] theorem modLane_xpt : (modLane n f s).xpt = s.xpt := rfl
@[simp] theorem modLane_tables : (modLane n f s).tables = s.tables := rfl
@[simp] theorem modLane_tasks : (modLane n f s).tasks = s.tasks := rfl
@[simp] theorem modLane_ctrls : (modLane n f s).ctrls = s.ctrls := rfl
@[simp] theorem modLane_mgmt : (modLane n f s).mgmt = s.mgmt := rfl
@[simp] theorem modLane_piers : (modLane n f s).piers = s.piers := rfl
@[simp] theorem modLane_media : (modLane n f s).media = s.media := rfl
@[simp] theorem modLane_ciph : (modLane n f s).ciph = s.ciph := rfl
@[simp] theorem modLane_vct : (modLane n f s).vct = s.vct := rfl
@[simp] theorem modLane_drcs : (modLane n f s).drcs = s.drcs := rfl
@[simp] theorem modLane_mem : (modLane n f s).mem = s.mem := rfl
@[simp] theorem modLane_poison : (modLane n f s).poison = s.poison := rfl
@[simp] theorem modLane_unc : (modLane n f s).unc = s.unc := rfl
@[simp] theorem modLane_pending : (modLane n f s).pending = s.pending := rfl

@[simp] theorem lane_modLane_same : lane (modLane n f s) n = f (lane s n) := mget_mmod_same _ _ _ _
theorem lane_modLane_other {m : Nat} (h : m ≠ n) : lane (modLane n f s) m = lane s m := mget_mmod_other _ h _ _

end modLane_laws

/-! ## modCore -/

section modCore_laws
variable (n : Nat) (f : CoreSt → CoreSt) (s : State)

@[simp] theorem modCore_varB : (modCore n f s).varB = s.varB := rfl
@[simp] theorem modCore_draws : (modCore n f s).draws = s.draws := rfl
@[simp] theorem modCore_now : (modCore n f s).now = s.now := rfl
@[simp] theorem modCore_bus : (modCore n f s).bus = s.bus := rfl
@[simp] theorem modCore_latch : (modCore n f s).latch = s.latch := rfl
@[simp] theorem modCore_reel : (modCore n f s).reel = s.reel := rfl
@[simp] theorem modCore_spindles : (modCore n f s).spindles = s.spindles := rfl
@[simp] theorem modCore_lanes : (modCore n f s).lanes = s.lanes := rfl
@[simp] theorem modCore_evr : (modCore n f s).evr = s.evr := rfl
@[simp] theorem modCore_fcr : (modCore n f s).fcr = s.fcr := rfl
@[simp] theorem modCore_thm : (modCore n f s).thm = s.thm := rfl
@[simp] theorem modCore_intc : (modCore n f s).intc = s.intc := rfl
@[simp] theorem modCore_watch : (modCore n f s).watch = s.watch := rfl
@[simp] theorem modCore_memp : (modCore n f s).memp = s.memp := rfl
@[simp] theorem modCore_dma : (modCore n f s).dma = s.dma := rfl
@[simp] theorem modCore_bac : (modCore n f s).bac = s.bac := rfl
@[simp] theorem modCore_sys : (modCore n f s).sys = s.sys := rfl
@[simp] theorem modCore_clk : (modCore n f s).clk = s.clk := rfl
@[simp] theorem modCore_pwr : (modCore n f s).pwr = s.pwr := rfl
@[simp] theorem modCore_span : (modCore n f s).span = s.span := rfl
@[simp] theorem modCore_store : (modCore n f s).store = s.store := rfl
@[simp] theorem modCore_pins : (modCore n f s).pins = s.pins := rfl
@[simp] theorem modCore_ports : (modCore n f s).ports = s.ports := rfl
@[simp] theorem modCore_xpt : (modCore n f s).xpt = s.xpt := rfl
@[simp] theorem modCore_tables : (modCore n f s).tables = s.tables := rfl
@[simp] theorem modCore_tasks : (modCore n f s).tasks = s.tasks := rfl
@[simp] theorem modCore_ctrls : (modCore n f s).ctrls = s.ctrls := rfl
@[simp] theorem modCore_mgmt : (modCore n f s).mgmt = s.mgmt := rfl
@[simp] theorem modCore_piers : (modCore n f s).piers = s.piers := rfl
@[simp] theorem modCore_media : (modCore n f s).media = s.media := rfl
@[simp] theorem modCore_ciph : (modCore n f s).ciph = s.ciph := rfl
@[simp] theorem modCore_vct : (modCore n f s).vct = s.vct := rfl
@[simp] theorem modCore_drcs : (modCore n f s).drcs = s.drcs := rfl
@[simp] theorem modCore_mem : (modCore n f s).mem = s.mem := rfl
@[simp] theorem modCore_poison : (modCore n f s).poison = s.poison := rfl
@[simp] theorem modCore_unc : (modCore n f s).unc = s.unc := rfl
@[simp] theorem modCore_pending : (modCore n f s).pending = s.pending := rfl

@[simp] theorem coreOf_modCore_same : coreOf (modCore n f s) n = f (coreOf s n) := mget_mmod_same _ _ _ _
theorem coreOf_modCore_other {m : Nat} (h : m ≠ n) : coreOf (modCore n f s) m = coreOf s m := mget_mmod_other _ h _ _

end modCore_laws

/-! ## modPort -/

section modPort_laws
variable (n : Nat) (f : Port → Port) (s : State)

@[simp] theorem modPort_varB : (modPort n f s).varB = s.varB := rfl
@[simp] theorem modPort_draws : (modPort n f s).draws = s.draws := rfl
@[simp] theorem modPort_now : (modPort n f s).now = s.now := rfl
@[simp] theorem modPort_bus : (modPort n f s).bus = s.bus := rfl
@[simp] theorem modPort_latch : (modPort n f s).latch = s.latch := rfl
@[simp] theorem modPort_reel : (modPort n f s).reel = s.reel := rfl
@[simp] theorem modPort_spindles : (modPort n f s).spindles = s.spindles := rfl
@[simp] theorem modPort_lanes : (modPort n f s).lanes = s.lanes := rfl
@[simp] theorem modPort_cores : (modPort n f s).cores = s.cores := rfl
@[simp] theorem modPort_evr : (modPort n f s).evr = s.evr := rfl
@[simp] theorem modPort_fcr : (modPort n f s).fcr = s.fcr := rfl
@[simp] theorem modPort_thm : (modPort n f s).thm = s.thm := rfl
@[simp] theorem modPort_intc : (modPort n f s).intc = s.intc := rfl
@[simp] theorem modPort_watch : (modPort n f s).watch = s.watch := rfl
@[simp] theorem modPort_memp : (modPort n f s).memp = s.memp := rfl
@[simp] theorem modPort_dma : (modPort n f s).dma = s.dma := rfl
@[simp] theorem modPort_bac : (modPort n f s).bac = s.bac := rfl
@[simp] theorem modPort_sys : (modPort n f s).sys = s.sys := rfl
@[simp] theorem modPort_clk : (modPort n f s).clk = s.clk := rfl
@[simp] theorem modPort_pwr : (modPort n f s).pwr = s.pwr := rfl
@[simp] theorem modPort_span : (modPort n f s).span = s.span := rfl
@[simp] theorem modPort_store : (modPort n f s).store = s.store := rfl
@[simp] theorem modPort_pins : (modPort n f s).pins = s.pins := rfl
@[simp] theorem modPort_xpt : (modPort n f s).xpt = s.xpt := rfl
@[simp] theorem modPort_tables : (modPort n f s).tables = s.tables := rfl
@[simp] theorem modPort_tasks : (modPort n f s).tasks = s.tasks := rfl
@[simp] theorem modPort_ctrls : (modPort n f s).ctrls = s.ctrls := rfl
@[simp] theorem modPort_mgmt : (modPort n f s).mgmt = s.mgmt := rfl
@[simp] theorem modPort_piers : (modPort n f s).piers = s.piers := rfl
@[simp] theorem modPort_media : (modPort n f s).media = s.media := rfl
@[simp] theorem modPort_ciph : (modPort n f s).ciph = s.ciph := rfl
@[simp] theorem modPort_vct : (modPort n f s).vct = s.vct := rfl
@[simp] theorem modPort_drcs : (modPort n f s).drcs = s.drcs := rfl
@[simp] theorem modPort_mem : (modPort n f s).mem = s.mem := rfl
@[simp] theorem modPort_poison : (modPort n f s).poison = s.poison := rfl
@[simp] theorem modPort_unc : (modPort n f s).unc = s.unc := rfl
@[simp] theorem modPort_pending : (modPort n f s).pending = s.pending := rfl

@[simp] theorem portOf_modPort_same : portOf (modPort n f s) n = f (portOf s n) := mget_mmod_same _ _ _ _
theorem portOf_modPort_other {m : Nat} (h : m ≠ n) : portOf (modPort n f s) m = portOf s m := mget_mmod_other _ h _ _

end modPort_laws

/-! ## modChan -/

section modChan_laws
variable (n : Nat) (f : Chan → Chan) (s : State)

@[simp] theorem modChan_varB : (modChan n f s).varB = s.varB := rfl
@[simp] theorem modChan_draws : (modChan n f s).draws = s.draws := rfl
@[simp] theorem modChan_now : (modChan n f s).now = s.now := rfl
@[simp] theorem modChan_bus : (modChan n f s).bus = s.bus := rfl
@[simp] theorem modChan_latch : (modChan n f s).latch = s.latch := rfl
@[simp] theorem modChan_reel : (modChan n f s).reel = s.reel := rfl
@[simp] theorem modChan_spindles : (modChan n f s).spindles = s.spindles := rfl
@[simp] theorem modChan_lanes : (modChan n f s).lanes = s.lanes := rfl
@[simp] theorem modChan_cores : (modChan n f s).cores = s.cores := rfl
@[simp] theorem modChan_evr : (modChan n f s).evr = s.evr := rfl
@[simp] theorem modChan_fcr : (modChan n f s).fcr = s.fcr := rfl
@[simp] theorem modChan_thm : (modChan n f s).thm = s.thm := rfl
@[simp] theorem modChan_intc : (modChan n f s).intc = s.intc := rfl
@[simp] theorem modChan_watch : (modChan n f s).watch = s.watch := rfl
@[simp] theorem modChan_memp : (modChan n f s).memp = s.memp := rfl
@[simp] theorem modChan_dma : (modChan n f s).dma = s.dma := rfl
@[simp] theorem modChan_bac : (modChan n f s).bac = s.bac := rfl
@[simp] theorem modChan_sys : (modChan n f s).sys = s.sys := rfl
@[simp] theorem modChan_clk : (modChan n f s).clk = s.clk := rfl
@[simp] theorem modChan_pwr : (modChan n f s).pwr = s.pwr := rfl
@[simp] theorem modChan_span : (modChan n f s).span = s.span := rfl
@[simp] theorem modChan_store : (modChan n f s).store = s.store := rfl
@[simp] theorem modChan_pins : (modChan n f s).pins = s.pins := rfl
@[simp] theorem modChan_ports : (modChan n f s).ports = s.ports := rfl
@[simp] theorem modChan_xpt : (modChan n f s).xpt = s.xpt := rfl
@[simp] theorem modChan_tables : (modChan n f s).tables = s.tables := rfl
@[simp] theorem modChan_tasks : (modChan n f s).tasks = s.tasks := rfl
@[simp] theorem modChan_ctrls : (modChan n f s).ctrls = s.ctrls := rfl
@[simp] theorem modChan_mgmt : (modChan n f s).mgmt = s.mgmt := rfl
@[simp] theorem modChan_media : (modChan n f s).media = s.media := rfl
@[simp] theorem modChan_ciph : (modChan n f s).ciph = s.ciph := rfl
@[simp] theorem modChan_vct : (modChan n f s).vct = s.vct := rfl
@[simp] theorem modChan_drcs : (modChan n f s).drcs = s.drcs := rfl
@[simp] theorem modChan_mem : (modChan n f s).mem = s.mem := rfl
@[simp] theorem modChan_poison : (modChan n f s).poison = s.poison := rfl
@[simp] theorem modChan_unc : (modChan n f s).unc = s.unc := rfl
@[simp] theorem modChan_pending : (modChan n f s).pending = s.pending := rfl

@[simp] theorem chan_modChan_same : chan (modChan n f s) n = f (chan s n) := mget_mmod_same _ _ _ _
theorem chan_modChan_other {m : Nat} (h : m ≠ n) : chan (modChan n f s) m = chan s m := mget_mmod_other _ h _ _

end modChan_laws

/-! ## modDrc -/

section modDrc_laws
variable (n : Nat) (f : Drc → Drc) (s : State)

@[simp] theorem modDrc_varB : (modDrc n f s).varB = s.varB := rfl
@[simp] theorem modDrc_draws : (modDrc n f s).draws = s.draws := rfl
@[simp] theorem modDrc_now : (modDrc n f s).now = s.now := rfl
@[simp] theorem modDrc_bus : (modDrc n f s).bus = s.bus := rfl
@[simp] theorem modDrc_latch : (modDrc n f s).latch = s.latch := rfl
@[simp] theorem modDrc_reel : (modDrc n f s).reel = s.reel := rfl
@[simp] theorem modDrc_spindles : (modDrc n f s).spindles = s.spindles := rfl
@[simp] theorem modDrc_lanes : (modDrc n f s).lanes = s.lanes := rfl
@[simp] theorem modDrc_cores : (modDrc n f s).cores = s.cores := rfl
@[simp] theorem modDrc_evr : (modDrc n f s).evr = s.evr := rfl
@[simp] theorem modDrc_fcr : (modDrc n f s).fcr = s.fcr := rfl
@[simp] theorem modDrc_thm : (modDrc n f s).thm = s.thm := rfl
@[simp] theorem modDrc_intc : (modDrc n f s).intc = s.intc := rfl
@[simp] theorem modDrc_watch : (modDrc n f s).watch = s.watch := rfl
@[simp] theorem modDrc_memp : (modDrc n f s).memp = s.memp := rfl
@[simp] theorem modDrc_dma : (modDrc n f s).dma = s.dma := rfl
@[simp] theorem modDrc_bac : (modDrc n f s).bac = s.bac := rfl
@[simp] theorem modDrc_sys : (modDrc n f s).sys = s.sys := rfl
@[simp] theorem modDrc_clk : (modDrc n f s).clk = s.clk := rfl
@[simp] theorem modDrc_pwr : (modDrc n f s).pwr = s.pwr := rfl
@[simp] theorem modDrc_span : (modDrc n f s).span = s.span := rfl
@[simp] theorem modDrc_store : (modDrc n f s).store = s.store := rfl
@[simp] theorem modDrc_pins : (modDrc n f s).pins = s.pins := rfl
@[simp] theorem modDrc_ports : (modDrc n f s).ports = s.ports := rfl
@[simp] theorem modDrc_xpt : (modDrc n f s).xpt = s.xpt := rfl
@[simp] theorem modDrc_tables : (modDrc n f s).tables = s.tables := rfl
@[simp] theorem modDrc_tasks : (modDrc n f s).tasks = s.tasks := rfl
@[simp] theorem modDrc_ctrls : (modDrc n f s).ctrls = s.ctrls := rfl
@[simp] theorem modDrc_mgmt : (modDrc n f s).mgmt = s.mgmt := rfl
@[simp] theorem modDrc_piers : (modDrc n f s).piers = s.piers := rfl
@[simp] theorem modDrc_media : (modDrc n f s).media = s.media := rfl
@[simp] theorem modDrc_ciph : (modDrc n f s).ciph = s.ciph := rfl
@[simp] theorem modDrc_vct : (modDrc n f s).vct = s.vct := rfl
@[simp] theorem modDrc_mem : (modDrc n f s).mem = s.mem := rfl
@[simp] theorem modDrc_poison : (modDrc n f s).poison = s.poison := rfl
@[simp] theorem modDrc_unc : (modDrc n f s).unc = s.unc := rfl
@[simp] theorem modDrc_pending : (modDrc n f s).pending = s.pending := rfl

@[simp] theorem drcOf_modDrc_same : drcOf (modDrc n f s) n = f (drcOf s n) := mget_mmod_same _ _ _ _
theorem drcOf_modDrc_other {m : Nat} (h : m ≠ n) : drcOf (modDrc n f s) m = drcOf s m := mget_mmod_other _ h _ _

end modDrc_laws

/-! ## modDma -/

section modDma_laws
variable (n : Nat) (f : DmaCh → DmaCh) (s : State)

@[simp] theorem modDma_varB : (modDma n f s).varB = s.varB := rfl
@[simp] theorem modDma_draws : (modDma n f s).draws = s.draws := rfl
@[simp] theorem modDma_now : (modDma n f s).now = s.now := rfl
@[simp] theorem modDma_bus : (modDma n f s).bus = s.bus := rfl
@[simp] theorem modDma_latch : (modDma n f s).latch = s.latch := rfl
@[simp] theorem modDma_reel : (modDma n f s).reel = s.reel := rfl
@[simp] theorem modDma_spindles : (modDma n f s).spindles = s.spindles := rfl
@[simp] theorem modDma_lanes : (modDma n f s).lanes = s.lanes := rfl
@[simp] theorem modDma_cores : (modDma n f s).cores = s.cores := rfl
@[simp] theorem modDma_evr : (modDma n f s).evr = s.evr := rfl
@[simp] theorem modDma_fcr : (modDma n f s).fcr = s.fcr := rfl
@[simp] theorem modDma_thm : (modDma n f s).thm = s.thm := rfl
@[simp] theorem modDma_intc : (modDma n f s).intc = s.intc := rfl
@[simp] theorem modDma_watch : (modDma n f s).watch = s.watch := rfl
@[simp] theorem modDma_memp : (modDma n f s).memp = s.memp := rfl
@[simp] theorem modDma_bac : (modDma n f s).bac = s.bac := rfl
@[simp] theorem modDma_sys : (modDma n f s).sys = s.sys := rfl
@[simp] theorem modDma_clk : (modDma n f s).clk = s.clk := rfl
@[simp] theorem modDma_pwr : (modDma n f s).pwr = s.pwr := rfl
@[simp] theorem modDma_span : (modDma n f s).span = s.span := rfl
@[simp] theorem modDma_store : (modDma n f s).store = s.store := rfl
@[simp] theorem modDma_pins : (modDma n f s).pins = s.pins := rfl
@[simp] theorem modDma_ports : (modDma n f s).ports = s.ports := rfl
@[simp] theorem modDma_xpt : (modDma n f s).xpt = s.xpt := rfl
@[simp] theorem modDma_tables : (modDma n f s).tables = s.tables := rfl
@[simp] theorem modDma_tasks : (modDma n f s).tasks = s.tasks := rfl
@[simp] theorem modDma_ctrls : (modDma n f s).ctrls = s.ctrls := rfl
@[simp] theorem modDma_mgmt : (modDma n f s).mgmt = s.mgmt := rfl
@[simp] theorem modDma_piers : (modDma n f s).piers = s.piers := rfl
@[simp] theorem modDma_media : (modDma n f s).media = s.media := rfl
@[simp] theorem modDma_ciph : (modDma n f s).ciph = s.ciph := rfl
@[simp] theorem modDma_vct : (modDma n f s).vct = s.vct := rfl
@[simp] theorem modDma_drcs : (modDma n f s).drcs = s.drcs := rfl
@[simp] theorem modDma_mem : (modDma n f s).mem = s.mem := rfl
@[simp] theorem modDma_poison : (modDma n f s).poison = s.poison := rfl
@[simp] theorem modDma_unc : (modDma n f s).unc = s.unc := rfl
@[simp] theorem modDma_pending : (modDma n f s).pending = s.pending := rfl

@[simp] theorem dmaOf_modDma_same : dmaOf (modDma n f s) n = f (dmaOf s n) := mget_mmod_same _ _ _ _
theorem dmaOf_modDma_other {m : Nat} (h : m ≠ n) : dmaOf (modDma n f s) m = dmaOf s m := mget_mmod_other _ h _ _

end modDma_laws

/-! ## modTask -/

section modTask_laws
variable (n : Nat) (f : TaskSet → TaskSet) (s : State)

@[simp] theorem modTask_varB : (modTask n f s).varB = s.varB := rfl
@[simp] theorem modTask_draws : (modTask n f s).draws = s.draws := rfl
@[simp] theorem modTask_now : (modTask n f s).now = s.now := rfl
@[simp] theorem modTask_bus : (modTask n f s).bus = s.bus := rfl
@[simp] theorem modTask_latch : (modTask n f s).latch = s.latch := rfl
@[simp] theorem modTask_reel : (modTask n f s).reel = s.reel := rfl
@[simp] theorem modTask_spindles : (modTask n f s).spindles = s.spindles := rfl
@[simp] theorem modTask_lanes : (modTask n f s).lanes = s.lanes := rfl
@[simp] theorem modTask_cores : (modTask n f s).cores = s.cores := rfl
@[simp] theorem modTask_evr : (modTask n f s).evr = s.evr := rfl
@[simp] theorem modTask_fcr : (modTask n f s).fcr = s.fcr := rfl
@[simp] theorem modTask_thm : (modTask n f s).thm = s.thm := rfl
@[simp] theorem modTask_intc : (modTask n f s).intc = s.intc := rfl
@[simp] theorem modTask_watch : (modTask n f s).watch = s.watch := rfl
@[simp] theorem modTask_memp : (modTask n f s).memp = s.memp := rfl
@[simp] theorem modTask_dma : (modTask n f s).dma = s.dma := rfl
@[simp] theorem modTask_bac : (modTask n f s).bac = s.bac := rfl
@[simp] theorem modTask_sys : (modTask n f s).sys = s.sys := rfl
@[simp] theorem modTask_clk : (modTask n f s).clk = s.clk := rfl
@[simp] theorem modTask_pwr : (modTask n f s).pwr = s.pwr := rfl
@[simp] theorem modTask_span : (modTask n f s).span = s.span := rfl
@[simp] theorem modTask_store : (modTask n f s).store = s.store := rfl
@[simp] theorem modTask_pins : (modTask n f s).pins = s.pins := rfl
@[simp] theorem modTask_ports : (modTask n f s).ports = s.ports := rfl
@[simp] theorem modTask_xpt : (modTask n f s).xpt = s.xpt := rfl
@[simp] theorem modTask_tables : (modTask n f s).tables = s.tables := rfl
@[simp] theorem modTask_ctrls : (modTask n f s).ctrls = s.ctrls := rfl
@[simp] theorem modTask_mgmt : (modTask n f s).mgmt = s.mgmt := rfl
@[simp] theorem modTask_piers : (modTask n f s).piers = s.piers := rfl
@[simp] theorem modTask_media : (modTask n f s).media = s.media := rfl
@[simp] theorem modTask_ciph : (modTask n f s).ciph = s.ciph := rfl
@[simp] theorem modTask_vct : (modTask n f s).vct = s.vct := rfl
@[simp] theorem modTask_drcs : (modTask n f s).drcs = s.drcs := rfl
@[simp] theorem modTask_mem : (modTask n f s).mem = s.mem := rfl
@[simp] theorem modTask_poison : (modTask n f s).poison = s.poison := rfl
@[simp] theorem modTask_unc : (modTask n f s).unc = s.unc := rfl
@[simp] theorem modTask_pending : (modTask n f s).pending = s.pending := rfl

@[simp] theorem taskOf_modTask_same : taskOf (modTask n f s) n = f (taskOf s n) := mget_mmod_same _ _ _ _
theorem taskOf_modTask_other {m : Nat} (h : m ≠ n) : taskOf (modTask n f s) m = taskOf s m := mget_mmod_other _ h _ _

end modTask_laws

/-! ## modCtrl -/

section modCtrl_laws
variable (n : Nat) (f : Ctrl → Ctrl) (s : State)

@[simp] theorem modCtrl_varB : (modCtrl n f s).varB = s.varB := rfl
@[simp] theorem modCtrl_draws : (modCtrl n f s).draws = s.draws := rfl
@[simp] theorem modCtrl_now : (modCtrl n f s).now = s.now := rfl
@[simp] theorem modCtrl_bus : (modCtrl n f s).bus = s.bus := rfl
@[simp] theorem modCtrl_latch : (modCtrl n f s).latch = s.latch := rfl
@[simp] theorem modCtrl_reel : (modCtrl n f s).reel = s.reel := rfl
@[simp] theorem modCtrl_spindles : (modCtrl n f s).spindles = s.spindles := rfl
@[simp] theorem modCtrl_lanes : (modCtrl n f s).lanes = s.lanes := rfl
@[simp] theorem modCtrl_cores : (modCtrl n f s).cores = s.cores := rfl
@[simp] theorem modCtrl_evr : (modCtrl n f s).evr = s.evr := rfl
@[simp] theorem modCtrl_fcr : (modCtrl n f s).fcr = s.fcr := rfl
@[simp] theorem modCtrl_thm : (modCtrl n f s).thm = s.thm := rfl
@[simp] theorem modCtrl_intc : (modCtrl n f s).intc = s.intc := rfl
@[simp] theorem modCtrl_watch : (modCtrl n f s).watch = s.watch := rfl
@[simp] theorem modCtrl_memp : (modCtrl n f s).memp = s.memp := rfl
@[simp] theorem modCtrl_dma : (modCtrl n f s).dma = s.dma := rfl
@[simp] theorem modCtrl_bac : (modCtrl n f s).bac = s.bac := rfl
@[simp] theorem modCtrl_sys : (modCtrl n f s).sys = s.sys := rfl
@[simp] theorem modCtrl_clk : (modCtrl n f s).clk = s.clk := rfl
@[simp] theorem modCtrl_pwr : (modCtrl n f s).pwr = s.pwr := rfl
@[simp] theorem modCtrl_span : (modCtrl n f s).span = s.span := rfl
@[simp] theorem modCtrl_store : (modCtrl n f s).store = s.store := rfl
@[simp] theorem modCtrl_pins : (modCtrl n f s).pins = s.pins := rfl
@[simp] theorem modCtrl_ports : (modCtrl n f s).ports = s.ports := rfl
@[simp] theorem modCtrl_xpt : (modCtrl n f s).xpt = s.xpt := rfl
@[simp] theorem modCtrl_tables : (modCtrl n f s).tables = s.tables := rfl
@[simp] theorem modCtrl_tasks : (modCtrl n f s).tasks = s.tasks := rfl
@[simp] theorem modCtrl_mgmt : (modCtrl n f s).mgmt = s.mgmt := rfl
@[simp] theorem modCtrl_piers : (modCtrl n f s).piers = s.piers := rfl
@[simp] theorem modCtrl_media : (modCtrl n f s).media = s.media := rfl
@[simp] theorem modCtrl_ciph : (modCtrl n f s).ciph = s.ciph := rfl
@[simp] theorem modCtrl_vct : (modCtrl n f s).vct = s.vct := rfl
@[simp] theorem modCtrl_drcs : (modCtrl n f s).drcs = s.drcs := rfl
@[simp] theorem modCtrl_mem : (modCtrl n f s).mem = s.mem := rfl
@[simp] theorem modCtrl_poison : (modCtrl n f s).poison = s.poison := rfl
@[simp] theorem modCtrl_unc : (modCtrl n f s).unc = s.unc := rfl
@[simp] theorem modCtrl_pending : (modCtrl n f s).pending = s.pending := rfl

@[simp] theorem ctrlOf_modCtrl_same : ctrlOf (modCtrl n f s) n = f (ctrlOf s n) := mget_mmod_same _ _ _ _
theorem ctrlOf_modCtrl_other {m : Nat} (h : m ≠ n) : ctrlOf (modCtrl n f s) m = ctrlOf s m := mget_mmod_other _ h _ _

end modCtrl_laws

/-! ## modCls -/

section modCls_laws
variable (n : Nat) (f : Cls → Cls) (s : State)

@[simp] theorem modCls_varB : (modCls n f s).varB = s.varB := rfl
@[simp] theorem modCls_draws : (modCls n f s).draws = s.draws := rfl
@[simp] theorem modCls_now : (modCls n f s).now = s.now := rfl
@[simp] theorem modCls_bus : (modCls n f s).bus = s.bus := rfl
@[simp] theorem modCls_latch : (modCls n f s).latch = s.latch := rfl
@[simp] theorem modCls_spindles : (modCls n f s).spindles = s.spindles := rfl
@[simp] theorem modCls_lanes : (modCls n f s).lanes = s.lanes := rfl
@[simp] theorem modCls_cores : (modCls n f s).cores = s.cores := rfl
@[simp] theorem modCls_evr : (modCls n f s).evr = s.evr := rfl
@[simp] theorem modCls_fcr : (modCls n f s).fcr = s.fcr := rfl
@[simp] theorem modCls_thm : (modCls n f s).thm = s.thm := rfl
@[simp] theorem modCls_intc : (modCls n f s).intc = s.intc := rfl
@[simp] theorem modCls_watch : (modCls n f s).watch = s.watch := rfl
@[simp] theorem modCls_memp : (modCls n f s).memp = s.memp := rfl
@[simp] theorem modCls_dma : (modCls n f s).dma = s.dma := rfl
@[simp] theorem modCls_bac : (modCls n f s).bac = s.bac := rfl
@[simp] theorem modCls_sys : (modCls n f s).sys = s.sys := rfl
@[simp] theorem modCls_clk : (modCls n f s).clk = s.clk := rfl
@[simp] theorem modCls_pwr : (modCls n f s).pwr = s.pwr := rfl
@[simp] theorem modCls_span : (modCls n f s).span = s.span := rfl
@[simp] theorem modCls_store : (modCls n f s).store = s.store := rfl
@[simp] theorem modCls_pins : (modCls n f s).pins = s.pins := rfl
@[simp] theorem modCls_ports : (modCls n f s).ports = s.ports := rfl
@[simp] theorem modCls_xpt : (modCls n f s).xpt = s.xpt := rfl
@[simp] theorem modCls_tables : (modCls n f s).tables = s.tables := rfl
@[simp] theorem modCls_tasks : (modCls n f s).tasks = s.tasks := rfl
@[simp] theorem modCls_ctrls : (modCls n f s).ctrls = s.ctrls := rfl
@[simp] theorem modCls_mgmt : (modCls n f s).mgmt = s.mgmt := rfl
@[simp] theorem modCls_piers : (modCls n f s).piers = s.piers := rfl
@[simp] theorem modCls_media : (modCls n f s).media = s.media := rfl
@[simp] theorem modCls_ciph : (modCls n f s).ciph = s.ciph := rfl
@[simp] theorem modCls_vct : (modCls n f s).vct = s.vct := rfl
@[simp] theorem modCls_drcs : (modCls n f s).drcs = s.drcs := rfl
@[simp] theorem modCls_mem : (modCls n f s).mem = s.mem := rfl
@[simp] theorem modCls_poison : (modCls n f s).poison = s.poison := rfl
@[simp] theorem modCls_unc : (modCls n f s).unc = s.unc := rfl
@[simp] theorem modCls_pending : (modCls n f s).pending = s.pending := rfl

@[simp] theorem clsOf_modCls_same : clsOf (modCls n f s) n = f (clsOf s n) := mget_mmod_same _ _ _ _
theorem clsOf_modCls_other {m : Nat} (h : m ≠ n) : clsOf (modCls n f s) m = clsOf s m := mget_mmod_other _ h _ _

end modCls_laws

/-! ## modGroup -/

section modGroup_laws
variable (n : Nat) (f : FcrGroup → FcrGroup) (s : State)

@[simp] theorem modGroup_varB : (modGroup n f s).varB = s.varB := rfl
@[simp] theorem modGroup_draws : (modGroup n f s).draws = s.draws := rfl
@[simp] theorem modGroup_now : (modGroup n f s).now = s.now := rfl
@[simp] theorem modGroup_bus : (modGroup n f s).bus = s.bus := rfl
@[simp] theorem modGroup_latch : (modGroup n f s).latch = s.latch := rfl
@[simp] theorem modGroup_reel : (modGroup n f s).reel = s.reel := rfl
@[simp] theorem modGroup_spindles : (modGroup n f s).spindles = s.spindles := rfl
@[simp] theorem modGroup_lanes : (modGroup n f s).lanes = s.lanes := rfl
@[simp] theorem modGroup_cores : (modGroup n f s).cores = s.cores := rfl
@[simp] theorem modGroup_evr : (modGroup n f s).evr = s.evr := rfl
@[simp] theorem modGroup_thm : (modGroup n f s).thm = s.thm := rfl
@[simp] theorem modGroup_intc : (modGroup n f s).intc = s.intc := rfl
@[simp] theorem modGroup_watch : (modGroup n f s).watch = s.watch := rfl
@[simp] theorem modGroup_memp : (modGroup n f s).memp = s.memp := rfl
@[simp] theorem modGroup_dma : (modGroup n f s).dma = s.dma := rfl
@[simp] theorem modGroup_bac : (modGroup n f s).bac = s.bac := rfl
@[simp] theorem modGroup_sys : (modGroup n f s).sys = s.sys := rfl
@[simp] theorem modGroup_clk : (modGroup n f s).clk = s.clk := rfl
@[simp] theorem modGroup_pwr : (modGroup n f s).pwr = s.pwr := rfl
@[simp] theorem modGroup_span : (modGroup n f s).span = s.span := rfl
@[simp] theorem modGroup_store : (modGroup n f s).store = s.store := rfl
@[simp] theorem modGroup_pins : (modGroup n f s).pins = s.pins := rfl
@[simp] theorem modGroup_ports : (modGroup n f s).ports = s.ports := rfl
@[simp] theorem modGroup_xpt : (modGroup n f s).xpt = s.xpt := rfl
@[simp] theorem modGroup_tables : (modGroup n f s).tables = s.tables := rfl
@[simp] theorem modGroup_tasks : (modGroup n f s).tasks = s.tasks := rfl
@[simp] theorem modGroup_ctrls : (modGroup n f s).ctrls = s.ctrls := rfl
@[simp] theorem modGroup_mgmt : (modGroup n f s).mgmt = s.mgmt := rfl
@[simp] theorem modGroup_piers : (modGroup n f s).piers = s.piers := rfl
@[simp] theorem modGroup_media : (modGroup n f s).media = s.media := rfl
@[simp] theorem modGroup_ciph : (modGroup n f s).ciph = s.ciph := rfl
@[simp] theorem modGroup_vct : (modGroup n f s).vct = s.vct := rfl
@[simp] theorem modGroup_drcs : (modGroup n f s).drcs = s.drcs := rfl
@[simp] theorem modGroup_mem : (modGroup n f s).mem = s.mem := rfl
@[simp] theorem modGroup_poison : (modGroup n f s).poison = s.poison := rfl
@[simp] theorem modGroup_unc : (modGroup n f s).unc = s.unc := rfl
@[simp] theorem modGroup_pending : (modGroup n f s).pending = s.pending := rfl

@[simp] theorem groupOf_modGroup_same : groupOf (modGroup n f s) n = f (groupOf s n) := mget_mmod_same _ _ _ _
theorem groupOf_modGroup_other {m : Nat} (h : m ≠ n) : groupOf (modGroup n f s) m = groupOf s m := mget_mmod_other _ h _ _

end modGroup_laws

/-! ## modKey -/

section modKey_laws
variable (n : Nat) (f : KeySlot → KeySlot) (s : State)

@[simp] theorem modKey_varB : (modKey n f s).varB = s.varB := rfl
@[simp] theorem modKey_draws : (modKey n f s).draws = s.draws := rfl
@[simp] theorem modKey_now : (modKey n f s).now = s.now := rfl
@[simp] theorem modKey_bus : (modKey n f s).bus = s.bus := rfl
@[simp] theorem modKey_latch : (modKey n f s).latch = s.latch := rfl
@[simp] theorem modKey_reel : (modKey n f s).reel = s.reel := rfl
@[simp] theorem modKey_spindles : (modKey n f s).spindles = s.spindles := rfl
@[simp] theorem modKey_lanes : (modKey n f s).lanes = s.lanes := rfl
@[simp] theorem modKey_cores : (modKey n f s).cores = s.cores := rfl
@[simp] theorem modKey_evr : (modKey n f s).evr = s.evr := rfl
@[simp] theorem modKey_fcr : (modKey n f s).fcr = s.fcr := rfl
@[simp] theorem modKey_thm : (modKey n f s).thm = s.thm := rfl
@[simp] theorem modKey_intc : (modKey n f s).intc = s.intc := rfl
@[simp] theorem modKey_watch : (modKey n f s).watch = s.watch := rfl
@[simp] theorem modKey_memp : (modKey n f s).memp = s.memp := rfl
@[simp] theorem modKey_dma : (modKey n f s).dma = s.dma := rfl
@[simp] theorem modKey_bac : (modKey n f s).bac = s.bac := rfl
@[simp] theorem modKey_sys : (modKey n f s).sys = s.sys := rfl
@[simp] theorem modKey_clk : (modKey n f s).clk = s.clk := rfl
@[simp] theorem modKey_pwr : (modKey n f s).pwr = s.pwr := rfl
@[simp] theorem modKey_span : (modKey n f s).span = s.span := rfl
@[simp] theorem modKey_store : (modKey n f s).store = s.store := rfl
@[simp] theorem modKey_pins : (modKey n f s).pins = s.pins := rfl
@[simp] theorem modKey_ports : (modKey n f s).ports = s.ports := rfl
@[simp] theorem modKey_xpt : (modKey n f s).xpt = s.xpt := rfl
@[simp] theorem modKey_tables : (modKey n f s).tables = s.tables := rfl
@[simp] theorem modKey_tasks : (modKey n f s).tasks = s.tasks := rfl
@[simp] theorem modKey_ctrls : (modKey n f s).ctrls = s.ctrls := rfl
@[simp] theorem modKey_mgmt : (modKey n f s).mgmt = s.mgmt := rfl
@[simp] theorem modKey_piers : (modKey n f s).piers = s.piers := rfl
@[simp] theorem modKey_media : (modKey n f s).media = s.media := rfl
@[simp] theorem modKey_vct : (modKey n f s).vct = s.vct := rfl
@[simp] theorem modKey_drcs : (modKey n f s).drcs = s.drcs := rfl
@[simp] theorem modKey_mem : (modKey n f s).mem = s.mem := rfl
@[simp] theorem modKey_poison : (modKey n f s).poison = s.poison := rfl
@[simp] theorem modKey_unc : (modKey n f s).unc = s.unc := rfl
@[simp] theorem modKey_pending : (modKey n f s).pending = s.pending := rfl

@[simp] theorem keyOf_modKey_same : keyOf (modKey n f s) n = f (keyOf s n) := mget_mmod_same _ _ _ _
theorem keyOf_modKey_other {m : Nat} (h : m ≠ n) : keyOf (modKey n f s) m = keyOf s m := mget_mmod_other _ h _ _

end modKey_laws

/-! ## modVc -/

section modVc_laws
variable (n : Nat) (f : Vc → Vc) (s : State)

@[simp] theorem modVc_varB : (modVc n f s).varB = s.varB := rfl
@[simp] theorem modVc_draws : (modVc n f s).draws = s.draws := rfl
@[simp] theorem modVc_now : (modVc n f s).now = s.now := rfl
@[simp] theorem modVc_bus : (modVc n f s).bus = s.bus := rfl
@[simp] theorem modVc_latch : (modVc n f s).latch = s.latch := rfl
@[simp] theorem modVc_reel : (modVc n f s).reel = s.reel := rfl
@[simp] theorem modVc_spindles : (modVc n f s).spindles = s.spindles := rfl
@[simp] theorem modVc_lanes : (modVc n f s).lanes = s.lanes := rfl
@[simp] theorem modVc_cores : (modVc n f s).cores = s.cores := rfl
@[simp] theorem modVc_evr : (modVc n f s).evr = s.evr := rfl
@[simp] theorem modVc_fcr : (modVc n f s).fcr = s.fcr := rfl
@[simp] theorem modVc_thm : (modVc n f s).thm = s.thm := rfl
@[simp] theorem modVc_intc : (modVc n f s).intc = s.intc := rfl
@[simp] theorem modVc_watch : (modVc n f s).watch = s.watch := rfl
@[simp] theorem modVc_memp : (modVc n f s).memp = s.memp := rfl
@[simp] theorem modVc_dma : (modVc n f s).dma = s.dma := rfl
@[simp] theorem modVc_bac : (modVc n f s).bac = s.bac := rfl
@[simp] theorem modVc_sys : (modVc n f s).sys = s.sys := rfl
@[simp] theorem modVc_clk : (modVc n f s).clk = s.clk := rfl
@[simp] theorem modVc_pwr : (modVc n f s).pwr = s.pwr := rfl
@[simp] theorem modVc_span : (modVc n f s).span = s.span := rfl
@[simp] theorem modVc_store : (modVc n f s).store = s.store := rfl
@[simp] theorem modVc_pins : (modVc n f s).pins = s.pins := rfl
@[simp] theorem modVc_ports : (modVc n f s).ports = s.ports := rfl
@[simp] theorem modVc_xpt : (modVc n f s).xpt = s.xpt := rfl
@[simp] theorem modVc_tables : (modVc n f s).tables = s.tables := rfl
@[simp] theorem modVc_tasks : (modVc n f s).tasks = s.tasks := rfl
@[simp] theorem modVc_ctrls : (modVc n f s).ctrls = s.ctrls := rfl
@[simp] theorem modVc_mgmt : (modVc n f s).mgmt = s.mgmt := rfl
@[simp] theorem modVc_piers : (modVc n f s).piers = s.piers := rfl
@[simp] theorem modVc_media : (modVc n f s).media = s.media := rfl
@[simp] theorem modVc_ciph : (modVc n f s).ciph = s.ciph := rfl
@[simp] theorem modVc_drcs : (modVc n f s).drcs = s.drcs := rfl
@[simp] theorem modVc_mem : (modVc n f s).mem = s.mem := rfl
@[simp] theorem modVc_poison : (modVc n f s).poison = s.poison := rfl
@[simp] theorem modVc_unc : (modVc n f s).unc = s.unc := rfl
@[simp] theorem modVc_pending : (modVc n f s).pending = s.pending := rfl

@[simp] theorem vcOf_modVc_same : vcOf (modVc n f s) n = f (vcOf s n) := mget_mmod_same _ _ _ _
theorem vcOf_modVc_other {m : Nat} (h : m ≠ n) : vcOf (modVc n f s) m = vcOf s m := mget_mmod_other _ h _ _

end modVc_laws

/-! ## modConn -/

section modConn_laws
variable (n : Nat) (f : Conn → Conn) (s : State)

@[simp] theorem modConn_varB : (modConn n f s).varB = s.varB := rfl
@[simp] theorem modConn_draws : (modConn n f s).draws = s.draws := rfl
@[simp] theorem modConn_now : (modConn n f s).now = s.now := rfl
@[simp] theorem modConn_bus : (modConn n f s).bus = s.bus := rfl
@[simp] theorem modConn_latch : (modConn n f s).latch = s.latch := rfl
@[simp] theorem modConn_reel : (modConn n f s).reel = s.reel := rfl
@[simp] theorem modConn_spindles : (modConn n f s).spindles = s.spindles := rfl
@[simp] theorem modConn_lanes : (modConn n f s).lanes = s.lanes := rfl
@[simp] theorem modConn_cores : (modConn n f s).cores = s.cores := rfl
@[simp] theorem modConn_evr : (modConn n f s).evr = s.evr := rfl
@[simp] theorem modConn_fcr : (modConn n f s).fcr = s.fcr := rfl
@[simp] theorem modConn_thm : (modConn n f s).thm = s.thm := rfl
@[simp] theorem modConn_intc : (modConn n f s).intc = s.intc := rfl
@[simp] theorem modConn_watch : (modConn n f s).watch = s.watch := rfl
@[simp] theorem modConn_memp : (modConn n f s).memp = s.memp := rfl
@[simp] theorem modConn_dma : (modConn n f s).dma = s.dma := rfl
@[simp] theorem modConn_bac : (modConn n f s).bac = s.bac := rfl
@[simp] theorem modConn_sys : (modConn n f s).sys = s.sys := rfl
@[simp] theorem modConn_clk : (modConn n f s).clk = s.clk := rfl
@[simp] theorem modConn_pwr : (modConn n f s).pwr = s.pwr := rfl
@[simp] theorem modConn_span : (modConn n f s).span = s.span := rfl
@[simp] theorem modConn_store : (modConn n f s).store = s.store := rfl
@[simp] theorem modConn_pins : (modConn n f s).pins = s.pins := rfl
@[simp] theorem modConn_ports : (modConn n f s).ports = s.ports := rfl
@[simp] theorem modConn_tables : (modConn n f s).tables = s.tables := rfl
@[simp] theorem modConn_tasks : (modConn n f s).tasks = s.tasks := rfl
@[simp] theorem modConn_ctrls : (modConn n f s).ctrls = s.ctrls := rfl
@[simp] theorem modConn_mgmt : (modConn n f s).mgmt = s.mgmt := rfl
@[simp] theorem modConn_piers : (modConn n f s).piers = s.piers := rfl
@[simp] theorem modConn_media : (modConn n f s).media = s.media := rfl
@[simp] theorem modConn_ciph : (modConn n f s).ciph = s.ciph := rfl
@[simp] theorem modConn_vct : (modConn n f s).vct = s.vct := rfl
@[simp] theorem modConn_drcs : (modConn n f s).drcs = s.drcs := rfl
@[simp] theorem modConn_mem : (modConn n f s).mem = s.mem := rfl
@[simp] theorem modConn_poison : (modConn n f s).poison = s.poison := rfl
@[simp] theorem modConn_unc : (modConn n f s).unc = s.unc := rfl
@[simp] theorem modConn_pending : (modConn n f s).pending = s.pending := rfl

@[simp] theorem connOf_modConn_same : connOf (modConn n f s) n = f (connOf s n) := mget_mmod_same _ _ _ _
theorem connOf_modConn_other {m : Nat} (h : m ≠ n) : connOf (modConn n f s) m = connOf s m := mget_mmod_other _ h _ _

end modConn_laws

/-! ## modSess -/

section modSess_laws
variable (n : Nat) (f : Session → Session) (s : State)

@[simp] theorem modSess_varB : (modSess n f s).varB = s.varB := rfl
@[simp] theorem modSess_draws : (modSess n f s).draws = s.draws := rfl
@[simp] theorem modSess_now : (modSess n f s).now = s.now := rfl
@[simp] theorem modSess_bus : (modSess n f s).bus = s.bus := rfl
@[simp] theorem modSess_latch : (modSess n f s).latch = s.latch := rfl
@[simp] theorem modSess_reel : (modSess n f s).reel = s.reel := rfl
@[simp] theorem modSess_spindles : (modSess n f s).spindles = s.spindles := rfl
@[simp] theorem modSess_lanes : (modSess n f s).lanes = s.lanes := rfl
@[simp] theorem modSess_cores : (modSess n f s).cores = s.cores := rfl
@[simp] theorem modSess_evr : (modSess n f s).evr = s.evr := rfl
@[simp] theorem modSess_fcr : (modSess n f s).fcr = s.fcr := rfl
@[simp] theorem modSess_thm : (modSess n f s).thm = s.thm := rfl
@[simp] theorem modSess_intc : (modSess n f s).intc = s.intc := rfl
@[simp] theorem modSess_watch : (modSess n f s).watch = s.watch := rfl
@[simp] theorem modSess_memp : (modSess n f s).memp = s.memp := rfl
@[simp] theorem modSess_dma : (modSess n f s).dma = s.dma := rfl
@[simp] theorem modSess_bac : (modSess n f s).bac = s.bac := rfl
@[simp] theorem modSess_sys : (modSess n f s).sys = s.sys := rfl
@[simp] theorem modSess_clk : (modSess n f s).clk = s.clk := rfl
@[simp] theorem modSess_pwr : (modSess n f s).pwr = s.pwr := rfl
@[simp] theorem modSess_span : (modSess n f s).span = s.span := rfl
@[simp] theorem modSess_store : (modSess n f s).store = s.store := rfl
@[simp] theorem modSess_pins : (modSess n f s).pins = s.pins := rfl
@[simp] theorem modSess_ports : (modSess n f s).ports = s.ports := rfl
@[simp] theorem modSess_xpt : (modSess n f s).xpt = s.xpt := rfl
@[simp] theorem modSess_tables : (modSess n f s).tables = s.tables := rfl
@[simp] theorem modSess_tasks : (modSess n f s).tasks = s.tasks := rfl
@[simp] theorem modSess_ctrls : (modSess n f s).ctrls = s.ctrls := rfl
@[simp] theorem modSess_piers : (modSess n f s).piers = s.piers := rfl
@[simp] theorem modSess_media : (modSess n f s).media = s.media := rfl
@[simp] theorem modSess_ciph : (modSess n f s).ciph = s.ciph := rfl
@[simp] theorem modSess_vct : (modSess n f s).vct = s.vct := rfl
@[simp] theorem modSess_drcs : (modSess n f s).drcs = s.drcs := rfl
@[simp] theorem modSess_mem : (modSess n f s).mem = s.mem := rfl
@[simp] theorem modSess_poison : (modSess n f s).poison = s.poison := rfl
@[simp] theorem modSess_unc : (modSess n f s).unc = s.unc := rfl
@[simp] theorem modSess_pending : (modSess n f s).pending = s.pending := rfl

@[simp] theorem sessOf_modSess_same : sessOf (modSess n f s) n = f (sessOf s n) := mget_mmod_same _ _ _ _
theorem sessOf_modSess_other {m : Nat} (h : m ≠ n) : sessOf (modSess n f s) m = sessOf s m := mget_mmod_other _ h _ _

end modSess_laws

/-! ## modSrc -/

section modSrc_laws
variable (n : Nat) (f : IntSrc → IntSrc) (s : State)

@[simp] theorem modSrc_varB : (modSrc n f s).varB = s.varB := rfl
@[simp] theorem modSrc_draws : (modSrc n f s).draws = s.draws := rfl
@[simp] theorem modSrc_now : (modSrc n f s).now = s.now := rfl
@[simp] theorem modSrc_bus : (modSrc n f s).bus = s.bus := rfl
@[simp] theorem modSrc_latch : (modSrc n f s).latch = s.latch := rfl
@[simp] theorem modSrc_reel : (modSrc n f s).reel = s.reel := rfl
@[simp] theorem modSrc_spindles : (modSrc n f s).spindles = s.spindles := rfl
@[simp] theorem modSrc_lanes : (modSrc n f s).lanes = s.lanes := rfl
@[simp] theorem modSrc_cores : (modSrc n f s).cores = s.cores := rfl
@[simp] theorem modSrc_evr : (modSrc n f s).evr = s.evr := rfl
@[simp] theorem modSrc_fcr : (modSrc n f s).fcr = s.fcr := rfl
@[simp] theorem modSrc_thm : (modSrc n f s).thm = s.thm := rfl
@[simp] theorem modSrc_watch : (modSrc n f s).watch = s.watch := rfl
@[simp] theorem modSrc_memp : (modSrc n f s).memp = s.memp := rfl
@[simp] theorem modSrc_dma : (modSrc n f s).dma = s.dma := rfl
@[simp] theorem modSrc_bac : (modSrc n f s).bac = s.bac := rfl
@[simp] theorem modSrc_sys : (modSrc n f s).sys = s.sys := rfl
@[simp] theorem modSrc_clk : (modSrc n f s).clk = s.clk := rfl
@[simp] theorem modSrc_pwr : (modSrc n f s).pwr = s.pwr := rfl
@[simp] theorem modSrc_span : (modSrc n f s).span = s.span := rfl
@[simp] theorem modSrc_store : (modSrc n f s).store = s.store := rfl
@[simp] theorem modSrc_pins : (modSrc n f s).pins = s.pins := rfl
@[simp] theorem modSrc_ports : (modSrc n f s).ports = s.ports := rfl
@[simp] theorem modSrc_xpt : (modSrc n f s).xpt = s.xpt := rfl
@[simp] theorem modSrc_tables : (modSrc n f s).tables = s.tables := rfl
@[simp] theorem modSrc_tasks : (modSrc n f s).tasks = s.tasks := rfl
@[simp] theorem modSrc_ctrls : (modSrc n f s).ctrls = s.ctrls := rfl
@[simp] theorem modSrc_mgmt : (modSrc n f s).mgmt = s.mgmt := rfl
@[simp] theorem modSrc_piers : (modSrc n f s).piers = s.piers := rfl
@[simp] theorem modSrc_media : (modSrc n f s).media = s.media := rfl
@[simp] theorem modSrc_ciph : (modSrc n f s).ciph = s.ciph := rfl
@[simp] theorem modSrc_vct : (modSrc n f s).vct = s.vct := rfl
@[simp] theorem modSrc_drcs : (modSrc n f s).drcs = s.drcs := rfl
@[simp] theorem modSrc_mem : (modSrc n f s).mem = s.mem := rfl
@[simp] theorem modSrc_poison : (modSrc n f s).poison = s.poison := rfl
@[simp] theorem modSrc_unc : (modSrc n f s).unc = s.unc := rfl
@[simp] theorem modSrc_pending : (modSrc n f s).pending = s.pending := rfl

@[simp] theorem srcOf_modSrc_same : srcOf (modSrc n f s) n = f (srcOf s n) := mget_mmod_same _ _ _ _
theorem srcOf_modSrc_other {m : Nat} (h : m ≠ n) : srcOf (modSrc n f s) m = srcOf s m := mget_mmod_other _ h _ _

end modSrc_laws

/-! ## modNs -/

section modNs_laws
variable (n : Nat) (f : Ns → Ns) (s : State)

@[simp] theorem modNs_varB : (modNs n f s).varB = s.varB := rfl
@[simp] theorem modNs_draws : (modNs n f s).draws = s.draws := rfl
@[simp] theorem modNs_now : (modNs n f s).now = s.now := rfl
@[simp] theorem modNs_bus : (modNs n f s).bus = s.bus := rfl
@[simp] theorem modNs_latch : (modNs n f s).latch = s.latch := rfl
@[simp] theorem modNs_reel : (modNs n f s).reel = s.reel := rfl
@[simp] theorem modNs_spindles : (modNs n f s).spindles = s.spindles := rfl
@[simp] theorem modNs_lanes : (modNs n f s).lanes = s.lanes := rfl
@[simp] theorem modNs_cores : (modNs n f s).cores = s.cores := rfl
@[simp] theorem modNs_evr : (modNs n f s).evr = s.evr := rfl
@[simp] theorem modNs_fcr : (modNs n f s).fcr = s.fcr := rfl
@[simp] theorem modNs_thm : (modNs n f s).thm = s.thm := rfl
@[simp] theorem modNs_intc : (modNs n f s).intc = s.intc := rfl
@[simp] theorem modNs_watch : (modNs n f s).watch = s.watch := rfl
@[simp] theorem modNs_memp : (modNs n f s).memp = s.memp := rfl
@[simp] theorem modNs_dma : (modNs n f s).dma = s.dma := rfl
@[simp] theorem modNs_bac : (modNs n f s).bac = s.bac := rfl
@[simp] theorem modNs_sys : (modNs n f s).sys = s.sys := rfl
@[simp] theorem modNs_clk : (modNs n f s).clk = s.clk := rfl
@[simp] theorem modNs_pwr : (modNs n f s).pwr = s.pwr := rfl
@[simp] theorem modNs_span : (modNs n f s).span = s.span := rfl
@[simp] theorem modNs_store : (modNs n f s).store = s.store := rfl
@[simp] theorem modNs_pins : (modNs n f s).pins = s.pins := rfl
@[simp] theorem modNs_ports : (modNs n f s).ports = s.ports := rfl
@[simp] theorem modNs_xpt : (modNs n f s).xpt = s.xpt := rfl
@[simp] theorem modNs_tables : (modNs n f s).tables = s.tables := rfl
@[simp] theorem modNs_tasks : (modNs n f s).tasks = s.tasks := rfl
@[simp] theorem modNs_ctrls : (modNs n f s).ctrls = s.ctrls := rfl
@[simp] theorem modNs_mgmt : (modNs n f s).mgmt = s.mgmt := rfl
@[simp] theorem modNs_piers : (modNs n f s).piers = s.piers := rfl
@[simp] theorem modNs_ciph : (modNs n f s).ciph = s.ciph := rfl
@[simp] theorem modNs_vct : (modNs n f s).vct = s.vct := rfl
@[simp] theorem modNs_drcs : (modNs n f s).drcs = s.drcs := rfl
@[simp] theorem modNs_mem : (modNs n f s).mem = s.mem := rfl
@[simp] theorem modNs_poison : (modNs n f s).poison = s.poison := rfl
@[simp] theorem modNs_unc : (modNs n f s).unc = s.unc := rfl
@[simp] theorem modNs_pending : (modNs n f s).pending = s.pending := rfl

end modNs_laws

/-! ## modDie -/

section modDie_laws
variable (n : Nat) (f : Die → Die) (s : State)

@[simp] theorem modDie_varB : (modDie n f s).varB = s.varB := rfl
@[simp] theorem modDie_draws : (modDie n f s).draws = s.draws := rfl
@[simp] theorem modDie_now : (modDie n f s).now = s.now := rfl
@[simp] theorem modDie_bus : (modDie n f s).bus = s.bus := rfl
@[simp] theorem modDie_latch : (modDie n f s).latch = s.latch := rfl
@[simp] theorem modDie_reel : (modDie n f s).reel = s.reel := rfl
@[simp] theorem modDie_spindles : (modDie n f s).spindles = s.spindles := rfl
@[simp] theorem modDie_lanes : (modDie n f s).lanes = s.lanes := rfl
@[simp] theorem modDie_cores : (modDie n f s).cores = s.cores := rfl
@[simp] theorem modDie_evr : (modDie n f s).evr = s.evr := rfl
@[simp] theorem modDie_fcr : (modDie n f s).fcr = s.fcr := rfl
@[simp] theorem modDie_thm : (modDie n f s).thm = s.thm := rfl
@[simp] theorem modDie_intc : (modDie n f s).intc = s.intc := rfl
@[simp] theorem modDie_watch : (modDie n f s).watch = s.watch := rfl
@[simp] theorem modDie_memp : (modDie n f s).memp = s.memp := rfl
@[simp] theorem modDie_dma : (modDie n f s).dma = s.dma := rfl
@[simp] theorem modDie_bac : (modDie n f s).bac = s.bac := rfl
@[simp] theorem modDie_sys : (modDie n f s).sys = s.sys := rfl
@[simp] theorem modDie_clk : (modDie n f s).clk = s.clk := rfl
@[simp] theorem modDie_pwr : (modDie n f s).pwr = s.pwr := rfl
@[simp] theorem modDie_span : (modDie n f s).span = s.span := rfl
@[simp] theorem modDie_store : (modDie n f s).store = s.store := rfl
@[simp] theorem modDie_pins : (modDie n f s).pins = s.pins := rfl
@[simp] theorem modDie_ports : (modDie n f s).ports = s.ports := rfl
@[simp] theorem modDie_xpt : (modDie n f s).xpt = s.xpt := rfl
@[simp] theorem modDie_tables : (modDie n f s).tables = s.tables := rfl
@[simp] theorem modDie_tasks : (modDie n f s).tasks = s.tasks := rfl
@[simp] theorem modDie_ctrls : (modDie n f s).ctrls = s.ctrls := rfl
@[simp] theorem modDie_mgmt : (modDie n f s).mgmt = s.mgmt := rfl
@[simp] theorem modDie_media : (modDie n f s).media = s.media := rfl
@[simp] theorem modDie_ciph : (modDie n f s).ciph = s.ciph := rfl
@[simp] theorem modDie_vct : (modDie n f s).vct = s.vct := rfl
@[simp] theorem modDie_drcs : (modDie n f s).drcs = s.drcs := rfl
@[simp] theorem modDie_mem : (modDie n f s).mem = s.mem := rfl
@[simp] theorem modDie_poison : (modDie n f s).poison = s.poison := rfl
@[simp] theorem modDie_unc : (modDie n f s).unc = s.unc := rfl
@[simp] theorem modDie_pending : (modDie n f s).pending = s.pending := rfl

end modDie_laws

/-! ## modBlock -/

section modBlock_laws
variable (d b : Nat) (f : Block → Block) (s : State)

@[simp] theorem modBlock_varB : (modBlock d b f s).varB = s.varB := rfl
@[simp] theorem modBlock_draws : (modBlock d b f s).draws = s.draws := rfl
@[simp] theorem modBlock_now : (modBlock d b f s).now = s.now := rfl
@[simp] theorem modBlock_bus : (modBlock d b f s).bus = s.bus := rfl
@[simp] theorem modBlock_latch : (modBlock d b f s).latch = s.latch := rfl
@[simp] theorem modBlock_reel : (modBlock d b f s).reel = s.reel := rfl
@[simp] theorem modBlock_spindles : (modBlock d b f s).spindles = s.spindles := rfl
@[simp] theorem modBlock_lanes : (modBlock d b f s).lanes = s.lanes := rfl
@[simp] theorem modBlock_cores : (modBlock d b f s).cores = s.cores := rfl
@[simp] theorem modBlock_evr : (modBlock d b f s).evr = s.evr := rfl
@[simp] theorem modBlock_fcr : (modBlock d b f s).fcr = s.fcr := rfl
@[simp] theorem modBlock_thm : (modBlock d b f s).thm = s.thm := rfl
@[simp] theorem modBlock_intc : (modBlock d b f s).intc = s.intc := rfl
@[simp] theorem modBlock_watch : (modBlock d b f s).watch = s.watch := rfl
@[simp] theorem modBlock_memp : (modBlock d b f s).memp = s.memp := rfl
@[simp] theorem modBlock_dma : (modBlock d b f s).dma = s.dma := rfl
@[simp] theorem modBlock_bac : (modBlock d b f s).bac = s.bac := rfl
@[simp] theorem modBlock_sys : (modBlock d b f s).sys = s.sys := rfl
@[simp] theorem modBlock_clk : (modBlock d b f s).clk = s.clk := rfl
@[simp] theorem modBlock_pwr : (modBlock d b f s).pwr = s.pwr := rfl
@[simp] theorem modBlock_span : (modBlock d b f s).span = s.span := rfl
@[simp] theorem modBlock_store : (modBlock d b f s).store = s.store := rfl
@[simp] theorem modBlock_pins : (modBlock d b f s).pins = s.pins := rfl
@[simp] theorem modBlock_ports : (modBlock d b f s).ports = s.ports := rfl
@[simp] theorem modBlock_xpt : (modBlock d b f s).xpt = s.xpt := rfl
@[simp] theorem modBlock_tables : (modBlock d b f s).tables = s.tables := rfl
@[simp] theorem modBlock_tasks : (modBlock d b f s).tasks = s.tasks := rfl
@[simp] theorem modBlock_ctrls : (modBlock d b f s).ctrls = s.ctrls := rfl
@[simp] theorem modBlock_mgmt : (modBlock d b f s).mgmt = s.mgmt := rfl
@[simp] theorem modBlock_piers : (modBlock d b f s).piers = s.piers := rfl
@[simp] theorem modBlock_ciph : (modBlock d b f s).ciph = s.ciph := rfl
@[simp] theorem modBlock_vct : (modBlock d b f s).vct = s.vct := rfl
@[simp] theorem modBlock_drcs : (modBlock d b f s).drcs = s.drcs := rfl
@[simp] theorem modBlock_mem : (modBlock d b f s).mem = s.mem := rfl
@[simp] theorem modBlock_poison : (modBlock d b f s).poison = s.poison := rfl
@[simp] theorem modBlock_unc : (modBlock d b f s).unc = s.unc := rfl
@[simp] theorem modBlock_pending : (modBlock d b f s).pending = s.pending := rfl

end modBlock_laws

/-! ## modZone -/

section modZone_laws
variable (n : BitVec 32) (z : Nat) (f : Zone → Zone) (s : State)

@[simp] theorem modZone_varB : (modZone n z f s).varB = s.varB := rfl
@[simp] theorem modZone_draws : (modZone n z f s).draws = s.draws := rfl
@[simp] theorem modZone_now : (modZone n z f s).now = s.now := rfl
@[simp] theorem modZone_bus : (modZone n z f s).bus = s.bus := rfl
@[simp] theorem modZone_latch : (modZone n z f s).latch = s.latch := rfl
@[simp] theorem modZone_reel : (modZone n z f s).reel = s.reel := rfl
@[simp] theorem modZone_spindles : (modZone n z f s).spindles = s.spindles := rfl
@[simp] theorem modZone_lanes : (modZone n z f s).lanes = s.lanes := rfl
@[simp] theorem modZone_cores : (modZone n z f s).cores = s.cores := rfl
@[simp] theorem modZone_evr : (modZone n z f s).evr = s.evr := rfl
@[simp] theorem modZone_fcr : (modZone n z f s).fcr = s.fcr := rfl
@[simp] theorem modZone_thm : (modZone n z f s).thm = s.thm := rfl
@[simp] theorem modZone_intc : (modZone n z f s).intc = s.intc := rfl
@[simp] theorem modZone_watch : (modZone n z f s).watch = s.watch := rfl
@[simp] theorem modZone_memp : (modZone n z f s).memp = s.memp := rfl
@[simp] theorem modZone_dma : (modZone n z f s).dma = s.dma := rfl
@[simp] theorem modZone_bac : (modZone n z f s).bac = s.bac := rfl
@[simp] theorem modZone_sys : (modZone n z f s).sys = s.sys := rfl
@[simp] theorem modZone_clk : (modZone n z f s).clk = s.clk := rfl
@[simp] theorem modZone_pwr : (modZone n z f s).pwr = s.pwr := rfl
@[simp] theorem modZone_span : (modZone n z f s).span = s.span := rfl
@[simp] theorem modZone_store : (modZone n z f s).store = s.store := rfl
@[simp] theorem modZone_pins : (modZone n z f s).pins = s.pins := rfl
@[simp] theorem modZone_ports : (modZone n z f s).ports = s.ports := rfl
@[simp] theorem modZone_xpt : (modZone n z f s).xpt = s.xpt := rfl
@[simp] theorem modZone_tables : (modZone n z f s).tables = s.tables := rfl
@[simp] theorem modZone_tasks : (modZone n z f s).tasks = s.tasks := rfl
@[simp] theorem modZone_ctrls : (modZone n z f s).ctrls = s.ctrls := rfl
@[simp] theorem modZone_mgmt : (modZone n z f s).mgmt = s.mgmt := rfl
@[simp] theorem modZone_piers : (modZone n z f s).piers = s.piers := rfl
@[simp] theorem modZone_ciph : (modZone n z f s).ciph = s.ciph := rfl
@[simp] theorem modZone_vct : (modZone n z f s).vct = s.vct := rfl
@[simp] theorem modZone_drcs : (modZone n z f s).drcs = s.drcs := rfl
@[simp] theorem modZone_mem : (modZone n z f s).mem = s.mem := rfl
@[simp] theorem modZone_poison : (modZone n z f s).poison = s.poison := rfl
@[simp] theorem modZone_unc : (modZone n z f s).unc = s.unc := rfl
@[simp] theorem modZone_pending : (modZone n z f s).pending = s.pending := rfl

end modZone_laws

/-! ## Two changes of one unit are one -/

@[simp] theorem modSpn_modSpn (n : Nat) (f g : Spindle → Spindle) (s : State) : modSpn n f (modSpn n g s) = modSpn n (fun x => f (g x)) s := by
  simp [modSpn]
@[simp] theorem modLane_modLane (n : Nat) (f g : Lane → Lane) (s : State) : modLane n f (modLane n g s) = modLane n (fun x => f (g x)) s := by
  simp [modLane]
@[simp] theorem modCore_modCore (n : Nat) (f g : CoreSt → CoreSt) (s : State) : modCore n f (modCore n g s) = modCore n (fun x => f (g x)) s := by
  simp [modCore]
@[simp] theorem modPort_modPort (n : Nat) (f g : Port → Port) (s : State) : modPort n f (modPort n g s) = modPort n (fun x => f (g x)) s := by
  simp [modPort]
@[simp] theorem modChan_modChan (n : Nat) (f g : Chan → Chan) (s : State) : modChan n f (modChan n g s) = modChan n (fun x => f (g x)) s := by
  simp [modChan, modPiers]
@[simp] theorem modDrc_modDrc (n : Nat) (f g : Drc → Drc) (s : State) : modDrc n f (modDrc n g s) = modDrc n (fun x => f (g x)) s := by
  simp [modDrc]
@[simp] theorem modDma_modDma (n : Nat) (f g : DmaCh → DmaCh) (s : State) : modDma n f (modDma n g s) = modDma n (fun x => f (g x)) s := by
  simp [modDma]
@[simp] theorem modTask_modTask (n : Nat) (f g : TaskSet → TaskSet) (s : State) : modTask n f (modTask n g s) = modTask n (fun x => f (g x)) s := by
  simp [modTask]
@[simp] theorem modCtrl_modCtrl (n : Nat) (f g : Ctrl → Ctrl) (s : State) : modCtrl n f (modCtrl n g s) = modCtrl n (fun x => f (g x)) s := by
  simp [modCtrl]
@[simp] theorem modCls_modCls (n : Nat) (f g : Cls → Cls) (s : State) : modCls n f (modCls n g s) = modCls n (fun x => f (g x)) s := by
  simp [modCls, modReel]
@[simp] theorem modGroup_modGroup (n : Nat) (f g : FcrGroup → FcrGroup) (s : State) : modGroup n f (modGroup n g s) = modGroup n (fun x => f (g x)) s := by
  simp [modGroup, modFcr]
@[simp] theorem modKey_modKey (n : Nat) (f g : KeySlot → KeySlot) (s : State) : modKey n f (modKey n g s) = modKey n (fun x => f (g x)) s := by
  simp [modKey, modCiph]
@[simp] theorem modVc_modVc (n : Nat) (f g : Vc → Vc) (s : State) : modVc n f (modVc n g s) = modVc n (fun x => f (g x)) s := by
  simp [modVc, modVct]
@[simp] theorem modConn_modConn (n : Nat) (f g : Conn → Conn) (s : State) : modConn n f (modConn n g s) = modConn n (fun x => f (g x)) s := by
  simp [modConn, modXpt]
@[simp] theorem modSess_modSess (n : Nat) (f g : Session → Session) (s : State) : modSess n f (modSess n g s) = modSess n (fun x => f (g x)) s := by
  simp [modSess, modMgmt]
@[simp] theorem modSrc_modSrc (n : Nat) (f g : IntSrc → IntSrc) (s : State) : modSrc n f (modSrc n g s) = modSrc n (fun x => f (g x)) s := by
  simp [modSrc, modIntc]
@[simp] theorem modReel_modReel (f g : Reel → Reel) (s : State) : modReel f (modReel g s) = modReel (fun x => f (g x)) s := rfl
@[simp] theorem modEvr_modEvr (f g : Evr → Evr) (s : State) : modEvr f (modEvr g s) = modEvr (fun x => f (g x)) s := rfl
@[simp] theorem modFcr_modFcr (f g : Fcr → Fcr) (s : State) : modFcr f (modFcr g s) = modFcr (fun x => f (g x)) s := rfl
@[simp] theorem modThm_modThm (f g : Thm → Thm) (s : State) : modThm f (modThm g s) = modThm (fun x => f (g x)) s := rfl
@[simp] theorem modIntc_modIntc (f g : Intc → Intc) (s : State) : modIntc f (modIntc g s) = modIntc (fun x => f (g x)) s := rfl
@[simp] theorem modWatch_modWatch (f g : Watch → Watch) (s : State) : modWatch f (modWatch g s) = modWatch (fun x => f (g x)) s := rfl
@[simp] theorem modMemp_modMemp (f g : Memp → Memp) (s : State) : modMemp f (modMemp g s) = modMemp (fun x => f (g x)) s := rfl
@[simp] theorem modBac_modBac (f g : Bac → Bac) (s : State) : modBac f (modBac g s) = modBac (fun x => f (g x)) s := rfl
@[simp] theorem modSys_modSys (f g : Sys → Sys) (s : State) : modSys f (modSys g s) = modSys (fun x => f (g x)) s := rfl
@[simp] theorem modClk_modClk (f g : Clk → Clk) (s : State) : modClk f (modClk g s) = modClk (fun x => f (g x)) s := rfl
@[simp] theorem modPwr_modPwr (f g : Pwr → Pwr) (s : State) : modPwr f (modPwr g s) = modPwr (fun x => f (g x)) s := rfl
@[simp] theorem modSpan_modSpan (f g : Span → Span) (s : State) : modSpan f (modSpan g s) = modSpan (fun x => f (g x)) s := rfl
@[simp] theorem modStore_modStore (f g : Store → Store) (s : State) : modStore f (modStore g s) = modStore (fun x => f (g x)) s := rfl
@[simp] theorem modPins_modPins (f g : Pins → Pins) (s : State) : modPins f (modPins g s) = modPins (fun x => f (g x)) s := rfl
@[simp] theorem modXpt_modXpt (f g : Xpt → Xpt) (s : State) : modXpt f (modXpt g s) = modXpt (fun x => f (g x)) s := rfl
@[simp] theorem modTables_modTables (f g : Tables → Tables) (s : State) : modTables f (modTables g s) = modTables (fun x => f (g x)) s := rfl
@[simp] theorem modMgmt_modMgmt (f g : Mgmt → Mgmt) (s : State) : modMgmt f (modMgmt g s) = modMgmt (fun x => f (g x)) s := rfl
@[simp] theorem modPiers_modPiers (f g : Piers → Piers) (s : State) : modPiers f (modPiers g s) = modPiers (fun x => f (g x)) s := rfl
@[simp] theorem modMedia_modMedia (f g : Media → Media) (s : State) : modMedia f (modMedia g s) = modMedia (fun x => f (g x)) s := rfl
@[simp] theorem modCiph_modCiph (f g : Ciph → Ciph) (s : State) : modCiph f (modCiph g s) = modCiph (fun x => f (g x)) s := rfl
@[simp] theorem modVct_modVct (f g : Vct → Vct) (s : State) : modVct f (modVct g s) = modVct (fun x => f (g x)) s := rfl

/-! ## Free values and time -/

@[simp] theorem drawBool_varB (s : State) : (drawBool s).2.varB = s.varB := rfl
@[simp] theorem drawBits_varB (s : State) : (drawBits s).2.varB = s.varB := rfl
@[simp] theorem passTime_varB (s : State) : (passTime s).varB = s.varB := rfl
@[simp] theorem setPoison_varB (u : Nat) (b : Bool) (s : State) : (setPoison u b s).varB = s.varB := rfl
@[simp] theorem setPoison_draws (u : Nat) (b : Bool) (s : State) : (setPoison u b s).draws = s.draws := rfl
@[simp] theorem drawBool_now (s : State) : (drawBool s).2.now = s.now := rfl
@[simp] theorem drawBits_now (s : State) : (drawBits s).2.now = s.now := rfl
@[simp] theorem setPoison_now (u : Nat) (b : Bool) (s : State) : (setPoison u b s).now = s.now := rfl
@[simp] theorem drawBool_bus (s : State) : (drawBool s).2.bus = s.bus := rfl
@[simp] theorem drawBits_bus (s : State) : (drawBits s).2.bus = s.bus := rfl
@[simp] theorem passTime_bus (s : State) : (passTime s).bus = s.bus := rfl
@[simp] theorem setPoison_bus (u : Nat) (b : Bool) (s : State) : (setPoison u b s).bus = s.bus := rfl
@[simp] theorem drawBool_latch (s : State) : (drawBool s).2.latch = s.latch := rfl
@[simp] theorem drawBits_latch (s : State) : (drawBits s).2.latch = s.latch := rfl
@[simp] theorem passTime_latch (s : State) : (passTime s).latch = s.latch := rfl
@[simp] theorem setPoison_latch (u : Nat) (b : Bool) (s : State) : (setPoison u b s).latch = s.latch := rfl
@[simp] theorem drawBool_reel (s : State) : (drawBool s).2.reel = s.reel := rfl
@[simp] theorem drawBits_reel (s : State) : (drawBits s).2.reel = s.reel := rfl
@[simp] theorem passTime_reel (s : State) : (passTime s).reel = s.reel := rfl
@[simp] theorem setPoison_reel (u : Nat) (b : Bool) (s : State) : (setPoison u b s).reel = s.reel := rfl
@[simp] theorem drawBool_spindles (s : State) : (drawBool s).2.spindles = s.spindles := rfl
@[simp] theorem drawBits_spindles (s : State) : (drawBits s).2.spindles = s.spindles := rfl
@[simp] theorem passTime_spindles (s : State) : (passTime s).spindles = s.spindles := rfl
@[simp] theorem setPoison_spindles (u : Nat) (b : Bool) (s : State) : (setPoison u b s).spindles = s.spindles := rfl
@[simp] theorem drawBool_lanes (s : State) : (drawBool s).2.lanes = s.lanes := rfl
@[simp] theorem drawBits_lanes (s : State) : (drawBits s).2.lanes = s.lanes := rfl
@[simp] theorem passTime_lanes (s : State) : (passTime s).lanes = s.lanes := rfl
@[simp] theorem setPoison_lanes (u : Nat) (b : Bool) (s : State) : (setPoison u b s).lanes = s.lanes := rfl
@[simp] theorem drawBool_cores (s : State) : (drawBool s).2.cores = s.cores := rfl
@[simp] theorem drawBits_cores (s : State) : (drawBits s).2.cores = s.cores := rfl
@[simp] theorem passTime_cores (s : State) : (passTime s).cores = s.cores := rfl
@[simp] theorem setPoison_cores (u : Nat) (b : Bool) (s : State) : (setPoison u b s).cores = s.cores := rfl
@[simp] theorem drawBool_evr (s : State) : (drawBool s).2.evr = s.evr := rfl
@[simp] theorem drawBits_evr (s : State) : (drawBits s).2.evr = s.evr := rfl
@[simp] theorem passTime_evr (s : State) : (passTime s).evr = s.evr := rfl
@[simp] theorem setPoison_evr (u : Nat) (b : Bool) (s : State) : (setPoison u b s).evr = s.evr := rfl
@[simp] theorem drawBool_fcr (s : State) : (drawBool s).2.fcr = s.fcr := rfl
@[simp] theorem drawBits_fcr (s : State) : (drawBits s).2.fcr = s.fcr := rfl
@[simp] theorem passTime_fcr (s : State) : (passTime s).fcr = s.fcr := rfl
@[simp] theorem setPoison_fcr (u : Nat) (b : Bool) (s : State) : (setPoison u b s).fcr = s.fcr := rfl
@[simp] theorem drawBool_thm (s : State) : (drawBool s).2.thm = s.thm := rfl
@[simp] theorem drawBits_thm (s : State) : (drawBits s).2.thm = s.thm := rfl
@[simp] theorem passTime_thm (s : State) : (passTime s).thm = s.thm := rfl
@[simp] theorem setPoison_thm (u : Nat) (b : Bool) (s : State) : (setPoison u b s).thm = s.thm := rfl
@[simp] theorem drawBool_intc (s : State) : (drawBool s).2.intc = s.intc := rfl
@[simp] theorem drawBits_intc (s : State) : (drawBits s).2.intc = s.intc := rfl
@[simp] theorem passTime_intc (s : State) : (passTime s).intc = s.intc := rfl
@[simp] theorem setPoison_intc (u : Nat) (b : Bool) (s : State) : (setPoison u b s).intc = s.intc := rfl
@[simp] theorem drawBool_watch (s : State) : (drawBool s).2.watch = s.watch := rfl
@[simp] theorem drawBits_watch (s : State) : (drawBits s).2.watch = s.watch := rfl
@[simp] theorem passTime_watch (s : State) : (passTime s).watch = s.watch := rfl
@[simp] theorem setPoison_watch (u : Nat) (b : Bool) (s : State) : (setPoison u b s).watch = s.watch := rfl
@[simp] theorem drawBool_memp (s : State) : (drawBool s).2.memp = s.memp := rfl
@[simp] theorem drawBits_memp (s : State) : (drawBits s).2.memp = s.memp := rfl
@[simp] theorem passTime_memp (s : State) : (passTime s).memp = s.memp := rfl
@[simp] theorem setPoison_memp (u : Nat) (b : Bool) (s : State) : (setPoison u b s).memp = s.memp := rfl
@[simp] theorem drawBool_dma (s : State) : (drawBool s).2.dma = s.dma := rfl
@[simp] theorem drawBits_dma (s : State) : (drawBits s).2.dma = s.dma := rfl
@[simp] theorem passTime_dma (s : State) : (passTime s).dma = s.dma := rfl
@[simp] theorem setPoison_dma (u : Nat) (b : Bool) (s : State) : (setPoison u b s).dma = s.dma := rfl
@[simp] theorem drawBool_bac (s : State) : (drawBool s).2.bac = s.bac := rfl
@[simp] theorem drawBits_bac (s : State) : (drawBits s).2.bac = s.bac := rfl
@[simp] theorem passTime_bac (s : State) : (passTime s).bac = s.bac := rfl
@[simp] theorem setPoison_bac (u : Nat) (b : Bool) (s : State) : (setPoison u b s).bac = s.bac := rfl
@[simp] theorem drawBool_sys (s : State) : (drawBool s).2.sys = s.sys := rfl
@[simp] theorem drawBits_sys (s : State) : (drawBits s).2.sys = s.sys := rfl
@[simp] theorem passTime_sys (s : State) : (passTime s).sys = s.sys := rfl
@[simp] theorem setPoison_sys (u : Nat) (b : Bool) (s : State) : (setPoison u b s).sys = s.sys := rfl
@[simp] theorem drawBool_clk (s : State) : (drawBool s).2.clk = s.clk := rfl
@[simp] theorem drawBits_clk (s : State) : (drawBits s).2.clk = s.clk := rfl
@[simp] theorem passTime_clk (s : State) : (passTime s).clk = s.clk := rfl
@[simp] theorem setPoison_clk (u : Nat) (b : Bool) (s : State) : (setPoison u b s).clk = s.clk := rfl
@[simp] theorem drawBool_pwr (s : State) : (drawBool s).2.pwr = s.pwr := rfl
@[simp] theorem drawBits_pwr (s : State) : (drawBits s).2.pwr = s.pwr := rfl
@[simp] theorem passTime_pwr (s : State) : (passTime s).pwr = s.pwr := rfl
@[simp] theorem setPoison_pwr (u : Nat) (b : Bool) (s : State) : (setPoison u b s).pwr = s.pwr := rfl
@[simp] theorem drawBool_span (s : State) : (drawBool s).2.span = s.span := rfl
@[simp] theorem drawBits_span (s : State) : (drawBits s).2.span = s.span := rfl
@[simp] theorem passTime_span (s : State) : (passTime s).span = s.span := rfl
@[simp] theorem setPoison_span (u : Nat) (b : Bool) (s : State) : (setPoison u b s).span = s.span := rfl
@[simp] theorem drawBool_store (s : State) : (drawBool s).2.store = s.store := rfl
@[simp] theorem drawBits_store (s : State) : (drawBits s).2.store = s.store := rfl
@[simp] theorem passTime_store (s : State) : (passTime s).store = s.store := rfl
@[simp] theorem setPoison_store (u : Nat) (b : Bool) (s : State) : (setPoison u b s).store = s.store := rfl
@[simp] theorem drawBool_pins (s : State) : (drawBool s).2.pins = s.pins := rfl
@[simp] theorem drawBits_pins (s : State) : (drawBits s).2.pins = s.pins := rfl
@[simp] theorem passTime_pins (s : State) : (passTime s).pins = s.pins := rfl
@[simp] theorem setPoison_pins (u : Nat) (b : Bool) (s : State) : (setPoison u b s).pins = s.pins := rfl
@[simp] theorem drawBool_ports (s : State) : (drawBool s).2.ports = s.ports := rfl
@[simp] theorem drawBits_ports (s : State) : (drawBits s).2.ports = s.ports := rfl
@[simp] theorem passTime_ports (s : State) : (passTime s).ports = s.ports := rfl
@[simp] theorem setPoison_ports (u : Nat) (b : Bool) (s : State) : (setPoison u b s).ports = s.ports := rfl
@[simp] theorem drawBool_xpt (s : State) : (drawBool s).2.xpt = s.xpt := rfl
@[simp] theorem drawBits_xpt (s : State) : (drawBits s).2.xpt = s.xpt := rfl
@[simp] theorem passTime_xpt (s : State) : (passTime s).xpt = s.xpt := rfl
@[simp] theorem setPoison_xpt (u : Nat) (b : Bool) (s : State) : (setPoison u b s).xpt = s.xpt := rfl
@[simp] theorem drawBool_tables (s : State) : (drawBool s).2.tables = s.tables := rfl
@[simp] theorem drawBits_tables (s : State) : (drawBits s).2.tables = s.tables := rfl
@[simp] theorem passTime_tables (s : State) : (passTime s).tables = s.tables := rfl
@[simp] theorem setPoison_tables (u : Nat) (b : Bool) (s : State) : (setPoison u b s).tables = s.tables := rfl
@[simp] theorem drawBool_tasks (s : State) : (drawBool s).2.tasks = s.tasks := rfl
@[simp] theorem drawBits_tasks (s : State) : (drawBits s).2.tasks = s.tasks := rfl
@[simp] theorem passTime_tasks (s : State) : (passTime s).tasks = s.tasks := rfl
@[simp] theorem setPoison_tasks (u : Nat) (b : Bool) (s : State) : (setPoison u b s).tasks = s.tasks := rfl
@[simp] theorem drawBool_ctrls (s : State) : (drawBool s).2.ctrls = s.ctrls := rfl
@[simp] theorem drawBits_ctrls (s : State) : (drawBits s).2.ctrls = s.ctrls := rfl
@[simp] theorem passTime_ctrls (s : State) : (passTime s).ctrls = s.ctrls := rfl
@[simp] theorem setPoison_ctrls (u : Nat) (b : Bool) (s : State) : (setPoison u b s).ctrls = s.ctrls := rfl
@[simp] theorem drawBool_mgmt (s : State) : (drawBool s).2.mgmt = s.mgmt := rfl
@[simp] theorem drawBits_mgmt (s : State) : (drawBits s).2.mgmt = s.mgmt := rfl
@[simp] theorem passTime_mgmt (s : State) : (passTime s).mgmt = s.mgmt := rfl
@[simp] theorem setPoison_mgmt (u : Nat) (b : Bool) (s : State) : (setPoison u b s).mgmt = s.mgmt := rfl
@[simp] theorem drawBool_piers (s : State) : (drawBool s).2.piers = s.piers := rfl
@[simp] theorem drawBits_piers (s : State) : (drawBits s).2.piers = s.piers := rfl
@[simp] theorem passTime_piers (s : State) : (passTime s).piers = s.piers := rfl
@[simp] theorem setPoison_piers (u : Nat) (b : Bool) (s : State) : (setPoison u b s).piers = s.piers := rfl
@[simp] theorem drawBool_media (s : State) : (drawBool s).2.media = s.media := rfl
@[simp] theorem drawBits_media (s : State) : (drawBits s).2.media = s.media := rfl
@[simp] theorem passTime_media (s : State) : (passTime s).media = s.media := rfl
@[simp] theorem setPoison_media (u : Nat) (b : Bool) (s : State) : (setPoison u b s).media = s.media := rfl
@[simp] theorem drawBool_ciph (s : State) : (drawBool s).2.ciph = s.ciph := rfl
@[simp] theorem drawBits_ciph (s : State) : (drawBits s).2.ciph = s.ciph := rfl
@[simp] theorem passTime_ciph (s : State) : (passTime s).ciph = s.ciph := rfl
@[simp] theorem setPoison_ciph (u : Nat) (b : Bool) (s : State) : (setPoison u b s).ciph = s.ciph := rfl
@[simp] theorem drawBool_vct (s : State) : (drawBool s).2.vct = s.vct := rfl
@[simp] theorem drawBits_vct (s : State) : (drawBits s).2.vct = s.vct := rfl
@[simp] theorem passTime_vct (s : State) : (passTime s).vct = s.vct := rfl
@[simp] theorem setPoison_vct (u : Nat) (b : Bool) (s : State) : (setPoison u b s).vct = s.vct := rfl
@[simp] theorem drawBool_drcs (s : State) : (drawBool s).2.drcs = s.drcs := rfl
@[simp] theorem drawBits_drcs (s : State) : (drawBits s).2.drcs = s.drcs := rfl
@[simp] theorem passTime_drcs (s : State) : (passTime s).drcs = s.drcs := rfl
@[simp] theorem setPoison_drcs (u : Nat) (b : Bool) (s : State) : (setPoison u b s).drcs = s.drcs := rfl
@[simp] theorem drawBool_mem (s : State) : (drawBool s).2.mem = s.mem := rfl
@[simp] theorem drawBits_mem (s : State) : (drawBits s).2.mem = s.mem := rfl
@[simp] theorem passTime_mem (s : State) : (passTime s).mem = s.mem := rfl
@[simp] theorem setPoison_mem (u : Nat) (b : Bool) (s : State) : (setPoison u b s).mem = s.mem := rfl
@[simp] theorem drawBool_poison (s : State) : (drawBool s).2.poison = s.poison := rfl
@[simp] theorem drawBits_poison (s : State) : (drawBits s).2.poison = s.poison := rfl
@[simp] theorem passTime_poison (s : State) : (passTime s).poison = s.poison := rfl
@[simp] theorem drawBool_unc (s : State) : (drawBool s).2.unc = s.unc := rfl
@[simp] theorem drawBits_unc (s : State) : (drawBits s).2.unc = s.unc := rfl
@[simp] theorem passTime_unc (s : State) : (passTime s).unc = s.unc := rfl
@[simp] theorem setPoison_unc (u : Nat) (b : Bool) (s : State) : (setPoison u b s).unc = s.unc := rfl
@[simp] theorem drawBool_pending (s : State) : (drawBool s).2.pending = s.pending := rfl
@[simp] theorem drawBits_pending (s : State) : (drawBits s).2.pending = s.pending := rfl
@[simp] theorem passTime_pending (s : State) : (passTime s).pending = s.pending := rfl
@[simp] theorem setPoison_pending (u : Nat) (b : Bool) (s : State) : (setPoison u b s).pending = s.pending := rfl

end Sys2Proof.Machine
end

