-- ==== Sys2Proof/Laws/Faults.lean ====
section
/-! SUPPORT. What the shared operations of faults, events, records, mode requests and the flush leave alone: everything but the parts
they work on. One law per operation, `quiet (f s) = quiet s`; a law of one field follows by `congrArg`. -/

namespace Sys2Proof.Machine

/-- A state with the parts cleared that a fault's handling may change: the free values drawn, the time, the sequencer, the recorder, fault
collection, the boot array, the supply's records, the store's record counts, the transport's TAKES and the management port. -/
def quiet (s : State) : State :=
  { s with draws := 0, now := 0, reel := {}, evr := {}, fcr := {}, bac := {}, pwr := {}, store := {}, xpt := {}, mgmt := {} }

@[simp] theorem quiet_ite (c : Prop) [Decidable c] (s t : State) : quiet (if c then s else t) = if c then quiet s else quiet t := by
  split <;> rfl

section quiet_mods
variable (s : State)
@[simp] theorem quiet_modReel (f : Reel → Reel) : quiet (modReel f s) = quiet s := rfl
@[simp] theorem quiet_modEvr (f : Evr → Evr) : quiet (modEvr f s) = quiet s := rfl
@[simp] theorem quiet_modFcr (f : Fcr → Fcr) : quiet (modFcr f s) = quiet s := rfl
@[simp] theorem quiet_modBac (f : Bac → Bac) : quiet (modBac f s) = quiet s := rfl
@[simp] theorem quiet_modPwr (f : Pwr → Pwr) : quiet (modPwr f s) = quiet s := rfl
@[simp] theorem quiet_modStore (f : Store → Store) : quiet (modStore f s) = quiet s := rfl
@[simp] theorem quiet_modXpt (f : Xpt → Xpt) : quiet (modXpt f s) = quiet s := rfl
@[simp] theorem quiet_modMgmt (f : Mgmt → Mgmt) : quiet (modMgmt f s) = quiet s := rfl
@[simp] theorem quiet_modGroup (g : Nat) (f : FcrGroup → FcrGroup) : quiet (modGroup g f s) = quiet s := rfl
@[simp] theorem quiet_modSess (g : Nat) (f : Session → Session) : quiet (modSess g f s) = quiet s := rfl
@[simp] theorem quiet_drawBits : quiet (drawBits s).2 = quiet s := rfl
@[simp] theorem quiet_drawBool : quiet (drawBool s).2 = quiet s := rfl
@[simp] theorem quiet_passTime : quiet (passTime s) = quiet s := rfl
@[simp] theorem quiet_eventF (code : BitVec 16) (c : Nat) (sw : Bool) (ws : List (BitVec 32)) :
    quiet (eventF code c sw ws s) = quiet s := rfl
@[simp] theorem quiet_event (code : BitVec 16) (ws : List (BitVec 32)) : quiet (event code ws s) = quiet s := rfl
@[simp] theorem quiet_eventC (code : BitVec 16) (c : Nat) (ws : List (BitVec 32)) : quiet (eventC code c ws s) = quiet s := rfl
@[simp] theorem quiet_tilostSend (m : TMsg) : quiet (tilostSend m s) = quiet s := rfl
@[simp] theorem quiet_bacLine (sec wl : Nat) (bs : List (BitVec 8)) : quiet (bacLine sec wl bs s) = quiet s := rfl
@[simp] theorem quiet_startBuiltIn (m : BitVec 4) (dk : Deck) : quiet (startBuiltIn m dk s) = quiet s := rfl
end quiet_mods

theorem quiet_foldl {β : Type} (f : State → β → State) (h : ∀ s b, quiet (f s b) = quiet s) (l : List β) (s : State) :
    quiet (l.foldl f s) = quiet s := by
  induction l generalizing s with
  | nil => rfl
  | cons b l ih => rw [List.foldl_cons, ih, h]

@[simp] theorem quiet_bacSpoil (off n : Nat) (s : State) : quiet (bacSpoil off n s) = quiet s := by
  induction n generalizing off s with
  | zero => rfl
  | succ n ih => simp only [bacSpoil]; rw [ih]; rfl

@[simp] theorem quiet_bacAbandon (s : State) : quiet (bacAbandon s) = quiet s := by
  unfold bacAbandon
  split
  · rfl
  · simp [quiet_foldl _ (fun s r => quiet_bacSpoil _ _ s)]

@[simp] theorem quiet_putRecord (k n : Nat) (bs : List (BitVec 8)) (s : State) : quiet (putRecord k n bs s) = quiet s := by
  simp only [putRecord, quiet_ite, quiet_event, quiet_modStore, quiet_bacLine, ite_self]

@[simp] theorem quiet_writeRecord (k a b c d : Nat) (s : State) : quiet (writeRecord k a b c d s) = quiet s := by
  simp only [writeRecord, quiet_ite, quiet_putRecord, quiet_event, quiet_bacAbandon, ite_self]

@[simp] theorem quiet_tilostAnswer (k : Nat) (t : BitVec 16) (i : BitVec 32) (st : BitVec 16) (p : List (BitVec 32)) (s : State) :
    quiet (tilostAnswer k t i st p s) = quiet s := by
  simp only [tilostAnswer, apply_ite quiet, quiet_foldl _ (fun s m => quiet_tilostSend s m)]
  simp

@[simp] theorem quiet_answerMode (q : ModeReq) (st : BitVec 16) (r : BitVec 32) (s : State) :
    quiet (answerMode q st r s) = quiet s := by
  unfold answerMode
  split <;> simp

@[simp] theorem quiet_dropRequest (b : Bool) (s : State) : quiet (dropRequest b s) = quiet s := by
  unfold dropRequest
  split <;> simp

@[simp] theorem quiet_deviceRequest (m : BitVec 4) (b : Bool) (s : State) : quiet (deviceRequest m b s) = quiet s := by
  simp only [deviceRequest, apply_ite quiet]
  simp

@[simp] theorem quiet_putFlushRec (n : Nat) (bs : List (BitVec 8)) (s : State) : quiet (putFlushRec n bs s) = quiet s := by
  simp only [putFlushRec, quiet_bacLine, quiet_ite, quiet_modBac, ite_self]

@[simp] theorem quiet_writeFlushRec (f : FlushRec) (k : List (BitVec 8)) (s : State) : quiet (writeFlushRec f k s) = quiet s := by
  simp only [writeFlushRec, quiet_modPwr, quiet_putFlushRec]

@[simp] theorem quiet_writeBegin (t : BitVec 4) (n : Nat) (s : State) : quiet (writeBegin t n s) = quiet s := by
  simp only [writeBegin, quiet_writeFlushRec]

@[simp] theorem quiet_openFlush (t : BitVec 4) (n : Nat) (s : State) : quiet (openFlush t n s) = quiet s := rfl

@[simp] theorem quiet_flushStopped (s : State) : quiet (flushStopped s) = quiet s := by
  unfold flushStopped
  split <;> rfl

@[simp] theorem quiet_startFlush (t : BitVec 4) (s : State) : quiet (startFlush t s) = quiet s := by
  simp only [startFlush, quiet_ite, quiet_flushStopped, quiet_writeBegin, quiet_bacAbandon, quiet_openFlush, ite_self]

@[simp] theorem quiet_graveFinish (s : State) : quiet (graveFinish s) = quiet s := by
  simp only [graveFinish, quiet_writeRecord, apply_ite quiet]
  simp

@[simp] theorem quiet_becomeGrave (g : Nat) (c : BitVec 2) (s : State) : quiet (becomeGrave g c s) = quiet s := by
  simp only [becomeGrave, apply_ite quiet]
  simp

@[simp] theorem quiet_severeArrive (g : Nat) (s : State) : quiet (severeArrive g s) = quiet s := by
  simp only [severeArrive, apply_ite quiet]
  simp

/-- A fault changes nothing outside the parts of `quiet`. -/
@[simp] theorem quiet_raiseFault (g : Nat) (c : BitVec 3) (s : State) : quiet (raiseFault g c s) = quiet s := by
  simp only [raiseFault, quiet_ite, quiet_becomeGrave, quiet_severeArrive, quiet_eventC, quiet_modGroup, ite_self]

/-- Nor does a slot violation. -/
@[simp] theorem quiet_slotViolation (k i e : Nat) (s : State) : quiet (slotViolation k i e s) = quiet s := by
  simp [slotViolation]

/-- Two states alike in `quiet` are alike in every field it keeps. -/
theorem quiet_fields {s t : State} (h : quiet s = quiet t) :
    s.spindles = t.spindles ∧ s.lanes = t.lanes ∧ s.cores = t.cores ∧ s.mem = t.mem ∧ s.poison = t.poison ∧ s.unc = t.unc ∧
    s.piers = t.piers ∧ s.media = t.media ∧ s.tables = t.tables ∧ s.tasks = t.tasks ∧ s.ctrls = t.ctrls ∧ s.ports = t.ports ∧
    s.ciph = t.ciph ∧ s.vct = t.vct ∧ s.drcs = t.drcs ∧ s.span = t.span ∧ s.thm = t.thm ∧ s.intc = t.intc ∧ s.watch = t.watch ∧
    s.memp = t.memp ∧ s.dma = t.dma ∧ s.sys = t.sys ∧ s.clk = t.clk ∧ s.pins = t.pins ∧ s.varB = t.varB ∧ s.bus = t.bus ∧
    s.latch = t.latch ∧ s.pending = t.pending := by
  have f := fun {β : Type} (g : State → β) => congrArg g h
  exact ⟨f (·.spindles), f (·.lanes), f (·.cores), f (·.mem), f (·.poison), f (·.unc), f (·.piers), f (·.media), f (·.tables),
    f (·.tasks), f (·.ctrls), f (·.ports), f (·.ciph), f (·.vct), f (·.drcs), f (·.span), f (·.thm), f (·.intc), f (·.watch),
    f (·.memp), f (·.dma), f (·.sys), f (·.clk), f (·.pins), f (·.varB), f (·.bus), f (·.latch), f (·.pending)⟩

/-! ## The fault groups: only `modGroup` changes them -/

/-- The groups of fault collection. -/
def groups (s : State) : SMap FcrGroup := s.fcr.groups

@[simp] theorem groups_ite (c : Prop) [Decidable c] (s t : State) : groups (if c then s else t) = if c then groups s else groups t := by
  split <;> rfl

section groups_mods
variable (s : State)
@[simp] theorem groups_modReel (f : Reel → Reel) : groups (modReel f s) = groups s := rfl
@[simp] theorem groups_modEvr (f : Evr → Evr) : groups (modEvr f s) = groups s := rfl
@[simp] theorem groups_modBac (f : Bac → Bac) : groups (modBac f s) = groups s := rfl
@[simp] theorem groups_modPwr (f : Pwr → Pwr) : groups (modPwr f s) = groups s := rfl
@[simp] theorem groups_modStore (f : Store → Store) : groups (modStore f s) = groups s := rfl
@[simp] theorem groups_modXpt (f : Xpt → Xpt) : groups (modXpt f s) = groups s := rfl
@[simp] theorem groups_modSpn (n : Nat) (f : Spindle → Spindle) : groups (modSpn n f s) = groups s := rfl
@[simp] theorem groups_modSess (g : Nat) (f : Session → Session) : groups (modSess g f s) = groups s := rfl
@[simp] theorem groups_modFcr (f : Fcr → Fcr) (h : ∀ u, (f u).groups = u.groups) : groups (modFcr f s) = groups s := h _
@[simp] theorem groups_drawBits : groups (drawBits s).2 = groups s := rfl
@[simp] theorem groups_event (code : BitVec 16) (ws : List (BitVec 32)) : groups (event code ws s) = groups s := rfl
@[simp] theorem groups_eventC (code : BitVec 16) (c : Nat) (ws : List (BitVec 32)) : groups (eventC code c ws s) = groups s := rfl
@[simp] theorem groups_tilostSend (m : TMsg) : groups (tilostSend m s) = groups s := rfl
@[simp] theorem groups_bacLine (sec wl : Nat) (bs : List (BitVec 8)) : groups (bacLine sec wl bs s) = groups s := rfl
@[simp] theorem groups_startBuiltIn (m : BitVec 4) (dk : Deck) : groups (startBuiltIn m dk s) = groups s := rfl
end groups_mods

theorem groups_foldl {β : Type} (f : State → β → State) (h : ∀ s b, groups (f s b) = groups s) (l : List β) (s : State) :
    groups (l.foldl f s) = groups s := by
  induction l generalizing s with
  | nil => rfl
  | cons b l ih => rw [List.foldl_cons, ih, h]

@[simp] theorem groups_bacSpoil (off n : Nat) (s : State) : groups (bacSpoil off n s) = groups s := by
  induction n generalizing off s with
  | zero => rfl
  | succ n ih => simp only [bacSpoil]; rw [ih]; rfl

@[simp] theorem groups_bacAbandon (s : State) : groups (bacAbandon s) = groups s := by
  unfold bacAbandon
  split
  · rfl
  · simp [groups_foldl _ (fun s r => groups_bacSpoil _ _ s)]

@[simp] theorem groups_putRecord (k n : Nat) (bs : List (BitVec 8)) (s : State) : groups (putRecord k n bs s) = groups s := by
  simp only [putRecord, groups_ite, groups_event, groups_modStore, groups_bacLine, ite_self]

@[simp] theorem groups_writeRecord (k a b c d : Nat) (s : State) : groups (writeRecord k a b c d s) = groups s := by
  simp only [writeRecord, groups_ite, groups_putRecord, groups_event, groups_bacAbandon, ite_self]

@[simp] theorem groups_tilostAnswer (k : Nat) (t : BitVec 16) (i : BitVec 32) (st : BitVec 16) (p : List (BitVec 32)) (s : State) :
    groups (tilostAnswer k t i st p s) = groups s := by
  simp only [tilostAnswer, groups_ite, groups_foldl _ (fun s m => groups_tilostSend s m), groups_modSess, ite_self]

@[simp] theorem groups_dropRequest (b : Bool) (s : State) : groups (dropRequest b s) = groups s := by
  unfold dropRequest answerMode
  split
  · rfl
  · dsimp only; split <;> simp

@[simp] theorem groups_deviceRequest (m : BitVec 4) (b : Bool) (s : State) : groups (deviceRequest m b s) = groups s := by
  simp only [deviceRequest, groups_ite, groups_modReel, groups_dropRequest, ite_self]

@[simp] theorem groups_putFlushRec (n : Nat) (bs : List (BitVec 8)) (s : State) : groups (putFlushRec n bs s) = groups s := by
  simp only [putFlushRec, groups_bacLine, groups_ite, groups_modBac, ite_self]

@[simp] theorem groups_writeFlushRec (f : FlushRec) (k : List (BitVec 8)) (s : State) : groups (writeFlushRec f k s) = groups s := by
  simp only [writeFlushRec, groups_modPwr, groups_putFlushRec]

@[simp] theorem groups_writeBegin (t : BitVec 4) (n : Nat) (s : State) : groups (writeBegin t n s) = groups s := by
  simp only [writeBegin, groups_writeFlushRec]

@[simp] theorem groups_openFlush (t : BitVec 4) (n : Nat) (s : State) : groups (openFlush t n s) = groups s := rfl

@[simp] theorem groups_flushStopped (s : State) : groups (flushStopped s) = groups s := by
  unfold flushStopped
  split <;> rfl

@[simp] theorem groups_startFlush (t : BitVec 4) (s : State) : groups (startFlush t s) = groups s := by
  simp only [startFlush, groups_ite, groups_flushStopped, groups_writeBegin, groups_bacAbandon, groups_openFlush, ite_self]

@[simp] theorem groups_graveFinish (s : State) : groups (graveFinish s) = groups s := by
  simp only [graveFinish, groups_writeRecord, groups_ite]
  simp

/-- A fault that becomes Grave changes its group's class and no other thing of the groups. -/
theorem groups_becomeGrave (g : Nat) (c : BitVec 2) (s : State) :
    groups (becomeGrave g c s) = groups (modGroup g (fun x => { x with cls := 4 }) s) := by
  simp only [becomeGrave, groups_ite, groups_eventC, groups_modXpt, groups_modPwr, groups_graveFinish, groups_startFlush]
  simp

theorem groupOf_eq {s t : State} (h : groups s = groups t) (g : Nat) : groupOf s g = groupOf t g := by
  unfold groups at h
  simp [groupOf, h]

/-- What a Severe fault's arrival does to a group: its class, and nothing else. -/
theorem groupOf_severeArrive (g k : Nat) (s : State) :
    groupOf (severeArrive g s) k = groupOf s k ∨ groupOf (severeArrive g s) k = groupOf (modGroup g (fun x => { x with cls := 4 }) s) k := by
  unfold severeArrive
  split
  · exact .inl rfl
  · split
    · exact .inl (groupOf_eq (by simp) k)
    · split
      · exact .inl (groupOf_eq (by simp) k)
      · exact .inr (groupOf_eq (groups_becomeGrave g 2 s) k)

/-- The group as a fault of class `c` counts it (R560, R561). -/
def counted (c : BitVec 3) (x : FcrGroup) : FcrGroup :=
  { x with cls := if x.cls < c then c else x.cls, total := satInc x.total, wcount := if x.winOpen then satInc x.wcount else 1
           winOpen := true }

/-- What a fault does to its own group: it is counted, and at most its class differs further. -/
theorem groupOf_raiseFault (g : Nat) (c : BitVec 3) (s : State) :
    ∃ k, groupOf (raiseFault g c s) g = { counted c (groupOf s g) with cls := k } := by
  have hc : groupOf (modGroup g (fun x => { x with
      cls := if x.cls < c then c else x.cls
      total := satInc x.total
      wcount := if x.winOpen then satInc x.wcount else 1
      winOpen := true }) s) g = counted c (groupOf s g) := groupOf_modGroup_same g _ s
  unfold raiseFault
  extract_lets t x esc u
  have ht : groupOf t g = counted c (groupOf s g) := hc
  split
  · refine ⟨4, ?_⟩
    rw [groupOf_eq (groups_becomeGrave g 1 t) g, groupOf_modGroup_same, ht]
  · have hu : ∃ k, groupOf u g = { counted c (groupOf s g) with cls := k } := by
      by_cases h : esc
      · refine ⟨escOf x, ?_⟩
        have : groups u = groups (modGroup g (fun y => { y with cls := escOf x }) t) := by simp [u, h]
        rw [groupOf_eq this, groupOf_modGroup_same, ht]
      · refine ⟨(counted c (groupOf s g)).cls, ?_⟩
        have : u = t := by simp [u, h]
        rw [this, ht]
    obtain ⟨k, hk⟩ := hu
    split
    · rcases groupOf_severeArrive g g u with h | h
      · exact ⟨k, by rw [h, hk]⟩
      · exact ⟨4, by rw [h, groupOf_modGroup_same, hk]⟩
    · exact ⟨k, hk⟩

end Sys2Proof.Machine
end

