-- ==== Sys2Proof/Laws/Issue.lean ====
section
/-! SUPPORT. The one law of an instruction row: what a bundle with one executing instruction does on a spindle and on a distaff core.
Every row that issues an instruction cites it instead of unfolding the bundle. -/

namespace Sys2Proof.Machine

/-- What the instruction of a row sees. -/
def ctxOf (x : Iss) (s : State) : Ctx := { pre := s, eng := x.eng, slot := x.slot.toNat, mem := x.mem }

theorem executes_nop (s : State) (e : Engine) : executes s e nopSlot = true := by
  simp [executes, nopSlot, regP]

theorem runSlots_nop (pre : State) (e : Engine) (mem : Ecc) (k : Nat) (xs : List SlotIns) (s : State) (hk : k < 4) :
    runSlots pre e mem k (nopSlot :: xs) s = runSlots pre e mem (k + 1) xs s := by
  have hs : actNop.slots.contains k = true := by interval_cases k <;> rfl
  have hc : slotCause { pre := pre, eng := e, slot := k, mem := mem } nopSlot.act s = none := by
    simp only [slotCause, nopSlot, hs, if_true]; rfl
  rw [runSlots, if_pos (executes_nop pre e)]
  simp only [hc]
  rfl

theorem runSlots_hit (x : SlotIns) (pre : State) (e : Engine) (mem : Ecc) (k : Nat) (xs : List SlotIns) (s : State)
    (hg : executes pre e x = true) :
    runSlots pre e mem k (x :: xs) s =
      match slotCause { pre := pre, eng := e, slot := k, mem := mem } x.act s with
      | some w => .error (k, w)
      | none => runSlots pre e mem (k + 1) xs (x.act.run { pre := pre, eng := e, slot := k, mem := mem } s) := by
  rw [runSlots]; exact if_pos hg

/-- The slots of a bundle that holds one instruction: its effect, or its cause. -/
theorem runSlots_one (x : Iss) (a : Act) (pre s : State) (hg : xor (regP pre x.eng x.pr) x.pn = true) :
    runSlots pre x.eng x.mem 0 (oneSlot x a) s =
      match slotCause { pre := pre, eng := x.eng, slot := x.slot.toNat, mem := x.mem } a s with
      | some w => .error (x.slot.toNat, w)
      | none => .ok (a.run { pre := pre, eng := x.eng, slot := x.slot.toNat, mem := x.mem } s) := by
  have hx : executes pre x.eng { pn := x.pn, pr := x.pr, act := a } = true := hg
  have h4 : x.slot.toNat < 4 := x.slot.isLt
  have hl : (List.range 4) = [0, 1, 2, 3] := rfl
  have hnil : ∀ k t, runSlots pre x.eng x.mem k [] t = .ok t := fun _ _ => rfl
  simp only [oneSlot, hl, List.map]
  have hcase : x.slot.toNat = 0 ∨ x.slot.toNat = 1 ∨ x.slot.toNat = 2 ∨ x.slot.toNat = 3 := by omega
  rcases hcase with h | h | h | h <;> rw [h] <;>
    simp only [if_true, if_false, runSlots_nop, runSlots_hit _ _ _ _ _ _ _ hx, hnil, Nat.reduceLT, Nat.reduceAdd,
      Nat.reduceEqDiff, OfNat.ofNat_ne_zero, OfNat.zero_ne_ofNat, one_ne_zero, zero_ne_one, OfNat.ofNat_ne_one, OfNat.one_ne_ofNat]

theorem bundleFlow_one (x : Iss) (a : Act) (pre : State) (hg : xor (regP pre x.eng x.pr) x.pn = true) :
    bundleFlow pre x.eng x.mem (oneSlot x a) =
      if x.slot.toNat = 0 then a.flow { pre := pre, eng := x.eng, slot := 0, mem := x.mem } else .seq := by
  have hx : executes pre x.eng { pn := x.pn, pr := x.pr, act := a } = true := hg
  have hl : (List.range 4) = [0, 1, 2, 3] := rfl
  by_cases h : x.slot.toNat = 0
  · simp [bundleFlow, oneSlot, hl, h, hx]
  · have h' : ¬ (0 = x.slot.toNat) := fun e => h e.symm
    simp only [bundleFlow, oneSlot, hl, List.map, h', h, if_false, executes_nop, if_true]
    rfl

/-- A ready spindle issues in this very cycle. -/
theorem issueOne_ready {x : Iss} {s : State} {n : BitVec 6} (a : Act) (he : x.eng = .spindle n) (h : spnReady s n.toNat) :
    issueOne x a s = issueSpn n (oneSlot x a) x.prog x.mem s := by
  obtain ⟨h1, h2, h3, h4, -, -⟩ := h
  have hi : spnIssues s n.toNat = true := by simp [spnIssues, h1, h3]
  have hset : settle s = s := by simp [settle, h2]
  have hr : readySpn n.toNat s = s := by simp [readySpn, hset, h4]
  simp [issueOne, he, hi, hr, h4]

/-- A bundle's fetch meets nothing. -/
theorem fetchFault_ready {s : State} {n : Nat} (h : spnReady s n) : fetchFault (spn s n) .ok = none := by
  obtain ⟨-, -, -, -, h5, h6⟩ := h
  have : ¬ (0x20000 ≤ (spn s n).a0) := by omega
  simp [fetchFault, this, h6]

/-- An executing instruction on a spindle, in a slot that allows it, whose check finds nothing. -/
theorem issueOne_spindle {x : Iss} {s : State} {n : BitVec 6} {a : Act} {sl : List Nat} (he : x.eng = .spindle n)
    (h : issuable x sl s) (hsl : a.slots = sl) (hc : a.check (ctxOf x s) s = none) :
    issueOne x a s = modSpn n.toNat (spnNext (if x.slot.toNat = 0 then a.flow (ctxOf x s) else .seq) s.reel) (a.run (ctxOf x s) s) := by
  obtain ⟨hr, hp, hs, hg⟩ := h
  have hr' : spnReady s n.toNat := by simpa [ready, he] using hr
  rw [issueOne_ready a he hr', hp, issueSpn]
  simp only [noteProg, fetchFault_ready hr']
  have hctx : (ctxOf x s) = { pre := s, eng := Engine.spindle n, slot := x.slot.toNat, mem := x.mem } := by simp [ctxOf, he]
  have hsc : slotCause (ctxOf x s) a s = none := by
    have hcon : a.slots.contains x.slot.toNat = true := by simpa [hsl] using hs
    simp only [slotCause]
    rw [if_pos (by simpa [ctxOf] using hcon)]
    exact hc
  have h1 := runSlots_one x a s s hg
  have h2 := bundleFlow_one x a s hg
  rw [he] at h1 h2
  rw [← hctx] at h1
  rw [h1, hsc, h2]
  by_cases h0 : x.slot.toNat = 0
  · simp [h0, ctxOf, he]
  · simp [h0]

/-- An executing instruction on a spindle that stops with a cause: the spindle faults, and nothing else of the bundle happens. -/
theorem issueOne_fault {x : Iss} {s : State} {n : BitVec 6} {a : Act} {c : Cause} (he : x.eng = .spindle n)
    (hr : spnReady s n.toNat) (hp : x.prog = .ok) (hg : xor (regP s x.eng x.pr) x.pn = true)
    (hc : slotCause (ctxOf x s) a s = some c) :
    issueOne x a s = spnFault n.toNat (spn s n.toNat).a0 x.slot.toNat c (noteCause (.spindle n) c.note s) := by
  rw [issueOne_ready a he hr, hp, issueSpn]
  simp only [noteProg, fetchFault_ready hr]
  have hctx : (ctxOf x s) = { pre := s, eng := Engine.spindle n, slot := x.slot.toNat, mem := x.mem } := by simp [ctxOf, he]
  have h1 := runSlots_one x a s s hg
  rw [he] at h1
  rw [← hctx] at h1
  rw [h1, hc]

/-! ## A core -/

/-- Core n after `k` DST cycles. -/
def coreSpent (n : Nat) (k : BitVec 64) (s : State) : State :=
  modCore n (fun y => { y with cycles := y.cycles + k }) { s with draws := s.draws + 1 }

theorem coreCycles_spent (n : Nat) (s : State) :
    ∃ k : BitVec 64, (k ≠ 0 ∧ k.toNat ≤ 2 ^ 16) ∧ coreCycles n s = coreSpent n k s := by
  refine ⟨1 + ((Config.freeBits s.draws).setWidth 16).setWidth 64, ⟨?_, ?_⟩, ?_⟩
  · intro h
    have := congrArg BitVec.toNat h
    simp [BitVec.toNat_add, BitVec.toNat_setWidth] at this
    omega
  · simp [BitVec.toNat_add, BitVec.toNat_setWidth]
    omega
  · simp only [coreCycles, drawBits, coreSpent, BitVec.add_assoc]

theorem modCore_congr (n : Nat) {f g : CoreSt → CoreSt} {s : State} (h : f (coreOf s n) = g (coreOf s n)) :
    modCore n f s = modCore n g s := by
  simp only [modCore, mmod, show f (mget {} s.cores n) = g (mget {} s.cores n) from h]

/-- The interlock's wait adds to the cycles a bundle takes. -/
theorem coreWait_spent (n : Nat) (regs : List Nat) (k : BitVec 64) (s : State) (h : k ≠ 0 ∧ k.toNat ≤ 2 ^ 16) :
    ∃ j : BitVec 64, j ≠ 0 ∧ coreWait n regs (coreSpent n k s) = coreSpent n j s := by
  have key : ∀ w : Nat, w ≤ 2 ^ 32 → k + BitVec.ofNat 64 w ≠ 0 := by
    intro w hw hz
    have hk : k.toNat ≠ 0 := fun e => h.1 (BitVec.eq_of_toNat_eq (by simpa using e))
    have := congrArg BitVec.toNat hz
    have h2 := h.2
    simp [BitVec.toNat_add] at this
    omega
  refine ⟨_, key _ (Nat.min_le_right (regs.foldl (fun m r => max m (mget 0 (coreOf (coreSpent n k s) n).due r)) 0 -
    (coreOf (coreSpent n k s) n).cycles.toNat) (2 ^ 32)), ?_⟩
  simp only [coreWait, coreSpent, modCore_modCore, coreOf_modCore_same, BitVec.add_assoc]
  exact modCore_congr n rfl

theorem fetchBar_spent (n : BitVec 4) (k : BitVec 64) (s : State) (a : BitVec 64) (mem : Ecc) :
    fetchBar (coreSpent n.toNat k s) n a mem = fetchBar { s with draws := s.draws + 1 } n a mem := by
  have hp : (coreOf (coreSpent n.toNat k s) n.toNat).priv = (coreOf s n.toNat).priv := by
    simp only [coreSpent, coreOf_modCore_same]; rfl
  have hl : (coreOf (coreSpent n.toNat k s) n.toNat).iline = (coreOf s n.toNat).iline := by
    simp only [coreSpent, coreOf_modCore_same]; rfl
  unfold fetchBar coreProt fetchHit
  rw [hp, hl]
  rfl

theorem regG_spent (n : BitVec 4) (k : BitVec 64) (s : State) (r : BitVec 6) :
    regG (coreSpent n.toNat k s) (.core n) r = regG s (.core n) r := by
  simp only [regG, coreSpent, coreOf_modCore_same]; rfl

theorem regV_spent (n : BitVec 4) (k : BitVec 64) (s : State) (r : BitVec 4) :
    regV (coreSpent n.toNat k s) (.core n) r = regV s (.core n) r := by
  simp only [regV, coreSpent, coreOf_modCore_same]; rfl

theorem regP_spent (n : BitVec 4) (k : BitVec 64) (s : State) (r : BitVec 3) :
    regP (coreSpent n.toNat k s) (.core n) r = regP s (.core n) r := by
  simp only [regP, coreSpent, coreOf_modCore_same]; rfl

/-- A ready core issues the bundle of a row: the cycles it takes, then its slots. -/
theorem issueOne_core_slots {x : Iss} {s : State} {n : BitVec 4} (a : Act) (he : x.eng = .core n) (hr : coreReady s n)
    (hp : x.prog = .ok) (hg : xor (regP s x.eng x.pr) x.pn = true) :
    ∃ k : BitVec 64, k ≠ 0 ∧ issueOne x a s =
      match slotCause (ctxOf x (coreSpent n.toNat k s)) a (coreSpent n.toNat k s) with
      | some c => syncTrap n c (coreSpent n.toNat k s)
      | none => modCore n.toNat (coreNext (if x.slot.toNat = 0 then a.flow (ctxOf x (coreSpent n.toNat k s)) else .seq))
          (a.run (ctxOf x (coreSpent n.toNat k s)) (coreSpent n.toNat k s)) := by
  obtain ⟨h0, h1, h2, h3⟩ := hr
  have hset : settle s = s := by simp [settle, h0]
  obtain ⟨k₀, hk₀, hs⟩ := coreCycles_spent n.toNat s
  obtain ⟨k, hk, hw⟩ := coreWait_spent n.toNat (bundleReads (coreSpent n.toNat k₀ s) (.core n) (oneSlot x a)) k₀ s hk₀
  refine ⟨k, hk, ?_⟩
  have hi : coreIssues s n.toNat = true := by simp [coreIssues, h1, h2]
  have hg' : xor (regP (coreSpent n.toNat k s) x.eng x.pr) x.pn = true := by rw [he, regP_spent, ← he]; exact hg
  have h4 := runSlots_one x a (coreSpent n.toNat k s) (coreSpent n.toNat k s) hg'
  have h5 := bundleFlow_one x a (coreSpent n.toNat k s) hg'
  have hnf : ∀ b t, noteFetch b .ok t = t := fun _ _ => rfl
  have hctx : ∀ t, ctxOf x t = { pre := t, eng := Engine.core n, slot := x.slot.toNat, mem := x.mem } := fun t => by simp [ctxOf, he]
  rw [he] at h4 h5
  have h3' := h3 (s.draws + 1)
  rw [issueOne, he]
  simp only [hset, hi, if_true, issueCore, coreBundle, hs, hp, fetchBar_spent, h3', hnf, hw, h4, h5, hctx]
  cases hc : slotCause { pre := coreSpent n.toNat k s, eng := Engine.core n, slot := x.slot.toNat, mem := x.mem } a
    (coreSpent n.toNat k s) with
  | some c => rfl
  | none =>
    by_cases h0 : x.slot.toNat = 0
    · simp [h0]
    · simp [h0]

/-- An executing instruction on a core, in a slot that allows it, whose check finds nothing. -/
theorem issueOne_core {x : Iss} {s : State} {n : BitVec 4} {a : Act} {sl : List Nat} (he : x.eng = .core n)
    (h : issuable x sl s) (hsl : a.slots = sl) (hc : ∀ k, a.check (ctxOf x (coreSpent n.toNat k s)) (coreSpent n.toNat k s) = none) :
    ∃ k : BitVec 64, k ≠ 0 ∧ issueOne x a s =
      modCore n.toNat (coreNext (if x.slot.toNat = 0 then a.flow (ctxOf x (coreSpent n.toNat k s)) else .seq))
        (a.run (ctxOf x (coreSpent n.toNat k s)) (coreSpent n.toNat k s)) := by
  obtain ⟨hr, hp, hs, hg⟩ := h
  obtain ⟨k, hk, h⟩ := issueOne_core_slots a he (by simpa [ready, he] using hr) hp hg
  refine ⟨k, hk, ?_⟩
  have hcon : a.slots.contains x.slot.toNat = true := by simpa [hsl] using hs
  have hsc : slotCause (ctxOf x (coreSpent n.toNat k s)) a (coreSpent n.toNat k s) = none := by
    simp only [slotCause]
    rw [if_pos (by simpa [ctxOf] using hcon)]
    exact hc k
  rw [h, hsc]

/-! ## Either engine -/

/-- An instruction whose whole effect is one result that depends on the registers alone. -/
theorem writesReg_of {c : Instr} {x : Iss} {s : State} {a : Act} {sl : List Nat} {r : RegId} {v : BitVec 256} {lat : Nat}
    (hx : exec c s = .next (issueOne x a s)) (h : issuable x sl s) (hsl : a.slots = sl)
    (hc : ∀ t, (∀ g, regG t x.eng g = regG s x.eng g) → (∀ g, regV t x.eng g = regV s x.eng g) →
      (∀ g, regP t x.eng g = regP s x.eng g) → a.check (ctxOf x t) t = none)
    (hf : ∀ t, a.flow t = .seq)
    (hr : ∀ t, (∀ g, regG t x.eng g = regG s x.eng g) → (∀ g, regV t x.eng g = regV s x.eng g) →
      (∀ g, regP t x.eng g = regP s x.eng g) → a.run (ctxOf x t) t = put (ctxOf x t) r v lat t) :
    writesReg c x s r v lat := by
  unfold writesReg
  rw [hx]
  cases he : x.eng with
  | spindle n =>
    simp only
    rw [issueOne_spindle he h hsl (hc s (fun _ => rfl) (fun _ => rfl) (fun _ => rfl)), hr s (fun _ => rfl) (fun _ => rfl) (fun _ => rfl)]
    simp [hf, put, ctxOf, he, spnStep, flight]
  | core n =>
    simp only
    have hG : ∀ k g, regG (coreSpent n.toNat k s) x.eng g = regG s x.eng g := fun k g => by rw [he]; exact regG_spent n k s g
    have hV : ∀ k g, regV (coreSpent n.toNat k s) x.eng g = regV s x.eng g := fun k g => by rw [he]; exact regV_spent n k s g
    have hP : ∀ k g, regP (coreSpent n.toNat k s) x.eng g = regP s x.eng g := fun k g => by rw [he]; exact regP_spent n k s g
    obtain ⟨k, hk, h⟩ := issueOne_core he h hsl (fun k => hc _ (hG k) (hV k) (hP k))
    refine ⟨k, hk, ?_⟩
    rw [h, hr _ (hG k) (hV k) (hP k)]
    simp [hf, put, ctxOf, he, coreStep, coreSpent]

end Sys2Proof.Machine
end

