-- ==== Sys2Proof/Laws/Memory.lean ====
section
/-! SUPPORT. The laws of memory: what a write leaves in every byte, that every memory operation keeps the canonical form, and what the
operations over a stopped sequencer or with no commit due come to. -/

namespace Sys2Proof.Machine

/-! ## Bytes -/

/-- A read after a write: the bytes written, and every other byte as it was. -/
theorem mget_putBytes (a : Nat) (bs : List (BitVec 8)) (m : SMap (BitVec 8)) (j : Nat) :
    mget 0 (putBytes a bs m) j = if a ≤ j ∧ j < a + bs.length then bs.getD (j - a) 0 else mget 0 m j := by
  induction bs generalizing a m with
  | nil => simp [putBytes]
  | cons b bs ih =>
    simp only [putBytes, ih, List.length_cons]
    by_cases h : a = j
    · subst h
      simp [show ¬ (a + 1 ≤ a) by omega]
    · rw [mget_mset_other _ _ (Ne.symm h)]
      by_cases h1 : a + 1 ≤ j ∧ j < a + 1 + bs.length
      · rw [if_pos h1, if_pos (by omega), show j - a = (j - (a + 1)) + 1 by omega]
        simp
      · rw [if_neg h1, if_neg (by omega)]

/-- A write of bytes keeps the canonical form. -/
theorem putBytes_wf (a : Nat) (bs : List (BitVec 8)) (m : SMap (BitVec 8)) (h : Memory.wf m = true) : Memory.wf (putBytes a bs m) = true := by
  induction bs generalizing a m with
  | nil => exact h
  | cons b bs ih => exact ih _ _ (mwf_mset _ _ _ _ h)

theorem foldl_mem {β : Type} (f : State → β → State) (h : ∀ s b, (f s b).mem = s.mem) (l : List β) (s : State) :
    (l.foldl f s).mem = s.mem := by
  induction l generalizing s with
  | nil => rfl
  | cons b l ih => rw [List.foldl_cons, ih, h]

/-- What a write of memory leaves in memory. -/
@[simp] theorem writeMem_mem (w : Option Nat) (a : Nat) (bs : List (BitVec 8)) (s : State) :
    (writeMem w a bs s).mem = putBytes a bs s.mem := by
  have hl : (landBytes a bs s).mem = putBytes a bs s.mem := by
    simp only [landBytes]
    rw [foldl_mem]
    intro s b
    split <;> rfl
  simp only [writeMem, dropResv]
  split
  · exact hl
  · exact hl

/-- Every byte after a write of memory. -/
theorem memByte_writeMem (w : Option Nat) (a : Nat) (bs : List (BitVec 8)) (s : State) (j : Nat) :
    memByte (writeMem w a bs s) j = if a ≤ j ∧ j < a + bs.length then bs.getD (j - a) 0 else memByte s j := by
  simp only [memByte, writeMem_mem, mget_putBytes]

theorem mem_of_quiet {s t : State} (h : quiet s = quiet t) : s.mem = t.mem :=
  (congrArg State.mem h : (quiet s).mem = (quiet t).mem)

@[simp] theorem mergeNotice_mem (a n : Nat) (s : State) : (mergeNotice a n s).mem = s.mem := by
  simp only [mergeNotice]
  apply foldl_mem
  intro s u
  split
  · split
    · exact mem_of_quiet (by simp)
    · rfl
  · rfl

@[simp] theorem mergeCut_mem (a n : Nat) (s : State) : (mergeCut a n s).mem = s.mem := by
  simp only [mergeCut]; split <;> rfl

/-- What a master's write leaves in memory. -/
@[simp] theorem busWrite_mem (w : Option Nat) (a : Nat) (bs : List (BitVec 8)) (s : State) :
    (busWrite w a bs s).mem = putBytes a bs s.mem := by
  simp [busWrite, cleanLines]

/-- Every memory operation keeps the canonical form. -/
theorem memory_ops_wf (w : Option Nat) (a : Nat) (bs : List (BitVec 8)) (s : State) (h : Memory.wf s.mem = true) :
    Memory.wf (writeMem w a bs s).mem = true ∧ Memory.wf (busWrite w a bs s).mem = true ∧ Memory.wf (putBytes a bs s.mem) = true := by
  simp only [writeMem_mem, busWrite_mem]
  exact ⟨putBytes_wf _ _ _ h, putBytes_wf _ _ _ h, putBytes_wf _ _ _ h⟩

/-! ## No commit due, no sequencer -/

@[simp] theorem settle_idle (s : State) (h : s.reel.commitDue = false) : settle s = s := by simp [settle, h]

@[simp] theorem controlSlot_stopped (s : State) (n : Nat) (h : s.reel.run = false) : controlSlot s n = some hankCycles := by
  simp [controlSlot, h]

@[simp] theorem keepOld_stopped (n u left : Nat) (s : State) (h : s.reel.run = false) : keepOld n u left s = s := by
  simp [keepOld, h]

end Sys2Proof.Machine
end

