-- ==== Sys2Proof/WellFormed.lean ====
section
/-! DEFINITION. Which commands name things that exist: the checks on operands that their types do not make. -/

namespace Sys2Proof

open Sys2Proof.Machine

/-- The longest payload of a Tilost message (R551). -/
def maxPayload : Nat := 1048576

/-- A sensor of R579: 0 to 28. -/
def sensorExists (n : BitVec 5) : Bool := decide (n.toNat ≤ 28)

/-- A comparator of R581: beside each junction sensor, 0 to 27. -/
def comparatorExists (n : BitVec 5) : Bool := decide (n.toNat ≤ 27)

/-- A rail of R615: 0 to 5. -/
def railExists (n : BitVec 3) : Bool := decide (n.toNat ≤ 5)

/-- How many copies of a table entry can be bad: 0 to 2 (R480). -/
def copiesPossible (n : BitVec 2) : Bool := decide (n.toNat ≤ 2)

/-- A TLS record is no longer than its 16-bit length field and its header allow. -/
def recordFits (l : List (BitVec 8)) : Bool := decide (l.length ≤ 5 + 65535)

/-- The pins of a channel's field (R409, R647), row by row: pins 0–7 are DQ, 8 to 16 DQS_t to R/B_n, 17–32 the chip enables; `none` is a ground or
supply ball. -/
def channelField : List (List (Option Nat)) :=
  [ [some 17, some 18, some 19, some 20, none], [some 21, some 22, some 23, some 24, none],
    [some 25, some 26, some 27, some 28, none], [some 29, some 30, some 31, some 32, none],
    [some 12, some 13, some 14, some 15, some 16], [some 0, some 1, none, some 2, some 3],
    [some 8, some 9, none, some 10, some 11], [some 4, some 5, none, some 6, some 7] ]

/-- Row and column of a pin in its field. -/
def pinPlace (p : Nat) : Option (Nat × Nat) :=
  (channelField.zipIdx.map (fun r => r.1.zipIdx.filterMap (fun e => if e.1 = some p then some (r.2, e.2) else none))).flatten.head?

/-- Two pins of a channel are neighbours: next to each other in one row or one column of the field (R647). -/
def pinNeighbours (a b : Nat) : Bool :=
  match pinPlace a, pinPlace b with
  | some x, some y => (x.1 = y.1 && (x.2 + 1 = y.2 || y.2 + 1 = x.2)) || (x.2 = y.2 && (x.1 + 1 = y.1 || y.1 + 1 = x.1))
  | _, _ => false

/-- A pin test's finding names pins of the channel: one pin, or for KIND 3 a pin and its neighbour (R382, R409). -/
def pinFault (kind : BitVec 4) (a b : BitVec 8) : Bool :=
  kind = 0 || (if kind = 3 then pinNeighbours a.toNat b.toNat else kind.toNat ≤ 4 && a.toNat ≤ 32)

/-- A well-formed command. -/
def WellFormed (i : Instr) : Bool :=
  match i with
  | .sensorSample n _ => sensorExists n
  | .comparatorTrip n => comparatorExists n
  | .railOutOfRegulation n _ => railExists n
  | .lockAcquire _ _ _ c => copiesPossible c
  | .imageData _ _ _ bytes => decide (8 + bytes.length ≤ maxPayload)
  | .registerWrite _ _ _ vs => decide (12 + 4 * vs.length ≤ maxPayload)
  | .internalCommand _ _ _ buf => decide (64 + buf.length ≤ maxPayload)
  | .boardDescription _ _ ws => decide (4 * ws.length ≤ maxPayload)
  | .tlsRecord _ l => recordFits l
  | .pinTestComplete _ kind a b => pinFault kind a b
  | _ => true

end Sys2Proof
end

