-- ==== Sys2Proof/Tests/Slice0.lean ====
section
/-! SUPPORT. Tests: WellFormed refuses an ill-formed command for each of its checks; slot words and bundles written out from the
encoding tables of R97 to R105 decode as they should; and for each statement with hypotheses a state and operands that meet them
(`witness_<Statement>…`), clause by clause at a boundary of its range. Each state is small and built by a helper. -/

namespace Sys2Proof.Tests

set_option Elab.async false

open Sys2Proof.Machine

/-! ## WellFormed -/

theorem test_sensor_29_refused : WellFormed (.sensorSample 29 0) = false ∧ WellFormed (.sensorSample 28 0) = true := by decide

theorem test_comparator_28_refused : WellFormed (.comparatorTrip 28) = false ∧ WellFormed (.comparatorTrip 27) = true := by decide

theorem test_rail_6_refused : WellFormed (.railOutOfRegulation 6 0) = false ∧ WellFormed (.railOutOfRegulation 5 0) = true := by decide

theorem test_pins_not_neighbours_refused :
    WellFormed (.pinTestComplete 0 3 17 19) = false ∧ WellFormed (.pinTestComplete 0 3 17 21) = true ∧ WellFormed (.pinTestComplete 0 1 33 0) = false ∧
    WellFormed (.pinTestComplete 0 1 32 0) = true := by decide

theorem test_three_bad_copies_refused (x : Iss) (v : BitVec 4) (p : BitVec 3) :
    WellFormed (.lockAcquire x v p 3) = false ∧ WellFormed (.lockAcquire x v p 2) = true := ⟨rfl, rfl⟩

theorem test_long_payloads_refused :
    WellFormed (.imageData 0 0 0 (List.replicate 1048569 0)) = false ∧ WellFormed (.registerWrite 0 0 0 (List.replicate 262142 0)) = false ∧
    WellFormed (.internalCommand 0 0 0 (List.replicate 1048513 0)) = false ∧
    WellFormed (.boardDescription 0 0 (List.replicate 262145 0)) = false ∧ WellFormed (.tlsRecord 0 (List.replicate 65541 0)) = false := by
  simp only [WellFormed, maxPayload, recordFits, List.length_replicate]; decide

theorem test_longest_payloads_accepted :
    WellFormed (.imageData 0 0 0 (List.replicate 1048568 0)) = true ∧ WellFormed (.registerWrite 0 0 0 (List.replicate 262141 0)) = true ∧
    WellFormed (.internalCommand 0 0 0 (List.replicate 1048512 0)) = true ∧
    WellFormed (.boardDescription 0 0 (List.replicate 262144 0)) = true ∧ WellFormed (.tlsRecord 0 (List.replicate 65540 0)) = true := by
  simp only [WellFormed, maxPayload, recordFits, List.length_replicate]; decide

/-! ## Engines -/

/-- Spindle 5 of a running deck, about to issue the bundle at 0, changed as `f` says. -/
def spinning (f : Spindle → Spindle := id) : State :=
  { reel := { run := true, deck := 1 }, spindles := [(5, f { state := 1, a1 := 16, a2 := 32 })] }

/-- Core 2 running in supervisor mode at the start of SRAM, changed as `f` says. -/
def corely (f : CoreSt → CoreSt := id) : State :=
  { cores := [(2, f { running := true, priv := true, a0 := 0x10000000, a1 := 0x10000010, a2 := 0x10000020 })] }

/-- An unguarded instruction of spindle 5 in a slot. -/
def on5 (slot : BitVec 2) : Iss := { eng := .spindle 5, slot := slot }

/-- An unguarded instruction of core 2 in a slot. -/
def on2 (slot : BitVec 2) : Iss := { eng := .core 2, slot := slot }

theorem witness_spnReady (f : Spindle → Spindle) (h : f { state := 1, a1 := 16, a2 := 32 } = { state := 1, a1 := 16, a2 := 32 }) :
    spnReady (spinning f) 5 := by
  unfold spinning; rw [h]; exact ⟨rfl, rfl, rfl, by decide, by decide, rfl⟩

theorem witness_spindle_issuable : issuable (on5 0) [0] (spinning) ∧ issuable (on5 0) [0, 1] (spinning) ∧ issuable (on5 1) [0, 1] (spinning) ∧
    issuable (on5 1) [1] (spinning) ∧ issuable (on5 1) [1, 3] (spinning) ∧ issuable (on5 3) [1, 3] (spinning) ∧
    issuable (on5 2) [2] (spinning) ∧ issuable (on5 3) [2, 3] (spinning) ∧ issuable (on5 3) [0, 2, 3] (spinning) := by
  have r : ready (spinning) (.spindle 5) := witness_spnReady id rfl
  exact ⟨⟨r, rfl, by decide, rfl⟩, ⟨r, rfl, by decide, rfl⟩, ⟨r, rfl, by decide, rfl⟩, ⟨r, rfl, by decide, rfl⟩, ⟨r, rfl, by decide, rfl⟩,
    ⟨r, rfl, by decide, rfl⟩, ⟨r, rfl, by decide, rfl⟩, ⟨r, rfl, by decide, rfl⟩, ⟨r, rfl, by decide, rfl⟩⟩

/-- A region that lets every core use the first MiB of SRAM in user mode. -/
def anyCore : SMap Region := [(0, { base := 0x10000, limit := 0x100FF, valid := true, x := true, w := true, r := true, mask := 0xFFFF })]

theorem witness_core_ready : coreReady (corely) 2 ∧ coreReady { corely (fun y => { y with priv := false }) with memp := { regions := anyCore } } 2 :=
  ⟨⟨rfl, rfl, rfl, fun _ => rfl⟩, ⟨rfl, rfl, rfl, fun _ => rfl⟩⟩


/-! ## Slot words, from the formats of R103 and the opcodes of R105 -/

theorem test_g3_mulhu : decodeSlot (0#1 ++ 0#3 ++ 0b0001010#7 ++ 0b000001#6 ++ 0b000010#6 ++ 0b000100#6 ++ 0#3) = (false, 0, some (.mulhu 1 2 4)) := by
  decide

theorem test_gi_sari : decodeSlot (1#1 ++ 0b101#3 ++ 0b0010111#7 ++ 0b100000#6 ++ 0b000011#6 ++ 0b000111111#9) = (true, 5, some (.sari 32 3 63)) := by
  decide

theorem test_gl_movs : decodeSlot (0#1 ++ 0b111#3 ++ 0b0011001#7 ++ 0b000101#6 ++ 0b100000000000001#15) = (false, 7, some (.movs 5 0x4001)) := by decide

theorem test_cpi_cmpltui : decodeSlot (0#1 ++ 0#3 ++ 0b0101000#7 ++ 0b100#3 ++ 0b000110#6 ++ 0b111111111111#12) = (false, 0, some (.cmpltui 4 6 0xFFF)) := by
  decide

theorem test_v3_vshuf :
    decodeSlot (0#1 ++ 0#3 ++ 0b1000010#7 ++ 0b0001#4 ++ 0b0010#4 ++ 0b0100#4 ++ 0b1000#4 ++ 0#5) = (false, 0, some (.vshuf 1 2 4 8 0)) := by decide

theorem test_vm_vst : decodeSlot (0#1 ++ 0#3 ++ 0b0111001#7 ++ 0b1001#4 ++ 0b000110#6 ++ 0b10000000001#11) = (false, 0, some (.vst 9 6 0x401)) := by decide

theorem test_vg_vinsg : decodeSlot (0#1 ++ 0#3 ++ 0b1010001#7 ++ 0b0011#4 ++ 0b000110#6 ++ 0b10#2 ++ 0#9) = (false, 0, some (.vinsg 3 6 2)) := by decide

theorem test_st_scmd :
    decodeSlot (0#1 ++ 0#3 ++ 0b1100010#7 ++ 0b0011#4 ++ 0b1010#4 ++ 0b101#3 ++ 0#6 ++ 0b0110#4) = (false, 0, some (.scmd 3 10 5 6)) := by decide

theorem test_br_brl : decodeSlot (0#1 ++ 0#3 ++ 0b1110001#7 ++ 0b100000000000000000010#21) = (false, 0, some (.brl 0x100002)) := by decide

theorem test_sy_mtsr : decodeSlot (0#1 ++ 0#3 ++ 0b1110101#7 ++ 0#6 ++ 0b001100#6 ++ 0b000000011#9) = (false, 0, some (.mtsr 3 12)) := by decide

theorem witness_StepKeepsMemory : memOk State.reset ∧ step State.reset = .next (idleCycle State.reset) := ⟨by unfold memOk; decide, rfl⟩

theorem witness_core_issuable : issuable (on2 0) [0, 1] (corely) ∧ issuable (on2 1) [1] (corely) ∧ issuable (on2 2) [0, 2, 3] (corely) ∧
    issuable (on2 2) [2] (corely) := by
  have r : ready (corely) (.core 2) := witness_core_ready.1
  exact ⟨⟨r, rfl, by decide, rfl⟩, ⟨r, rfl, by decide, rfl⟩, ⟨r, rfl, by decide, rfl⟩, ⟨r, rfl, by decide, rfl⟩⟩

/-- Core 2 in user mode, which a region lets use SRAM. -/
def userly (f : CoreSt → CoreSt := id) : State := { corely (fun y => f { y with priv := false }) with memp := { regions := anyCore } }

theorem witness_user_issuable : issuable (on2 0) [0] (userly) := ⟨witness_core_ready.2, rfl, by decide, rfl⟩

theorem witness_GuardsAndNop :
    (ready (spinning) (.spindle 5) ∧ ready (corely) (.core 2)) ∧
    xor (regP (spinning) (.spindle 5) 0) true = false ∧ xor (regP (spinning) (.spindle 5) 0) false = true ∧
    xor (regP (spinning (fun y => { y with p := [(3, true)] })) (.spindle 5) 3) false = true ∧ (on5 1).slot.toNat < 2 ∧ (on5 1).pr = 0 :=
  ⟨⟨witness_spnReady id rfl, witness_core_ready.1⟩, by decide, by decide, by decide, by decide, rfl⟩

theorem witness_FetchSequence :
    ({ state := 1, endLeft := none } : Spindle).state = 1 ∧ issuable (on5 0) [0] (spinning) ∧ issuable (on2 0) [0] (corely) ∧
    (let T := BitVec.ofNat 64 (spn (spinning) 5).a0 + (0x1FFF : BitVec 21).signExtend 64 * 16; T.toNat % 16 = 0 ∧ T.toNat < 0x20000) ∧
    (let A := regG (spinning (fun y => { y with g := [(7, 0x1FFF0)] })) (.spindle 5) 7; A.toNat % 16 = 0 ∧ A.toNat < 0x20000) ∧
    (let T := (coreOf (corely) 2).a0 + (0x1FFFFF : BitVec 21).signExtend 64 * 16; T.toNat % 16 = 0) ∧ (regG (corely) (.core 2) 7).toNat % 16 = 0 := by
  have r : ready (spinning) (.spindle 5) := witness_spnReady id rfl
  have c : ready (corely) (.core 2) := witness_core_ready.1
  exact ⟨rfl, ⟨r, rfl, by decide, rfl⟩, ⟨c, rfl, by decide, rfl⟩, by decide, by decide, by decide, by decide⟩

theorem witness_ReturnFromTrap : (on2 0).eng = .core 2 ∧ issuable (on2 0) [0] (corely) ∧ (coreOf (corely) 2).priv = true :=
  ⟨rfl, ⟨witness_core_ready.1, rfl, by decide, rfl⟩, rfl⟩

/-- Integer, count, compare, vector and field statements ask for nothing but an instruction that executes. -/
theorem witness_plain_instructions : issuable (on5 0) [0, 1] (spinning) ∧ issuable (on2 1) [0, 1] (corely) ∧ issuable (on5 2) [2] (spinning) ∧
    issuable (on5 3) [0, 2, 3] (spinning) ∧ issuable (on5 2) [2, 3] (spinning) ∧ (3 : BitVec 5).toNat < 4 ∧ (7 : BitVec 5).toNat < 8 ∧
    regG (spinning (fun y => { y with g := [(9, 1)] })) (.spindle 5) 9 ≠ 0 := by
  have r : ready (spinning) (.spindle 5) := witness_spnReady id rfl
  have c : ready (corely) (.core 2) := witness_core_ready.1
  exact ⟨⟨r, rfl, by decide, rfl⟩, ⟨c, rfl, by decide, rfl⟩, ⟨r, rfl, by decide, rfl⟩, ⟨r, rfl, by decide, rfl⟩, ⟨r, rfl, by decide, rfl⟩,
    by decide, by decide, by decide⟩

theorem witness_SpindleFaults :
    spnReady (spinning) 5 ∧ xor (regP (spinning) (.spindle 5) 0) false = true ∧ (on5 2).prog = .ok ∧ 2 ≤ (on5 2).slot.toNat ∧ (on5 1).slot.toNat < 2 ∧
    3 ≤ (3 : BitVec 3).toNat ∧ 6 ≤ (6 : BitVec 3).toNat ∧ (on5 1).slot.toNat = 1 ∧ (1 : BitVec 3) ≠ 0 ∧ (on5 0).slot.toNat = 0 ∧ (6 : Nat) ≠ 5 :=
  ⟨witness_spnReady id rfl, by decide, rfl, by decide, by decide, by decide, by decide, by decide, by decide, by decide, by decide⟩

/-- The last aligned place of scratch memory, in g9. -/
def lastScratch (len : Nat) : State := spinning (fun y => { y with g := [(9, BitVec.ofNat 64 (0x40000 - len))] })

theorem witness_ScratchAccesses :
    issuable (on5 1) [1] (spinning) ∧ (on5 1).mem = .ok ∧
    (∀ len ∈ [1, 2, 4, 8], let a := (regG (lastScratch len) (.spindle 5) 9 + (0 : BitVec 9).signExtend 64 * BitVec.ofNat 64 len).toNat;
      a % len = 0 ∧ a + len ≤ 0x40000 ∧ mget false (spn (lastScratch len) 5).scBad (a / 32) = false) ∧
    (let a := (regG (lastScratch 32) (.spindle 5) 9 + (0 : BitVec 11).signExtend 64 * 32).toNat;
      a % 32 = 0 ∧ a + 32 ≤ 0x40000 ∧ mget false (spn (lastScratch 32) 5).scBad (a / 32) = false) ∧ (on5 1).slot = 1 ∧ (on5 2).slot = 2 :=
  ⟨witness_spindle_issuable.2.2.2.1, rfl, by decide, by decide, rfl, rfl⟩

theorem witness_ScratchFaults :
    let bad : State := spinning (fun y => { y with g := [(9, 0x40)], scBad := [(2, true)] })
    let A := fun (s : State) (i : BitVec 9) => (regG s (.spindle 5) 9 + i.signExtend 64 * 8).toNat
    let V := fun (s : State) (j : BitVec 11) => (regG s (.spindle 5) 9 + j.signExtend 64 * 32).toNat
    (on5 1).slot = 1 ∧ (on5 2).slot = 2 ∧ A (lastScratch 4) 0 % 8 ≠ 0 ∧ (A (lastScratch 8) 1 % 8 = 0 ∧ 0x40000 < A (lastScratch 8) 1 + 8) ∧
    (A bad 0 % 8 = 0 ∧ A bad 0 + 8 ≤ 0x40000 ∧ mget false (spn bad 5).scBad (A bad 0 / 32) = true) ∧ V (lastScratch 8) 0 % 32 ≠ 0 ∧
    (V (lastScratch 32) 1 % 32 = 0 ∧ 0x40000 < V (lastScratch 32) 1 + 32) := by decide

theorem witness_CoreMemory :
    let s := corely (fun y => { y with g := [(9, 0x107FFFF8)], resv := some (0x107FFFF8 / 64) })
    let A := regG s (.core 2) 9 + (0 : BitVec 9).signExtend 64 * 8
    issuable (on2 1) [1] s ∧ (on2 1).mem = .ok ∧ placeOf s A.toNat = .sram ∧ coreBar true s 2 A 8 .read .ok = none ∧
    coreBar true s 2 A 8 .write .ok = none ∧ mget 0 (coreOf s 2).due (3 : BitVec 6).toNat = 0 ∧ (coreOf s 2).resv = some ((regG s (.core 2) 9).toNat / 64) ∧
    (3 : BitVec 6) ≠ 0 :=
  ⟨⟨⟨rfl, rfl, rfl, fun _ => rfl⟩, rfl, by decide, rfl⟩, rfl, by decide, by decide, by decide, by decide, by decide, by decide⟩

theorem witness_VectorOperations :
    issuable (on5 2) [2] (spinning) ∧ (on5 2).mem = .ok ∧
    (let P := (regG (lastScratch 32) (.spindle 5) 9 + (0 : BitVec 11).signExtend 64 * 32).toNat;
      P % 32 = 0 ∧ P + 32 ≤ 0x40000 ∧ mget false (spn (lastScratch 32) 5).scBad (P / 32) = false) ∧ (7 : BitVec 5).toNat < 8 :=
  ⟨witness_spindle_issuable.2.2.2.2.2.2.1, rfl, by decide, by decide⟩


/-! ## Ports, locks and slots -/

/-- A unit from values at byte offsets. -/
def unitAt (l : List (Nat × Nat)) : BitVec 256 := BitVec.ofNat 256 ((l.map (fun p => p.2 * 2 ^ (8 * p.1))).sum)

/-- An entry of one slot: type, resource kind and number, start and length. -/
def oneSlot (typ kind base start len : Nat) (owner : Nat := 1) : SlotEntry :=
  { typ := typ, kind := kind, base := base, start := start, len := len, owner := owner, phases := 1 }

/-- A deck with an issue slot of spindle 5, a read window, a program slice, an erase slice and a housekeeping window of die 0, and a
cipher, a DRAM port, a transmit and a program transfer slot. -/
def slotDeck : Deck :=
  { mode := 1, slots := [oneSlot 8 5 5 0 8192, { oneSlot 2 1 0 10000 4000 with cap := 1, first := 0 }, oneSlot 3 1 0 20000 4000, oneSlot 4 1 0 30000 4000,
      oneSlot 10 1 0 40000 4000, oneSlot 6 3 2 0 1056, oneSlot 7 4 0 0 4096, oneSlot 5 7 0 0 4096, oneSlot 5 2 0 0 8192],
    places := [{ owner := 1, plane := 0, hard := 4, transfer := 99 }] }

/-- The grants of the entries named, which begin now. -/
def grantsOf (l : List Nat) : List Grant := l.filterMap (fun k => slotDeck.slots[k]?.map (fun e => { slot := e, entry := k, since := 0 }))

/-- Spindle 5 in its issue slot, with the other slots that begin at cycle 0, under an image that gives class 1 DRAM and keys. -/
def slotted (f : Spindle → Spindle := id) : State :=
  let s := spinning f
  { s with reel := { s.reel with tt := slotDeck, grants := grantsOf [0, 5, 6, 7, 8] },
           store := { running := some { parts := [{ owner := 1, dram := [(0x1000000000, 65536)], keys := [(0, 64)] }] } },
           ciph := { slots := [(3, { key := 7, use := 1, limit := 35 })] } }

/-- The same with `u` in v1. -/
def withV (u : BitVec 256) (s : State) : State := modSpn 5 (fun y => { y with v := mset 0 1 u y.v }) s

theorem witness_slotted (u : BitVec 256) (slot : BitVec 2) (h : slot.toNat ∈ [1, 3]) : issuable (on5 slot) [1, 3] (withV u (slotted)) :=
  ⟨⟨rfl, rfl, rfl, nofun, show 0 < 0x20000 by decide, rfl⟩, rfl, h, rfl⟩

theorem witness_StreamPorts :
    let full := spinning (fun y => { y with cmpl := List.replicate 32 0 })
    let some_ := spinning (fun y => { y with cmpl := List.replicate 31 0, evq := List.replicate 7 {}, rxq := [5] })
    issuable (on5 1) [1, 3] some_ ∧ issuable (on5 3) [1, 3] full ∧ (spn some_ 5).cmpl.length < 32 ∧ 32 ≤ (spn full 5).cmpl.length ∧
    (spn some_ 5).evq.length < 8 ∧ 0x80 ≤ (0x80 : BitVec 256).toNat % 256 ∧ (spn some_ 5).rxq = 5 :: [] ∧ (spn full 5).rxq = [] ∧
    ∀ port < 16, portGrant full 5 port = none :=
  ⟨⟨⟨rfl, rfl, rfl, by decide, by decide, rfl⟩, rfl, by decide, rfl⟩, ⟨⟨rfl, rfl, rfl, by decide, by decide, rfl⟩, rfl, by decide, rfl⟩,
    by decide, by decide, by decide, by decide, rfl, rfl, by decide⟩

/-- The descriptors of POST: a read, a program, an erase, a temperature read. -/
def postUnits : List (BitVec 256) := [unitAt [(6, 16), (8, 0xFFFF)], unitAt [(6, 0x3F), (8, 2)], unitAt [(8, 3)], unitAt [(8, 4)]]

theorem witness_DescriptorQueues_post :
    (spn (slotted (fun y => { y with post := 63 })) 5).post < 64 ∧
    (∀ fn < 4, postOk (slotted) (postDesc (issueOwner (slotted) 5) fn (postUnits.getD fn 0)) (postUnits.getD fn 0) = true) ∧
    bookFor (slotted) (postDesc 1 0 (postUnits.getD 0 0)) ≠ none ∧
    (let s := { slotted with reel := { (slotted).reel with tt := { slotDeck with places := [] } } }
     bookFor s (postDesc 1 0 (postUnits.getD 0 0)) = none ∧ postOk s (postDesc 1 0 (postUnits.getD 0 0)) (postUnits.getD 0 0) = true) ∧
    isLost (slotted) 0 = false := by decide

/-- Class 0x100 holds the issue slot and the housekeeping window. -/
def resident : State :=
  let e := oneSlot 8 5 5 0 8192 0x100
  let s := spinning
  { s with reel := { s.reel with tt := { slots := [e, oneSlot 10 1 0 40000 4000 0x100] }, grants := [{ slot := e }] } }

theorem witness_DescriptorQueues_raw :
    let d := postDesc (issueOwner resident 5) 4 (unitAt [(6, 16), (8, 1)])
    postOk resident d (unitAt [(6, 16), (8, 1)]) = true ∧ rawRefusal resident d = none := by decide

/-- A command of connection 4 with identifier 9, and a share of the lock table for class 1. -/
def locking (marked : Bool) (held : List (Nat × Option LockEnt)) : State :=
  let s := slotted
  { s with tables := { cmds := [{ conn := 4, cid := 9, opcode := 2, cls := 1, phase := .posted }], shares := [(1, 8192)], locks := held,
                       marks := if marked then [(4, 9)] else [] } }

/-- An acquire of one block for that command, and its abort mark. -/
def acquireUnit : BitVec 256 := unitAt [(0, 5), (4, 77), (16, 1), (24, 4), (26, 9)]

theorem witness_DescriptorQueues_lock :
    let s := locking false []
    let e := lockDesc 5 1 acquireUnit
    (spn (slotted (fun y => { y with lockReq := 15 })) 5).lockReq < 16 ∧ issueOwner s 5 = 1 ∧ lockOk s 1 0 acquireUnit = true ∧ e.count ≠ 0 ∧
    acquireCmd s e.conn e.cid e.internal ≠ none ∧ (!e.internal && s.tables.marks.contains (e.conn, e.cid)) = false ∧
    lockUse s 1 < mget 0 s.tables.shares 1 ∧ freeLockEntry s = some 0 ∧
    lockOk (locking false [(3, some { owner := 1, granted := true })]) 1 1 (unitAt [(0, 3)]) = true ∧
    (let m := unitAt [(0, 4), (4, 77), (8, 9)]
     lockOk s 1 2 m = true ∧ (liveCmd s (BitVec.ofNat 16 (ubytes m 0 2)) (BitVec.ofNat 16 (ubytes m 8 2))).any (fun c => !c.locks.contains 65535) = true ∧
     locksOf s 4 9 false = []) := by decide

theorem witness_GrantedDescriptors :
    let s := slotted
    let cin := unitAt [(0, 3), (2, 2048)]
    let dr := unitAt [(0, 0x1000000000), (8, 1024)]
    let tx := fun (fn : Nat) => if fn = 0 then unitAt [(2, 1024), (4, 4)] else if fn = 1 then unitAt [(2, 984)] else unitAt [(0, 0xFFFF), (2, 9212)]
    (∀ port ∈ [5, 6, 8, 11], portGrant s 5 port ≠ none ∧ ∀ fn < 2, cmdOpen (spn s 5) port fn = false) ∧ keyRefusal (keyOf s 3) = none ∧
    (∀ g, portGrant s 5 6 = some g → cmdOk s g 6 0 cin = true ∧ cmdOk s g 6 1 cin = true) ∧
    (∀ g, portGrant s 5 8 = some g → cmdOk s g 8 0 dr = true ∧ cmdOk s g 8 1 dr = true ∧ g.late = false) ∧ dinLoad (spn s 5) + 1024 ≤ 1024 ∧
    (∀ g, portGrant s 5 11 = some g → cmdOk s g 11 0 (tx 0) = true ∧ cmdOk s g 11 1 (tx 1) = true ∧
      cmdOk s { g with slot := { g.slot with owner := 0 } } 11 2 (tx 2) = true) ∧ (∀ fn < 3, ubytes (tx fn) 2 2 ≠ 0) ∧
    (∀ g, portGrant s 5 5 = some g → cmdOk s g 5 0 (unitAt [(4, 8207)]) = true) ∧
    ∀ port ∈ [5, 8, 11], ∀ g, portGrant s 5 port = some g →
      crossingLoad s (grantQueue port g).1 (grantQueue port g).2 s.reel.core < crossingDepth (grantQueue port g).1 := by
  refine ⟨by decide, by decide, ?_, ?_, by decide, ?_, by decide, ?_, ?_⟩
  · intro g h; cases h; decide
  · intro g h; cases h; decide
  · intro g h; cases h; decide
  · intro g h; cases h; decide
  · intro port h
    have e : port = 5 ∨ port = 8 ∨ port = 11 := by simpa using h
    rcases e with rfl | rfl | rfl <;> (intro g h; cases h; decide)

theorem witness_SpindleControl : issuable (on5 0) [0] (spinning) := witness_spindle_issuable.1

theorem witness_TrapsAndSystem :
    issuable (on2 0) [0] (corely) ∧ issuable (on2 0) [0] (userly) ∧ issuable (on2 1) [1] (corely) ∧ (coreOf (corely) 2).priv = true ∧
    (coreOf (corely) 2).intrap = false ∧ (coreOf (userly) 2).intrap = false ∧ (coreOf (userly) 2).priv = false ∧
    (coreOf (corely (fun y => { y with intrap := true })) 2).intrap = true ∧ issuable (on2 0) [0] (corely (fun y => { y with intrap := true })) :=
  ⟨⟨witness_core_ready.1, rfl, by decide, rfl⟩, ⟨witness_core_ready.2, rfl, by decide, rfl⟩, ⟨witness_core_ready.1, rfl, by decide, rfl⟩, rfl, rfl, rfl,
    rfl, rfl, ⟨⟨rfl, rfl, rfl, fun _ => rfl⟩, rfl, by decide, rfl⟩⟩

/-- A source that core 2 is signalled. -/
def signalling (f : CoreSt → CoreSt) : State := { corely f with intc := { src := [(7, { pend := true, wake := true, target := 2, prio := 1 })] } }

theorem witness_CachesAndInterrupts :
    issuable (on5 0) [0] (spinning) ∧ issuable (on2 0) [0] (corely) ∧ issuable (on2 0) [0] (userly) ∧ mget [] (coreOf (corely) 2).dirty 0 = [] ∧
    (let s := signalling (fun y => { y with ie := true })
     (coreOf s 2).running = true ∧ (coreOf s 2).sleeping = false ∧ (coreOf s 2).ie = true ∧ signalled s 2 = true) ∧
    (let s := signalling (fun y => { y with ie := true, sleeping := true })
     (coreOf s 2).running = true ∧ (coreOf s 2).sleeping = true ∧ wakes s 2 = true ∧ (coreOf s 2).ie = true) ∧
    (let s := signalling (fun y => { y with sleeping := true }); (coreOf s 2).sleeping = true ∧ wakes s 2 = true ∧ (coreOf s 2).ie = false) ∧
    wakes (corely) 2 = false ∧ (coreOf (corely) 2).waits = [] :=
  ⟨⟨witness_spnReady id rfl, rfl, by decide, rfl⟩, ⟨witness_core_ready.1, rfl, by decide, rfl⟩, ⟨witness_core_ready.2, rfl, by decide, rfl⟩, rfl,
    by decide, by decide, by decide, by decide, rfl⟩

theorem witness_ResultsLand :
    let f : Inflight := { reg := .g 3, val := 5, due := 1 }
    let s := spinning (fun y => { y with issuedAt := some 0, fly := [f] })
    mwf {} s.spindles = true ∧ s.reel.commitDue = false ∧ s.reel.cycle ≠ 8191 ∧ firstDue (spn s 5).fly = some f.due ∧ f.due = s.reel.core + 1 ∧
    (∀ m, spnIssues s m = true → (spn s m).issuedAt = some s.reel.core) ∧
    ((3 : BitVec 6) ≠ 0 ∧ ({ f with slot := 0 } : Inflight).slot < ({ f with slot := 1 } : Inflight).slot) ∧ (0 : Nat) < f.due := by
  refine ⟨by decide, rfl, by decide, by decide, rfl, ?_, by decide, by decide⟩
  intro m h
  by_cases e : m = 5
  · subst e; rfl
  · rw [show spn (spinning (fun y => { y with issuedAt := some 0, fly := [{ reg := .g 3, val := 5, due := 1 }] })) m = {} from
      by simp [spinning, spn, mget, Ne.symm e]] at *
    simp [spnIssues, spn, spinning, mget, Ne.symm e] at h

theorem witness_UnitsBecomeReady :
    let locked := spinning (fun y => { y with lockOut := [5], lockRes := List.replicate 15 0 })
    let laned : State := { (spinning) with lanes := [(5, { pipe := [{ data := 1, due := 0 }] })] }
    let discards : State := { slotted (fun y => { y with state := 3 }) with lanes := [(2, { pipe := [{ data := 1, due := 0 }] })] }
    let held := { discards with reel := { discards.reel with grants := discards.reel.grants.map (fun g => { g with spindle := some 5 }) } }
    let reading := spinning (fun y => { y with dreads := [{ addr := 0x1000000000, left := 1, due := 112 }] })
    let evented := spinning (fun y => { y with evq := [{ unit := 0x80 }] })
    let later := { evented with reel := { evented.reel with core := 1 } }
    ((spn locked 5).lockOut = 5 :: [] ∧ (spn locked 5).lockRes.length < 16) ∧
    ((lane laned 5).pipe = { data := 1, due := 0 } :: [] ∧ (lane laned 5).bad ≠ some 0 ∧ laneDiscards laned 5 = false ∧ laneDiscards held 2 = true) ∧
    ((spn reading 5).din.length < 1024 ∧ 112 ≤ reading.reel.core + 112 ∧ poisoned reading 0x1000000000 32 = false ∧
      (∀ f ∈ (drcOf reading 0).fresh, f.addr ≠ 0x1000000000) ∧ crossingLoad reading 4 0 reading.reel.core < 2048 ∧ (spn reading 5).state ≠ 3) ∧
    ((spn later 5).evq = { unit := 0x80 } :: [] ∧ 0 < later.reel.core ∧ (spn later 5).evqFree ≤ later.reel.core ∧ later.evr.stop = false ∧
      later.evr.queue.length < 64) ∧
    (5 < nSpindles held ∧ (spn held 5).state = 3 ∧ (spn reading 5).state ≠ 3) := by decide


/-! ## The clock, commits, activations and modes -/

/-- A running deck with nothing at work. -/
def reeling (f : Reel → Reel := id) : State := { reel := f { run := true, deck := 1 } }

theorem witness_ClockTurns :
    (State.reset.reel.run = false ∧ exec .turnBoundary State.reset = .next State.reset) ∧
    (let s : State := { reeling (fun r => { r with turn := 62, cycle := 8191 }) with
       spindles := [(1, { state := 2 }), (2, { state := 3, restart := true }), (3, { state := 3 })] }
     s.reel.run = true ∧ s.reel.commitDue = false ∧ mwf {} s.spindles = true ∧ s.tables.cmds = [] ∧ (∀ n, (spn s n).state ≠ 1) ∧
     ((spn s 1).state = 2 ∧ 1 < nSpindles s ∧ s.reel.deck ≠ 0 ∧ s.reel.deck ≠ 0xE) ∧ s.reel.turn ≠ 63 ∧
     ((spn s 2).state = 3 ∧ (spn s 2).restart = true) ∧ ((spn s 3).state = 3 ∧ (spn s 3).restart = false)) := by
  refine ⟨⟨rfl, rfl⟩, rfl, rfl, by decide, rfl, ?_, by decide, by decide, by decide, by decide⟩
  intro n
  simp only [spn, mget]
  split <;> (try split) <;> (try split) <;> decide

theorem witness_HankCommits :
    (let s := reeling (fun r => { r with commitDue := true })
     s.reel.run = true ∧ s.reel.commitDue = true ∧ maySequencerStop s = false ∧ atRest s ∧ s.pwr.waitCommit = false ∧ mwf {} s.reel.cls = true ∧
     mwf {} s.vct.ents = true ∧ (∀ e ∈ s.ciph.slots, e.2.warned = true → e.2.flagged = true) ∧ s.reel.req = none) ∧
    (let s : State := { reeling (fun r => { r with commitDue := true, req := some { mode := 2, commits := 1 } }) with
       store := { running := some { decks := [{ mode := 2 }] } },
       ciph := { slots := [(3, { pend := some { op := 1, use := 1, limit := 35 }, warned := true, flagged := true })] },
       vct := { ents := [(1, { state := 1, cls := 1, pcls := 2 })] } }
     s.reel.commitDue = true ∧ maySequencerStop s = false ∧ atRest s ∧ mwf {} s.vct.ents = true ∧
     (∀ e ∈ s.ciph.slots, e.2.warned = true → e.2.flagged = true) ∧ s.reel.req = some { mode := 2, commits := 1 } ∧
     s.store.running.bind (deckOf · 2) = some { mode := 2 } ∧ nextPhase s.reel = 0 ∧ (1 : Nat) ≤ 1 ∧
     (keyOf s 3).pend = some { op := 1, use := 1, limit := 35 } ∧ (vcOf s 1).pcls ≠ 0 ∧ (vcOf s 1).state = 1 ∧
     ({ mode := 2, commits := 1 } : ModeReq).latest = true ∧ ∀ m, conditionHolds s m = false) :=
  ⟨⟨rfl, rfl, by decide, ⟨rfl, rfl, rfl, by decide⟩, rfl, by decide, by decide, by decide, rfl⟩,
   ⟨rfl, by decide, ⟨rfl, rfl, rfl, by decide⟩, by decide, by decide, rfl, rfl, by decide, by decide, rfl, by decide, rfl, rfl, by decide⟩⟩

/-- The bytes of bank 1 that seal an image of 512 bytes whose digest's bits 63:0 are all 1. -/
def sealBytes : SMap (BitVec 8) :=
  (leBytes 8 512).zipIdx.map (fun p => (2 ^ 24 + 8 + p.2, p.1)) ++
    (leBytes 4 0x4C414553 ++ leBytes 4 512).zipIdx.map (fun p => (2 ^ 25 - 32 + p.2, p.1))

/-- An accepted activation of a sealed image at a hank boundary. -/
def activating : State :=
  { reeling (fun r => { r with commitDue := true }) with
    store := { bank1 := some { digest := 0xFFFFFFFFFFFFFFFF, decks := [{ mode := 1 }] }, act := .accepted, actBank := 1 }, bac := { arr := sealBytes } }

/-- The activation after the sequencer has stopped. -/
def stopped (quiesce : Bool) : State :=
  { store := { running := some { decks := [{ mode := 1 }, { mode := 10 }], groups := [[0]] }, act := .stopped, fromQuiesce := quiesce } }

theorem witness_SequencerStopsAndStarts :
    (maySequencerStop (reeling) = false ∧ (reeling).store.act ≠ .stopped) ∧
    (maySequencerStop activating = true ∧ activating.reel.commitDue = true ∧ (sealedImage activating 1).isSome = true ∧ activating.reel.req = none ∧
      activating.store.boot = false ∧ mwf {} activating.spindles = true) ∧
    (∀ q : Bool, (stopped q).store.act = .stopped ∧ (stopped q).store.running.isSome = true ∧
      (∀ im, (stopped q).store.running = some im → (deckOf im (if (stopped q).store.fromQuiesce then 10 else im.bootMode)).isSome = true ∧
        (if (stopped q).store.fromQuiesce then 10 else im.bootMode) ≠ (0 : BitVec 4) ∧
        (if (stopped q).store.fromQuiesce then 10 else im.bootMode) ≠ (0xE : BitVec 4) ∧ ∀ d ∈ im.groups.flatten, isLost (stopped q) d = false) ∧
      atRest (stopped q) ∧ flushInForce (stopped q) = none ∧ (stopped q).xpt.waitCaps = [] ∧ mwf {} (stopped q).piers.chans = true ∧
      ∀ e ∈ (stopped q).ciph.slots, e.2.warned = true → e.2.flagged = true) := by
  refine ⟨⟨by decide, by decide⟩, ⟨by decide, rfl, by decide, rfl, rfl, by decide⟩, fun q => ⟨rfl, rfl, fun im h => ?_, ⟨rfl, rfl, rfl, rfl⟩, rfl, rfl, rfl, nofun⟩⟩
  cases h
  cases q <;> decide

/-- The grant of entry `k` that begins at core cycle `t`. -/
def grantAt (k t : Nat) : Grant := { slot := slotDeck.slots.getD k {}, entry := k, since := t }

/-- The slots of `slotDeck` at core cycle `t` of a hank, with the grants issued early. -/
def atCycle (t : Nat) (early : List Grant) (f : Piers → Piers := id) (chans : SMap Chan := []) : State :=
  { reel := { run := true, deck := 1, tt := slotDeck, turn := BitVec.ofNat 6 (t / 8192), cycle := BitVec.ofNat 13 (t % 8192), core := t, early := early },
    piers := f { chans := chans } }

/-- A program of die 0 that waits for the program slice, and one at work that may be suspended once more. -/
def sliceProgram : DieDesc := { fn := 1, cws := 1, flags := 1, entry := 2, owner := 1 }

theorem witness_SlotsAndGrants :
    let fresh := fun (s : State) (k : Nat) => grantHeld s k 0 0 = none ∧ (slotNamed s k 0 0).isSome = true ∧
      startFrom s (slotDeck.slots.getD k {}) 0 0 s.reel.core = some s.reel.core ∧ resFree s (grantAt k s.reel.core) = true ∧ mget false s.reel.ttBad k = false
    let early := fun (s : State) (k : Nat) => (s.reel.early.find? (isGrant k 0 0)).any (fun y => !y.late && y.since + 72 = s.reel.core)
    let s0 := atCycle 0 []
    let s1 := atCycle 10000 [grantAt 1 9928] (fun p => { p with booked := [{ desc := { die := 0, owner := 1 }, entry := 1, at_ := 10000 }] })
      [(0, { dies := [(0, { op := some { desc := { fn := 1 }, suspends := 23 } })] })]
    let s2 := atCycle 20000 [grantAt 2 19928] (fun p => { p with
      ops := [sliceProgram], data := (programPages sliceProgram).map (fun q => (2 ^ 60 + pageNumber 0 0 q, [0])) })
    let s3 := atCycle 9928 []
    (fresh s0 0 ∧ s0.reel.early.find? (isGrant 0 0 0) = none ∧ s0.tables.cmds = [] ∧ s0.piers.ops = [] ∧ s0.piers.items = [] ∧
      (takeItems (fun h => h.setWidth 8 = 2#8 || h.setWidth 8 = 3#8) (spn s0 5).rxq.length (spn s0 5).rxq).2 = [] ∧ s0.xpt.conns = []) ∧
    (fresh s1 1 ∧ early s1 1 = true ∧ (dieOf s1 0).op = some { desc := { fn := 1 }, suspends := 23 } ∧ toIssue s1 0 ≠ [] ∧
      (grantAt 1 10000).slot.owner ≠ 0x1FF ∧ (grantAt 2 20000).slot.owner ≠ 0x1FF ∧
      23 < suspendLimit s1 0 1) ∧
    (fresh s2 2 ∧ early s2 2 = true ∧ s2.reel.deck ≠ 0 ∧ s2.reel.deck ≠ 0xE ∧ s2.piers.ops = [sliceProgram] ∧ sliceProgram.fn = 1 ∧
      waitsFor s2 (grantAt 2 20000) 0 sliceProgram = true ∧ isLost s2 0 = false ∧ (dieOf s2 0).op = none ∧ dataHere s2 sliceProgram = true) ∧
    (startFrom s3 (slotDeck.slots.getD 1 {}) 0 0 (s3.reel.core + 72) = some (s3.reel.core + 72) ∧
      crossingLoad s3 0 0 s3.reel.core + earlyEntries s3 (grantAt 1 9928) (s3.reel.core + 72) ≤ 320) ∧
    (let s4 : State := { reel := { (atCycle 8192 []).reel with grants := [grantAt 0 0] } }
     grantHeld s4 0 0 0 = some (grantAt 0 0) ∧ (grantAt 0 0).slot.typ = 8 ∧ (grantAt 0 0).since + (grantAt 0 0).slot.len ≤ s4.reel.core) := by decide

/-- A running image whose matrix lets deck 1 go to 0, 2 and 3 and whose decks are 1, 2 and 7. -/
def choosing (f : Reel → Reel := id) : State :=
  { reeling f with store := { running := some { matrix := [(1, 0xFF00D), (9, 0x84)], decks := [{ mode := 1 }, { mode := 2 }, { mode := 7 }] } } }

theorem witness_ModeRequests :
    let may := fun (s : State) (m : BitVec 4) => bit (mget 0 ((s.store.running.map (fun (im : Image) => im.matrix)).getD []) s.reel.deck.toNat) m.toNat
    let has := fun (s : State) (m : BitVec 4) => (s.store.running.bind (deckOf · m)).isSome
    let s := choosing
    let nine := choosing (fun r => { r with deck := 9 })
    (may s 2 = true ∧ has s 2 = true ∧ s.reel.req = none ∧ activeRank s = 5 ∧ s.reel.commitDue = false) ∧
    (may nine 2 = true ∧ has nine 2 = true ∧ nine.reel.req = none ∧ activeRank nine < 5 ∧ activeRank nine ≤ modeRank 2) ∧
    (may nine 7 = true ∧ has nine 7 = true ∧ modeRank 7 < activeRank nine) ∧
    (may s 4 = false ∧ (may s 3 = true ∧ has s 3 = false)) ∧ 12 ≤ (12 : BitVec 4).toNat ∧
    (may s 0 = true ∧ stagedBytes s = 0 ∧ s.reel.deck ≠ 10 ∧ stagedBytes { s with media := { staged := 1 } } ≠ 0) ∧
    ((∀ m, conditionHolds (choosing (fun r => { r with req := some {} })) m = false) ∧ modeEnded (choosing (fun r => { r with req := some {} })) = false) ∧
    ((choosing (fun r => { r with req := some {} })).reel.req = some {} ∧ (choosing (fun r => { r with req := some { device := true } })).reel.req =
      some { device := true }) := by decide


/-! ## Piers and media -/

/-- A device whose channel 1 is as given. -/
def channelled (x : Chan) : State := { piers := { chans := [(1, x)] } }

theorem witness_ChannelBringUp :
    let house : State := { channelled { state := 2, iface := 3, houseEnd := 4096 } with reel := { grants := [{ slot := oneSlot 5 2 1 0 100 0x100 }] } }
    (127 : BitVec 7).toNat < nChannels State.reset ∧ (chan (channelled {}) 1).state = 0 ∧
    ((chan (channelled { state := 1, step := 1 }) 1).state = 1 ∧ (chan (channelled { state := 1, step := 1 }) 1).step = 1 ∧ (1 : BitVec 4) ≠ 0) ∧
    ((chan (channelled { state := 1, step := 2 }) 1).step = 2 ∧ (chan (channelled { state := 1, step := 2 }) 1).tgtExp = 0 ∧
      (chan (channelled { state := 1, step := 2, tgtExp := 3 }) 1).tgtExp ≠ (1 : BitVec 16)) ∧
    ((chan (channelled { state := 1, step := 4, iface := 2, tryRate := 6 }) 1).iface ≠ 3 ∧ 5 < (6 : BitVec 4).toNat ∧ (5 : BitVec 4).toNat ≤ 5) ∧
    (chan (channelled {}) 1).state ≠ 3 ∧ (chan (channelled { state := 2 }) 1).state = 2 ∧
    ((chan house 1).state = 2 ∧ (chan house 1).iface = 3 ∧ sweepDue house 1 = true ∧ (15 : BitVec 8).toNat < 16 ∧ 16 ≤ (16 : BitVec 8).toNat) := by
  decide

/-- Die 17 with an operation and bookings, its channel in use. -/
def died (x : Die) (f : Piers → Piers := id) : State := { piers := f { chans := [(1, { state := 2, dies := [(1, x)] })] } }

theorem witness_DieOperations :
    let o := fun (fn : Nat) => ({ desc := { fn := fn, die := 17 } } : DieOp)
    let open_ := fun (i : Bool) => died {} (fun p => { p with booked := [{ desc := { die := 17 }, issued := i }] })
    openBookings (open_ false) 17 ≠ [] ∧ (openBookings (open_ true) 17).any (·.issued) = true ∧
    (∀ fn ∈ [1, 2], (dieOf (died { op := some (o fn) }) 17).op = some (o fn) ∧ (o fn).suspended = false ∧ (o fn).desc.fn = fn) ∧
    (isLost (died { op := some (o 1), resetting := true }) 17 = false ∧ (dieOf (died { op := some (o 1), resetting := true }) 17).resetting = true ∧
      (1 : BitVec 2) ≠ 0) ∧
    ((dieOf (died { fitted := true, ident := 5 }) 17).fitted = true ∧ (chan (died { fitted := true }) 1).state = 2 ∧
      (6 : BitVec 64) ≠ (dieOf (died { fitted := true, ident := 5 }) 17).ident) ∧
    ((dieOf (died { fitted := true, reading := true }) 17).reading = true ∧ isLost (died { fitted := true, reading := true }) 17 = false) := by decide

theorem witness_DecodedReads :
    let b : Booking := { desc := { die := 17, page := 8, owner := 1, spindle := 5, cws := 4 }, issued := true }
    let s := died { fitted := true } (fun p => { p with booked := [b] })
    let lost : State := { piers := { s.piers with chans := [(1, { state := 3 })] } }
    let soft := died { fitted := true } (fun p => { p with engines := [(8, some { b with recovery := true })] })
    readyBooking s 17 2 = some b ∧ refusal s b.desc = none ∧ b.issued = true ∧ readyBooking lost 17 2 = some b ∧ refusal lost b.desc = some 5 ∧
    (spn s 5).state ≠ 3 ∧ (∀ m, crossingLoad s 1 1 m < 200) ∧ softEngine soft 17 2 = some (8, { b with recovery := true }) :=
  ⟨by decide, by decide, rfl, by decide, by decide, by decide, fun _ => by show 0 < 200; decide, by decide⟩

/-- A running image with one group of one die. -/
def grouped (m : Media) : State := { store := { running := some { groups := [[0]] } }, media := m, reel := { run := true, deck := 1 } }

/-- The same in a housekeeping window of die 0 for the resident OS. -/
def housed (m : Media) : State := { grouped m with reel := { run := true, deck := 1, grants := [{ slot := oneSlot 10 1 0 0 4000 0x100 }] } }

theorem witness_MediaManagement_refresh :
    let q := housed { refresh := [(0, 5, 1)], blocks := [(5, { state := 4 }), (9, { state := 6 })] }
    (blockState (grouped { blocks := [(5, { state := 5 })] }) 0 5 = 5 ∧ (blockOf (grouped { blocks := [(5, { state := 5 })] }) 0 5).refreshQ = false) ∧
    (q.media.refresh = (0, 5, 1) :: [] ∧ refreshOpen q (0, 5, 1) = true ∧ (1 : Nat) ≠ 2 ∧ blockState q 0 5 = 4 ∧
      q.media.relocs.any (fun r => r.die = 0 && r.src = 5) = false) := by decide

theorem witness_MediaManagement_rest :
    let r : Reloc := { die := 0, src := 5, tgt := 9 }
    let s := grouped { relocs := [r], blocks := [(5, { state := 4 }), (9, { state := 9 })] }
    (s.media.relocs = r :: [] ∧ poolSource s r = none ∧ r.tgt ≠ r.src ∧ (blockOf s 0 5).state ≠ 10 ∧ inHold s = false ∧ inHold State.reset = true ∧
      programsTo s 0 5 = false) ∧
    (let p : PoolSkein := { group := 0, skein := 3, cls := 1 }
     let f := grouped { pool := [p] }
     (∀ e ∈ f.media.zones, e.2.group = 0 → e.2.parked = true ∨ e.2.acc ≤ e.2.stagedTo) ∧ foldable f 0 = none ∧ p ∈ f.media.pool ∧ p.exts = [] ∧
       poolBusy f p = false) ∧
    (let x : PoolExt := { key := 2 ^ 20, from_ := 0, cnt := 24 }
     let p : PoolSkein := { group := 0, skein := 3, cls := 1, exts := [x] }
     let g := grouped { pool := [p], nss := [(1, some { cls := 1 })], zones := [(2 ^ 20, { acc := 100000, stagedTo := 100000, parked := true })] }
     let f : State := { g with reel := { g.reel with tt := slotDeck } }
     foldable f 0 = some p ∧ p.exts = [x] ∧ x.key < 2 ^ 52 ∧ nsOf f (x.key / 2 ^ 20) = some { cls := 1 } ∧
       (zoneOf f 1 0).qlcTo < (zoneOf f 1 0).stagedTo ∧ rowEnd (nsGroup { cls := 1 }) false 0 ≤ (zoneOf f 1 0).stagedTo ∧
       ∀ e ∈ f.media.zones, e.2.group = 0 → e.2.parked = true ∨ e.2.acc ≤ e.2.stagedTo) ∧
    (let b : State := { media := { rebuild := true }, reel := { run := true, deck := 5 } }; b.media.rebuild = true ∧ b.reel.deck = 5) ∧
    (let x : Ns := { cls := 1 }
     let s := grouped { nss := [(1, some x)], zones := [(2 ^ 20, { state := 2, skeins := [3] })], groups := [(0, { degraded := true })] }
     nsOf s 1 = some x ∧ (zoneOf s 1 0).skeins ≠ [] ∧ (grpOf s (zoneOf s 1 0).group).degraded = true ∧ readOnlyPolicy s = false ∧
       bindGroup s x 1 ((classGroups s 1).filter (· ≠ 0)) = none) := by decide

theorem witness_MediaManagement_spare :
    let q := housed { refresh := [(0, 5, 1)], blocks := [(5, { state := 4 }), (9, { state := 6 })] }
    leastWorn q 0 (sparesOf q 0) = some 9 := by decide +kernel

theorem witness_MediaManagement_reclaim :
    let x : Ns := { fdp := true, cls := 1, handles := 1 }
    let v : Ru := { nsid := 1, full := true, valid := 3 }
    let h := housed { nss := [(1, some x)], rus := [(1, v), (2, { nsid := 1, copy := true })] }
    let s : State := { h with store := { running := some { groups := [[0, 1]] } } }
    nsOf s 1 = some x ∧ x.fdp = true ∧ freeCommitted s x < 8 ∧ victimOf s 1 0 = some (1, v) ∧ reclaimOpen s x v = true ∧
    openRu s 1 0 true = some 2 ∧ v.valid ≤ ruLbas s (ruOf s 2) - (ruOf s 2).wp := by decide


/-! ## Faults, temperature, control space, DMA -/

/-- Group 5 as given, with the rest of fault collection changed. -/
def faulted (x : FcrGroup) (f : Fcr → Fcr := id) : State := { fcr := f { groups := [(5, x)] } }

theorem witness_FaultCollection :
    (1 ≤ (1 : BitVec 3).toNat ∧ (4 : BitVec 3).toNat ≤ 4 ∧ (groupOf State.reset 5).cls.toNat ≤ 4) ∧
    ((faulted {} (fun u => { u with grave := true })).fcr.grave = true ∧ (faulted {}).fcr.grave = false) ∧
    ((faulted {} (fun u => { u with ren := true })).fcr.ren = true ∧ (faulted {} (fun u => { u with ren := true })).fcr.reactOpen = false) ∧
    (let s := faulted { cls := 3 } (fun u => { u with ren := true, reactOpen := true, reactGroup := 5 })
     s.fcr.reactOpen = true ∧ s.fcr.reactGroup = 5 ∧ s.fcr.reactGroup ≠ (6 : BitVec 6) ∧ (groupOf s 5).cls ≠ 4 ∧ s.fcr.grave = false) ∧
    (let x := groupOf (faulted { n := 2, esc := 2, wcount := 1, winOpen := true }) 5
     x.winOpen = true ∧ x.n ≠ 0 ∧ x.n = x.wcount + 1 ∧ x.esc = 2 ∧ x.cls.toNat < 2) ∧
    (groupOf (faulted { cls := 4 }) 5).cls = 4 ∧ ((groupOf (faulted { cls := 3 }) 5).cls ≠ 4 ∧ (faulted { cls := 3 }).fcr.reactOpen = false) := by decide

theorem witness_EventRecorder :
    let s : State := { evr := { queue := [{ code := 0x100 }], widx := 65535, ridx := 0, loss := true } }
    (s.evr.queue = { code := 0x100 } :: [] ∧ s.evr.stop = false) ∧ State.reset.evr.queue = [] ∧ (s.evr.widx - 0xFFFFFFFF).toNat ≤ 65536 ∧
    65536 < (s.evr.widx - 0xFFFFFFFE).toNat ∧ 2 ≤ ({ fpinBad := 2, tpinBad := 2 } : Fcr).fpinBad ∧ ({ fpinBad := 1 } : Fcr).fpinBad < 2 ∧ ({ tpinBad := 1 } : Fcr).tpinBad < 2 ∧
    (∀ high, high = faultN s ∨ high ≠ faultN s) := by decide

/-- A device whose sensors are as listed. -/
def sensed (l : List (Nat × Sensor)) (f : Thm → Thm := id) : State := { thm := f { sens := l } }

/-- The neighbours of sensor 0, all at one temperature. -/
def around (t : BitVec 8) (x : Sensor) : State :=
  sensed ((neighbours 0).foldl (fun m k => mset {} k { valid := true, raw := t } m) [(0, x)])

theorem witness_ThermalManagement :
    (28 < (29 : BitVec 5).toNat ∧ (28 : BitVec 5).toNat ≤ 28 ∧ ¬ ({ varB := true } : State).varB = false ∧ 27 < (28 : BitVec 5).toNat) ∧
    ((sensorOf (around 40 {}) 0).faulty = false ∧ disagrees (around 40 {}) 0 55 = false) ∧
    (disagrees (around 40 { disagree := 2 }) 0 56 = true ∧ (sensorOf (around 40 { disagree := 2 }) 0).disagree = 2) ∧
    (disagrees (sensed []) 0 95 = false ∧ degC (sensed []).thm.cfgThrot ≤ degC 95 ∧ (sensed []).thm.throt = false) ∧
    (let s := sensed [] (fun u => { u with throt := true, cool := 64 }); s.thm.throt = true ∧ 64 ≤ s.thm.cool ∧ throttleCause s = none) ∧
    8192 < (pierTemp { piers := { chans := [(0, { temps := [(0, { age := 8193 })] })] } } 0).age.toNat ∧
    (sensorOf (sensed [(27, { faulty := true })]) 27).faulty = true ∧
    (let s := sensed []; s.thm.shutdown = false ∧ s.media.staged = 0 ∧ s.pwr.flush ≠ 1) ∧
    (let s := sensed [] (fun u => { u with shutdown := true }); s.thm.shutdown = true ∧ s.pwr.aon = true ∧ s.pwr.flush ≠ 1) ∧
    (reeling (fun r => { r with hanks := 63 })).reel.hanks.toNat % 64 ≠ 0 ∧ (reeling (fun r => { r with hanks := 256 })).reel.hanks.toNat % 256 = 0 ∧
    (let s := died { fitted := true }; (dieOf s 17).fitted = true ∧ isLost s 17 = false) := by decide

theorem witness_ControlRegisters :
    let base := 0x100000000
    mget none State.reset.latch (base + 0x100000) = none ∧ State.reset.reel.commitDue = false ∧ activeGroups State.reset ≤ 64 ∧
    placeOf State.reset (base + 0x100000) = .control ∧ (base + 0x100000) % 4 = 0 ∧ placeOf State.reset (base + 0x480000) ≠ .boot 0 ∧
    placeOf State.reset 0x4000000 ≠ .control ∧ (base + 2) % 4 ≠ 0 ∧ placeOf State.reset 0x10230FFFC = .control ∧
    placeOf State.reset 0x102310000 = .nowhere ∧ (choosing).reel.run = true ∧ (choosing).reel.deck ≠ 0 ∧ (choosing).store.running ≠ none := by decide

theorem witness_InterruptsAndCores :
    let s : State := { intc := { src := [(96, { pend := true, target := 2, prio := 1, gen := true }), (97, { pend := true, target := 2, prio := 1 })],
                                 hold := [(0, { time := 5 })] } }
    let claimed : State := { intc := { src := [(96, { active := true, claimT := 2 })] } }
    mwf {} s.intc.src = true ∧ (s.intc.src.any (fun e => eligible s 2 e.2)) = true ∧ (∀ e ∈ s.intc.src, eligible s 3 e.2 = false) ∧
    (mget {} s.intc.hold 0).time ≠ 0 ∧ (srcOf claimed 96).active = true ∧ (srcOf claimed 96).claimT = 2 ∧ (srcOf s 96).active = false ∧
    isPulse 254 = true ∧ isPulse 255 = false ∧ srcAbsent s 1023 = false ∧ srcAbsent { varB := true } 192 = true ∧
    (23 : BitVec 5).toNat < 24 ∧ (23 : BitVec 5) ≠ 18 ∧ bit State.reset.watch.stat 23 = false ∧ watchFault 23 ≠ none ∧
    mget 0 ({ wdp := [(2, 1000)] } : Watch).wdp 2 ≠ 0 ∧ mget 0 State.reset.watch.wdp 2 = 0 ∧ (coreOf State.reset 2).running = false ∧
    (coreOf (corely) 2).running = true := by decide

/-- DMA channel 2 that copies the last 32 bytes of SRAM but 32, over a region it may use. -/
def dmaCopy : State :=
  { dma := [(2, { src := 0x107FFFC0, dst := 0x107FFFE0, len := 32 })],
    memp := { regions := [(0, { base := 0x10000, limit := 0x107FF, valid := true, w := true, r := true, mask := 0xFFFF0000 })] } }

theorem witness_DmaAndBootArray :
    (let c := dmaOf dmaCopy 2
     let S := c.src.toNat; let D := c.dst.toNat; let L := c.len.toNat
     c.state ≠ 1 ∧ c.state ≠ 3 ∧ c.flags = 0 ∧ L ≠ 0 ∧ (0x10000000 ≤ S ∧ S % 32 + L ≤ 32 ∧ S + L ≤ 0x10800000) ∧
       (0x10000000 ≤ D ∧ D % 32 + L ≤ 32 ∧ D + L ≤ 0x10800000) ∧ protAllows dmaCopy (.dma 2) S L .read = true ∧
       protAllows dmaCopy (.dma 2) D L .write = true ∧ poisoned dmaCopy S L = false) ∧
    (let d : DmaDesc := { ctl := 1 }
     let s : State := { dma := [(2, { state := 1, run := some d, moved := true })] }
     (dmaOf s 2).state = 1 ∧ (dmaOf s 2).run = some d ∧ (dmaOf s 2).moved = true ∧ d.addr = 0 ∧ bit d.ctl 0 = true ∧ srcAbsent s (96 + 2 * 2) = false) ∧
    ({ err := true } : DmaCh).err = true ∧ ({ busy := true } : Bac).busy = true ∧
    (let b : Bac := { addr := 0x1000000, mask := 0x8000, wp := 1 }
     b.busy = false ∧ b.addr.toNat % 512 = 0 ∧ b.mask ≠ 0 ∧ bit b.wp (b.addr.toNat / 2 ^ 24) = false ∧
       (∀ k < 32, mget false b.marks (b.addr.toNat / 32 + k) = false) ∧ b.addr.toNat % 65536 = 0 ∧ b.addr.toNat % 2 ^ 24 = 0) ∧
    (let b : Bac := { addr := 0, mask := 1 }; bit b.wp (b.addr.toNat / 2 ^ 24) = true) ∧ (0x100 : BitVec 26).toNat % 512 ≠ 0 ∧
    (let b : Bac := { addr := 0x1000000, mask := 0x8000, marks := [(0x1000000 / 32 + 15, true)] }
     ∃ k < 16, bit b.mask k = true ∧ mget false b.marks (b.addr.toNat / 32 + k) = true) ∧
    (let o : BacOp := { op := 1, addr := 0x1000000, mask := 1 }; ({ cur := some o } : Bac).cur = some o ∧ o.addr.toNat % 32 = 0) := by
  decide

/-! ## Supply, boot, links -/

theorem witness_PowerAndResets :
    let ran : State := { pwr := { imageRan := true } }
    (unpowered State.reset = false ∧ unpowered ran = false ∧ unpowered { pwr := { aon := false } } = true ∧ unpowered { thm := { shutdown := true } } = true ∧
      unpowered { sys := { stage := 2 } } = false ∧ unpowered { sys := { stage := 3 } } = false) ∧
    (({ pwr := { aon := false } } : State).pwr.aon = false ∧ State.reset.pwr.aon = true) ∧ (State.reset.pwr.imageRan = false ∧ State.reset.pwr.flush ≠ 1) ∧
    (ran.pwr.imageRan = true ∧ ran.pwr.flush ≠ 1) ∧ (10000 ≤ (10000 : BitVec 32).toNat ∧ (999 : BitVec 32).toNat < 1000 ∧ (499 : BitVec 32).toNat < 500) ∧
    (State.reset.pwr.pfn = true ∧ ({ pfn := false } : Pwr).pfn = false) ∧
    (({ stage := 2 } : Sys).stage = 2 ∧ 2 < ({ stage := 3 } : Sys).stage.toNat) ∧
    (let s : State := { pwr := { flush := 1 }, reel := { run := true, deck := 0xE } }
     s.pwr.flush = 1 ∧ s.reel.deck = 0xE ∧ s.reel.run = true ∧ s.pwr.graveAfter = false ∧ s.pwr.thermAfter = false ∧ s.pwr.warmAfter = false) ∧
    (let s : State := { pwr := { records := [{ seq := 4 }], replaying := true } }
     (flushInForce s).isSome = true ∧ s.pwr.replaying = true ∧ s.media.rows = []) ∧ flushInForce State.reset = none := by decide

theorem witness_BootAndClocks :
    let st := fun (k : BitVec 8) => ({ sys := { stage := k } } : State)
    (∀ k ∈ [1, 2, 3, 4, 5, 6, 7, 8], bootRuns (st k) = true ∧ (st k).sys.stage = k) ∧ bootRuns (st 9) = false ∧ clocksGood (st 1) = true ∧
    clocksGood { clk := { sysMiss := true } } = false ∧ ({ links := false } : BootIn).links = false ∧ firmwareFound {} (st 4) = none ∧
    firmwareFound { fw := some (7, 0x1000) } (st 4) = some (7, 0x1000) ∧ ({ fails := 1 } : BootIn).fails ≠ 0 ∧ channelsDone (st 6) = false ∧
    flushesInForce (st 7) = [] ∧
    (let s : State := { sys := { stage := 8, strap := 3 } }
     bootRuns s = true ∧ s.store.loading = none ∧ s.store.act = .none ∧ s.sys.strap = 3 ∧ s.store.graveRecs = 0 ∧ s.store.thermRecs = 0) ∧
    ({ bootErr := 4 } : Sys).bootErr = 4 ∧ (bit (1 : BitVec 7) 0 = true ∧ bit (4 : BitVec 7) 2 = true) ∧
    (bit (0 : BitVec 7) 0 = false ∧ 1 ≤ mget 0 ({ good := [(0, 1), (2, 1)] } : Clk).good 2) ∧
    ((st 5).pwr.aon = true ∧ (st 5).sys.stage.toNat < 6 ∧ (st 5).clk.xtal = false) := by decide

theorem witness_channelsDone :
    channelsDone { piers := { chans := (List.range 128).map (fun k => (k, { state := 2 })) } } = true := by decide +kernel

theorem witness_LinksAndPins :
    hasLink State.reset 6 = true ∧ hasLink State.reset 7 = false ∧ hasLink { varB := true } 6 = false ∧ ({ stage := 9 } : Sys).stage = 9 ∧
    State.reset.sys.stage ≠ 9 ∧ ((19 : BitVec 32).toNat < 20 ∧ ({ ppsTold := true } : Pins).ppsTold = true) ∧
    (20 ≤ (20 : BitVec 32).toNat ∧ State.reset.pins.ppsTold = false ∧ State.reset.evr.stop = false ∧ State.reset.evr.queue.length < 64) ∧
    State.reset.pins.resetN = true ∧ ({ resetN := false } : Pins).resetN = false := by decide


/-! ## The network -/

/-- Port 1 as given, on a running deck. -/
def ported (x : Port) : State := { reeling with ports := [(1, x)] }

theorem witness_PortBringUp :
    hasSub (ported { mode := 0 }) 1 0 = true ∧ hasSub (ported {}) 1 0 = false ∧ (inHold (ported {}) = false ∧ (ported {}).reel.run = true) ∧
    (∀ k ∈ [1, 2, 3, 4, 5], subStep (ported { step := [(0, k)] }) 1 0 = k) ∧
    ((portOf (ported {}) 1).txRevLock = false ∧ bit (portOf (ported {}) 1).tried 0 = false ∧ (portOf (ported { txRevLock := true }) 1).txRevLock = true) ∧
    bit (portOf (ported { up := 1 }) 1).up 0 = true ∧
    (let x := portOf (ported { uncHank := [(0, 1000)] }) 1
     mget 0 x.uncHank 0 + (24 : BitVec 16).toNat ≤ 1024 ∧ 1024 < mget 0 x.uncHank 0 + (25 : BitVec 16).toNat) ∧
    (let s : State := { xpt := { addrs := [(4, { ip4 := 7, ip6 := 9 })] } }
     let a := mget {} s.xpt.addrs 4
     (a.ip4 = 7 ∧ a.ip6 = 9 ∧ a.ip4.setWidth 128 = (7 : BitVec 128)) ∧ a.ip4 ≠ 8 ∧ a.ip6 ≠ 8) ∧ bit (portOf (ported {}) 1).up 0 = false := by decide

theorem witness_PortBringUp_echo :
    24 + (List.replicate 1476 (0 : BitVec 8)).length ≤ 1500 ∧ 1500 < 24 + (List.replicate 1477 (0 : BitVec 8)).length ∧
    44 + (List.replicate 1456 (0 : BitVec 8)).length ≤ 1500 := by simp only [List.length_replicate]; decide

/-- Connection 4, open and with its entry cached, on a running deck whose DRAM and transmit slots of class 0 run. -/
def connected (c : Conn) (f : State → State := id) : State :=
  f { reeling (fun r => { r with grants := [{ slot := oneSlot 7 4 0 0 4096 0 }, { slot := oneSlot 5 7 0 0 4096 0, entry := 1 }] }) with
      xpt := { conns := [(4, c)] } }

theorem witness_FrameReception :
    let x : Port := { up := 1, share := [(0, 1000)] }
    let s : State := { connected { isOpen := true, sub := 4 } with ports := [(1, x)] }
    let e := portOf (ported { up := 1, uncHank := [(0, 1000)] }) 1
    (mget 0 e.uncHank 0 + (24 : BitVec 16).toNat ≤ 1024 ∧ ¬ mget 0 e.uncHank 0 + (25 : BitVec 16).toNat ≤ 1024) ∧
    (frameDest s 4 (.roce 260) = some (some 4) ∧ frameDest s 4 (.roce 261) = none ∧ frameDest s 4 (.device true) = some none ∧
      frameDest s 4 .foreign = none ∧ (connOf s 4).tcp = false ∧ (connOf s 4).sub = (1#3 ++ 0#2) ∧ mwf {} s.xpt.conns = true) ∧
    (bit (portOf s 1).up 0 = true ∧ bit (portOf s 1).up 1 = false) ∧ (9216 < (9217 : BitVec 16).toNat ∧ (9216 : BitVec 16).toNat ≤ 9216) ∧
    (bit x.vlanEn 0 = false ∧ bit ({ vlanEn := 1, vlan := [(0, 5)] } : Port).vlanEn 0 = true ∧ (5 : BitVec 12) = mget 0 ({ vlan := [(0, 5)] } : Port).vlan 0) ∧
    ((connOf s 4).isOpen = true ∧ (connOf s 5).isOpen = false) ∧ (rxRoom s 1 0 < (1001 : BitVec 16).toNat ∧ (1000 : BitVec 16).toNat ≤ rxRoom s 1 0) ∧
    ((connOf s 4).cached = false ∧ dramSlot s (connClass s 4) = true ∧ cacheFull s = false) ∧ (connOf (connected { cached := true }) 4).cached = true ∧
    (cachedConns s).length < 16384 ∧ (connOf (connected { pinned := true }) 4).pinned = true := by decide

/-- The same with a parse issue slot of spindle 0, and a cipher slot, of class 0. -/
def parsing (s : State) : State :=
  { s with reel := { s.reel with grants := s.reel.grants ++ [{ slot := oneSlot 8 5 0 0 8192 0, entry := 2 }, { slot := oneSlot 6 3 0 0 1056 0, entry := 3 }] } }

/-- An open queue pair of RoCEv2 with one retransmit record, and one command that asks for 100 bytes from byte 0 on. -/
def paired (r : RtxRec := {}) : State :=
  connected { isOpen := true, cached := true, unack := [r] } (fun s => { s with
    tables := { cmds := [{ conn := 4, cid := 9, opcode := 1, phase := .waitData, left := 200, asked := [(0, 100)] }] } })

theorem witness_RoceAndSending :
    let s := paired
    let live := s.tables.cmds.filter (fun x => !x.internal && !x.closed && x.conn = 4)
    (connReady s 4 = true ∧ (connOf s 4).tcp = false) ∧ ((∀ x ∈ live, x.cid ≠ sqeCid (0x30000 : BitVec 512)) ∧ live.length < (connOf s 4).sqSize) ∧
    ¬ (∀ x ∈ live, x.cid ≠ sqeCid (0x90000 : BitVec 512)) ∧ (s.xpt.takes = true ∧ (spn s (spindleOf s 4)).state ≠ 3) ∧
    ((2 : BitVec 8) = 2 ∧ (4 : BitVec 8) = 4 ∧ 4 < (5 : BitVec 8).toNat ∧ 0x0D ≤ (0x0D : BitVec 8).toNat ∧ (0x10 : BitVec 8).toNat ≤ 0x10) ∧
    ((liveCmd s 4 9).any (fun m => m.asked = [(0, 100)] && m.phase = .waitData && decide (100 < m.left)) = true ∧ (liveCmd s 4 7).isNone = true) ∧
    (parseRuns s (spindleOf s 4) (connClass s 4) = false ∧ parseRuns (parsing s) (spindleOf (parsing s) 4) (connClass (parsing s) 4) = true ∧
      (spn (parsing s) (spindleOf (parsing s) 4)).rxq = []) ∧
    (¬ (((0x0E : BitVec 8) = 0x0F ∨ (0x0E : BitVec 8) = 0x10) ∧ 0 + 99 ≠ 100) ∧ ((0x0F : BitVec 8) = 0x0F ∧ 0 + 99 ≠ 100) ∧ 100 < 0 + 101) ∧
    (mwf none s.tables.locks = true ∧ (connected { isOpen := true, cached := true }).tables.cmds = [] ∧
      (connOf (connected { isOpen := true, cached := true }) 4).vc = none ∧ (connOf (connected { isOpen := true, cached := true }) 4).unack = []) ∧
    ({} : RtxRec).sacked = false ∧ (connOf s 4).unack = [] ++ ({} : RtxRec) :: [] ∧ (∀ y ∈ (connOf s 4).unack, y.seq = 0 → (connOf s 4).unack.head? = some y) ∧
    ((connOf (paired { tries := 6 }) 4).unack.map (·.tries) = [6] ∧ (connOf (paired { tries := 7, rnr := 7 }) 4).unack.map (·.rnr) = [7]) ∧
    ((connOf State.reset 4).isOpen = false ∧ 4 < nConns State.reset) ∧
    (let s := paired { frame := { src := some {} } }
     let t : State := { s with store := { act := .accepted } }
     t.store.act = .accepted ∧ (connOf t 4).isOpen = true ∧ ∃ r ∈ (connOf t 4).unack, r.frame.src ≠ none) := by decide +kernel

theorem witness_RoceAndSending_transmit :
    let f : TxFrame := { path := 0, kind := 3, conn := some 4 }
    let s := connected { isOpen := true } (fun s => { s with xpt := { s.xpt with tx := [f] } })
    s.xpt.tx = [] ++ f :: [] ∧ f.path = 0 ∧ frameSlot s f = true ∧ keepsRecord f = true ∧ f.again = false ∧ f.ptp = none ∧
    windowTakes s 4 f = true ∧ keepsRecord { f with kind := 6 } = false ∧ (connOf s 4).isOpen = true ∧ (connOf s 4).tcp = false ∧
    mget 0 s.reel.xq (crossingKey 2 0) + (mget [] s.reel.xfly (crossingKey 2 0)).length + frameUnits f ≤ crossingDepth 2 ∧
    (let p : TxFrame := { kind := 8, ptp := some 7 }
     let t : State := { connected {} with xpt := { tx := [p] }, ports := [(0, { up := 1 })] }
     t.xpt.tx = [] ++ p :: [] ∧ frameSlot t p = true ∧ p.conn = none ∧ bit (portOf t 0).up 0 = true) ∧
    ∀ g ∈ State.reset.xpt.tx, g.path = 0 → frameSlot State.reset g = false := by decide

/-- An open TCP connection with its ICReq done. -/
def streaming (c : Conn → Conn := id) (f : State → State := id) : State :=
  connected (c { isOpen := true, cached := true, tcp := true, icDone := true, mtu := 8960 }) f

theorem witness_TcpAndTls :
    let s := streaming
    let fresh := streaming (fun c => { c with icDone := false })
    let asked := streaming (fun c => { c with hdgst := true }) (fun s => { s with
      tables := { cmds := [{ conn := 4, cid := 9, opcode := 1, phase := .waitData, left := 200, asked := [(0, 100)] }] } })
    ((connReady s 4 = true ∧ (connOf s 4).tcp = true) ∧ (connOf fresh 4).icDone = false ∧ (31 : BitVec 8).toNat ≤ 31 ∧ 31 < (32 : BitVec 8).toNat) ∧
    (∀ typ, plainPdu (connOf s 4) typ = some 0) ∧ (s.tables.cmds = [] ∧ (connOf s 4).vc = none ∧ (connOf s 4).tls = false) ∧
    (let p : Conn := { (connOf s 4) with tls := true, plain := [4, 0, 0, 0, 9, 0, 0, 0, 1] }
     plainPdu p 4 = some 9 ∧ plainPdu p 0 = none ∧ plainPdu { p with plain := p.plain.take 8 } 4 = none) ∧
    (parseRuns asked (spindleOf asked 4) (connClass asked 4) = false ∧ parseRuns (parsing asked) 0 0 = true ∧ spindleOf (parsing asked) 4 = 0 ∧
      (spn (parsing asked) 0).rxq = []) ∧
    (let o := streaming id (fun s => { s with tables := { cmds := [{ conn := 4, cid := 9, opcode := 1, phase := .staged, asked := [(0, 100)] }] } })
     (liveCmd o 4 9).any (fun m => (answersAsk m 0 100).isSome && m.phase ≠ .waitData) = true) ∧
    (frameConn State.reset 0 (.tcp false 7 9 4420 true) = none ∧ frameConn (streaming (fun c => { c with ip := 7, rport := 9, port := 4420 })) 0
      (.tcp false 7 9 4420 true) = some 4) ∧
    ((connOf asked 4).hdgst = true ∧ (liveCmd asked 4 9).any (fun m => (answersAsk m 0 100).isSome && (answersAsk m 1 100).isNone) = true ∧
      liveCmd asked 4 7 = none) ∧
    (((4420 : BitVec 16) = State.reset.xpt.listen) ∧ (connOf State.reset 4).isOpen = false ∧ 4 < nConns State.reset) ∧
    ((connOf s 4).cached = true ∧ (connOf s 4).recover = none ∧ (connOf (streaming (fun c => { c with cached := false })) 4).cached = false) ∧
    (let t := streaming (fun c => { c with unack := [{ len := 10, tries := 7 }] })
     (connOf t 4).unack = { len := 10, tries := 7 } :: [] ∧ (7 : Nat) < 8 ∧ ((9 : BitVec 32) - 0).toNat < (10 : BitVec 32).toNat) ∧
    ((8959 : BitVec 16).toNat < (connOf s 4).mtu ∧ (connOf s 4).mtu ≤ (8960 : BitVec 16).toNat) ∧
    (let v : State := { s with vct := { ents := [(0, { inForce := { flags := 1 } })] } }
     ({} : Hello).suite = 0x1302 ∧ ({} : Hello).group = 24 ∧ ({} : Hello).psk = true ∧ ({} : Hello).early = false ∧ ({} : Hello).ticket = false ∧
       bit (vcOf v 0).inForce.flags 0 = true ∧ bit (vcOf s 0).inForce.flags 0 = false) ∧
    (let h := streaming (fun c => { c with hand := true, tlsVc := some 1 }) (fun s => { s with vct := { ents := [(1, { inForce := { tlsBase := 8, tlsCnt := 2 } })] } })
     let r := (vcOf h 1).inForce
     (connOf h 4).hand = true ∧ (connOf h 4).tls = false ∧ ¬ 4096 ≤ tlsConns h ∧ ¬ r.tlsCnt.toNat < (tlsSlotsUsed h r).length + 2 ∧
       slotsTake h r 8 9 = true ∧ slotsTake h r 8 10 = false ∧ ({ r with tlsCnt := 1 } : VcRec).tlsCnt.toNat < (tlsSlotsUsed h { r with tlsCnt := 1 }).length + 2) ∧
    (let k := streaming (fun c => { c with tls := true, keyWait := true, txSeq := 0x1000000 })
     (connOf k 4).keyWait = true ∧ (connOf k 4).recs = [] ∧ (connOf k 4).tls = true ∧ 2 ^ 24 ≤ (connOf k 4).txSeq.toNat) := by decide

theorem witness_TcpAndTls_above :
    2048 ≤ tlsConns { varB := true, xpt := { conns := (List.range 2048).map (fun k => (k, { isOpen := true, tls := true })) } } := by decide +kernel

/-- A connection under TLS with a key of use 6 in slot 3, both keys and IVs 0. -/
def secured : State :=
  streaming (fun c => { c with tls := true, kTx := 3, kRx := 3 }) (fun s => { s with ciph := { slots := [(3, { use := 6, limit := 35 })] } })

theorem witness_TcpAndTls_record :
    (recordSlot secured 4 = false ∧ recordSlot (parsing secured) 4 = true ∧ (connOf (parsing secured) 4).recs = [] ∧
      (connOf (parsing secured) 4).keyWait = false ∧ keyRefusal (keyOf secured (connOf secured 4).kTx.toNat) = none) ∧
    connReady secured 4 = true ∧ (connOf secured 4).tls = true ∧ keyRefusal (keyOf secured (connOf secured 4).kRx.toNat) = none ∧
    beNat (([23, 3, 3, 0x41, 0] ++ List.replicate 17 (0 : BitVec 8) |>.drop 3).take 2) ≤ 16640 ∧
    16640 < beNat (([23, 3, 3, 0x41, 1] : List (BitVec 8)).drop 3 |>.take 2) ∧
    tlsOpen 0 0 0 [23, 3, 3, 0, 16] = none ∧ keyRefusal (keyOf State.reset 0) ≠ none := by decide

/-- Three bytes of text come back from their ciphertext. -/
theorem gcmText_three (key : BitVec 256) (iv : List (BitVec 8)) :
    ∃ a b c : BitVec 8, ∀ x y z, gcmText key iv [x, y, z] = [x ^^^ a, y ^^^ b, z ^^^ c] := by
  have h : ∀ x y z, gcmText key iv [x, y, z] = xorBytes [x, y, z] (blockBytes [aes256 true key (ctrBlock iv 2)]) := by
    intro x y z
    simp [gcmText, keystream, List.range_succ]
  simp only [h]
  generalize aes256 true key (ctrBlock iv 2) = B
  exact ⟨(B >>> 0).setWidth 8, (B >>> 8).setWidth 8, (B >>> 16).setWidth 8, fun _ _ _ => rfl⟩

/-- A record of two bytes and their content type under key 0: header, ciphertext, tag. -/
def shortRecord (x y z : BitVec 8) : List (BitVec 8) :=
  let ct := gcmText 0 (tlsNonce 0 0) [x, y, z]
  [23, 3, 3, 0, 19] ++ ct ++ gcmTag 0 (tlsNonce 0 0) [23, 3, 3, 0, 19] ct

/-- It opens as what it holds. -/
theorem shortRecord_opens (x y z : BitVec 8) (hz : z ≠ 0) : tlsOpen 0 0 0 (shortRecord x y z) = some (z, [x, y]) := by
  obtain ⟨a, b, c, h⟩ := gcmText_three 0 (tlsNonce 0 0)
  have r : shortRecord x y z = [23, 3, 3, 0, 19] ++ [x ^^^ a, y ^^^ b, z ^^^ c] ++ gcmTag 0 (tlsNonce 0 0) [23, 3, 3, 0, 19] [x ^^^ a, y ^^^ b, z ^^^ c] := by
    simp only [shortRecord, h]
  obtain ⟨X, e⟩ : ∃ X, gcmTag 0 (tlsNonce 0 0) [23, 3, 3, 0, 19] [x ^^^ a, y ^^^ b, z ^^^ c] = halfBytes X := ⟨_, rfl⟩
  have n : (halfBytes X).length = 16 := by simp [halfBytes]
  have back : gcmText 0 (tlsNonce 0 0) [x ^^^ a, y ^^^ b, z ^^^ c] = [x, y, z] := by
    rw [h]; simp
  have cut : ((shortRecord x y z).drop 5).take ((shortRecord x y z).length - 21) = [x ^^^ a, y ^^^ b, z ^^^ c] := by rw [r, e]; simp [n]
  have tag : (shortRecord x y z).drop ((shortRecord x y z).length - 16) = halfBytes X := by rw [r, e]; simp [n]
  have head : (shortRecord x y z).take 5 = [23, 3, 3, 0, 19] := by rw [r]; rfl
  have size : ¬ (shortRecord x y z).length < 22 := by rw [r, e]; simp [n]
  have strip : [x, y, z].reverse.dropWhile (fun b => decide (b = 0)) = [z, y, x] := by simpa using hz
  unfold tlsOpen
  simp only [cut, tag, head, e, back, size, strip, ne_eq, not_true_eq_false, decide_false, Bool.or_self, Bool.false_eq_true, if_false]
  rfl

/-- The records of the statement's cases: data, a KeyUpdate, another handshake message, close_notify and another alert. -/
theorem witness_TcpAndTls_texts :
    tlsOpen 0 0 0 (shortRecord 4 0 23) = some (23, [4, 0]) ∧ tlsOpen 0 0 0 (shortRecord 24 0 22) = some (22, [24, 0]) ∧
    tlsOpen 0 0 0 (shortRecord 4 0 22) = some (22, [4, 0]) ∧ tlsOpen 0 0 0 (shortRecord 1 0 21) = some (21, [1, 0]) ∧
    tlsOpen 0 0 0 (shortRecord 2 20 21) = some (21, [2, 20]) :=
  ⟨shortRecord_opens _ _ _ (by decide), shortRecord_opens _ _ _ (by decide), shortRecord_opens _ _ _ (by decide),
    shortRecord_opens _ _ _ (by decide), shortRecord_opens _ _ _ (by decide)⟩


/-! ## Commands of a tenant -/

/-- Namespace 1: zoned, of class 1, four zones of one skein in groups of eight, attached to controller 1. -/
def space : Ns := { cls := 1, skeins := 4, actLim := 4, openLim := 4, group8 := true, attached := [1], commit := [(0, 4)] }

/-- Zone 0 of namespace 1 as given; spindle 0 holds an issue slot of class 1, which has a place on die 1, a program slice, a cipher slot, a bus
transfer and a transmit slot. -/
def serving (l : List Cmd) (z : Zone := { state := 2, skeins := [0] }) (f : State → State := id) : State :=
  f { reel := { run := true, deck := 1, grants := [{ slot := oneSlot 8 5 0 0 8192 }],
                tt := { mode := 1, places := [{ owner := 1, plane := 0, hard := 4 }],
                        slots := [oneSlot 8 5 0 0 8192, { oneSlot 2 1 1 10000 4000 with cap := 1, first := 0 }, oneSlot 3 1 0 20000 4000,
                          oneSlot 6 3 2 0 1056, oneSlot 5 2 0 0 8192, oneSlot 5 7 0 0 4096] } },
      store := { running := some { groups := [List.range 8] } },
      xpt := { conns := [(4, { isOpen := true, cached := true, vc := some 1, mtu := 4096 })] },
      vct := { ents := [(1, { state := 1, cls := 1, rd := 1000, wr := 1000 })] },
      media := { nss := [(1, some space)], zones := [(2 ^ 20, z)], limit := 2 ^ 30, share := [(1, 2 ^ 23)] },
      tables := { cmds := l, shares := [(1, 8)] } }

/-- Command 9 of connection 4, for namespace 1, of eight blocks from block 0 on, its words 12 and 13 as given. -/
def asking (op : BitVec 8) (w12 : BitVec 32 := 0) (w13 : BitVec 32 := 0) : Cmd :=
  { conn := 4, cid := 9, cls := 1, vc := some 1, nsid := 1, opcode := op, nlb := 8, sqe := w12.setWidth 512 <<< 384 ||| w13.setWidth 512 <<< 416 }

theorem alone_one {s : State} {c : Cmd} (h : s.tables.cmds = [c]) (i : c.internal = false) (d : c.closed = false) : alone s c :=
  ⟨by simp [h], i, d, by simp [h]⟩

theorem fresh_one {s : State} {c : Cmd} (h : s.tables.cmds = [c]) (i : c.internal = false) (d : c.closed = false) (p : parseTurn s c = true) :
    fresh s c := ⟨alone_one h i d, p⟩

theorem witness_fresh (op : BitVec 8) (w12 w13 : BitVec 32) (z : Zone) : fresh (serving [asking op w12 w13] z) (asking op w12 w13) :=
  fresh_one rfl rfl rfl (show parseTurn (serving [asking op w12 w13] z) (asking op w12 w13) = true from rfl)

theorem witness_lockFree (op : BitVec 8) (w12 w13 : BitVec 32) (z : Zone) (ex : Bool) (a n : Nat) :
    lockFree (serving [asking op w12 w13] z) (asking op w12 w13) ex a n :=
  ⟨rfl, rfl, show 0 < 8 by decide, show some 0 ≠ none by decide, nofun⟩

theorem witness_CommandTable_parse :
    let s := serving [asking 0]
    parseStatus (serving [asking 2] {}) { asking 2 with nlb := 65 } = some (status 0 2) ∧ parseStatus s (asking 2) = none ∧
    (inHold State.reset = true ∧ inHold s = false ∧ s.reel.deck ∉ [9, 11] ∧ nsOf State.reset 1 = none ∧ nsOf s 1 = some space) ∧
    (zoneSendAction (asking 0x79 0 3) = 3 ∧ zoneSendAction (asking 0x79) = 0 ∧ 5 < zoneSendAction (asking 0x79 0 6)) ∧
    (parseStatus s (asking 0) = none ∧ flushTargets s (asking 0) = [] ∧
      flushTargets (serving [asking 0] { state := 2, acc := 8 } (fun s => { s with tables := { s.tables with done := [(1, [(2 ^ 20, 8)])] } })) (asking 0) ≠ []) ∧
    liveCmd State.reset 4 9 = none := by decide +kernel

/-- A command that the device serves, of each opcode that the clause names, bare and with its abort mark taken. -/
theorem witness_CommandTable_serves :
    (∀ op ∈ [1, 2, 0x7D, 0x19, 0x79], let c := asking op
      let s := serving [c]
      modeStatus s c = none ∧ cmdNs s c = some space ∧ kindOk space c.opcode = true ∧ (space.span && fenced s) = false ∧
        (isWriteOp c.opcode && writesRefused s c) = false ∧ (isWriteOp c.opcode && !placementOk space c) = false ∧
        s.tables.marks.contains (c.conn, c.cid) = false) ∧
    (∀ op ∈ [0, 1, 2, 8, 0x0C, 0x7D, 0x7A], let c := asking op
      let s := serving [c] {} (fun s => { s with tables := { s.tables with marks := [(4, 9)] } })
      parseStatus s c = none ∧ s.tables.marks.contains (c.conn, c.cid) = true) ∧
    (copyFormat (asking 0x19) = 0 ∧ copyFormat (asking 0x19 0x100) ≠ 0 ∧ (asking 0x19).bad = false ∧ (asking 0x19).ordered = false) := by decide +kernel

theorem witness_CommandTable_order :
    let c : Cmd := { asking 2 with ordered := true, order := 3, phase := .waitOrder }
    let x : Cmd := { asking 1 with cid := 8, order := 2 }
    let s := serving [x, c]
    (c.ordered = true ∧ (∃ y ∈ s.tables.cmds, y.internal = false ∧ y.conn = c.conn ∧ y.order < c.order)) ∧ predecessorsDone s c = false ∧
    predecessorsDone (serving [c]) c = true ∧ predecessorFailed (serving [c]) c = false ∧ parseStatus (serving [c]) c = none ∧
    predecessorFailed (serving [c] {} (fun s => { s with tables := { s.tables with fails := [(4, 2)] } })) c = true ∧
    (serving [c] {} (fun s => { s with tables := { s.tables with marks := [(4, 9)] } })).tables.marks.contains (c.conn, c.cid) = true := by
  decide +kernel

theorem witness_CommandTable_rows :
    let s := serving [asking 0x7A]
    let far : List (BitVec 64 × BitVec 17) := [(100, 8)]
    (16 < (List.replicate 17 ((0 : BitVec 64), (0 : BitVec 17))).length ∧ far.length ≤ 16 ∧ (far.map (fun r => r.2.toNat)).sum ≤ 65536) ∧
    (∃ r ∈ [((4 : BitVec 64), (8 : BitVec 17))], r.1.toNat < 0 + 8 ∧ 0 < r.1.toNat + r.2.toNat) ∧
    (zoneSendAction (asking 0x7A 0 0x10000) = 0 ∧ parseStatus s (asking 0x7A) = none ∧ (0 : Nat) < nsLbas space ∧
      7 < ((sqeDw (asking 0x7A 0 0x800).sqe 13 >>> 8).setWidth 8 : BitVec 8).toNat ∧ bit (sqeDw (asking 0x7A).sqe 13) 16 = false) ∧
    (let c : Cmd := { asking 0x12 with sqe := 1#512 <<< 320 }
     (sqeDw c.sqe 10).setWidth 8 = 1#8 ∧ (sqeDw (asking 0x12).sqe 10).setWidth 8 ≠ 1#8 ∧
      parseStatus (serving [c] {} (fun s => { s with media := { s.media with nss := [(1, some { space with fdp := true, handles := 2 })] } })) c = none ∧
      (∃ h ∈ [(3 : BitVec 4)], 2 ≤ h.toNat) ∧ ∀ h ∈ [(1 : BitVec 4)], h.toNat < 2) ∧
    ((0x55 : BitVec 8) ∉ [0x00, 0x01, 0x02, 0x08, 0x0C, 0x19, 0x79, 0x7A, 0x7D, 0x12, 0x1D, 0x7F]) := by decide +kernel

/-- One entry of the lock table that waits, for a spindle or for a command. -/
def lockWaits (e : LockEnt) : State := serving [{ asking 1 with phase := .waitLock, locks := [0] }] {} (fun s => { s with
  tables := { s.tables with locks := [(0, some { e with nsid := 1, excl := true, count := 8, owner := 1, conn := 4, cid := 9 })] } })

theorem witness_CommandTable_locks :
    ((nextGrant (lockWaits {})).map (·.2.spindle) = some none ∧ (acquireCmd (lockWaits {}) 4 9 false).map (·.phase) = some .waitLock ∧
      (nextGrant (lockWaits {})).any (fun e => (acquireCmd (lockWaits {}) 4 9 false).any (allGranted (grantLock e.1 e.2 (lockWaits {}))))) ∧
    (nextGrant (lockWaits { spindle := some 5 })).map (·.2.spindle) = some (some 5) ∧ (liveCmd (lockWaits {}) 4 7 = none) ∧
    nextGrant State.reset = none := by decide +kernel

theorem witness_CommandTable_completions :
    let u := unitAt [(12, 9), (16, 4)]
    let s := serving [asking 2] {} (fun s => { modSpn 0 (fun y => { y with cmpl := [u], cmplAt := [3] }) s with reel := { s.reel with core := 4 } })
    ((spn s 0).cmpl = u :: [] ∧ (spn s 0).cmplAt.headD 0 < s.reel.core ∧ (spn s 0).cmplFree ≤ s.reel.core) ∧
    findCmd s ((u >>> 128).setWidth 16) ((u >>> 96).setWidth 16) = some (asking 2) ∧ findCmd State.reset ((u >>> 128).setWidth 16) 0 = none ∧
    ((asking 2).closed = false ∧ bit u 144 = false ∧ bit (unitAt [(18, 1)]) 144 = true ∧ (connOf s 4).tls = false) ∧
    ((spn State.reset 0).cmpl = [] ∧ cmplDrains { s with reel := { s.reel with core := 3 } } 0 = false) := by decide +kernel

/-! ## Reads and writes -/

theorem witness_ReadsAndWrites_reads :
    let onFlash : Zone := { state := 2, skeins := [0], acc := 672, prog := 672 }
    let c := asking 2
    let s := serving [c] onFlash
    let parts := splitRead s space c.nsid c.slba c.nlb
    (parseStatus s c = none ∧ nsOf s c.nsid.toNat = some space ∧ quiesced s c = false ∧ c.ordered = false) ∧
    (readyLbas s space c.nsid c.slba 4 = [] ∧ readTokens s c (c.nlb * (if parts.any (overdue s) then 2 else 1)) = true) ∧
    (rangeOffline s space c.nsid c.slba c.nlb = false ∧ rangePoisoned s space c.nsid c.slba c.nlb = false) ∧
    (readSlots s { c with nlb := 4 } (((splitRead s space c.nsid c.slba 4).map (partReads s c space)).flatten) (anyStaged s space c.nsid c.slba 4) = true ∧
      transportTakes s c (c.nlb * lbaBytes space) = true ∧ c.ranges.length ≤ 16) ∧
    (let v := serving [asking 0x0C]
     splitRead v space 1 0 8 = [] ∧ (asking 0x0C).got = 0 ∧ (asking 0x0C).fail = false ∧ anyStaged v space 1 0 8 = false ∧
       readSlots v (asking 0x0C) [] (anyStaged v space 1 0 8) = true) ∧
    (let w := serving [c] { onFlash with poison := [(0, 8)] }
     let p := serving [c] { onFlash with poison := [(3, 1)] }
     goodRuns w space 1 0 8 = [] ∧ 0 < ((goodRuns p space 1 0 8).map (·.2)).sum ∧ ((goodRuns p space 1 0 8).map (·.2)).sum < 8 ∧
       readyLbas p space 1 0 4 = []) ∧
    readTokens (serving [c] onFlash (fun s => { s with vct := {} })) c 8 = false ∧
    rangeOffline (serving [c] { onFlash with state := 0xF }) space 1 0 8 = true ∧
    rangePoisoned (serving [c] { onFlash with poison := [(3, 1)] }) space 1 0 8 = true := by decide +kernel

theorem witness_zoneTakes (op : BitVec 8) (h : op ∈ [1, 8, 0x7D]) : zoneTakes (serving [asking op]) space (asking op) := by
  unfold zoneTakes
  rcases List.mem_cons.1 h with rfl | h
  · decide +kernel
  rcases List.mem_cons.1 h with rfl | h
  · decide +kernel
  · cases List.mem_singleton.1 h; decide +kernel

theorem witness_ReadsAndWrites_writes :
    let c := asking 1
    let s := serving [c]
    (c.fua = false ∧ tagBytesSet s space c = false) ∧
    (let w : Cmd := { c with slba := 5 }
     parseStatus s w = none ∧ zoneCheck s space 1 0 (w.slba % zszeOf space) w.nlb = some (status 1 0xBC) ∧ writeTokens s w 8 = true ∧ canProgram s w = true ∧
      rowNeed (nsGroup space) (toPool s 1) (zoneOf s 1 0) 8 ≤ stageRoom s 1) ∧
    ((connOf s 4).isOpen = true ∧ c.staged = 0) := by decide +kernel

theorem witness_ReadsAndWrites_copy :
    let c := asking 0x19
    let srcs : List (BitVec 64 × BitVec 17) := [(16, 8)]
    let s := serving [c]
    (srcs.length ≤ 16 ∧ (srcs.map (fun r => r.2.toNat)).sum = c.nlb ∧ srcs.all (fun r => !decide (r.1.toNat < c.slba + c.nlb ∧ c.slba < r.1.toNat + r.2.toNat)) = true) ∧
    (srcs.length < mget 0 s.tables.shares c.cls.toNat ∧ srcs.length < nLocks s ∧ readTokens s c c.nlb = true ∧ s.tables.locks = []) := by decide +kernel

theorem witness_ReadsAndWrites_copyRuns :
    let c := asking 0x19
    let s := serving [c]
    let t := serving [{ c with slba := 24 }] { state := 2, skeins := [0], acc := 24, prog := 24 }
    (splitRead s space 1 16 8 = [] ∧ bit ((homeRecord s space).getD {}).flags 2 = false) ∧ splitRead t space 1 16 8 ≠ [] ∧
    (anyStaged s space 1 16 8 = false ∧ readSlots s c (((splitRead s space 1 16 8).map (partReads s c space)).flatten) false = true) ∧
    (let u := serving [{ c with slba := 672, nlb := 4 }] { state := 2, skeins := [0], acc := 672, prog := 672 }
     splitRead u space 1 0 4 ≠ [] ∧ readSlots u c (((splitRead u space 1 0 4).map (partReads u c space)).flatten) (anyStaged u space 1 0 4) = true ∧
       rangePoisoned u space 1 0 4 = false ∧ rangeOffline u space 1 0 4 = false) ∧
    rangeOffline s space 1 16 8 = false ∧ rangePoisoned s space 1 16 8 = false := by decide +kernel

theorem witness_ReadsAndWrites_copyTakes :
    zoneTakes (serving [asking 0x19]) space { asking 0x19 with srcs := [(16, 8)] } := by
  unfold zoneTakes; decide +kernel

theorem witness_ReadsAndWrites_deferred :
    let c : Cmd := { asking 2 with phase := .deferred, deferAt := 7 }
    let s := serving [c]
    dueDeferred s 1 = [c] ∧ modeStatus s c = none ∧ modeStatus State.reset c = some (status 7 0x83) ∧ isReadOp c.opcode = true ∧
    (let w : Cmd := { asking 1 with phase := .deferred, deferAt := 7 }
     quiesced (serving [w] {} (fun s => { s with reel := { s.reel with deck := 10 } })) w = true) ∧ dueDeferred State.reset 1 = [] := by decide +kernel

theorem witness_ZoneManagement :
    let c := fun (a : Nat) => asking 0x79 0 (BitVec.ofNat 32 a)
    let s := fun (a : Nat) (st : BitVec 4) => serving [c a] { state := st, skeins := [0] }
    (∀ a ∈ [1, 2, 3, 4, 5], zoneSendAction (c a) = a ∧ selectAll (c a) = false ∧ (c a).slba % zszeOf space = 0 ∧ 0 < zoneCount space ∧
      parseStatus (s a 2) (c a) = none ∧ quiesced (s a 2) (c a) = false) ∧
    (∀ st ∈ [1, 2, 3, 4, 0xD, 0xE, 0xF], (zoneOf (s 3 st) 1 0).state = st) ∧
    (openLimit (s 3 4) space 1 0 = none ∧ (zoneOf (s 3 4) 1 0).skeins ≠ []) ∧
    openLimit (s 3 1) { space with actLim := 0 } 1 0 = some (status 1 0xBD) := by decide +kernel


/-! ## Admin commands -/

/-- Admin command 9 of connection 4 on controller 1, its words 10 to 12 as given. -/
def managing (op : BitVec 8) (w10 : BitVec 32 := 0) (w11 : BitVec 32 := 0) (w12 : BitVec 32 := 0) : Cmd :=
  { asking op with admin := true, sqe := w10.setWidth 512 <<< 320 ||| w11.setWidth 512 <<< 352 ||| w12.setWidth 512 <<< 384 }

/-- The state it is answered in; controller 1 has one I/O queue, connection 6. -/
def managed (c : Cmd) (f : State → State := id) : State := serving [c] {} (fun s => f { s with
  ctrls := [(1, { cc := 1, rdy := true, admin := some 4, ios := [(6, 1)], kaRuns := true })] })

theorem witness_managing (op : BitVec 8) (w10 w11 w12 : BitVec 32) : fresh (managed (managing op w10 w11 w12)) (managing op w10 w11 w12) :=
  fresh_one rfl rfl rfl (show parseTurn (managed (managing op w10 w11 w12)) (managing op w10 w11 w12) = true from rfl)

theorem witness_AdminCommands :
    let s := managed (managing 2)
    let m := fun (d : BitVec 4) => ({ s with reel := { s.reel with deck := d } } : State)
    (adminMode s (managing 2) = none ∧ adminMode (m 11) (managing 9) ≠ none ∧ adminMode State.reset (managing 2) ≠ none) ∧
    ((logPage s 1 0x81 1 0).1 = 0 ∧ (logPage s 1 0x82 1 0).1 ≠ 0 ∧ pageNs s 1 1 false = true) ∧
    (4 ∉ identifyCns ∧ 0 ∈ identifyCns ∧ cmdNs s (managing 6) ≠ none ∧ cmdNs State.reset (managing 6) = none) ∧
    (abortsOut s (some 1) ≤ 4 ∧ 4 < abortsOut (serving (List.replicate 5 (managing 8))) (some 1) ∧ queueConn s 1 2 = none ∧ queueConn s 1 1 = some 6 ∧
      liveCmd s 6 3 = none) ∧
    (let d : Cmd := { asking 2 with conn := 6, cid := 3 }
     let t := serving [managing 8, d]
     liveCmd t 6 3 = some d ∧ d ≠ managing 8 ∧ d.admin = false ∧ d.locks.contains 65535 = false ∧ locksOf t 6 3 false = []) ∧
    ((∀ w ∈ [0x0F, 0x0B, 0xC0, 4, 0x1D], bit (BitVec.ofNat 32 w) 31 = false) ∧ bit (0x8000000F : BitVec 32) 31 = true ∧
      (999 : BitVec 32).toNat < 1000 ∧ 120000 < (120001 : BitVec 32).toNat ∧ 1000 ≤ (1000 : BitVec 32).toNat ∧ (120000 : BitVec 32).toNat ≤ 120000) ∧
    ((getFeature s 1 5 0).1 = 0 ∧ (aersOut s (some 1) ≤ 4 ∧ (ctrlOf s 1).notices = 0) ∧
      4 < aersOut (serving (List.replicate 5 (managing 0x0C))) (some 1)) ∧
    ((ctrlOf s 1).kaRuns = true ∧ (ctrlOf State.reset 1).kaRuns = false ∧
      ({ m 11 with media := { s.media with sanitize := true } } : State).media.sanitize = true ∧ (m 11).reel.deck = 11) ∧
    (let t := managed (managing 6) (fun s => { s with tables := { s.tables with marks := [(4, 9)] } })
     adminMode t (managing 6) = none ∧ t.tables.marks.contains (4, 9) = true ∧ s.tables.marks.contains (4, 9) = false) := by decide +kernel

theorem witness_AdminCommands_sanitize :
    let able := managed (managing 0x84 2) (fun s => { s with
      store := { s.store with running := some { groups := [List.range 8], decks := [{ mode := 1 }, { mode := 11 }], matrix := [(1, 0x802)] } }
      media := { s.media with nss := [(1, some { space with sanPerm := true })] } })
    maySanitize (managed (managing 0x84)) 1 = false ∧ maySanitize able 1 = true ∧ sanAction (managing 0x84 2) = 2 ∧ sanAction (managing 0x84 4) = 4 ∧
    sanAction (managing 0x84 1) = 1 ∧ cryptoEraseOk able 1 = false ∧ modeRank 11 ≤ pendRank able ∧ modeRank 11 ≤ activeRank able ∧
    permits able able.reel.deck 11 = true := by decide +kernel

/-- A Fabrics command of connection 4, bound to no controller yet, of a type and with its words 10 to 12. -/
def joining (t : BitVec 32) (w10 : BitVec 32 := 0) (w11 : BitVec 32 := 0) (w12 : BitVec 32 := 0) : Cmd :=
  { managing 0x7F w10 w11 w12 with vc := none, sqe := (managing 0x7F w10 w11 w12).sqe ||| t.setWidth 512 <<< 32 }

theorem witness_AdminCommands_fabrics :
    let s := fun (c : Cmd) => managed c (fun s => { s with
      xpt := { conns := [(4, { isOpen := true, cached := true })] }
      vct := { ents := [(1, { state := 1, cls := 1, inForce := { ioq := 2 } })], nqn := [(1, 77)] }
      ctrls := [] })
    (fctype (joining 1) = 1 ∧ nqnVc (s (joining 1)) 78 = none ∧ nqnVc (s (joining 1)) 77 = some 1) ∧
    (connectOk (s (joining 1 0 31 10000)) (joining 1 0 31 10000) 1 0xFFFF = true ∧ pinFull (s (joining 1 0 31 10000)) 1 = false ∧
      connectOk (s (joining 1 0 32 10000)) (joining 1 0 32 10000) 1 0xFFFF = false ∧ (connOf (s (joining 1)) 4).tls = false) ∧
    (let t := { s (joining 1 0x20000 1023) with ctrls := [(1, { admin := some 7 })] }
     connectOk t (joining 1 0x20000 1023) 1 2 = true ∧ (sqeDw (joining 1 0x20000 1023).sqe 10 >>> 16).setWidth 16 ≠ (0 : BitVec 16)) ∧
    (let c := managing 0x7F 0 0x14 1
     fctype c = 0 ∧ sqeDw c.sqe 11 = 0x14 ∧ bit (sqeDw c.sqe 12) 0 = true ∧ (sqeDw c.sqe 12 >>> 14).setWidth 2 = (0 : BitVec 2) ∧
      bit (sqeDw (managing 0x7F 0 0x14).sqe 12) 0 = false ∧ bit (ctrlOf (managed c) 1).cc 0 = true ∧ sqeDw (managing 0x7F 0 0x15).sqe 11 ≠ 0x14) ∧
    (fctype (joining 4) = 4 ∧ fctype (joining 8) = 8 ∧ (asking 0x7F).admin = false) := by decide +kernel

/-! ## Task sets and namespaces -/

/-- The command that set 3 runs, received, its word 10 and namespace as given. -/
def tasked (op : BitVec 8) (w10 : BitVec 32 := 0) (n : BitVec 32 := 1) : Cmd :=
  { internal := true, cid := 3, opcode := op, nsid := n, sqe := w10.setWidth 512 <<< 320 }

/-- A read window on each of dies 0 to 7. -/
def allDies : SlotEntry := { oneSlot 1 1 0 0 4000 with cap := 1, first := 0, icount := 8, istep := 1 }

/-- Set 3 at work on a command with its buffer in SRAM, which holds the bytes given; spindle 0 holds an issue slot of class 0. -/
def tasking (c : Cmd) (l : List (BitVec 8) := []) (f : State → State := id) : State :=
  serving [c] {} (fun s => f { s with
    reel := { s.reel with grants := [{ slot := oneSlot 8 5 0 0 8192 0 }] }
    store := { running := some { groups := [List.range 8], decks := [{ mode := 11, places := [{ owner := 1 }], slots := [allDies] }] } }
    tasks := [(3, { state := 1, run := some { buf := 0x10000000 } })]
    mem := l.zipIdx.map (fun p => (0x10000000 + p.2, p.1)) })

/-- A parameter block: NSID 2, of class 1, two skeins in zones of one, one active and one open zone. -/
def blockBytes (flags : BitVec 8 := 0) : List (BitVec 8) := [2, 0, 0, 0, 0, 0, 1, flags, 2, 0, 0, 0, 0, 0, 0, 0, 1, 0, 1, 0, 0, 0, 1, 0]

theorem witness_TaskSets :
    let on := tasking (tasked 2)
    let off : State := { tasks := [(3, { chain := 0x10000080, cmd := [(0, 0xE0)] })] }
    ((taskOf on 3).state = 1 ∧ (taskOf off 3).state ≠ 1 ∧ setCmd off 3 = none ∧ inHold off = true ∧ sqeOp (taskSqe (taskOf off 3)) ∈ taskOps) ∧
    (let x : State := { reeling with tasks := [(3, { cmd := [(0, 0x55)] })] }
     inHold x = false ∧ sqeOp (taskSqe (taskOf x 3)) ∉ taskOps ∧ sqeOp (taskSqe (taskOf x 3)) ∉ taskIoOps) ∧
    (chainOk off 0x10000080 = true ∧ chainOk off 0x10000081 = false ∧ chainOk off 0x107FFF80 = true ∧ chainOk off 0x10800000 = false ∧
      portByte { off with mem := [(0x10000080, 0xE1)] } 0x10000080 ∈ taskOps) ∧
    (let c : Cmd := { tasked 2 with phase := .ended }
     setCmd (tasking c) 3 = some c ∧ (runOf (tasking c) 3).chain = false ∧ (tasking c).mgmt.reply = none ∧
      (let t := tasking c [] (fun s => { s with tasks := [(3, { state := 1, cancel := true, run := some { chain := true, desc := 0x10000080, ctl := 2 } })] })
       (runOf t 3).chain = true ∧ (taskOf t 3).cancel = true ∧ bit (runOf t 3).ctl 1 = true)) ∧
    ((tasked 2).phase ≠ .ended ∧ inDram { off with tasks := [(3, { run := some { buf := 0x1000000000 } })] } 0x1000000000 4096 = true) := by
  decide +kernel

theorem witness_NamespaceCommands_create :
    let s := tasking (tasked 0xE0) (blockBytes)
    let b := paramBlock s (runOf s 3).buf.toNat
    (setCmd s 3 = some (tasked 0xE0) ∧ (tasked 0xE0).phase = .received ∧ inHold s = false ∧ parseSlot s (tasked 0xE0) = true ∧
      firstOfClass s (tasked 0xE0) = true) ∧
    ((blockNs s b).span = false ∧ blockOk s b = true ∧ nsOf s (pNsid b) = none ∧ mget {} s.span.dir (pNsid b) = {} ∧
      activeTotal s + activeShare (blockNs s b) ≤ 16384 ∧ (createNs b s).1 = 0) ∧
    blockOk s (paramBlock s 0) = false ∧ nsOf (tasking (tasked 0xE0) [] (fun s => { s with media := { nss := [(2, some space)] } })) 2 ≠ none ∧
    (let t := tasking (tasked 0xE0) (blockBytes) (fun s => { s with media := { s.media with nss := [(1, some { space with actLim := 16384 })] } })
     ¬ (activeTotal t + activeShare (blockNs t b) ≤ 16384)) ∧
    (let t := tasking (tasked 0xE0) (blockBytes) (fun s => { s with media := { s.media with nss := [(1, some { space with commit := [(0, 1983)] })] } })
     ((createGroups t b).map (uncommitted t)).sum < (blockNs t b).skeins) ∧
    (let t := tasking (tasked 0xE0) (blockBytes 1)
     (blockNs t (paramBlock t 0x10000000)).span = true ∧ blockOk t (paramBlock t 0x10000000) = true ∧ fenced t = false ∧ t.span.state = 0 ∧
       fenced { t with span := { state := 3 } } = true) := by decide +kernel

theorem witness_NamespaceCommands_rest :
    let s := tasking (tasked 0xE1)
    let v : BitVec 12 := taskVc (tasked 0xE2 2)
    (nsOf s 2 = none ∧ nsOf s 1 = some space ∧ space.span = false ∧ space.attached ≠ [] ∧ ({ space with attached := [] } : Ns).attached = []) ∧
    (v ∉ space.attached ∧ taskVc (tasked 0xE2 1) ∈ space.attached ∧ attachBad s space v.toNat = true ∧ attachBad s { space with attached := [] } 1 = false) ∧
    (hasDeck s 11 = true ∧ hasDeck State.reset 11 = false ∧ sanAction (tasked 0xE8 2) = 2 ∧ sanAction (tasked 0xE8 3) ∉ [2, 4] ∧
      sqeDw (tasked 0xE9 0x81).sqe 12 = 0 ∧ sqeDw (tasked 0xE9 0x81).sqe 13 = 0) ∧
    ((logPage s 0 3 1 0).1 = 0 ∧ (logPage s 0 0x82 1 0).1 ≠ 0 ∧ inDram { s with tasks := [(3, { run := some { buf := 0x1000000000 } })] } 0x1000000002 2 = true) := by
  decide +kernel

/-! ## Keys, virtual controllers, DRAM -/

/-- Key slots 0 to 63 belong to class 1, controller 1 is of class 1, slot 3 is selected and slot 4 the destination. -/
def keyed (f : Ciph → Ciph := id) : State :=
  { store := { running := some { parts := [{ owner := 1, dram := [(0x1000000000, 65536)], keys := [(0, 64)] }] } },
    vct := { ents := [(1, { state := 1, cls := 1 })], idx := 1, recReg := 0x1000000080 }, ciph := f { ksel := 3, kdst := 4, kvc := 1 } }

theorem witness_KeyStore :
    let full : KeySlot := { use := 1, limit := 35, key := 7, vc := 1 }
    let s := keyed (fun c => { c with slots := [(3, full)] })
    (settle s = s ∧ 3 < nKeys s ∧ nKeys { s with varB := true } ≤ (8192 : BitVec 14).toNat) ∧
    (35 ≤ (35 : BitVec 6).toNat ∧ (56 : BitVec 6).toNat ≤ 56 ∧ ¬ 35 ≤ (34 : BitVec 6).toNat ∧ ¬ (57 : BitVec 6).toNat ≤ 56) ∧
    ((1 : BitVec 4) ≠ 0 ∧ (6 : BitVec 4).toNat ≤ 6 ∧ ¬ (7 : BitVec 4).toNat ≤ 6) ∧
    (slotForVc s 3 s.ciph.kvc = true ∧ slotForVc s 64 s.ciph.kvc = false ∧ slotForVc s 4 (keyAfter full).vc = true) ∧
    (s.ciph.rngBad = false ∧ ({ s.ciph with rngBad := true } : Ciph).rngBad = true) ∧
    ((keyOf s 3).use ≠ 0 ∧ (keyOf (keyed) 3).use = 0) ∧
    ((keyAfter (keyOf s 3)).use ≠ 0 ∧ (keyOf s 4).use = 0 ∧ (keyOf s 4).pend = none ∧ (4 : Nat) ≠ 3) ∧
    (let t := keyed (fun c => { c with slots := [(3, full), (4, full)] }); (keyOf t 4).use ≠ 0) ∧
    ((2 : BitVec 4) ≠ 0 ∧ (2 : BitVec 4) ≠ full.use ∧ ¬ (full.use = 3 ∧ (2 : BitVec 4) = 4)) := by decide

theorem witness_VirtualControllers :
    let s := keyed
    let clean := { s with vct := { s.vct with ents := [] } }
    let V := s.vct.idx.toNat
    (settle s = s ∧ V < nVcs s ∧ nVcs { s with varB := true } ≤ (2048 : BitVec 12).toNat) ∧ ((vcOf s V).state ≠ 0 ∧ (vcOf clean V).state = 0) ∧
    (s.vct.recReg.toNat % 128 = 0 ∧ dramInRange s 1 s.vct.recReg.toNat 128 = true ∧ dramInRange s 1 0x100000FFC0 128 = false) ∧
    (vcNamespaces s V = [] ∧ isHome s V = false ∧ vcNamespaces (serving []) 1 ≠ []) ∧
    (let t : State := { s with xpt := { conns := [(4, { isOpen := true, vc := some 1 })] } }
     (connOf t 4).isOpen = true ∧ (connOf t 4).vc = some t.vct.idx ∧ vcConns t 1 ≠ 0) ∧
    (let all := sharers s (s.media.nss.length + 1) [V]
     (∀ k ∈ all, vcConns s k = 0) ∧ refillsFit s 2 all = true ∧
       (let d : Deck := { mode := 1, cls := [(2, 0x80000000)] }
        let m : SMap Vc := [(1, { state := 1, inForce := { rdRefill := 1 } })]
        refillsFit { s with store := { running := some { decks := [d] } }, vct := { s.vct with ents := m } } 2 all = false)) ∧
    (let t : State := { vct := { ents := [(1, { state := 2 })] } }; (vcOf t 1).state = 2 ∧ vcConns t 1 = 0) ∧
    (let t : State := { s with
       vct := { s.vct with ents := [(1, { state := 1, cls := 1, inForce := { flags := 0x60 } })] }
       reel := { run := true, deck := 1, grants := [{ slot := oneSlot 7 4 0 0 4096 }] } }
     (vcOf t 1).state = 1 ∧ bit (vcOf t 1).inForce.flags 5 = true ∧ portOpen t 1 = true ∧ portOpen s 1 = false) := by decide

theorem witness_DramControllers :
    let d : Drc := { state := 2, banks := [(0, { rows := [(5, 1)], queue := [4] })], wback := [7],
                     merge := [{ unit := 0x80000000, mask := 3, bytes := List.replicate 32 1 }] }
    let s : State := { drcs := [(1, d)] }
    let on : State := { s with reel := { run := true, deck := 1 } }
    ((drcOf s 1).state = 2 ∧ mwf {} (drcOf s 1).banks = true ∧ (drcOf State.reset 1).state ≠ 2) ∧ (s.reel.run = false ∧ on.reel.run = true) ∧
    ((15 : BitVec 8) ≠ 0 ∧ (15 : BitVec 8).toNat < 16) ∧ ((4 : BitVec 3).toNat ≤ 4 ∧ (drcOf s 1).queue = []) ∧
    (∀ len ∈ [(1 : BitVec 10), 2, 4, 8, 16, 32, 64], len.toNat ∈ [1, 2, 4, 8, 16, 32, 64] ∧
      0x600000000 - len.toNat + len.toNat ≤ 24 * 2 ^ 30 ∧ (0x600000000 - len.toNat) % len.toNat = 0) ∧
    ((96 : BitVec 10).toNat ∉ [1, 2, 4, 8, 16, 32, 64] ∧ (8 : BitVec 35).toNat % (32 : BitVec 10).toNat ≠ 0 ∧
      (List.replicate 32 (0 : BitVec 8)).length = 32 ∧ (List.replicate 64 (0 : BitVec 8)).length = 64) ∧
    (let e : State := { drcs := [(1, { state := 2 })] }; (drcOf e 1).merge = [] ∧ (0x5FFFFFFFF : BitVec 35).toNat < 24 * 2 ^ 30) ∧
    (controlSlot on 1 = none ∧ controlSlot s 1 ≠ none) ∧ ((drcOf s 1).merge ≠ [] ∧ (List.replicate 32 (1 : BitVec 8)).length = 32) ∧
    (drcOf s 1).wback = 7 :: [] := by decide

/-! ## Tilost -/

/-- Session 1 open and enrolled, changed as given, in Hold. -/
def talking (x : Session → Session := id) (f : State → State := id) : State :=
  f { mgmt := { sessions := [(1, x { isOpen := true, enrolled := true })] } }

theorem witness_heard (sv : Served) : heard (talking) 1 sv := by cases sv <;> exact ⟨rfl, rfl, rfl, by decide⟩

theorem witness_TilostRequests_sessions :
    let s := talking
    let full : State := { mgmt := { sessions := [(0, { isOpen := true }), (1, { isOpen := true }), (2, { isOpen := true }), (3, { isOpen := true })] } }
    ((∀ k < 4, (sessOf full k).isOpen = true) ∧ (sessOf s 0).isOpen = false) ∧
    ((talking id (fun s => { s with store := { hashes := [5] } })).store.hashes.contains (6 : BitVec 384) = false ∧ State.reset.store.hashes = []) ∧
    ((sessOf s 1).isOpen = true ∧ (sessOf s 0).isOpen = false ∧ (sessOf s 1).order = [] ∧ (sessOf s 1).answers = []) ∧
    16 ≤ (sessOf (talking (fun x => { x with order := List.replicate 16 0 })) 1).order.length ∧
    (tilostBar 1 .enrolled (talking (fun x => { x with enrolled := false })) = some 1 ∧
      tilostBar 1 .any (talking id (fun s => { s with sys := { bootErr := 4 } })) = some 3 ∧
      tilostBar 1 .enrolledHold (talking id (fun s => { s with reel := { run := true, deck := 1 } })) = some 3) := by decide +kernel

theorem witness_TilostRequests_rows :
    let s := talking
    ((1024 : BitVec 32).toNat ≤ 1024 ∧ 1024 < (1025 : BitVec 32).toNat) ∧
    ((s.evr.widx - 0).toNat ≤ 65536 ∧ 65536 < (s.evr.widx - 1).toNat) ∧ (settle s = s ∧ (∀ q, s.reel.req = some q → q.tilost = none)) ∧
    (11 < (12 : BitVec 32).toNat ∧ (12 : BitVec 32) ≠ 0xF ∧ modeVerdict s 1 ≠ 1 ∧
      modeVerdict { reeling with store := { running := some { decks := [{ mode := 2 }], matrix := [(1, 4)] } } } 2 = 1) ∧
    ((64 : BitVec 32).toNat ≤ 64 ∧ 64 < (65 : BitVec 32).toNat ∧ (0x100000001 : BitVec 64).toNat % 4 ≠ 0 ∧ mget none s.latch 0x10000000C = none) ∧
    (1048512 < (1048513 : Nat) ∧ ([] : List (BitVec 8)).length ≤ 1048512 ∧ (taskOf s 63).state ≠ 1 ∧ setCmd s 63 = none ∧ inHold s = true ∧
      (taskOf (talking id (fun s => { s with tasks := [(63, { state := 1 })] })) 63).state = 1) ∧
    (inDram (talking id (fun s => { s with tasks := [(63, { buf := 0x1000000000 })] })) 0x1000000000 (max ([] : List (BitVec 8)).length 1) = true) ∧
    ((0 : BitVec 4) ∉ [1, 2, 3] ∧ (3 : BitVec 4) ∈ [1, 2, 3] ∧ nVcs { s with varB := true } ≤ (2048 : BitVec 12).toNat) ∧
    (7 < (8 : BitVec 4).toNat ∧ (7 : BitVec 4).toNat ≤ 7) ∧
    (let t := talking id (fun s => { s with pwr := { records := [{ seq := 4 }] } })
     ((flushesInForce t).find? (fun f => f.seq = 5)).isNone ∧ ((flushesInForce t).find? (fun f => f.seq = 4)).isSome) ∧ (0x00FF : BitVec 16) ∉ tilostTypes := by
  refine ⟨by decide, by decide, ⟨rfl, nofun⟩, by decide, by decide, by decide, by decide, by decide, by decide, by decide, by decide⟩

/-- A request for mode 2 waits, made by the management, while no condition holds and no mode of the device's own ends. -/
theorem witness_TilostRequests_withdraws :
    let s := talking id (fun s => { s with reel := { s.reel with req := some { mode := 2 } } })
    (∀ k, conditionHolds s k = false) ∧ modeEnded s = false ∧ (∀ q, s.reel.req = some q → q.device = false) ∧
      ∀ q, s.reel.req = some q → q.tilost = none := by
  refine ⟨by decide, by decide, ?_, ?_⟩ <;> (intro q h; cases h; rfl)

/-! ## The image store -/

/-- Bytes from an offset of the receive area on. -/
def areaAt (o : Nat) (l : List (BitVec 8)) : SMap (BitVec 8) := l.zipIdx.map (fun p => (areaBase + o + p.2, p.1))

/-- The digest of a header of 256 bytes with no build identifier, which is r and s of its signature too. -/
def signedDigest : Nat := 0x243070576b994fc8a75c30f00f06c16c1904102b23fd896184321b168d99c4de737081476e958683c986f75278bb42b2

/-- 512 bytes received that spell a header and a signature block that slot 1's key verifies. -/
def received512 : State := talking id (fun s => { s with
  mem := areaAt 0 (leBytes 4 0x3948495A ++ [1]) ++ areaAt 9 [2] ++ areaAt 18 [1] ++ areaAt 21 [1] ++ areaAt 25 [1] ++
    areaAt 256 (leBytes 4 0x4749535A ++ [1]) ++ areaAt 264 (beBytes 48 signedDigest) ++ areaAt 312 (beBytes 48 signedDigest) ++
    areaAt 360 (beBytes 48 signedDigest)
  store := { ring := [(1, { present := true, x := 0x3726f0a15cad53bcf6e4b3cf47b6506b0bb2f5c7284490dfbf85cee9c04c2e384f8136b90c1fbec8e812fa15f82c72e0, y := 0xe34cf66095d1691eb5dcf120e009eb789f078e95b48146aafef7457ae9f6fbec2e5fb42d1c462cdf989e84975809bdba })] }
  mgmt := { s.mgmt with load := some 1, loadLen := 512, got := [(0, 512)] } })

theorem witness_ImageStore_loadEnd : stepTwo (areaByte received512) received512.mgmt.loadLen received512 = 0 := by decide +kernel

theorem witness_ImageStore_load :
    let s := talking
    let t := talking id (fun s => { s with mgmt := { s.mgmt with load := some 1, loadLen := 2 ^ 25 } })
    (s.mgmt.load = none ∧ s.store.loading = none ∧ t.mgmt.load = some 1 ∧ (talking id (fun s => { s with mgmt := { s.mgmt with load := some 2 } })).mgmt.load ≠ some 1) ∧
    (1048568 < (1048569 : Nat) ∧ t.mgmt.loadLen < (0x2000000 : BitVec 64).toNat + 1 ∧ (0x1000000 : BitVec 64).toNat + 1 ≤ t.mgmt.loadLen ∧
      2 ^ 24 < (0x1000000 : BitVec 64).toNat + 1 ∧ (0xFFFFFF : BitVec 64).toNat + 1 ≤ 2 ^ 24) ∧
    (((drcOf t 0).merge.map (·.unit)).Nodup ∧ mwf {} t.drcs = true ∧ t.poison = []) ∧
    stepTwo (areaByte t) t.mgmt.loadLen t ≠ 0 := by decide +kernel

theorem witness_ImageStore_activate :
    let s := talking id (fun s => { s with
      store := { bank1 := some { digest := 0xFFFFFFFFFFFFFFFF }, staged := some 1, verdict := some (0, 0) }, bac := { arr := sealBytes } })
    (activateBar s = 0 ∧ s.store.verdict = some (0, s.store.inv) ∧ s.tables.cmds = [] ∧ s.tasks = [] ∧ s.store.loading = none ∧ s.store.act = .none) ∧
    activateBar (talking) ≠ 0 ∧ ({ s.store with verdict := none } : Store).verdict ≠ some (0, s.store.inv) ∧ ({ s.store with act := .accepted } : Store).act ≠ .none ∧
    (let im : Image := { secver := 5 }; im.secver.toNat < (6 : BitVec 16).toNat ∧ (5 : BitVec 16).toNat ≤ im.secver.toNat) := by decide

/-- A ring whose slot 2 holds the key of the signature below. -/
def ringed : State := talking id (fun s => { s with store := { ring := [(2, { present := true, x := 0xb42062144550e6f1c1eab261bc2f03156627cfba964fb8b26e2ec1644432b6873cf698069cf8aabcd7ebc2754650b412, y := 0xced6ff89af867f08cc08fa4c6a369dc0e2ee4f55350a07a3820e84657604c645d002b3907e62a6a02e4847ea6bb59fbc })] } })

theorem witness_ImageStore_ring :
    let d : Nat := 0xdb475240477c5e4497a2c5724ca485f5b1f2c2fc0602b92bae234238ec8d4e873a7148c739593e95a7f4dfe7c6e69f69
    (ringHolds ringed 2 = true ∧ ringHolds ringed 1 = false) ∧ ecdsaVerify (ringKey ringed 2) (sha384 [2]) d d = true ∧
    ecdsaVerify (ringKey ringed 2) (sha384 [2]) 0 0 = false ∧ ((0 : BitVec 3) = 0 ∧ 4 < (5 : BitVec 3).toNat ∧ (4 : BitVec 3).toNat ≤ 4 ∧ (4 : BitVec 3) ≠ 2) ∧
    ((mget {} ringed.store.ring 4).revoked = false ∧ (mget {} ({ ring := [(4, { revoked := true })] } : Store).ring 4).revoked = true) ∧
    ((7 : BitVec 384) ∉ ringed.store.hashes ∧ ringed.store.hashes.length < 8 ∧ 8 ≤ (List.replicate 8 (1 : BitVec 384)).length) := by decide +kernel

/-- No two of a list's occurrences share a resource and a cycle of the hank. -/
abbrev Apart (a b : Held) : Prop := (sameRes a b && shareCycle hankCycles a b) = false

theorem clashFail_none (d : Deck) (h : periodCycles d = hankCycles) : ∀ l : List Held, l.Pairwise Apart → clashFail d l = none := by
  intro l p
  induction p with
  | nil => rfl
  | @cons a l q _ ih =>
    have n : l.find? (fun b => sameRes a b && shareCycle (periodCycles d) a b) = none := by
      rw [List.find?_eq_none]; intro x m; rw [h]; simp [q x m]
    simp only [clashFail, n, ih]

theorem pairwise_replicas {R : Held → Held → Prop} (f : Nat × Nat → Held) (e : SlotEntry)
    (inner : ∀ o i i', o < e.ocount → i < i' → i' < e.icount → R (f (i, o)) (f (i', o)))
    (outer : ∀ o o' i i', o < o' → o' < e.ocount → i < e.icount → i' < e.icount → R (f (i, o)) (f (i', o'))) :
    ((replicas e).map f).Pairwise R := by
  rw [List.pairwise_map, replicas, List.pairwise_flatten]
  constructor
  · intro l m
    obtain ⟨o, ho, rfl⟩ := List.mem_map.1 m
    rw [List.pairwise_map]
    refine List.Pairwise.imp_of_mem ?_ List.pairwise_lt_range
    intro a b _ hb lt
    exact inner o a b (List.mem_range.1 ho) lt (List.mem_range.1 hb)
  · rw [List.pairwise_map]
    refine List.Pairwise.imp_of_mem ?_ List.pairwise_lt_range
    intro o o' _ ho' lt x hx y hy
    obtain ⟨i, hi, rfl⟩ := List.mem_map.1 hx
    obtain ⟨i', hi', rfl⟩ := List.mem_map.1 hy
    exact outer o o' i i' lt (List.mem_range.1 ho') (List.mem_range.1 hi) (List.mem_range.1 hi')

theorem mem_replicas {e : SlotEntry} {p : Nat × Nat} (h : p ∈ replicas e) : p.1 < e.icount ∧ p.2 < e.ocount := by
  simp only [replicas, List.mem_flatten, List.mem_map, List.mem_range] at h
  obtain ⟨_, ⟨o, ho, rfl⟩, h⟩ := h
  obtain ⟨i, hi, rfl⟩ := List.mem_map.1 h
  exact ⟨List.mem_range.1 hi, ho⟩

/-- The occurrences of entry `k` in a period of one hank. -/
def heldOf (x : SlotEntry × Nat) : List Held :=
  (replicas x.1).map (fun r => { entry := x.2, slot := x.1, i := r.1, o := r.2, at_ := slotBegin x.1 r.1 r.2 })

theorem occurrences_hold (s : State) : occurrences (holdDeck s) = ((holdDeck s).slots.zipIdx.map heldOf).flatten := by
  unfold occurrences
  congr 1
  refine List.map_congr_left ?_
  intro x m
  have h : x.1.phases = 1 := by
    have := List.fst_mem_of_mem_zipIdx m
    simp only [holdDeck, reservedSlots, List.cons_append, List.nil_append, List.mem_cons, List.not_mem_nil, or_false] at this
    rcases this with h | h | h | h | h | h <;> rw [h]
  have ph : phasesOf (holdDeck s) x.1 = [0] := by
    unfold phasesOf; rw [h]; show (List.range 1).filter (fun p => bit (1 : BitVec 8) p) = [0]; decide
  simp only [entryHeld, ph, heldOf, List.map_cons, List.map_nil, List.flatten_cons, List.flatten_nil, List.append_nil, Nat.zero_mul, Nat.zero_add]

/-- What the replicas of two entries need so as never to meet. -/
theorem apart_of {a b : Held} (h : ¬ (sameRes a b = true ∧ shareCycle hankCycles a b = true)) : Apart a b := by
  simpa [Apart, Bool.and_eq_false_iff, imp_iff_not_or] using h

/-- Two entries of the Hold deck never meet, nor two replicas of one (R49, R203). -/
theorem holdDeck_apart (s : State) : clashFail (holdDeck s) (occurrences (holdDeck s)) = none := by
  refine clashFail_none _ (by simp [periodCycles, holdDeck, periodHanks]) _ ?_
  rw [occurrences_hold, List.pairwise_flatten]
  constructor
  · intro l m
    obtain ⟨x, hx, rfl⟩ := List.mem_map.1 m
    have hx := List.fst_mem_of_mem_zipIdx hx
    obtain ⟨e, k⟩ := x
    simp only [holdDeck, reservedSlots, List.cons_append, List.nil_append, List.mem_cons, List.not_mem_nil, or_false] at hx
    rcases hx with rfl | rfl | rfl | rfl | rfl | rfl <;> refine pairwise_replicas _ _ ?_ ?_ <;> intros <;> refine apart_of ?_ <;>
      simp [sameRes, shareCycle, heldRes, slotRes, slotBegin, hankCycles] at * <;> omega
  · rw [List.pairwise_map]
    simp only [holdDeck, reservedSlots, List.cons_append, List.nil_append, List.zipIdx_cons, List.zipIdx_nil, List.pairwise_cons, List.mem_cons,
      List.not_mem_nil, or_false, forall_eq_or_imp, forall_eq, false_imp_iff, implies_true, List.Pairwise.nil, and_true]
    refine ⟨⟨?_, ?_, ?_, ?_, ?_⟩, ⟨?_, ?_, ?_, ?_⟩, ⟨?_, ?_, ?_⟩, ⟨?_, ?_⟩, ?_⟩ <;> intro a ha b hb <;> refine apart_of ?_ <;>
      obtain ⟨r, hr, rfl⟩ := List.mem_map.1 ha <;> obtain ⟨q, hq, rfl⟩ := List.mem_map.1 hb <;>
      have hr := mem_replicas hr <;> have hq := mem_replicas hq <;>
      simp [sameRes, shareCycle, heldRes, slotRes, slotBegin, hankCycles] at * <;> omega

/-- An image for the B variant with no decks and no code, the ports that the variant lacks disabled. -/
def bare : Image := { variant := 1, ports := [(4, 3), (5, 3), (6, 3), (7, 3)] }

/-- A device of the B variant whose loaded image of no decks and no code waits for its verdict, and 96 received bytes with their digest. -/
def judging (purpose : Nat) (im : Image := bare) : State :=
  { varB := true, mem := areaAt 24 [0x20] ++ areaAt 40 (beBytes 48 0x50992e7b4b2855db25ec382d2bddb877e42f2e599a7caa8b7f610cfc410fa980d868f74b364bea8adfd0de055197aae0),
    store := { loading := some im, loadBank := 1, purpose := purpose, bank1 := some { digest := 0xFFFFFFFFFFFFFFFF }, staged := some 1 },
    bac := { arr := sealBytes }, mgmt := { load := some 1, loadLen := 96, got := [(0, 96)] } }

theorem hold_exclusive (s : State) (im : Image) (h : im.decks = []) : exclusiveFail s im = none := by
  have f : inFlightFail s im (holdDeck s) = none := if_pos rfl
  simp only [exclusiveFail, checkedDecks, h, List.findSome?_cons, List.findSome?_nil, holdDeck_apart, f, Option.or]

theorem hold_slotForm : slotFormFail (judging 0) bare = none := by decide +kernel

theorem hold_reserved : reservedFail (judging 0) bare = none := by decide +kernel

theorem witness_ImageStore_passes : verdictCode (checkVerdict (judging 0) bare) = 0 := by
  unfold checkVerdict
  rw [hold_exclusive _ _ rfl, hold_slotForm, hold_reserved]
  decide +kernel

/-- The verdict does not depend on what waits for it. -/
theorem witness_ImageStore_purposes (p : Nat) : checkVerdict (judging p) bare = checkVerdict (judging 0) bare := rfl

theorem witness_ImageStore_verdicts :
    let bad : Image := { form := some { verdict := 1 } }
    verdictCode (checkVerdict (judging 0) bad) ≠ 0 ∧ (∀ p ∈ [0, 1, 2], (judging p).store.purpose = p) ∧
    ((judging 0).tables.cmds = [] ∧ (judging 0).tasks = [] ∧ State.reset.store.loading = none) ∧
    (activateBar (judging 1) = 0 ∧ activateBar { judging 1 with fcr := { grave := true } } ≠ 0) ∧
    (let s := judging 0
     readsBack (programBank 1 bare 96 ((List.range 96).map (areaByte s)) (eraseBank 1 s)) 1 96 = true) := by decide +kernel

/-! ## The span -/

/-- Member 2 of a span of three, in the span and not fenced, changed as given. -/
def spanned (f : Span → Span := id) : State :=
  { reel := { run := true, deck := 1, hanks := 16 },
    span := f { cfgId := 7, epoch := 4, member := 2, count := 2, enable := true, state := 2, inForce := some { spanId := 7, epoch := 4, count := 3 } } }

theorem witness_SpanMember_records :
    let s := spanned
    ((11 : BitVec 32).toNat < 12 ∧ 12 ≤ (12 : BitVec 32).toNat) ∧
    (let r : SpanRec := { spanId := 7, epoch := 5, count := 16 }
     r.spanId ≠ 0 ∧ 1 ≤ r.count ∧ r.count ≤ 16 ∧ s.span.epoch < r.epoch ∧ s.span.inForce ≠ none ∧ ({ r with epoch := 4 } : SpanRec).epoch ≤ s.span.epoch ∧
       16 < ({ r with count := 17 } : SpanRec).count ∧ ({ r with count := 0 } : SpanRec).count < 1) ∧
    (let t := fun (im : Option Image) => { spanned (fun p => { p with switches := [(3, 9)], ownOk := true }) with store := { running := im } }
     (t none).span.switches = [(3, 9)] ∧ (t none).span.state = 2 ∧ modeVerdict (t none) 3 ≠ 1 ∧
       modeVerdict (t (some { decks := [{ mode := 3 }], matrix := [(1, 8)] })) 3 = 1) ∧
    (inSpan s = true ∧ s.reel.hanks.toNat % 16 = 0 ∧ s.span.beatHank ≠ some s.reel.hanks ∧ inSpan State.reset = false) ∧
    ((spanned (fun p => { p with badQ := 3 })).span.badQ = 3 ∧ ({ member := 2, spanId := 8 } : Beat).member = s.span.member ∧
      ({ member := 1, spanId := 7 } : Beat).spanId = s.span.cfgId ∧ s.span.state ≠ 3 ∧ ({ member := 1 } : Beat).member ≠ s.span.member ∧ s.span.acked = none) := by
  decide

theorem witness_SpanMember_rest :
    let f := fun (q own : Bool) (v : BitVec 64) => spanned (fun p => { p with state := 3, qOk := q, ownOk := own, dirv := 5, agree := 2, peers := [(1, { dirv := v })] })
    ((f true true 5).span.state = 3 ∧ (f true true 5).span.dirv = topVersion (f true true 5) ∧ (f true true 6).span.dirv ≠ topVersion (f true true 6)) ∧
    ((500 : BitVec 32).toInt.natAbs ≤ 500 ∧ 500 < (501 : BitVec 32).toInt.natAbs ∧ (-1000 : BitVec 32).toInt.natAbs ≤ 1000 ∧ 1000 < (-1001 : BitVec 32).toInt.natAbs) ∧
    (let d := spanned (fun p => { p with lock := true, inForce := some { driver := 2 } })
     syncDriver d = true ∧ d.span.lock = true ∧ fenced d = false ∧ syncDriver (spanned) = false) ∧
    (20 ≤ (20 : BitVec 32).toNat ∧ (2000 : BitVec 32).toInt.natAbs ≤ 2000 ∧ 2000 < (2001 : BitVec 32).toInt.natAbs) ∧
    (({ ver := 1 } : DirEnt).ver ≤ (f true true 5).span.dirv ∧ (spanned).span.dirv < ({ ver := 1 } : DirEnt).ver ∧ (spanned).span.prop = none) ∧
    (let q : Proposal := { nsid := 1, ent := { state := 1 }, votes := [2], set_ := some 3 }
     let s := spanned (fun p => { p with prop := some q })
     let wide := spanned (fun p => { p with prop := some q, count := 4 })
     s.span.prop = some q ∧ fenced s = false ∧ (1 : BitVec 4).toNat ∉ q.votes ∧ (1 : BitVec 4) ≠ s.span.member ∧ (1 : BitVec 4).toNat ≤ s.span.count.toNat ∧
       s.span.count.toNat + 1 < 2 * (q.votes.length + 1) ∧ 2 * (q.votes.length + 1) ≤ wide.span.count.toNat + 1 ∧ q.create = none ∧ q.ent.state ≠ 0 ∧
       (setCmd { s with tables := { cmds := [{ internal := true, cid := 3 }] } } 3).isSome = true) := by decide

end Sys2Proof.Tests
end

/-! # SUPPORT. Control registers (R11 to R13, R84 to R86, R206, R208, R577)

First the rules of the register bus: where an address decodes, what a read and a write command
answer there, and what a read leaves alone. Then one law for the transport engine under a fault, and the registers that the statement names. -/

namespace Sys2Proof.Machine

/-! ## Which offsets are ordinary

An ordinary offset decodes on both variants, is aligned, latches no high word, and neither its read nor its write has an effect of another
block (INTC_CLAIM, the NET, CIPH, VCT and SPAN reads, DMA_CTL). -/

/-- An offset below the NET windows that decodes on both variants, whose read is free of effects and whose write starts no DMA channel. -/
def ordinary (o : Nat) : Bool :=
  inSpans controlSpans o && !inSpans absentSpans o && decide (o % 4 = 0) && !isLow o &&
    (decide (o < 0x32000) || decide (0x41000 ≤ o) && decide (o < 0x400000))

theorem placeOf_of_inSpans (s : State) {o : Nat} (h : inSpans controlSpans o = true) (ha : inSpans absentSpans o = false) :
    placeOf s (ctlBase + o) = .control := by
  have hbound : o ≤ 0x230FFFF := by
    simp only [inSpans, controlSpans, List.any_cons, List.any_nil, Bool.or_false, Bool.or_eq_true, decide_eq_true_eq] at h
    omega
  have h1 : ¬ ctlBase + o < 0x4000000 := by unfold ctlBase; omega
  have h2 : ¬ (0x10000000 ≤ ctlBase + o ∧ ctlBase + o < 0x10800000) := by unfold ctlBase; omega
  have h3 : ctlBase ≤ ctlBase + o ∧ ctlBase + o ≤ 0x10230FFFF := by unfold ctlBase; omega
  rw [placeOf, if_neg h1, if_neg h2, if_pos h3, Nat.add_sub_cancel_left]
  simp [h, ha]

theorem ordinary_placeOf (s : State) {o : Nat} (h : ordinary o = true) : placeOf s (ctlBase + o) = .control := by
  simp only [ordinary, Bool.and_eq_true, Bool.not_eq_true'] at h
  obtain ⟨⟨⟨⟨hmap, habs⟩, -⟩, -⟩, -⟩ := h
  exact placeOf_of_inSpans s hmap habs

theorem ordinary_aligned {o : Nat} (h : ordinary o = true) : (ctlBase + o) % 4 = 0 := by
  simp only [ordinary, Bool.and_eq_true, decide_eq_true_eq] at h
  obtain ⟨⟨⟨-, hal⟩, -⟩, -⟩ := h
  unfold ctlBase
  omega

/-! ## What the commands answer -/

theorem ctlRead_control {s : State} {a : Nat} (h : placeOf s a = .control) (h4 : a % 4 = 0) :
    ctlRead a s = some (regRead (a - ctlBase) s) := by
  simp [ctlRead, h, h4]

theorem ctlWrite_control {s : State} {a : Nat} (v : BitVec 32) (h : placeOf s a = .control) (h4 : a % 4 = 0) :
    ctlWrite a v s = some (regWrite (a - ctlBase) v s) := by
  simp [ctlWrite, h, h4]

/-- R11, R29: outside control space, or off its alignment, a read is a bus fault. -/
theorem ctlRead_busFault {s : State} {a : Nat} (h : placeOf s a ≠ .control ∨ a % 4 ≠ 0) : ctlRead a s = none := by
  unfold ctlRead
  split
  · next hp => simp_all
  · rfl

/-- R11, R29: so is a write. -/
theorem ctlWrite_busFault {s : State} {a : Nat} (v : BitVec 32) (h : placeOf s a ≠ .control ∨ a % 4 ≠ 0) : ctlWrite a v s = none := by
  unfold ctlWrite
  split
  · next hp => simp_all
  · rfl

theorem exec_controlRegisterRead (a : BitVec 40) (s : State) :
    exec (.controlRegisterRead a) s = .next (answerRead (ctlRead a.toNat s) s) := rfl

/-- R206: a write comes after a commit that is due. -/
theorem exec_controlRegisterWrite (a : BitVec 40) (v : BitVec 32) (s : State) :
    exec (.controlRegisterWrite a v) s = .next (answerWrite (ctlWrite a.toNat v (settle s)) (settle s)) := rfl

theorem exec_controlRegisterWrite_idle (a : BitVec 40) (v : BitVec 32) {s : State} (h : s.reel.commitDue = false) :
    exec (.controlRegisterWrite a v) s = .next (answerWrite (ctlWrite a.toNat v s) s) := by
  rw [exec_controlRegisterWrite, settle_idle s h]

/-- R86: the latch command reads where a low word stands, and leaves the state elsewhere. -/
theorem exec_highWordLatch (a : BitVec 40) (s : State) :
    exec (.highWordLatch a) s =
      .next (if placeOf s a.toNat = .control ∧ isLow (a.toNat - ctlBase) = true then answerRead (ctlRead a.toNat s) s else s) := by
  change execHighWordLatch a s = _
  unfold execHighWordLatch
  by_cases h : placeOf s a.toNat = .control ∧ isLow (a.toNat - ctlBase) = true
  · rw [if_pos h, if_pos (by simpa using h)]
  · rw [if_neg h, if_neg (by simpa using h)]

@[simp] theorem answerWrite_bus_data (r : Option State) (s : State) : (answerWrite r s).bus.data = 0 := by
  cases r <;> rfl

/-! ## What a read leaves alone -/

/-- A state with the parts cleared that a read of control space may change: the bus's answer, the latches, and the blocks with a field
that a read clears (R267, R268, R460, R523, R611). -/
def beyondRead (s : State) : State :=
  { s with bus := {}, latch := [], intc := {}, ports := [], ciph := {}, vct := {}, span := {} }

@[simp] theorem beyondRead_ite (c : Prop) [Decidable c] (s t : State) :
    beyondRead (if c then s else t) = if c then beyondRead s else beyondRead t := by
  split <;> rfl

@[simp] theorem beyondRead_latchWord (o : Nat) (s : State) : beyondRead (latchWord o s) = beyondRead s := rfl
@[simp] theorem beyondRead_modPort (p : Nat) (f : Port → Port) (s : State) : beyondRead (modPort p f s) = beyondRead s := rfl
@[simp] theorem beyondRead_modCiph (f : Ciph → Ciph) (s : State) : beyondRead (modCiph f s) = beyondRead s := rfl
@[simp] theorem beyondRead_modVct (f : Vct → Vct) (s : State) : beyondRead (modVct f s) = beyondRead s := rfl
@[simp] theorem beyondRead_modSpan (f : Span → Span) (s : State) : beyondRead (modSpan f s) = beyondRead s := rfl

@[simp] theorem beyondRead_claim (t : Nat) (s : State) : beyondRead (claim t s).2 = beyondRead s := by
  unfold claim
  split
  · rfl
  · dsimp only
    split <;> rfl

@[simp] theorem beyondRead_latchFor (o : Nat) (s : State) : beyondRead (latchFor o s) = beyondRead s := by
  simp only [latchFor, beyondRead_ite, beyondRead_latchWord, ite_self]

@[simp] theorem beyondRead_netReadEffect (o : Nat) (s : State) : beyondRead (netReadEffect o s) = beyondRead s := by
  simp only [netReadEffect, beyondRead_ite, beyondRead_modPort, ite_self]

@[simp] theorem beyondRead_readEffect (o : Nat) (s : State) : beyondRead (readEffect o s) = beyondRead s := by
  simp only [readEffect, beyondRead_ite, beyondRead_claim, beyondRead_netReadEffect, beyondRead_modCiph, beyondRead_modVct,
    beyondRead_modSpan, ite_self]

@[simp] theorem beyondRead_regRead (o : Nat) (s : State) : beyondRead (regRead o s).2 = beyondRead s := by
  unfold regRead
  split
  · rfl
  · simp

theorem beyondRead_answerRead (a : Nat) (s : State) : beyondRead (answerRead (ctlRead a s) s) = beyondRead s := by
  by_cases h : placeOf s a = .control ∧ a % 4 = 0
  · rw [ctlRead_control h.1 h.2]
    exact beyondRead_regRead _ s
  · rw [ctlRead_busFault (by tauto)]
    rfl

/-- States alike beyond a read are alike in the sequencer and in memory. -/
theorem reel_mem_of_beyondRead {s t : State} (h : beyondRead s = beyondRead t) : s.reel = t.reel ∧ s.mem = t.mem :=
  ⟨(congrArg State.reel h : (beyondRead s).reel = _), (congrArg State.mem h : (beyondRead s).mem = _)⟩

/-- The latch command touches neither the sequencer nor memory. -/
theorem highWordLatch_frame (a : BitVec 40) (s : State) :
    ∃ t, exec (.highWordLatch a) s = .next t ∧ t.reel = s.reel ∧ t.mem = s.mem := by
  refine ⟨_, exec_highWordLatch a s, ?_⟩
  split
  · exact reel_mem_of_beyondRead (beyondRead_answerRead a.toNat s)
  · exact ⟨rfl, rfl⟩

/-! ## Reads and writes of ordinary registers -/

theorem latchFor_plain {o : Nat} (s : State) (hl : isLow o = false) (ht : isTxts o = false) : latchFor o s = s := by
  simp [latchFor, hl, ht]

theorem readEffect_plain {o : Nat} (s : State) (h : o < 0x32000 ∨ 0x41000 ≤ o ∧ o < 0x400000) : readEffect o s = s := by
  have h1 : ¬ (0x32000 ≤ o ∧ o < 0x32200) := by omega
  have h2 : ¬ (0x400000 ≤ o ∧ o < 0x480000) := by omega
  have h3 : o ≠ 0x2000004 ∧ o ≠ 0x2000010 ∧ o ≠ 0x2100014 ∧ o ≠ 0x2200008 ∧ o ≠ 0x220000C ∧ o ≠ 0x2200024 := by omega
  simp [readEffect, h1, h2, h3]

theorem regRead_latched {o : Nat} {s : State} {v : BitVec 32} (h : mget none s.latch (ctlBase + o) = some v) :
    regRead o s = (v, { s with latch := mset none (ctlBase + o) none s.latch }) := by
  simp [regRead, h]

theorem regRead_unlatched {o : Nat} {s : State} (h : mget none s.latch (ctlBase + o) = none) :
    regRead o s = (regWord o s, readEffect o (latchFor o s)) := by
  simp [regRead, h]

/-- A read of an ordinary register with no latched word answers the register and changes nothing but the bus. -/
theorem exec_read_ordinary {o : Nat} {a : BitVec 40} {s : State} (ho : ordinary o = true) (ha : a.toNat = ctlBase + o)
    (hl : mget none s.latch a.toNat = none) :
    exec (.controlRegisterRead a) s = .next { s with bus := { data := regWord o s, fault := false } } := by
  have hplace := ordinary_placeOf s ho
  have hal := ordinary_aligned ho
  simp only [ordinary, Bool.and_eq_true, Bool.or_eq_true, Bool.not_eq_true', decide_eq_true_eq] at ho
  obtain ⟨⟨-, hlow⟩, hrange⟩ := ho
  have htx : isTxts o = false := by simp [isTxts]; omega
  rw [ha] at hl
  rw [exec_controlRegisterRead, ha, ctlRead_control hplace hal, Nat.add_sub_cancel_left, regRead_unlatched hl,
    latchFor_plain s hlow htx, readEffect_plain s hrange]
  rfl

/-- A write of a register that is not DMA_CTL, with no commit due, has the register's effect and is acknowledged. -/
theorem exec_write_register {o : Nat} {a : BitVec 40} {s : State} (v : BitVec 32) (hp : placeOf s (ctlBase + o) = .control)
    (h4 : o % 4 = 0) (hd : startsChannel o = none) (ha : a.toNat = ctlBase + o) (hdue : s.reel.commitDue = false) :
    exec (.controlRegisterWrite a v) s = .next { regWrite0 o v s with bus := { data := 0, fault := false } } := by
  have hal : (ctlBase + o) % 4 = 0 := by unfold ctlBase; omega
  rw [exec_controlRegisterWrite_idle a v hdue, ha, ctlWrite_control v hp hal, Nat.add_sub_cancel_left, regWrite, hd]
  rfl

/-- A write of an ordinary register. -/
theorem exec_write_ordinary {o : Nat} {a : BitVec 40} {s : State} (v : BitVec 32) (ho : ordinary o = true)
    (ha : a.toNat = ctlBase + o) (hdue : s.reel.commitDue = false) :
    exec (.controlRegisterWrite a v) s = .next { regWrite0 o v s with bus := { data := 0, fault := false } } := by
  have hal := ordinary_aligned ho
  have hrange := ho
  simp only [ordinary, Bool.and_eq_true, Bool.or_eq_true, decide_eq_true_eq] at hrange
  obtain ⟨-, hrange⟩ := hrange
  refine exec_write_register v (ordinary_placeOf s ho) (by unfold ctlBase at hal; omega) ?_ ha hdue
  exact if_neg (by omega)

/-! ## Fields of a register word -/

theorem wf_or (x y : BitVec 32) (lo w : Nat) : wf (x ||| y) lo w = wf x lo w ||| wf y lo w := by
  refine BitVec.eq_of_getLsbD_eq fun i hi => ?_
  simp [wf, hi]

/-- A field that lies where it is looked for reads back whole. -/
theorem wf_fld_same {w : Nat} (x : BitVec w) {lo : Nat} (h : lo + w ≤ 32) : wf (fld x lo) lo w = x := by
  refine BitVec.eq_of_getLsbD_eq fun i hi => ?_
  have h1 : lo + i < 32 := by omega
  have h2 : i < 32 := by omega
  simp [wf, fld, hi, h1, h2]

/-- A field above the one looked for shows nothing there. -/
theorem wf_fld_above {w w' lo lo' : Nat} (x : BitVec w) (h : lo' + w' ≤ lo) : wf (fld x lo) lo' w' = 0 := by
  refine BitVec.eq_of_getLsbD_eq fun i hi => ?_
  have h1 : lo' + i < lo := by omega
  simp [wf, fld, h1]

/-- Nor does one below it. -/
theorem wf_fld_below {w w' lo lo' : Nat} (x : BitVec w) (h : lo + w ≤ lo') : wf (fld x lo) lo' w' = 0 := by
  refine BitVec.eq_of_getLsbD_eq fun i hi => ?_
  have h1 : x.getLsbD (lo' + i - lo) = false := BitVec.getLsbD_of_ge x _ (by omega)
  simp [wf, fld, h1]

/-- Nor does a number too small to reach it. -/
theorem wf_w32_below {w n lo : Nat} (h : n < 2 ^ lo) : wf (w32 n) lo w = 0 := by
  refine BitVec.eq_of_getLsbD_eq fun i hi => ?_
  have h1 : n.testBit (lo + i) = false := Nat.testBit_lt_two_pow (lt_of_lt_of_le h (Nat.pow_le_pow_right (by omega) (by omega)))
  simp [wf, w32, BitVec.getLsbD_ofNat, h1]

theorem wf_zero {w : Nat} (v : BitVec 32) : wf v 0 w = v.setWidth w := by simp [wf]

theorem bfld_eq_fld (b : Bool) (lo : Nat) : bfld b lo = fld (BitVec.ofBool b) lo := by
  cases b
  · simp [bfld, fld]
  · simp [bfld, fld]

theorem bit_eq_wf (x : BitVec 32) (n : Nat) : bit x n = (wf x n 1).getLsbD 0 := by
  simp [bit, wf]

/-! ## The registers of the statement: reads -/

/-- REEL_STAT shows the deck, the pending deck, RUN, the period and the phase (R84). -/
theorem reelStat_fields (s : State) :
    wf (reelStat s) 8 4 = s.reel.deck ∧ wf (reelStat s) 12 4 = pendDeck s ∧ bit (reelStat s) 16 = s.reel.run ∧
      wf (reelStat s) 19 2 = s.reel.period ∧ wf (reelStat s) 21 3 = s.reel.phase := by
  simp (disch := omega) [reelStat, bit_eq_wf, bfld_eq_fld, wf_or, wf_fld_same, wf_fld_above, wf_fld_below]

/-- FCR_STAT shows Grave, an open reaction, FAULT_N and the highest class held, above a count of groups that has seven bits (R577). -/
theorem fcrStat_fields (s : State) (h : activeGroups s ≤ 64) :
    bit (fcrStat s) 31 = s.fcr.grave ∧ bit (fcrStat s) 30 = s.fcr.reactOpen ∧ bit (fcrStat s) 26 = faultN s ∧
      wf (fcrStat s) 27 3 = highClass s := by
  simp (disch := omega) [fcrStat, bit_eq_wf, bfld_eq_fld, wf_or, wf_fld_same, wf_fld_above, wf_fld_below, wf_w32_below]

/-- REEL_POS shows the turn above the cycle (R85). -/
theorem regWord_reelPos (s : State) : regWord 0x100004 s = s.reel.turn.setWidth 32 <<< 16 ||| s.reel.cycle.setWidth 32 := by
  change fld s.reel.turn 16 ||| fld s.reel.cycle 0 = _
  simp [fld]

/-- REEL_HANKS_HI shows the high half of the hank count. -/
theorem regWord_hanksHi (s : State) : regWord 0x10000C s = hi32 s.reel.hanks := rfl

/-- R86: a read of REEL_HANKS_LO answers the low word and latches the high one; the next read of REEL_HANKS_HI, from whatever state with
those latches, answers it and uses it up. -/
theorem hanks_latched (s : State) (hl : mget none s.latch (0x100000000 + 0x100008 : BitVec 40).toNat = none) :
    ∃ t, exec (.highWordLatch (0x100000000 + 0x100008)) s = .next t ∧ t.bus.data = s.reel.hanks.setWidth 32 ∧ t.reel = s.reel ∧
      ∀ u : State, u.latch = t.latch → ∃ w, exec (.controlRegisterRead (0x100000000 + 0x10000C)) u = .next w ∧
        w.bus.data = (s.reel.hanks >>> 32).setWidth 32 ∧ mget none w.latch (0x100000000 + 0x10000C : BitVec 40).toNat = none := by
  have hplace : ∀ u : State, placeOf u (ctlBase + 0x100008) = .control ∧ placeOf u (ctlBase + 0x10000C) = .control := fun u =>
    ⟨placeOf_of_inSpans u (by decide) (by decide), placeOf_of_inSpans u (by decide) (by decide)⟩
  have hlo : (0x100000000 + 0x100008 : BitVec 40).toNat = ctlBase + 0x100008 := by decide
  have hhi : (0x100000000 + 0x10000C : BitVec 40).toNat = ctlBase + 0x10000C := by decide
  have hread : regRead 0x100008 s = (lo32 s.reel.hanks, latchWord 0x10000C s) := regRead_unlatched (by rwa [← hlo])
  have hlatch : mget none (latchWord 0x10000C s).latch (ctlBase + 0x10000C) = some (hi32 s.reel.hanks) := by
    simp [latchWord, regWord_hanksHi]
  refine ⟨{ latchWord 0x10000C s with bus := { data := lo32 s.reel.hanks, fault := false } }, ?_, rfl, rfl, ?_⟩
  · rw [exec_highWordLatch, hlo, if_pos ⟨(hplace s).1, by decide⟩, ctlRead_control (hplace s).1 (by decide), Nat.add_sub_cancel_left, hread]
    rfl
  · intro u hu
    have hu' : mget none u.latch (ctlBase + 0x10000C) = some (hi32 s.reel.hanks) := by rw [hu]; exact hlatch
    refine ⟨_, exec_controlRegisterRead _ u, ?_⟩
    rw [hhi, ctlRead_control (hplace u).2 (by decide), Nat.add_sub_cancel_left, regRead_latched hu']
    exact ⟨rfl, by simp [answerRead]⟩

/-! ## What a fault leaves of the transport engine

`quiet` clears the whole engine; a fault changes TAKES alone (R565, R626). -/

/-- The transport engine without TAKES. -/
def xptRest (s : State) : Xpt := { s.xpt with takes := false }

@[simp] theorem xptRest_ite (c : Prop) [Decidable c] (s t : State) : xptRest (if c then s else t) = if c then xptRest s else xptRest t := by
  split <;> rfl

section xptRest_mods
variable (s : State)
@[simp] theorem xptRest_modReel (f : Reel → Reel) : xptRest (modReel f s) = xptRest s := rfl
@[simp] theorem xptRest_modFcr (f : Fcr → Fcr) : xptRest (modFcr f s) = xptRest s := rfl
@[simp] theorem xptRest_modBac (f : Bac → Bac) : xptRest (modBac f s) = xptRest s := rfl
@[simp] theorem xptRest_modPwr (f : Pwr → Pwr) : xptRest (modPwr f s) = xptRest s := rfl
@[simp] theorem xptRest_modStore (f : Store → Store) : xptRest (modStore f s) = xptRest s := rfl
@[simp] theorem xptRest_modSys (f : Sys → Sys) : xptRest (modSys f s) = xptRest s := rfl
@[simp] theorem xptRest_modGroup (g : Nat) (f : FcrGroup → FcrGroup) : xptRest (modGroup g f s) = xptRest s := rfl
@[simp] theorem xptRest_modSess (g : Nat) (f : Session → Session) : xptRest (modSess g f s) = xptRest s := rfl
@[simp] theorem xptRest_stopTaking : xptRest (modXpt (fun u => { u with takes := false }) s) = xptRest s := rfl
@[simp] theorem xptRest_event (code : BitVec 16) (ws : List (BitVec 32)) : xptRest (event code ws s) = xptRest s := rfl
@[simp] theorem xptRest_eventC (code : BitVec 16) (c : Nat) (ws : List (BitVec 32)) : xptRest (eventC code c ws s) = xptRest s := rfl
@[simp] theorem xptRest_tilostSend (m : TMsg) : xptRest (tilostSend m s) = xptRest s := rfl
@[simp] theorem xptRest_bacLine (sec wl : Nat) (bs : List (BitVec 8)) : xptRest (bacLine sec wl bs s) = xptRest s := rfl
@[simp] theorem xptRest_openFlush (t : BitVec 4) (n : Nat) : xptRest (openFlush t n s) = xptRest s := rfl
end xptRest_mods

theorem xptRest_foldl {β : Type} (f : State → β → State) (h : ∀ s b, xptRest (f s b) = xptRest s) (l : List β) (s : State) :
    xptRest (l.foldl f s) = xptRest s := by
  induction l generalizing s with
  | nil => rfl
  | cons b l ih => rw [List.foldl_cons, ih, h]

@[simp] theorem xptRest_bacSpoil (off n : Nat) (s : State) : xptRest (bacSpoil off n s) = xptRest s := by
  induction n generalizing off s with
  | zero => rfl
  | succ n ih => simp only [bacSpoil]; rw [ih]; rfl

@[simp] theorem xptRest_bacAbandon (s : State) : xptRest (bacAbandon s) = xptRest s := by
  unfold bacAbandon
  split
  · rfl
  · simp [xptRest_foldl _ (fun s r => xptRest_bacSpoil _ _ s)]

@[simp] theorem xptRest_writeRecord (k a b c d : Nat) (s : State) : xptRest (writeRecord k a b c d s) = xptRest s := by
  simp only [writeRecord, putRecord, xptRest_ite, xptRest_event, xptRest_modStore, xptRest_bacLine, xptRest_bacAbandon, ite_self]

@[simp] theorem xptRest_tilostAnswer (k : Nat) (t : BitVec 16) (i : BitVec 32) (st : BitVec 16) (p : List (BitVec 32)) (s : State) :
    xptRest (tilostAnswer k t i st p s) = xptRest s := by
  simp only [tilostAnswer, xptRest_ite, xptRest_foldl _ (fun s m => xptRest_tilostSend s m), xptRest_modSess, ite_self]

@[simp] theorem xptRest_dropRequest (b : Bool) (s : State) : xptRest (dropRequest b s) = xptRest s := by
  unfold dropRequest answerMode
  split
  · rfl
  · dsimp only; split <;> simp

@[simp] theorem xptRest_deviceRequest (m : BitVec 4) (b : Bool) (s : State) : xptRest (deviceRequest m b s) = xptRest s := by
  simp only [deviceRequest, xptRest_ite, xptRest_modReel, xptRest_dropRequest, ite_self]

@[simp] theorem xptRest_writeBegin (t : BitVec 4) (n : Nat) (s : State) : xptRest (writeBegin t n s) = xptRest s := by
  simp only [writeBegin, writeFlushRec, putFlushRec, xptRest_modPwr, xptRest_bacLine, xptRest_ite, xptRest_modBac, ite_self]

@[simp] theorem xptRest_flushStopped (s : State) : xptRest (flushStopped s) = xptRest s := by
  unfold flushStopped
  split <;> rfl

@[simp] theorem xptRest_startFlush (t : BitVec 4) (s : State) : xptRest (startFlush t s) = xptRest s := by
  simp only [startFlush, xptRest_ite, xptRest_flushStopped, xptRest_writeBegin, xptRest_bacAbandon, xptRest_openFlush, ite_self]

@[simp] theorem xptRest_graveFinish (s : State) : xptRest (graveFinish s) = xptRest s := by
  simp only [graveFinish, xptRest_writeRecord, xptRest_ite, xptRest_modFcr, xptRest_deviceRequest, ite_self]

@[simp] theorem xptRest_becomeGrave (g : Nat) (c : BitVec 2) (s : State) : xptRest (becomeGrave g c s) = xptRest s := by
  simp only [becomeGrave, xptRest_ite, xptRest_eventC, xptRest_stopTaking, xptRest_modFcr, xptRest_modPwr, xptRest_modGroup,
    xptRest_graveFinish, xptRest_startFlush, ite_self]

@[simp] theorem xptRest_severeArrive (g : Nat) (s : State) : xptRest (severeArrive g s) = xptRest s := by
  simp only [severeArrive, xptRest_ite, xptRest_event, xptRest_modFcr, xptRest_becomeGrave, ite_self]

/-- A fault changes nothing of the transport engine but TAKES. -/
@[simp] theorem xptRest_raiseFault (g : Nat) (c : BitVec 3) (s : State) : xptRest (raiseFault g c s) = xptRest s := by
  simp only [raiseFault, xptRest_ite, xptRest_becomeGrave, xptRest_severeArrive, xptRest_eventC, xptRest_modGroup, ite_self]

theorem listen_of_xptRest {s t : State} (h : xptRest s = xptRest t) : s.xpt.listen = t.xpt.listen :=
  (congrArg Xpt.listen h : (xptRest s).listen = _)

/-! ## Locked-field writes (R208) -/

/-- A locked-field write sets the block's bit of SYS_LOCKV, and SYS_LOCKV_AT while no bit stood. -/
theorem lockedWrite_sys (blk o : Nat) (v : BitVec 32) (s : State) :
    (lockedWrite blk o v s).sys =
      { s.sys with lockvAt := if s.sys.lockv = 0 then w32 (ctlBase + o) else s.sys.lockvAt, lockv := setBit s.sys.lockv blk } :=
  congrArg State.sys (quiet_raiseFault 6 1 (eventC 0x0110 1 [0, w32 (ctlBase + o), v] (modSys (fun u =>
    { u with lockvAt := if u.lockv = 0 then w32 (ctlBase + o) else u.lockvAt, lockv := setBit u.lockv blk }) s)))

@[simp] theorem xptRest_lockedWrite (blk o : Nat) (v : BitVec 32) (s : State) : xptRest (lockedWrite blk o v s) = xptRest s := by
  simp only [lockedWrite, xptRest_raiseFault, xptRest_eventC, xptRest_modSys]

/-- A locked-field write is counted in group 6. -/
theorem lockedWrite_total (blk o : Nat) (v : BitVec 32) (s : State) :
    (groupOf (lockedWrite blk o v s) 6).total = satInc (groupOf s 6).total := by
  obtain ⟨k, hk⟩ := groupOf_raiseFault 6 1 (eventC 0x0110 1 [0, w32 (ctlBase + o), v] (modSys (fun u =>
    { u with lockvAt := if u.lockv = 0 then w32 (ctlBase + o) else u.lockvAt, lockv := setBit u.lockv blk }) s))
  exact congrArg FcrGroup.total hk

/-! ## The registers of the statement: writes -/

/-- SYS_LOCKV is of separate W1C flags (R13, R209). -/
theorem regWrite0_lockv (v : BitVec 32) (s : State) :
    regWrite0 0x10 v s = modSys (fun u => { u with lockv := w1c u.lockv (wf v 0 16) }) s := rfl

/-- So is THM_IRQ (R591). -/
theorem regWrite0_thmIrq (v : BitVec 32) (s : State) :
    regWrite0 0x8000C v s = modThm (fun u => { u with irq := w1c u.irq (wf v 0 6) }) s := rfl

/-- The REEL window takes the offsets between the DRAM controllers and the spindles. -/
theorem regWrite0_reel {o : Nat} (v : BitVec 32) (s : State) (h : 0xE0000 ≤ o) (h' : o < 0x200000) :
    regWrite0 o v s = reelWrite (o - 0x100000) v s := by
  unfold regWrite0
  iterate 11 rw [if_neg (by omega)]
  rw [if_pos h']

/-- CLS_LIM of class `c` takes a limit that waits for the commit (R206). -/
theorem regWrite0_clsLimit (c : BitVec 8) (v : BitVec 32) (s : State) :
    regWrite0 (0x101000 + c.toNat * 16) v s = modCls c.toNat (fun x => { x with limPend := some (wf v 0 8) }) s := by
  have hc := c.isLt
  have hdiv : (0x101000 + c.toNat * 16 - 0x100000 - 0x1000) / 16 = c.toNat := by omega
  have hmod : (0x101000 + c.toNat * 16 - 0x100000) % 16 = 0 := by omega
  rw [regWrite0_reel v s (by omega) (by omega), reelWrite, if_neg (by omega), if_neg (by omega), if_pos (by omega)]
  simp only [hdiv, hmod, if_true]

/-- The limit waits, the one in force stands, and no other class changes. -/
theorem clsLimit_modCls (c : BitVec 8) (v : BitVec 32) (s : State) :
    let t := modCls c.toNat (fun x => { x with limPend := some (wf v 0 8) }) s
    (clsOf t c.toNat).limPend = some (v.setWidth 8) ∧ (clsOf t c.toNat).lim = (clsOf s c.toNat).lim ∧
      ∀ k, k ≠ c.toNat → clsOf t k = clsOf s k := by
  intro t
  have hsame := clsOf_modCls_same c.toNat (fun x => { x with limPend := some (wf v 0 8) }) s
  refine ⟨?_, ?_, fun k hk => clsOf_modCls_other _ _ s hk⟩
  · rw [hsame, wf_zero]
  · rw [hsame]

theorem ordinary_clsLimit (c : BitVec 8) : ordinary (0x101000 + c.toNat * 16) = true := by
  have hc := c.isLt
  have hmap : inSpans controlSpans (0x101000 + c.toNat * 16) = true := by
    simp only [inSpans, controlSpans, List.any_cons, List.any_nil, Bool.or_false, Bool.or_eq_true, decide_eq_true_eq]
    omega
  have habs : inSpans absentSpans (0x101000 + c.toNat * 16) = false := by
    simp only [inSpans, absentSpans, List.any_cons, List.any_nil, Bool.or_false, Bool.or_eq_false_iff, decide_eq_false_iff_not]
    omega
  have hlow : isLow (0x101000 + c.toNat * 16) = false := by
    have hoff : (0x101000 + c.toNat * 16) % 0x10000 ≠ 0x8 ∧ (0x101000 + c.toNat * 16) % 0x10000 ≠ 0x10 := by omega
    rw [isLow, if_neg (by omega), if_neg (by omega), if_neg (by omega), if_pos (by omega)]
    simp [hoff]
  have hal : (0x101000 + c.toNat * 16) % 4 = 0 := by omega
  have hrange : 0x41000 ≤ 0x101000 + c.toNat * 16 ∧ 0x101000 + c.toNat * 16 < 0x400000 := by omega
  simp [ordinary, hmap, habs, hlow, hal, hrange]

theorem toNat_clsLimit (c : BitVec 8) :
    (0x100000000 + 0x101000 + c.setWidth 40 * 16 : BitVec 40).toNat = ctlBase + (0x101000 + c.toNat * 16) := by
  have hc := c.isLt
  simp [BitVec.toNat_add, BitVec.toNat_mul, ctlBase]
  omega

/-- R205, R208: XPT_LISTEN is locked while an image's decks run. A change then is a locked-field write. -/
theorem regWrite0_listen (v : BitVec 32) (s : State) :
    regWrite0 0x800008 v s =
      if blockRuns s then (if s.xpt.listen ≠ wf v 0 16 then lockedWrite 8 0x800008 v s else s)
      else modXpt (fun u => { u with listen := wf v 0 16 }) s := by
  change rwl (blockRuns s) (s.xpt.listen ≠ wf v 0 16) 8 0x800008 v (fun s => modXpt (fun u => { u with listen := wf v 0 16 }) s) s = _
  cases h : blockRuns s
  · simp [rwl]
  · simp [rwl]

theorem blockRuns_iff (s : State) : blockRuns s = true ↔ s.reel.run = true ∧ s.reel.deck ≠ 0 ∧ s.store.running ≠ none := by
  simp [blockRuns, and_assoc, Option.isSome_iff_ne_none]

/-- A write of the listen port is refused, and a change reported in group 6, while the block runs; else it is taken. -/
theorem listen_write (v : BitVec 32) (s : State) :
    let t := regWrite0 0x800008 v s
    if s.reel.run = true ∧ s.reel.deck ≠ 0 ∧ s.store.running ≠ none then
      t.xpt.listen = s.xpt.listen ∧ (s.xpt.listen ≠ v.setWidth 16 → bit t.sys.lockv 8 = true ∧
        (groupOf t 6).total = satInc (groupOf s 6).total ∧ (s.sys.lockv = 0 → t.sys.lockvAt = 0x800008))
    else t.xpt.listen = v.setWidth 16 ∧ t.fcr = s.fcr := by
  intro t
  have ht : t = _ := regWrite0_listen v s
  rw [wf_zero] at ht
  by_cases hrun : blockRuns s = true
  · rw [if_pos ((blockRuns_iff s).mp hrun)]
    rw [if_pos hrun] at ht
    by_cases hch : s.xpt.listen = v.setWidth 16
    · rw [if_neg (by simpa using hch)] at ht
      exact ⟨by rw [ht], fun h => absurd hch h⟩
    · rw [if_pos hch] at ht
      rw [ht, lockedWrite_sys, lockedWrite_total]
      refine ⟨listen_of_xptRest (xptRest_lockedWrite 8 0x800008 v s), fun _ => ⟨?_, rfl, fun h0 => ?_⟩⟩
      · simp [bit, setBit]
      · simp [h0, w32, ctlBase]
  · rw [if_neg (fun h => hrun ((blockRuns_iff s).mpr h))]
    rw [if_neg hrun] at ht
    rw [ht]
    exact ⟨rfl, rfl⟩

/-! ## The statement -/

/-- Settles O39: each read and write is taken through the bus rules to its register's word or effect. -/
theorem controlRegisters : Obligations.ControlRegisters := by
  unfold Obligations.ControlRegisters
  intro v c s base reads writes f4
  have hread : ∀ (o : Nat) (a : BitVec 40) (p : BitVec 32 → Prop), ordinary o = true → a.toNat = ctlBase + o → p (regWord o s) → reads a p :=
    fun o a p ho ha hp hl => ⟨_, exec_read_ordinary ho ha hl, hp⟩
  have hwrite : ∀ (o : Nat) (a : BitVec 40) (p : State → Prop), ordinary o = true → a.toNat = ctlBase + o →
      p { regWrite0 o v s with bus := { data := 0, fault := false } } → writes a p :=
    fun o a p ho ha hp hdue => ⟨_, exec_write_ordinary v ho ha hdue, rfl, hp⟩
  refine ⟨?_, ?_, ?_, ?_, ?_, ?_, ?_, ?_, ?_, ?_, ?_, ?_, ?_⟩
  · exact hread 0x100000 _ _ (by decide) (by decide) (reelStat_fields s)
  · exact hread 0x100004 _ _ (by decide) (by decide) (regWord_reelPos s)
  · exact hread 0xC _ _ (by decide) (by decide) rfl
  · exact fun h => hread 0x60000 _ _ (by decide) (by decide) (fcrStat_fields s h)
  · exact hanks_latched s
  · intro a ha
    refine ⟨?_, fun hdue => ?_⟩
    · rw [exec_controlRegisterRead, ctlRead_busFault ha]; rfl
    · rw [exec_controlRegisterWrite_idle a v hdue, ctlWrite_busFault v ha]; rfl
  · intro a hp h4
    refine ⟨⟨?_, ?_⟩, fun hdue => ?_⟩
    · rw [exec_controlRegisterRead, ctlRead_control hp h4]; rfl
    · rw [exec_highWordLatch, ctlRead_control hp h4]
      simp only [hp, true_and]
      rfl
    · rw [exec_controlRegisterWrite_idle a v hdue, ctlWrite_control v hp h4]; rfl
  · exact fun a => ⟨highWordLatch_frame a s, _, exec_controlRegisterWrite a v s, rfl, answerWrite_bus_data _ _⟩
  · exact hwrite 0x100000 _ _ (by decide) (by decide) rfl
  · exact hwrite 0x10 _ _ (by decide) (by decide) (by rw [regWrite0_lockv, wf_zero]; exact ⟨rfl, rfl, rfl⟩)
  · exact hwrite 0x8000C _ _ (by decide) (by decide) (by rw [regWrite0_thmIrq, wf_zero]; rfl)
  · refine hwrite _ _ _ (ordinary_clsLimit c) (toNat_clsLimit c) ?_
    rw [regWrite0_clsLimit]
    exact clsLimit_modCls c v s
  · intro hdue
    exact ⟨_, exec_write_register v (placeOf_of_inSpans s (by decide) (by decide)) (by decide) rfl (by decide) hdue, rfl, listen_write v s⟩

end Sys2Proof.Machine

/-! # SUPPORT. Faults and bits (R560 to R565)

What the record path, the mode requests and the flush leave of fault collection, that a Grave fault leaves GRAVE set, what any fault
counts, and the bits of a word. -/

namespace Sys2Proof.Machine

/-! ## What leaves fault collection alone -/

theorem fcr_ite (c : Prop) [Decidable c] (s t : State) : (if c then s else t).fcr = if c then s.fcr else t.fcr :=
  apply_ite State.fcr c s t

@[simp] theorem event_fcr (code : BitVec 16) (ws : List (BitVec 32)) (s : State) : (event code ws s).fcr = s.fcr := rfl
@[simp] theorem tilostSend_fcr (m : TMsg) (s : State) : (tilostSend m s).fcr = s.fcr := rfl
@[simp] theorem bacLine_fcr (sec wl : Nat) (bs : List (BitVec 8)) (s : State) : (bacLine sec wl bs s).fcr = s.fcr := rfl
@[simp] theorem openFlush_fcr (t : BitVec 4) (n : Nat) (s : State) : (openFlush t n s).fcr = s.fcr := rfl

theorem fcr_foldl {β : Type} (f : State → β → State) (h : ∀ s b, (f s b).fcr = s.fcr) (l : List β) (s : State) :
    (l.foldl f s).fcr = s.fcr := by
  induction l generalizing s with
  | nil => rfl
  | cons b l ih => rw [List.foldl_cons, ih, h]

@[simp] theorem bacSpoil_fcr (off n : Nat) (s : State) : (bacSpoil off n s).fcr = s.fcr := by
  induction n generalizing off s with
  | zero => rfl
  | succ n ih => simp only [bacSpoil]; rw [ih]; rfl

@[simp] theorem bacAbandon_fcr (s : State) : (bacAbandon s).fcr = s.fcr := by
  unfold bacAbandon
  split
  · rfl
  · simp [fcr_foldl _ (fun s r => bacSpoil_fcr _ _ s)]

@[simp] theorem putRecord_fcr (k n : Nat) (bs : List (BitVec 8)) (s : State) : (putRecord k n bs s).fcr = s.fcr := by
  simp only [putRecord, event_fcr, fcr_ite, modStore_fcr, bacLine_fcr, ite_self]

@[simp] theorem writeRecord_fcr (k a b c d : Nat) (s : State) : (writeRecord k a b c d s).fcr = s.fcr := by
  simp only [writeRecord, fcr_ite, putRecord_fcr, event_fcr, bacAbandon_fcr, ite_self]

@[simp] theorem tilostAnswer_fcr (k : Nat) (t : BitVec 16) (i : BitVec 32) (st : BitVec 16) (p : List (BitVec 32)) (s : State) :
    (tilostAnswer k t i st p s).fcr = s.fcr := by
  simp only [tilostAnswer, fcr_ite, fcr_foldl _ (fun s m => tilostSend_fcr m s), modSess_fcr, ite_self]

@[simp] theorem dropRequest_fcr (b : Bool) (s : State) : (dropRequest b s).fcr = s.fcr := by
  unfold dropRequest answerMode
  split
  · rfl
  · dsimp only; split <;> simp

@[simp] theorem deviceRequest_fcr (m : BitVec 4) (b : Bool) (s : State) : (deviceRequest m b s).fcr = s.fcr := by
  simp only [deviceRequest, fcr_ite, modReel_fcr, dropRequest_fcr, ite_self]

@[simp] theorem writeFlushRec_fcr (f : FlushRec) (k : List (BitVec 8)) (s : State) : (writeFlushRec f k s).fcr = s.fcr := by
  simp only [writeFlushRec, modPwr_fcr, putFlushRec, bacLine_fcr, fcr_ite, modBac_fcr, ite_self]

@[simp] theorem flushStopped_fcr (s : State) : (flushStopped s).fcr = s.fcr := by
  unfold flushStopped
  split <;> rfl

@[simp] theorem startFlush_fcr (t : BitVec 4) (s : State) : (startFlush t s).fcr = s.fcr := by
  simp only [startFlush, fcr_ite, flushStopped_fcr, writeBegin, writeFlushRec_fcr, bacAbandon_fcr, openFlush_fcr, ite_self]

/-! ## GRAVE -/

/-- Step 4 and 5 of the Grave sequence note their step and change nothing else of fault collection. -/
theorem graveFinish_grave (s : State) : (graveFinish s).fcr.grave = s.fcr.grave := by
  simp only [graveFinish, writeRecord_fcr, fcr_ite, modFcr_fcr, deviceRequest_fcr]
  split <;> rfl

/-- R565: a fault that becomes Grave leaves GRAVE set. -/
theorem becomeGrave_grave (g : Nat) (c : BitVec 2) (s : State) : (becomeGrave g c s).fcr.grave = true := by
  unfold becomeGrave
  extract_lets t u rg v w x
  have hw : w.fcr.grave = true := rfl
  have hx : x.fcr.grave = true := by rw [startFlush_fcr]; exact hw
  split
  · next h => exact h
  · split
    · rfl
    · split
      · rw [graveFinish_grave]; rfl
      · split
        · exact hx
        · rw [graveFinish_grave]; exact hx

/-- A fault of class 4 becomes Grave (R564). -/
theorem raiseFault_grave (g : Nat) (s : State) : (raiseFault g 4 s).fcr.grave = true :=
  becomeGrave_grave g 1 _

/-! ## What a fault counts -/

theorem sys_of_quiet {s t : State} (h : quiet s = quiet t) : s.sys = t.sys := (congrArg State.sys h : (quiet s).sys = (quiet t).sys)
theorem watch_of_quiet {s t : State} (h : quiet s = quiet t) : s.watch = t.watch :=
  (congrArg State.watch h : (quiet s).watch = (quiet t).watch)

/-- A fault leaves the SYS block alone. -/
@[simp] theorem raiseFault_sys (g : Nat) (c : BitVec 3) (s : State) : (raiseFault g c s).sys = s.sys :=
  sys_of_quiet (quiet_raiseFault g c s)

@[simp] theorem raiseFault_watch (g : Nat) (c : BitVec 3) (s : State) : (raiseFault g c s).watch = s.watch :=
  watch_of_quiet (quiet_raiseFault g c s)

/-- A fault adds one to its group's count. -/
theorem raiseFault_total (g : Nat) (c : BitVec 3) (s : State) : (groupOf (raiseFault g c s) g).total = satInc (groupOf s g).total := by
  obtain ⟨k, hk⟩ := groupOf_raiseFault g c s
  rw [hk]; rfl

/-- A fault of class 4 leaves its group at class 4. -/
theorem raiseFault_cls_grave (g : Nat) (s : State) : (groupOf (raiseFault g 4 s) g).cls = 4 := by
  have h := groupOf_eq (groups_becomeGrave g 1 (modGroup g (counted 4) s)) g
  rw [groupOf_modGroup_same] at h
  exact congrArg FcrGroup.cls h

/-! ## Bits -/

theorem bit_setBit_same {w : Nat} (v : BitVec w) {n : Nat} (h : n < w) : bit (setBit v n) n = true := by
  simp [bit, setBit, h]

theorem bit_setBit {w : Nat} (v : BitVec w) {n m : Nat} (hn : n < w) : bit (setBit v n) m = (bit v m || decide (m = n)) := by
  rcases Nat.lt_trichotomy m n with h | h | h
  · have : m ≠ n := by omega
    simp [bit, setBit, h, this]
  · subst h; simp [bit, setBit, hn]
  · have h1 : ¬ m < n := by omega
    have h2 : m - n ≠ 0 := by omega
    have h3 : m ≠ n := by omega
    simp [bit, setBit, h1, h2, h3]

theorem bit_clrBit_same {w : Nat} (v : BitVec w) (n : Nat) : bit (clrBit v n) n = false := by
  by_cases h : n < w
  · simp [bit, clrBit, h]
  · exact BitVec.getLsbD_of_ge _ _ (by omega)

end Sys2Proof.Machine

/-! # SUPPORT. More laws of the sparse maps

A canonical list seen as a list in rising order of keys: what a member reads as, and what applying a function to every value gives. -/

namespace Sys2Proof.Machine

variable {α : Type}

/-- The keys of a list rise, seen pair by pair. -/
def keysRise (m : SMap α) : Prop := m.Pairwise (fun a b => a.1 < b.1)

theorem mabove_iff (b : Option Nat) (m : SMap α) : mabove b m ↔ (∀ n, b = some n → ∀ e ∈ m, n < e.1) ∧ keysRise m := by
  induction m generalizing b with
  | nil => simp [mabove, keysRise]
  | cons e m ih =>
    obtain ⟨k, v⟩ := e
    simp only [mabove, ih, keysRise, List.pairwise_cons, List.mem_cons, forall_eq_or_imp]
    constructor
    · rintro ⟨hb, hk, hp⟩
      exact ⟨fun n hn => ⟨hb n hn, fun a ha => lt_trans (hb n hn) (hk k rfl a ha)⟩, hk k rfl, hp⟩
    · rintro ⟨hb, hk, hp⟩
      exact ⟨fun n hn => (hb n hn).1, fun n hn => by cases hn; exact hk, hp⟩

theorem mget_of_not_mem (d : α) {k : Nat} {m : SMap α} (h : ∀ e ∈ m, e.1 ≠ k) : mget d m k = d := by
  induction m with
  | nil => rfl
  | cons e m ih =>
    obtain ⟨j, v⟩ := e
    have hj : j ≠ k := h (j, v) (by simp)
    simp [mget, hj, ih (fun e he => h e (by simp [he]))]

/-- An entry of a canonical list is what its key reads as. -/
theorem mget_of_mem (d : α) {m : SMap α} (h : keysRise m) {e : Nat × α} (he : e ∈ m) : mget d m e.1 = e.2 := by
  induction m with
  | nil => simp at he
  | cons x m ih =>
    obtain ⟨j, v⟩ := x
    obtain ⟨hx, hm⟩ := List.pairwise_cons.mp h
    rcases List.mem_cons.mp he with rfl | he
    · simp [mget]
    · have hj : j ≠ e.1 := Nat.ne_of_lt (hx e he)
      simp [mget, hj, ih hm he]

variable [DecidableEq α]

/-- What a write leaves listed: the value written, and the entries of other keys. -/
theorem mem_mset {d v : α} {k : Nat} {m : SMap α} {e : Nat × α} (h : e ∈ mset d k v m) : e = (k, v) ∨ e ∈ m ∧ e.1 ≠ k := by
  have hold : ∀ e ∈ mdel k m, e ∈ m ∧ e.1 ≠ k := fun e he => ⟨mem_mdel he, mfresh_mdel k m e he⟩
  by_cases hv : v = d
  · exact .inr (hold e (by simpa [mset, hv] using h))
  · exact (mem_mins (by simpa [mset, hv] using h)).imp id (hold e)

theorem mwf_iff_keysRise (d : α) (m : SMap α) : mwf d m = true ↔ keysRise m ∧ ∀ e ∈ m, e.2 ≠ d := by
  simp [mwf_iff, mabove_iff]

theorem mmapv_eq (d : α) (f : α → α) (m : SMap α) :
    mmapv d f m = (m.map (fun e => (e.1, f e.2))).filter (fun e => decide (e.2 ≠ d)) := by
  induction m with
  | nil => rfl
  | cons e m ih =>
    obtain ⟨k, v⟩ := e
    by_cases h : f v = d
    · simp [mmapv, h, ih]
    · simp [mmapv, h, ih]

/-- A function over every value keeps the canonical form. -/
theorem mwf_mmapv (d : α) (f : α → α) {m : SMap α} (h : mwf d m = true) : mwf d (mmapv d f m) = true := by
  rw [mwf_iff_keysRise] at *
  rw [mmapv_eq]
  have hrise : keysRise (m.map (fun e => (e.1, f e.2))) := List.pairwise_map.mpr h.1
  refine ⟨List.Pairwise.filter _ hrise, fun e he => ?_⟩
  simpa using (List.mem_filter.mp he).2

/-- A function that keeps the default, over every value of a canonical list, applies to what each key reads as. -/
theorem mget_mmapv (d : α) {f : α → α} (hf : f d = d) {m : SMap α} (h : keysRise m) (k : Nat) :
    mget d (mmapv d f m) k = f (mget d m k) := by
  induction m with
  | nil => exact hf.symm
  | cons e m ih =>
    obtain ⟨j, v⟩ := e
    obtain ⟨hx, hm⟩ := List.pairwise_cons.mp h
    have ih := ih hm
    by_cases hj : j = k
    · subst hj
      have hrest : mget d m j = d := mget_of_not_mem d (fun e he => (Nat.ne_of_lt (hx e he)).symm)
      by_cases hv : f v = d
      · simp [mmapv, mget, hv, ih, hrest, hf]
      · simp [mmapv, mget, hv]
    · by_cases hv : f v = d
      · simp [mmapv, mget, hv, ih, hj]
      · simp [mmapv, mget, hv, ih, hj]

end Sys2Proof.Machine

/-! # SUPPORT. The step (R19, R39) -/

namespace Sys2Proof.Machine

/-- A step takes the front command off the queue and runs it. -/
theorem step_cons (c : Instr) (rest : List Instr) (s : State) : step (s.withPending (c :: rest)) = exec c (s.withPending rest) := rfl

/-- With nothing queued one core cycle passes. -/
theorem step_nil (s : State) : step (s.withPending []) = .next (idleCycle (s.withPending [])) := rfl

/-- Settles O1: by the two equations of a step. -/
theorem stepRunsFrontCommand : Obligations.StepRunsFrontCommand :=
  fun c rest s => ⟨step_cons c rest s, step_nil s⟩

end Sys2Proof.Machine

/-! # SUPPORT. Links and pins (R18, R34, R35, R559, R664 to R666) -/

namespace Sys2Proof.Machine

/-! ## Die-to-die links -/

theorem exec_dieLinkFlitError (k : BitVec 3) (u : Bool) (s : State) : exec (.dieLinkFlitError k u) s = execDieLinkFlitError k u s := rfl
theorem exec_dieLinkTrainingLost (k : BitVec 3) (s : State) : exec (.dieLinkTrainingLost k) s = execDieLinkTrainingLost k s := rfl

theorem hasLink_lt {s : State} {k : Nat} (h : hasLink s k = true) : k < 7 := by
  simp only [hasLink, Bool.and_eq_true, decide_eq_true_eq] at h
  exact h.1

/-- A link that is down leaves the boot stage. -/
@[simp] theorem linkDown_stage (k : Nat) (x : Sys) : (linkDown k x).stage = x.stage := by
  simp only [linkDown, apply_ite Sys.stage, ite_self]

theorem flitError_noLink {s : State} {k : BitVec 3} (u : Bool) (h : hasLink s k.toNat = false) : exec (.dieLinkFlitError k u) s = .next s := by
  simp [exec_dieLinkFlitError, execDieLinkFlitError, h]

theorem trainingLost_noLink {s : State} {k : BitVec 3} (h : hasLink s k.toNat = false) : exec (.dieLinkTrainingLost k) s = .next s := by
  simp [exec_dieLinkTrainingLost, execDieLinkTrainingLost, h]

theorem flitError_corrected {s : State} {k : BitVec 3} (h : hasLink s k.toNat = true) :
    exec (.dieLinkFlitError k false) s = .next (modSys (fun u => { u with corrCnt := satInc u.corrCnt }) s) := by
  simp [exec_dieLinkFlitError, execDieLinkFlitError, h]

theorem flitError_uncorrectable {s : State} {k : BitVec 3} (h : hasLink s k.toNat = true) :
    exec (.dieLinkFlitError k true) s = .next (raiseFault 0 3 (modSys (fun u => { u with uncorr := setBit u.uncorr k.toNat }) s)) := by
  simp [exec_dieLinkFlitError, execDieLinkFlitError, h]

theorem trainingLost_booting {s : State} {k : BitVec 3} (h : hasLink s k.toNat = true) (h9 : s.sys.stage ≠ 9) :
    exec (.dieLinkTrainingLost k) s = .next (modSys (fun _ => linkDown k.toNat s.sys) s) := by
  have h9' : ¬ (modSys (fun _ => linkDown k.toNat s.sys) s).sys.stage = 9 := by simpa using h9
  simp only [exec_dieLinkTrainingLost, execDieLinkTrainingLost, h, Bool.not_true, Bool.false_eq_true, if_false, h9']

theorem trainingLost_booted {s : State} {k : BitVec 3} (h : hasLink s k.toNat = true) (h9 : s.sys.stage = 9) :
    exec (.dieLinkTrainingLost k) s = .next (raiseFault 0 4 (modSys (fun _ => linkDown k.toNat s.sys) s)) := by
  simp [exec_dieLinkTrainingLost, execDieLinkTrainingLost, h, h9]

/-! ## Pins -/

theorem exec_ppsInput (ns : BitVec 32) (s : State) : exec (.ppsInput ns) s = execPpsInput ns s := rfl

/-- The recorder queues an event while it runs and its input queue has room (R572). -/
theorem evrTake_queue {v : Evr} (e : EventRec) (h : v.stop = false) (hq : v.queue.length < 64) : (evrTake e v).queue = v.queue ++ [e] := by
  have hroom : ¬ 64 ≤ v.queue.length := by omega
  simp [evrTake, h, hroom]

/-- PTP time is stamped to 2 ns: bit 0 of the stamp is 0 (R665). -/
theorem bit_stamp (x : BitVec 64) : bit (lo32 (x &&& ~~~ (1 : BitVec 64))) 0 = false := by
  simp [bit, lo32]

/-- A pulse that is taken: the pin's mark, and event 0x0161 with the time of the edge. -/
theorem ppsInput_taken {s : State} {ns : BitVec 32} (h : 20 ≤ ns.toNat) (ht : s.pins.ppsTold = false) :
    let u := passTime (modPins (fun u => { u with ppsTold := true }) s)
    let stamp := spanTime u &&& ~~~ (1 : BitVec 64)
    exec (.ppsInput ns) s = .next (event 0x0161 [0, lo32 stamp, hi32 stamp] u) := by
  have hns : ¬ ns.toNat < 20 := by omega
  simp only [exec_ppsInput, execPpsInput, ht, hns, decide_false, Bool.or_self, Bool.false_eq_true, if_false]

theorem ppsInput_recorded {s : State} {ns : BitVec 32} (h : 20 ≤ ns.toNat) (ht : s.pins.ppsTold = false) (hs : s.evr.stop = false)
    (hq : s.evr.queue.length < 64) : ∃ t e, exec (.ppsInput ns) s = .next t ∧ t.pins = { s.pins with ppsTold := true } ∧
      t.evr.queue = s.evr.queue ++ [e] ∧ e.code = 0x0161 ∧ e.w0 = 0 ∧ bit e.w1 0 = false :=
  ⟨_, mkEvent _ 0x0161 0 false _, ppsInput_taken h ht, rfl, evrTake_queue _ hs hq, rfl, rfl, bit_stamp _⟩

/-! ## The test access port -/

/-- The part number's place in a word laid out as IDCODE is: above the manufacturer, below the stepping. -/
theorem partNumber_place (a p : BitVec 32) (m : BitVec 11) :
    ((a <<< 28 ||| p <<< 12 ||| m.setWidth 32 <<< 1 ||| 1) >>> 12).setWidth 16 = p.setWidth 16 := by
  refine BitVec.eq_of_getLsbD_eq fun i hi => ?_
  have hin : 12 + i < 32 := by omega
  have hstep : 12 + i < 28 := by omega
  simp [hi, hin, hstep, -BitVec.getLsbD_eq_getElem]

/-- IDCODE ends in 1 and shows the part number (R666). -/
theorem idcode_fields (s : State) : bit (idcode s) 0 = true ∧
    ((idcode s >>> 12).setWidth 16 : BitVec 16) = if s.varB then 0x9641 else 0x9640 := by
  refine ⟨by simp [bit, idcode], ?_⟩
  unfold idcode
  cases s.varB
  · exact partNumber_place _ 0x9640 _
  · exact partNumber_place _ 0x9641 _

theorem extest_running {s : State} (h : s.pins.resetN = true) : exec .extest s = .next (setTap .bypass 0 s) := by
  change execExtest s = _
  rw [execExtest, if_pos h]

theorem extest_reset {s : State} (h : s.pins.resetN = false) :
    exec .extest s = .next (setTap .extest ((drawBits s).1.setWidth 32) (drawBits s).2) := by
  change execExtest s = _
  rw [execExtest, if_neg (by simp [h])]

/-! ## The statement -/

/-- Settles O44: each command taken through its one branch. -/
theorem linksAndPins : Obligations.LinksAndPins := by
  unfold Obligations.LinksAndPins
  intro k ns up s
  refine ⟨fun hl => ⟨?_, ?_, ?_, ?_⟩, fun hl => ⟨flitError_noLink up hl, trainingLost_noLink hl⟩, ⟨rfl, rfl, rfl⟩, ?_, ?_,
    ppsInput_recorded, ?_, ?_, ?_, ?_, ?_, ?_⟩
  · exact ⟨_, flitError_corrected hl, rfl, rfl⟩
  · refine ⟨_, flitError_uncorrectable hl, ?_, raiseFault_total 0 3 _⟩
    rw [raiseFault_sys]
    have := hasLink_lt hl
    exact bit_setBit_same _ (by omega)
  · intro h9
    refine ⟨_, trainingLost_booted hl h9, raiseFault_cls_grave 0 _, raiseFault_grave 0 _, ?_⟩
    rw [raiseFault_sys]; rfl
  · intro h9
    exact ⟨_, trainingLost_booting hl h9, rfl, rfl⟩
  · exact ⟨_, rfl, rfl, rfl, rfl⟩
  · intro h
    have hskip : (decide (ns.toNat < 20) || s.pins.ppsTold) = true := by simpa using h
    rw [exec_ppsInput, execPpsInput, if_pos hskip]
  · exact ⟨_, rfl, rfl, rfl⟩
  · exact ⟨_, rfl, rfl, rfl⟩
  · exact ⟨_, rfl, rfl, (idcode_fields s).1, (idcode_fields s).2, rfl⟩
  · exact ⟨_, rfl, rfl, rfl, rfl⟩
  · exact fun h => ⟨_, extest_running h, rfl, rfl⟩
  · exact fun h => ⟨_, extest_reset h, rfl, rfl⟩

end Sys2Proof.Machine

/-! # SUPPORT. Interrupts and cores (R35, R511 to R513, R520 to R531, R671) -/

namespace Sys2Proof.Machine

theorem exec_interruptLineChange (k : BitVec 10) (s : State) : exec (.interruptLineChange k) s = execInterruptLineChange k s := rfl
theorem exec_interruptComplete (n : BitVec 4) (k : BitVec 10) (s : State) :
    exec (.interruptComplete n k) s = .next (completeSrc n.toNat k.toNat s) := rfl
theorem exec_watcherInput (i : BitVec 5) (b : Bool) (s : State) : exec (.watcherInput i b) s = execWatcherInput i b s := rfl
theorem exec_watchdogExpiry (n : BitVec 4) (s : State) : exec (.watchdogExpiry n) s = execWatchdogExpiry n s := rfl
theorem exec_coreRun (n : BitVec 4) (s : State) : exec (.coreRun n) s = execCoreRun n s := rfl
theorem exec_coreStop (n : BitVec 4) (s : State) : exec (.coreStop n) s = execCoreStop n s := rfl

/-! ## What the controller does not change -/

/-- A state with the interrupt controller cleared. -/
def beyondIntc (s : State) : State := { s with intc := {} }

@[simp] theorem beyondIntc_modSrc (k : Nat) (f : IntSrc → IntSrc) (s : State) : beyondIntc (modSrc k f s) = beyondIntc s := rfl
@[simp] theorem beyondIntc_sampleLine (k : Nat) (s : State) : beyondIntc (sampleLine k s) = beyondIntc s := rfl

@[simp] theorem beyondIntc_ite (c : Prop) [Decidable c] (s t : State) :
    beyondIntc (if c then s else t) = if c then beyondIntc s else beyondIntc t := by
  split <;> rfl

/-- A line is driven by its block, not by the controller. -/
theorem lineLevel_of_beyondIntc {s t : State} (h : beyondIntc s = beyondIntc t) (k : Nat) : lineLevel s k = lineLevel t k :=
  (congrArg (lineLevel · k) h : lineLevel (beyondIntc s) k = lineLevel (beyondIntc t) k)

theorem srcAbsent_of_beyondIntc {s t : State} (h : beyondIntc s = beyondIntc t) (k : Nat) : srcAbsent s k = srcAbsent t k :=
  (congrArg (srcAbsent · k) h : srcAbsent (beyondIntc s) k = srcAbsent (beyondIntc t) k)

theorem mem_of_beyondIntc {s t : State} (h : beyondIntc s = beyondIntc t) : s.mem = t.mem :=
  (congrArg State.mem h : (beyondIntc s).mem = (beyondIntc t).mem)

theorem isEdge_of_edge {s t : State} {k : Nat} (h : (srcOf s k).edge = (srcOf t k).edge) : isEdge s k = isEdge t k := by
  simp [isEdge, h]

theorem isEdge_of_isPulse {s : State} {k : Nat} (h : isPulse k = true) : isEdge s k = true := by simp [isEdge, h]

/-! ## One source -/

/-- What a sample of its line leaves of a source (R521). -/
def sampled (s : State) (k : Nat) (x : IntSrc) : IntSrc :=
  let lvl := lineLevel s k && !srcAbsent s k
  { x with line := lvl, pend := if isEdge s k then x.pend || (lvl && !x.line) else if x.active then x.pend else lvl || x.forced }

theorem srcOf_sampleLine_same (k : Nat) (s : State) : srcOf (sampleLine k s) k = sampled s k (srcOf s k) := srcOf_modSrc_same _ _ _

theorem srcOf_sampleLine_other {j k : Nat} (h : j ≠ k) (s : State) : srcOf (sampleLine k s) j = srcOf s j := srcOf_modSrc_other _ _ _ h

theorem interruptLineChange_sampled {k : BitVec 10} (h : k ≠ 0) (s : State) : exec (.interruptLineChange k) s = .next (sampleLine k.toNat s) := by
  rw [exec_interruptLineChange, execInterruptLineChange, if_neg h]

/-! ## A word of sources -/

section words
variable {f : State → Nat → State} {w : Nat} (hsrc : ∀ s b j, j ≠ w + b → srcOf (f s b) j = srcOf s j)
  (hrest : ∀ s b, beyondIntc (f s b) = beyondIntc s)

include hsrc in
theorem srcOf_foldl_other (n : Nat) (s : State) {j : Nat} (hj : ∀ b < n, j ≠ w + b) : srcOf ((List.range n).foldl f s) j = srcOf s j := by
  induction n with
  | zero => rfl
  | succ n ih =>
    rw [List.range_succ, List.foldl_append, List.foldl_cons, List.foldl_nil, hsrc _ _ _ (hj n (by omega)), ih (fun b hb => hj b (by omega))]

include hrest in
theorem beyondIntc_foldl (n : Nat) (s : State) : beyondIntc ((List.range n).foldl f s) = beyondIntc s := by
  induction n with
  | zero => rfl
  | succ n ih => rw [List.range_succ, List.foldl_append, List.foldl_cons, List.foldl_nil, hrest, ih]

include hsrc hrest in
/-- A loop over a word's bits leaves a source as its own bit's turn does, from a state that differs in other sources alone. -/
theorem srcOf_foldl_word {n b : Nat} (hb : b < n) (s : State) : ∃ u, beyondIntc u = beyondIntc s ∧ srcOf u (w + b) = srcOf s (w + b) ∧
    srcOf ((List.range n).foldl f s) (w + b) = srcOf (f u b) (w + b) := by
  induction n with
  | zero => omega
  | succ n ih =>
    rw [List.range_succ, List.foldl_append, List.foldl_cons, List.foldl_nil]
    by_cases hn : b = n
    · subst hn
      exact ⟨_, beyondIntc_foldl hrest b s, srcOf_foldl_other hsrc b s (fun c hc => by omega), rfl⟩
    · obtain ⟨u, hu, hsame, hfold⟩ := ih (by omega)
      exact ⟨u, hu, hsame, by rw [hsrc _ _ _ (by omega), hfold]⟩

end words

/-- What one bit of a write of INTC_SETP does (R521). -/
def setPendBit (w : Nat) (v : BitVec 32) (s : State) (b : Nat) : State :=
  let k := 32 * w + b
  if bit v b && k ≠ 0 && !srcAbsent s k then modSrc k (fun x => { x with pend := true, forced := !(isEdge s k) }) s else s

theorem setPending_eq (w : Nat) (v : BitVec 32) (s : State) : setPending w v s = (List.range 32).foldl (setPendBit w v) s := rfl

theorem setPendBit_other (w : Nat) (v : BitVec 32) (s : State) (b j : Nat) (h : j ≠ 32 * w + b) : srcOf (setPendBit w v s b) j = srcOf s j := by
  simp only [setPendBit]
  split
  · exact srcOf_modSrc_other _ _ _ h
  · rfl

theorem beyondIntc_setPendBit (w : Nat) (v : BitVec 32) (s : State) (b : Nat) : beyondIntc (setPendBit w v s b) = beyondIntc s := by
  simp only [setPendBit, beyondIntc_ite, beyondIntc_modSrc, ite_self]

/-- R521: a set bit makes its source pending, a clear one leaves it. -/
theorem setPending_source (w : Nat) (v : BitVec 32) (s : State) {b : Nat} (hb : b < 32) :
    (bit v b = true → 32 * w + b ≠ 0 → srcAbsent s (32 * w + b) = false → (srcOf (setPending w v s) (32 * w + b)).pend = true) ∧
      (bit v b = false → srcOf (setPending w v s) (32 * w + b) = srcOf s (32 * w + b)) := by
  obtain ⟨u, hu, hsame, hfold⟩ := srcOf_foldl_word (setPendBit_other w v) (beyondIntc_setPendBit w v) hb s
  rw [setPending_eq, hfold]
  refine ⟨fun hv hq ha => ?_, fun hv => ?_⟩
  · rw [← srcAbsent_of_beyondIntc hu] at ha
    have hstep : setPendBit w v u b = modSrc (32 * w + b) (fun x => { x with pend := true, forced := !(isEdge u (32 * w + b)) }) u := by
      have hcond : (bit v b && decide (32 * w + b ≠ 0) && !srcAbsent u (32 * w + b)) = true := by rw [hv, ha, decide_eq_true hq]; rfl
      exact if_pos hcond
    rw [hstep, srcOf_modSrc_same]
  · simp [setPendBit, hv, hsame]

/-- What one bit of a write of INTC_PEND does (R521). -/
def clearPendBit (w : Nat) (v : BitVec 32) (s : State) (b : Nat) : State :=
  let k := 32 * w + b
  if bit v b && k ≠ 0 then
    let s := modSrc k (fun x => { x with pend := false, forced := false }) s
    if isEdge s k then s else sampleLine k s
  else s

theorem clearPending_eq (w : Nat) (v : BitVec 32) (s : State) : clearPending w v s = (List.range 32).foldl (clearPendBit w v) s := rfl

theorem clearPendBit_other (w : Nat) (v : BitVec 32) (s : State) (b j : Nat) (h : j ≠ 32 * w + b) : srcOf (clearPendBit w v s b) j = srcOf s j := by
  simp only [clearPendBit]
  split
  · split
    · exact srcOf_modSrc_other _ _ _ h
    · rw [srcOf_sampleLine_other h, srcOf_modSrc_other _ _ _ h]
  · rfl

theorem beyondIntc_clearPendBit (w : Nat) (v : BitVec 32) (s : State) (b : Nat) : beyondIntc (clearPendBit w v s b) = beyondIntc s := by
  simp only [clearPendBit, beyondIntc_ite, beyondIntc_sampleLine, beyondIntc_modSrc, ite_self]

/-- A source whose bit is cleared is pending again only as a level source whose line is high, and not while it is active. -/
theorem clearPendBit_pend {w b : Nat} {v : BitVec 32} (s : State) (hv : bit v b = true) (hq : 32 * w + b ≠ 0) :
    (srcOf (clearPendBit w v s b) (32 * w + b)).pend =
      (!isEdge s (32 * w + b) && !(srcOf s (32 * w + b)).active && lineLevel s (32 * w + b) && !srcAbsent s (32 * w + b)) := by
  generalize hk : 32 * w + b = k at *
  have hedge : isEdge (modSrc k (fun x => { x with pend := false, forced := false }) s) k = isEdge s k :=
    isEdge_of_edge (by rw [srcOf_modSrc_same])
  have hline : lineLevel (modSrc k (fun x => { x with pend := false, forced := false }) s) k = lineLevel s k :=
    lineLevel_of_beyondIntc rfl k
  have habs : srcAbsent (modSrc k (fun x => { x with pend := false, forced := false }) s) k = srcAbsent s k :=
    srcAbsent_of_beyondIntc rfl k
  simp only [clearPendBit, hk, hv, hq, ne_eq, not_false_eq_true, decide_true, Bool.and_self, if_true, hedge]
  cases he : isEdge s k
  · rw [if_neg (by simp), srcOf_sampleLine_same, srcOf_modSrc_same]
    simp only [sampled, hedge, hline, habs, he]
    cases (srcOf s k).active <;> simp
  · rw [if_pos rfl, srcOf_modSrc_same]
    simp

/-- R521: a set bit clears its source's PEND, but for a level source still asserted; a clear one leaves the source. -/
theorem clearPending_source (w : Nat) (v : BitVec 32) (s : State) {b : Nat} (hb : b < 32) :
    (bit v b = true → 32 * w + b ≠ 0 → (srcOf (clearPending w v s) (32 * w + b)).pend =
        (!isEdge s (32 * w + b) && !(srcOf s (32 * w + b)).active && lineLevel s (32 * w + b) && !srcAbsent s (32 * w + b))) ∧
      (bit v b = false → srcOf (clearPending w v s) (32 * w + b) = srcOf s (32 * w + b)) := by
  obtain ⟨u, hu, hsame, hfold⟩ := srcOf_foldl_word (clearPendBit_other w v) (beyondIntc_clearPendBit w v) hb s
  rw [clearPending_eq, hfold]
  refine ⟨fun hv hq => ?_, fun hv => ?_⟩
  · rw [clearPendBit_pend u hv hq, hsame, lineLevel_of_beyondIntc hu, srcAbsent_of_beyondIntc hu,
      isEdge_of_edge (congrArg IntSrc.edge hsame)]
  · simp [clearPendBit, hv, hsame]

/-! ## Claims -/

/-- The higher of two sources, the first among equals (R523). -/
def higher (m : Option (Nat × IntSrc)) (e : Nat × IntSrc) : Option (Nat × IntSrc) :=
  match m with
  | none => some e
  | some x => if x.2.prio < e.2.prio then some e else some x

theorem bestSource_eq (s : State) (t : Nat) : bestSource s t = (s.intc.src.filter (fun e => eligible s t e.2)).foldl higher none := rfl

/-- `y` is served before `f` or is `f` itself: its priority is higher, or the same and its number no larger. -/
def servedFirst (y f : Nat × IntSrc) : Prop := f.2.prio.toNat < y.2.prio.toNat ∨ f.2.prio = y.2.prio ∧ y.1 ≤ f.1

/-- Over a list in rising order of numbers, what is kept is served first. -/
theorem foldl_higher (x : Nat × IntSrc) (l : List (Nat × IntSrc)) (h : keysRise (x :: l)) :
    ∃ y ∈ x :: l, l.foldl higher (some x) = some y ∧ ∀ f ∈ x :: l, servedFirst y f := by
  induction l generalizing x with
  | nil => exact ⟨x, by simp, rfl, by simp [servedFirst]⟩
  | cons e l ih =>
    obtain ⟨hx, he, hl⟩ : (∀ f ∈ e :: l, x.1 < f.1) ∧ (∀ f ∈ l, e.1 < f.1) ∧ keysRise l := by
      simpa [keysRise, List.pairwise_cons] using h
    rw [List.foldl_cons]
    by_cases hp : x.2.prio < e.2.prio
    · obtain ⟨y, hy, hfold, hbest⟩ := ih e (List.pairwise_cons.mpr ⟨he, hl⟩)
      refine ⟨y, List.mem_cons_of_mem _ hy, by simpa [higher, hp] using hfold, ?_⟩
      intro f hf
      rcases List.mem_cons.mp hf with rfl | hf
      · have hpn : f.2.prio.toNat < e.2.prio.toNat := hp
        rcases hbest e (by simp) with h | ⟨h, -⟩
        · exact .inl (by omega)
        · exact .inl (by rw [← h]; exact hpn)
      · exact hbest f hf
    · have hxl : keysRise (x :: l) := List.pairwise_cons.mpr ⟨fun f hf => hx f (by simp [hf]), hl⟩
      obtain ⟨y, hy, hfold, hbest⟩ := ih x hxl
      refine ⟨y, by simp only [List.mem_cons] at hy ⊢; tauto, by simpa [higher, hp] using hfold, ?_⟩
      intro f hf
      simp only [List.mem_cons] at hf
      rcases hf with rfl | rfl | hf
      · exact hbest f (by simp)
      · have hle : f.2.prio.toNat ≤ x.2.prio.toNat := by simpa [BitVec.lt_def] using hp
        have hlt := hx f (by simp)
        rcases hbest x (by simp) with h | ⟨h, h1⟩
        · exact .inl (by omega)
        · rcases Nat.lt_or_eq_of_le hle with h2 | h2
          · exact .inl (by rw [← h]; exact h2)
          · exact .inr ⟨by rw [← h]; exact BitVec.eq_of_toNat_eq h2, by omega⟩
      · exact hbest f (by simp [hf])

/-- With nothing eligible there is no best source. -/
theorem bestSource_none {s : State} {t : Nat} (h : ∀ e ∈ s.intc.src, eligible s t e.2 = false) : bestSource s t = none := by
  rw [bestSource_eq, List.filter_eq_nil_iff.mpr (fun e he => by simp [h e he])]
  rfl

/-- R523: the best source is eligible, of the highest priority, and of the lowest number among equals. -/
theorem bestSource_some {s : State} {t : Nat} (hwf : mwf {} s.intc.src = true) (h : ∃ e ∈ s.intc.src, eligible s t e.2 = true) :
    ∃ e ∈ s.intc.src, eligible s t e.2 = true ∧ (∀ f ∈ s.intc.src, eligible s t f.2 = true → servedFirst e f) ∧
      bestSource s t = some e ∧ srcOf s e.1 = e.2 := by
  have hrise : keysRise s.intc.src := ((mwf_iff_keysRise _ _).mp hwf).1
  have hmem : ∀ f, f ∈ s.intc.src.filter (fun e => eligible s t e.2) ↔ f ∈ s.intc.src ∧ eligible s t f.2 = true := fun f => List.mem_filter
  have hsub : keysRise (s.intc.src.filter (fun e => eligible s t e.2)) := List.Pairwise.filter _ hrise
  rw [bestSource_eq]
  cases hl : s.intc.src.filter (fun e => eligible s t e.2) with
  | nil =>
    obtain ⟨e, he, hel⟩ := h
    have : e ∈ ([] : List (Nat × IntSrc)) := hl ▸ (hmem e).mpr ⟨he, hel⟩
    simp at this
  | cons x l =>
    rw [hl] at hmem hsub
    obtain ⟨y, hy, hfold, hbest⟩ := foldl_higher x l hsub
    obtain ⟨hys, hyel⟩ := (hmem y).mp hy
    exact ⟨y, hys, hyel, fun f hf hfe => hbest f ((hmem f).mpr ⟨hf, hfe⟩), hfold, mget_of_mem _ hrise hys⟩

/-- The state after a claim of source `e` for target `t` (R523, R526). -/
def claimed (t : Nat) (e : Nat × IntSrc) (s : State) : State :=
  let s := modSrc e.1 (fun y => { y with pend := false, forced := false, active := true, claimT := BitVec.ofNat 4 t }) s
  let h := mget {} s.intc.hold e.2.group.toNat
  if e.2.gen && h.time ≠ 0 then modIntc (fun u => { u with hold := mset {} e.2.group.toNat { h with timer := h.time } u.hold }) s else s

theorem exec_claim_none {n : BitVec 4} {s : State} (h : bestSource s n.toNat = none) :
    exec (.claim n) s = .next { s with bus := { data := 0 } } := by
  change execClaim n s = _
  simp [execClaim, claim, h]

theorem exec_claim_some {n : BitVec 4} {s : State} {e : Nat × IntSrc} (h : bestSource s n.toNat = some e) :
    exec (.claim n) s = .next { claimed n.toNat e s with bus := { data := w32 e.1 } } := by
  change execClaim n s = _
  simp [execClaim, claim, h, claimed]

theorem claimed_src (t : Nat) (e : Nat × IntSrc) (s : State) (j : Nat) : srcOf (claimed t e s) j =
    srcOf (modSrc e.1 (fun y => { y with pend := false, forced := false, active := true, claimT := BitVec.ofNat 4 t }) s) j := by
  simp only [claimed]
  split <;> rfl

/-- A claim of a source of a hold-off group starts the group's timer (R526). -/
theorem claimed_timer {t : Nat} {e : Nat × IntSrc} {s : State} (hg : e.2.gen = true) (ht : (mget {} s.intc.hold e.2.group.toNat).time ≠ 0) :
    (mget {} (claimed t e s).intc.hold e.2.group.toNat).timer = (mget {} s.intc.hold e.2.group.toNat).time := by
  have hcond : (e.2.gen && decide ((mget {} s.intc.hold e.2.group.toNat).time ≠ 0)) = true := by rw [hg, decide_eq_true ht]; rfl
  rw [claimed]
  change (mget {} (if (e.2.gen && decide ((mget {} s.intc.hold e.2.group.toNat).time ≠ 0)) = true then _ else _ : State).intc.hold _).timer = _
  rw [if_pos hcond]
  exact congrArg HoldOff.timer (mget_mset_same _ _ _ _)

/-! ## Completions -/

@[simp] theorem srcOf_osTakes (k : Nat) (s : State) (j : Nat) : srcOf (osTakes k s) j = srcOf s j := by
  unfold osTakes
  split_ifs <;> rfl

/-- The source after its completion, before its line is looked at. -/
def doneSource (x : IntSrc) : IntSrc := { x with active := false, edge := x.edgeReq.getD x.edge, edgeReq := none }

theorem completeSrc_claimed {t k : Nat} {s : State} (ha : (srcOf s k).active = true) (ht : (srcOf s k).claimT.toNat = t) :
    completeSrc t k s =
      if isEdge (modSrc k doneSource (osTakes k s)) k then modSrc k doneSource (osTakes k s) else sampleLine k (modSrc k doneSource (osTakes k s)) := by
  have hskip : (!(srcOf s k).active || decide ((srcOf s k).claimT.toNat ≠ t)) = false := by simp [ha, ht]
  simp only [completeSrc, hskip, Bool.false_eq_true, if_false]
  rfl

/-- R523, R524: a completion of what the target claimed ends it, a held EDGE change takes effect, and a pulse source's PEND stays. -/
theorem completeSrc_source {t k : Nat} {s : State} (ha : (srcOf s k).active = true) (ht : (srcOf s k).claimT.toNat = t) :
    (srcOf (completeSrc t k s) k).active = false ∧ (srcOf (completeSrc t k s) k).edge = (srcOf s k).edgeReq.getD (srcOf s k).edge ∧
      (srcOf (completeSrc t k s) k).edgeReq = none ∧ (isPulse k = true → (srcOf (completeSrc t k s) k).pend = (srcOf s k).pend) := by
  have hu : srcOf (modSrc k doneSource (osTakes k s)) k = doneSource (srcOf s k) := by rw [srcOf_modSrc_same, srcOf_osTakes]
  rw [completeSrc_claimed ha ht]
  split
  · rw [hu]; exact ⟨rfl, rfl, rfl, fun _ => rfl⟩
  · next he =>
    rw [srcOf_sampleLine_same, hu]
    exact ⟨rfl, rfl, rfl, fun hp => absurd (isEdge_of_isPulse hp) he⟩

theorem completeSrc_other {t k : Nat} {s : State} (h : (srcOf s k).active = false ∨ (srcOf s k).claimT.toNat ≠ t) : completeSrc t k s = s := by
  have hskip : (!(srcOf s k).active || decide ((srcOf s k).claimT.toNat ≠ t)) = true := by simpa using h
  simp only [completeSrc, hskip, if_true]

/-! ## The watcher -/

/-- A latch sets its bit and changes nothing else of the watcher (R530). -/
theorem watchLatch_watch (n : Nat) (s : State) : (watchLatch n s).watch = { s.watch with stat := setBit s.watch.stat n } := by
  unfold watchLatch
  extract_lets t ws
  split
  · split
    · rw [raiseFault_watch]; rfl
    · rfl
  · rfl

theorem watchPulse_stat {n : Nat} (hn : n < 32) (s : State) (m : Nat) :
    bit (watchPulse n s).watch.stat m = (bit s.watch.stat m || decide (m = n)) := by
  unfold watchPulse
  split
  · next h =>
    by_cases hm : m = n
    · subst hm; simp [h]
    · simp [hm]
  · rw [watchLatch_watch]; exact bit_setBit _ hn

/-- An input that asserts is asserted and latched, and nothing else of the watcher changes (R530). -/
theorem watchAssert_watch (n : Nat) (s : State) : (watchAssert n s).watch =
    { s.watch with input := setBit s.watch.input n, stat := if bit s.watch.stat n then s.watch.stat else setBit s.watch.stat n } := by
  unfold watchAssert
  extract_lets t
  change (if bit s.watch.stat n then t else watchLatch n t).watch = _
  split
  · rfl
  · rw [watchLatch_watch]; rfl

theorem watchAssert_stat {n : Nat} (hn : n < 32) (s : State) : bit (watchAssert n s).watch.stat n = true := by
  rw [watchAssert_watch]
  change bit (if bit s.watch.stat n then _ else _) n = true
  split
  · next h => exact h
  · exact bit_setBit_same _ hn

/-- R530: each bit of a write of WATCH_SW latches its input. -/
theorem watchSw_stat (v : BitVec 4) (s : State) {b : Nat} (hb : b < 4) (h : bit v b = true) : bit (watchSw v s).watch.stat (28 + b) = true := by
  have loop : ∀ n ≤ 4, b < n → bit ((List.range n).foldl (fun s k => if bit v k then watchPulse (28 + k) s else s) s).watch.stat (28 + b) = true := by
    intro n
    induction n with
    | zero => omega
    | succ n ih =>
      intro hn hbn
      rw [List.range_succ, List.foldl_append, List.foldl_cons, List.foldl_nil]
      by_cases he : b = n
      · subst he
        rw [if_pos h, watchPulse_stat (by omega)]
        simp
      · have ih := ih (by omega) (by omega)
        split
        · rw [watchPulse_stat (by omega), ih, Bool.true_or]
        · exact ih
  exact loop 4 (by omega) hb

theorem watcherInput_asserted {i : BitVec 5} (h : i.toNat < 24) (h18 : i ≠ 18) (s : State) :
    exec (.watcherInput i true) s = .next (watchAssert i.toNat s) := by
  have hr : ¬ (24 ≤ i.toNat ∧ i.toNat ≤ 27) := by omega
  simp only [exec_watcherInput, execWatcherInput, hr, h18, if_false, Bool.not_true, Bool.false_eq_true]

theorem watcherInput_released {i : BitVec 5} (h : ¬ (24 ≤ i.toNat ∧ i.toNat ≤ 27)) (s : State) :
    exec (.watcherInput i false) s = .next (watchRelease i.toNat s) := by
  simp [exec_watcherInput, execWatcherInput, h]

theorem watchAssert_fresh {n : Nat} {s : State} (h : bit s.watch.stat n = false) :
    watchAssert n s = watchLatch n (modWatch (fun u => { u with input := setBit u.input n }) s) := by
  have h' : ¬ bit (modWatch (fun u => { u with input := setBit u.input n }) s).watch.stat n = true := by simp [h]
  rw [watchAssert, if_neg h']

/-- R559: an escalated input that latches is a fault of its group. -/
theorem watchLatch_total {n : Nat} {s : State} {gc : Nat × BitVec 3} (hf : watchFault n = some gc) (he : bit s.watch.esc n = true) :
    (groupOf (watchLatch n s) gc.1).total = satInc (groupOf s gc.1).total := by
  unfold watchLatch
  extract_lets t ws
  have het : bit t.watch.esc n = true := he
  rw [hf]
  simp only [het, if_true]
  exact raiseFault_total _ _ _

/-! ## Cores -/

theorem runCore_stopped {n : Nat} {s : State} (h : (coreOf s n).running = false) :
    coreOf (runCore n s) n = { startedCore (s.sys.coreEntry.setWidth 64) with dtrap := (coreOf s n).dtrap } := by
  rw [runCore, coreOf_modCore_same, if_neg (by simp [h])]

@[simp] theorem writeWdp_period (n : Nat) (v : BitVec 16) (s : State) : mget 0 (writeWdp n v s).watch.wdp n = v := mget_mset_same _ _ _ _

theorem stopCore_running {n : Nat} {s : State} (h : (coreOf s n).running = true) (m : Nat) : coreOf (stopCore n s) m =
    coreOf (modCore n (fun x => { x with running := false, sleeping := false, resv := none, waits := [] }) s) m := by
  simp only [stopCore, h, Bool.not_true, Bool.false_eq_true, if_false]
  rfl

@[simp] theorem stopCore_watch (n : Nat) (s : State) : (stopCore n s).watch = s.watch := by
  simp only [stopCore, apply_ite State.watch]
  exact ite_self _

theorem coreRun_stopped {n : BitVec 4} {s : State} (h : (coreOf s n.toNat).running = false) :
    exec (.coreRun n) s = .next (runCore n.toNat (firmwareWatch n.toNat s)) := by
  simp [exec_coreRun, execCoreRun, h]

theorem coreStop_running {n : BitVec 4} {s : State} (h : (coreOf s n.toNat).running = true) :
    exec (.coreStop n) s = .next (stopCore n.toNat (writeWdp n.toNat 0 s)) := by
  simp [exec_coreStop, execCoreStop, h]

theorem watchdogExpiry_due {n : BitVec 4} {s : State} (h : mget 0 s.watch.wdp n.toNat ≠ 0) : exec (.watchdogExpiry n) s =
    .next (watchPulse n.toNat { s with now := if s.now < watchDue s n.toNat then watchDue s n.toNat else s.now }) := by
  rw [exec_watchdogExpiry, execWatchdogExpiry, if_neg h]

/-! ## The statement -/

/-- Settles O40: sources by the loop over a word and the choice of the best, the watcher by its latch, the cores by start and stop. -/
theorem interruptsAndCores : Obligations.InterruptsAndCores := by
  unfold Obligations.InterruptsAndCores
  intro k w v n g4 g i s x lvl
  refine ⟨fun hk => ?_, ?_, ?_, fun h => exec_claim_none (bestSource_none h), fun hwf hex => ?_, fun ha ht => ?_, fun h => ?_, ?_, ?_,
    fun hi h18 hstat => ?_, fun hi => ?_, ?_, fun hw => ?_, fun hw => ?_, fun hr => ?_, fun hr => ?_⟩
  · exact ⟨_, interruptLineChange_sampled hk s, srcOf_sampleLine_same _ s, fun j hj => srcOf_sampleLine_other hj s⟩
  · exact ⟨_, rfl, mem_of_beyondIntc (beyondIntc_foldl (beyondIntc_setPendBit w.toNat v) 32 s), fun b hb => setPending_source _ v s hb⟩
  · exact ⟨_, rfl, fun b hb => clearPending_source _ v s hb⟩
  · obtain ⟨e, he, hel, hfirst, hbest, hsrc⟩ := bestSource_some hwf hex
    refine ⟨e, he, hel, hfirst, _, exec_claim_some hbest, rfl, ?_, fun j hj => ?_, claimed_timer⟩
    · refine (claimed_src _ e s e.1).trans ?_
      rw [srcOf_modSrc_same, hsrc, BitVec.ofNat_toNat, BitVec.setWidth_eq]
    · exact (claimed_src _ e s j).trans (srcOf_modSrc_other _ _ _ hj)
  · exact ⟨_, exec_interruptComplete n k s, completeSrc_source ha (congrArg BitVec.toNat ht)⟩
  · have h' : (srcOf s k.toNat).active = false ∨ (srcOf s k.toNat).claimT.toNat ≠ n.toNat :=
      h.imp id (fun hne he => hne (BitVec.eq_of_toNat_eq he))
    rw [exec_interruptComplete, completeSrc_other h']
  · refine ⟨_, rfl, ?_, ?_⟩
    · simp [inHoldOff]
    · simp
  · exact ⟨_, rfl, fun b hb h => watchSw_stat g4 s hb h⟩
  · refine ⟨_, watcherInput_asserted hi h18 s, ?_, ?_, fun gc hgc hesc => ?_⟩
    · rw [watchAssert_fresh hstat, watchLatch_watch]; exact bit_setBit_same _ (by omega)
    · rw [watchAssert_fresh hstat, watchLatch_watch]; exact bit_setBit_same _ (by omega)
    · rw [watchAssert_fresh hstat]; exact watchLatch_total hgc hesc
  · exact ⟨_, watcherInput_released hi s, bit_clrBit_same _ _, rfl, rfl⟩
  · exact ⟨_, rfl, mget_mset_same _ _ _ _, rfl⟩
  · refine ⟨_, watchdogExpiry_due hw, ?_⟩
    rw [watchPulse_stat (by have := n.isLt; omega)]
    simp
  · rw [exec_watchdogExpiry, execWatchdogExpiry, if_pos hw]
  · have hcore := runCore_stopped (n := n.toNat) (s := firmwareWatch n.toNat s) hr
    refine ⟨_, coreRun_stopped hr, ?_, ?_, ?_, ?_, ?_, ?_, ?_, fun m hm => ?_⟩
    · rw [hcore]; rfl
    · rw [hcore]; rfl
    · rw [hcore]; rfl
    · rw [hcore]; rfl
    · rw [hcore]; rfl
    · exact writeWdp_period n.toNat 1000 s
    · exact bit_setBit_same _ (by have := n.isLt; omega)
    · exact coreOf_modCore_other _ _ _ hm
  · have hr' : (coreOf (writeWdp n.toNat 0 s) n.toNat).running = true := hr
    refine ⟨_, coreStop_running hr, ?_, ?_, fun m hm => ?_⟩
    · rw [stopCore_watch]; exact writeWdp_period n.toNat 0 s
    · exact (stopCore_running hr' _).trans (coreOf_modCore_same _ _ _)
    · exact (stopCore_running hr' m).trans (coreOf_modCore_other _ _ _ hm)

end Sys2Proof.Machine

/-! # SUPPORT. What a stack's temperature and loss leave alone (R472, R494, R583) -/

namespace Sys2Proof.Machine

/-- A state with the parts cleared that a fault's handling or the throttling condition may change. -/
def quietThm (s : State) : State := { quiet s with thm := {} }

theorem quietThm_of_quiet {s t : State} (h : quiet s = quiet t) : quietThm s = quietThm t :=
  congrArg (fun u : State => { u with thm := {} }) h

@[simp] theorem quietThm_deviceRequest (m : BitVec 4) (b : Bool) (s : State) : quietThm (deviceRequest m b s) = quietThm s :=
  quietThm_of_quiet (quiet_deviceRequest m b s)

/-- The throttling condition changes THM, and what its mode request changes (R583). -/
@[simp] theorem quietThm_throttleBegin (s : State) : quietThm (throttleBegin s) = quietThm s := by
  unfold throttleBegin
  split
  · rfl
  · split
    · rfl
    · exact (quietThm_deviceRequest _ _ _).trans rfl

theorem drcs_of_quiet {s t : State} (h : quiet s = quiet t) : s.drcs = t.drcs := (congrArg State.drcs h : (quiet s).drcs = (quiet t).drcs)

@[simp] theorem raiseFault_drcs (g : Nat) (c : BitVec 3) (s : State) : (raiseFault g c s).drcs = s.drcs := drcs_of_quiet (quiet_raiseFault g c s)
@[simp] theorem raiseFault_mem (g : Nat) (c : BitVec 3) (s : State) : (raiseFault g c s).mem = s.mem := mem_of_quiet (quiet_raiseFault g c s)

@[simp] theorem throttleBegin_sys (s : State) : (throttleBegin s).sys = s.sys :=
  (congrArg State.sys (quietThm_throttleBegin s) : (quietThm (throttleBegin s)).sys = (quietThm s).sys)
@[simp] theorem throttleBegin_drcs (s : State) : (throttleBegin s).drcs = s.drcs :=
  (congrArg State.drcs (quietThm_throttleBegin s) : (quietThm (throttleBegin s)).drcs = (quietThm s).drcs)
@[simp] theorem throttleBegin_mem (s : State) : (throttleBegin s).mem = s.mem :=
  (congrArg State.mem (quietThm_throttleBegin s) : (quietThm (throttleBegin s)).mem = (quietThm s).mem)

/-- A stack's temperature with TRANGE as it changed, before the faults and the throttling that follow. -/
def tempNoted (n : Nat) (t : BitVec 8) (s : State) : State :=
  let u := modDrc n (fun d => { d with temp := t, trange := trangeOf t }) s
  if (drcOf s n).trange = trangeOf t then u else modDrc n (fun d => { d with irq := setBit d.irq 4 }) u

/-- A temperature's reading changes its controller alone, of the controllers, of memory and of SYS. -/
theorem stackTemp_parts (n : Nat) (t : BitVec 8) (s : State) : (stackTemp n t s).drcs = (tempNoted n t s).drcs ∧
    (stackTemp n t s).mem = s.mem ∧ (stackTemp n t s).sys = s.sys := by
  unfold stackTemp tempNoted
  extract_lets old new u cls v w x y
  rw [throttleBegin_drcs, throttleBegin_mem, throttleBegin_sys]
  by_cases h : old = new
  · have hx : x = u := if_pos h
    rw [hx, if_pos h]
    exact ⟨rfl, rfl, rfl⟩
  · have hx : x = if new = 2 then raiseFault 18 3 w else w := if_neg h
    rw [hx, if_neg h]
    split
    · rw [raiseFault_drcs, raiseFault_mem, raiseFault_sys]
      exact ⟨rfl, rfl, rfl⟩
    · exact ⟨rfl, rfl, rfl⟩

/-- A lost stack: STATE 3, its link down, and a Grave fault; memory stays. -/
theorem stackLost_parts (n : Nat) (w : BitVec 8) (s : State) : (drcOf (stackLost n w s) n).state = 3 ∧ (stackLost n w s).fcr.grave = true ∧
    (stackLost n w s).mem = s.mem ∧ (stackLost n w s).sys = { s.sys with dramUp := clrBit s.sys.dramUp n } := by
  unfold stackLost
  extract_lets u v
  have hv : (drcOf v n).state = 3 := congrArg Drc.state (drcOf_modDrc_same n (fun d => { d with state := 3, margin := w }) s)
  refine ⟨?_, raiseFault_grave 16 _, ?_, ?_⟩
  · rw [drcOf, raiseFault_drcs]; exact hv
  · rw [raiseFault_mem]; rfl
  · rw [raiseFault_sys]; rfl

end Sys2Proof.Machine

/-! # SUPPORT. Clocks and boot (R34, R494, R616 to R621, R634) -/

namespace Sys2Proof.Machine

theorem exec_bootStageComplete (b : BootIn) (s : State) : exec (.bootStageComplete b) s = execBootStageComplete b s := rfl

/-! ## The end of a stage, one equation for each -/

section stages
variable {s : State} (b : BootIn)

theorem bootStage_idle (h : bootRuns s = false) : exec (.bootStageComplete b) s = .next s := by
  simp [exec_bootStageComplete, execBootStageComplete, h]

variable (hr : bootRuns s = true)
include hr

theorem bootStage1_good (hs : s.sys.stage = 1) (hc : clocksGood s = true) :
    exec (.bootStageComplete b) s = .next (nextStage (modSys (fun u => { u with strap := s.pins.bootSel }) s)) := by
  simp [exec_bootStageComplete, execBootStageComplete, hr, hs, hc]

theorem bootStage1_bad (hs : s.sys.stage = 1) (hc : clocksGood s = false) : exec (.bootStageComplete b) s = .next (bootError 1 s) := by
  simp [exec_bootStageComplete, execBootStageComplete, hr, hs, hc]

theorem bootStage2 (hs : s.sys.stage = 2) :
    exec (.bootStageComplete b) s = .next (nextStage (modPwr (fun u => { u with rails := true }) s)) := by
  simp [exec_bootStageComplete, execBootStageComplete, hr, hs]

theorem bootStage3 (hs : s.sys.stage = 3) :
    exec (.bootStageComplete b) s = .next (if b.links then nextStage (linksTrained s) else bootError 4 s) := by
  cases hl : b.links <;> simp [exec_bootStageComplete, execBootStageComplete, hr, hs, hl]

theorem bootStage4_none (hs : s.sys.stage = 4) (hf : firmwareFound b s = none) : exec (.bootStageComplete b) s = .next (bootError 2 s) := by
  simp [exec_bootStageComplete, execBootStageComplete, hr, hs, hf]

theorem bootStage4_found (hs : s.sys.stage = 4) {l : BitVec 16} {a : BitVec 40} (hf : firmwareFound b s = some (l, a)) :
    exec (.bootStageComplete b) s = .next (nextStage (startFirmware b l a s)) := by
  simp [exec_bootStageComplete, execBootStageComplete, hr, hs, hf]

theorem bootStage5 (hs : s.sys.stage = 5) :
    exec (.bootStageComplete b) s = .next (selfTestDone b.fails ((List.range (nStacks s)).foldl (trainStack b) s)) := by
  simp [exec_bootStageComplete, execBootStageComplete, hr, hs]

theorem bootStage6_done (hs : s.sys.stage = 6) (hc : channelsDone s = true) :
    exec (.bootStageComplete b) s = .next (nextStage (inventoryChanged (flushKeysMade (readBoard (readRing s))))) := by
  simp [exec_bootStageComplete, execBootStageComplete, hr, hs, hc]

theorem bootStage6_waits (hs : s.sys.stage = 6) (hc : channelsDone s = false) : exec (.bootStageComplete b) s = .next s := by
  simp [exec_bootStageComplete, execBootStageComplete, hr, hs, hc]

theorem bootStage7 (hs : s.sys.stage = 7) : exec (.bootStageComplete b) s = .next (nextStage (restoreFlush b.unread s)) := by
  simp [exec_bootStageComplete, execBootStageComplete, hr, hs]

theorem bootStage8 (hs : s.sys.stage = 8) (hl : s.store.loading = none) (ha : s.store.act = .none) :
    exec (.bootStageComplete b) s = .next (chooseImage s) := by
  simp [exec_bootStageComplete, execBootStageComplete, hr, hs, hl, ha]

end stages

/-! ## What the stages do -/

/-- Core 0 starts where the firmware copy says (R511). -/
theorem startFirmware_core (b : BootIn) (l : BitVec 16) (a : BitVec 40) (s : State) :
    coreOf (startFirmware b l a s) 0 = startedCore (a.setWidth 64) := by
  have h : (startFirmware b l a s).cores = mmod {} 0 (fun _ => startedCore (a.setWidth 64)) s.cores := rfl
  rw [coreOf, h, mget_mmod_same]

/-- Its watchdog is set to 1,000 ms (R671). -/
theorem startFirmware_period (b : BootIn) (l : BitVec 16) (a : BitVec 40) (s : State) : mget 0 (startFirmware b l a s).watch.wdp 0 = 1000 := by
  have h : (startFirmware b l a s).watch.wdp = (writeWdp 0 1000 s).watch.wdp := rfl
  rw [h, writeWdp_period]

/-- The watcher's software inputs are escalated (R530, R673). -/
theorem startFirmware_esc (b : BootIn) (l : BitVec 16) (a : BitVec 40) (s : State) {k : Nat} (h : 28 ≤ k) (hk : k < 32) :
    bit (startFirmware b l a s).watch.esc k = true := by
  have hbit : bit (0xF0000000 : BitVec 32) k = true := by interval_cases k <;> rfl
  change bit (_ ||| 0xF0000000#32) k = true
  rw [bit, BitVec.getLsbD_or]
  exact Bool.or_eq_true_iff.mpr (.inr hbit)

theorem trainStack_stage (b : BootIn) (s : State) (n : Nat) : (trainStack b s n).sys.stage = s.sys.stage := by
  unfold trainStack
  split
  next w t _ =>
  split
  · obtain ⟨-, -, -, hsys⟩ := stackLost_parts n w s
    rw [hsys]
  · obtain ⟨-, -, hsys⟩ := stackTemp_parts n t (modDrc n (fun d => { d with state := 2, margin := w, init := true }) s)
    rw [hsys]; rfl

theorem trainStacks_stage (b : BootIn) (l : List Nat) (s : State) : (l.foldl (trainStack b) s).sys.stage = s.sys.stage := by
  induction l generalizing s with
  | nil => rfl
  | cons n l ih => rw [List.foldl_cons, ih, trainStack_stage]

/-- R495: a self-test that passes ends stage 5. -/
theorem selfTest_passes {f : BitVec 14} (h : f = 0) (s : State) : (selfTestDone f s).sys.stage = s.sys.stage + 1 ∧
    (selfTestDone f s).sys.bistDone = true ∧ (selfTestDone f s).sys.bistPass = true ∧ (selfTestDone f s).fcr.selfTest = true := by
  subst h
  exact ⟨rfl, rfl, rfl, rfl⟩

/-- R495, R505: one that fails is Grave, and the device is in Hold with error 5. -/
theorem selfTest_fails {f : BitVec 14} (h : f ≠ 0) (s : State) : (selfTestDone f s).sys.bootErr = 5 ∧
    (selfTestDone f s).sys.bistPass = false ∧ (selfTestDone f s).sys.bistFail = f ∧ (selfTestDone f s).fcr.grave = true ∧
    (selfTestDone f s).reel.run = true ∧ (selfTestDone f s).reel.deck = 0 := by
  unfold selfTestDone
  extract_lets t u
  rw [if_neg h]
  have hsys : (bootToHold (bootError 5 (raiseFault 21 4 u))).sys = { u.sys with bootErr := 5, stage := 9 } := by
    rw [← raiseFault_sys 21 4 u]; rfl
  rw [hsys]
  exact ⟨rfl, decide_eq_false h, rfl, raiseFault_grave 21 u, rfl, rfl⟩

/-- R180: with the straps at 11 and no record no image is chosen; the device stays in Hold with its keys unwrapped. -/
theorem chooseImage_hold {s : State} (hs : s.sys.strap = 3) (hg : s.store.graveRecs = 0) (ht : s.store.thermRecs = 0) :
    ∃ x, chooseImage s =
      bootToHold (modStore (fun u => { u with staged := x }) (modCiph (fun u => { u with slots := u.stored }) (readSelect s))) := by
  have hg' : (readSelect s).store.graveRecs = 0 := hg
  have ht' : (readSelect s).store.thermRecs = 0 := ht
  have hbank : bootBank (modCiph (fun u => { u with slots := u.stored }) (readSelect s)) = none := by
    have hs' : (readSelect s).sys.strap = 3 := hs
    simp [bootBank, hs']
  unfold chooseImage
  simp only [hg', ht', ne_eq, not_true_eq_false, decide_false, Bool.or_self, Bool.false_eq_true, if_false, hbank]
  exact ⟨_, rfl⟩

theorem exec_bootRetry {s : State} (h : s.sys.bootErr = 1 ∨ s.sys.bootErr = 3 ∨ s.sys.bootErr = 4) :
    exec .bootRetry s = .next (retryStage s) := by
  change execBootRetry s = _
  rw [execBootRetry, if_pos (by simpa [or_assoc] using h)]

theorem exec_bootRetry_none {s : State} (h : ¬ (s.sys.bootErr = 1 ∨ s.sys.bootErr = 3 ∨ s.sys.bootErr = 4)) :
    exec .bootRetry s = .next s := by
  change execBootRetry s = _
  rw [execBootRetry, if_neg (by simpa [or_assoc] using h)]

/-- R617: before stage 6, with the crystal good, a status frame is sent. -/
theorem statusFrame_sent {s : State} (ha : s.pwr.aon = true) (hs : s.sys.stage.toNat < 6) (hx : s.clk.xtal = false) :
    exec .statusFrame s =
      .next (modMgmt (fun u => { u with frames := u.frames + 1, frame := [sysId s, sysBoot s, clkStat s.clk, s.sys.rstc.setWidth 32] }) s) := by
  have hs' : ¬ 6 ≤ s.sys.stage.toNat := by omega
  have hx' : refBad 0 s.clk = false := hx
  change execStatusFrame s = _
  simp only [execStatusFrame, ha, hs', hx', decide_false, Bool.false_and, Bool.not_true, Bool.or_self, Bool.false_eq_true, if_false]

/-! ## References -/

/-- What CLK_STAT shows of a reference: missing and out of range; the crystal has the first alone (R640). -/
def refFlags (r : Nat) (c : Clk) : Bool × Bool :=
  if r = 0 then (c.xtal, false) else if r = 1 then (c.sysMiss, c.sysRng) else if r = 2 then (c.net0Miss, c.net0Rng) else (c.net1Miss, c.net1Rng)

theorem refFlags_putRef_same (r : Nat) (bad : BitVec 7) (c : Clk) : refFlags r (putRef r (refBits r bad).1 (refBits r bad).2 c) = refBits r bad := by
  unfold refFlags putRef refBits
  split_ifs <;> rfl

theorem refFlags_putRef_good (r : Nat) (c : Clk) : refFlags r (putRef r false false c) = (false, false) := by
  unfold refFlags putRef
  split_ifs <;> rfl

theorem refFlags_putRef_other {q r : Nat} (hq : q < 4) (hr : r < 4) (h : q ≠ r) (m g : Bool) (c : Clk) :
    refFlags q (putRef r m g c) = refFlags q c := by
  have hcase : r = 0 ∨ r = 1 ∨ r = 2 ∨ r = 3 := by omega
  rcases hcase with rfl | rfl | rfl | rfl
  · simp [refFlags, putRef, h]
  · simp [refFlags, putRef, h]
  · simp [refFlags, putRef, h]
  · have hcase : q = 0 ∨ q = 1 ∨ q = 2 := by omega
    rcases hcase with rfl | rfl | rfl
    · rfl
    · rfl
    · rfl

theorem putRef_good (r : Nat) (m g : Bool) (c : Clk) : (putRef r m g c).good = c.good := by
  unfold putRef
  split_ifs <;> rfl

/-- References and their windows, alike in both states. -/
def sameRef (q : Nat) (c d : Clk) : Prop := refFlags q c = refFlags q d ∧ mget 0 c.good q = mget 0 d.good q

@[simp] theorem raiseFault_clk (g : Nat) (c : BitVec 3) (s : State) : (raiseFault g c s).clk = s.clk :=
  (congrArg State.clk (quiet_raiseFault g c s) : (quiet _).clk = (quiet s).clk)

@[simp] theorem watchLatch_clk (n : Nat) (s : State) : (watchLatch n s).clk = s.clk := by
  unfold watchLatch
  extract_lets t ws
  split
  · split
    · rw [raiseFault_clk]; rfl
    · rfl
  · rfl

@[simp] theorem watchAssert_clk (n : Nat) (s : State) : (watchAssert n s).clk = s.clk := by
  unfold watchAssert
  extract_lets t
  split
  · rfl
  · rw [watchLatch_clk]; rfl

/-- The clock block after a reference is found bad (R616), but for the network references' latch. -/
def clkBad (bad : BitVec 7) (r : Nat) (c : Clk) : Clk := { putRef r (refBits r bad).1 (refBits r bad).2 c with good := mset 0 r 0 c.good }

/-- The clock block after a good window (R616). -/
def clkGood (r : Nat) (c : Clk) : Clk :=
  let n := mget 0 c.good r + 1
  let d := { c with good := mset 0 r (min n 2) c.good }
  if n < 2 then d else putRef r false false d

section judged
variable {bad : BitVec 7} {s : State} {r : Nat} (hv : (decide (r = 3) && s.varB) = false)
include hv

theorem judgeRef_bad (hb : ((refBits r bad).1 || (refBits r bad).2) = true) :
    (∃ nb, (judgeRef bad s r).clk = { clkBad bad r s.clk with netBad := nb }) ∧
      (judgeRef bad s r).watch = if r = 1 then (watchAssert 19 s).watch else s.watch := by
  unfold judgeRef
  rw [if_neg (by simp [hv])]
  extract_lets b was c t u v
  rw [if_pos hb]
  have hu : u.clk = clkBad bad r s.clk := by
    change (if r = 1 then watchAssert 19 t else t).clk = _
    split
    · rw [watchAssert_clk]; rfl
    · rfl
  have huw : u.watch = if r = 1 then (watchAssert 19 s).watch else s.watch := by
    change (if r = 1 then watchAssert 19 t else t).watch = _
    split
    · rw [watchAssert_watch, watchAssert_watch]; rfl
    · rfl
  split
  · exact ⟨⟨_, hu⟩, huw⟩
  · split
    · refine ⟨⟨setBit (clkBad bad r s.clk).netBad (r - 2), ?_⟩, ?_⟩
      · rw [raiseFault_clk]
        exact congrArg (fun c : Clk => { c with netBad := setBit c.netBad (r - 2) }) hu
      · rw [raiseFault_watch]
        exact huw
    · exact ⟨⟨_, hu⟩, huw⟩

theorem judgeRef_good (hb : ((refBits r bad).1 || (refBits r bad).2) = false) :
    (judgeRef bad s r).clk = clkGood r s.clk ∧ (r ≠ 1 → (judgeRef bad s r).watch = s.watch) := by
  unfold judgeRef clkGood
  rw [if_neg (by simp [hv])]
  extract_lets b was c t u v w x y
  rw [if_neg (by simp [b, hb])]
  by_cases hw : w < 2
  · rw [if_pos hw, if_pos hw]
    exact ⟨rfl, fun _ => rfl⟩
  · rw [if_neg hw, if_neg hw]
    by_cases h1 : r = 1
    · rw [if_pos h1]; exact ⟨rfl, fun h => absurd h1 h⟩
    · rw [if_neg h1]; exact ⟨rfl, fun _ => rfl⟩

/-- R616: a reference found bad is shown as it was found. -/
theorem judgeRef_shows (hb : ((refBits r bad).1 || (refBits r bad).2) = true) :
    refFlags r (judgeRef bad s r).clk = refBits r bad := by
  obtain ⟨⟨nb, h⟩, -⟩ := judgeRef_bad hv hb
  rw [h, ← refFlags_putRef_same r bad s.clk]
  rfl

/-- R616: after a second good window it is shown good. -/
theorem judgeRef_clears (hb : refBits r bad = (false, false)) (hg : 1 ≤ mget 0 s.clk.good r) :
    refFlags r (judgeRef bad s r).clk = (false, false) := by
  have hn : ¬ mget 0 s.clk.good r + 1 < 2 := by omega
  rw [(judgeRef_good hv (by simp [hb])).1, clkGood, if_neg hn, refFlags_putRef_good]

end judged

theorem clkBad_other (bad : BitVec 7) (c : Clk) {q r : Nat} (hq : q < 4) (hr : r < 4) (h : q ≠ r) (nb : BitVec 2) :
    sameRef q { clkBad bad r c with netBad := nb } c :=
  ⟨(rfl : _ = refFlags q (putRef r _ _ c)).trans (refFlags_putRef_other hq hr h _ _ _), (mget_mset_other 0 0 h c.good :)⟩

theorem clkGood_other (c : Clk) {q r : Nat} (hq : q < 4) (hr : r < 4) (h : q ≠ r) : sameRef q (clkGood r c) c := by
  unfold clkGood sameRef
  extract_lets n d
  split
  · exact ⟨rfl, mget_mset_other _ _ h _⟩
  · rw [refFlags_putRef_other hq hr h, putRef_good]
    exact ⟨rfl, mget_mset_other _ _ h _⟩

/-- A reference's judgement leaves the others, and the watcher unless it is REFCLK_SYS that is judged. -/
theorem judgeRef_other (bad : BitVec 7) (s : State) {r : Nat} (hr : r < 4) :
    (∀ q < 4, q ≠ r → sameRef q (judgeRef bad s r).clk s.clk) ∧ (r ≠ 1 → (judgeRef bad s r).watch = s.watch) := by
  by_cases hv : (decide (r = 3) && s.varB) = true
  · rw [judgeRef, if_pos hv]
    exact ⟨fun _ _ _ => ⟨rfl, rfl⟩, fun _ => rfl⟩
  · have hv := Bool.eq_false_iff.mpr hv
    cases hb : (refBits r bad).1 || (refBits r bad).2
    · obtain ⟨hc, hw⟩ := judgeRef_good hv hb
      rw [hc]
      exact ⟨fun q hq h => clkGood_other _ hq hr h, hw⟩
    · obtain ⟨⟨nb, hc⟩, hw⟩ := judgeRef_bad hv hb
      rw [hc, hw]
      exact ⟨fun q hq h => clkBad_other bad _ hq hr h nb, fun h => if_neg h⟩

/-- A window's judgement: what the four references' judgements come to, one reference at a time. -/
theorem referenceClockCheck_judged (bad : BitVec 7) (s : State) : ∃ t, exec (.referenceClockCheck bad) s = .next t ∧
    ∀ r < 3, ∃ u, sameRef r u.clk s.clk ∧ refFlags r t.clk = refFlags r (judgeRef bad u r).clk ∧
      (r = 1 → t.watch = (judgeRef bad u 1).watch) := by
  obtain ⟨h0, -⟩ := judgeRef_other bad s (show 0 < 4 by omega)
  obtain ⟨h1, -⟩ := judgeRef_other bad (judgeRef bad s 0) (show 1 < 4 by omega)
  obtain ⟨h2, w2⟩ := judgeRef_other bad (judgeRef bad (judgeRef bad s 0) 1) (show 2 < 4 by omega)
  obtain ⟨h3, w3⟩ := judgeRef_other bad (judgeRef bad (judgeRef bad (judgeRef bad s 0) 1) 2) (show 3 < 4 by omega)
  refine ⟨_, rfl, fun r hr => ?_⟩
  have hcase : r = 0 ∨ r = 1 ∨ r = 2 := by omega
  simp only [List.foldl_cons, List.foldl_nil]
  rcases hcase with rfl | rfl | rfl
  · exact ⟨s, ⟨rfl, rfl⟩, by rw [(h3 0 (by omega) (by omega)).1, (h2 0 (by omega) (by omega)).1, (h1 0 (by omega) (by omega)).1], by omega⟩
  · exact ⟨_, h0 1 (by omega) (by omega), by rw [(h3 1 (by omega) (by omega)).1, (h2 1 (by omega) (by omega)).1],
      fun _ => by rw [w3 (by omega), w2 (by omega)]⟩
  · refine ⟨_, ⟨(h1 2 (by omega) (by omega)).1.trans (h0 2 (by omega) (by omega)).1,
      (h1 2 (by omega) (by omega)).2.trans (h0 2 (by omega) (by omega)).2⟩, (h3 2 (by omega) (by omega)).1, by omega⟩

/-- The clauses of R616 for the crystal, REFCLK_SYS and REFCLK_NET0. -/
theorem referenceClockCheck_shows (bad : BitVec 7) (s : State) : ∃ t, exec (.referenceClockCheck bad) s = .next t ∧
    (bit bad 0 = true → t.clk.xtal = true) ∧ (bit bad 1 = true ∨ bit bad 2 = true → t.clk.sysMiss = bit bad 1 ∧ t.clk.sysRng = bit bad 2 ∧
      bit t.watch.stat 19 = true) ∧
    (bit bad 0 = false → 1 ≤ mget 0 s.clk.good 0 → t.clk.xtal = false) ∧
    (bit bad 3 = false → bit bad 4 = false → 1 ≤ mget 0 s.clk.good 2 → t.clk.net0Miss = false ∧ t.clk.net0Rng = false) := by
  obtain ⟨t, ht, href⟩ := referenceClockCheck_judged bad s
  obtain ⟨u0, hu0, h0, -⟩ := href 0 (by omega)
  obtain ⟨u1, hu1, h1, hw⟩ := href 1 (by omega)
  obtain ⟨u2, hu2, h2, -⟩ := href 2 (by omega)
  refine ⟨t, ht, fun hb => ?_, fun hb => ?_, fun hb hg => ?_, fun hb hb' hg => ?_⟩
  · have hflags := h0.trans (judgeRef_shows (by simp) (by simp [refBits, hb]))
    exact (congrArg Prod.fst hflags).trans hb
  · have hbad : ((refBits 1 bad).1 || (refBits 1 bad).2) = true := by simpa [refBits] using hb
    have hflags := h1.trans (judgeRef_shows (by simp) hbad)
    refine ⟨congrArg Prod.fst hflags, congrArg Prod.snd hflags, ?_⟩
    rw [hw rfl, (judgeRef_bad (by simp) hbad).2, if_pos rfl]
    exact watchAssert_stat (by omega) u1
  · have hflags := h0.trans (judgeRef_clears (by simp) (by simp [refBits, hb]) (by rw [hu0.2]; exact hg))
    exact congrArg Prod.fst hflags
  · have hflags := h2.trans (judgeRef_clears (by simp) (by simp [refBits, hb, hb']) (by rw [hu2.2]; exact hg))
    exact ⟨congrArg Prod.fst hflags, congrArg Prod.snd hflags⟩

/-! ## The statement -/

/-- Settles O43: each stage by its equation, the references one at a time. -/
theorem bootAndClocks : Obligations.BootAndClocks := by
  unfold Obligations.BootAndClocks
  intro bad b s ends at_
  refine ⟨bootStage_idle b, ?_, ?_, ?_, ?_, ?_, ?_, ?_, ?_, ?_, ?_, ?_, ?_, ?_, ?_, exec_bootRetry_none, referenceClockCheck_shows bad s, ?_⟩
  · rintro ⟨hr, hs⟩ hc
    refine ⟨_, bootStage1_good b hr hs hc, ?_, rfl⟩
    change { s.sys with stage := s.sys.stage + 1, strap := s.pins.bootSel } = _
    rw [hs]; rfl
  · rintro ⟨hr, hs⟩ hc
    exact ⟨_, bootStage1_bad b hr hs hc, rfl⟩
  · rintro ⟨hr, hs⟩
    exact ⟨_, bootStage2 b hr hs, congrArg (· + 1) hs, rfl⟩
  · rintro ⟨hr, hs⟩ hl
    refine ⟨_, bootStage3 b hr hs, ?_⟩
    rw [if_pos hl]
    exact ⟨congrArg (· + 1) hs, rfl, rfl, rfl, rfl⟩
  · rintro ⟨hr, hs⟩ hl
    refine ⟨_, bootStage3 b hr hs, ?_⟩
    rw [if_neg (by simp [hl])]
    exact ⟨hs, rfl⟩
  · rintro ⟨hr, hs⟩ hf
    exact ⟨_, bootStage4_none b hr hs hf, hs, rfl⟩
  · rintro l a ⟨hr, hs⟩ hf
    refine ⟨_, bootStage4_found b hr hs hf, congrArg (· + 1) hs, rfl, ?_, ?_, ?_, rfl, fun k => startFirmware_esc b l a s, startFirmware_period b l a s⟩
    · exact congrArg CoreSt.running (startFirmware_core b l a s)
    · exact congrArg CoreSt.a0 (startFirmware_core b l a s)
    · exact congrArg CoreSt.priv (startFirmware_core b l a s)
  · rintro ⟨hr, hs⟩ hf
    obtain ⟨hstage, hrest⟩ := selfTest_passes hf ((List.range (nStacks s)).foldl (trainStack b) s)
    refine ⟨_, bootStage5 b hr hs, ?_, hrest⟩
    rw [hstage, trainStacks_stage, hs]; rfl
  · rintro ⟨hr, hs⟩ hf
    exact ⟨_, bootStage5 b hr hs, selfTest_fails hf _⟩
  · rintro ⟨hr, hs⟩ hc
    exact ⟨_, bootStage6_done b hr hs hc, congrArg (· + 1) hs, rfl⟩
  · rintro ⟨hr, hs⟩ hc
    exact bootStage6_waits b hr hs hc
  · rintro ⟨hr, hs⟩ hf
    refine ⟨_, bootStage7 b hr hs, ?_⟩
    rw [restoreFlush, if_pos hf]
    exact ⟨congrArg (· + 1) hs, rfl⟩
  · rintro ⟨hr, hs⟩ hl ha hstrap hg ht
    obtain ⟨x, hx⟩ := chooseImage_hold hstrap hg ht
    refine ⟨_, bootStage8 b hr hs hl ha, ?_⟩
    rw [hx]
    exact ⟨rfl, rfl, rfl, rfl, rfl⟩
  · intro h
    refine ⟨_, exec_bootRetry h, fun hc => ?_, fun hc hs => ?_⟩
    · rw [retryStage, hc]; rfl
    · have h3 : ¬ 3 < s.sys.stage.toNat := by omega
      simp [retryStage, hc, h3, bootError]
  · intro ha hs hx
    exact ⟨_, statusFrame_sent ha hs hx, rfl, rfl, rfl⟩

end Sys2Proof.Machine

/-! # SUPPORT. Slots and grants (R20, R42, R45, R48, R53, R73, R88, R152, R158) -/

namespace Sys2Proof.Machine

/-! ## A die -/

@[simp] theorem dieOf_modDie_same (d : Nat) (f : Die → Die) (s : State) : dieOf (modDie d f s) d = f (dieOf s d) := by
  simp [dieOf, modDie]

theorem dieOf_modDie_other {q d : Nat} (h : q ≠ d) (f : Die → Die) (s : State) : dieOf (modDie d f s) q = dieOf s q := by
  unfold dieOf modDie
  by_cases hc : q / 16 = d / 16
  · have ht : q % 16 ≠ d % 16 := by omega
    rw [hc, chan_modChan_same]
    exact mget_mmod_other _ ht _ _
  · rw [chan_modChan_other _ _ _ hc]

/-! ## Commands that reach their cycle at once -/

theorem exec_slotStart (k : BitVec 16) (i o : BitVec 12) (late : Bool) (w t : BitVec 8) (l : List Loss) (s : State) :
    exec (.slotStart k i o late w t l) s = execSlotStart k i o late w t l s := rfl
theorem exec_earlyGrant (k : BitVec 16) (i o : BitVec 12) (late : Bool) (ecc : Ecc) (s : State) :
    exec (.earlyGrant k i o late ecc) s = execEarlyGrant k i o late ecc s := rfl
theorem exec_slotEnd (k : BitVec 16) (i o : BitVec 12) (l : List Loss) (s : State) : exec (.slotEnd k i o l) s = execSlotEnd k i o l s := rfl

/-- The clock does not go back. -/
theorem advanceTo_reached {t : Nat} {s : State} (h : t ≤ s.reel.core) : advanceTo t s = s := by
  rw [advanceTo, Nat.sub_eq_zero_of_le h]; rfl

@[simp] theorem lossesOf_nil (s : State) : lossesOf [] s = s := by simp [lossesOf]

/-- The grant that a start of replica (i, o) of entry k brings now. -/
def newGrant (e : SlotEntry) (k i o : Nat) (s : State) : Grant :=
  { slot := e, entry := k, i := i, o := o, since := s.reel.core, spindle := if e.kind = 5 then some (slotRes e i o) else none }

/-- SLOT_START at the cycle of the start, with its early grant in place and its resource free: the slot begins. -/
theorem slotStart_begins {k : BitVec 16} {i o : BitVec 12} {e : SlotEntry} {s : State} (hn : slotNamed s k.toNat i.toNat o.toNat = some e)
    (hdue : s.reel.commitDue = false) (hbad : mget false s.reel.ttBad k.toNat = false) (hheld : grantHeld s k.toNat i.toNat o.toNat = none)
    (hcome : comingStart s e k.toNat i.toNat o.toNat = some s.reel.core) (hearly : ensureEarly e k.toNat i.toNat o.toNat s.reel.core s = s)
    (hlate : (earlyHeld s k.toNat i.toNat o.toNat).any (·.late) = false) (hfree : resFree s (newGrant e k.toNat i.toNat o.toNat s) = true) :
    exec (.slotStart k i o false 0 0 []) s =
      .next (beginSlot (newGrant e k.toNat i.toNat o.toNat s) false 0 0 (takeEarly e k.toNat i.toNat o.toNat s)) := by
  have hend : endBefore k.toNat i.toNat o.toNat s = s := by rw [endBefore, hheld]
  have hfree' : resFree (takeEarly e k.toNat i.toNat o.toNat s) (newGrant e k.toNat i.toNat o.toNat s) = true := hfree
  unfold newGrant at hfree' ⊢
  simp only [exec_slotStart, execSlotStart, hn, hcome, hearly, advanceTo_reached (Nat.le_refl _), settle_idle s hdue, hend, hdue, hbad,
    hlate, hfree', ne_eq, not_true_eq_false, decide_false, Bool.or_self, Bool.false_eq_true, if_false, if_true, lossesOf_nil]

/-- The state in which the work of a slot begins: its early grant gone, its grant held. -/
def granted (e : SlotEntry) (g : Grant) (s : State) : State :=
  modReel (fun u => { u with grants := u.grants ++ [g] }) (takeEarly e g.entry g.i g.o s)

/-- A slot that is no transfer begins with its grant, and no housekeeping run. -/
theorem noteHouse_other {g : Grant} (h : g.slot.typ ≠ 5) (s : State) : noteHouse g s = s := by
  simp [noteHouse, houseSlot, h]

/-! ## An issue slot with nothing to deal with -/

/-- A test that picks less leaves an RXQ whole that a wider one leaves whole. -/
theorem takeItems_none {f g : BitVec 256 → Bool} (h : ∀ x, f x = true → g x = true) (k : Nat) (l : List (BitVec 256))
    (hg : (takeItems g k l).2 = []) : (takeItems f k l).2 = [] := by
  induction k generalizing l with
  | zero => rfl
  | succ k ih =>
    cases l with
    | nil => rfl
    | cons x l =>
      simp only [takeItems] at hg ⊢
      by_cases hgx : g x = true
      · rw [if_pos hgx] at hg; simp at hg
      · have hfx : ¬ f x = true := fun hf => hgx (h x hf)
        rw [if_neg hgx] at hg
        rw [if_neg hfx]
        exact ih _ hg

section idle
variable {s : State} (n owner : Nat)

theorem endAborted_idle (h : s.tables.cmds = []) : endAborted n owner s = s := by simp [endAborted, h]

theorem runCopies_idle (h : s.tables.cmds = []) : runCopies n owner s = s := by simp [runCopies, h]

theorem recordStart_idle (h : ∀ x ∈ s.xpt.conns, x.2.recs = []) : recordStart owner s = s := by
  have hnone : s.xpt.conns.filter (fun e => decide (e.2.recs ≠ []) && decide (connClass s e.1 = owner)) = [] :=
    List.filter_eq_nil_iff.mpr (fun x hx => by simp [h x hx])
  rw [recordStart, hnone]
  rfl

/-- Neither write data (kind 2) nor a retransmit request (kind 3) waits in the spindle's RXQ. -/
def rxqIdle (s : State) (n : Nat) : Prop :=
  (takeItems (fun h => h.setWidth 8 = 2#8 || h.setWidth 8 = 3#8) (spn s n).rxq.length (spn s n).rxq).2 = []

theorem takeData_idle (f : BitVec 16 → Bool) (h : rxqIdle s n) : takeData f n s = s := by
  have hnone : (takeItems (fun h => h.setWidth 8 = 2#8 && f (rxConn h)) (spn s n).rxq.length (spn s n).rxq).2 = [] :=
    takeItems_none (fun x hx => by simp only [Bool.and_eq_true] at hx; simp [hx.1]) _ _ h
  rw [takeData, if_pos hnone]

theorem runRegens_idle (h : rxqIdle s n) : runRegens n owner s = s := by
  have hnone : (takeItems (fun h => h.setWidth 8 = 3#8 && connClass s (rxConn h).toNat = owner) (spn s n).rxq.length (spn s n).rxq).2 = [] :=
    takeItems_none (fun x hx => by simp only [Bool.and_eq_true] at hx; simp [hx.1]) _ _ h
  rw [runRegens, if_pos hnone]

theorem issueWork_idle (hi : s.piers.items = []) (h : rxqIdle s n) : issueWork n owner s = s := by
  simp [issueWork, hi, runRegens_idle n owner h]

theorem postQueue_idle (h : s.piers.ops = []) : postQueue owner s = modPiers (fun u => { u with ops := [] }) s := by
  simp [postQueue, modPiers, h]

end idle

/-- An issue slot with nothing to deal with reads controller records at the most, and changes no other part of the engines (R53, R65). -/
theorem issueStart_idle {g : Grant} {s : State} (hc : s.tables.cmds = []) (ho : s.piers.ops = []) (hi : s.piers.items = [])
    (hq : rxqIdle s (grantRes g)) (hr : ∀ x ∈ s.xpt.conns, x.2.recs = []) :
    (issueStart g s).reel = s.reel ∧ (issueStart g s).spindles = s.spindles ∧ (issueStart g s).piers.booked = s.piers.booked ∧
      (issueStart g s).mem = s.mem := by
  unfold issueStart
  split
  · exact ⟨rfl, rfl, rfl, rfl⟩
  · extract_lets mine t u v
    have ht : t.tables.cmds = [] := by simp [t, hc, putCmds]
    have hu : u = readRecords g.slot.owner t := endAborted_idle _ _ ht
    have hrec : recordStart g.slot.owner u = u := recordStart_idle _ (by rw [hu]; exact hr)
    have hv : v = u := by
      change takeData _ _ (recordStart g.slot.owner u) = u
      rw [hrec, takeData_idle _ _ (by rw [hu]; exact hq)]
    rw [hv, postQueue_idle _ (by rw [hu]; exact ho), issueWork_idle _ _ (by rw [hu]; exact hi) (by rw [hu]; exact hq),
      runCopies_idle _ _ (by rw [hu]; exact ht), hu]
    exact ⟨rfl, rfl, rfl, rfl⟩

/-! ## A read window that suspends, a program slice -/

theorem dieStart_window2 {g : Grant} (h : g.slot.typ = 2) (s : State) : dieStart g false s = windowStart 2 (grantRes g) g.entry s := by
  simp [dieStart, h]

theorem dieStart_slice3 {g : Grant} (h : g.slot.typ = 3) (s : State) : dieStart g false s = sliceStart g (grantRes g) s := by
  simp [dieStart, h]

/-- R45, R48: at a suspend point the busy die's operation is suspended once more for the posted reads, and its plan gains the resume penalty. -/
theorem windowStart_suspends {s : State} {d : Nat} {op : DieOp} (k : Nat) (hop : (dieOf s d).op = some op) (hs : op.suspended = false)
    (hi : toIssue s d ≠ []) (hl : op.suspends < suspendLimit s d op.desc.fn) :
    windowStart 2 d k s = modDie d (fun x => { x with op := some { op with
      suspends := op.suspends + 1, suspended := true, left := op.left + nsCycles (runFig s d).resumeNs } }) (planPenalty d s) := by
  have hop' : (dieOf (planPenalty d s) d).op = some { op with left := op.left + nsCycles (runFig s d).resumeNs } := by
    rw [planPenalty, dieOf_modDie_same]
    simp [hop]
  have hi' : ¬ toIssue (planPenalty d s) d = [] := hi
  have hl' : ¬ suspendLimit (planPenalty d s) d op.desc.fn ≤ op.suspends := by
    have hsame : suspendLimit (planPenalty d s) d op.desc.fn = suspendLimit s d op.desc.fn := by
      simp [suspendLimit, planPenalty]
    omega
  simp only [windowStart, if_true, hop', hs, Bool.false_eq_true, if_false, hi', suspendFor, hl']

/-- R48, R391: a program slice starts the program that waits for it, its data being there, on a free die. -/
theorem sliceStart_issues {s : State} {g : Grant} {d : Nat} {x : DieDesc} (ht : g.slot.typ = 3) (h0 : s.reel.deck ≠ 0) (hE : s.reel.deck ≠ 0xE)
    (hops : s.piers.ops = [x]) (hfn : x.fn = 1) (hw : waitsFor s g d x = true) (hlost : isLost s d = false) (hop : (dieOf s d).op = none)
    (hdata : dataHere s x = true) : sliceStart g d s = issueOp x (dropOp x s) := by
  have hdeck : (decide (s.reel.deck = 0) || decide (s.reel.deck = 0xE)) = false := by rw [decide_eq_false h0, decide_eq_false hE]; rfl
  rw [sliceStart, hdeck]
  simp [ht, hops, hfn, hw, hlost, hop, hdata]

theorem waitsFor_die {s : State} {g : Grant} {d : Nat} {x : DieDesc} (h : waitsFor s g d x = true) : x.die = d := by
  simp only [waitsFor, waitsIn, Bool.and_eq_true, decide_eq_true_eq] at h
  exact h.1

/-! ## Early grants and their crossing queue -/

theorem crossingOf_die {e : SlotEntry} (h : e.kind = 1) : crossingOf e = some (0, 72) := by simp [crossingOf, h]
theorem crossingOf_spindle {e : SlotEntry} (h : e.kind = 5) : crossingOf e = none := by simp [crossingOf, h]

/-- An entry that finds room crosses (R158). -/
theorem crossingFull_room {c : Nat} {s : State} (h : crossingLoad s 0 c s.reel.core < 320) : crossingFull 0 c s.reel.core s = (false, s) := by
  have h' : crossingLoad s 0 c s.reel.core < crossingDepth 0 := h
  rw [crossingFull, if_pos h']

theorem pushRead_room {c : Nat} (k : Nat) {s : State} (b : Booking) (h : crossingLoad s 0 c s.reel.core < 320) : pushRead c k s b = crossIn c s := by
  simp [pushRead, crossingFull_room h]

theorem pushDesc_room {c : Nat} (k : Nat) {s : State} (x : DieDesc) (h : crossingLoad s 0 c s.reel.core < 320) : pushDesc c k s x = crossIn c s := by
  simp [pushDesc, crossingFull_room h]

theorem crossIn_count (c : Nat) (s : State) : mget 0 (crossIn c s).reel.xq (crossingKey 0 c) = mget 0 s.reel.xq (crossingKey 0 c) + 1 := by
  have h : (crossIn c s).reel.xq = mmod 0 (crossingKey 0 c) (· + 1) s.reel.xq := rfl
  rw [h, mget_mmod_same]

theorem crossIn_load (c : Nat) (s : State) : crossingLoad (crossIn c s) 0 c (crossIn c s).reel.core = crossingLoad s 0 c s.reel.core + 1 := by
  rw [crossingLoad, crossIn_count]
  exact Nat.add_right_comm _ _ _

/-- `n` entries have crossed to channel `c` since `s`: its queue holds as many more, and nothing else that a grant looks at has changed. -/
def crossed (c n : Nat) (s t : State) : Prop :=
  mget 0 t.reel.xq (crossingKey 0 c) = mget 0 s.reel.xq (crossingKey 0 c) + n ∧
    crossingLoad t 0 c t.reel.core = crossingLoad s 0 c s.reel.core + n ∧ t.reel.vcount = s.reel.vcount ∧ t.piers = s.piers

/-- Entries that all find room cross one after another. -/
theorem crossed_foldl {β : Type} {c : Nat} {push : State → β → State}
    (hp : ∀ s b, crossingLoad s 0 c s.reel.core < 320 → push s b = crossIn c s) (l : List β) (s : State)
    (h : crossingLoad s 0 c s.reel.core + l.length ≤ 320) : crossed c l.length s (l.foldl push s) := by
  induction l generalizing s with
  | nil => exact ⟨rfl, rfl, rfl, rfl⟩
  | cons b l ih =>
    rw [List.length_cons] at h ⊢
    rw [List.foldl_cons, hp s b (by omega)]
    obtain ⟨hcount, hload, hv, hpiers⟩ := ih (crossIn c s) (by rw [crossIn_load]; omega)
    rw [crossIn_count] at hcount
    rw [crossIn_load] at hload
    exact ⟨by omega, by omega, hv, hpiers⟩

/-- The entries of a die's early grant are pushed into the queue of channel `c`: its reads, then the operations that wait for its slot. -/
def entriesPushed (c at_ : Nat) (g : Grant) (s : State) : State :=
  (earlyOps s g at_).foldl (pushDesc c g.entry) ((earlyReads s g.entry g.i g.o at_).foldl (pushRead c g.entry) s)

/-- Where there is room for all of them they all cross (R20, R158). -/
theorem entriesPushed_crossed {c at_ : Nat} {g : Grant} {s : State} (hk : g.slot.kind = 1)
    (h : crossingLoad s 0 c s.reel.core + earlyEntries s g at_ ≤ 320) : crossed c (earlyEntries s g at_) s (entriesPushed c at_ g s) := by
  rw [earlyEntries, if_pos hk] at h ⊢
  obtain ⟨hcount, hload, hv, hpiers⟩ := crossed_foldl (c := c) (fun _ b => pushRead_room g.entry b) (earlyReads s g.entry g.i g.o at_) s (by omega)
  obtain ⟨hcount', hload', hv', hpiers'⟩ := crossed_foldl (c := c) (fun _ x => pushDesc_room g.entry x) (earlyOps s g at_) _ (by rw [hload]; omega)
  exact ⟨by rw [entriesPushed, hcount', hcount]; omega, by rw [entriesPushed, hload', hload]; omega, hv'.trans hv, hpiers'.trans hpiers⟩

/-- EARLY_GRANT of a die's slot, in the cycle 72 before its start: the grant is issued with the slot's entries. -/
theorem earlyGrant_issues {k : BitVec 16} {i o : BitVec 12} {e : SlotEntry} {s : State} (late : Bool)
    (hn : slotNamed s k.toNat i.toNat o.toNat = some e) (hbad : mget false s.reel.ttBad k.toNat = false) (hk : e.kind = 1)
    (hstart : startFrom s e i.toNat o.toNat (s.reel.core + 72) = some (s.reel.core + 72)) :
    exec (.earlyGrant k i o late .ok) s = .next (grantEarly e k.toNat i.toNat o.toNat (s.reel.core + 72) late 0 s) := by
  simp only [exec_earlyGrant, execEarlyGrant, hn, crossingOf_die hk, hstart, Nat.add_sub_cancel, advanceTo_reached (Nat.le_refl _), readEntry, hbad,
    ne_eq, not_true_eq_false, if_false, Bool.false_eq_true]

/-- The early grant of a die's slot, once its entries have been pushed. -/
def earlyNoted (c at_ : Nat) (g : Grant) (s : State) : State :=
  let n := mget 0 (entriesPushed c at_ g s).reel.xq (crossingKey 0 c) - mget 0 s.reel.xq (crossingKey 0 c)
  modReel (fun u => { u with early := u.early.filter (fun y => !isGrant g.entry g.i g.o y) ++ [{ g with pushed := n }] }) (entriesPushed c at_ g s)

theorem grantEarly_die {e : SlotEntry} (hk : e.kind = 1) (k i o at_ : Nat) (late : Bool) (s : State) : grantEarly e k i o at_ late 0 s =
    earlyNoted (slotRes e i o / 16) at_ { slot := e, entry := k, i := i, o := o, since := s.reel.core, late := late } s := by
  have hcn : crossingNumber e (slotRes e i o) = slotRes e i o / 16 := by rw [crossingNumber, if_pos hk]
  simp only [grantEarly, hcn, hk, if_true]
  rfl

/-- What it leaves: its entries in the queue of the channel, and itself, with their number, among the early grants. -/
theorem earlyNoted_crosses {c at_ : Nat} {g : Grant} {s : State} (hk : g.slot.kind = 1)
    (h : crossingLoad s 0 c s.reel.core + earlyEntries s g at_ ≤ 320) :
    mget 0 (earlyNoted c at_ g s).reel.xq (crossingKey 0 c) = mget 0 s.reel.xq (crossingKey 0 c) + earlyEntries s g at_ ∧
      (∃ y ∈ (earlyNoted c at_ g s).reel.early, isGrant g.entry g.i g.o y = true ∧ y.pushed = earlyEntries s g at_ ∧ y.late = g.late) ∧
      (earlyNoted c at_ g s).reel.vcount = s.reel.vcount ∧ (earlyNoted c at_ g s).piers = s.piers := by
  obtain ⟨hcount, -, hv, hpiers⟩ := entriesPushed_crossed hk h
  refine ⟨hcount, ⟨_, List.mem_append_right _ (List.mem_singleton.mpr rfl), ?_, ?_, rfl⟩, hv, hpiers⟩
  · simp [isGrant]
  · exact (congrArg (· - _) hcount).trans (Nat.add_sub_cancel_left _ _)

/-! ## A slot's end -/

/-- A grant held is the first of its occurrence. -/
theorem find_sameSlot {k i o : Nat} {h : Grant} {l : List Grant} (hh : l.find? (isGrant k i o) = some h) : l.find? (sameSlot h) = some h := by
  have hkey : isGrant k i o h = true := List.find?_some hh
  have hsame : ∀ x, sameSlot h x = true → isGrant k i o x = true := by
    intro x hx
    simp only [sameSlot, isGrant, Bool.and_eq_true, decide_eq_true_eq] at hx hkey ⊢
    obtain ⟨⟨⟨hk, hi⟩, ho⟩, -⟩ := hx
    obtain ⟨⟨hk', hi'⟩, ho'⟩ := hkey
    exact ⟨⟨hk.trans hk', hi.trans hi'⟩, ho.trans ho'⟩
  rw [List.find?_eq_some_iff_append] at hh ⊢
  obtain ⟨-, as, bs, rfl, has⟩ := hh
  refine ⟨by simp [sameSlot, isGrant], as, bs, rfl, fun a ha => ?_⟩
  have := has a ha
  cases hs : sameSlot h a
  · rfl
  · rw [hsame a hs] at this; simp at this

/-- SLOT_END of an issue slot whose end has been reached drops its grant. -/
theorem slotEnd_issue {k : BitVec 16} {i o : BitVec 12} {h : Grant} {s : State} (hdue : s.reel.commitDue = false)
    (hh : grantHeld s k.toNat i.toNat o.toNat = some h) (ht : h.slot.typ = 8) (hend : h.since + h.slot.len ≤ s.reel.core) :
    exec (.slotEnd k i o []) s = .next (dropGrant h s) := by
  have hslot : endSlot h s = dropGrant h s := by simp [endSlot, ht]
  have hs : slotEnd h s = dropGrant h s := by
    rw [slotEnd, advanceTo_reached hend, settle_idle s hdue]
    simp only [find_sameSlot hh, hslot]
  simp only [exec_slotEnd, execSlotEnd, hh, hs, lossesOf_nil]

/-! ## The statement -/

/-- A slot within CORE needs no early grant: its start is the one that comes now. -/
theorem comingStart_core {e : SlotEntry} {s : State} {k i o : Nat} (hc : crossingOf e = none) (hheld : grantHeld s k i o = none)
    (hstart : startFrom s e i o s.reel.core = some s.reel.core) : comingStart s e k i o = some s.reel.core := by
  have hnone : s.reel.grants.any (fun g => isGrant k i o g && decide (g.since = s.reel.core)) = false := by
    rw [List.any_eq_false]
    intro g hg
    have := List.find?_eq_none.mp hheld g hg
    simp [this]
  simp [comingStart, hc, nextBegin, hnone, hstart]

/-- A slot of a die whose grant was issued 72 cycles ago starts now. -/
theorem comingStart_die {e : SlotEntry} {s : State} {k i o : Nat} {y : Grant} (hk : e.kind = 1) (hy : s.reel.early.find? (isGrant k i o) = some y)
    (ht : y.since + 72 = s.reel.core) :
    comingStart s e k i o = some s.reel.core ∧ ensureEarly e k i o s.reel.core s = s := by
  have hy' : earlyHeld s k i o = some y := hy
  simp [comingStart, ensureEarly, crossingOf_die hk, hy', ht]

/-- What a slot that begins on time does, its grant held: the work of its kind (R42, R53, R56). -/
theorem beginSlot_onTime {g : Grant} (hl : g.late = false) (ht : g.slot.typ ≠ 5) (w t : BitVec 8) (s : State) :
    (g.slot.kind = 1 → g.slot.owner ≠ 0x1FF → beginSlot g false w t s = dieStart g false (modReel (fun u => { u with grants := u.grants ++ [g] }) s)) ∧
    (g.slot.kind = 5 → g.slot.typ = 8 → beginSlot g false w t s = if g.slot.owner = 0x1FF then modReel (fun u => { u with grants := u.grants ++ [g] }) s
      else issueStart g (modReel (fun u => { u with grants := u.grants ++ [g] }) s)) := by
  have hg : { g with late := false } = g := by rw [← hl]
  unfold beginSlot
  simp only [hg, noteHouse_other ht, Bool.false_eq_true, if_false]
  refine ⟨fun hk ho => ?_, fun hk h8 => ?_⟩
  · rw [if_neg ho, if_pos hk]
  · rw [if_neg (show ¬ g.slot.kind = 1 by omega), if_neg (show ¬ g.slot.typ = 6 by omega), if_pos h8]

/-- A slot of a die begins on time with the work of the die's slot. -/
theorem slotStart_die {k : BitVec 16} {i o : BitVec 12} {e : SlotEntry} {s : State} {y : Grant} (hn : slotNamed s k.toNat i.toNat o.toNat = some e)
    (hdue : s.reel.commitDue = false) (hbad : mget false s.reel.ttBad k.toNat = false) (hheld : grantHeld s k.toNat i.toNat o.toNat = none)
    (hfree : resFree s (newGrant e k.toNat i.toNat o.toNat s) = true) (hk : e.kind = 1) (ht : e.typ ≠ 5) (howner : e.owner ≠ 0x1FF)
    (hy : s.reel.early.find? (isGrant k.toNat i.toNat o.toNat) = some y) (hsince : y.since + 72 = s.reel.core) (hlate : y.late = false) :
    exec (.slotStart k i o false 0 0 []) s = .next (dieStart (newGrant e k.toNat i.toNat o.toNat s) false
      (granted e (newGrant e k.toNat i.toNat o.toNat s) s)) := by
  obtain ⟨hcome, hearly⟩ := comingStart_die hk hy hsince
  have hy' : earlyHeld s k.toNat i.toNat o.toNat = some y := hy
  rw [slotStart_begins hn hdue hbad hheld hcome hearly (by simp [hy', hlate]) hfree]
  exact congrArg _ ((beginSlot_onTime (g := newGrant e k.toNat i.toNat o.toNat s) rfl ht 0 0 _).1 hk howner)

/-- Settles O30: a start by what its slot's kind does once its grant is held, an early grant by its entries' crossings, an end by its grant. -/
theorem slotsAndGrants : Obligations.SlotsAndGrants := by
  unfold Obligations.SlotsAndGrants
  intro k i o late e s hn hdue hbad d g early fresh
  have hres : grantRes g = d := rfl
  refine ⟨?_, ?_, ?_, ?_, ?_⟩
  · rintro ⟨hheld, hstart, hfree⟩ hearly ht hk hc ho hi hq hr
    have hcross := crossingOf_spindle hk
    have hnone : earlyHeld s k.toNat i.toNat o.toNat = none := hearly
    refine ⟨_, slotStart_begins hn hdue hbad hheld (comingStart_core hcross hheld hstart) (by simp [ensureEarly, hcross]) (by simp [hnone]) hfree, ?_⟩
    have hg : newGrant e k.toNat i.toNat o.toNat s = { g with spindle := some d } := by simp [newGrant, g, hk, d, slotRes]
    rw [(beginSlot_onTime (g := newGrant e k.toNat i.toNat o.toNat s) rfl (show e.typ ≠ 5 by omega) 0 0 _).2 hk ht, hg]
    split
    · exact ⟨rfl, rfl, rfl, rfl, rfl⟩
    · obtain ⟨hreel, hspn, hbooked, hmem⟩ := issueStart_idle (g := { g with spindle := some d })
        (s := granted e { g with spindle := some d } s) hc ho hi hq hr
      exact ⟨(congrArg Reel.grants hreel).trans rfl, hspn, hbooked, hmem, (congrArg Reel.core hreel).trans rfl⟩
  · rintro y op ⟨hheld, -, hfree⟩ hearly hsince hlate ht hk howner hop hs hi hl
    have hg : newGrant e k.toNat i.toNat o.toNat s = g := by simp [newGrant, g, hk]
    refine ⟨_, slotStart_die hn hdue hbad hheld (by rw [hg]; exact hfree) hk (by omega) howner hearly hsince hlate, ?_⟩
    rw [hg, dieStart_window2 ht, hres, windowStart_suspends (s := granted e g s) (d := d) (op := op) g.entry hop hs hi hl]
    refine ⟨rfl, ?_, fun q hq => ?_, rfl, rfl⟩
    · rw [dieOf_modDie_same]; rfl
    · rw [dieOf_modDie_other hq, planPenalty, dieOf_modDie_other hq]; rfl
  · rintro y x ⟨hheld, -, hfree⟩ hearly hsince hlate ht hk howner h0 hE hops hfn hw hlost hop hdata
    have hg : newGrant e k.toNat i.toNat o.toNat s = g := by simp [newGrant, g, hk]
    refine ⟨_, slotStart_die hn hdue hbad hheld (by rw [hg]; exact hfree) hk (by omega) howner hearly hsince hlate, ?_⟩
    rw [hg, dieStart_slice3 ht, hres, sliceStart_issues (s := granted e g s) (d := d) ht h0 hE hops hfn hw hlost hop hdata]
    have hdie : x.die = d := waitsFor_die hw
    refine ⟨rfl, ?_, ?_, fun q hq => ?_⟩
    · rw [issueOp, hdie, dieOf_modDie_same]; rfl
    · change s.piers.ops.erase x = []
      rw [hops]; simp
    · rw [issueOp, hdie, dieOf_modDie_other hq]; rfl
  · intro n hk hstart hroom
    refine ⟨_, earlyGrant_issues late hn hbad hk hstart, ?_⟩
    rw [grantEarly_die hk]
    exact earlyNoted_crosses hk hroom
  · intro h hh ht hend
    exact ⟨_, slotEnd_issue hdue hh ht hend, rfl, rfl, rfl, rfl⟩

end Sys2Proof.Machine

/-! # SUPPORT. DRAM controllers (R32, R464 to R476, R481 to R488) -/

namespace Sys2Proof.Machine

theorem exec_refreshPeriodStart (n : BitVec 2) (s : State) : exec (.refreshPeriodStart n) s = execRefreshPeriodStart n s := rfl
theorem exec_selfTimedRepair (n : BitVec 2) (b : Bool) (w t : BitVec 8) (s : State) :
    exec (.selfTimedRepair n b w t) s = execSelfTimedRepair n b w t s := rfl
theorem exec_mergeDrain (n : BitVec 2) (ecc : Ecc) (s : State) : exec (.mergeDrain n ecc) s = execMergeDrain n ecc s := rfl
theorem exec_eccWriteBack (n : BitVec 2) (ecc : Ecc) (s : State) : exec (.eccWriteBack n ecc) s = execEccWriteBack n ecc s := rfl

theorem drcRuns_of_state {s : State} {n : Nat} (h : (drcOf s n).state = 2) : drcRuns s n = true := decide_eq_true h
theorem drcRuns_false {s : State} {n : Nat} (h : (drcOf s n).state ≠ 2) : drcRuns s n = false := decide_eq_false h

/-! ## Refresh, repair and retraining -/

/-- A bank with its counting table cleared (R475). -/
def cleared (b : Bank) : Bank := { b with rows := [] }

/-- A bank after a repair window's neighbour refresh (R476). -/
def refreshed (b : Bank) : Bank := { b with queue := b.queue.drop 1 }

theorem drcOf_refreshStart (n : Nat) (s : State) :
    drcOf (refreshStart n s) n = { drcOf s n with banks := mmapv {} cleared (drcOf s n).banks } := drcOf_modDrc_same _ _ _

theorem drcOf_refreshStart_other {j n : Nat} (h : j ≠ n) (s : State) : drcOf (refreshStart n s) j = drcOf s j := drcOf_modDrc_other _ _ _ h

theorem refreshPeriodStart_runs {n : BitVec 2} {s : State} (h : (drcOf s n.toNat).state = 2) :
    exec (.refreshPeriodStart n) s = .next (refreshStart n.toNat (modDrc n.toNat (fun d => { d with row := 0 }) s)) := by
  rw [exec_refreshPeriodStart, execRefreshPeriodStart, if_pos (drcRuns_of_state h)]

theorem refreshPeriodStart_idle {n : BitVec 2} {s : State} (h : (drcOf s n.toNat).state ≠ 2) : exec (.refreshPeriodStart n) s = .next s := by
  rw [exec_refreshPeriodStart, execRefreshPeriodStart, if_neg (by simp [drcRuns_false h])]

/-- The next six rows are refreshed, and each bank's first queued neighbour (R470, R476). -/
def rowsRepaired (n : Nat) (s : State) : State :=
  modDrc n (fun d => { d with row := ((drcOf s n).row + 6) % 12288, banks := mmapv {} refreshed d.banks }) s

theorem repairTurn_eq (n : Nat) (s : State) :
    repairTurn n s = if 12288 ≤ (drcOf s n).row + 6 then refreshStart n (rowsRepaired n s) else rowsRepaired n s := rfl

theorem drcOf_rowsRepaired (n : Nat) (s : State) : drcOf (rowsRepaired n s) n =
    { drcOf s n with row := ((drcOf s n).row + 6) % 12288, banks := mmapv {} refreshed (drcOf s n).banks } := drcOf_modDrc_same _ _ _

/-- R470, R476: a repair window is six rows and one queued neighbour of each bank, of its own controller. -/
theorem repairTurn_window (n : Nat) (s : State) : (drcOf (repairTurn n s) n).row = ((drcOf s n).row + 6) % 12288 ∧
    (∀ j, j ≠ n → drcOf (repairTurn n s) j = drcOf s j) ∧ (repairTurn n s).mem = s.mem ∧
    (mwf {} (drcOf s n).banks = true → ∀ k, (mget {} (drcOf (repairTurn n s) n).banks k).queue = (mget {} (drcOf s n).banks k).queue.drop 1) := by
  have hother : ∀ j, j ≠ n → drcOf (rowsRepaired n s) j = drcOf s j := fun j hj => drcOf_modDrc_other _ _ _ hj
  have hbank : mwf {} (drcOf s n).banks = true → ∀ k, mget {} (mmapv {} refreshed (drcOf s n).banks) k = refreshed (mget {} (drcOf s n).banks k) :=
    fun hwf => mget_mmapv {} rfl ((mwf_iff_keysRise _ _).mp hwf).1
  rw [repairTurn_eq]
  split
  · refine ⟨?_, fun j hj => (drcOf_refreshStart_other hj _).trans (hother j hj), rfl, fun hwf k => ?_⟩
    · rw [drcOf_refreshStart, drcOf_rowsRepaired]
    · rw [drcOf_refreshStart, drcOf_rowsRepaired]
      change (mget {} (mmapv {} cleared (mmapv {} refreshed (drcOf s n).banks)) k).queue = _
      rw [mget_mmapv {} rfl ((mwf_iff_keysRise _ _).mp (mwf_mmapv {} refreshed hwf)).1, hbank hwf]
      rfl
  · refine ⟨?_, hother, rfl, fun hwf k => ?_⟩
    · rw [drcOf_rowsRepaired]
    · rw [drcOf_rowsRepaired]
      exact congrArg Bank.queue (hbank hwf k)

theorem selfTimedRepair_window {n : BitVec 2} {s : State} (hrun : s.reel.run = false) (h : (drcOf s n.toNat).state = 2) (w t : BitVec 8) :
    exec (.selfTimedRepair n false w t) s = .next (repairTurn n.toNat s) := by
  simp [exec_selfTimedRepair, execSelfTimedRepair, hrun, drcRuns_of_state h]

theorem selfTimedRepair_training {n : BitVec 2} {s : State} (hrun : s.reel.run = false) (h : (drcOf s n.toNat).state = 2) (w t : BitVec 8) :
    exec (.selfTimedRepair n true w t) s = .next (retrain n.toNat w t s) := by
  simp [exec_selfTimedRepair, execSelfTimedRepair, hrun, drcRuns_of_state h]

theorem selfTimedRepair_running {s : State} (hrun : s.reel.run = true) (n : BitVec 2) (b : Bool) (w t : BitVec 8) :
    exec (.selfTimedRepair n b w t) s = .next s := by
  simp [exec_selfTimedRepair, execSelfTimedRepair, hrun]

/-- A stack's temperature changes TEMP, TRANGE and at most the interrupt bits of its controller. -/
theorem drcOf_tempNoted (n : Nat) (t : BitVec 8) (s : State) :
    ∃ q, drcOf (tempNoted n t s) n = { drcOf s n with temp := t, trange := trangeOf t, irq := q } := by
  by_cases h : (drcOf s n).trange = trangeOf t
  · rw [tempNoted, if_pos h, drcOf_modDrc_same]
    exact ⟨_, rfl⟩
  · rw [tempNoted, if_neg h, drcOf_modDrc_same, drcOf_modDrc_same]
    exact ⟨_, rfl⟩

theorem drcOf_stackTemp (n : Nat) (t : BitVec 8) (s : State) :
    ∃ q, drcOf (stackTemp n t s) n = { drcOf s n with temp := t, trange := trangeOf t, irq := q } := by
  rw [drcOf, (stackTemp_parts n t s).1]
  exact drcOf_tempNoted n t s

/-- The controller after a retraining that found a window and a temperature, but for the word on a narrow one (R472). -/
def retrained (n : Nat) (w t : BitVec 8) (s : State) : State := stackTemp n t (modDrc n (fun d => { d with margin := w }) s)

theorem drcOf_retrained (n : Nat) (w t : BitVec 8) (s : State) :
    ∃ q, drcOf (retrained n w t s) n = { drcOf s n with margin := w, temp := t, trange := trangeOf t, irq := q } := by
  obtain ⟨q, hq⟩ := drcOf_stackTemp n t (modDrc n (fun d => { d with margin := w }) s)
  refine ⟨q, ?_⟩
  rw [retrained, hq, drcOf_modDrc_same]

@[simp] theorem retrained_mem (n : Nat) (w t : BitVec 8) (s : State) : (retrained n w t s).mem = s.mem := (stackTemp_parts n t _).2.1

/-- DRC_IRQ.MARGIN with its event and its fault (R472, R559). -/
def marginNoted (n : Nat) (w : BitVec 8) (s : State) : State :=
  raiseFault 16 1 (eventC 0x0503 1 [w32 n, w.setWidth 32] (modDrc n (fun d => { d with irq := setBit d.irq 3 }) s))

theorem drcOf_marginNoted (n : Nat) (w : BitVec 8) (s : State) :
    drcOf (marginNoted n w s) n = { drcOf s n with irq := setBit (drcOf s n).irq 3 } := by
  have h : (marginNoted n w s).drcs = (modDrc n (fun d => { d with irq := setBit d.irq 3 }) s).drcs := raiseFault_drcs _ _ _
  rw [drcOf, h]
  exact drcOf_modDrc_same _ _ _

@[simp] theorem marginNoted_mem (n : Nat) (w : BitVec 8) (s : State) : (marginNoted n w s).mem = s.mem := by
  rw [marginNoted, raiseFault_mem]; rfl

theorem retrain_eq (n : Nat) (w t : BitVec 8) (s : State) : retrain n w t s =
    if w = 0 then stackLost n 0 s else if w < 16 then marginNoted n w (retrained n w t s) else retrained n w t s := rfl

/-- R472: a retraining that finds a window sets MARGIN, TEMP and TRANGE, and MARGIN's interrupt bit below 16 steps. -/
theorem retrain_window {n : Nat} {w : BitVec 8} (hw : w ≠ 0) (t : BitVec 8) (s : State) :
    (∃ q, drcOf (retrain n w t s) n = { drcOf s n with margin := w, temp := t, trange := trangeOf t, irq := q } ∧ (w.toNat < 16 → bit q 3 = true)) ∧
      (retrain n w t s).mem = s.mem := by
  obtain ⟨q, hq⟩ := drcOf_retrained n w t s
  rw [retrain_eq, if_neg hw]
  split
  · refine ⟨⟨setBit q 3, ?_, fun _ => bit_setBit_same _ (by omega)⟩, by simp⟩
    rw [drcOf_marginNoted, hq]
  · next h => exact ⟨⟨q, hq, fun h' => absurd h' h⟩, by simp⟩

/-! ## What an operation keeps of a controller and of memory

A statement about controller `n` holds of what it reads as and of each of its entries, so that it passes through changes of single
controllers and through changes of all of them. -/

/-- `P` holds of controller `n`. -/
def drcHolds (n : Nat) (P : Drc → Prop) (s : State) : Prop := P (drcOf s n) ∧ ∀ x ∈ s.drcs, x.1 = n → P x.2

/-- Memory is the same, and `P` holds of controller `n` where it held before. -/
def keeps (n : Nat) (P : Drc → Prop) (s t : State) : Prop := t.mem = s.mem ∧ (drcHolds n P s → drcHolds n P t)

section keeping
variable {n : Nat} {P : Drc → Prop}

theorem keeps_of_eq {s t : State} (hm : t.mem = s.mem) (hd : t.drcs = s.drcs) : keeps n P s t := by
  refine ⟨hm, fun h => ?_⟩
  rw [drcHolds, drcOf, hd]
  exact h

theorem keeps_refl (s : State) : keeps n P s s := ⟨rfl, id⟩

theorem keeps_trans {s t u : State} (h : keeps n P s t) (h' : keeps n P t u) : keeps n P s u :=
  ⟨h'.1.trans h.1, fun hs => h'.2 (h.2 hs)⟩

theorem keeps_foldl {β : Type} {f : State → β → State} (h : ∀ s b, keeps n P s (f s b)) (l : List β) (s : State) : keeps n P s (l.foldl f s) := by
  induction l generalizing s with
  | nil => exact keeps_refl s
  | cons b l ih => exact keeps_trans (h s b) (ih _)

/-- A change of one controller that keeps `P`. -/
theorem keeps_modDrc (m : Nat) {f : Drc → Drc} (s : State) (hf : P (drcOf s m) → P (f (drcOf s m))) : keeps n P s (modDrc m f s) := by
  refine ⟨rfl, fun ⟨hP, hall⟩ => ?_⟩
  by_cases hmn : m = n
  · subst hmn
    refine ⟨by rw [drcOf_modDrc_same]; exact hf hP, fun x hx hxn => ?_⟩
    rcases mem_mset hx with rfl | ⟨hx, -⟩
    · exact hf hP
    · exact hall x hx hxn
  · refine ⟨by rw [drcOf_modDrc_other _ _ _ (Ne.symm hmn)]; exact hP, fun x hx hxn => ?_⟩
    rcases mem_mset hx with rfl | ⟨hx, -⟩
    · exact absurd hxn hmn
    · exact hall x hx hxn

/-- A change of the controller itself that brings `P` about. -/
theorem drcHolds_modDrc {f : Drc → Drc} {s : State} (h : P (f (drcOf s n))) : drcHolds n P (modDrc n f s) := by
  refine ⟨by rw [drcOf_modDrc_same]; exact h, fun x hx hxn => ?_⟩
  rcases mem_mset hx with rfl | ⟨-, hx⟩
  · exact h
  · exact absurd hxn hx

theorem keeps_modSys (f : Sys → Sys) (s : State) : keeps n P s (modSys f s) := keeps_of_eq rfl rfl

theorem keeps_event (code : BitVec 16) (cls : Nat) (ws : List (BitVec 32)) {s t : State} (h : keeps n P s t) : keeps n P s (eventC code cls ws t) :=
  keeps_trans h (keeps_of_eq rfl rfl)

theorem keeps_fault (g : Nat) (c : BitVec 3) {s t : State} (h : keeps n P s t) : keeps n P s (raiseFault g c t) :=
  keeps_trans h (keeps_of_eq (raiseFault_mem g c t) (raiseFault_drcs g c t))

/-! ### Activations -/

/-- `P` does not look at the counting of activations. -/
def blindToCounts (P : Drc → Prop) : Prop := ∀ d b t q, P d → P { d with banks := b, trig := t, qmax := q }

theorem keeps_activate (hP : blindToCounts P) (k o : Nat) (s : State) : keeps n P s (activate k o s) := by
  unfold activate
  extract_lets d j b
  split
  next t c _ =>
  split
  · split
    · exact keeps_modDrc k s (fun h => hP _ _ _ _ h)
    · exact keeps_fault _ _ (keeps_event _ _ _ (keeps_modDrc k s (fun h => hP _ _ _ _ h)))
  · exact keeps_modDrc k s (fun h => hP _ _ _ _ h)

theorem keeps_activateSpan (hP : blindToCounts P) (a len : Nat) (s : State) : keeps n P s (activateSpan a len s) :=
  keeps_foldl (fun s _ => keeps_activate hP _ _ s) _ s

/-! ### What ECC finds -/

/-- `P` looks at the queue and at the merge buffer alone. -/
def seesWork (P : Drc → Prop) : Prop := ∀ d e : Drc, e.queue = d.queue → e.merge = d.merge → P d → P e

theorem blindToCounts_of_seesWork (hP : seesWork P) : blindToCounts P := fun d _ _ _ h => hP d _ rfl rfl h

theorem keeps_writeRemap (code row : Nat) (s : State) : keeps n P s (writeRemap code row s) := by
  unfold writeRemap
  extract_lets mine
  split
  · exact keeps_refl s
  · split
    · exact keeps_of_eq rfl rfl
    · exact keeps_of_eq rfl rfl

theorem keeps_candidate (hP : seesWork P) (k o : Nat) (s : State) : keeps n P s (candidate k o s) :=
  keeps_trans (keeps_modDrc k (f := fun d => { d with irq := setBit d.irq 0 }) s (hP _ _ rfl rfl))
    (keeps_trans (keeps_of_eq rfl rfl) (keeps_writeRemap _ _ _))

theorem keeps_dramCorrected (hP : seesWork P) (k a : Nat) (s : State) : keeps n P s (dramCorrected k a s) := by
  unfold dramCorrected
  extract_lets o key h old t
  have ht : keeps n P s t := keeps_modDrc k s (hP _ _ rfl rfl)
  split
  · exact keeps_trans ht (keeps_candidate hP _ _ _)
  · exact ht

theorem keeps_dramUncorrectable (hP : seesWork P) (k a who : Nat) (s : State) : keeps n P s (dramUncorrectable k a who s) := by
  unfold dramUncorrectable
  extract_lets _ again t v w x y
  have hv : keeps n P s v := keeps_of_eq rfl rfl
  have hw : keeps n P v w := keeps_modDrc k v (hP _ _ rfl rfl)
  have hy : keeps n P s y := keeps_fault _ _ (keeps_event _ _ _ (keeps_trans hv hw))
  split
  · exact keeps_trans hy (keeps_candidate hP _ _ _)
  · exact hy

theorem sramCandidate_eq (code : Nat) (s : State) : sramCandidate code s =
    if (drawBool s).1 then writeRemap code ((drawBits (drawBool s).2).1.toNat % 65536)
      (event 0x0132 [w32 code, w32 ((drawBits (drawBool s).2).1.toNat % 65536), 0xFF, 1] (drawBits (drawBool s).2).2)
    else (drawBits (drawBool s).2).2 := rfl

theorem keeps_sramCandidate (code : Nat) (s : State) : keeps n P s (sramCandidate code s) := by
  have hdraw : keeps n P s (drawBits (drawBool s).2).2 := keeps_of_eq rfl rfl
  rw [sramCandidate_eq]
  split
  · exact keeps_trans (keeps_trans hdraw (keeps_of_eq rfl rfl)) (keeps_writeRemap _ _ _)
  · exact hdraw

theorem keeps_sramCorrected (code : Nat) (s : State) : keeps n P s (sramCorrected code s) :=
  keeps_trans (keeps_modSys _ s) (keeps_sramCandidate code _)

theorem keeps_sramUnitUncorrectable (a : Nat) (s : State) : keeps n P s (sramUnitUncorrectable a s) :=
  keeps_fault _ _ (keeps_of_eq rfl rfl)

/-- What a read of a unit finds changes neither memory nor the work of a controller (R481 to R483). -/
theorem keeps_eccRead (hP : seesWork P) (a : Nat) (ecc : Ecc) (who : Nat) (s : State) : keeps n P s (eccRead a ecc who s) := by
  unfold eccRead
  split
  · split
    · exact keeps_modDrc _ s (hP _ _ rfl rfl)
    · split
      · exact keeps_refl s
      · exact keeps_dramCorrected hP _ _ _
      · exact keeps_dramUncorrectable hP _ _ _ _
  · split
    · exact keeps_refl s
    · split
      · exact keeps_refl s
      · exact keeps_sramCorrected _ _
      · exact keeps_sramUnitUncorrectable _ _
  · exact keeps_refl s

end keeping

end Sys2Proof.Machine

/-! # SUPPORT. The control port: requests, merge buffer and write-backs (R464 to R469, R481 to R488) -/

namespace Sys2Proof.Machine

/-! ## Making a request -/

/-- The request that CONTROL_PORT_REQUEST makes of stack `n`, with nothing found by ECC. -/
def cpReq (n : Nat) (code : BitVec 3) (who : BitVec 4) (off bytes : Nat) (data : Option (List (BitVec 8))) : CpReq :=
  { code := code, who := who.toNat, addr := 0x1000000000 + n * 0x600000000 + off, len := bytes, wr := data, ecc := 0 }

/-- A request waits at its controller. -/
def queued (n : Nat) (r : CpReq) (s : State) : State := modDrc n (fun d => { d with queue := d.queue ++ [r] }) s

theorem drcOf_queued (n : Nat) (r : CpReq) (s : State) :
    drcOf (queued n r s) n = { drcOf s n with queue := (drcOf s n).queue ++ [r] } := drcOf_modDrc_same _ _ _

theorem drcOf_queued_empty {n : Nat} {s : State} (hq : (drcOf s n).queue = []) (r : CpReq) :
    drcOf (queued n r s) n = { drcOf s n with queue := [r] } := by
  rw [drcOf_queued, hq]; rfl

/-- The bytes a request is about (R32). -/
def reqBytes (len : BitVec 10) (data : Option (List (BitVec 8))) : Nat :=
  match data with
  | some l => l.length
  | none => len.toNat

/-- The sizes that DRAM takes (R32). -/
theorem accessSize_iff (k : Nat) : accessSize k = true ↔ k ∈ [1, 2, 4, 8, 16, 32, 64] := List.contains_iff_mem

theorem controlPortRequest_eq (n : BitVec 2) (code : BitVec 3) (who : BitVec 4) (off : BitVec 35) (len : BitVec 10)
    (data : Option (List (BitVec 8))) (s : State) :
    exec (.controlPortRequest n code who off len data .ok) s =
      if !drcRuns s n.toNat || 4 < code.toNat || !accessSize (reqBytes len data) || off.toNat % reqBytes len data ≠ 0 ||
        24 * 2 ^ 30 < off.toNat + reqBytes len data then .next s
      else .next (serveControl n.toNat (queued n.toNat (cpReq n.toNat code who off.toNat (reqBytes len data) data) s)) := by
  cases data <;> rfl

/-- A request that DRAM takes waits, and is served where a control-port slot is open (R467). -/
theorem controlPortRequest_made {n : BitVec 2} {code : BitVec 3} {off : BitVec 35} {len : BitVec 10} {data : Option (List (BitVec 8))} {s : State}
    (hstate : (drcOf s n.toNat).state = 2) (hcode : code.toNat ≤ 4) (hsize : reqBytes len data ∈ [1, 2, 4, 8, 16, 32, 64])
    (halign : off.toNat % reqBytes len data = 0) (hbound : off.toNat + reqBytes len data ≤ 24 * 2 ^ 30) (who : BitVec 4) :
    exec (.controlPortRequest n code who off len data .ok) s =
      .next (serveControl n.toNat (queued n.toNat (cpReq n.toNat code who off.toNat (reqBytes len data) data) s)) := by
  rw [controlPortRequest_eq, if_neg]
  have hbound' : off.toNat + reqBytes len data ≤ 25769803776 := hbound
  simp [drcRuns_of_state hstate, (accessSize_iff _).mpr hsize, halign, Nat.not_lt.mpr hcode, hbound']

/-- R32: no request of another size, and none unaligned. -/
theorem controlPortRequest_refused {off : BitVec 35} {len : BitVec 10} {data : Option (List (BitVec 8))}
    (h : reqBytes len data ∉ [1, 2, 4, 8, 16, 32, 64] ∨ off.toNat % reqBytes len data ≠ 0) (n : BitVec 2) (code : BitVec 3) (who : BitVec 4) (s : State) :
    exec (.controlPortRequest n code who off len data .ok) s = .next s := by
  rw [controlPortRequest_eq, if_pos]
  rcases h with h | h
  · have hsize : accessSize (reqBytes len data) = false := by
      rw [← Bool.not_eq_true, accessSize_iff]; exact h
    simp [hsize]
  · simp [h]

/-! ## Serving a request -/

/-- Where no control-port slot is open, nothing is served. -/
theorem serveControl_closed {n : Nat} {s : State} (h : controlSlot s n = none) : serveControl n s = s := by
  unfold serveControl; rw [h]

/-- One request that fits is the next served. -/
theorem nextReq_single {ok : CpReq → Bool} {d : Drc} {r : CpReq} (hq : d.queue = [r]) (hok : ok r = true) : nextReq ok d = some r := by
  simp [nextReq, firstOf, hq, hok]

/-- A request alone in its controller's queue is served at once while the sequencer does not run (R474). -/
theorem serveControl_alone {n : Nat} {r : CpReq} {s : State} (hrun : s.reel.run = false) (hstate : (drcOf s n).state = 2) (hq : (drcOf s n).queue = [])
    (hfit : reqFits (queued n r s) n hankCycles r = true) : serveControl n (queued n r s) = serveReq n r (queued n r s) := by
  have hd := drcOf_queued_empty hq r
  have hruns : drcRuns (queued n r s) n = true := drcRuns_of_state (by rw [hd]; exact hstate)
  have hqueue : (drcOf (queued n r s) n).queue = [r] := by rw [hd]
  have hslot : controlSlot (queued n r s) n = some hankCycles := controlSlot_stopped _ _ hrun
  unfold serveControl
  rw [hslot]
  simp only [hruns, if_true, hqueue, List.length_singleton, serveAll, nextReq_single hqueue hfit]

/-- A request has left its controller's queue, and is counted where it is late (R469). -/
def taken (n : Nat) (r : CpReq) (s : State) : State :=
  if latTarget (drcOf s n) r.code ≤ r.age then
    modDrc n (fun d => { d with late := satInc d.late, lateReq := r.code, irq := setBit d.irq 2 }) (modDrc n (fun d => { d with queue := d.queue.erase r }) s)
  else modDrc n (fun d => { d with queue := d.queue.erase r }) s

@[simp] theorem taken_mem (n : Nat) (r : CpReq) (s : State) : (taken n r s).mem = s.mem := by
  unfold taken; split <;> rfl

theorem drcOf_taken (n : Nat) (r : CpReq) (s : State) : (drcOf (taken n r s) n).queue = (drcOf s n).queue.erase r ∧
    (drcOf (taken n r s) n).merge = (drcOf s n).merge ∧ (drcOf (taken n r s) n).merged = (drcOf s n).merged := by
  unfold taken
  split
  · simp
  · simp

theorem drcHolds_taken {n : Nat} {r : CpReq} {s : State} (h : (drcOf s n).queue.erase r = []) : drcHolds n (fun d => d.queue = []) (taken n r s) := by
  have hleft : drcHolds n (fun d => d.queue = []) (modDrc n (fun d => { d with queue := d.queue.erase r }) s) := drcHolds_modDrc h
  unfold taken
  split
  · exact (keeps_modDrc n _ id).2 hleft
  · exact hleft

theorem serveReq_read {r : CpReq} (h : r.wr = none) (n : Nat) (s : State) : serveReq n r s =
    (unitsOf r.addr r.len).foldl (fun s u => activateSpan (32 * u) 32 (eccRead (32 * u) (reqEcc r) (0x10 + r.code.toNat) s)) (taken n r s) := by
  unfold serveReq
  rw [h]
  rfl

theorem serveReq_write {r : CpReq} {bs : List (BitVec 8)} (h : r.wr = some bs) (n : Nat) (s : State) : serveReq n r s = writeReq n r bs (taken n r s) := by
  unfold serveReq
  rw [h]
  rfl

/-! ### Units -/

theorem mem_unitsOf {a n u : Nat} : u ∈ unitsOf a n ↔ a / 32 ≤ u ∧ u < (a + n + 31) / 32 := by
  simp only [unitsOf, List.mem_map, List.mem_range]
  constructor
  · rintro ⟨k, hk, rfl⟩; omega
  · rintro ⟨h, h'⟩; exact ⟨u - a / 32, by omega, by omega⟩

theorem length_unitsOf (a n : Nat) : (unitsOf a n).length = (a + n + 31) / 32 - a / 32 := by simp [unitsOf]

/-- An access of whole units, aligned, touches whole units alone. -/
theorem wholeUnit_of_mem {a n u : Nat} (ha : a % 32 = 0) (hn : n % 32 = 0) (hu : u ∈ unitsOf a n) : wholeUnit a n u = true := by
  rw [mem_unitsOf] at hu
  simp only [wholeUnit, decide_eq_true_eq]
  omega

theorem mem_unitsOf_div {a n j : Nat} (ha : a % 32 = 0) (hn : n % 32 = 0) : j / 32 ∈ unitsOf a n ↔ a ≤ j ∧ j < a + n := by
  rw [mem_unitsOf]; omega

/-- An access of at most 64 bytes is of at most three units, which any open slot holds. -/
theorem reqUnits_fits {r : CpReq} (hw : r.wr = none) (h : r.len ≤ 64) : reqUnits r ≤ hankCycles := by
  simp only [reqUnits, hw, length_unitsOf, hankCycles]; omega

theorem reqUnits_write_fits {r : CpReq} {bs : List (BitVec 8)} (hw : r.wr = some bs) (h : bs.length ≤ 64) : reqUnits r ≤ hankCycles := by
  simp only [reqUnits, hw, length_unitsOf, hankCycles]; omega

/-! ### Reads -/

theorem seesWork_queue_empty : seesWork (fun d => d.queue = []) := fun _ _ hq _ h => hq.trans h

/-- A read leaves memory, and its queue empty where nothing else waited (R467, R481). -/
theorem serveReq_read_parts {n : Nat} {r : CpReq} {s : State} (hw : r.wr = none) (hq : (drcOf s n).queue.erase r = []) :
    (serveReq n r s).mem = s.mem ∧ (drcOf (serveReq n r s) n).queue = [] := by
  rw [serveReq_read hw]
  obtain ⟨hmem, hkeep⟩ := keeps_foldl (n := n) (P := fun d => d.queue = [])
    (f := fun s u => activateSpan (32 * u) 32 (eccRead (32 * u) (reqEcc r) (0x10 + r.code.toNat) s))
    (fun s u => keeps_trans (keeps_eccRead seesWork_queue_empty _ _ _ s) (keeps_activateSpan (blindToCounts_of_seesWork seesWork_queue_empty) _ _ _))
    (unitsOf r.addr r.len) (taken n r s)
  exact ⟨hmem.trans (taken_mem n r s), (hkeep (drcHolds_taken hq)).1⟩

/-! ### Writes of whole units -/

theorem activateSpan_mem (a len : Nat) (s : State) : (activateSpan a len s).mem = s.mem :=
  (keeps_activateSpan (n := 0) (P := fun _ => True) (fun _ _ _ _ h => h) a len s).1

theorem memByte_congr {s t : State} (h : s.mem = t.mem) (j : Nat) : memByte s j = memByte t j := by rw [memByte, memByte, h]

/-- A write of a whole unit lands its part of the bytes. -/
theorem memByte_writeUnit {a u : Nat} {bs : List (BitVec 8)} (hu : wholeUnit a bs.length u = true) (n : Nat) (w : Option Nat) (s : State) (j : Nat) :
    memByte (writeUnit n a bs w s u) j = if j / 32 = u then bs.getD (j - a) 0 else memByte s j := by
  rw [writeUnit, if_pos hu, memByte_congr (activateSpan_mem _ _ _), memByte_writeMem, memByte_congr (mergeCut_mem _ _ _)]
  simp only [wholeUnit, decide_eq_true_eq] at hu
  obtain ⟨hlo, hhi⟩ := hu
  have hlen : ((bs.drop (32 * u - a)).take 32).length = 32 := by simp; omega
  rw [hlen]
  by_cases hj : j / 32 = u
  · rw [if_pos (by omega), if_pos hj, List.getD_eq_getElem?_getD, List.getD_eq_getElem?_getD, List.getElem?_take_of_lt (by omega), List.getElem?_drop,
      show 32 * u - a + (j - 32 * u) = j - a by omega]
  · rw [if_neg (by omega), if_neg hj]

theorem memByte_writeUnits (n a : Nat) (bs : List (BitVec 8)) (w : Option Nat) (us : List Nat) (hus : ∀ u ∈ us, wholeUnit a bs.length u = true)
    (s : State) (j : Nat) : memByte (us.foldl (writeUnit n a bs w) s) j = if j / 32 ∈ us then bs.getD (j - a) 0 else memByte s j := by
  induction us generalizing s with
  | nil => simp
  | cons u us ih =>
    rw [List.foldl_cons, ih (fun v hv => hus v (by simp [hv])), memByte_writeUnit (hus u (by simp))]
    by_cases hj : j / 32 = u
    · simp [hj]
    · simp [hj]

/-- R467: a write of whole units lands, and nothing beside it. -/
theorem memByte_serveReq_write {r : CpReq} {bs : List (BitVec 8)} (hw : r.wr = some bs) (ha : r.addr % 32 = 0) (hn : bs.length % 32 = 0)
    (n : Nat) (s : State) (j : Nat) : memByte (serveReq n r s) j = if r.addr ≤ j ∧ j < r.addr + bs.length then bs.getD (j - r.addr) 0 else memByte s j := by
  rw [serveReq_write hw, writeReq, memByte_writeUnits _ _ _ _ _ (fun u => wholeUnit_of_mem ha hn), ← memByte_congr (taken_mem n r s)]
  simp only [mem_unitsOf_div ha hn]
  rfl

/-! ### Narrow writes -/

/-- The mask of a byte's write: that byte of its unit. -/
theorem byteMask_byte (a : Nat) : byteMask a 1 (a / 32) = 1#32 <<< (a % 32) := by
  have hone : ∀ c : Fin 32, (List.range 32).foldl (fun m k => if k = c.val then setBit m k else m) (0 : BitVec 32) = 1#32 <<< c.val := by decide
  have hcond : ∀ k, (a ≤ 32 * (a / 32) + k ∧ 32 * (a / 32) + k < a + 1) ↔ k = a % 32 := by intro k; omega
  simp only [byteMask, hcond]
  exact hone ⟨a % 32, Nat.mod_lt _ (by omega)⟩

theorem overlay_byte (a : Nat) (v : BitVec 8) (old : List (BitVec 8)) : (overlay a [v] (a / 32) old).getD (a % 32) 0 = v := by
  have hlt : a % 32 < 32 := Nat.mod_lt _ (by omega)
  have hat : 32 * (a / 32) + a % 32 = a := Nat.div_add_mod a 32
  simp [overlay, List.getD_eq_getElem?_getD, hlt, hat]

/-- The entry that a byte's write opens. -/
def byteEntry (a : Nat) (v : BitVec 8) : MergeEnt :=
  { unit := a / 32, mask := byteMask a 1 (a / 32), bytes := overlay a [v] (a / 32) (leBytes 32 0) }

theorem unitsOf_byte (a : Nat) : unitsOf a 1 = [a / 32] := by
  have h : (a + 1 + 31) / 32 - a / 32 = 1 := by omega
  simp [unitsOf, h]

/-- R484: a byte's write opens an entry of an empty merge buffer, and memory stays. -/
theorem serveReq_byte {n : Nat} {r : CpReq} {v : BitVec 8} {s : State} (hw : r.wr = some [v]) (hm : (drcOf s n).merge = []) :
    (serveReq n r s).mem = s.mem ∧ (drcOf (serveReq n r s) n).merge = [byteEntry r.addr v] ∧
      (drcOf (serveReq n r s) n).merged = satInc (drcOf s n).merged := by
  obtain ⟨-, hmerge, hmerged⟩ := drcOf_taken n r s
  have hnarrow : wholeUnit r.addr [v].length (r.addr / 32) = false := by
    simp only [wholeUnit, List.length_singleton, decide_eq_false_iff_not]; omega
  have hparts : serveReq n r s = mergeIn n r.addr [v] (r.addr / 32)
      (dropResv r.addr 1 (reqCore r) (cleanLines r.addr 1 (reqCore r) (taken n r s))) := by
    rw [serveReq_write hw, writeReq, List.length_singleton, unitsOf_byte, List.foldl_cons, List.foldl_nil, writeUnit, hnarrow]
    rfl
  rw [hparts]
  refine ⟨taken_mem n r s, ?_⟩
  have hd : drcOf (dropResv r.addr 1 (reqCore r) (cleanLines r.addr 1 (reqCore r) (taken n r s))) n = drcOf (taken n r s) n := rfl
  rw [mergeIn, drcOf_modDrc_same, hd, hmerge, hm, ← hmerged]
  exact ⟨rfl, rfl⟩

/-! ### A request while the sequencer stands -/

section stopped
variable {n : Nat} {r : CpReq} {s : State} (hrun : s.reel.run = false) (hstate : (drcOf s n).state = 2) (hq : (drcOf s n).queue = [])
include hrun hstate hq

theorem serveControl_read (hw : r.wr = none) (hlen : r.len ≤ 64) :
    (serveControl n (queued n r s)).mem = s.mem ∧ (drcOf (serveControl n (queued n r s)) n).queue = [] := by
  have hfit : reqFits (queued n r s) n hankCycles r = true := by
    simp [reqFits, hw, reqUnits_fits hw hlen]
  have herase : (drcOf (queued n r s) n).queue.erase r = [] := by rw [drcOf_queued_empty hq]; simp
  rw [serveControl_alone hrun hstate hq hfit]
  exact serveReq_read_parts hw herase

theorem memByte_serveControl_write {bs : List (BitVec 8)} (hw : r.wr = some bs) (hlen : bs.length ≤ 64) (ha : r.addr % 32 = 0) (hn : bs.length % 32 = 0)
    (j : Nat) : memByte (serveControl n (queued n r s)) j = if r.addr ≤ j ∧ j < r.addr + bs.length then bs.getD (j - r.addr) 0 else memByte s j := by
  have hfit : reqFits (queued n r s) n hankCycles r = true := by
    simp only [reqFits, hw, decide_eq_true (reqUnits_write_fits hw hlen), Bool.true_and, List.all_eq_true]
    intro u hu
    rw [wholeUnit_of_mem ha hn hu, Bool.true_or]
  rw [serveControl_alone hrun hstate hq hfit, memByte_serveReq_write hw ha hn]
  rfl

theorem serveControl_byte {v : BitVec 8} (hw : r.wr = some [v]) (hm : (drcOf s n).merge = []) :
    (serveControl n (queued n r s)).mem = s.mem ∧ (drcOf (serveControl n (queued n r s)) n).merge = [byteEntry r.addr v] ∧
      (drcOf (serveControl n (queued n r s)) n).merged = satInc (drcOf s n).merged := by
  have hd := drcOf_queued_empty hq r
  have hm' : (drcOf (queued n r s) n).merge = [] := by rw [hd]; exact hm
  have hroom : mergeRoom (queued n r s) n (r.addr / 32) hankCycles = true := by simp [mergeRoom, hm', hankCycles]
  have hfit : reqFits (queued n r s) n hankCycles r = true := by
    simp [reqFits, hw, reqUnits_write_fits hw (by simp), unitsOf_byte, hroom]
  have hmerged : (drcOf (queued n r s) n).merged = (drcOf s n).merged := by rw [hd]
  rw [serveControl_alone hrun hstate hq hfit, ← hmerged]
  exact serveReq_byte hw hm'

end stopped

/-! ## Draining the merge buffer (R484, R486) -/

theorem mergeDrain_closed {n : BitVec 2} {s : State} (h : controlSlot s n.toNat = none) (ecc : Ecc) : exec (.mergeDrain n ecc) s = .next s := by
  rw [exec_mergeDrain, execMergeDrain]
  split
  · rfl
  · rw [if_pos h]

theorem mergeDrain_open {n : BitVec 2} {s : State} {e : MergeEnt} {rest : List MergeEnt} (hm : (drcOf s n.toNat).merge = e :: rest)
    (h : controlSlot s n.toNat ≠ none) (ecc : Ecc) : exec (.mergeDrain n ecc) s = .next (drainEntry n.toNat e ecc s) := by
  rw [exec_mergeDrain, execMergeDrain, hm]
  exact if_neg h

/-- Bytes land under what the cores' caches hold. -/
def putRun (a : Nat) (bs : List (BitVec 8)) (s : State) : State := underDirty a bs (landBytes a bs s)

theorem writeMasked_eq (e : MergeEnt) (s : State) : writeMasked e s =
    if e.mask = BitVec.allOnes 32 then putRun (32 * e.unit) e.bytes s
    else (List.range 32).foldl (fun s k => if bit e.mask k then putRun (32 * e.unit + k) [e.bytes.getD k 0] s else s) s := rfl

theorem memByte_putRun (a : Nat) (bs : List (BitVec 8)) (s : State) (j : Nat) :
    memByte (putRun a bs s) j = if a ≤ j ∧ j < a + bs.length then bs.getD (j - a) 0 else memByte s j := memByte_writeMem (some 0) a bs s j

/-- The bytes of a unit that a mask covers, those of some places alone. -/
theorem memByte_putMasked (e : MergeEnt) (l : List Nat) (hl : ∀ k ∈ l, k < 32) (s : State) (j : Nat) :
    memByte (l.foldl (fun s k => if bit e.mask k then putRun (32 * e.unit + k) [e.bytes.getD k 0] s else s) s) j =
      if j / 32 = e.unit ∧ j % 32 ∈ l ∧ bit e.mask (j % 32) then e.bytes.getD (j % 32) 0 else memByte s j := by
  induction l generalizing s with
  | nil => simp
  | cons k l ih =>
    have hk : k < 32 := hl k (by simp)
    have hone : memByte (if bit e.mask k then putRun (32 * e.unit + k) [e.bytes.getD k 0] s else s) j =
        if (j / 32 = e.unit ∧ j % 32 = k) ∧ bit e.mask k then e.bytes.getD k 0 else memByte s j := by
      have hat : (32 * e.unit + k ≤ j ∧ j < 32 * e.unit + k + 1) ↔ (j / 32 = e.unit ∧ j % 32 = k) := by omega
      by_cases hb : bit e.mask k = true
      · rw [if_pos hb, memByte_putRun, List.length_singleton]
        by_cases hj : j / 32 = e.unit ∧ j % 32 = k
        · rw [if_pos (hat.mpr hj), if_pos ⟨hj, hb⟩, show j - (32 * e.unit + k) = 0 by omega]; rfl
        · rw [if_neg (fun h => hj (hat.mp h)), if_neg (fun h => hj h.1)]
      · rw [if_neg hb, if_neg (fun h => hb h.2)]
    rw [List.foldl_cons, ih (fun i hi => hl i (by simp [hi])), hone]
    by_cases hj : j % 32 = k
    · subst hj
      by_cases hhit : j / 32 = e.unit ∧ bit e.mask (j % 32) = true
      · simp [hhit]
      · rw [if_neg (fun h => hhit ⟨h.1, h.2.2⟩), if_neg (fun h => hhit ⟨h.1.1, h.2⟩), if_neg (fun h => hhit ⟨h.1, h.2.2⟩)]
    · simp [hj]

/-- R486: the bytes of a unit that a drained entry covers land, and no other. -/
theorem memByte_writeMasked {e : MergeEnt} (he : e.bytes.length = 32) (s : State) (j : Nat) : memByte (writeMasked e s) j =
    if j / 32 = e.unit ∧ bit e.mask (j % 32) then e.bytes.getD (j % 32) 0 else memByte s j := by
  rw [writeMasked_eq]
  split
  · next hall =>
    have hbit : bit e.mask (j % 32) = true := by
      rw [hall, bit, BitVec.getLsbD_allOnes]; exact decide_eq_true (by omega)
    rw [memByte_putRun, he]
    by_cases hj : j / 32 = e.unit
    · rw [if_pos (by omega), if_pos ⟨hj, hbit⟩, show j - 32 * e.unit = j % 32 by omega]
    · rw [if_neg (by omega), if_neg (fun h => hj h.1)]
  · rw [memByte_putMasked e _ (fun k => List.mem_range.mp)]
    simp [Nat.mod_lt j (show 0 < 32 by omega)]

/-! ### What landing bytes keeps of a controller -/

theorem mget_default_or_mem {α : Type} (d : α) (m : SMap α) (k : Nat) : mget d m k = d ∨ (k, mget d m k) ∈ m := by
  induction m with
  | nil => exact .inl rfl
  | cons e m ih =>
    obtain ⟨j, v⟩ := e
    by_cases hj : j = k
    · subst hj; simp [mget]
    · simpa [mget, hj, Ne.symm hj] using ih

section landing
variable {n : Nat} {P : Drc → Prop}

/-- A change made of every controller. -/
theorem drcHolds_mmapv {f : Drc → Drc} (hf : ∀ d, P d → P (f d)) (h0 : P {}) {s t : State} (ht : t.drcs = mmapv {} f s.drcs) (h : drcHolds n P s) :
    drcHolds n P t := by
  have hall : ∀ x ∈ t.drcs, x.1 = n → P x.2 := by
    intro x hx hxn
    rw [ht, mmapv_eq, List.mem_filter, List.mem_map] at hx
    obtain ⟨⟨y, hy, rfl⟩, -⟩ := hx
    exact hf _ (h.2 y hy hxn)
  refine ⟨?_, hall⟩
  rcases mget_default_or_mem {} t.drcs n with h' | h'
  · rw [drcOf, h']; exact h0
  · exact hall _ h' rfl

theorem drcHolds_putRun (hP : seesWork P) (h0 : P {}) (a : Nat) (bs : List (BitVec 8)) {s : State} (h : drcHolds n P s) : drcHolds n P (putRun a bs s) := by
  have hpoison : ∀ (us : List Nat) (t : State),
      (us.foldl (fun s u => if wholeUnit a bs.length u then setPoison u false s else s) t).drcs = t.drcs := by
    intro us
    induction us with
    | nil => exact fun _ => rfl
    | cons u us ih => intro t; rw [List.foldl_cons, ih]; split <;> rfl
  refine drcHolds_mmapv (f := fun d => { d with wback := d.wback.filter (fun u => !((unitsOf a bs.length).contains u)) })
    (fun d => hP d _ rfl rfl) h0 (s := s) ?_ h
  exact congrArg (mmapv {} _) (hpoison (unitsOf a bs.length) { s with mem := putBytes a bs s.mem })

theorem drcHolds_writeMasked (hP : seesWork P) (h0 : P {}) (e : MergeEnt) {s : State} (h : drcHolds n P s) : drcHolds n P (writeMasked e s) := by
  have hfold : ∀ (l : List Nat) (t : State), drcHolds n P t →
      drcHolds n P (l.foldl (fun s k => if bit e.mask k then putRun (32 * e.unit + k) [e.bytes.getD k 0] s else s) t) := by
    intro l
    induction l with
    | nil => exact fun _ ht => ht
    | cons k l ih =>
      intro t ht
      rw [List.foldl_cons]
      apply ih
      split
      · exact drcHolds_putRun hP h0 _ _ ht
      · exact ht
  rw [writeMasked_eq]
  split
  · exact drcHolds_putRun hP h0 _ _ h
  · exact hfold _ _ h

theorem keeps_keepOld (hP : seesWork P) (k u left : Nat) (s : State) : keeps n P s (keepOld k u left s) := by
  unfold keepOld
  extract_lets old
  split
  · exact keeps_modDrc k s (hP _ _ rfl rfl)
  · exact keeps_refl s

theorem keeps_mergeNotice (a len : Nat) (s : State) : keeps n P s (mergeNotice a len s) := by
  refine keeps_foldl (fun t u => ?_) _ s
  split
  · split
    · exact keeps_fault _ _ (keeps_event _ _ _ (keeps_refl t))
    · exact keeps_refl t
  · exact keeps_refl t

end landing

/-- An entry is taken from the buffer, what it replaces is held for the data ports, and its row is activated (R475, R484, R486). -/
def entryTaken (n : Nat) (e : MergeEnt) (s : State) : State :=
  activateSpan (32 * e.unit) 32 (keepOld n e.unit ((controlSlot s n).getD 0) (modDrc n (fun d => { d with merge := d.merge.filter (fun x => decide (x ≠ e)) }) s))

/-- The read and merge of a unit that an entry does not cover whole (R486). -/
def unitMerged (n : Nat) (e : MergeEnt) (ecc : Ecc) (s : State) : State :=
  mergeNotice (32 * e.unit) 1 (eccRead (32 * e.unit) ecc 0x10 (modDrc n (fun d => { d with rmw := satInc d.rmw }) s))

theorem drainEntry_eq (n : Nat) (e : MergeEnt) (ecc : Ecc) (s : State) : drainEntry n e ecc s =
    writeMasked e (if e.mask = BitVec.allOnes 32 then entryTaken n e s else unitMerged n e ecc (entryTaken n e s)) := by
  unfold drainEntry
  extract_lets t u v w
  split
  · rfl
  · rfl

theorem seesWork_not_mem (e : MergeEnt) : seesWork (fun d => e ∉ d.merge) := fun _ _ _ hm h he => h (hm ▸ he)

/-- An entry taken is no longer in the buffer, and memory is as it was. -/
theorem entryTaken_parts (n : Nat) (e : MergeEnt) (s : State) :
    (entryTaken n e s).mem = s.mem ∧ drcHolds n (fun d => e ∉ d.merge) (entryTaken n e s) := by
  have hleft : drcHolds n (fun d => e ∉ d.merge) (modDrc n (fun d => { d with merge := d.merge.filter (fun x => decide (x ≠ e)) }) s) :=
    drcHolds_modDrc (by simp)
  obtain ⟨hmem, hkeep⟩ := keeps_trans (keeps_keepOld (seesWork_not_mem e) n e.unit ((controlSlot s n).getD 0) _)
    (keeps_activateSpan (blindToCounts_of_seesWork (seesWork_not_mem e)) (32 * e.unit) 32 _)
  exact ⟨hmem, hkeep hleft⟩

theorem keeps_unitMerged {P : Drc → Prop} (hP : seesWork P) (n : Nat) (e : MergeEnt) (ecc : Ecc) (s : State) : keeps n P s (unitMerged n e ecc s) :=
  keeps_trans (keeps_modDrc n s (hP _ _ rfl rfl)) (keeps_trans (keeps_eccRead hP _ _ _ _) (keeps_mergeNotice _ _ _))

/-- R486: a drained entry leaves the buffer, and its valid bytes land. -/
theorem drainEntry_parts {e : MergeEnt} (he : e.bytes.length = 32) (n : Nat) (ecc : Ecc) (s : State) :
    e ∉ (drcOf (drainEntry n e ecc s) n).merge ∧ ∀ j, memByte (drainEntry n e ecc s) j =
      if j / 32 = e.unit ∧ bit e.mask (j % 32) then e.bytes.getD (j % 32) 0 else memByte s j := by
  have hread : keeps n (fun d => e ∉ d.merge) (entryTaken n e s)
      (if e.mask = BitVec.allOnes 32 then entryTaken n e s else unitMerged n e ecc (entryTaken n e s)) := by
    split
    · exact keeps_refl _
    · exact keeps_unitMerged (seesWork_not_mem e) _ _ _ _
  obtain ⟨hmem, hleft⟩ := entryTaken_parts n e s
  rw [drainEntry_eq]
  refine ⟨(drcHolds_writeMasked (seesWork_not_mem e) (by simp) e (hread.2 hleft)).1, fun j => ?_⟩
  rw [memByte_writeMasked he, memByte_congr (hread.1.trans hmem)]

/-! ## Write-backs (R481) -/

theorem eccWriteBack_closed {n : BitVec 2} {s : State} (h : controlSlot s n.toNat = none) (ecc : Ecc) : exec (.eccWriteBack n ecc) s = .next s := by
  rw [exec_eccWriteBack, execEccWriteBack]
  split
  · rfl
  · rw [if_pos h]

/-- A write-back of a unit that reads well leaves the queue, and memory as it was. -/
theorem eccWriteBack_open {n : BitVec 2} {s : State} {u : Nat} {rest : List Nat} (hw : (drcOf s n.toNat).wback = u :: rest)
    (h : controlSlot s n.toNat ≠ none) : exec (.eccWriteBack n .ok) s =
      .next (activateSpan (32 * u) 32 (modDrc n.toNat (fun d => { d with wback := rest }) s)) := by
  rw [exec_eccWriteBack, execEccWriteBack, hw]
  exact if_neg h

theorem writeBack_parts (n u : Nat) (rest : List Nat) (s : State) :
    (drcOf (activateSpan (32 * u) 32 (modDrc n (fun d => { d with wback := rest }) s)) n).wback = rest ∧
      (activateSpan (32 * u) 32 (modDrc n (fun d => { d with wback := rest }) s)).mem = s.mem := by
  obtain ⟨hmem, hkeep⟩ := keeps_activateSpan (n := n) (P := fun d => d.wback = rest) (fun _ _ _ _ h => h) (32 * u) 32
    (modDrc n (fun d => { d with wback := rest }) s)
  exact ⟨(hkeep (drcHolds_modDrc rfl)).1, hmem⟩

/-! ## The obligation -/

theorem trangeOf_eq (t : BitVec 8) : trangeOf t = if 105 < degC t then 2 else if 85 < degC t then 1 else 0 := rfl

/-- The byte of a stack that an offset names, within its unit. -/
theorem cpReq_addr_mod (n off : Nat) : (0x1000000000 + n * 0x600000000 + off) % 32 = off % 32 := by omega

/-- R467, R481: a read served at once. -/
theorem controlPort_read {n : BitVec 2} {code : BitVec 3} {off : BitVec 35} {len : BitVec 10} {s : State} (hstate : (drcOf s n.toNat).state = 2)
    (hcode : code.toNat ≤ 4) (hq : (drcOf s n.toNat).queue = []) (hsize : len.toNat ∈ [1, 2, 4, 8, 16, 32, 64])
    (hbound : off.toNat + len.toNat ≤ 24 * 2 ^ 30) (halign : off.toNat % len.toNat = 0) (hrun : s.reel.run = false) (who : BitVec 4) :
    ∃ t, exec (.controlPortRequest n code who off len none .ok) s = .next t ∧ t.mem = s.mem ∧ (drcOf t n.toNat).queue = [] := by
  have hlen : len.toNat ≤ 64 := by
    simp only [List.mem_cons, List.not_mem_nil, or_false] at hsize; omega
  exact ⟨_, controlPortRequest_made (data := none) hstate hcode hsize halign hbound who, serveControl_read hrun hstate hq rfl hlen⟩

/-- R468: a request waits where no control-port slot is open. -/
theorem controlPort_waits {n : BitVec 2} {code : BitVec 3} {off : BitVec 35} {len : BitVec 10} {s : State} (hstate : (drcOf s n.toNat).state = 2)
    (hcode : code.toNat ≤ 4) (hq : (drcOf s n.toNat).queue = []) (hsize : len.toNat ∈ [1, 2, 4, 8, 16, 32, 64])
    (hbound : off.toNat + len.toNat ≤ 24 * 2 ^ 30) (halign : off.toNat % len.toNat = 0) (hslot : controlSlot s n.toNat = none) (who : BitVec 4) :
    ∃ t, exec (.controlPortRequest n code who off len none .ok) s = .next t ∧ t.mem = s.mem ∧
      (drcOf t n.toNat).queue = [cpReq n.toNat code who off.toNat len.toNat none] := by
  refine ⟨queued n.toNat (cpReq n.toNat code who off.toNat len.toNat none) s, ?_, rfl, by rw [drcOf_queued_empty hq]⟩
  rw [controlPortRequest_made (data := none) hstate hcode hsize halign hbound who]
  exact congrArg Host.Outcome.next (serveControl_closed hslot)

/-- R467: a write of one or two whole units lands, and nothing beside it. -/
theorem controlPort_write {n : BitVec 2} {code : BitVec 3} {off : BitVec 35} {l : List (BitVec 8)} {s : State} (hstate : (drcOf s n.toNat).state = 2)
    (hcode : code.toNat ≤ 4) (hq : (drcOf s n.toNat).queue = []) (hl : l.length = 32 ∨ l.length = 64) (halign : off.toNat % l.length = 0)
    (hbound : off.toNat + l.length ≤ 24 * 2 ^ 30) (hrun : s.reel.run = false) (who : BitVec 4) :
    ∃ t, exec (.controlPortRequest n code who off 0 (some l) .ok) s = .next t ∧
      (∀ j < l.length, memByte t (0x1000000000 + n.toNat * 0x600000000 + off.toNat + j) = l.getD j 0) ∧
      ∀ j, j < 0x1000000000 + n.toNat * 0x600000000 + off.toNat ∨ 0x1000000000 + n.toNat * 0x600000000 + off.toNat + l.length ≤ j →
        memByte t j = memByte s j := by
  have hsize : l.length ∈ [1, 2, 4, 8, 16, 32, 64] := by rcases hl with h | h <;> simp [h]
  have hoff : off.toNat % 32 = 0 := by rcases hl with h | h <;> rw [h] at halign <;> omega
  have hmem := memByte_serveControl_write (r := cpReq n.toNat code who off.toNat l.length (some l)) hrun hstate hq rfl (by omega)
    ((cpReq_addr_mod _ _).trans hoff) (by omega)
  refine ⟨_, controlPortRequest_made (len := 0) (data := some l) hstate hcode hsize halign hbound who, fun j hj => ?_, fun j hj => ?_⟩
  · refine (hmem _).trans ((if_pos ⟨Nat.le_add_right _ _, Nat.add_lt_add_left hj _⟩).trans ?_)
    rw [cpReq, Nat.add_sub_cancel_left]
  · exact (hmem j).trans (if_neg (fun h => hj.elim (Nat.not_lt.mpr h.1) (Nat.not_le.mpr h.2)))

/-- R484: a write of one byte opens an entry of an empty merge buffer. -/
theorem controlPort_byte {n : BitVec 2} {code : BitVec 3} {off : BitVec 35} {s : State} (hstate : (drcOf s n.toNat).state = 2)
    (hcode : code.toNat ≤ 4) (hq : (drcOf s n.toNat).queue = []) (hrun : s.reel.run = false) (hm : (drcOf s n.toNat).merge = [])
    (hbound : off.toNat < 24 * 2 ^ 30) (v : BitVec 8) (who : BitVec 4) :
    ∃ t e, exec (.controlPortRequest n code who off 0 (some [v]) .ok) s = .next t ∧ t.mem = s.mem ∧ (drcOf t n.toNat).merge = [e] ∧
      e.unit = (0x1000000000 + n.toNat * 0x600000000 + off.toNat) / 32 ∧ e.mask = 1#32 <<< (off.toNat % 32) ∧
      e.bytes.getD (off.toNat % 32) 0 = v ∧ (drcOf t n.toNat).merged = satInc (drcOf s n.toNat).merged := by
  obtain ⟨hmem, hmerge, hmerged⟩ := serveControl_byte (r := cpReq n.toNat code who off.toNat 1 (some [v])) hrun hstate hq rfl hm
  have hplace := cpReq_addr_mod n.toNat off.toNat
  refine ⟨_, _, controlPortRequest_made (len := 0) (data := some [v]) hstate hcode (by simp [reqBytes]) (Nat.mod_one _) hbound who,
    hmem, hmerge, rfl, ?_, ?_, hmerged⟩
  · rw [← hplace]; exact byteMask_byte _
  · rw [← hplace]; exact overlay_byte _ v _

/-- R474, R475: a refresh period's start clears the counting tables of its controller, and leaves the queued neighbour refreshes. -/
theorem refreshPeriodStart_parts {n : BitVec 2} {s : State} (hstate : (drcOf s n.toNat).state = 2) (hwf : mwf {} (drcOf s n.toNat).banks = true) :
    ∃ t, exec (.refreshPeriodStart n) s = .next t ∧ (drcOf t n.toNat).row = 0 ∧
      (∀ k, (mget {} (drcOf t n.toNat).banks k).rows = [] ∧ (mget {} (drcOf t n.toNat).banks k).queue = (mget {} (drcOf s n.toNat).banks k).queue) ∧
      (∀ j, j ≠ n.toNat → drcOf t j = drcOf s j) ∧ t.mem = s.mem := by
  have hd : drcOf (refreshStart n.toNat (modDrc n.toNat (fun d => { d with row := 0 }) s)) n.toNat =
      { drcOf s n.toNat with row := 0, banks := mmapv {} cleared (drcOf s n.toNat).banks } := by
    rw [drcOf_refreshStart, drcOf_modDrc_same]
  refine ⟨_, refreshPeriodStart_runs hstate, by rw [hd], fun k => ?_, fun j hj => ?_, rfl⟩
  · rw [hd]
    change (mget {} (mmapv {} cleared (drcOf s n.toNat).banks) k).rows = [] ∧ (mget {} (mmapv {} cleared (drcOf s n.toNat).banks) k).queue = _
    rw [mget_mmapv {} rfl ((mwf_iff_keysRise _ _).mp hwf).1]
    exact ⟨rfl, rfl⟩
  · rw [drcOf_refreshStart_other hj, drcOf_modDrc_other _ _ _ hj]

/-- R470 to R476: what SELF_TIMED_REPAIR does while the sequencer stands. -/
theorem selfTimedRepair_parts {n : BitVec 2} {s : State} (hrun : s.reel.run = false) (hstate : (drcOf s n.toNat).state = 2) (w tmp : BitVec 8) :
    (∃ t, exec (.selfTimedRepair n false w tmp) s = .next t ∧ (drcOf t n.toNat).row = ((drcOf s n.toNat).row + 6) % 12288 ∧
      (∀ j, j ≠ n.toNat → drcOf t j = drcOf s j) ∧ t.mem = s.mem ∧ (mwf {} (drcOf s n.toNat).banks = true →
        ∀ k, (mget {} (drcOf t n.toNat).banks k).queue = (mget {} (drcOf s n.toNat).banks k).queue.drop 1)) ∧
    (w ≠ 0 → ∃ t, exec (.selfTimedRepair n true w tmp) s = .next t ∧ (drcOf t n.toNat).margin = w ∧ (drcOf t n.toNat).temp = tmp ∧
      (drcOf t n.toNat).state = 2 ∧ (drcOf t n.toNat).trange = (if 105 < degC tmp then 2 else if 85 < degC tmp then 1 else 0) ∧
      (w.toNat < 16 → bit (drcOf t n.toNat).irq 3 = true) ∧ t.mem = s.mem) ∧
    ∃ t, exec (.selfTimedRepair n true 0 tmp) s = .next t ∧ (drcOf t n.toNat).state = 3 ∧ t.fcr.grave = true ∧ t.mem = s.mem := by
  refine ⟨⟨_, selfTimedRepair_window hrun hstate w tmp, repairTurn_window n.toNat s⟩, fun hw => ?_, ?_⟩
  · obtain ⟨⟨q, hq, hbit⟩, hmem⟩ := retrain_window (n := n.toNat) hw tmp s
    refine ⟨_, selfTimedRepair_training hrun hstate w tmp, ?_⟩
    rw [hq]
    exact ⟨rfl, rfl, hstate, trangeOf_eq tmp, hbit, hmem⟩
  · obtain ⟨hlost, hgrave, hmem, -⟩ := stackLost_parts n.toNat 0 s
    exact ⟨_, selfTimedRepair_training hrun hstate 0 tmp, hlost, hgrave, hmem⟩

/-- Settles O57: one lemma for each operation of a controller; that no ECC outcome and no activation touches memory or the queued work, and that
whole units land while narrow ones stay in the merge buffer, carry the control-port clauses. -/
theorem dramControllers : Obligations.DramControllers := by
  unfold Obligations.DramControllers
  intro n s N d base frees
  refine ⟨refreshPeriodStart_parts, refreshPeriodStart_idle, selfTimedRepair_parts, fun h => selfTimedRepair_running h n, ?_, ?_, ?_, ?_⟩
  · intro code who off hstate hcode hq
    refine ⟨fun len hsize hbound halign => ⟨fun hrun => controlPort_read hstate hcode hq hsize hbound halign hrun who,
        fun _ hslot => controlPort_waits hstate hcode hq hsize hbound halign hslot who⟩,
      fun l hl halign hbound hrun => controlPort_write hstate hcode hq hl halign hbound hrun who,
      fun v hrun hm hbound => controlPort_byte hstate hcode hq hrun hm hbound v who, ?_⟩
    intro len data k h
    refine controlPortRequest_refused ?_ n code who s
    cases data with
    | none => exact h
    | some l => exact h
  · exact fun h ecc => ⟨mergeDrain_closed h ecc, eccWriteBack_closed h ecc⟩
  · intro e rest ecc hm he hslot
    exact ⟨_, mergeDrain_open hm hslot ecc, drainEntry_parts he N ecc s⟩
  · intro u rest hw hslot
    exact ⟨_, eccWriteBack_open hw hslot, writeBack_parts N u rest s⟩

end Sys2Proof.Machine

/-! # SUPPORT. The reset state (R84, R135, R207, R262, R378, R467, R504, R511, R530, R547, R573, R577, R591)

The interrupt sources first, for every number; the other registers are evaluated, each bank over its units. -/

namespace Sys2Proof.Machine

/-- INTC_SRC of every source (R520). -/
theorem regWord_intcSrc {k : Nat} (hk : k < 1024) (s : State) : regWord (0x30000 + 4 * k) s = readSrc s k := by
  have hlt : 0x30000 + 4 * k < 0x40000 := by omega
  have hdiv : (0x30000 + 4 * k - 0x30000) / 4 = k := by omega
  unfold regWord
  iterate 3 rw [if_neg (by omega)]
  rw [if_pos hlt, intcWord, if_pos (by omega), hdiv]

/-- After reset a source shows EDGE alone, and that only where its number makes it an edge source. -/
theorem readSrc_reset (k : Nat) : readSrc State.reset k = if isPulse k || decide (896 ≤ k) then 0x00400000 else 0 := by
  have hedge : isEdge State.reset k = (isPulse k || decide (896 ≤ k)) := Bool.or_false _
  rw [← hedge, readSrc]
  by_cases hk : k = 0
  · subst hk; rfl
  · rw [if_neg hk]
    change bfld false 31 ||| bfld false 30 ||| bfld false 23 ||| bfld (isEdge State.reset k) 22 ||| fld (0 : BitVec 6) 16 |||
      bfld false 15 ||| fld (0 : BitVec 4) 8 ||| (0 : BitVec 8).setWidth 32 = _
    cases isEdge State.reset k
    · rfl
    · rfl

/-- No engine has written a g register. -/
theorem regG_reset (e : Engine) (g : BitVec 6) : regG State.reset e g = 0 := by
  cases e
  · exact ite_self _
  · exact ite_self _

/-- Nor a v register. -/
theorem regV_reset (e : Engine) (v : BitVec 4) : regV State.reset e v = 0 := by
  cases e
  · rfl
  · rfl

/-- Settles O2: the sources by number, every other register by its value at reset. -/
theorem resetState : Obligations.ResetState := by
  unfold Obligations.ResetState
  intro r word
  have hsrc : ∀ k < 1024, word (0x30000 + 4 * k) (if isPulse k || decide (896 ≤ k) then 0x00400000 else 0) :=
    fun k hk => (regWord_intcSrc hk r).trans (readSrc_reset k)
  have hsys : word 0x8 1 ∧ word 0xC 0 ∧ word 0x100 0 ∧ word 0x104 0 := by decide +kernel
  have hreel : word 0x100000 0x0000F000 ∧ word 0x100004 0 := by decide +kernel
  have hwatch : word 0x34000 0 ∧ word 0x34004 0x00FF0000 ∧ word 0x34008 0x00FF0000 ∧ ∀ n < 16, word (0x34040 + 4 * n) 0 := by decide +kernel
  have hevr : word 0x70000 0 ∧ word 0x70004 0 ∧ word 0x70010 49152 := by decide +kernel
  have hfcr : word 0x60008 100 ∧ ∀ g < 32, word (0x60100 + 8 * g) 0x100C03E8 ∧ word (0x60104 + 8 * g) 0 := by decide +kernel
  have hblocks : word 0x80004 0x0050005F ∧ word 0x50010 1 ∧ word 0x2200004 0x3F := by decide +kernel
  have hdrc : ∀ n < 4, word (0xA0040 + 0x10000 * n) 2 ∧ word (0xA0044 + 0x10000 * n) 8 ∧ word (0xA0048 + 0x10000 * n) 4 ∧
      word (0xA004C + 0x10000 * n) 16 ∧ word (0xA0050 + 0x10000 * n) 1 := by decide +kernel
  have hpier : ∀ c < 128, word (0x1000000 + 0x10000 * c) 0x1080 := by decide +kernel
  have hnet : ∀ p < 8, word (0x400000 + 0x10000 * p) 3 := by decide +kernel
  obtain ⟨hboot, hrst, hlo, hhi⟩ := hsys
  obtain ⟨hstat, hen, hesc, hwdp⟩ := hwatch
  obtain ⟨hw, hr, hthr⟩ := hevr
  obtain ⟨hthm, hbac, hspan⟩ := hblocks
  exact ⟨hboot, hrst, hlo, hhi, hreel.1, hreel.2, hstat, hen, hesc, hwdp, hsrc, hw, hr, hthr, hfcr.1, hfcr.2, hthm, hbac, hspan,
    hdrc, hpier, hnet, fun e g v => ⟨regG_reset e g, regV_reset e v⟩, fun _ => ⟨rfl, rfl, rfl⟩, rfl, rfl, rfl⟩

end Sys2Proof.Machine

/-! # SUPPORT. The clock's turn with no spindle issuing (R38, R53, R71, R110, R111, R132)

A cycle in which no spindle issues moves the position and lands results. The cycles up to the last of the turn are taken together; the last
one adds the turn's end of every spindle and the next turn's start. -/

namespace Sys2Proof.Machine

/-! ## Folds over units -/

/-- A fold over distinct units that changes one unit at each step applies its change once to each of them. -/
theorem foldl_units {β : Type} {f : State → Nat → State} {look : State → Nat → β} {g : Nat → β → β} {I : State → Prop}
    (hI : ∀ s n, I s → I (f s n)) (hf : ∀ s n m, I s → look (f s n) m = if m = n then g n (look s n) else look s m) {l : List Nat}
    (hl : l.Nodup) {s : State} (hs : I s) (m : Nat) : look (l.foldl f s) m = if m ∈ l then g m (look s m) else look s m := by
  induction l generalizing s with
  | nil => simp
  | cons n l ih =>
    obtain ⟨hn, hl⟩ := List.nodup_cons.mp hl
    rw [List.foldl_cons, ih hl (hI s n hs), hf s n m hs]
    by_cases hm : m = n
    · subst hm; simp [hn]
    · simp [hm]

/-- An invariant of each step holds after a fold. -/
theorem foldl_keeps {β : Type} {f : State → β → State} {I : State → Prop} (hI : ∀ s b, I s → I (f s b)) (l : List β) {s : State} (hs : I s) :
    I (l.foldl f s) := by
  induction l generalizing s with
  | nil => exact hs
  | cons b l ih => exact ih (hI s b hs)

/-! ## Landing -/

/-- A spindle without what a cycle's landing of results and its local ports change. -/
def unlanded (x : Spindle) : Spindle :=
  { x with g := [], v := [], p := [], fly := [], post := 0, lockReq := 0, lockRes := [], lockOut := [], lockDue := [] }

theorem unlanded_landSpn (r : RegId) (v : BitVec 256) (x : Spindle) : unlanded (landSpn r v x) = unlanded x := by
  cases r
  · simp only [landSpn]; split <;> rfl
  · rfl
  · simp only [landSpn]; split <;> rfl

theorem unlanded_foldl (l : List Inflight) (x : Spindle) : unlanded (l.foldl (fun x f => landSpn f.reg f.val x) x) = unlanded x := by
  induction l generalizing x with
  | nil => rfl
  | cons f l ih => rw [List.foldl_cons, ih, unlanded_landSpn]

/-- What one cycle lands in a spindle. -/
def landed (core : Nat) (x : Spindle) : Spindle := drainPorts core (landDue core x)

theorem unlanded_landed (core : Nat) (x : Spindle) : unlanded (landed core x) = unlanded x := by
  change unlanded (landDue core x) = _
  rw [landDue, unlanded_foldl]
  rfl

theorem landed_default (core : Nat) : landed core {} = {} := rfl

theorem spn_landAll {s : State} (h : mwf {} s.spindles = true) (n : Nat) : spn (landAll s) n = landed s.reel.core (spn s n) :=
  mget_mmapv ({} : Spindle) (landed_default s.reel.core) ((mwf_iff_keysRise _ _).mp h).1 n

/-! ## A cycle in which no spindle issues -/

/-- No spindle issues. -/
def noneIssues (s : State) : Prop := ∀ n, (spn s n).state ≠ 1

theorem issueAll_none {s : State} (h : noneIssues s) : issueAll s = s := by
  refine List.foldl_fixed' (fun n => ?_) _
  have hno : spnIssues s n = false := by rw [spnIssues, decide_eq_false (h n), Bool.and_false]
  rw [runSpn, hno]; rfl

theorem cycleLosses_same {s t : State} (h : t.reel.lossDue = s.reel.lossDue) : cycleLosses s t = t := by
  cases hl : s.reel.lossDue <;> simp [cycleLosses, h, hl]

/-- The state a cycle leaves that moves the position from that of `s` and lands results. -/
def passed (s : State) : State := landAll (modReel (fun _ => nextPos s.reel) s)

/-- A cycle of a turn before its last. -/
theorem tick_within {s : State} (hdue : s.reel.commitDue = false) (hnone : noneIssues s) (hc : lastCycle s.reel = false) : tick s = passed s := by
  simp [tick, hdue, issueAll_none hnone, hc, cycleLosses_same rfl, passed]

/-- The last cycle of a turn, with the start of the next one where no hank ends. -/
theorem tick_last {s : State} (hdue : s.reel.commitDue = false) (hnone : noneIssues s) (hc : lastCycle s.reel = true)
    (hfin : (turnFinish s).reel = s.reel) :
    tick s = if (passed (turnFinish s)).reel.commitDue then passed (turnFinish s) else turnBegin (passed (turnFinish s)) := by
  have hl : cycleLosses s (turnFinish s) = turnFinish s := cycleLosses_same (by rw [hfin])
  simp only [tick, settle_idle s hdue, hdue, issueAll_none hnone, hc, hl, Bool.false_eq_true, if_false, if_true, Bool.true_and,
    Bool.not_eq_true', ← Bool.not_eq_true, ite_not]
  rfl

/-- `k` cycles before the last one of a turn move the position and land results, and change nothing else. -/
theorem advance_within (k : Nat) {s : State} (hrun : s.reel.run = true) (hdue : s.reel.commitDue = false) (hwf : mwf {} s.spindles = true)
    (hnone : noneIssues s) (hk : s.reel.cycle.toNat + k ≤ 8191) :
    ∃ m, advance k s = { s with reel := { s.reel with core := s.reel.core + k, cycle := s.reel.cycle + BitVec.ofNat 13 k }, spindles := m } ∧
      mwf {} m = true ∧ ∀ n, unlanded (mget {} m n) = unlanded (spn s n) := by
  induction k generalizing s with
  | zero => exact ⟨s.spindles, by simp [advance], hwf, fun _ => rfl⟩
  | succ k ih =>
    have hne : s.reel.cycle ≠ 8191 := by intro h; rw [h] at hk; simp at hk
    have hlast : lastCycle s.reel = false := by rw [lastCycle, decide_eq_false hne, Bool.and_false]
    have hpos : nextPos s.reel = { s.reel with core := s.reel.core + 1, cycle := s.reel.cycle + 1 } := by
      rw [nextPos, if_neg (by simp [hrun]), if_pos hne]
    have hwf' : mwf {} (passed s).spindles = true := mwf_mmapv ({} : Spindle) _ hwf
    have hspn : ∀ n, unlanded (spn (passed s) n) = unlanded (spn s n) := fun n => by
      rw [passed, spn_landAll (s := modReel _ s) hwf, unlanded_landed]; rfl
    have hreel : (passed s).reel = { s.reel with core := s.reel.core + 1, cycle := s.reel.cycle + 1 } := hpos
    have hcyc : (s.reel.cycle + 1).toNat = s.reel.cycle.toNat + 1 := by
      rw [BitVec.toNat_add]; exact Nat.mod_eq_of_lt (by change _ + 1 < _; omega)
    have hnone' : noneIssues (passed s) := fun n h => hnone n ((congrArg Spindle.state (hspn n)).symm.trans h)
    obtain ⟨m, hm, hmwf, hmspn⟩ := ih (s := passed s) (by rw [hreel]; exact hrun) (by rw [hreel]; exact hdue) hwf' hnone'
      (by rw [hreel]; change (s.reel.cycle + 1).toNat + k ≤ 8191; omega)
    refine ⟨m, ?_, hmwf, fun n => (hmspn n).trans (hspn n)⟩
    have hcore : s.reel.core + 1 + k = s.reel.core + (k + 1) := by omega
    have hcycle : s.reel.cycle + 1 + BitVec.ofNat 13 k = s.reel.cycle + BitVec.ofNat 13 (k + 1) := by
      rw [Nat.add_comm k 1, BitVec.ofNat_add, BitVec.add_assoc]; rfl
    rw [advance, tick_within hdue hnone hlast, hm, hreel]
    simp only [hcore, hcycle]
    rfl

theorem advance_succ (k : Nat) (s : State) : advance (k + 1) s = tick (advance k s) := by
  induction k generalizing s with
  | zero => rfl
  | succ k ih => exact ih (tick s)

/-! ## The end of a turn and the start of the next -/

/-- A state with the parts cleared that a turn's end and start may change where no command is in the table. -/
def turnRest (s : State) : State :=
  { s with spindles := [], lanes := [], drcs := [], evr := {}, draws := 0, now := 0, ports := [], xpt := {} }

theorem reel_of_turnRest {s t : State} (h : turnRest s = turnRest t) : s.reel = t.reel := (congrArg State.reel h : (turnRest s).reel = _)
theorem cmds_of_turnRest {s t : State} (h : turnRest s = turnRest t) : s.tables.cmds = t.tables.cmds :=
  (congrArg (fun u => u.tables.cmds) h : (turnRest s).tables.cmds = _)

/-- LAST_END shows the last cycle issued (R134). -/
def noteEnd (x : Spindle) : Spindle := { x with lastEnd := x.lastIssue }

/-- What a turn's end does to a spindle that does not issue (R110, R134). -/
def endTurn (r : Reel) (x : Spindle) : Spindle :=
  if x.state = 2 ∨ x.state = 3 ∧ r.core < x.fcore + 8192 ∧ x.fturn = r.turn then noteEnd x else x

/-- What a turn's start does to a spindle (R53, R110, R132). -/
def beginTurn (r : Reel) (n : Nat) (x : Spindle) : Spindle :=
  if x.state = 3 then if x.restart then startAt (entryOf r n) (restarted r.core x) else x else startAt (entryOf r n) x

/-- A change of one spindle, read at any spindle. -/
theorem spn_modSpn (n m : Nat) (f : Spindle → Spindle) (s : State) : spn (modSpn n f s) m = if m = n then f (spn s n) else spn s m := by
  split
  · next h => rw [h, spn_modSpn_same]
  · next h => exact spn_modSpn_other n f s h

theorem endTurn_state (r : Reel) (x : Spindle) : (endTurn r x).state = x.state := by
  unfold endTurn; split <;> rfl

/-- A turn's end of one spindle that does not issue. -/
theorem turnEnd_idle {s : State} {n : Nat} (h : (spn s n).state ≠ 1) :
    turnRest (turnEnd s n) = turnRest s ∧ (mwf {} s.spindles = true → mwf {} (turnEnd s n).spindles = true) ∧
      ∀ m, spn (turnEnd s n) m = if m = n then endTurn s.reel (spn s n) else spn s m := by
  have hid : ∀ m, spn s m = if m = n then spn s n else spn s m := fun m => by split <;> simp_all
  have hcases : turnEnd s n = if (spn s n).state = 2 ∨ (spn s n).state = 3 ∧ s.reel.core < (spn s n).fcore + 8192 ∧ (spn s n).fturn = s.reel.turn
      then modSpn n noteEnd s else s := by
    rw [turnEnd, if_neg h]
    by_cases h2 : (spn s n).state = 2
    · rw [if_pos h2, if_pos (.inl h2)]; rfl
    · rw [if_neg h2]
      refine ite_congr (propext ?_) (fun _ => rfl) (fun _ => rfl)
      simp only [Bool.and_eq_true, decide_eq_true_eq, and_assoc, or_iff_right h2]
  rw [hcases, endTurn]
  split
  · exact ⟨rfl, fun hw => mwf_mmod ({} : Spindle) n noteEnd _ hw, fun m => spn_modSpn n m noteEnd s⟩
  · exact ⟨rfl, id, hid⟩

/-- A turn's end where no spindle issues. -/
theorem turnFinish_idle {s : State} (hnone : noneIssues s) (hwf : mwf {} s.spindles = true) :
    turnRest (turnFinish s) = turnRest s ∧ mwf {} (turnFinish s).spindles = true ∧
      ∀ m, spn (turnFinish s) m = if spindlesRun s = true ∧ m < nSpindles s then endTurn s.reel (spn s m) else spn s m := by
  by_cases hrun : spindlesRun s = true
  · let inv : State → Prop := fun u => turnRest u = turnRest s ∧ mwf {} u.spindles = true ∧ noneIssues u
    have hinv : ∀ u n, inv u → inv (turnEnd u n) := fun u n ⟨hr, hw, hu⟩ => by
      obtain ⟨hr', hw', hspn⟩ := turnEnd_idle (hu n)
      refine ⟨hr'.trans hr, hw' hw, fun m => ?_⟩
      rw [hspn]
      split
      · rw [endTurn_state]; exact hu n
      · exact hu m
    have hstep : ∀ u n m, inv u → spn (turnEnd u n) m = if m = n then endTurn s.reel (spn u n) else spn u m := fun u n m ⟨hr, _, hu⟩ => by
      rw [(turnEnd_idle (hu n)).2.2, reel_of_turnRest hr]
    have hs : inv s := ⟨rfl, hwf, hnone⟩
    obtain ⟨hr, hw, -⟩ := foldl_keeps hinv (List.range (nSpindles s)) hs
    have hspn := foldl_units (look := spn) (g := fun _ => endTurn s.reel) hinv hstep (List.nodup_range (n := nSpindles s)) hs
    simp only [turnFinish, hrun, if_true, true_and]
    exact ⟨hr, hw, fun m => (hspn m).trans (by simp)⟩
  · rw [turnFinish, if_neg hrun]
    exact ⟨rfl, hwf, fun m => by rw [if_neg (fun h => hrun h.1)]; rfl⟩

/-! ### The start: capsules held are passed on, which fills receive queues -/

/-- A spindle without its RXQ. -/
def noRxq (x : Spindle) : Spindle := { x with rxq := [] }

theorem noRxq_beginTurn (r : Reel) (n : Nat) (x : Spindle) : noRxq (beginTurn r n x) = beginTurn r n (noRxq x) := by
  unfold beginTurn
  change _ = if x.state = 3 then if x.restart then _ else _ else _
  split
  · split <;> rfl
  · rfl

theorem spn_event (code : BitVec 16) (ws : List (BitVec 32)) (s : State) (m : Nat) : spn (event code ws s) m = spn s m := rfl

theorem dropCout_frame (n : Nat) (s : State) : turnRest (dropCout n s) = turnRest s ∧ (dropCout n s).spindles = s.spindles := by
  unfold dropCout
  refine foldl_keeps (I := fun u => turnRest u = turnRest s ∧ u.spindles = s.spindles) ?_ _ ⟨rfl, rfl⟩
  exact fun u k h => h

theorem noRxq_modSpn_rxq (n m : Nat) (f : Spindle → Spindle) (hf : ∀ x, noRxq (f x) = noRxq x) (s : State) :
    noRxq (spn (modSpn n f s) m) = noRxq (spn s m) := by
  rw [spn_modSpn]
  split
  · next h => rw [hf, h]
  · rfl

/-- Passing on what is held changes nothing of a spindle but its RXQ. -/
theorem passHeld_frame (s : State) : turnRest (passHeld s) = turnRest s ∧ ∀ m, noRxq (spn (passHeld s) m) = noRxq (spn s m) := by
  unfold passHeld
  split
  · exact ⟨rfl, fun _ => rfl⟩
  · refine foldl_keeps (I := fun u => turnRest u = turnRest s ∧ ∀ m, noRxq (spn u m) = noRxq (spn s m)) ?_ _ ⟨rfl, fun _ => rfl⟩
    exact fun u h hu => ⟨hu.1, fun m => (noRxq_modSpn_rxq h.spindle m (fun x => { x with rxq := x.rxq ++ h.units }) (fun _ => rfl) u).trans (hu.2 m)⟩

/-- A restart with no command in the table: the spindle's registers and memories first, then what is held is passed on (R132). -/
theorem restartNow_idle {s : State} (n : Nat) (hc : s.tables.cmds = []) : ∃ u, restartNow n s = passHeld u ∧ turnRest u = turnRest s ∧
    ∀ m, spn u m = if m = n then startAt (entryOf s.reel n) (restarted s.reel.core (spn s n)) else spn s m := by
  obtain ⟨hrest, hspn⟩ := dropCout_frame n s
  have hspn' : ∀ m, spn (dropCout n s) m = spn s m := fun m => by rw [spn, hspn]; rfl
  have hfail : ∀ u : State, u.tables.cmds = [] → failSpindle n u = u := fun u hu => by simp [failSpindle, hu]
  refine ⟨_, congrArg passHeld (hfail _ ((cmds_of_turnRest hrest).trans hc)), hrest, fun m => ?_⟩
  rw [spn_event, spn_modSpn, hspn', hspn']

/-- A turn's start of one spindle, with no command in the table. -/
theorem turnStart_idle {s : State} (n : Nat) (hc : s.tables.cmds = []) : turnRest (turnStart s n) = turnRest s ∧
    ∀ m, noRxq (spn (turnStart s n) m) = if m = n then beginTurn s.reel n (noRxq (spn s n)) else noRxq (spn s m) := by
  rw [← noRxq_beginTurn, turnStart, beginTurn]
  by_cases h3 : (spn s n).state = 3
  · by_cases hr : (spn s n).restart = true
    · rw [if_pos h3, if_pos hr, if_pos h3, if_pos hr]
      obtain ⟨u, hu, hrest, hspn⟩ := restartNow_idle n hc
      obtain ⟨hp, hpspn⟩ := passHeld_frame u
      rw [hu]
      exact ⟨hp.trans hrest, fun m => by rw [hpspn, hspn, apply_ite noRxq]⟩
    · rw [if_pos h3, if_neg hr, if_pos h3, if_neg hr]
      exact ⟨rfl, fun m => by split <;> simp_all⟩
  · rw [if_neg h3, if_neg h3]
    exact ⟨rfl, fun m => by rw [spn_modSpn, apply_ite noRxq]⟩

/-- A turn's start with no command in the table. -/
theorem turnBegin_idle {s : State} (hc : s.tables.cmds = []) : turnRest (turnBegin s) = turnRest s ∧
    ∀ m, noRxq (spn (turnBegin s) m) =
      if spindlesRun s = true ∧ m < nSpindles s then beginTurn s.reel m (noRxq (spn s m)) else noRxq (spn s m) := by
  by_cases hrun : spindlesRun s = true
  · have hinv : ∀ u n, turnRest u = turnRest s → turnRest (turnStart u n) = turnRest s := fun u n hu =>
      (turnStart_idle n ((cmds_of_turnRest hu).trans hc)).1.trans hu
    have hstep : ∀ u n m, turnRest u = turnRest s →
        noRxq (spn (turnStart u n) m) = if m = n then beginTurn s.reel n (noRxq (spn u n)) else noRxq (spn u m) := fun u n m hu => by
      rw [(turnStart_idle n ((cmds_of_turnRest hu).trans hc)).2, reel_of_turnRest hu]
    have hspn := foldl_units (look := fun u m => noRxq (spn u m)) (g := beginTurn s.reel) hinv hstep (List.nodup_range (n := nSpindles s)) rfl
    rw [turnBegin, if_pos hrun]
    exact ⟨foldl_keeps hinv _ rfl, fun m => (hspn m).trans (by simp [hrun])⟩
  · rw [turnBegin, if_neg hrun]
    exact ⟨rfl, fun m => by simp [hrun]⟩

/-! ## The statement -/

theorem parts_of_turnRest {s t : State} (h : turnRest s = turnRest t) :
    s.mem = t.mem ∧ s.cores = t.cores ∧ s.piers = t.piers ∧ s.fcr = t.fcr :=
  ⟨(congrArg State.mem h : (turnRest s).mem = _), (congrArg State.cores h : (turnRest s).cores = _),
    (congrArg State.piers h : (turnRest s).piers = _), (congrArg State.fcr h : (turnRest s).fcr = _)⟩

/-- Between `s`, whose cycle is the last of a turn, and `t` the turn has ended for spindle `n`, its results have landed, and the next turn has
begun for it, but at a hank's end. -/
def turnsOver (s t : State) (n : Nat) : Prop :=
  let runs := spindlesRun s = true ∧ n < nSpindles s
  ∃ y, unlanded y = unlanded (if runs then endTurn s.reel (spn s n) else spn s n) ∧
    noRxq (spn t n) = if s.reel.turn ≠ 63 ∧ runs then beginTurn t.reel n (noRxq y) else noRxq y

/-- The last cycle of a turn in which no spindle issues. -/
theorem tick_turns {s : State} (hrun : s.reel.run = true) (hdue : s.reel.commitDue = false) (hwf : mwf {} s.spindles = true)
    (hc : s.tables.cmds = []) (hnone : noneIssues s) (hcyc : s.reel.cycle = 8191) :
    (tick s).reel = { s.reel with core := s.reel.core + 1, cycle := 0, turn := s.reel.turn + 1, commitDue := decide (s.reel.turn = 63) } ∧
      ((tick s).mem = s.mem ∧ (tick s).cores = s.cores ∧ (tick s).piers = s.piers ∧ (tick s).fcr = s.fcr) ∧ ∀ n, turnsOver s (tick s) n := by
  obtain ⟨hrest, hvwf, hspn⟩ := turnFinish_idle hnone hwf
  have hlast : lastCycle s.reel = true := by simp [lastCycle, hrun, hcyc]
  rw [tick_last hdue hnone hlast (reel_of_turnRest hrest)]
  generalize turnFinish s = v at hrest hvwf hspn
  have hreel : (passed v).reel = { s.reel with
      core := s.reel.core + 1, cycle := 0, turn := s.reel.turn + 1, commitDue := decide (s.reel.turn = 63) } := by
    change nextPos v.reel = _
    rw [reel_of_turnRest hrest, nextPos, if_neg (by simp [hrun]), if_neg (by simp [hcyc])]
  have hland : ∀ n, unlanded (spn (passed v) n) = unlanded (if spindlesRun s = true ∧ n < nSpindles s then endTurn s.reel (spn s n) else spn s n) := by
    intro n
    rw [passed, spn_landAll (s := modReel _ v) hvwf, unlanded_landed]
    exact congrArg unlanded (hspn n)
  have hparts := parts_of_turnRest hrest
  by_cases h63 : s.reel.turn = 63
  · rw [if_pos (by rw [hreel]; exact decide_eq_true h63)]
    exact ⟨hreel, hparts, fun n => ⟨_, hland n, by rw [if_neg (fun h => h.1 h63)]⟩⟩
  · rw [if_neg (by rw [hreel]; simpa using h63)]
    obtain ⟨hb, hbspn⟩ := turnBegin_idle (s := passed v) ((cmds_of_turnRest hrest).trans hc)
    have hruns : spindlesRun (passed v) = spindlesRun s := by simp only [spindlesRun, hreel]
    have hn : nSpindles (passed v) = nSpindles s := (congrArg nSpindles hrest : nSpindles (turnRest v) = _)
    refine ⟨(reel_of_turnRest hb).trans hreel, ?_, fun n => ⟨_, hland n, ?_⟩⟩
    · obtain ⟨hm, hcores, hp, hf⟩ := parts_of_turnRest hb
      exact ⟨hm.trans hparts.1, hcores.trans hparts.2.1, hp.trans hparts.2.2.1, hf.trans hparts.2.2.2⟩
    · rw [hbspn n, hruns, hn, reel_of_turnRest hb]
      exact ite_congr (propext (and_iff_right h63).symm) (fun _ => rfl) (fun _ => rfl)

/-- TURN_BOUNDARY of a running clock with no spindle issuing: the cycles of the turn before the last, which land results, and the last one. -/
theorem turnBoundary_idle {s : State} (hrun : s.reel.run = true) (hdue : s.reel.commitDue = false) (hwf : mwf {} s.spindles = true)
    (hc : s.tables.cmds = []) (hnone : noneIssues s) : ∃ u t, exec .turnBoundary s = .next t ∧
      t.reel = { s.reel with core := s.reel.core + (8192 - s.reel.cycle.toNat), cycle := 0, turn := s.reel.turn + 1,
                             commitDue := decide (s.reel.turn = 63) } ∧
      (t.mem = s.mem ∧ t.cores = s.cores ∧ t.piers = s.piers ∧ t.fcr = s.fcr) ∧
      (spindlesRun u = spindlesRun s ∧ nSpindles u = nSpindles s ∧ u.reel.turn = s.reel.turn) ∧
      ∀ n, unlanded (spn u n) = unlanded (spn s n) ∧ turnsOver u t n := by
  have hlt := s.reel.cycle.isLt
  obtain ⟨m, hm, hmwf, hmspn⟩ := advance_within (8191 - s.reel.cycle.toNat) hrun hdue hwf hnone (by omega)
  have hcyc : s.reel.cycle + BitVec.ofNat 13 (8191 - s.reel.cycle.toNat) = 8191 := by
    apply BitVec.eq_of_toNat_eq
    simp [BitVec.toNat_add]; omega
  have hexec : exec .turnBoundary s = .next (tick (advance (8191 - s.reel.cycle.toNat) s)) := by
    have hsucc : 8192 - s.reel.cycle.toNat = (8191 - s.reel.cycle.toNat) + 1 := by omega
    change execTurnBoundary s = _
    rw [execTurnBoundary, if_pos hrun, hsucc, advance_succ]
  have hcore : s.reel.core + (8192 - s.reel.cycle.toNat) = s.reel.core + (8191 - s.reel.cycle.toNat) + 1 := by omega
  rw [hm, hcyc] at hexec
  obtain ⟨hreel, hparts, hturned⟩ := tick_turns (s := { s with
      reel := { s.reel with core := s.reel.core + (8191 - s.reel.cycle.toNat), cycle := 8191 }, spindles := m })
    hrun hdue hmwf hc (fun n h => hnone n ((congrArg Spindle.state (hmspn n)).symm.trans h)) rfl
  exact ⟨{ s with reel := { s.reel with core := s.reel.core + (8191 - s.reel.cycle.toNat), cycle := 8191 }, spindles := m }, _, hexec,
    by rw [hreel, hcore], hparts, ⟨rfl, rfl, rfl⟩, fun n => ⟨hmspn n, hturned n⟩⟩

/-! ## The statement -/

theorem endTurn_keeps (r : Reel) (x : Spindle) : (endTurn r x).scratch = x.scratch ∧ (endTurn r x).pm = x.pm ∧ (endTurn r x).restart = x.restart := by
  unfold endTurn; split <;> exact ⟨rfl, rfl, rfl⟩

theorem beginTurn_keeps (r : Reel) (n : Nat) (x : Spindle) :
    (beginTurn r n x).scratch = x.scratch ∧ (beginTurn r n x).pm = x.pm ∧ (beginTurn r n x).lastEnd = x.lastEnd := by
  unfold beginTurn
  split
  · split <;> exact ⟨rfl, rfl, rfl⟩
  · exact ⟨rfl, rfl, rfl⟩

/-- What a turn's passing leaves of a spindle, whether or not the turn is one of the deck's: its memories, and LAST_END of one that had ended. -/
theorem turnsOver_keeps {s t : State} {n : Nat} (h : turnsOver s t n) : (spn t n).scratch = (spn s n).scratch ∧ (spn t n).pm = (spn s n).pm ∧
    ((spn s n).state = 2 → spindlesRun s = true → n < nSpindles s → (spn t n).lastEnd = (spn s n).lastIssue) := by
  obtain ⟨y, hy, ht⟩ := h
  obtain ⟨hsc, hpm, -⟩ := endTurn_keeps s.reel (spn s n)
  obtain ⟨hsc', hpm', hle'⟩ := beginTurn_keeps t.reel n (noRxq y)
  have hty : (spn t n).scratch = y.scratch ∧ (spn t n).pm = y.pm ∧ (spn t n).lastEnd = y.lastEnd := by
    refine ⟨(congrArg Spindle.scratch ht : (noRxq (spn t n)).scratch = _).trans ?_, (congrArg Spindle.pm ht : (noRxq (spn t n)).pm = _).trans ?_,
      (congrArg Spindle.lastEnd ht : (noRxq (spn t n)).lastEnd = _).trans ?_⟩
    · split; exacts [hsc', rfl]
    · split; exacts [hpm', rfl]
    · split; exacts [hle', rfl]
  have field : ∀ {β : Type} (g : Spindle → β), (∀ x, g (unlanded x) = g x) →
      g y = if spindlesRun s = true ∧ n < nSpindles s then g (endTurn s.reel (spn s n)) else g (spn s n) := fun g hg => by
    rw [← hg y, hy, hg, apply_ite g]
  refine ⟨hty.1.trans ?_, hty.2.1.trans ?_, fun h2 hr hn => hty.2.2.trans ?_⟩
  · rw [field (·.scratch) (fun _ => rfl), hsc, ite_self]
  · rw [field (·.pm) (fun _ => rfl), hpm, ite_self]
  · rw [field (·.lastEnd) (fun _ => rfl), if_pos ⟨hr, hn⟩, endTurn, if_pos (.inl h2)]; rfl

/-- A spindle that starts stands at the timetable's address, the bundle after it next (R53, R110). -/
def startsAt (r : Reel) (n : Nat) (x : Spindle) : Prop :=
  x.state = 1 ∧ x.endLeft = none ∧ x.a1 = x.a0 + 16 ∧ x.a0 = entryOf r n

/-- What the start of a turn does to a spindle of a running deck. -/
theorem turnsOver_starts {s t : State} {n : Nat} (h : turnsOver s t n) (h63 : s.reel.turn ≠ 63) (hr : spindlesRun s = true) (hn : n < nSpindles s) :
    ((spn s n).state ≠ 3 → startsAt t.reel n (spn t n)) ∧
    ((spn s n).state = 3 → (spn s n).restart = true → startsAt t.reel n (spn t n) ∧ (spn t n).g = [] ∧ (spn t n).v = [] ∧ (spn t n).p = [] ∧
      (spn t n).fcause = 0 ∧ (spn t n).fpc = 0 ∧ (spn t n).restart = false) ∧
    ((spn s n).state = 3 → (spn s n).restart = false → (spn t n).state = 3) := by
  obtain ⟨y, hy, ht⟩ := h
  rw [if_pos ⟨hr, hn⟩] at hy
  rw [if_pos ⟨h63, hr, hn⟩] at ht
  have hstate : y.state = (spn s n).state := (congrArg Spindle.state hy : (unlanded y).state = _).trans (endTurn_state s.reel (spn s n))
  have hrestart : y.restart = (spn s n).restart :=
    (congrArg Spindle.restart hy : (unlanded y).restart = _).trans (endTurn_keeps s.reel (spn s n)).2.2
  rw [← hstate, ← hrestart]
  have hall : ∀ P : Spindle → Prop, (∀ x, P (noRxq x) = P x) → P (beginTurn t.reel n (noRxq y)) → P (spn t n) := fun P hP hb => by
    rw [← hP, ht]; exact hb
  refine ⟨fun h3 => ?_, fun h3 hre => ?_, fun h3 hre => ?_⟩
  · refine hall (startsAt t.reel n) (fun _ => rfl) ?_
    rw [beginTurn, if_neg (show ¬ (noRxq y).state = 3 from h3)]
    exact ⟨rfl, rfl, rfl, rfl⟩
  · refine hall (fun x => startsAt t.reel n x ∧ x.g = [] ∧ x.v = [] ∧ x.p = [] ∧ x.fcause = 0 ∧ x.fpc = 0 ∧ x.restart = false) (fun _ => rfl) ?_
    rw [beginTurn, if_pos (show (noRxq y).state = 3 from h3), if_pos (show (noRxq y).restart = true from hre)]
    exact ⟨⟨rfl, rfl, rfl, rfl⟩, rfl, rfl, rfl, rfl, rfl, rfl⟩
  · refine hall (fun x => x.state = 3) (fun _ => rfl) ?_
    rw [beginTurn, if_pos (show (noRxq y).state = 3 from h3), if_neg (by rw [show (noRxq y).restart = false from hre]; simp)]
    exact h3

/-- Settles O27: the turn's cycles land results, its last one ends the turn and starts the next for each spindle. -/
theorem clockTurns : Obligations.ClockTurns := by
  unfold Obligations.ClockTurns
  refine ⟨fun s hrun => ?_, fun s hrun hdue hwf hc hnone => ?_⟩
  · change execTurnBoundary s = _
    rw [execTurnBoundary, if_neg (by simp [hrun])]
  · obtain ⟨u, t, hexec, hreel, ⟨hmem, hcores, hpiers, hfcr⟩, ⟨hrunu, hnu, hturnu⟩, hspn⟩ := turnBoundary_idle hrun hdue hwf hc hnone
    refine ⟨t, hexec, hreel, hmem, hcores, hpiers, hfcr, fun n => ?_⟩
    obtain ⟨hu, hturns⟩ := hspn n
    have field : ∀ {β : Type} (g : Spindle → β), (∀ x, g (unlanded x) = g x) → g (spn u n) = g (spn s n) := fun g hg => by rw [← hg, hu, hg]
    have hruns : s.reel.deck ≠ 0 → s.reel.deck ≠ 0xE → spindlesRun u = true := fun h0 hE => by
      rw [hrunu, spindlesRun, hrun, decide_eq_true h0, decide_eq_true hE]; rfl
    obtain ⟨hsc, hpm, hend⟩ := turnsOver_keeps hturns
    have hentry : entryOf t.reel n = (mget 0 s.reel.tt.entries ((s.reel.phase.toNat * 64 + (s.reel.turn + 1).toNat) * 64 + n)).toNat * 16 := by
      rw [entryOf, hreel]
    rw [hnu, field (·.state) fun _ => rfl] at hend
    refine ⟨hsc.trans (field (·.scratch) fun _ => rfl), hpm.trans (field (·.pm) fun _ => rfl), fun h2 hn h0 hE => ?_, fun h63 h0 hE hn => ?_⟩
    · exact (hend h2 (hruns h0 hE) hn).trans (field (·.lastIssue) fun _ => rfl)
    · have hstarts := turnsOver_starts hturns (by rw [hturnu]; exact h63) (hruns h0 hE) (by rw [hnu]; exact hn)
      rw [field (·.state) fun _ => rfl, field (·.restart) fun _ => rfl] at hstarts
      unfold startsAt at hstarts
      rw [hentry] at hstarts
      exact hstarts

end Sys2Proof.Machine

/-! # SUPPORT. A hank commit that leaves another due (R72, R199, R204, R626)

A pending request for Hold with data staged starts the flush of R204 instead of a switch. Where an activation has stopped the sequencer, the start
of a flush sets the position to a hank boundary that is due (R626 step 3). The hypotheses of HankCommits allow both at once. -/

namespace Sys2Proof.Machine

/-- A running sequencer at a hank boundary, with a request for Hold pending, one byte staged, an image that has run and an activation stopped. -/
def holdAtStop : State :=
  { reel := { run := true, commitDue := true, req := some { mode := 0 } }, store := { act := .stopped }, pwr := { imageRan := true }
    media := { staged := 1 } }

/-- HANK_COMMIT of a boundary that has been reached: the steps of R72, then the first turn's start. -/
theorem exec_hankCommit {s : State} (hdue : s.reel.commitDue = true) (hstop : maySequencerStop s = false) :
    exec .hankCommit s = .next (turnBegin (hankCommit s)) := by
  change execHankCommit s = _
  have hb : toBoundary s = s := by rw [toBoundary, hdue, Bool.true_or, if_pos rfl]
  rw [execHankCommit, hb, settle, hdue, hstop, Bool.not_false, Bool.and_true, if_pos rfl, commitNow]

/-- The flush that the commit starts finds the activation stopped, and its boundary is due again. -/
theorem hankCommit_holdAtStop : (turnBegin (hankCommit holdAtStop)).reel.commitDue = true := by decide +kernel

/-- Refutes O28: with an activation stopped, a commit that takes up a request for Hold with data staged starts a flush, which leaves a commit
due. -/
theorem not_hankCommits : ¬ Obligations.HankCommits := by
  unfold Obligations.HankCommits
  intro h
  have hstop : maySequencerStop holdAtStop = false := by decide
  obtain ⟨t, ht, -, hdue, -⟩ := h holdAtStop rfl rfl hstop ⟨rfl, rfl, rfl, rfl⟩ rfl rfl rfl (fun _ he => absurd he (by simp [holdAtStop]))
  rw [exec_hankCommit rfl hstop] at ht
  have hst : turnBegin (hankCommit holdAtStop) = t := by injection ht
  rw [← hst, hankCommit_holdAtStop] at hdue
  exact Bool.noConfusion hdue

end Sys2Proof.Machine

/-! # SUPPORT. A completion whose send key another one has used up (R250, R291, R432, R437)

A Flush with nothing to wait for ends through the release of everything that waits and has been reached. An earlier Flush of the same TLS connection
is released with it, and first: its record takes the send key to its limit, and the record of the later one is refused. -/

namespace Sys2Proof.Machine

/-- A Flush of every namespace that has been received. -/
def flushRead : Cmd := { conn := 1, cid := 1, nsid := 0xFFFFFFFF }

/-- An earlier Flush of the same connection, with nothing left to wait for. -/
def flushWaits : Cmd := { flushRead with cid := 2, phase := .waiting }

/-- A TLS connection whose send key is one block short of its limit, the two Flushes on it, and a parse issue slot of their class. -/
def keyAtLimit : State :=
  { reel := { deck := 1, grants := [{ slot := { typ := 8, owner := 0 } }] }
    xpt := { conns := [(1, { isOpen := true, tcp := true, tls := true, kTx := 1 })] }
    ciph := { slots := [(1, { use := 1, limit := 4, cnt := 15 })] }
    tables := { cmds := [flushWaits, flushRead] } }

theorem alone_flushRead : alone keyAtLimit flushRead := by
  refine ⟨by simp [keyAtLimit], rfl, rfl, fun x hx _ _ hcid => ?_⟩
  simp only [keyAtLimit, List.mem_cons, List.not_mem_nil, or_false] at hx
  rcases hx with rfl | rfl
  · exact absurd hcid (by decide)
  · rfl

theorem parseTurn_flushRead : parseTurn keyAtLimit flushRead = true := by decide +kernel

/-- The key still serves one record. -/
theorem tlsSend_keyAtLimit (l : List (BitVec 8)) : (tlsSend 1 l keyAtLimit).1 ≠ none := by
  have hkey : keyRefusal (keyOf keyAtLimit (connOf keyAtLimit (1 : BitVec 16).toNat).kTx.toNat) = none := by decide +kernel
  rw [tlsSend, tlsSendOf]
  simp only [useKey, hkey]
  exact Option.some_ne_none _

/-- The state after the Flush. -/
def flushedAtLimit : State := parseIo flushRead keyAtLimit

theorem exec_flush_keyAtLimit : exec (.flush 1 1) keyAtLimit = .next flushedAtLimit := by
  have hr : received keyAtLimit 1 1 [0] = some flushRead := by decide +kernel
  change execFlush 1 1 keyAtLimit = _
  rw [execFlush, hr, flushedAtLimit]

/-- The one frame that is queued is the earlier command's. -/
theorem tx_flushedAtLimit : flushedAtLimit.xpt.tx.all (fun f => decide (f.cid = some 2)) = true := by decide +kernel

/-- Refutes O49: a Flush with nothing to wait for whose TLS connection can form its record ends without a completion, where an earlier Flush
released with it takes the send key to its limit. -/
theorem not_commandTable : ¬ Obligations.CommandTable := by
  unfold Obligations.CommandTable
  intro h
  obtain ⟨-, -, -, hflush, -⟩ := h flushRead keyAtLimit
  obtain ⟨t, ht, -, -, htls, -⟩ := hflush ⟨⟨alone_flushRead, parseTurn_flushRead⟩, rfl⟩ rfl (by decide +kernel) (.inl rfl) (by decide +kernel)
    (by decide +kernel)
  have hst : flushedAtLimit = t := by
    have := exec_flush_keyAtLimit.symm.trans ht
    injection this
  subst hst
  obtain ⟨us, hmem⟩ := htls (by decide +kernel) (tlsSend_keyAtLimit _)
  have hcid := List.all_eq_true.mp tx_flushedAtLimit _ (List.mem_of_mem_drop hmem)
  exact absurd (of_decide_eq_true hcid) (show some (1 : BitVec 16) ≠ some 2 by decide)

end Sys2Proof.Machine

/-! # SUPPORT. The crossing queues and the core clock under a fault (R26, R158) -/

namespace Sys2Proof.Machine

/-- The core clock and the crossing queues. -/
def crossings (s : State) : Nat × SMap Nat × SMap (List Nat) := (s.reel.core, s.reel.xq, s.reel.xfly)

@[simp] theorem crossings_ite (c : Prop) [Decidable c] (s t : State) :
    crossings (if c then s else t) = if c then crossings s else crossings t := by
  split <;> rfl

theorem crossings_of_reel {s t : State} (h : t.reel = s.reel) : crossings t = crossings s := by
  simp [crossings, h]

theorem crossings_fields {s t : State} (h : crossings t = crossings s) :
    t.reel.core = s.reel.core ∧ t.reel.xq = s.reel.xq ∧ t.reel.xfly = s.reel.xfly := by
  unfold crossings at h
  injection h with hcore h
  injection h with hxq hxfly
  exact ⟨hcore, hxq, hxfly⟩

theorem crossings_foldl {β : Type} (f : State → β → State) (h : ∀ s b, crossings (f s b) = crossings s) (l : List β) (s : State) :
    crossings (l.foldl f s) = crossings s :=
  l.foldlRecOn f (motive := fun t => crossings t = crossings s) rfl fun t ht b _ => (h t b).trans ht

@[simp] theorem crossings_bacSpoil (off n : Nat) (s : State) : crossings (bacSpoil off n s) = crossings s := by
  induction n generalizing off s with
  | zero => rfl
  | succ n ih => exact ih _ _

@[simp] theorem crossings_bacAbandon (s : State) : crossings (bacAbandon s) = crossings s := by
  unfold bacAbandon
  split
  · rfl
  · exact crossings_foldl _ (fun s r => crossings_bacSpoil _ _ s) _ s

@[simp] theorem crossings_writeRecord (k a b c d : Nat) (s : State) : crossings (writeRecord k a b c d s) = crossings s := by
  have hline : ∀ n l u, crossings (putRecord k n l u) = crossings u := fun n l u => by unfold putRecord; dsimp only; split <;> rfl
  simp only [writeRecord]
  rw [crossings_ite, hline, ← crossings_bacAbandon s]
  exact ite_self _

@[simp] theorem crossings_answerMode (q : ModeReq) (st : BitVec 16) (r : BitVec 32) (s : State) :
    crossings (answerMode q st r s) = crossings s := by
  unfold answerMode tilostAnswer
  split
  · rfl
  · dsimp only
    split
    · rfl
    · exact crossings_foldl (fun s m => tilostSend m s) (fun _ _ => rfl) _ _

@[simp] theorem crossings_deviceRequest (m : BitVec 4) (b : Bool) (s : State) : crossings (deviceRequest m b s) = crossings s := by
  have hdrop : crossings (dropRequest true s) = crossings s := by
    unfold dropRequest
    split
    · rfl
    · exact crossings_answerMode _ _ _ _
  unfold deviceRequest
  extract_lets already t
  split
  · rfl
  · split
    · exact hdrop
    · split
      · rfl
      · exact hdrop

@[simp] theorem crossings_startFlush (t : BitVec 4) (s : State) : crossings (startFlush t s) = crossings s := by
  have hstop : ∀ u, crossings (flushStopped u) = crossings u := fun u => by unfold flushStopped; split <;> rfl
  have hput : ∀ n l u, crossings (putFlushRec n l u) = crossings u := fun n l u => by unfold putFlushRec; dsimp only; split <;> rfl
  have hbegin : ∀ n u, crossings (writeBegin t n u) = crossings u := fun n u => by
    unfold writeBegin writeFlushRec
    dsimp only
    rw [crossings_of_reel (modPwr_reel _ _), hput]
  unfold startFlush
  split
  · rfl
  · rw [hstop, hbegin, crossings_bacAbandon]; rfl

@[simp] theorem crossings_becomeGrave (g : Nat) (c : BitVec 2) (s : State) : crossings (becomeGrave g c s) = crossings s := by
  have hfin : ∀ u, crossings (graveFinish u) = crossings u := fun u => by
    unfold graveFinish
    rw [crossings_writeRecord]
    split
    · exact crossings_deviceRequest _ _ u
    · rfl
  unfold becomeGrave
  extract_lets s1 s2 rg s3 s4 s5
  split
  · rfl
  · split
    · rfl
    · split
      · exact hfin _
      · split
        · exact crossings_startFlush 4 s4
        · exact (hfin _).trans (crossings_startFlush 4 s4)

/-- A fault leaves the core clock and the crossing queues as they are. -/
@[simp] theorem crossings_raiseFault (g : Nat) (c : BitVec 3) (s : State) : crossings (raiseFault g c s) = crossings s := by
  have harrive : ∀ u, crossings (severeArrive g u) = crossings u := fun u => by
    unfold severeArrive
    split
    · rfl
    · split
      · rfl
      · split
        · rfl
        · exact crossings_becomeGrave g 2 u
  unfold raiseFault
  extract_lets s1 x esc s2
  split
  · exact crossings_becomeGrave g 1 s1
  · have hs2 : crossings s2 = crossings s := by simp only [s2]; split <;> rfl
    split
    · exact (harrive s2).trans hs2
    · exact hs2

end Sys2Proof.Machine

/-! # SUPPORT. Units into a crossing queue that has room, and the item of a read on PIN (R26, R158, R392, R395) -/

namespace Sys2Proof.Machine

/-! ## The crossing of a pier to CORE -/

/-- A crossing queue as it is after pushes: only what is in flight differs. -/
def inFlightTo (m : SMap (List Nat)) (s : State) : State := modReel (fun u => { u with xfly := m }) s

/-- After `k` units of an item the queue of channel `c` holds, at each later cycle, what it held before the item (less than 200) and those of the
`k` units that have not left it. -/
def hasRoom (c k : Nat) (s : State) : Prop := ∀ j, k ≤ j → crossingLoad s 1 c (s.reel.core + j) ≤ 199 + (k - (j - 87))

theorem hasRoom_of_load {c : Nat} {s : State} (h : ∀ m, crossingLoad s 1 c m < 200) : hasRoom c 0 s := fun j _ => by
  have := h (s.reel.core + j)
  omega

/-- What is in flight to CORE on channel `c` after a unit pushed `k` cycles from now. -/
def flyAfter (c k : Nat) (s : State) : SMap (List Nat) :=
  mset [] (crossingKey 1 c) ((mget [] s.reel.xfly (crossingKey 1 c)).filter (fun t => decide (s.reel.core < t)) ++ [s.reel.core + k + 88]) s.reel.xfly

/-- The queue takes a unit where it has room. -/
theorem pushUnit_of_room {c k slot : Nat} {s : State} (h : hasRoom c k s) : pushUnit 1 c slot k s = (true, inFlightTo (flyAfter c k s) s) := by
  have hk : crossingLoad s 1 c (s.reel.core + k) < crossingDepth 1 := by
    have := h k (le_refl k)
    have hd : crossingDepth 1 = 288 := rfl
    omega
  unfold pushUnit
  simp only [crossingFull, if_pos hk]
  rfl

/-- A unit counts in its queue for the 88 cycles of its crossing. -/
theorem crossingLoad_push (c k j : Nat) (s : State) (hkj : k ≤ j) :
    crossingLoad (inFlightTo (flyAfter c k s) s) 1 c (s.reel.core + j) =
      crossingLoad s 1 c (s.reel.core + j) + if j < k + 88 then 1 else 0 := by
  have hmax : crossingMax 1 = 88 := rfl
  have hlist : mget [] (inFlightTo (flyAfter c k s) s).reel.xfly (crossingKey 1 c) =
      (mget [] s.reel.xfly (crossingKey 1 c)).filter (fun t => decide (s.reel.core < t)) ++ [s.reel.core + k + 88] := by
    simp [inFlightTo, flyAfter]
  have hold : ∀ l : List Nat, (l.filter (fun t => decide (s.reel.core < t))).filter
      (fun t => decide (s.reel.core + j < t ∧ t ≤ s.reel.core + j + 88)) = l.filter (fun t => decide (s.reel.core + j < t ∧ t ≤ s.reel.core + j + 88)) := by
    intro l
    rw [List.filter_filter]
    refine List.filter_congr fun t _ => ?_
    rw [← Bool.decide_and]
    exact decide_eq_decide.mpr (by omega)
  unfold crossingLoad
  rw [hlist, List.filter_append, List.length_append, hmax, hold]
  change mget 0 s.reel.xq (crossingKey 1 c) + (_ + _) = mget 0 s.reel.xq (crossingKey 1 c) + _ + _
  by_cases hj : j < k + 88
  · rw [List.filter_cons_of_pos (by simp; omega), if_pos hj]; simp; omega
  · rw [List.filter_cons_of_neg (by simp; omega), if_neg hj]; simp

theorem hasRoom_push {c k : Nat} {s : State} (h : hasRoom c k s) : hasRoom c (k + 1) (inFlightTo (flyAfter c k s) s) := by
  intro j hj
  have hload := crossingLoad_push c k j s (by omega)
  have hbefore := h j (by omega)
  change crossingLoad _ 1 c (s.reel.core + j) ≤ _
  rw [hload]
  split <;> omega

/-- All units of an item cross where there is room for it. -/
theorem pushUnits_of_room {c slot : Nat} (us : List (BitVec 256)) {k : Nat} {s : State} (h : hasRoom c k s) :
    ∃ m, pushUnits 1 c slot k us s = (us, inFlightTo m s) := by
  induction us generalizing k s with
  | nil => exact ⟨s.reel.xfly, rfl⟩
  | cons u us ih =>
    obtain ⟨m, hm⟩ := ih (hasRoom_push h)
    refine ⟨m, ?_⟩
    rw [pushUnits, pushUnit_of_room h]
    simp only [hm, if_true]
    rfl

/-- An item whose crossing has room reaches PIN of a spindle that has not faulted whole; nothing else of the spindles and the piers changes. -/
theorem toPin_of_room {c slot n : Nat} {f : BitVec 256 → PinUnit} {us : List (BitVec 256)} {s : State} (hst : (spn s n).state ≠ 3)
    (hroom : ∀ m, crossingLoad s 1 c m < 200) :
    (spn (toPin c slot n f us s) n).pin = (spn s n).pin ++ us.map f ∧ (toPin c slot n f us s).piers = s.piers := by
  obtain ⟨m, hm⟩ := pushUnits_of_room (slot := slot) us (hasRoom_of_load hroom)
  have hst' : (spn (inFlightTo m s) n).state ≠ 3 := hst
  unfold toPin
  simp only [hm, if_neg hst']
  rw [spn_modSpn_same]
  exact ⟨rfl, rfl⟩

/-! ## The item of a read -/

/-- The fields of the piers that passing an item on leaves alone. -/
theorem keepItem_piers (d : DieDesc) (code : Nat) (s : State) :
    (keepItem d code s).2.piers.booked = s.piers.booked ∧ (keepItem d code s).2.piers.engines = s.piers.engines ∧
      (keepItem d code s).2.piers.chans = s.piers.chans := by
  unfold keepItem
  split <;> exact ⟨rfl, rfl, rfl⟩

theorem keepItem_rest (d : DieDesc) (code : Nat) (s : State) :
    (keepItem d code s).2.spindles = s.spindles ∧ (keepItem d code s).2.reel = s.reel := by
  unfold keepItem
  split <;> exact ⟨rfl, rfl⟩

/-- The number of the item of a read for a spindle that has not faulted. -/
theorem keepItem_number {d : DieDesc} {code : Nat} {s : State} (h : (spn s d.spindle).state ≠ 3) :
    (keepItem d code s).1 = if d.job.isSome || d.recon.isSome then s.piers.nextId else 0 := by
  unfold keepItem
  rw [decide_eq_true h, Bool.and_true]
  split <;> rfl

/-- The answer of a raw diagnostic read, where the item is that of one. -/
def rawTold (d : DieDesc) (code : Nat) (s : State) : State := if d.fn = 4 then rawAnswer d (mediaStatus code) s else s

theorem rawTold_frame (d : DieDesc) (code : Nat) (s : State) :
    (rawTold d code s).spindles = s.spindles ∧ (rawTold d code s).piers = s.piers ∧ (rawTold d code s).reel = s.reel := by
  unfold rawTold rawAnswer
  dsimp only
  split
  · split <;> exact ⟨rfl, rfl, rfl⟩
  · exact ⟨rfl, rfl, rfl⟩

theorem crossingLoad_of_reel {s t : State} (h : t.reel = s.reel) (x n m : Nat) : crossingLoad t x n m = crossingLoad s x n m := by
  unfold crossingLoad
  rw [h]

/-- The item of a read as it is passed on to PIN. -/
theorem item_on_pin {d : DieDesc} {code slot : Nat} {us : List (BitVec 256)} {s : State} (g : Nat → BitVec 256 → PinUnit)
    (hst : (spn s d.spindle).state ≠ 3) (hroom : ∀ m, crossingLoad s 1 (d.die / 16) m < 200) :
    let k := keepItem d code (rawTold d code s)
    let t := toPin (d.die / 16) slot d.spindle (g k.1) us k.2
    (spn t d.spindle).pin = (spn s d.spindle).pin ++ us.map (g (if d.job.isSome || d.recon.isSome then s.piers.nextId else 0)) ∧
      t.piers.booked = s.piers.booked ∧ t.piers.engines = s.piers.engines ∧ t.piers.chans = s.piers.chans := by
  intro k t
  obtain ⟨hspn, hpiers, hreel⟩ := rawTold_frame d code s
  obtain ⟨hkspn, hkreel⟩ := keepItem_rest d code (rawTold d code s)
  obtain ⟨hbooked, hengines, hchans⟩ := keepItem_piers d code (rawTold d code s)
  have hsp : spn k.2 d.spindle = spn s d.spindle := by rw [spn, hkspn, hspn]; rfl
  have hnum : k.1 = if d.job.isSome || d.recon.isSome then s.piers.nextId else 0 := by
    rw [← hpiers]
    exact keepItem_number (by rw [spn, hspn]; exact hst)
  obtain ⟨hpin, hp⟩ := toPin_of_room (slot := slot) (f := g k.1) (us := us) (by rw [hsp]; exact hst) fun m =>
    (crossingLoad_of_reel (hkreel.trans hreel) 1 (d.die / 16) m).symm ▸ hroom m
  rw [hsp, hnum] at hpin
  rw [hpiers] at hbooked hengines hchans
  have ht : t.piers = k.2.piers := hp
  refine ⟨hnum ▸ hpin, ?_, ?_, ?_⟩ <;> rw [ht]
  exacts [hbooked, hengines, hchans]

end Sys2Proof.Machine

/-! # SUPPORT. What the item of a read holds (R392, R393) -/

namespace Sys2Proof.Machine

/-- A state after some free values have been drawn. -/
def drawn (k : Nat) (s : State) : State := { s with draws := k }

/-- What reading units of a plane page gives: one unit for each place, what was programmed where the page has it, and at most free values drawn. -/
theorem mediaUnits_spec (d b p : Nat) (ks : List Nat) (s : State) :
    ∃ us k, mediaUnits d b p ks s = (us, drawn k s) ∧ us.length = ks.length ∧
      ∀ (i q : Nat) u, ks[i]? = some q → (mget [] s.piers.data (pageNumber d b p))[q]? = some u → us[i]? = some u := by
  induction ks generalizing s with
  | nil => exact ⟨[], s.draws, rfl, rfl, by simp⟩
  | cons q ks ih =>
    obtain ⟨w, k, hw, hgot⟩ : ∃ w k, mediaUnit d b p q s = (w, drawn k s) ∧
        ∀ u, (mget [] s.piers.data (pageNumber d b p))[q]? = some u → w = u := by
      unfold mediaUnit
      split
      · next u hu => exact ⟨u, s.draws, rfl, fun v hv => by rw [hu] at hv; exact Option.some.inj hv⟩
      · next hu => exact ⟨_, _, rfl, fun v hv => by rw [hu] at hv; exact absurd hv (by simp)⟩
    obtain ⟨us, k', hus, hlen, hall⟩ := ih (drawn k s)
    refine ⟨w :: us, k', by simp only [mediaUnits, hw, hus]; rfl, by simp [hlen], fun i r u hi hu => ?_⟩
    cases i with
    | zero =>
      obtain rfl : q = r := by simpa using hi
      rw [hgot u hu, List.getElem?_cons_zero]
    | succ i => exact hall i r u hi hu

/-- `n` runs of `m` numbers, one after another. -/
theorem getElem?_runs (f : Nat → Nat → Nat) (n m k : Nat) (h : k < n * m) :
    (((List.range n).map (fun c => (List.range m).map (f c))).flatten)[k]? = some (f (k / m) (k % m)) := by
  induction n with
  | zero => simp at h
  | succ n ih =>
    have hm : 0 < m := Nat.pos_of_ne_zero fun h0 => by simp [h0] at h
    have hlen : (((List.range n).map (fun c => (List.range m).map (f c))).flatten).length = n * m := by
      simp [List.length_flatten, Function.comp_def]
    rw [List.range_succ, List.map_append, List.flatten_append]
    by_cases hk : k < n * m
    · rw [List.getElem?_append_left (by rw [hlen]; exact hk), ih hk]
    · have hdiv : k / m = n := Nat.div_eq_of_lt_le (by omega) h
      have hmod : k % m = k - n * m := by rw [Nat.mod_eq_sub_div_mul, hdiv]
      have hlt : k - n * m < m := by rw [← hmod]; exact Nat.mod_lt k hm
      rw [List.getElem?_append_right (by rw [hlen]; omega), hlen, hdiv, hmod]
      simp [List.getElem?_range hlt]

/-- A full item: its length, its status unit, and its data units. -/
theorem readItem_spec (d : DieDesc) (code retry errs : Nat) (s : State) :
    ∃ us k, readItem d code retry errs s = (us, drawn k s) ∧
      us.length = descCount d * 128 + (if bit d.flags 1 then descCount d * 2 else 0) + 2 ∧
      us.getLast? = some (statusUnit d.tag code (descCount d) retry 0 d.die d.block d.page errs) ∧
      ∀ k u, k < descCount d * 128 →
        (mget [] s.piers.data (pageNumber d.die d.block d.page))[130 * (d.cws.toNat % 4 + k / 128) + k % 128]? = some u → us[k]? = some u := by
  set first := (d.cws.setWidth 2).toNat with hfirst
  have hf : first = d.cws.toNat % 4 := by rw [hfirst, BitVec.toNat_setWidth]
  set cws := (List.range (descCount d)).map (first + ·) with hcws
  obtain ⟨data, k1, hdata, hdlen, hdget⟩ :=
    mediaUnits_spec d.die d.block d.page ((cws.map (fun c => (List.range 128).map (130 * c + ·))).flatten) s
  have hdn : data.length = descCount d * 128 := by rw [hdlen]; simp [hcws, Function.comp_def]
  obtain ⟨meta_, k2, hmeta, hmlen⟩ : ∃ l k, (if bit d.flags 1 then
      mediaUnits d.die d.block d.page ((cws.map (fun c => [130 * c + 128, 130 * c + 129])).flatten) (drawn k1 s) else ([], drawn k1 s)) = (l, drawn k s) ∧
      l.length = if bit d.flags 1 then descCount d * 2 else 0 := by
    by_cases hb : bit d.flags 1
    · obtain ⟨l, k, hl, hlen, -⟩ :=
        mediaUnits_spec d.die d.block d.page ((cws.map (fun c => [130 * c + 128, 130 * c + 129])).flatten) (drawn k1 s)
      exact ⟨l, k, by rw [if_pos hb, hl]; rfl, by rw [if_pos hb, hlen]; simp [hcws, Function.comp_def]⟩
    · exact ⟨[], k1, by rw [if_neg hb], by rw [if_neg hb]; rfl⟩
  obtain ⟨w, k3, hw⟩ : ∃ w k, mediaUnit d.die d.block d.page 520 (drawn k2 s) = (w, drawn k s) := by
    unfold mediaUnit
    split
    · exact ⟨_, _, rfl⟩
    · exact ⟨_, _, rfl⟩
  refine ⟨_, k3, by simp only [readItem, ← hfirst, ← hcws, hdata, hmeta, hw]; rfl, ?_, ?_, fun k u hk hu => ?_⟩
  · simp [hdn, hmlen, Nat.add_assoc]
  · simp
  · have hlt : k < data.length := by rw [hdn]; exact hk
    rw [List.append_assoc, List.getElem?_append_left hlt]
    refine hdget k _ u ?_ hu
    rw [hcws, List.map_map, ← hf]
    exact getElem?_runs (fun c r => 130 * (first + c) + r) (descCount d) 128 k hk

end Sys2Proof.Machine

/-! # SUPPORT. A place's ready time and a soft-decode engine's end (R54, R392, R400 to R402) -/

namespace Sys2Proof.Machine

/-! ## What the counters of a read leave alone -/

/-- A state with the media cleared. -/
def offMedia (s : State) : State := { s with media := {} }

@[simp] theorem offMedia_modMedia (f : Media → Media) (s : State) : offMedia (modMedia f s) = offMedia s := rfl

theorem offMedia_fields {s t : State} (h : offMedia s = offMedia t) : s.spindles = t.spindles ∧ s.reel = t.reel ∧ s.piers = t.piers := by
  have f := fun {β : Type} (g : State → β) => congrArg g h
  exact ⟨f (·.spindles), f (·.reel), f (·.piers)⟩

theorem offMedia_queueRefresh (d b : Nat) (s : State) : offMedia (queueRefresh d b s) = offMedia s := by
  unfold queueRefresh
  split
  · rfl
  · simp only [modBlock, offMedia_modMedia]

/-- Reading counts in the block table, and may queue a refresh: the media alone change. -/
theorem offMedia_countRead (d b : Nat) (s : State) : offMedia (countRead d b s) = offMedia s := by
  unfold countRead
  dsimp only
  split
  · rw [offMedia_queueRefresh, modBlock, offMedia_modMedia]
  · rw [modBlock, offMedia_modMedia]

/-- A booking that is dropped is booked no more. -/
theorem not_booked_unbook (b : Booking) (s : State) : b ∉ (unbook b s).piers.booked := by
  simp [unbook]

/-! ## What posting a read leaves alone -/

/-- The spindles and the channels. -/
def rig (s : State) : SMap Spindle × SMap Chan := (s.spindles, s.piers.chans)

theorem rig_countUnbound (d : DieDesc) (s : State) : rig (countUnbound d s) = rig s := by
  unfold countUnbound
  dsimp only
  split <;> rfl

theorem rig_postSplit (unb : Bool) (f : Nat) (d : DieDesc) (s : State) : rig (postSplit unb f d s) = rig s := by
  induction f generalizing d s with
  | zero => rfl
  | succ f ih =>
    have hone : rig (onePlyMore d s) = rig s := by unfold onePlyMore; split <;> rfl
    rw [postSplit]
    split
    · unfold postRead; split <;> rfl
    · split
      · rfl
      · dsimp only
        split
        · rfl
        · rw [ih]; exact hone

theorem rig_bookAgain (b : Booking) (s : State) : rig (bookAgain b s) = rig s := by
  rw [bookAgain, rig_postSplit]
  split
  · rfl
  · exact rig_countUnbound _ s

theorem rig_postRecovery (unb : Bool) (d : DieDesc) (s : State) : rig (postRecovery unb d s) = rig s := by
  unfold postRecovery
  extract_lets d' ok
  split
  · change rig (if unb = true then s else countUnbound d' s) = rig s
    split
    · rfl
    · exact rig_countUnbound _ s
  · extract_lets taken s1 out s2
    have hs1 : rig s1 = rig s := by
      simp only [s1]
      split
      · exact rig_countUnbound _ s
      · rfl
    have hs2 : rig s2 = rig s := hs1
    exact (foldl_keeps (I := fun t => rig t = rig s) (f := fun s x => bookAgain x s) (fun t x ht => (rig_bookAgain x t).trans ht) out hs2)

/-! ## The ready time -/

variable {d : BitVec 11} {pl : BitVec 3} {errs : BitVec 16} {b : Booking} {s : State}

theorem hardDecoded_refused {ok : Bool} {code : Nat} (h : readyBooking s d.toNat pl.toNat = some b) (hr : refusal s b.desc = some code) :
    hardDecoded d pl ok errs s = deliverRead b code (placeCipher s b) (statusItem b.desc code 0) (unbook b s) := by
  simp only [hardDecoded, h, hr]

/-- The state in which a read that was issued decodes or fails. -/
def countedRead (b : Booking) (s : State) : State := countRead b.desc.die b.desc.block (unbook b s)

/-- A hard failure in its channel's counter. -/
def hardFailed (c : Chan) : Chan := { c with hfail := satInc c.hfail }

theorem hardDecoded_issued {ok : Bool} (h : readyBooking s d.toNat pl.toNat = some b) (hr : refusal s b.desc = none) (hi : b.issued = true) :
    hardDecoded d pl ok errs s =
      if ok then
        let us := readItem b.desc (if b.recovery then 1 else 0) (if b.recovery then retryEntry (countedRead b s) b.desc else 0) errs.toNat
          (countedRead b s)
        deliverRead b (if b.recovery then 1 else 0) (placeCipher s b) us.1 us.2
      else
        let t := modChan (b.desc.die / 16) hardFailed (countedRead b s)
        if b.recovery then modPiers (fun u => { u with soft := u.soft ++ [b] }) t else postRecovery b.unbound b.desc t := by
  simp only [hardDecoded, h, hr, hi, Bool.not_true, countedRead, Bool.false_eq_true, if_false]
  rfl

/-- What counting a read leaves: the spindles, the sequencer, and the piers but for the booking. -/
theorem countedRead_frame (b : Booking) (s : State) : (countedRead b s).spindles = s.spindles ∧ (countedRead b s).reel = s.reel ∧
    ∃ l, b ∉ l ∧ (countedRead b s).piers = { s.piers with booked := l } := by
  obtain ⟨hspn, hreel, hpiers⟩ := offMedia_fields (offMedia_countRead b.desc.die b.desc.block (unbook b s))
  exact ⟨hspn, hreel, _, not_booked_unbook b s, hpiers⟩

/-- The unit of PIN that an item's unit becomes, by its cipher slot, its time and the number of its item. -/
def pinUnit (owner ci after k : Nat) (u : BitVec 256) : PinUnit := { data := u, owner := owner, cipher := ci, from_ := after, item := k }

/-- The number of the item of a read of a spindle that has not faulted. -/
def itemNumber (s : State) (d : DieDesc) : Nat := if d.job.isSome || d.recon.isSome then s.piers.nextId else 0

theorem deliverRead_eq (b : Booking) (code ci : Nat) (us : List (BitVec 256)) (s : State) :
    deliverRead b code ci us s = toPin (b.desc.die / 16) b.entry b.desc.spindle
      (pinUnit b.desc.owner ci 0 (keepItem b.desc code (rawTold b.desc code s)).1) us (keepItem b.desc code (rawTold b.desc code s)).2 := rfl

theorem deliverSoft_eq (b : Booking) (code : Nat) (us : List (BitVec 256)) (s : State) :
    deliverSoft b code us s = toPin (b.desc.die / 16) b.entry b.desc.spindle
      (pinUnit b.desc.owner 0xFFFF (b.at_ + 88) (keepItem b.desc code (rawTold b.desc code s)).1) us
      (keepItem b.desc code (rawTold b.desc code s)).2 := rfl

theorem deliverRead_on_pin {code ci : Nat} {us : List (BitVec 256)} (hst : (spn s b.desc.spindle).state ≠ 3)
    (hroom : ∀ m, crossingLoad s 1 (b.desc.die / 16) m < 200) :
    (spn (deliverRead b code ci us s) b.desc.spindle).pin =
        (spn s b.desc.spindle).pin ++ us.map (pinUnit b.desc.owner ci 0 (itemNumber s b.desc)) ∧
      (deliverRead b code ci us s).piers.booked = s.piers.booked := by
  obtain ⟨hpin, hbooked, -⟩ := item_on_pin (code := code) (slot := b.entry) (us := us) (pinUnit b.desc.owner ci 0) hst hroom
  rw [deliverRead_eq]
  exact ⟨hpin, hbooked⟩

theorem deliverSoft_on_pin {code : Nat} {us : List (BitVec 256)} (hst : (spn s b.desc.spindle).state ≠ 3)
    (hroom : ∀ m, crossingLoad s 1 (b.desc.die / 16) m < 200) :
    (spn (deliverSoft b code us s) b.desc.spindle).pin =
        (spn s b.desc.spindle).pin ++ us.map (pinUnit b.desc.owner 0xFFFF (b.at_ + 88) (itemNumber s b.desc)) ∧
      (deliverSoft b code us s).piers.engines = s.piers.engines ∧ (deliverSoft b code us s).piers.chans = s.piers.chans := by
  obtain ⟨hpin, -, hengines, hchans⟩ :=
    item_on_pin (code := code) (slot := b.entry) (us := us) (pinUnit b.desc.owner 0xFFFF (b.at_ + 88)) hst hroom
  rw [deliverSoft_eq]
  exact ⟨hpin, hengines, hchans⟩

/-- A full item of a read, as `DecodedReads` states it. -/
def fullItem (s : State) (x : DieDesc) (errs code retry : Nat) (us : List (BitVec 256)) : Prop :=
  us.length = descCount x * 128 + (if bit x.flags 1 then descCount x * 2 else 0) + 2 ∧
    us.getLast? = some (statusUnit x.tag code (descCount x) retry 0 x.die x.block x.page errs) ∧
    ∀ k u, k < descCount x * 128 →
      (mget [] s.piers.data (pageNumber x.die x.block x.page))[130 * (x.cws.toNat % 4 + k / 128) + k % 128]? = some u → us[k]? = some u

/-- The item of a state with the same programmed pages is a full item. -/
theorem readItem_full {t : State} (hdata : t.piers.data = s.piers.data) (x : DieDesc) (code retry errs : Nat) :
    ∃ us k, readItem x code retry errs t = (us, drawn k t) ∧ fullItem s x errs code retry us := by
  obtain ⟨us, k, hus, hlen, hlast, hget⟩ := readItem_spec x code retry errs t
  rw [hdata] at hget
  exact ⟨us, k, hus, hlen, hlast, hget⟩

theorem retryEntry_of_chans {t : State} (h : t.piers.chans = s.piers.chans) (x : DieDesc) : retryEntry t x = retryEntry s x := by
  simp only [retryEntry, dieOf, chan, h]

/-! ## The end of a soft-decode engine -/

/-- The engine is free, and the soft decode is counted in the block table. -/
def softCounted (r : Nat) (b : Booking) (s : State) : State :=
  modBlock b.desc.die b.desc.block (fun e => { e with softs := satInc e.softs }) (freeEngine r s)

/-- A soft decode that succeeds in its channel's counter. -/
def softRead (c : Chan) : Chan := { c with softOk := satInc c.softOk }

/-- A soft decode that fails in its channel's counter and interrupt. -/
def softFailed (c : Chan) : Chan := { c with uncorr := satInc c.uncorr, irq := setBit c.irq 4 }

/-- What the soft decode of a failed read leaves before its item: the next retry entry, the overrun and the counters of the channel. -/
def softLost (r : Nat) (b : Booking) (s : State) : State :=
  modChan (b.desc.die / 16) softFailed
    (overrun b.desc.die 5 b.entry (retryNext b.desc (softCounted r b s)))

theorem softDecoded_ok {r : Nat} (h : softEngine s d pl = some (r, b)) :
    softDecoded d pl true errs s =
      let us := readItem b.desc 2 (retryEntry (softCounted r b s) b.desc) errs.toNat (softCounted r b s)
      deliverSoft b 2 us.1 (modChan (b.desc.die / 16) softRead us.2) := by
  simp only [softDecoded, h, if_true]
  rfl

theorem softDecoded_lost {r : Nat} (h : softEngine s d pl = some (r, b)) :
    softDecoded d pl false errs s = deliverSoft b 3 (statusItem b.desc 3 0xFFFF) (softLost r b s) := by
  simp only [softDecoded, h, Bool.false_eq_true, if_false]
  rfl

/-- An overrun changes the counters of its channel, and nothing else of the spindles, the piers and the crossings. -/
theorem overrun_frame (x row slot : Nat) (s : State) :
    (overrun x row slot s).spindles = s.spindles ∧ crossings (overrun x row slot s) = crossings s ∧
      ∃ told irq ovrTgt, (overrun x row slot s).piers = (modChan (x / 16) (fun c => { c with
        ovrCount := satInc c.ovrCount, ovrCase := BitVec.ofNat 4 row, ovrTgt := ovrTgt, told := told, irq := irq }) s).piers := by
  unfold overrun
  extract_lets c t told s1 s2
  have hs2 : s2.spindles = s.spindles ∧ crossings s2 = crossings s ∧ s2.piers = s1.piers := by
    simp only [s2]
    split <;> exact ⟨rfl, rfl, rfl⟩
  obtain ⟨hspn, hcross, hpiers⟩ := hs2
  obtain ⟨hq, -, -, -, -, -, hqp, -⟩ := quiet_fields (quiet_raiseFault 10 1 s2)
  refine ⟨hq.trans hspn, (crossings_raiseFault 10 1 s2).trans hcross, setBit (chan s c).told t, setBit (chan s c).irq 3, BitVec.ofNat 4 t, ?_⟩
  rw [hqp, hpiers]
  simp only [s1, modChan, modPiers_piers, mmod]
  rfl

end Sys2Proof.Machine

namespace Sys2Proof.Machine

/-! ## Decoded reads -/

variable {d : BitVec 11} {pl : BitVec 3} {errs : BitVec 16} {b : Booking} {s : State}

/-- A place's crossing has room and its spindle has not faulted. -/
def roomFor (s : State) (x : DieDesc) : Prop := (spn s x.spindle).state ≠ 3 ∧ ∀ m, crossingLoad s 1 (x.die / 16) m < 200

theorem spn_of_spindles {t : State} (h : t.spindles = s.spindles) (n : Nat) : spn t n = spn s n := by
  rw [spn, h]
  rfl

theorem roomFor_of_frame {t : State} {x : DieDesc} (h : roomFor s x) (hspn : t.spindles = s.spindles) (hcross : crossings t = crossings s) :
    roomFor t x := by
  obtain ⟨-, hxq, hxfly⟩ := crossings_fields hcross
  refine ⟨by rw [spn, hspn]; exact h.1, fun m => ?_⟩
  rw [crossingLoad, hxq, hxfly]
  exact h.2 m

theorem exec_hardDecodeComplete (d : BitVec 11) (pl : BitVec 3) (ok : Bool) (errs : BitVec 16) (s : State) :
    exec (.hardDecodeComplete d pl ok errs) s = .next (hardDecoded d pl ok errs s) := rfl

theorem refused_on_pin {code : Nat} (h : readyBooking s d.toNat pl.toNat = some b) (hr : refusal s b.desc = some code) (hroom : roomFor s b.desc) :
    ∃ t, exec (.hardDecodeComplete d pl true errs) s = .next t ∧
      (spn t b.desc.spindle).pin = (spn s b.desc.spindle).pin ++ [pinUnit b.desc.owner (placeCipher s b) 0 (itemNumber s b.desc)
        (statusUnit b.desc.tag code 0 0 0 b.desc.die b.desc.block b.desc.page 0)] ∧ b ∉ t.piers.booked := by
  obtain ⟨hpin, hbooked⟩ := deliverRead_on_pin (code := code) (ci := placeCipher s b) (us := statusItem b.desc code 0) (s := unbook b s)
    hroom.1 hroom.2
  refine ⟨_, congrArg Host.Outcome.next (hardDecoded_refused h hr), hpin, ?_⟩
  rw [hbooked]
  exact not_booked_unbook b s

theorem decoded_on_pin (h : readyBooking s d.toNat pl.toNat = some b) (hr : refusal s b.desc = none) (hi : b.issued = true) (hroom : roomFor s b.desc) :
    ∃ t, exec (.hardDecodeComplete d pl true errs) s = .next t ∧ b ∉ t.piers.booked ∧
      ∃ us, (spn t b.desc.spindle).pin =
          (spn s b.desc.spindle).pin ++ us.map (pinUnit b.desc.owner (placeCipher s b) 0 (itemNumber s b.desc)) ∧
        fullItem s b.desc errs.toNat (if b.recovery then 1 else 0) (if b.recovery then retryEntry s b.desc else 0) us := by
  obtain ⟨hspn, hreel, l, hnot, hpiers⟩ := countedRead_frame b s
  have hexec := (exec_hardDecodeComplete d pl true errs s).trans (congrArg Host.Outcome.next (hardDecoded_issued h hr hi))
  rw [if_pos rfl] at hexec
  generalize countedRead b s = c at hspn hreel hpiers hexec
  obtain ⟨us, k, hus, hfull⟩ := readItem_full (s := s) (t := c) (by rw [hpiers]) b.desc (if b.recovery then 1 else 0)
    (if b.recovery then retryEntry c b.desc else 0) errs.toNat
  have hroom' : roomFor (drawn k c) b.desc := roomFor_of_frame hroom hspn (crossings_of_reel hreel)
  obtain ⟨hpin, hbooked⟩ := deliverRead_on_pin (code := if b.recovery then 1 else 0) (ci := placeCipher s b) (us := us) hroom'.1 hroom'.2
  have hsp : spn (drawn k c) b.desc.spindle = spn s b.desc.spindle := spn_of_spindles hspn _
  have hnum : itemNumber (drawn k c) b.desc = itemNumber s b.desc := by simp only [itemNumber, drawn, hpiers]
  have hlist : (drawn k c).piers.booked = l := by simp only [drawn, hpiers]
  rw [hsp, hnum] at hpin
  simp only [hus] at hexec
  have hretry : retryEntry c b.desc = retryEntry s b.desc := retryEntry_of_chans (by rw [hpiers]) _
  rw [hretry] at hfull
  exact ⟨_, hexec, by rw [hbooked, hlist]; exact hnot, us, hpin, hfull⟩

theorem hard_failure (h : readyBooking s d.toNat pl.toNat = some b) (hr : refusal s b.desc = none) (hi : b.issued = true) :
    ∃ t, exec (.hardDecodeComplete d pl false errs) s = .next t ∧
      (chan t (b.desc.die / 16)).hfail = satInc (chan s (b.desc.die / 16)).hfail ∧ t.spindles = s.spindles ∧
      (b.recovery = true → t.piers.soft = s.piers.soft ++ [b]) := by
  obtain ⟨hspn, -, l, -, hpiers⟩ := countedRead_frame b s
  have hexec := (exec_hardDecodeComplete d pl false errs s).trans (congrArg Host.Outcome.next (hardDecoded_issued h hr hi))
  rw [if_neg (by simp)] at hexec
  generalize countedRead b s = c at hspn hpiers hexec
  have hchan : chan (modChan (b.desc.die / 16) hardFailed c) (b.desc.die / 16) = hardFailed (chan s (b.desc.die / 16)) := by
    rw [chan_modChan_same, chan, hpiers]
    rfl
  have hsoft : (modChan (b.desc.die / 16) hardFailed c).piers.soft = s.piers.soft := by
    change c.piers.soft = _
    rw [hpiers]
  have huspn : (modChan (b.desc.die / 16) hardFailed c).spindles = s.spindles := hspn
  generalize modChan (b.desc.die / 16) hardFailed c = u at hchan hsoft huspn hexec
  refine ⟨_, hexec, ?_⟩
  by_cases hrec : b.recovery = true
  · rw [if_pos hrec]
    exact ⟨congrArg (·.hfail) hchan, huspn, fun _ => congrArg (· ++ [b]) hsoft⟩
  · rw [if_neg hrec]
    have hrig := rig_postRecovery b.unbound b.desc u
    refine ⟨?_, (congrArg Prod.fst hrig).trans huspn, fun h => absurd h hrec⟩
    rw [chan, show (postRecovery b.unbound b.desc u).piers.chans = u.piers.chans from congrArg Prod.snd hrig]
    exact congrArg (·.hfail) hchan

theorem soft_success {r : Nat} (h : softEngine s d pl = some (r, b)) (hroom : roomFor s b.desc) :
    ∃ t, exec (.softDecodeComplete d pl true errs) s = .next t ∧ (chan t (b.desc.die / 16)).softOk = satInc (chan s (b.desc.die / 16)).softOk ∧
      mget none t.piers.engines r = none ∧ ∃ us, (spn t b.desc.spindle).pin =
          (spn s b.desc.spindle).pin ++ us.map (pinUnit b.desc.owner 0xFFFF (b.at_ + 88) (itemNumber s b.desc)) ∧
        fullItem s b.desc errs.toNat 2 (retryEntry s b.desc) us := by
  obtain ⟨us, k, hus, hfull⟩ := readItem_full (s := s) (t := softCounted r b s) rfl b.desc 2 (retryEntry (softCounted r b s) b.desc) errs.toNat
  rw [retryEntry_of_chans rfl] at hfull
  set u := modChan (b.desc.die / 16) softRead (drawn k (softCounted r b s)) with hu
  have hroom' : roomFor u b.desc := roomFor_of_frame hroom rfl rfl
  obtain ⟨hpin, hengines, hchans⟩ := deliverSoft_on_pin (code := 2) (us := us) hroom'.1 hroom'.2
  refine ⟨_, congrArg Host.Outcome.next (softDecoded_ok h), ?_, ?_, us, ?_, hfull⟩
  · rw [hus]
    simp only [← hu]
    rw [chan, hchans, ← chan, hu, chan_modChan_same]
    rfl
  · rw [hus]
    simp only [← hu]
    rw [hengines]
    exact mget_mset_same none none r s.piers.engines
  · rw [hus]
    exact hpin

/-- What the end of a failed soft decode leaves of the spindles, the crossings and the piers. -/
theorem softLost_frame (r : Nat) (b : Booking) (s : State) :
    (softLost r b s).spindles = s.spindles ∧ crossings (softLost r b s) = crossings s ∧ (softLost r b s).piers.nextId = s.piers.nextId ∧
      mget none (softLost r b s).piers.engines r = none ∧
      (chan (softLost r b s) (b.desc.die / 16)).uncorr = satInc (chan s (b.desc.die / 16)).uncorr ∧
      bit (chan (softLost r b s) (b.desc.die / 16)).irq 4 = true ∧ (chan (softLost r b s) (b.desc.die / 16)).ovrCase = 5 := by
  have hfree : mget none (retryNext b.desc (softCounted r b s)).piers.engines r = none := mget_mset_same none none r s.piers.engines
  have hretry : (chan (retryNext b.desc (softCounted r b s)) (b.desc.die / 16)).uncorr = (chan s (b.desc.die / 16)).uncorr := by
    rw [retryNext, modDie, chan_modChan_same]
    rfl
  obtain ⟨hspn0, hcross0, hnext0⟩ : (retryNext b.desc (softCounted r b s)).spindles = s.spindles ∧
      crossings (retryNext b.desc (softCounted r b s)) = crossings s ∧ (retryNext b.desc (softCounted r b s)).piers.nextId = s.piers.nextId :=
    ⟨rfl, rfl, rfl⟩
  unfold softLost
  generalize retryNext b.desc (softCounted r b s) = c at hfree hretry hspn0 hcross0 hnext0
  obtain ⟨hspn, hcross, told, irq, tgt, hpiers⟩ := overrun_frame b.desc.die 5 b.entry c
  generalize overrun b.desc.die 5 b.entry c = v at hspn hcross hpiers
  have hchan : chan v (b.desc.die / 16) = { chan c (b.desc.die / 16) with
      ovrCount := satInc (chan c (b.desc.die / 16)).ovrCount, ovrCase := 5, ovrTgt := tgt, told := told, irq := irq } := by
    rw [chan, hpiers, ← chan, chan_modChan_same]
    rfl
  rw [chan_modChan_same, hchan]
  refine ⟨hspn.trans hspn0, hcross.trans hcross0, ?_, ?_, ?_, bit_setBit_same irq (by decide), rfl⟩
  · change v.piers.nextId = _
    rw [hpiers]
    exact hnext0
  · change mget none v.piers.engines r = none
    rw [hpiers]
    exact hfree
  · change satInc (chan c (b.desc.die / 16)).uncorr = satInc _
    rw [hretry]

theorem soft_failure {r : Nat} (h : softEngine s d pl = some (r, b)) (hroom : roomFor s b.desc) :
    ∃ t, exec (.softDecodeComplete d pl false errs) s = .next t ∧ (chan t (b.desc.die / 16)).uncorr = satInc (chan s (b.desc.die / 16)).uncorr ∧
      bit (chan t (b.desc.die / 16)).irq 4 = true ∧ (chan t (b.desc.die / 16)).ovrCase = 5 ∧ mget none t.piers.engines r = none ∧
      (spn t b.desc.spindle).pin = (spn s b.desc.spindle).pin ++ [pinUnit b.desc.owner 0xFFFF (b.at_ + 88) (itemNumber s b.desc)
        (statusUnit b.desc.tag 3 0 0 0 b.desc.die b.desc.block b.desc.page 0xFFFF)] := by
  obtain ⟨hspn, hcross, hnext, hfree, huncorr, hirq, hcase⟩ := softLost_frame r b s
  have hroom' : roomFor (softLost r b s) b.desc := roomFor_of_frame hroom hspn hcross
  obtain ⟨hpin, hengines, hchans⟩ := deliverSoft_on_pin (code := 3) (us := statusItem b.desc 3 0xFFFF) hroom'.1 hroom'.2
  have hsp : spn (softLost r b s) b.desc.spindle = spn s b.desc.spindle := spn_of_spindles hspn _
  have hnum : itemNumber (softLost r b s) b.desc = itemNumber s b.desc := by rw [itemNumber, hnext]; rfl
  rw [hsp, hnum] at hpin
  refine ⟨_, congrArg Host.Outcome.next (softDecoded_lost h), ?_⟩
  rw [chan, hchans, ← chan, hengines]
  exact ⟨huncorr, hirq, hcase, hfree, hpin⟩

/-- Settles O34: each end of a decode is one item passed on to PIN, and the crossing of its channel has room for all of its units, since no more
than 88 of them are in it at a time. -/
theorem decodedReads : Obligations.DecodedReads := by
  unfold Obligations.DecodedReads
  intro d pl errs b r s x n ch num room mk item
  refine ⟨fun hb => ⟨fun code hr hroom => refused_on_pin hb hr hroom, fun hr hi hroom => ?_, fun hr hi => hard_failure hb hr hi⟩,
    fun hb hroom => ⟨?_, soft_failure hb hroom⟩⟩
  · obtain ⟨t, ht, hnot, us, hpin, hfull⟩ := decoded_on_pin (errs := errs) hb hr hi hroom
    exact ⟨t, ht, hnot, us, hpin, hfull⟩
  · obtain ⟨t, ht, hok, hfree, us, hpin, hfull⟩ := soft_success (errs := errs) hb hroom
    exact ⟨t, ht, hok, hfree, us, hpin, hfull⟩

end Sys2Proof.Machine


/-! # SUPPORT. Writes of memory, and what the care of block units leaves alone (R150, R336, R357 to R366, R450) -/

namespace Sys2Proof.Machine

/-! ## A write of memory -/

/-- A state with memory and what watches it cleared: the cores and the DRAM controllers. -/
def offMem (s : State) : State := { s with mem := [], poison := [], cores := [], drcs := [] }

/-- What no step of a fold changes, the fold does not change. -/
theorem look_foldl {β γ : Type} (p : State → γ) {f : State → β → State} (h : ∀ s b, p (f s b) = p s) (l : List β) (s : State) :
    p (l.foldl f s) = p s :=
  foldl_keeps (I := fun t => p t = p s) (fun t b ht => (h t b).trans ht) l rfl

theorem offMem_landBytes (a : Nat) (bs : List (BitVec 8)) (s : State) : offMem (landBytes a bs s) = offMem s := by
  have hpoison : ∀ (l : List Nat) (t : State), offMem (l.foldl (fun s u => if wholeUnit a bs.length u then setPoison u false s else s) t) = offMem t :=
    look_foldl offMem fun s u => by split <;> rfl
  exact hpoison (unitsOf a bs.length) { s with mem := putBytes a bs s.mem }

@[simp] theorem offMem_writeMem (w : Option Nat) (a : Nat) (bs : List (BitVec 8)) (s : State) : offMem (writeMem w a bs s) = offMem s := by
  have hdrop : ∀ t, offMem (dropResv a bs.length w t) = offMem t := fun _ => rfl
  have hunder : ∀ t, offMem (underDirty a bs t) = offMem t := fun _ => rfl
  unfold writeMem
  extract_lets t
  rw [hdrop]
  split
  · rw [hunder]; exact offMem_landBytes a bs s
  · exact offMem_landBytes a bs s

theorem offMem_fields {s t : State} (h : offMem s = offMem t) :
    s.reel = t.reel ∧ s.spindles = t.spindles ∧ s.evr = t.evr ∧ s.fcr = t.fcr ∧ s.xpt = t.xpt ∧ s.tables = t.tables ∧ s.ctrls = t.ctrls ∧
      s.piers = t.piers ∧ s.media = t.media ∧ s.ciph = t.ciph ∧ s.vct = t.vct ∧ s.store = t.store ∧ s.pwr = t.pwr ∧ s.ports = t.ports ∧
      s.now = t.now ∧ s.span = t.span ∧ s.varB = t.varB ∧ s.draws = t.draws := by
  have f := fun {β : Type} (g : State → β) => congrArg g h
  exact ⟨f (·.reel), f (·.spindles), f (·.evr), f (·.fcr), f (·.xpt), f (·.tables), f (·.ctrls), f (·.piers), f (·.media), f (·.ciph),
    f (·.vct), f (·.store), f (·.pwr), f (·.ports), f (·.now), f (·.span), f (·.varB), f (·.draws)⟩

@[simp] theorem offMem_dirtySet (v n k : Nat) (s : State) : offMem (dirtySet v n k s) = offMem s := by
  unfold dirtySet
  extract_lets i b a
  split
  · rfl
  · split
    · exact offMem_writeMem _ _ _ _
    · rfl

@[simp] theorem offMem_dirtyMark (n k : Nat) (s : State) : offMem (dirtyMark n k s) = offMem s := by
  unfold dirtyMark
  exact look_foldl offMem (fun s v => offMem_dirtySet _ _ _ s) _ s

@[simp] theorem offMem_dirtyWrite (n : BitVec 32) (z : Option Nat) (lba cnt : Nat) (s : State) : offMem (dirtyWrite n z lba cnt s) = offMem s := by
  unfold dirtyWrite
  split
  · exact offMem_dirtyMark _ _ s
  · exact look_foldl offMem (fun s k => offMem_dirtyMark _ _ s) _ s

/-! ## The piers, and the wear and the pages of the block units -/

/-- The wear and the pages of a block unit. -/
def worn (e : Block) : BitVec 32 × BitVec 32 := (e.wear, e.pages)

/-- The piers, and the wear and the pages of each block unit. -/
def bench (s : State) : Piers × (Nat → BitVec 32 × BitVec 32) := (s.piers, fun k => worn (mget {} s.media.blocks k))

theorem bench_of_eq {s t : State} (hp : t.piers = s.piers) (hb : t.media.blocks = s.media.blocks) : bench t = bench s := by
  simp only [bench, hp, hb]

theorem piers_of_bench {s t : State} (h : bench t = bench s) : t.piers = s.piers := congrArg Prod.fst h

theorem bench_of_quiet {s t : State} (h : quiet t = quiet s) : bench t = bench s := by
  obtain ⟨-, -, -, -, -, -, hpiers, hmedia, -⟩ := quiet_fields h
  exact bench_of_eq hpiers (by rw [hmedia])

@[simp] theorem bench_ite (c : Prop) [Decidable c] (s t : State) : bench (if c then s else t) = if c then bench s else bench t := by
  split <;> rfl

section bench_mods
variable (s : State)
@[simp] theorem bench_modReel (f : Reel → Reel) : bench (modReel f s) = bench s := rfl
@[simp] theorem bench_modThm (f : Thm → Thm) : bench (modThm f s) = bench s := rfl
@[simp] theorem bench_modStore (f : Store → Store) : bench (modStore f s) = bench s := rfl
@[simp] theorem bench_modPwr (f : Pwr → Pwr) : bench (modPwr f s) = bench s := rfl
@[simp] theorem bench_modCtrl (v : Nat) (f : Ctrl → Ctrl) : bench (modCtrl v f s) = bench s := rfl
@[simp] theorem bench_modGrp (g : Nat) (f : Grp → Grp) : bench (modGrp g f s) = bench s := rfl
@[simp] theorem bench_modNs (n : Nat) (f : Ns → Ns) : bench (modNs n f s) = bench s := rfl
@[simp] theorem bench_modZone (n : BitVec 32) (z : Nat) (f : Zone → Zone) : bench (modZone n z f s) = bench s := rfl
@[simp] theorem bench_event (code : BitVec 16) (ws : List (BitVec 32)) : bench (event code ws s) = bench s := rfl
@[simp] theorem bench_drawBits : bench (drawBits s).2 = bench s := rfl
end bench_mods

/-- A change of the media that keeps the block table. -/
theorem bench_modMedia {f : Media → Media} (s : State) (h : ∀ u, (f u).blocks = u.blocks := by intro; rfl) : bench (modMedia f s) = bench s :=
  bench_of_eq rfl (h s.media)

/-- A change of a block unit that keeps its wear and its pages. -/
theorem bench_modBlock {f : Block → Block} (d b : Nat) (s : State) (h : ∀ e, worn (f e) = worn e := by intro; rfl) :
    bench (modBlock d b f s) = bench s := by
  unfold bench
  refine Prod.ext rfl (funext fun k => ?_)
  change worn (mget {} (mmod {} (d * 2048 + b) f s.media.blocks) k) = worn (mget {} s.media.blocks k)
  by_cases hk : k = d * 2048 + b
  · rw [hk, mget_mmod_same, h]
  · rw [mget_mmod_other _ hk]

theorem bench_setBlockState (d b : Nat) (st : BitVec 4) (s : State) : bench (setBlockState d b st s) = bench s :=
  bench_modBlock d b s

theorem bench_setSkein (g k : Nat) (st : BitVec 4) (s : State) : bench (setSkein g k st s) = bench s := by
  unfold setSkein
  exact look_foldl bench (fun s d => bench_setBlockState _ _ _ s) _ s

theorem bench_getSpare (d : Nat) (s : State) : bench (getSpare d s).2 = bench s := by
  unfold getSpare
  split
  · rfl
  · split
    · next t ht =>
      obtain ⟨g, -, hg⟩ := Option.bind_eq_some_iff.mp ht
      unfold dissolveSkein at hg
      split at hg
      · exact absurd hg (by simp)
      · split at hg
        · exact absurd hg (by simp)
        · obtain rfl := Option.some.inj hg
          exact (bench_modGrp _ _ _).trans (bench_setSkein _ _ _ s)
    · rfl

theorem bench_skeinErased (g k : Nat) (s : State) : bench (skeinErased g k s) = bench s := by
  unfold skeinErased
  split <;> rfl

theorem bench_forceZone (n : BitVec 32) (z : Nat) (st : BitVec 4) (s : State) : bench (forceZone n z st s) = bench s := by
  unfold forceZone zoneChanged
  extract_lets t u
  have hu : bench u = bench s := by
    obtain ⟨-, -, -, -, -, -, -, hpiers, hmedia, -⟩ := offMem_fields (offMem_dirtyMark n.toNat z (modZone n z (fun e => { e with state := st }) s))
    exact bench_of_eq hpiers (congrArg (·.blocks) hmedia)
  exact (look_foldl bench (fun s v => bench_modCtrl s _ _) _ u).trans hu

theorem bench_exhaustion (d : Nat) (zone : Option (BitVec 32 × Nat)) (s : State) : bench (exhaustion d zone s) = bench s := by
  have hshrink : ∀ n z t, bench (shrinkFor n z t) = bench t := fun n z t => by
    unfold shrinkFor
    split
    · rfl
    · split
      · split
        · exact bench_forceZone _ _ _ t
        · exact (bench_modZone _ _ _ _).trans (bench_forceZone _ _ _ t)
      · exact bench_forceZone _ _ _ t
  have hdevice : ∀ m b t, bench (deviceRequest m b t) = bench t := fun m b t => bench_of_quiet (quiet_deviceRequest m b t)
  unfold exhaustion
  cases zone with
  | none =>
    dsimp only
    split
    · rw [hdevice]; rfl
    · rfl
  | some k =>
    dsimp only
    split
    · rw [hdevice]; rfl
    · rw [hshrink]; rfl

theorem bench_zoneIndexWord (s : State) : bench (zoneIndexWord s).2 = bench s := rfl

theorem bench_replaceUnit (d b st cause : Nat) (s : State) : bench (replaceUnit d b st cause s) = bench s := by
  unfold replaceUnit
  extract_lets owner g
  split
  · split
    · exact bench_setBlockState _ _ _ s
    · rfl
  · split
    · rfl
    · have hspare := bench_getSpare d s
      split
      · next t ht =>
        rw [ht] at hspare
        exact (bench_exhaustion _ _ _).trans hspare
      · next sp t ht =>
        rw [ht] at hspare
        split
        · refine Eq.trans ?_ ((bench_setBlockState d sp 9 t).trans hspare)
          rfl
        · dsimp only
          rw [bench_skeinErased, retireEvent, bench_event]
          exact (bench_modBlock _ _ _).trans ((bench_modBlock _ _ _).trans hspare)

theorem bench_retireBlock (d b cause : Nat) (s : State) : bench (retireBlock d b cause s) = bench s := by
  unfold retireBlock
  extract_lets st t
  have ht : bench t = bench s := bench_setBlockState _ _ _ s
  split
  · exact ht
  · exact (bench_replaceUnit _ _ _ _ t).trans ht

theorem bench_retargetReloc (r : Reloc) (s : State) : bench (retargetReloc r s) = bench s := by
  unfold retargetReloc
  extract_lets d t rest
  have hspare := (bench_getSpare d t).trans (bench_setBlockState d r.tgt 10 s)
  split
  · next sp u hu =>
    rw [hu] at hspare
    dsimp only
    rw [bench_event, bench_setBlockState]
    exact (bench_modMedia _).trans hspare
  · next u hu =>
    rw [hu] at hspare
    dsimp only
    rw [bench_exhaustion, bench_event]
    split
    · exact hspare
    · exact (bench_modMedia _).trans hspare

theorem bench_opRetire (x : DieDesc) (s : State) : bench (opRetire x s) = bench s := by
  unfold opRetire
  split
  · exact bench_retargetReloc _ s
  · exact bench_retireBlock _ _ _ s

theorem bench_erasedPlace (d b st : Nat) (recon : Bool) (s : State) : bench (erasedPlace d b st recon s) = bench s := by
  unfold erasedPlace
  split
  · split
    · exact bench_retargetReloc _ s
    · exact bench_retireBlock _ _ _ s
  · split
    · exact bench_setBlockState _ _ _ s
    · split
      · exact bench_setBlockState _ _ _ s
      · split
        · split
          · exact bench_setBlockState _ _ _ s
          · rw [bench_skeinErased]; exact bench_setBlockState _ _ _ s
        · exact bench_setBlockState _ _ _ s

theorem bench_queue (d b c : Nat) (s : State) :
    bench (modMedia (fun u => { u with refresh := u.refresh ++ [(d, b, c)] }) (modBlock d b (fun e => { e with refreshQ := true }) s)) = bench s :=
  (bench_modMedia _).trans (bench_modBlock d b s)

theorem bench_wearMove (d : Nat) (s : State) : bench (wearMove d s) = bench s := by
  unfold wearMove
  extract_lets bound full age
  split
  · split
    · rfl
    · split
      · rfl
      · split
        · rfl
        · exact bench_queue d _ 2 s
  · rfl

theorem bench_refreshByTemp (d : Nat) (t : BitVec 8) (s : State) : bench (refreshByTemp d t s) = bench s := by
  unfold refreshByTemp
  refine look_foldl bench (fun s b => ?_) _ s
  dsimp only
  split
  · unfold queueRefresh
    split
    · rfl
    · exact bench_queue d b 1 s
  · rfl

end Sys2Proof.Machine


/-! # SUPPORT. A die's operations (R45, R70, R336, R360, R367, R394, R396, R399, R404, R405) -/

namespace Sys2Proof.Machine

/-! ## Windows of reads -/

/-- A booking of the die's window, issued. -/
def issuedIn (n core : Nat) (b : Booking) : Booking := if b.desc.die = n && b.at_ ≤ core then { b with issued := true } else b

theorem issueReads_booked (n : Nat) (s : State) : (issueReads n s).piers.booked = s.piers.booked.map (issuedIn n s.reel.core) := rfl

theorem issued_issuedIn {n core : Nat} {b : Booking} (hdie : (issuedIn n core b).desc.die = n) (hat : (issuedIn n core b).at_ ≤ core) :
    (issuedIn n core b).issued = true := by
  unfold issuedIn at hdie hat ⊢
  split
  · rfl
  · next h =>
    simp only [h, if_false, Bool.false_eq_true] at hdie hat
    exact absurd (by simp [hdie, hat]) h

/-- Issuing the reads of a die's window issues each of them. -/
theorem issueReads_issues (n : Nat) (s : State) :
    (issueReads n s).piers.booked.length = s.piers.booked.length ∧
      ∀ b ∈ (issueReads n s).piers.booked, b.desc.die = n → b.at_ ≤ s.reel.core → b.issued = true := by
  rw [issueReads_booked]
  refine ⟨List.length_map _, fun b hb => ?_⟩
  obtain ⟨c, -, rfl⟩ := List.mem_map.mp hb
  exact issued_issuedIn

/-- An overrun of row 1 changes no memory, and counts in its channel and in group 10. -/
theorem overrun_counts (x slot : Nat) (s : State) :
    (overrun x 1 slot s).mem = s.mem ∧ (overrun x 1 slot s).piers.booked = s.piers.booked ∧
      (groupOf (overrun x 1 slot s) 10).total = satInc (groupOf s 10).total ∧
      (chan (overrun x 1 slot s) (x / 16)).ovrCount = satInc (chan s (x / 16)).ovrCount ∧
      (chan (overrun x 1 slot s) (x / 16)).ovrCase = 1 := by
  obtain ⟨-, -, told, irq, tgt, hpiers⟩ := overrun_frame x 1 slot s
  have hmem : (overrun x 1 slot s).mem = s.mem := by
    unfold overrun
    extract_lets c t told s1 s2
    obtain ⟨-, -, -, hm, -⟩ := quiet_fields (quiet_raiseFault 10 1 s2)
    refine hm.trans ?_
    simp only [s2]
    split <;> rfl
  have htotal : (groupOf (overrun x 1 slot s) 10).total = satInc (groupOf s 10).total := by
    unfold overrun
    extract_lets c t told s1 s2
    have hs2 : groupOf s2 10 = groupOf s 10 := by
      simp only [s2]
      split <;> rfl
    rw [raiseFault_total, hs2]
  have hchan : chan (overrun x 1 slot s) (x / 16) =
      { chan s (x / 16) with ovrCount := satInc (chan s (x / 16)).ovrCount, ovrCase := 1, ovrTgt := tgt, told := told, irq := irq } := by
    exact (congrArg (fun p : Piers => mget {} p.chans (x / 16)) hpiers).trans (chan_modChan_same (x / 16) _ s)
  refine ⟨hmem, ?_, htotal, ?_, ?_⟩
  · rw [hpiers]; rfl
  · rw [hchan]
  · rw [hchan]

/-- The suspended operation of a die goes on, in the die's entry. -/
def resumed (x : Die) : Die := { x with op := x.op.map (fun o => { o with suspended := false }) }

theorem suspendComplete_inTime {d : BitVec 11} {s : State} (h : openBookings s d.toNat ≠ []) :
    exec (.suspendComplete d true true) s = .next (issueReads d.toNat s) := by
  change execSuspendComplete d true true s = _
  rw [execSuspendComplete, if_neg h, if_pos rfl]

theorem suspendComplete_late {d : BitVec 11} {s : State} (h : openBookings s d.toNat ≠ []) :
    exec (.suspendComplete d false true) s = .next (issueReads d.toNat (overrun d.toNat 1 (openSlot s d.toNat) s)) := by
  change execSuspendComplete d false true s = _
  rw [execSuspendComplete, if_neg h, if_neg Bool.false_ne_true, if_pos rfl]

theorem senseComplete_ends {d : BitVec 11} {s : State} (h : (openBookings s d.toNat).any (·.issued) = true) :
    exec (.senseComplete d false) s = .next (resumeOp d.toNat (endSenses d.toNat s)) := by
  change execSenseComplete d false s = _
  rw [execSenseComplete, if_pos h, if_neg Bool.false_ne_true]

theorem endSenses_booked (n : Nat) (s : State) :
    (endSenses n s).piers.booked =
      s.piers.booked.map (fun b => if b.desc.die = n ∧ b.at_ ≤ s.reel.core ∧ b.issued = true then { b with sensed := true } else b) := by
  refine List.map_congr_left fun b _ => ?_
  simp [and_assoc]

/-! ## Programs: the content of the pages that land -/

/-- The contents of the pages after a page lands: what waited under the unit's key is the page's. -/
def landPage (x : DieDesc) (m : SMap (List (BitVec 256))) (p : Nat) : SMap (List (BitVec 256)) :=
  mset [] (pageNumber x.die x.block p) (mget [] m (2 ^ 60 + pageNumber x.die x.block p)) (mdel (2 ^ 60 + pageNumber x.die x.block p) m)

theorem landPages_data (x : DieDesc) (s : State) : (landPages x s).piers.data = (programPages x).foldl (landPage x) s.piers.data := by
  unfold landPages
  generalize programPages x = l
  dsimp only [modPiers_piers]
  induction l generalizing s with
  | nil => rfl
  | cons p l ih => exact ih _

theorem pageNumber_inj {d b p q : Nat} (h : pageNumber d b p = pageNumber d b q) : p = q := by
  unfold pageNumber at h
  omega

/-- The pages of one program lie within 24 of one another. -/
theorem programPages_near (x : DieDesc) : ∃ base, ∀ p ∈ programPages x, base ≤ p ∧ p < base + 24 := by
  unfold programPages
  extract_lets pslc planes
  have hplane : ∀ p ∈ planes, p < 6 := fun p hp => by simpa using List.mem_of_mem_filter hp
  split
  · refine ⟨x.page * 6, fun p hp => ?_⟩
    obtain ⟨q, hq, rfl⟩ := List.mem_map.mp hp
    have := hplane q hq
    omega
  · refine ⟨x.page * 24, fun p hp => ?_⟩
    obtain ⟨l, hl, hp⟩ := List.mem_flatten.mp hp
    obtain ⟨i, hi, rfl⟩ := List.mem_map.mp hl
    obtain ⟨q, hq, rfl⟩ := List.mem_map.mp hp
    have := hplane q hq
    have := List.mem_range.mp hi
    omega

theorem programPages_nodup (x : DieDesc) : (programPages x).Nodup := by
  unfold programPages
  extract_lets pslc planes
  have hplanes : planes.Nodup := List.nodup_range.filter _
  have hplane : ∀ p ∈ planes, p < 6 := fun p hp => by simpa using List.mem_of_mem_filter hp
  split
  · exact hplanes.map fun p q h => by omega
  · rw [← List.flatMap_def, List.nodup_flatMap]
    refine ⟨fun l _ => hplanes.map fun p q h => by omega, List.nodup_range.pairwise_of_forall_ne fun i _ j _ hij p hi hj => ?_⟩
    obtain ⟨q, hq, rfl⟩ := List.mem_map.mp hi
    obtain ⟨r, hr, h⟩ := List.mem_map.mp hj
    have := hplane q hq
    have := hplane r hr
    omega

/-- Pages that land near one another each get what waited for them. -/
theorem landPage_foldl (x : DieDesc) {base : Nat} : ∀ (l : List Nat) (m : SMap (List (BitVec 256))), l.Nodup → (∀ p ∈ l, base ≤ p ∧ p < base + 24) →
    (∀ p ∈ l, mget [] (l.foldl (landPage x) m) (pageNumber x.die x.block p) = mget [] m (2 ^ 60 + pageNumber x.die x.block p)) ∧
      ∀ q, base ≤ q → q < base + 24 → q ∉ l →
        mget [] (l.foldl (landPage x) m) (pageNumber x.die x.block q) = mget [] m (pageNumber x.die x.block q) ∧
        mget [] (l.foldl (landPage x) m) (2 ^ 60 + pageNumber x.die x.block q) = mget [] m (2 ^ 60 + pageNumber x.die x.block q)
  | [], m, _, _ => ⟨fun _ h => absurd h List.not_mem_nil, fun _ _ _ _ => ⟨rfl, rfl⟩⟩
  | p :: l, m, hnodup, hnear => by
    obtain ⟨hp, hl⟩ := List.nodup_cons.mp hnodup
    obtain ⟨hlow, hhigh⟩ := hnear p List.mem_cons_self
    obtain ⟨hin, hout⟩ := landPage_foldl x l (landPage x m p) hl fun q hq => hnear q (List.mem_cons_of_mem p hq)
    have hother : ∀ q, base ≤ q → q < base + 24 → q ≠ p →
        mget [] (landPage x m p) (pageNumber x.die x.block q) = mget [] m (pageNumber x.die x.block q) ∧
        mget [] (landPage x m p) (2 ^ 60 + pageNumber x.die x.block q) = mget [] m (2 ^ 60 + pageNumber x.die x.block q) := fun q h1 h2 hne => by
      unfold landPage
      rw [mget_mset_other, mget_mdel_other, mget_mset_other, mget_mdel_other]
      · exact ⟨rfl, rfl⟩
      all_goals unfold pageNumber; omega
    refine ⟨fun q hq => ?_, fun q h1 h2 hq => ?_⟩
    · rw [List.foldl_cons]
      rcases List.mem_cons.mp hq with rfl | hq
      · rw [(hout q hlow hhigh hp).1]
        exact mget_mset_same _ _ _ _
      · obtain ⟨h1, h2⟩ := hnear q (List.mem_cons_of_mem p hq)
        rw [hin q hq]
        exact (hother q h1 h2 fun h => hp (h ▸ hq)).2
    · rw [List.mem_cons, not_or] at hq
      obtain ⟨hkey, hunit⟩ := hout q h1 h2 hq.2
      obtain ⟨hkey', hunit'⟩ := hother q h1 h2 hq.1
      exact ⟨hkey.trans hkey', hunit.trans hunit'⟩

/-- Each page of a program that lands holds its unit's content. -/
theorem mget_landPages (x : DieDesc) (s : State) {p : Nat} (hp : p ∈ programPages x) :
    mget [] (landPages x s).piers.data (pageNumber x.die x.block p) = mget [] s.piers.data (2 ^ 60 + pageNumber x.die x.block p) := by
  obtain ⟨base, hnear⟩ := programPages_near x
  rw [landPages_data]
  exact (landPage_foldl x (programPages x) s.piers.data (programPages_nodup x) hnear).1 p hp

/-- The landing of pages changes the pages and their planes alone. -/
theorem landPages_piers (x : DieDesc) (s : State) :
    (landPages x s).piers.chans = s.piers.chans ∧ (landPages x s).piers.outcomes = s.piers.outcomes := by
  unfold landPages
  dsimp only [modPiers_piers]
  refine ⟨look_foldl (fun t : State => t.piers.chans) ?_ (programPages x) s, look_foldl (fun t : State => t.piers.outcomes) ?_ (programPages x) s⟩
  · intro t p; rfl
  · intro t p; rfl

end Sys2Proof.Machine


namespace Sys2Proof.Machine

/-! ## Operations that end -/

theorem chan_of_piers {s t : State} (h : t.piers = s.piers) (c : Nat) : chan t c = chan s c := by
  unfold chan
  rw [h]

theorem dieOf_of_chans {s t : State} (h : t.piers.chans = s.piers.chans) (n : Nat) : dieOf t n = dieOf s n := by
  unfold dieOf chan
  rw [h]

/-- A die's entry with no operation in flight. -/
def idle (x : Die) : Die := { x with op := none }

/-- The operation of die n has ended, with an outcome of this code. -/
def opEnded (n : Nat) (o : DieOp) (code : Nat) (s : State) : State := outcomeItem o code (modDie n idle s)

/-- The outcome item of an operation. -/
def outcomeOf (o : DieOp) (code : Nat) : Nat × Nat × Option Nat × BitVec 256 :=
  (o.desc.spindle, o.desc.owner, o.desc.row, statusUnit o.desc.tag code 0 0 o.suspends o.desc.die o.desc.block o.desc.page 0)

variable {n : Nat} {o : DieOp} {code : Nat} {s : State}

theorem opEnded_piers : (opEnded n o code s).piers = { (modDie n idle s).piers with outcomes := s.piers.outcomes ++ [outcomeOf o code] } := rfl

theorem dieOf_opEnded : dieOf (opEnded n o code s) n = idle (dieOf s n) := dieOf_modDie_same n idle s

theorem fitted_opEnded (q : Nat) : (dieOf (opEnded n o code s) q).fitted = (dieOf s q).fitted := by
  by_cases h : q = n
  · rw [h, dieOf_opEnded]; rfl
  · exact congrArg Die.fitted (dieOf_modDie_other h idle s)

/-- The channel's interrupt of a failed operation. -/
def opFailIrq (c : Chan) : Chan := { c with irq := setBit c.irq 2 }

/-- A channel's entry but its dies and its interrupts. -/
def chanRest (c : Chan) : Chan := { c with irq := 0, dies := [] }

theorem chan_modChan_view {α : Type} (p : Chan → α) {f : Chan → Chan} (h : ∀ c, p (f c) = p c) (k m : Nat) (s : State) :
    p (chan (modChan k f s) m) = p (chan s m) := by
  by_cases hm : m = k
  · rw [hm, chan_modChan_same, h]
  · rw [chan_modChan_other _ _ _ hm]

theorem opFailIrq_rest (c : Chan) : chanRest (opFailIrq c) = chanRest c := rfl

theorem chanRest_modDie (n : Nat) (f : Die → Die) (c : Nat) (s : State) : chanRest (chan (modDie n f s) c) = chanRest (chan s c) := by
  unfold modDie
  rw [chan_modChan_view chanRest]
  intro x
  rfl

/-- A failed operation sets its channel's interrupt, and with it only the care of its block unit begins. -/
theorem opFails_piers (x : DieDesc) (s : State) :
    (opRetire x (opFailed x s)).piers = (modChan (x.die / 16) opFailIrq s).piers :=
  piers_of_bench (bench_opRetire x (opFailed x s))

/-- What the failure of the operation of die n leaves: the die idle, its outcome, and its channel's interrupt. -/
theorem opFails_frame (n code : Nat) (o : DieOp) (s : State) :
    let t := opRetire o.desc (opFailed o.desc (opEnded n o code s))
    dieOf t n = idle (dieOf s n) ∧ t.piers.outcomes = s.piers.outcomes ++ [outcomeOf o code] ∧
      bit (chan t (o.desc.die / 16)).irq 2 = true ∧ ∀ c, chanRest (chan t c) = chanRest (chan s c) := by
  intro t
  have hpiers : t.piers = (modChan (o.desc.die / 16) opFailIrq (opEnded n o code s)).piers := opFails_piers o.desc _
  refine ⟨?_, ?_, ?_, fun c => ?_⟩
  · rw [dieOf_of_chans (congrArg Piers.chans hpiers), ← dieOf_opEnded (o := o) (code := code)]
    have hdies := chan_modChan_view Chan.dies (f := opFailIrq) (fun _ => rfl) (o.desc.die / 16) (n / 16) (opEnded n o code s)
    unfold dieOf
    rw [hdies]
  · rw [hpiers]; rfl
  · rw [chan_of_piers hpiers, chan_modChan_same]
    exact bit_setBit_same _ (by decide)
  · rw [chan_of_piers hpiers, chan_modChan_view chanRest opFailIrq_rest]
    exact chanRest_modDie n idle c s

/-! ## Programs and erases -/

theorem noteSummary_piers (x : DieDesc) (s : State) : (noteSummary x s).piers = s.piers := by
  unfold noteSummary
  split <;> rfl

variable {d : BitVec 11}

/-- A program that succeeds: the piers are as they are after its pages land. -/
theorem programComplete_ok (hop : (dieOf s d.toNat).op = some o) (hfn : o.desc.fn = 1) (hsus : o.suspended = false) :
    ∃ t, exec (.programComplete d true) s = .next t ∧ t.piers = (landPages o.desc (opEnded d.toNat o 8 s)).piers := by
  change ∃ t, execProgramComplete d true s = Host.Outcome.next t ∧ _
  simp only [execProgramComplete, hop, hfn, hsus, ne_eq, not_true_eq_false, decide_false, Bool.or_self, Bool.false_eq_true, if_false, if_true]
  refine ⟨_, rfl, (noteSummary_piers o.desc _).trans ?_⟩
  rfl

theorem programComplete_fails (hop : (dieOf s d.toNat).op = some o) (hfn : o.desc.fn = 1) (hsus : o.suspended = false) :
    exec (.programComplete d false) s = .next (opRetire o.desc (opFailed o.desc (opEnded d.toNat o 9 s))) := by
  change execProgramComplete d false s = _
  simp only [execProgramComplete, hop, hfn, hsus, ne_eq, not_true_eq_false, decide_false, Bool.or_self, Bool.false_eq_true, if_false]
  rfl

/-- The erases of a block unit that end leave the list of those to come. -/
def erasesWithout (x : DieDesc) (u : Media) : Media := { u with erases := u.erases.filter (fun e => !(e.1 = x.die && e.2.1 = x.block)) }

/-- The state after the end of an erase, before what becomes of its block unit. -/
def eraseEnded (n : Nat) (o : DieOp) (code : Nat) (s : State) : State := modMedia (erasesWithout o.desc) (opEnded n o code s)

/-- The state of a block unit follows from the image, its entry and whether its die is fitted. -/
theorem blockState_congr {s t : State} {q : Nat} (hfit : (dieOf t q).fitted = (dieOf s q).fitted) (hstore : t.store = s.store)
    (hblocks : t.media.blocks = s.media.blocks) (b : Nat) : blockState t q b = blockState s q b := by
  unfold blockState layoutState groupOfDie emergK imgGroups blockOf
  rw [hfit, hstore, hblocks]

theorem eraseEnded_blocks : (eraseEnded n o code s).media.blocks = s.media.blocks := rfl

theorem blockState_eraseEnded (q b : Nat) : blockState (eraseEnded n o code s) q b = blockState s q b := 
  have hdie : dieOf (eraseEnded n o code s) q = dieOf (opEnded n o code s) q := dieOf_of_chans rfl q
  have hfit : (dieOf (eraseEnded n o code s) q).fitted = (dieOf s q).fitted := by rw [hdie, fitted_opEnded]
  have hstore : (eraseEnded n o code s).store = s.store := by
    simp only [eraseEnded, opEnded, outcomeItem, modMedia_store, modPiers_store, modDie_store]
  blockState_congr hfit hstore eraseEnded_blocks b

/-- A block unit counted as pSLC or reserved wears by 1 in an erase, and another by 4. -/
def wearsLittle (s : State) (x : DieDesc) : Bool := (blockOf s x.die x.block).pslc || blockState s x.die x.block = 7 || blockState s x.die x.block = 8

/-- An erase that succeeds, on a state: the block unit is empty and goes to its place, and its die may move wear. -/
def eraseDone (x : DieDesc) (s : State) : State :=
  wearMove x.die (erasedPlace x.die x.block (blockState s x.die x.block) (blockOf s x.die x.block).recon
    (modBlock x.die x.block (erasedEntry (wearsLittle s x)) (wipePages x.die x.block s)))

theorem bench_eraseDone (x : DieDesc) (s : State) :
    bench (eraseDone x s) = bench (modBlock x.die x.block (erasedEntry (wearsLittle s x)) (wipePages x.die x.block s)) := by
  rw [eraseDone, bench_wearMove, bench_erasedPlace]

theorem wearsLittle_eraseEnded (x : DieDesc) : wearsLittle (eraseEnded n o code s) x = wearsLittle s x := by
  have hblock : blockOf (eraseEnded n o code s) x.die x.block = blockOf s x.die x.block := by rw [blockOf, eraseEnded_blocks, blockOf]
  rw [wearsLittle, blockState_eraseEnded, hblock, wearsLittle]

theorem eraseComplete_ok (hop : (dieOf s d.toNat).op = some o) (hfn : o.desc.fn = 2) (hsus : o.suspended = false) :
    exec (.eraseComplete d true) s = .next (eraseDone o.desc (eraseEnded d.toNat o 10 s)) := by
  change execEraseComplete d true s = _
  unfold eraseDone eraseEnded opEnded wearsLittle idle erasesWithout
  simp only [execEraseComplete, hop, hfn, hsus, ne_eq, not_true_eq_false, decide_false, Bool.or_self, Bool.false_eq_true, if_false, if_true]

theorem eraseComplete_fails (hop : (dieOf s d.toNat).op = some o) (hfn : o.desc.fn = 2) (hsus : o.suspended = false) :
    exec (.eraseComplete d false) s = .next (opRetire o.desc (opFailed o.desc (eraseEnded d.toNat o 11 s))) := by
  change execEraseComplete d false s = _
  simp only [execEraseComplete, hop, hfn, hsus, ne_eq, not_true_eq_false, decide_false, Bool.or_self, Bool.false_eq_true, if_false]
  rfl

end Sys2Proof.Machine


namespace Sys2Proof.Machine

/-! ## Dies that fail -/

/-- A channel's entry but its dies. -/
def undied (c : Chan) : Chan := { c with dies := [] }

/-- The groups of fault collection, and the channels but their dies. -/
def ledger (s : State) : SMap FcrGroup × (Nat → Chan) := (groups s, fun c => undied (chan s c))

theorem ledger_of_eq {s t : State} (hg : groups t = groups s) (hp : t.piers = s.piers) : ledger t = ledger s := by
  unfold ledger chan
  rw [hg, hp]

theorem ledger_of_quiet {s t : State} (hg : groups t = groups s) (hq : quiet t = quiet s) : ledger t = ledger s := by
  obtain ⟨-, -, -, -, -, -, hpiers, -⟩ := quiet_fields hq
  exact ledger_of_eq hg hpiers

section ledger_mods
variable (s : State)
theorem ledger_modMedia (f : Media → Media) : ledger (modMedia f s) = ledger s := rfl
theorem ledger_modStore (f : Store → Store) : ledger (modStore f s) = ledger s := rfl
theorem ledger_modPwr (f : Pwr → Pwr) : ledger (modPwr f s) = ledger s := rfl
theorem ledger_modReel (f : Reel → Reel) : ledger (modReel f s) = ledger s := rfl
theorem ledger_modGrp (g : Nat) (f : Grp → Grp) : ledger (modGrp g f s) = ledger s := rfl
theorem ledger_modNs (n : Nat) (f : Ns → Ns) : ledger (modNs n f s) = ledger s := rfl
theorem ledger_setBlockState (d b : Nat) (st : BitVec 4) : ledger (setBlockState d b st s) = ledger s := rfl
theorem ledger_event (code : BitVec 16) (ws : List (BitVec 32)) : ledger (event code ws s) = ledger s := rfl
end ledger_mods

theorem ledger_modDie (n : Nat) (f : Die → Die) (s : State) : ledger (modDie n f s) = ledger s := by
  refine Prod.ext rfl (funext fun c => ?_)
  have hview : ∀ g : Chan → Chan, (∀ x, undied (g x) = undied x) → undied (chan (modChan (n / 16) g s) c) = undied (chan s c) :=
    fun g hg => chan_modChan_view undied hg (n / 16) c s
  exact hview _ fun x => rfl

theorem ledger_lostOp (d : Nat) (s : State) : ledger (lostOp d s) = ledger s := by
  unfold lostOp
  split <;> rfl

theorem ledger_inventoryChanged (s : State) : ledger (inventoryChanged s) = ledger s := rfl

theorem ledger_moveCommit (ns g : Nat) : ∀ (n : Nat) (s : State), ledger (moveCommit ns g n s) = ledger s
  | 0, _ => rfl
  | n + 1, s => by
    unfold moveCommit
    split
    · rfl
    · split
      · rfl
      · exact (ledger_moveCommit ns g n _).trans (ledger_modNs _ _ _)

theorem ledger_degradeGroup (g : Nat) (s : State) : ledger (degradeGroup g s) = ledger s := by
  unfold degradeGroup
  split
  · rfl
  · refine (ledger_modMedia _ _).trans ((look_foldl ledger (fun s e => ?_) _ _).trans (ledger_modGrp _ _ _))
    split
    · rfl
    · exact ledger_moveCommit _ _ _ s

theorem ledger_loseBlocks (d : Nat) (s : State) : ledger (loseBlocks d s) = ledger s := by
  unfold loseBlocks
  exact (ledger_modDie d _ _).trans (look_foldl ledger (fun s b => ledger_setBlockState s d b 12) _ s)

theorem ledger_wantRebuild (s : State) : ledger (wantRebuild s) = ledger s := by
  unfold wantRebuild
  extract_lets t
  have ht : ledger t = ledger s := ledger_modMedia s _
  split
  · exact ht
  · exact (ledger_of_quiet (groups_deviceRequest _ _ _) (quiet_deviceRequest _ _ _)).trans ((ledger_modReel t _).trans ht)

/-- The loss of a die changes no group of fault collection, and of the channels only the dies. -/
theorem ledger_dieLost (d : Nat) (s : State) : ledger (dieLost d s) = ledger s := by
  unfold dieLost
  split
  · exact (ledger_inventoryChanged _).trans (ledger_modDie d _ s)
  · extract_lets n held t1 t2 t3
    have h1 : ledger t1 = ledger s := (ledger_degradeGroup _ _).trans (ledger_loseBlocks d s)
    have h2 : ledger t2 = ledger s := (ledger_event t1 _ _).trans h1
    have h3 : ledger t3 = ledger s := (ledger_inventoryChanged _).trans ((ledger_modMedia t2 _).trans h2)
    split
    · exact h3
    · exact (ledger_wantRebuild t3).trans h3

/-- A die's bit of PIER_LOST and its channel's interrupt. -/
def dieFailed (n : Nat) (c : Chan) : Chan := { c with lost := setBit c.lost (n % 16), irq := setBit c.irq 1 }

theorem isLost_of_undied {s : State} {n : Nat} {c : Chan} (h : undied (chan s (n / 16)) = undied c) :
    isLost s n = (decide (c.state = 3) || bit c.lost (n % 16)) := by
  have hstate : (chan s (n / 16)).state = c.state :=
    (congrArg Chan.state h : (undied (chan s (n / 16))).state = (undied c).state)
  have hlost : (chan s (n / 16)).lost = c.lost :=
    (congrArg Chan.lost h : (undied (chan s (n / 16))).lost = (undied c).lost)
  rw [isLost, hstate, hlost]

/-- A die that fails is lost, with its channel's interrupt and a fault of group 11. -/
theorem failDie_frame {n : Nat} (cause : Nat) {s : State} (h : isLost s n = false) :
    isLost (failDie n cause s) n = true ∧ bit (chan (failDie n cause s) (n / 16)).irq 1 = true ∧
      (groupOf (failDie n cause s) 11).total = satInc (groupOf s 11).total := by
  unfold failDie
  rw [if_neg (by simp [h])]
  extract_lets t
  have hfailed : (eventC 0x0904 2 [w32 (n / 16), w32 (n % 16), w32 cause] t).piers = (modChan (n / 16) (dieFailed n) s).piers ∧
      groupOf (eventC 0x0904 2 [w32 (n / 16), w32 (n % 16), w32 cause] t) 11 = groupOf s 11 := ⟨rfl, rfl⟩
  generalize eventC 0x0904 2 [w32 (n / 16), w32 (n % 16), w32 cause] t = u at hfailed ⊢
  obtain ⟨hu, hgroup⟩ := hfailed
  have hledger : ledger (dieLost n (lostOp n (raiseFault 11 2 u))) = ledger (raiseFault 11 2 u) := (ledger_dieLost n _).trans (ledger_lostOp n _)
  obtain ⟨-, -, -, -, -, -, hpiers, -⟩ := quiet_fields (quiet_raiseFault 11 2 u)
  generalize dieLost n (lostOp n (raiseFault 11 2 u)) = v at hledger ⊢
  have hchan : undied (chan v (n / 16)) = undied (dieFailed n (chan s (n / 16))) := by
    rw [← chan_modChan_same (n / 16) (dieFailed n) s, ← chan_of_piers (hpiers.trans hu)]
    exact congrFun (congrArg Prod.snd hledger) (n / 16)
  refine ⟨?_, ?_, ?_⟩
  · rw [isLost_of_undied hchan, dieFailed, bit_setBit_same _ (Nat.mod_lt n (by decide)), Bool.or_true]
  · have hirq : (undied (chan v (n / 16))).irq = setBit (chan s (n / 16)).irq 1 := congrArg Chan.irq hchan
    change bit (undied (chan v (n / 16))).irq 1 = true
    rw [hirq, bit_setBit_same _ (by decide)]
  · rw [groupOf_eq (congrArg Prod.fst hledger) 11, raiseFault_total, hgroup]

/-! ## Temperatures -/

/-- A die's temperature in its channel's entry. -/
def tempRead (n : Nat) (T : BitVec 8) (c : Chan) : Chan := { c with temps := mset {} (n % 16) { valid := true, age := 0, temp := T } c.temps }

theorem throttleBegin_piers (s : State) : (throttleBegin s).piers = s.piers := by
  unfold throttleBegin
  split
  · rfl
  · split
    · rfl
    · exact (quiet_fields (quiet_deviceRequest _ _ _)).2.2.2.2.2.2.1

theorem flashReading_piers (n : Nat) (T : BitVec 8) (s : State) : (flashReading n T s).piers = (modChan (n / 16) (tempRead n T) s).piers := by
  unfold flashReading
  extract_lets t hot
  dsimp only
  rw [throttleBegin_piers]
  split
  · split <;> rfl
  · rfl

end Sys2Proof.Machine


namespace Sys2Proof.Machine

/-! ## The operations of a die -/

variable {d : BitVec 11} {s : State} {o : DieOp}

theorem suspendComplete_issues (h : openBookings s d.toNat ≠ []) :
    (∃ t, exec (.suspendComplete d true true) s = .next t ∧ (t.piers.booked.length = s.piers.booked.length ∧ t.mem = s.mem ∧
      ∀ b ∈ t.piers.booked, b.desc.die = d.toNat → b.at_ ≤ s.reel.core → b.issued = true) ∧ t.fcr = s.fcr ∧ t.piers.chans = s.piers.chans) ∧
    ∃ t, exec (.suspendComplete d false true) s = .next t ∧ (t.piers.booked.length = s.piers.booked.length ∧ t.mem = s.mem ∧
      ∀ b ∈ t.piers.booked, b.desc.die = d.toNat → b.at_ ≤ s.reel.core → b.issued = true) ∧
      (groupOf t 10).total = satInc (groupOf s 10).total ∧
      (chan t (d.toNat / 16)).ovrCount = satInc (chan s (d.toNat / 16)).ovrCount ∧ (chan t (d.toNat / 16)).ovrCase = 1 := by
  obtain ⟨hlength, hissued⟩ := issueReads_issues d.toNat s
  refine ⟨⟨_, suspendComplete_inTime h, ⟨hlength, rfl, hissued⟩, rfl, rfl⟩, _, suspendComplete_late h, ?_⟩
  obtain ⟨-, hcross, -⟩ := overrun_frame d.toNat 1 (openSlot s d.toNat) s
  obtain ⟨hmem, hbooked, htotal, hcount, hcase⟩ := overrun_counts d.toNat (openSlot s d.toNat) s
  obtain ⟨hcore, -⟩ := crossings_fields hcross
  generalize overrun d.toNat 1 (openSlot s d.toNat) s = t at hmem hbooked htotal hcount hcase hcore ⊢
  obtain ⟨hlength', hissued'⟩ := issueReads_issues d.toNat t
  rw [hbooked] at hlength'
  rw [hcore] at hissued'
  exact ⟨⟨hlength', hmem, hissued'⟩, htotal, hcount, hcase⟩

theorem senseComplete_resumes (h : (openBookings s d.toNat).any (·.issued) = true) (hop : (dieOf s d.toNat).op = some o) :
    ∃ t, exec (.senseComplete d false) s = .next t ∧ (dieOf t d.toNat).op = some { o with suspended := false } ∧
      t.piers.booked = s.piers.booked.map (fun b =>
        if b.desc.die = d.toNat ∧ b.at_ ≤ s.reel.core ∧ b.issued = true then { b with sensed := true } else b) ∧
      ∀ q, q ≠ d.toNat → dieOf t q = dieOf s q := by
  have hdie : ∀ q, dieOf (endSenses d.toNat s) q = dieOf s q := fun q => dieOf_of_chans rfl q
  refine ⟨_, senseComplete_ends h, ?_, endSenses_booked d.toNat s, fun q hq => (dieOf_modDie_other hq _ _).trans (hdie q)⟩
  rw [resumeOp, dieOf_modDie_same, hdie, hop]
  rfl

theorem programComplete_ends (hop : (dieOf s d.toNat).op = some o) (hfn : o.desc.fn = 1) (hsus : o.suspended = false) :
    (∃ t, exec (.programComplete d true) s = .next t ∧ (dieOf t d.toNat).op = none ∧ t.piers.outcomes = s.piers.outcomes ++ [outcomeOf o 8] ∧
      ∀ p ∈ programPages o.desc, mget [] t.piers.data (pageNumber o.desc.die o.desc.block p) =
        mget [] s.piers.data (2 ^ 60 + pageNumber o.desc.die o.desc.block p)) ∧
    ∃ t, exec (.programComplete d false) s = .next t ∧ (dieOf t d.toNat).op = none ∧ t.piers.outcomes = s.piers.outcomes ++ [outcomeOf o 9] ∧
      bit (chan t (o.desc.die / 16)).irq 2 = true := by
  constructor
  · obtain ⟨t, ht, hpiers⟩ := programComplete_ok hop hfn hsus
    obtain ⟨hchans, houtcomes⟩ := landPages_piers o.desc (opEnded d.toNat o 8 s)
    refine ⟨t, ht, ?_, ?_, fun p hp => ?_⟩
    · rw [dieOf_of_chans ((congrArg Piers.chans hpiers).trans hchans), dieOf_opEnded]
      rfl
    · rw [hpiers, houtcomes]
      rfl
    · rw [hpiers, mget_landPages o.desc (opEnded d.toNat o 8 s) hp]
      rfl
  · obtain ⟨hdie, houtcomes, hirq, -⟩ := opFails_frame d.toNat 9 o s
    exact ⟨_, programComplete_fails hop hfn hsus, congrArg Die.op hdie, houtcomes, hirq⟩

theorem wearsLittle_iff (s : State) (x : DieDesc) : wearsLittle s x = true ↔
    (blockOf s x.die x.block).pslc = true ∨ blockState s x.die x.block = 7 ∨ blockState s x.die x.block = 8 := by
  simp [wearsLittle, or_assoc]

/-- The content of a block unit that is wiped is gone. -/
theorem wipePages_gone {q b : Nat} {e : Nat × List (BitVec 256)} (he : e ∈ (wipePages q b s).piers.data) : e.1 / 8208 ≠ q * 2048 + b := by
  have h := List.of_mem_filter he
  simpa using h

theorem modChan_piers_congr {t u : State} {k : Nat} {f : Chan → Chan} (h : t.piers = u.piers) : (modChan k f t).piers = (modChan k f u).piers := by
  simp only [modChan, modPiers_piers, h]

theorem eraseComplete_ends (hop : (dieOf s d.toNat).op = some o) (hfn : o.desc.fn = 2) (hsus : o.suspended = false) :
    (∃ t, exec (.eraseComplete d true) s = .next t ∧ (dieOf t d.toNat).op = none ∧ t.piers.outcomes = s.piers.outcomes ++ [outcomeOf o 10] ∧
      (blockOf t o.desc.die o.desc.block).wear = satAdd (blockOf s o.desc.die o.desc.block).wear (if (blockOf s o.desc.die o.desc.block).pslc = true ∨
        blockState s o.desc.die o.desc.block = 7 ∨ blockState s o.desc.die o.desc.block = 8 then 1 else 4) ∧
      (blockOf t o.desc.die o.desc.block).pages = 0 ∧ ∀ e ∈ t.piers.data, e.1 / 8208 ≠ o.desc.die * 2048 + o.desc.block) ∧
    ∃ t, exec (.eraseComplete d false) s = .next t ∧ (dieOf t d.toNat).op = none ∧ t.piers.outcomes = s.piers.outcomes ++ [outcomeOf o 11] ∧
      bit (chan t (o.desc.die / 16)).irq 2 = true := by
  constructor
  · have hbench := bench_eraseDone o.desc (eraseEnded d.toNat o 10 s)
    have ht := eraseComplete_ok hop hfn hsus
    rw [wearsLittle_eraseEnded] at hbench
    generalize eraseDone o.desc (eraseEnded d.toNat o 10 s) = t at hbench ht
    have hpiers : t.piers = (wipePages o.desc.die o.desc.block (eraseEnded d.toNat o 10 s)).piers := (piers_of_bench hbench).trans rfl
    have hworn : worn (blockOf t o.desc.die o.desc.block) = worn (erasedEntry (wearsLittle s o.desc) (blockOf s o.desc.die o.desc.block)) :=
      (congrFun (congrArg Prod.snd hbench) (o.desc.die * 2048 + o.desc.block)).trans (congrArg worn (mget_mmod_same _ _ _ _))
    have hchans : t.piers.chans = (opEnded d.toNat o 10 s).piers.chans := by rw [hpiers]; rfl
    refine ⟨t, ht, ?_, ?_, ?_, congrArg Prod.snd hworn, fun e he => wipePages_gone (hpiers ▸ he)⟩
    · rw [dieOf_of_chans hchans, dieOf_opEnded]
      rfl
    · rw [hpiers]
      rfl
    · refine (congrArg Prod.fst hworn).trans ?_
      simp only [← wearsLittle_iff]
      rfl
  · obtain ⟨hdie, houtcomes, hirq, -⟩ := opFails_frame d.toNat 11 o s
    have hended : (eraseEnded d.toNat o 11 s).piers = (opEnded d.toNat o 11 s).piers := rfl
    have hpiers : (opRetire o.desc (opFailed o.desc (eraseEnded d.toNat o 11 s))).piers =
        (opRetire o.desc (opFailed o.desc (opEnded d.toNat o 11 s))).piers := 
      (opFails_piers o.desc _).trans ((modChan_piers_congr hended).trans (opFails_piers o.desc _).symm)
    refine ⟨_, eraseComplete_fails hop hfn hsus, ?_, ?_, ?_⟩
    · rw [dieOf_of_chans (congrArg Piers.chans hpiers), hdie]
      rfl
    · rw [hpiers, houtcomes]
    · rw [chan_of_piers hpiers, hirq]

theorem dieReadyTimeout_resets (hlost : isLost s d.toNat = false) (hop : (dieOf s d.toNat).op = some o) :
    ∃ t, exec (.dieReadyTimeout d) s = .next t ∧ (dieOf t d.toNat).reset = true ∧ (dieOf t d.toNat).op = some o ∧ t.piers.outcomes = s.piers.outcomes := by
  change ∃ t, execDieReadyTimeout d s = Host.Outcome.next t ∧ _
  rw [execDieReadyTimeout, hop, hlost]
  refine ⟨_, rfl, ?_, ?_, rfl⟩ <;> rw [dieOf_modDie_same]
  exact hop

/-- A die's entry after its reset. -/
def resetDone (x : Die) : Die := { x with reset := false, resetting := false }

theorem isLost_resetDone : isLost (modDie d.toNat resetDone s) d.toNat = isLost s d.toNat :=
  isLost_of_undied (congrFun (congrArg Prod.snd (ledger_modDie d.toNat resetDone s)) (d.toNat / 16))

theorem dieResetComplete_eq (r : BitVec 2) (hlost : isLost s d.toNat = false) (hresetting : (dieOf s d.toNat).resetting = true) :
    exec (.dieResetComplete d r) s = (if r = 0 then .next (failOp d.toNat (modDie d.toNat resetDone s))
      else .next (failDie d.toNat r.toNat (modDie d.toNat resetDone s))) := by
  change execDieResetComplete d r s = _
  rw [execDieResetComplete, hresetting, hlost]
  rfl

theorem dieResetComplete_back (hlost : isLost s d.toNat = false) (hresetting : (dieOf s d.toNat).resetting = true)
    (hop : (dieOf s d.toNat).op = some o) :
    ∃ t, exec (.dieResetComplete d 0) s = .next t ∧ (dieOf t d.toNat).op = none ∧ (dieOf t d.toNat).reset = false ∧
      (dieOf t d.toNat).resetting = false ∧ isLost t d.toNat = false ∧
      t.piers.outcomes = s.piers.outcomes ++ [outcomeOf o (if o.desc.fn = 2 then 11 else 9)] := by
  have hdone : (dieOf (modDie d.toNat resetDone s) d.toNat) = resetDone (dieOf s d.toNat) := dieOf_modDie_same _ _ _
  have hfail : failOp d.toNat (modDie d.toNat resetDone s) =
      opRetire o.desc (opFailed o.desc (opEnded d.toNat o (if o.desc.fn = 2 then 11 else 9) (modDie d.toNat resetDone s))) := by
    have hop' : (dieOf (modDie d.toNat resetDone s) d.toNat).op = some o := by rw [hdone]; exact hop
    simp only [failOp, hop']
    rfl
  obtain ⟨hdie, houtcomes, -, hchan⟩ := opFails_frame d.toNat (if o.desc.fn = 2 then 11 else 9) o (modDie d.toNat resetDone s)
  refine ⟨_, (dieResetComplete_eq 0 hlost hresetting).trans (if_pos rfl), ?_⟩
  rw [hfail]
  generalize opRetire o.desc _ = t at hdie houtcomes hchan ⊢
  rw [hdone] at hdie
  have hrest : chanRest (chan t (d.toNat / 16)) = chanRest (chan s (d.toNat / 16)) :=
    (hchan _).trans (chanRest_modDie d.toNat resetDone _ s)
  refine ⟨congrArg Die.op hdie, congrArg Die.reset hdie, congrArg Die.resetting hdie, ?_, houtcomes⟩
  have hstate : (chan t (d.toNat / 16)).state = (chan s (d.toNat / 16)).state :=
    (congrArg Chan.state hrest : (chanRest _).state = (chanRest _).state)
  have hbits : (chan t (d.toNat / 16)).lost = (chan s (d.toNat / 16)).lost :=
    (congrArg Chan.lost hrest : (chanRest _).lost = (chanRest _).lost)
  rw [← hlost, isLost, isLost, hstate, hbits]

theorem dieResetComplete_lost {r : BitVec 2} (hr : r ≠ 0) (hlost : isLost s d.toNat = false) (hresetting : (dieOf s d.toNat).resetting = true) :
    ∃ t, exec (.dieResetComplete d r) s = .next t ∧ isLost t d.toNat = true ∧ bit (chan t (d.toNat / 16)).irq 1 = true ∧
      (groupOf t 11).total = satInc (groupOf s 11).total :=
  ⟨_, (dieResetComplete_eq r hlost hresetting).trans (if_neg hr), failDie_frame r.toNat (isLost_resetDone.trans hlost)⟩

theorem dieIdCheck_lost {ident : BitVec 64} (hfit : (dieOf s d.toNat).fitted = true) (hstate : (chan s (d.toNat / 16)).state = 2)
    (hident : ident ≠ (dieOf s d.toNat).ident) : ∃ t, exec (.dieIdCheck d ident) s = .next t ∧ isLost t d.toNat = true := by
  refine ⟨failDie d.toNat 3 s, ?_, ?_⟩
  · change execDieIdCheck d ident s = _
    simp only [execDieIdCheck, hfit, hstate, ne_eq, hident, not_false_eq_true, decide_true, Bool.and_self, if_true]
  · cases hlost : isLost s d.toNat with
    | false => exact (failDie_frame 3 hlost).1
    | true => rw [failDie, if_pos hlost]; exact hlost

/-- The temperature read of a die is over. -/
def readOver (n : Nat) (s : State) : State :=
  modDie n (fun x => { x with reading := false }) (modPiers (fun u => { u with ops := u.ops.filter (fun x => !(x.fn = 3 && x.die = n)) }) s)

theorem temperatureReadComplete_eq (T : BitVec 8) (h : ((dieOf s d.toNat).fitted && !isLost s d.toNat && (dieOf s d.toNat).reading) = true) :
    exec (.temperatureReadComplete d T) s = .next (refreshByTemp d.toNat T (flashReading d.toNat T (readOver d.toNat s))) := by
  change execTemperatureReadComplete d T s = _
  unfold execTemperatureReadComplete readOver
  rw [if_pos h]

theorem temperatureReadComplete_shows (T : BitVec 8) (hfit : (dieOf s d.toNat).fitted = true) (hlost : isLost s d.toNat = false)
    (hreading : (dieOf s d.toNat).reading = true) : ∃ t, exec (.temperatureReadComplete d T) s = .next t ∧
      pierTemp t d.toNat = { valid := true, age := 0, temp := T } ∧ ∀ y ∈ t.piers.ops, ¬ (y.fn = 3 ∧ y.die = d.toNat) := by
  have hpiers : (refreshByTemp d.toNat T (flashReading d.toNat T (readOver d.toNat s))).piers =
      (modChan (d.toNat / 16) (tempRead d.toNat T) (readOver d.toNat s)).piers :=
    (piers_of_bench (bench_refreshByTemp d.toNat T _)).trans (flashReading_piers d.toNat T (readOver d.toNat s))
  refine ⟨_, temperatureReadComplete_eq T (by rw [hfit, hlost, hreading]; rfl), ?_, fun y hy => ?_⟩
  · rw [pierTemp, chan_of_piers hpiers, chan_modChan_same, tempRead, mget_mset_same]
  · rw [hpiers] at hy
    have h := List.of_mem_filter (show y ∈ s.piers.ops.filter (fun x => !(x.fn = 3 && x.die = d.toNat)) from hy)
    rintro ⟨hfn, hdie⟩
    simp [hfn, hdie] at h

/-- Settles O33: each row's effect on the piers, with `bench` for what the care of block units keeps of them. -/
theorem dieOperations : Obligations.DieOperations := by
  unfold Obligations.DieOperations
  intro d s o T r ident n x item issues
  exact ⟨suspendComplete_issues, senseComplete_resumes,
    fun hop hsus => ⟨fun hfn => programComplete_ends hop hfn hsus, fun hfn => eraseComplete_ends hop hfn hsus⟩,
    dieReadyTimeout_resets,
    fun hlost hresetting => ⟨dieResetComplete_back hlost hresetting, fun hr => dieResetComplete_lost hr hlost hresetting⟩,
    dieIdCheck_lost, temperatureReadComplete_shows T⟩

end Sys2Proof.Machine

/-! # SUPPORT. What the staging of write data and a completion leave alone: the connections open (R284, R286, R288, R296, R339) -/

namespace Sys2Proof.Machine

/-! ## Rows and their plies: the media alone -/

theorem offMedia_addPool {g cls : Nat} {s t : State} (h : addPool g cls s = some t) : offMedia t = offMedia s := by
  unfold addPool at h
  split at h
  · exact absurd h (by simp)
  · split at h
    · exact absurd h (by simp)
    · obtain rfl := Option.some.inj h
      rw [offMedia_modMedia, look_foldl offMedia fun s d => by rw [modBlock, offMedia_modMedia], modGrp, offMedia_modMedia]

theorem offMedia_takePlies {g cls n k ply : Nat} {s t : State} (h : takePlies g cls n s = some (k, ply, t)) : offMedia t = offMedia s := by
  unfold takePlies at h
  split at h
  · obtain ⟨-, rfl⟩ := Prod.mk.inj (Prod.mk.inj (Option.some.inj h)).2
    rw [modPool, offMedia_modMedia]
  · split at h
    · exact absurd h (by simp)
    · next u hu =>
      obtain ⟨p, -, hp⟩ := Option.map_eq_some_iff.mp h
      obtain ⟨-, rfl⟩ := Prod.mk.inj (Prod.mk.inj hp).2
      rw [modPool, offMedia_modMedia, offMedia_addPool hu]

theorem offMedia_addRow (r : Row) (s : State) : offMedia (addRow r s) = offMedia s := by
  unfold addRow
  rw [offMedia_modMedia]

theorem offMedia_programRows (n : BitVec 32) (z : Nat) : ∀ (f : Nat) (s : State), offMedia (programRows n z f s) = offMedia s
  | 0, _ => rfl
  | f + 1, s => by
    unfold programRows
    split
    · rfl
    · extract_lets e g pool at_ upto row
      split
      · rfl
      · split
        · split
          · rfl
          · next h => rw [offMedia_programRows n z f, modZone, offMedia_modMedia, offMedia_addRow, offMedia_takePlies h]
        · rw [offMedia_programRows n z f, modZone, offMedia_modMedia, offMedia_addRow]

theorem offMedia_programRu (k : Nat) : ∀ (f : Nat) (s : State), offMedia (programRu k f s) = offMedia s
  | 0, _ => rfl
  | f + 1, s => by
    unfold programRu
    extract_lets r g cls pool at_ upto lbas row keep
    have hkeep : ∀ t, offMedia (keep t) = offMedia t := fun t => offMedia_modMedia _ t
    split
    · rfl
    · split
      · split
        · rfl
        · next h => rw [offMedia_programRu k f, modRu, offMedia_modMedia, hkeep, offMedia_addRow, offMedia_takePlies h]
      · rw [offMedia_programRu k f, modRu, offMedia_modMedia, hkeep, offMedia_addRow]

theorem offMedia_programWrite (x : Ns) (c : Cmd) (s : State) : offMedia (programWrite x c s) = offMedia s := by
  unfold programWrite
  dsimp only
  split
  · exact look_foldl offMedia (fun s e => offMedia_programRu _ _ s) _ s
  · exact offMedia_programRows _ _ _ s

theorem offMedia_storeBlocks (x : Ns) (c : Cmd) (s : State) : offMedia (storeBlocks x c s) = offMedia s := by
  unfold storeBlocks
  exact look_foldl offMedia (fun s i => offMedia_modMedia _ s) _ s

theorem offMedia_countStaged (n : Nat) (s : State) : offMedia (countStaged n s) = offMedia s := by
  unfold countStaged
  rw [offMedia_modMedia]

theorem offMedia_clearPoison (n lba cnt : Nat) (s : State) : offMedia (clearPoison n lba cnt s) = offMedia s := by
  unfold clearPoison
  rw [offMedia_modMedia]

theorem offMedia_replaceStaged (c : Cmd) (l : List Nat) (s : State) : offMedia (replaceStaged c l s) = offMedia s := by
  unfold replaceStaged
  extract_lets old units
  rw [look_foldl offMedia fun s i => offMedia_clearPoison _ _ _ s, offMedia_modMedia]

theorem offMedia_keepStaged (x : Ns) (c : Cmd) (s : State) : offMedia (keepStaged x c s) = offMedia s := by
  unfold keepStaged
  extract_lets ok gone t
  rw [offMedia_modMedia]
  exact offMedia_replaceStaged _ _ s

theorem offMedia_unreserve (c n : Nat) (s : State) : offMedia (unreserve c n s) = offMedia s := by
  rw [unreserve, offMedia_modMedia]

theorem offMedia_returnPointer (x : Ns) (c : Cmd) (z : Nat) (s : State) : offMedia (returnPointer x c z s) = offMedia s := by
  unfold returnPointer unstage dropBuf
  rw [offMedia_unreserve, modZone, offMedia_modMedia]
  split
  · rfl
  · rw [offMedia_modMedia, offMedia_modMedia]

/-! ## The connections that are open -/

/-- Which connections are open. -/
def opens (s : State) : Nat → Bool := fun n => (connOf s n).isOpen

theorem opens_of_conns {s t : State} (h : t.xpt.conns = s.xpt.conns) : opens t = opens s := by
  unfold opens connOf
  rw [h]

theorem opens_of_xptRest {s t : State} (h : xptRest t = xptRest s) : opens t = opens s :=
  opens_of_conns (congrArg Xpt.conns h : (xptRest t).conns = (xptRest s).conns)

theorem opens_of_offMedia {s t : State} (h : offMedia t = offMedia s) : opens t = opens s :=
  opens_of_conns (congrArg (fun s : State => s.xpt.conns) h : (offMedia t).xpt.conns = (offMedia s).xpt.conns)

theorem opens_of_offMem {s t : State} (h : offMem t = offMem s) : opens t = opens s :=
  opens_of_conns (congrArg (fun s : State => s.xpt.conns) h : (offMem t).xpt.conns = (offMem s).xpt.conns)

@[simp] theorem opens_ite (c : Prop) [Decidable c] (s t : State) : opens (if c then s else t) = if c then opens s else opens t := by
  split <;> rfl

section opens_mods
variable (s : State)
@[simp] theorem opens_modTables (f : Tables → Tables) : opens (modTables f s) = opens s := rfl
@[simp] theorem opens_modMedia (f : Media → Media) : opens (modMedia f s) = opens s := rfl
@[simp] theorem opens_modCtrl (v : Nat) (f : Ctrl → Ctrl) : opens (modCtrl v f s) = opens s := rfl
@[simp] theorem opens_modSpn (n : Nat) (f : Spindle → Spindle) : opens (modSpn n f s) = opens s := rfl
@[simp] theorem opens_modPort (p : Nat) (f : Port → Port) : opens (modPort p f s) = opens s := rfl
@[simp] theorem opens_modCiph (f : Ciph → Ciph) : opens (modCiph f s) = opens s := rfl
@[simp] theorem opens_modKey (k : Nat) (f : KeySlot → KeySlot) : opens (modKey k f s) = opens s := rfl
@[simp] theorem opens_event (code : BitVec 16) (ws : List (BitVec 32)) : opens (event code ws s) = opens s := rfl
@[simp] theorem opens_eventC (code : BitVec 16) (c : Nat) (ws : List (BitVec 32)) : opens (eventC code c ws s) = opens s := rfl
@[simp] theorem opens_drawBits : opens (drawBits s).2 = opens s := rfl
@[simp] theorem opens_passTime : opens (passTime s) = opens s := rfl
@[simp] theorem opens_queueFrame (f : TxFrame) : opens (queueFrame f s) = opens s := rfl
@[simp] theorem opens_raiseFault (g : Nat) (c : BitVec 3) : opens (raiseFault g c s) = opens s := opens_of_xptRest (xptRest_raiseFault g c s)
@[simp] theorem opens_pushRx (n : Nat) (us : List (BitVec 256)) : opens (pushRx n us s) = opens s := rfl
@[simp] theorem opens_parseRx (conn cid : BitVec 16) : opens (parseRx conn cid s) = opens s := rfl
@[simp] theorem opens_rxFree (p c n : Nat) : opens (rxFree p c n s) = opens s := rfl
@[simp] theorem opens_putCmds (l : List Cmd) : opens (putCmds l s) = opens s := rfl
@[simp] theorem opens_updCmd (c : Cmd) (f : Cmd → Cmd) : opens (updCmd c f s) = opens s := rfl
@[simp] theorem opens_freeCmd (c : Cmd) : opens (freeCmd c s) = opens s := rfl
@[simp] theorem opens_freeLocks (l : List Nat) : opens (freeLocks l s) = opens s := rfl
@[simp] theorem opens_logError (v : Nat) (e : ErrEnt) : opens (logError v e s) = opens s := rfl
end opens_mods

/-- A change of a connection that leaves it as open as it was. -/
theorem opens_modConn {f : Conn → Conn} (k : Nat) (s : State) (h : ∀ c, (f c).isOpen = c.isOpen) : opens (modConn k f s) = opens s := by
  funext n
  unfold opens
  by_cases hn : n = k
  · rw [hn, connOf_modConn_same, h]
  · rw [connOf_modConn_other _ _ _ hn]

/-! ## Keys, records and completions -/

theorem opens_keyCount (k n : Nat) (s : State) : opens (keyCount k n s) = opens s := by
  unfold keyCount
  dsimp only
  split
  · rfl
  · split <;> rfl

theorem opens_cinRefused (k r : Nat) (s : State) : opens (cinRefused k r s) = opens s := by
  unfold cinRefused
  dsimp only
  rw [opens_raiseFault]
  split <;> rfl

theorem opens_useKey (k n : Nat) (s : State) : opens (useKey k n s).2 = opens s := by
  unfold useKey
  split
  · exact opens_cinRefused _ _ s
  · exact opens_keyCount _ _ s

theorem opens_tlsSendOf (typ : BitVec 8) (conn : BitVec 16) (text : List (BitVec 8)) (s : State) : opens (tlsSendOf typ conn text s).2 = opens s := by
  unfold tlsSendOf
  dsimp only
  have h := opens_useKey (connOf s conn.toNat).kTx.toNat (tlsBlocks text.length) s
  split
  · next he => rw [he] at h; exact h
  · next he =>
    rw [he] at h
    refine (opens_modConn _ _ fun c => ?_).trans h
    rfl

theorem opens_queueCompletion (conn cid : BitVec 16) (entry : BitVec 256) (inval : Option (BitVec 32)) (s : State) :
    opens (queueCompletion conn cid entry inval s) = opens s := by
  unfold queueCompletion tlsSend
  dsimp only
  have h := opens_tlsSendOf 0x17 conn (capsuleResp false entry) s
  split
  · split
    · next he => rw [he] at h; exact h
    · next he => rw [he] at h; exact h
  · rfl

theorem opens_countDone (c : Cmd) (st : BitVec 16) (s : State) : opens (countDone c st s) = opens s := by
  unfold countDone
  dsimp only
  split <;> simp

theorem opens_noteOrder (c : Cmd) (st : BitVec 16) (s : State) : opens (noteOrder c st s) = opens s := by
  unfold noteOrder
  split <;> rfl

theorem opens_acceptEntry (c : Cmd) (entry : BitVec 256) (st : BitVec 16) (self : Bool) (inval : Option (BitVec 32)) (s : State) :
    opens (acceptEntry c entry st self inval s) = opens s := by
  unfold acceptEntry
  dsimp only
  split
  · rfl
  · split
    · rw [opens_countDone, opens_noteOrder, opens_freeCmd]
    · rw [opens_queueCompletion, opens_countDone, opens_noteOrder, opens_freeCmd]

theorem opens_completeCmd (c : Cmd) (st : BitVec 16) (dw0 dw1 : BitVec 32) (s : State) : opens (completeCmd c st dw0 dw1 s) = opens s := by
  unfold completeCmd
  extract_lets t u
  have hu : opens u = opens s := by
    simp only [u, t]
    split <;> rfl
  split
  · exact hu
  · split
    · exact hu
    · rw [opens_acceptEntry, hu]

/-! ## The end of a write's data -/

theorem opens_dirtyDone (c : Cmd) (s : State) : opens (dirtyDone c s) = opens s := by
  unfold dirtyDone
  split
  · rfl
  · exact opens_of_offMem (offMem_dirtyWrite _ _ _ _ s)

theorem opens_releaseWaiters (s : State) : opens (releaseWaiters s) = opens s := by
  unfold releaseWaiters
  exact look_foldl opens (fun s c => (opens_completeCmd _ _ _ _ _).trans (opens_dirtyDone c s)) _ s

theorem opens_programWrite (x : Ns) (c : Cmd) (s : State) : opens (programWrite x c s) = opens s := opens_of_offMedia (offMedia_programWrite x c s)

theorem opens_stageAll (c : Cmd) (s : State) : opens (stageAll c s) = opens s := by
  unfold stageAll
  split
  · rfl
  · next x _ =>
    extract_lets bytes t u c' v
    have ht : opens t = opens s := opens_of_offMedia ((offMedia_countStaged _ _).trans (offMedia_storeBlocks x c s))
    have hu : opens u = opens s := by
      simp only [u, opens_ite, opens_modMedia, opens_of_offMedia (offMedia_replaceStaged c _ t), ht, ite_self]
    have hv : opens v = opens s := (opens_programWrite x c' _).trans hu
    split
    · rw [opens_releaseWaiters, hv]
    · rw [opens_completeCmd, opens_dirtyDone]
      exact hv

theorem opens_stagePart (x : Ns) (c : Cmd) (s : State) : opens (stagePart x c s) = opens s := by
  unfold stagePart
  dsimp only
  rw [opens_updCmd]
  split
  · exact opens_of_offMedia ((offMedia_countStaged _ _).trans (offMedia_storeBlocks x c s))
  · rfl

theorem opens_poisonGaps (x : Ns) (c : Cmd) (z : Nat) (s : State) : opens (poisonGaps x c z s) = opens s := by
  unfold poisonGaps
  dsimp only
  split
  · rfl
  · exact look_foldl opens (fun s g => opens_logError s _ _) _ _

theorem opens_partialWriteEnd (c : Cmd) (s : State) : opens (partialWriteEnd c s) = opens s := by
  unfold partialWriteEnd
  split
  · exact opens_of_offMedia (offMedia_unreserve _ _ s)
  · next x _ =>
    split
    · rw [opens_programWrite, opens_stagePart, opens_of_offMedia (offMedia_keepStaged x c s)]
    · split
      · exact opens_of_offMedia (offMedia_unreserve _ _ s)
      · split
        · exact opens_of_offMedia (offMedia_returnPointer _ _ _ s)
        · rw [opens_programWrite, opens_stagePart, opens_poisonGaps]

theorem opens_writeStaged (c : Cmd) (s : State) : opens (writeStaged c s) = opens s := by
  unfold writeStaged
  split
  · rfl
  · split
    · rw [opens_completeCmd, opens_partialWriteEnd, opens_updCmd]
    · exact opens_stageAll c s

theorem opens_stageData (c : Cmd) (off : Nat) (data : List (BitVec 8)) (s : State) : opens (stageData c off data s) = opens s := by
  unfold stageData
  dsimp only
  split
  · rw [opens_writeStaged, opens_updCmd]
  · rfl

theorem opens_stageItem (s : State) (e : BitVec 256 × List (BitVec 256)) : opens (stageItem s e) = opens s := by
  unfold stageItem
  split
  · split
    · exact opens_stageData _ _ _ s
    · rfl
  · rfl

theorem opens_takeData (f : BitVec 16 → Bool) (n : Nat) (s : State) : opens (takeData f n s) = opens s := by
  unfold takeData
  dsimp only
  split
  · rfl
  · exact look_foldl opens (fun s e => opens_stageItem s e) _ _

/-! ## The closing of a connection -/

theorem opens_closeCmd (c : Cmd) (s : State) : opens (closeCmd c s) = opens s := by
  unfold closeCmd
  dsimp only
  split
  · rfl
  · split
    · rw [opens_putCmds, opens_freeLocks, opens_partialWriteEnd]
    · rfl

end Sys2Proof.Machine

namespace Sys2Proof.Machine

/-! ## What the transport's work on one connection leaves alone -/

/-- A state with the transport's own parts cleared: the ports, the transport's registers, and the time with the free values that its reading draws. -/
def offNet (s : State) : State := { s with ports := [], xpt := {}, now := 0, draws := 0 }

theorem offNet_fields {s t : State} (h : offNet t = offNet s) :
    t.spindles = s.spindles ∧ t.tables = s.tables ∧ t.evr = s.evr ∧ t.fcr = s.fcr ∧ t.store = s.store ∧ t.mem = s.mem ∧ t.media = s.media ∧
      t.reel = s.reel ∧ t.vct = s.vct ∧ t.ctrls = s.ctrls ∧ t.ciph = s.ciph ∧ t.piers = s.piers ∧ t.span = s.span := by
  have f := fun {β : Type} (g : State → β) => congrArg g h
  exact ⟨f (·.spindles), f (·.tables), f (·.evr), f (·.fcr), f (·.store), f (·.mem), f (·.media), f (·.reel), f (·.vct), f (·.ctrls), f (·.ciph),
    f (·.piers), f (·.span)⟩

/-- The connections but one. -/
def others (k : Nat) (s : State) : Nat → Option Conn := fun j => if j = k then none else some (connOf s j)

theorem others_apply {k : Nat} {s t : State} (h : others k t = others k s) {j : Nat} (hj : j ≠ k) : connOf t j = connOf s j := by
  have hj' := congrFun h j
  unfold others at hj'
  rw [if_neg hj, if_neg hj] at hj'
  exact Option.some.inj hj'

theorem others_of_conns {k : Nat} {s t : State} (h : t.xpt.conns = s.xpt.conns) : others k t = others k s := by
  unfold others connOf
  rw [h]

theorem others_modConn (k : Nat) (f : Conn → Conn) (s : State) : others k (modConn k f s) = others k s := by
  funext j
  unfold others
  split
  · rfl
  · next hj => rw [connOf_modConn_other _ _ _ hj]

/-- All but the transport's own parts, the frames to send, and the connections but one. -/
def beside (k : Nat) (s : State) : State × List TxFrame × (Nat → Option Conn) := (offNet s, s.xpt.tx, others k s)

theorem beside_fields {k : Nat} {s t : State} (h : beside k t = beside k s) :
    offNet t = offNet s ∧ t.xpt.tx = s.xpt.tx ∧ ∀ j, j ≠ k → connOf t j = connOf s j := by
  unfold beside at h
  injection h with hnet h
  injection h with htx hothers
  exact ⟨hnet, htx, fun j hj => others_apply hothers hj⟩

theorem beside_modConn (k : Nat) (f : Conn → Conn) (s : State) : beside k (modConn k f s) = beside k s := by
  unfold beside
  rw [others_modConn]
  rfl

theorem beside_modPort (k p : Nat) (f : Port → Port) (s : State) : beside k (modPort p f s) = beside k s := rfl

theorem beside_rxFree (k p c n : Nat) (s : State) : beside k (rxFree p c n s) = beside k s := rfl

theorem beside_passTime (k : Nat) (s : State) : beside k (passTime s) = beside k s := rfl

theorem beside_drawBits (k : Nat) (s : State) : beside k (drawBits s).2 = beside k s := rfl

/-- A change of the transport's registers that keeps its connections and the frames to send. -/
theorem beside_modXpt {f : Xpt → Xpt} (k : Nat) (s : State) (hconns : ∀ u, (f u).conns = u.conns := by intro; rfl)
    (htx : ∀ u, (f u).tx = u.tx := by intro; rfl) : beside k (modXpt f s) = beside k s := by
  have hothers : others k (modXpt f s) = others k s := others_of_conns (hconns s.xpt)
  unfold beside
  rw [hothers]
  exact Prod.ext rfl (Prod.ext (htx s.xpt) rfl)

theorem beside_rxTake (k : Nat) (s : State) : beside k (rxTake k s) = beside k s := by
  unfold rxTake
  split
  · rfl
  · exact (beside_rxFree _ _ _ _ _).trans (beside_modConn _ _ s)

/-! ## The entry that closes -/

theorem beside_dropHeld (k : Nat) (conn : BitVec 16) (s : State) : beside k (dropHeld conn s) = beside k s := by
  unfold dropHeld
  exact (look_foldl (beside k) (fun s h => beside_rxFree _ _ _ _ s) _ _).trans (beside_modXpt k s)

theorem beside_rxTakeAll (k : Nat) (s : State) : beside k (rxTakeAll k s) = beside k s := by
  unfold rxTakeAll
  exact (look_foldl (beside k) (fun s e => beside_rxFree _ _ _ _ s) _ _).trans (beside_modConn k _ s)

theorem beside_osDone (k : Nat) (s : State) : beside k (osDone k s) = beside k s := by
  unfold osDone
  exact (beside_modConn k _ _).trans (beside_modXpt k s)

theorem beside_dropRecords (k : Nat) (s : State) : beside k (dropRecords k s) = beside k s := by
  unfold dropRecords
  exact (look_foldl (beside k) (fun s e => beside_rxFree _ _ _ _ s) _ _).trans (beside_modConn k _ s)

/-- What the transport holds of a connection that closes has gone: capsules, frames and records. -/
def unheld (k : Nat) (s : State) : State := dropRecords k (osDone k (rxTakeAll k (dropHeld (BitVec.ofNat 16 k) s)))

theorem beside_unheld (k : Nat) (s : State) : beside k (unheld k s) = beside k s := by
  rw [unheld, beside_dropRecords, beside_osDone, beside_rxTakeAll, beside_dropHeld]

/-- The frames of a connection that wait to be sent are dropped. -/
def unsent (conn : BitVec 16) (s : State) : State := modXpt (fun u => { u with tx := u.tx.filter (fun f => decide (f.conn ≠ some conn)) }) s

/-- The commands of a connection end, and with them its locks, its order and its entry. -/
def ended (k : Nat) (s : State) : State :=
  let conn : BitVec 16 := BitVec.ofNat 16 k
  let mine := s.tables.cmds.filter (fun x => !x.internal && !x.closed && x.conn = conn)
  let t := mine.foldl (fun s x => closeCmd x (parseRx conn x.cid s)) (unsent conn (unheld k s))
  let done := t.tables.locks.filterMap (fun e => match e.2 with
    | some l => if !l.internal && l.conn = conn && (findCmd t conn l.cid).isNone then some e.1 else none
    | none => none)
  modConn k (fun _ => {}) (forgetQueue conn (freeLocks done t))

/-- A connection leaves the controller it was bound to. -/
def leavesCtrl (c : Conn) (conn : BitVec 16) (s : State) : State :=
  match c.vc with
  | none => s
  | some v => modCtrl v.toNat (fun x => { x with
      admin := if x.admin = some conn then none else x.admin, ios := x.ios.filter (fun q => decide (q.1 ≠ conn)) }) s

/-- The spindle is told of a closing, and the event recorded. -/
def closeTold (k : Nat) (byError : Bool) (reason : Nat) (s : State) : State :=
  let s := pushRx (spindleOf s k) [rxHeader 4 k 0 0 0 0] s
  if byError then event 0x0811 [0xFFFFFFFF, w32 k, w32 reason] s else event 0x0814 [0xFFFFFFFF, w32 k, w32 reason] s

/-- The closing of an open connection, in its parts. -/
theorem closeOne_eq {k : Nat} {s : State} (byError : Bool) (reason : Nat) (h : (connOf s k).isOpen = true) :
    closeOne k byError reason s = closeTold k byError reason (leavesCtrl (connOf s k) (BitVec.ofNat 16 k)
      (ended k (takeData (· = BitVec.ofNat 16 k) (spindleOf s k) s))) := by
  unfold closeOne
  rw [if_neg (by rw [h]; decide)]
  rfl

theorem closeOne_closed {k : Nat} {s : State} (byError : Bool) (reason : Nat) (h :
    (connOf s k).isOpen = false) : closeOne k byError reason s = s := by
  unfold closeOne
  rw [if_pos (by rw [h]; rfl)]

theorem connOf_ended (k : Nat) (s : State) : connOf (ended k s) k = {} := connOf_modConn_same _ _ _

theorem opens_unsent (conn : BitVec 16) (s : State) : opens (unsent conn s) = opens s := rfl

theorem opens_modConn_other {k n : Nat} (h : n ≠ k) (f : Conn → Conn) (s : State) : opens (modConn k f s) n = opens s n :=
  congrArg Conn.isOpen (connOf_modConn_other k f s h)

/-- A connection that closes leaves the others as open as they were. -/
theorem opens_ended {k n : Nat} (h : n ≠ k) (s : State) : opens (ended k s) n = opens s n := by
  unfold ended
  extract_lets conn mine t done
  have hunsent : opens (unsent conn (unheld k s)) = opens (unheld k s) := opens_unsent conn _
  have ht : opens t = opens (unheld k s) :=
    (look_foldl opens (fun s x => (opens_closeCmd x _).trans (opens_parseRx s conn x.cid)) mine _).trans hunsent
  have hunheld : connOf (unheld k s) n = connOf s n := (beside_fields (beside_unheld k s)).2.2 n h
  clear_value t
  have hlast : opens (forgetQueue conn (freeLocks done t)) = opens t := by rw [forgetQueue, opens_modTables, opens_freeLocks]
  calc opens (modConn k (fun _ => {}) (forgetQueue conn (freeLocks done t))) n
      = opens (forgetQueue conn (freeLocks done t)) n := opens_modConn_other h _ _
    _ = opens (unheld k s) n := by rw [hlast, ht]
    _ = opens s n := congrArg Conn.isOpen hunheld

theorem leavesCtrl_conns (c : Conn) (conn : BitVec 16) (s : State) : (leavesCtrl c conn s).xpt = s.xpt := by
  unfold leavesCtrl
  split <;> rfl

theorem closeTold_conns (k : Nat) (byError : Bool) (reason : Nat) (s : State) : (closeTold k byError reason s).xpt = s.xpt := by
  unfold closeTold
  dsimp only
  split <;> rfl

theorem connOf_of_xpt {s t : State} (h : t.xpt = s.xpt) (n : Nat) : connOf t n = connOf s n := by
  unfold connOf
  rw [h]

/-- The connections after one of them has closed. -/
theorem closeOne_xpt {k : Nat} {s : State} (byError : Bool) (reason : Nat) (h : (connOf s k).isOpen = true) :
    (closeOne k byError reason s).xpt = (ended k (takeData (· = BitVec.ofNat 16 k) (spindleOf s k) s)).xpt := by
  rw [closeOne_eq byError reason h, closeTold_conns, leavesCtrl_conns]

/-- Closing a connection opens none. -/
theorem closeOne_opens_none (k : Nat) (byError : Bool) (reason : Nat) {n : Nat} {s : State} (h : opens s n = false ∨ n = k) :
    opens (closeOne k byError reason s) n = false := by
  cases hopen : (connOf s k).isOpen with
  | false =>
    rw [closeOne_closed byError reason hopen]
    rcases h with h | rfl
    · exact h
    · exact hopen
  | true =>
    have hconn := connOf_of_xpt (closeOne_xpt byError reason hopen) n
    unfold opens at h ⊢
    rw [hconn]
    by_cases hn : n = k
    · rw [hn, connOf_ended]
    · have hs : (connOf s n).isOpen = false := h.resolve_right hn
      have hended := opens_ended hn (takeData (· = BitVec.ofNat 16 k) (spindleOf s k) s)
      rw [opens_takeData] at hended
      exact hended.trans hs

theorem ctrlReset_opens_none (v : Nat) {n : Nat} {s : State} (h : opens s n = false) : opens (ctrlReset v s) n = false := by
  unfold ctrlReset
  dsimp only
  rw [opens_modCtrl]
  exact foldl_keeps (I := fun t => opens t n = false) (fun t q ht => closeOne_opens_none _ _ _ (.inl ht)) _ h

/-- A connection that is closed is no longer open, whatever else closes with it. -/
theorem closeConnection_closes (k : Nat) (byError : Bool) (reason : Nat) (s : State) : (connOf
    (closeConnection k byError reason s) k).isOpen = false := by
  have h : opens (closeOne k byError reason s) k = false := closeOne_opens_none k byError reason (.inr rfl)
  unfold closeConnection
  dsimp only
  split
  · exact ctrlReset_opens_none _ h
  · exact h

/-! ## The closing of a connection with no command outstanding -/

theorem liveCmd_none {s : State} (h : s.tables.cmds = []) (conn cid : BitVec 16) : liveCmd s conn cid = none := by
  unfold liveCmd
  rw [h]
  rfl

/-- With no item that a test picks, a queue is as it was. -/
theorem takeItems_fst_of_none {f : BitVec 256 → Bool} : ∀ (k : Nat) (l : List (BitVec 256)), (takeItems f k l).2 = [] → (takeItems f k l).1 = l
  | 0, _, _ => rfl
  | _ + 1, [], _ => rfl
  | k + 1, h :: t, hnone => by
    unfold takeItems at hnone ⊢
    dsimp only at hnone ⊢
    by_cases hf : f h = true
    · rw [if_pos hf] at hnone
      exact absurd hnone (by simp)
    · rw [if_neg hf] at hnone ⊢
      rw [takeItems_fst_of_none k _ hnone]
      simp

theorem stageItem_noCmds {s : State} (h : s.tables.cmds = []) (e : BitVec 256 × List (BitVec 256)) : stageItem s e = s := by
  unfold stageItem
  rw [liveCmd_none h]

theorem stageItems_noCmds : ∀ (l : List (BitVec 256 × List (BitVec 256))) {s : State}, s.tables.cmds = [] → l.foldl stageItem s = s
  | [], _, _ => rfl
  | e :: l, _, h => by rw [List.foldl_cons, stageItem_noCmds h, stageItems_noCmds l h]

/-- With no command outstanding the items of write data leave the queue, and nothing else changes. -/
theorem takeData_noCmds {s : State} (h : s.tables.cmds = []) (f : BitVec 16 → Bool) (n : Nat) :
    (spn (takeData f n s) n).rxq = (takeItems (fun h => h.setWidth 8 = 2#8 && f (rxConn h)) (spn s n).rxq.length (spn s n).rxq).1 ∧
      (takeData f n s).xpt = s.xpt ∧ (takeData f n s).tables = s.tables ∧ (takeData f n s).evr = s.evr ∧ (takeData f n s).store = s.store := by
  unfold takeData
  extract_lets q
  split
  · next hnone => exact ⟨(takeItems_fst_of_none _ _ hnone).symm, rfl, rfl, rfl, rfl⟩
  · rw [stageItems_noCmds _ (s := modSpn n (fun x => { x with rxq := q.1 }) s) h]
    exact ⟨by rw [spn_modSpn_same], rfl, rfl, rfl, rfl⟩

theorem closeTold_byError (k reason : Nat) (s : State) :
    closeTold k true reason s = event 0x0811 [0xFFFFFFFF, w32 k, w32 reason] (pushRx (spindleOf s k) [rxHeader 4 k 0 0 0 0] s) := rfl

/-- An event of these words is taken, where the recorder takes events. -/
theorem told_event (code : BitVec 16) (a b c : BitVec 32) {s t : State} (h : t.evr = s.evr) : told code (a, b, c) s (event code [a, b, c] t) := by
  intro hstop hroom
  have hevr : (event code [a, b, c] t).evr = evrTake (mkEvent (passTime t) code 0 false [a, b, c]) s.evr := by rw [← h]; rfl
  refine ⟨mkEvent (passTime t) code 0 false [a, b, c], ?_, rfl, rfl⟩
  have hfull : ¬ 64 ≤ s.evr.queue.length := by omega
  rw [hevr, evrTake, if_neg (by rw [hstop]; decide), if_neg hfull]
  simp

/-- A connection's entry and its frames go, and the tables change as they may. -/
def emptied (k : Nat) (f g : Tables → Tables) (s : State) : State :=
  modConn k (fun _ => {}) (modTables f (modTables g (unsent (BitVec.ofNat 16 k) s)))

theorem connOf_emptied_other {k j : Nat} (h : j ≠ k) (f g : Tables → Tables) (s : State) : connOf (emptied k f g s) j = connOf s j :=
  connOf_modConn_other _ _ _ h

theorem emptied_fields (k : Nat) (f g : Tables → Tables) (s : State) :
    (emptied k f g s).spindles = s.spindles ∧ (emptied k f g s).evr = s.evr ∧ (emptied k f g s).store = s.store ∧
      (emptied k f g s).xpt.tx = s.xpt.tx.filter (fun f => decide (f.conn ≠ some (BitVec.ofNat 16 k))) := by
  simp only [emptied, unsent, modConn, modXpt_spindles, modTables_spindles, modXpt_evr, modTables_evr, modXpt_store, modTables_store, modXpt_xpt,
    modTables_xpt, and_self]

theorem ended_eq_emptied {k : Nat} {s : State} (h : s.tables.cmds = []) : ∃ f g, ended k s = emptied k f g (unheld k s) := by
  unfold ended
  rw [h]
  exact ⟨_, _, rfl⟩

/-- With no command outstanding the end of an entry drops its frames, and changes no other connection. -/
theorem ended_noCmds {k : Nat} {s : State} (h : s.tables.cmds = []) :
    (ended k s).spindles = s.spindles ∧ (ended k s).evr = s.evr ∧ (ended k s).store = s.store ∧
      (ended k s).xpt.tx = s.xpt.tx.filter (fun f => decide (f.conn ≠ some (BitVec.ofNat 16 k))) ∧
      ∀ j, j ≠ k → connOf (ended k s) j = connOf s j := by
  obtain ⟨hnet, htx, hconns⟩ := beside_fields (beside_unheld k s)
  obtain ⟨hspindles, -, hev, -, hst, -⟩ := offNet_fields hnet
  obtain ⟨f, g, hended⟩ := ended_eq_emptied (k := k) h
  generalize unheld k s = t at *
  obtain ⟨hs, he, hst', ht⟩ := emptied_fields k f g t
  rw [hended, hs, he, hst', ht, htx]
  exact ⟨hspindles, hev, hst, rfl, fun j hj => (connOf_emptied_other hj f g t).trans (hconns j hj)⟩

/-- The closing of an open connection that is bound to no controller, with no command outstanding. -/
theorem closeConnection_plain {k : Nat} {s : State} (reason : Nat) (hopen : (connOf s k).isOpen = true) (hcmds : s.tables.cmds = [])
    (hvc : (connOf s k).vc = none) :
    let t := closeConnection k true reason s
    connOf t k = {} ∧ told 0x0811 (0xFFFFFFFF, w32 k, w32 reason) s t ∧
      t.xpt.tx = s.xpt.tx.filter (fun f => decide (f.conn ≠ some (BitVec.ofNat 16 k))) ∧
      (spn t (spindleOf s k)).rxq = (takeItems (fun h => h.setWidth 8 = 2#8 && rxConn h = BitVec.ofNat 16 k) (spn s (spindleOf s k)).rxq.length
        (spn s (spindleOf s k)).rxq).1 ++ [rxHeader 4 k 0 0 0 0] ∧
      ∀ j, j ≠ k → connOf t j = connOf s j := by
  intro t
  obtain ⟨hrxq, hxpt, htables, hevr, hstore⟩ := takeData_noCmds hcmds (· = BitVec.ofNat 16 k) (spindleOf s k)
  have ht : t = closeTold k true reason (ended k (takeData (· = BitVec.ofNat 16 k) (spindleOf s k) s)) := by
    simp only [t, closeConnection, hvc, closeOne_eq true reason hopen, leavesCtrl]
  generalize takeData (· = BitVec.ofNat 16 k) (spindleOf s k) s = u at hrxq hxpt htables hevr hstore ht
  obtain ⟨hspindles, hev, hst, htx, hothers⟩ := ended_noCmds (k := k) (htables ▸ hcmds : u.tables.cmds = [])
  have hself := connOf_ended k u
  generalize ended k u = v at hspindles hev hst htx hothers hself ht
  have hspindle : spindleOf v k = spindleOf s k := by
    unfold spindleOf
    rw [hst, hstore]
  rw [closeTold_byError, hspindle] at ht
  have hconn : ∀ j, connOf t j = connOf v j := fun j => by rw [ht]; rfl
  refine ⟨(hconn k).trans hself, ?_, ?_, ?_, fun j hj => (hconn j).trans ((hothers j hj).trans (connOf_of_xpt hxpt j))⟩
  · rw [ht]
    exact told_event _ _ _ _ (hev.trans hevr)
  · rw [ht, ← hxpt]
    exact htx
  · rw [ht, ← hrxq, ← spn_of_spindles hspindles]
    have hspn : ∀ e, spn (event 0x0811 e (pushRx (spindleOf s k) [rxHeader 4 k 0 0 0 0] v)) (spindleOf s k) =
        spn (pushRx (spindleOf s k) [rxHeader 4 k 0 0 0 0] v) (spindleOf s k) := fun e => rfl
    rw [hspn, pushRx, spn_modSpn_same]

/-- What the transport does before it closes an open connection does not matter to the closing, where it leaves all else alone that the closing
reads. -/
theorem closes_of_alike {i : Instr} {conn : BitVec 16} {reason : Nat} {s u : State}
    (hexec : exec i s = .next (closeConnection conn.toNat true reason u)) (hopen : (connOf u conn.toNat).isOpen = true)
    (hvc : (connOf u conn.toNat).vc = (connOf s conn.toNat).vc) (hspindles : u.spindles = s.spindles) (hcmds : u.tables.cmds = s.tables.cmds)
    (hevr : u.evr = s.evr) (hstore : u.store = s.store)
    (hothers : ∀ j, j ≠ conn.toNat → connOf u j = connOf s j) : closes i conn 0x0811 (w32 reason) s := by
  have hconn : BitVec.ofNat 16 conn.toNat = conn := by simp
  have hw : w32 conn.toNat = conn.setWidth 32 := by unfold w32; bv_omega
  have hspindle : spindleOf u conn.toNat = spindleOf s conn.toNat := by
    unfold spindleOf
    rw [hstore]
  refine ⟨_, hexec, closeConnection_closes _ _ _ u, fun hnil hnone => ?_⟩
  obtain ⟨hself, htold, htx, hrxq, hrest⟩ := closeConnection_plain reason hopen (hcmds.trans hnil) (hvc.trans hnone)
  rw [hspindle, spn_of_spindles hspindles, hconn] at hrxq
  refine ⟨hself, ?_, fun f hf => ?_, hrxq, fun j hj => (hrest j hj).trans (hothers j hj)⟩
  · unfold told at htold ⊢
    rw [hevr, hw] at htold
    exact htold
  · rw [htx, hconn] at hf
    simpa using List.of_mem_filter hf

/-- The closing after work on the transport's own parts. -/
theorem closes_of_closeConnection {i : Instr} {conn : BitVec 16} {reason : Nat} {s u : State}
    (hexec : exec i s = .next (closeConnection conn.toNat true reason u)) (hopen : (connOf u conn.toNat).isOpen = true)
    (hvc : (connOf u conn.toNat).vc = (connOf s conn.toNat).vc) (hnet : offNet u = offNet s)
    (hothers : ∀ j, j ≠ conn.toNat → connOf u j = connOf s j) : closes i conn 0x0811 (w32 reason) s := by
  obtain ⟨hspindles, htables, hevr, -, hstore, -⟩ := offNet_fields hnet
  exact closes_of_alike hexec hopen hvc hspindles (congrArg Tables.cmds htables) hevr hstore hothers

end Sys2Proof.Machine

/-! # SUPPORT. What the transport does with a packet of a queue pair (R231, R236, R239, R240, R253 to R258) -/

namespace Sys2Proof.Machine

/-! ## The oldest frame, a CNP, an acknowledgment -/

/-- The entry of a connection whose oldest frame the transport has handled. -/
def took (c : Conn) : Conn := if c.frames = [] then c else { c with frames := c.frames.tail, late := c.late - 1, lateNow := decide (0 < c.late) }

theorem connOf_rxTake (k : Nat) (s : State) : connOf (rxTake k s) k = took (connOf s k) := by
  unfold rxTake took
  split
  · next h => rw [if_pos h]
  · next h =>
    rw [h, if_neg (List.cons_ne_nil _ _)]
    exact connOf_modConn_same _ _ s

theorem took_fields (c : Conn) : (took c).isOpen = c.isOpen ∧ (took c).tcp = c.tcp ∧ (took c).sub = c.sub ∧ (took c).vc = c.vc ∧
    (took c).ackDue = c.ackDue ∧ (took c).ecnNs = c.ecnNs ∧ (took c).unack = c.unack ∧ (took c).sqSize = c.sqSize ∧ (took c).unb = c.unb ∧
    (took c).qid = c.qid ∧ (took c).tls = c.tls := by
  unfold took
  split <;> exact ⟨rfl, rfl, rfl, rfl, rfl, rfl, rfl, rfl, rfl, rfl, rfl⟩

/-- A device-built frame of a connection. -/
def builtFrame (s : State) (conn : BitVec 16) (kind : BitVec 4) : TxFrame := { path := connPath s conn, kind := kind, conn := some conn }

theorem devFrame_tx (conn : BitVec 16) (kind : BitVec 4) (s : State) : (devFrame conn kind s).xpt.tx = s.xpt.tx ++ [builtFrame s conn kind] := rfl

theorem offNet_devFrame (conn : BitVec 16) (kind : BitVec 4) (s : State) : offNet (devFrame conn kind s) = offNet s := rfl

theorem connOf_devFrame (conn : BitVec 16) (kind : BitVec 4) (s : State) (j : Nat) : connOf (devFrame conn kind s) j = connOf s j := rfl

/-- A connection's entry but when its last CNP left. -/
def unmarked (c : Conn) : Conn := { c with ecnNs := none }

/-- A mark of congestion may send a CNP, and changes nothing else but when the last one left. -/
theorem noteEcn_frame (conn : BitVec 16) (ecn : Bool) (s : State) :
    offNet (noteEcn conn ecn s) = offNet s ∧ unmarked (connOf (noteEcn conn ecn s) conn.toNat) = unmarked (connOf s conn.toNat) ∧
      (∀ j, j ≠ conn.toNat → connOf (noteEcn conn ecn s) j = connOf s j) ∧
      ((noteEcn conn ecn s).xpt.tx = s.xpt.tx ∨ (noteEcn conn ecn s).xpt.tx = s.xpt.tx ++ [builtFrame s conn 6]) := by
  unfold noteEcn
  split
  · exact ⟨rfl, rfl, fun _ _ => rfl, .inl rfl⟩
  · extract_lets t due
    split
    · refine ⟨rfl, ?_, fun j hj => ?_, .inr ?_⟩
      · rw [connOf_devFrame, connOf_modConn_same]
        rfl
      · rw [connOf_devFrame, connOf_modConn_other _ _ _ hj]
        rfl
      · rw [devFrame_tx]
        unfold builtFrame connPath
        rw [connOf_modConn_same]
        rfl
    · exact ⟨rfl, rfl, fun _ _ => rfl, .inl rfl⟩

/-- A marked packet of a queue pair that has sent no CNP is answered with one. -/
theorem noteEcn_marked {conn : BitVec 16} {s : State} (h : (connOf s conn.toNat).ecnNs = none) :
    (noteEcn conn true s).xpt.tx = s.xpt.tx ++ [builtFrame s conn 6] := by
  have hdue : (connOf (passTime s) conn.toNat).ecnNs = none := h
  unfold noteEcn
  simp only [Bool.not_true, Bool.false_eq_true, if_false, hdue, if_true, devFrame_tx]
  unfold builtFrame connPath
  rw [connOf_modConn_same]
  rfl

theorem noteEcn_unmarked (conn : BitVec 16) (s : State) : noteEcn conn false s = s := rfl

/-- The count of packets that an acknowledgment is due for: it starts again at 16. -/
def ackNext (c : Conn) : Conn := { c with ackDue := if c.ackDue + 1 = 16 then 0 else c.ackDue + 1 }

theorem offNet_modConn (k : Nat) (f : Conn → Conn) (s : State) : offNet (modConn k f s) = offNet s := rfl

theorem noteAck_frame (conn : BitVec 16) (s : State) :
    offNet (noteAck conn s) = offNet s ∧ connOf (noteAck conn s) conn.toNat = ackNext (connOf s conn.toNat) ∧
      (∀ j, j ≠ conn.toNat → connOf (noteAck conn s) j = connOf s j) ∧
      (noteAck conn s).xpt.tx = s.xpt.tx ++ if (connOf s conn.toNat).ackDue + 1 = 16 then [builtFrame s conn 4] else [] := by
  unfold noteAck
  extract_lets n
  by_cases h : n = 16
  · rw [if_pos h]
    have h' : (connOf s conn.toNat).ackDue + 1 = 16 := h
    refine ⟨(offNet_devFrame _ _ _).trans (offNet_modConn _ _ s), ?_, fun j hj => ?_, ?_⟩
    · rw [connOf_devFrame, connOf_modConn_same, ackNext, if_pos h']
    · rw [connOf_devFrame, connOf_modConn_other _ _ _ hj]
    · rw [devFrame_tx, if_pos h']
      unfold builtFrame connPath
      rw [connOf_modConn_same]
      rfl
  · rw [if_neg h]
    have h' : ¬ (connOf s conn.toNat).ackDue + 1 = 16 := h
    refine ⟨offNet_modConn _ _ s, ?_, fun j hj => ?_, ?_⟩
    · rw [connOf_modConn_same, ackNext, if_neg h']
    · exact connOf_modConn_other _ _ _ hj
    · rw [if_neg h', List.append_nil]
      rfl

end Sys2Proof.Machine

namespace Sys2Proof.Machine

/-! ## A packet that is handled: its frame, its mark and its acknowledgment -/

/-- What the transport passes on: the capsules it holds, and whether it takes more. -/
def takings (s : State) : Bool × List HeldCap := (s.xpt.takes, s.xpt.waitCaps)

theorem takings_rxTake (k : Nat) (s : State) : takings (rxTake k s) = takings s := by
  unfold rxTake
  split <;> rfl

theorem takings_noteEcn (conn : BitVec 16) (ecn : Bool) (s : State) : takings (noteEcn conn ecn s) = takings s := by
  unfold noteEcn
  extract_lets t due
  split
  · rfl
  · split <;> rfl

theorem takings_noteAck (conn : BitVec 16) (s : State) : takings (noteAck conn s) = takings s := by
  unfold noteAck
  extract_lets n
  split <;> rfl

theorem builtFrame_congr {conn : BitVec 16} {s t : State} (h : (connOf t conn.toNat).sub = (connOf s conn.toNat).sub) (kind : BitVec 4) :
    builtFrame t conn kind = builtFrame s conn kind := by
  unfold builtFrame connPath
  rw [h]

/-- The state once a packet's frame, mark and acknowledgment are dealt with. -/
def handled (conn : BitVec 16) (ecn : Bool) (s : State) : State := noteAck conn (noteEcn conn ecn (rxTake conn.toNat s))

variable (conn : BitVec 16) (ecn : Bool) (s : State)

theorem offNet_rxTake (k : Nat) : offNet (rxTake k s) = offNet s := (beside_fields (beside_rxTake k s)).1

theorem handled_frame :
    offNet (handled conn ecn s) = offNet s ∧ takings (handled conn ecn s) = takings s ∧
      unmarked (connOf (handled conn ecn s) conn.toNat) = unmarked (ackNext (took (connOf s conn.toNat))) ∧
      ∀ j, j ≠ conn.toNat → connOf (handled conn ecn s) j = connOf s j := by
  obtain ⟨hnet, -, hothers⟩ := beside_fields (beside_rxTake conn.toNat s)
  obtain ⟨hnet', hself', hothers', -⟩ := noteEcn_frame conn ecn (rxTake conn.toNat s)
  obtain ⟨hnet'', hself'', hothers'', -⟩ := noteAck_frame conn (noteEcn conn ecn (rxTake conn.toNat s))
  have hack : ∀ c d : Conn, unmarked c = unmarked d → unmarked (ackNext c) = unmarked (ackNext d) := fun c d h => by
    have hdue : c.ackDue = d.ackDue := (congrArg Conn.ackDue h : (unmarked c).ackDue = (unmarked d).ackDue)
    have hc : unmarked (ackNext c) = { unmarked c with ackDue := (ackNext c).ackDue } := rfl
    have hd : unmarked (ackNext d) = { unmarked d with ackDue := (ackNext d).ackDue } := rfl
    rw [hc, hd, h, ackNext, ackNext, hdue]
  refine ⟨hnet''.trans (hnet'.trans hnet), ?_, ?_, fun j hj => (hothers'' j hj).trans ((hothers' j hj).trans (hothers j hj))⟩
  · exact (takings_noteAck _ _).trans ((takings_noteEcn _ _ _).trans (takings_rxTake _ s))
  · rw [handled, hself'', ← connOf_rxTake]
    exact hack _ _ hself'

/-- The fields of a handled packet's connection that its commands use. -/
theorem handled_conn :
    let c := connOf s conn.toNat
    let d := connOf (handled conn ecn s) conn.toNat
    d.ackDue = (if c.ackDue + 1 = 16 then 0 else c.ackDue + 1) ∧ d.isOpen = c.isOpen ∧ d.vc = c.vc ∧ d.sub = c.sub ∧ d.sqSize = c.sqSize ∧
      d.unb = c.unb ∧ d.qid = c.qid ∧ d.lateNow = (took c).lateNow := by
  intro c d
  obtain ⟨-, -, h, -⟩ := handled_frame conn ecn s
  change unmarked d = unmarked (ackNext (took c)) at h
  clear_value c d
  obtain ⟨hopen, -, hsub, hvc, hack, -, -, hsize, hunb, hqid, -⟩ := took_fields c
  have f := fun {β : Type} (g : Conn → β) => (congrArg g h : g (unmarked d) = g (unmarked (ackNext (took c))))
  refine ⟨?_, (f Conn.isOpen).trans hopen, (f Conn.vc).trans hvc, (f Conn.sub).trans hsub, (f Conn.sqSize).trans hsize, (f Conn.unb).trans hunb,
    (f Conn.qid).trans hqid, f Conn.lateNow⟩
  rw [← hack]
  exact f Conn.ackDue

/-- The frames that a handled packet adds: a CNP where it is marked, and the acknowledgment of the sixteenth. -/
theorem handled_tx :
    (ecn = false → (handled conn ecn s).xpt.tx = s.xpt.tx ++ if (connOf s conn.toNat).ackDue + 1 = 16 then [builtFrame s conn 4] else []) ∧
      (ecn = true → (connOf s conn.toNat).ecnNs = none → builtFrame s conn 6 ∈ (handled conn ecn s).xpt.tx) := by
  obtain ⟨-, htx, -⟩ := beside_fields (beside_rxTake conn.toNat s)
  obtain ⟨-, -, hsub, -, hack, hecn, -⟩ := took_fields (connOf s conn.toNat)
  have hconn := connOf_rxTake conn.toNat s
  obtain ⟨-, -, -, htx'⟩ := noteAck_frame conn (noteEcn conn ecn (rxTake conn.toNat s))
  have hframe : ∀ kind, builtFrame (rxTake conn.toNat s) conn kind = builtFrame s conn kind := builtFrame_congr (by rw [hconn, hsub])
  refine ⟨fun h => ?_, fun h hnone => ?_⟩
  · subst h
    rw [noteEcn_unmarked, hconn, hack, hframe, htx] at htx'
    exact htx'
  · subst h
    have hmark : (noteEcn conn true (rxTake conn.toNat s)).xpt.tx = s.xpt.tx ++ [builtFrame s conn 6] := by
      rw [noteEcn_marked (by rw [hconn, hecn, hnone]), htx, hframe]
    rw [handled, htx', hmark]
    simp

end Sys2Proof.Machine

namespace Sys2Proof.Machine

variable {conn : BitVec 16} {s : State}

theorem connReady_isOpen (h : connReady s conn.toNat = true) : (connOf s conn.toNat).isOpen = true := by
  unfold connReady at h
  simp only [Bool.and_eq_true] at h
  exact h.1.1

/-- The connection of a queue pair that can carry requests. -/
theorem ready_guard (h : connReady s conn.toNat = true ∧ (connOf s conn.toNat).tcp = false) :
    (connReady s conn.toNat && !(connOf s conn.toNat).tcp) = true := by
  rw [h.1, h.2]; rfl

/-! ## Capsules -/

/-- The commands of a queue that are outstanding. -/
def liveCmds (s : State) (conn : BitVec 16) : List Cmd := s.tables.cmds.filter (fun x => !x.internal && !x.closed && x.conn = conn)

/-- A capsule can enter the command table: its identifier is new, its queue has room, and its data the capsule's size. -/
def capsuleFits (s : State) (conn : BitVec 16) (q : BitVec 512) (data : List (BitVec 256)) : Prop :=
  (∀ x ∈ liveCmds s conn, x.cid ≠ sqeCid q) ∧ (liveCmds s conn).length < (connOf s conn.toNat).sqSize ∧ data.length ≤ 256

/-- The test that a capsule fails which does not fit. -/
def capsuleRefused (s : State) (conn : BitVec 16) (q : BitVec 512) (data : List (BitVec 256)) : Bool :=
  (liveCmds s conn).any (fun x => x.cid = sqeCid q) || (connOf s conn.toNat).sqSize ≤ (liveCmds s conn).length || 256 < data.length

theorem capsuleRefused_iff (s : State) (conn : BitVec 16) (q : BitVec 512) (data : List (BitVec 256)) :
    capsuleRefused s conn q data = true ↔ ¬ capsuleFits s conn q data := by
  unfold capsuleRefused capsuleFits
  simp only [Bool.or_eq_true, List.any_eq_true, decide_eq_true_eq, not_and_or, not_forall, not_lt, not_le, exists_prop, not_not, or_assoc]

/-- The entry of a capsule in the command table. -/
def capsuleCmd (s : State) (conn : BitVec 16) (q : BitVec 512) (data : List (BitVec 256)) : Cmd :=
  { cmdOfSqe s conn q with rx := capsuleData data }

/-- The tables once a capsule has entered. -/
def capsuleTables (m : Cmd) (u : Tables) : Tables :=
  { u with
    cmds := u.cmds ++ [m], arrivals := u.arrivals + 1, nextOrder := mset 0 m.conn.toNat (m.order + 1) u.nextOrder
    lastOrd := if m.ordered then mset none m.conn.toNat (some m.order) u.lastOrd else u.lastOrd }

/-- The units of a capsule's item. -/
def capsuleUnits (conn : BitVec 16) (q : BitVec 512) (data : List (BitVec 256)) : List (BitVec 256) :=
  [rxHeader 1 conn.toNat (2 + data.length) (sqeCid q).toNat 0 0, q.setWidth 256, (q >>> 256).setWidth 256] ++ data

theorem takeCapsule_refused {q : BitVec 512} {data : List (BitVec 256)} (h : ¬ capsuleFits s conn q data) :
    takeCapsule conn q data s = closeConnection conn.toNat true 1 s :=
  if_pos ((capsuleRefused_iff s conn q data).mpr h)

theorem spindleOf_modTables (f : Tables → Tables) (k : Nat) : spindleOf (modTables f s) k = spindleOf s k := by
  simp only [spindleOf, modTables_store]

/-- A capsule that fits enters the command table, and goes on to its spindle or is held. -/
theorem takeCapsule_fits {q : BitVec 512} {data : List (BitVec 256)} (h : capsuleFits s conn q data) :
    ∃ hd : HeldCap, takeCapsule conn q data s =
      let u := modTables (capsuleTables (capsuleCmd s conn q data)) s
      if (s.xpt.takes && spindleTakes s (spindleOf s conn.toNat)) = true then pushRx (spindleOf s conn.toNat) (capsuleUnits conn q data) u
      else rxAdd hd.port hd.cls hd.bytes (modXpt (fun x => { x with waitCaps := x.waitCaps ++ [hd] }) u) := by
  have hrefused : ¬ capsuleRefused s conn q data = true := fun hr => (capsuleRefused_iff s conn q data).mp hr h
  unfold takeCapsule
  extract_lets c live _ m us t hd
  have hspindle : hd.spindle = spindleOf s conn.toNat := spindleOf_modTables _ _
  refine ⟨hd, (if_neg hrefused).trans ?_⟩
  rw [hspindle]
  rfl

/-- The entry of a capsule once its packet is handled. -/
theorem capsuleCmd_handled (ecn : Bool) (q : BitVec 512) (data : List (BitVec 256)) :
    capsuleCmd (handled conn ecn s) conn q data =
      { cmdOfSqe s conn q with
        rx := capsuleData data, unbound := decide ((connOf s conn.toNat).unb ≠ 0) || (took (connOf s conn.toNat)).lateNow } := by
  obtain ⟨hnet, -⟩ := handled_frame conn ecn s
  obtain ⟨-, htables, -, -, -, -, -, -, hvct, hctrls, -⟩ := offNet_fields hnet
  obtain ⟨-, -, hvc, -, -, hunb, hqid, hlate⟩ := handled_conn conn ecn s
  generalize handled conn ecn s = t at *
  have hvcOf : ∀ v, vcOf t v = vcOf s v := fun v => by rw [vcOf, hvct, vcOf]
  have hctrl : ∀ v, ctrlOf t v = ctrlOf s v := fun v => by rw [ctrlOf, hctrls, ctrlOf]
  have hcls : connClass t conn.toNat = connClass s conn.toNat := by
    unfold connClass
    rw [hvc]
    simp only [hvcOf]
  unfold capsuleCmd cmdOfSqe nextOrder
  simp only [hcls, hvc, hqid, hunb, hlate, htables, hctrl]

end Sys2Proof.Machine

namespace Sys2Proof.Machine

variable {conn : BitVec 16} {s : State}

/-! ## SEND packets -/

/-- What the handling of a packet shows of its acknowledgment. -/
def acked (conn : BitVec 16) (s : State) (ecn : Bool) (t : State) : Prop :=
  (connOf t conn.toNat).ackDue = (if (connOf s conn.toNat).ackDue + 1 = 16 then 0 else (connOf s conn.toNat).ackDue + 1) ∧
    (∀ j, j ≠ conn.toNat → connOf t j = connOf s j) ∧
    (ecn = false → t.xpt.tx = s.xpt.tx ++ if (connOf s conn.toNat).ackDue + 1 = 16 then [builtFrame s conn 4] else []) ∧
    (ecn = true → (connOf s conn.toNat).ecnNs = none → builtFrame s conn 6 ∈ t.xpt.tx)

theorem acked_handled (conn : BitVec 16) (ecn : Bool) (s : State) : acked conn s ecn (handled conn ecn s) := by
  obtain ⟨-, -, -, hothers⟩ := handled_frame conn ecn s
  obtain ⟨hack, -⟩ := handled_conn conn ecn s
  obtain ⟨hplain, hmarked⟩ := handled_tx conn ecn s
  exact ⟨hack, hothers, hplain, hmarked⟩

/-- Work that leaves the connections and the frames to send alone changes nothing of the acknowledgment. -/
theorem acked_congr {ecn : Bool} {t u : State} (hconns : t.xpt.conns = u.xpt.conns) (htx : t.xpt.tx = u.xpt.tx) (h : acked conn s ecn u) :
    acked conn s ecn t := by
  have hconn : ∀ j, connOf t j = connOf u j := fun j => by rw [connOf, hconns, connOf]
  obtain ⟨hack, hothers, hplain, hmarked⟩ := h
  exact ⟨(congrArg Conn.ackDue (hconn _)).trans hack, fun j hj => (hconn j).trans (hothers j hj), fun h => htx.trans (hplain h),
      fun h h' => htx ▸ hmarked h h'⟩

theorem spindleOf_congr {t : State} (h : t.store = s.store) (k : Nat) : spindleOf t k = spindleOf s k := by
  unfold spindleOf
  rw [h]

/-- A capsule that fits its queue, once its packet is handled. -/
theorem takeCapsule_handled {q : BitVec 512} {data : List (BitVec 256)} (ecn : Bool) (h : capsuleFits s conn q data) :
    let n := spindleOf s conn.toNat
    let t := takeCapsule conn q data (handled conn ecn s)
    t.tables.cmds = s.tables.cmds ++ [capsuleCmd (handled conn ecn s) conn q data] ∧ t.tables.arrivals = s.tables.arrivals + 1 ∧
      (s.xpt.takes = true → (spn s n).state ≠ 3 → (spn t n).rxq = (spn s n).rxq ++ capsuleUnits conn q data) ∧
      (s.xpt.takes = false ∨ (spn s n).state = 3 → t.spindles = s.spindles ∧ t.xpt.waitCaps.length = s.xpt.waitCaps.length + 1) ∧
      acked conn s ecn t := by
  intro n t
  have hack := acked_handled conn ecn s
  obtain ⟨hnet, htakings, -, -⟩ := handled_frame conn ecn s
  obtain ⟨hspindles, htables, -, -, hstore, -⟩ := offNet_fields hnet
  obtain ⟨-, -, -, -, hsize, -⟩ := handled_conn conn ecn s
  have ht : t = takeCapsule conn q data (handled conn ecn s) := rfl
  generalize handled conn ecn s = u at *
  obtain ⟨htakes, hheld⟩ : u.xpt.takes = s.xpt.takes ∧ u.xpt.waitCaps = s.xpt.waitCaps := Prod.mk.inj htakings
  have hn : spindleOf u conn.toNat = n := spindleOf_congr hstore _
  have hspn : spn u n = spn s n := spn_of_spindles hspindles n
  have hfits : capsuleFits u conn q data := by
    unfold capsuleFits liveCmds
    rw [htables, hsize]
    exact h
  obtain ⟨hd, hcap⟩ := takeCapsule_fits hfits
  rw [hn, htakes, spindleTakes, hspn] at hcap
  rw [hcap] at ht
  clear_value t
  subst ht
  have hcmds : ∀ m, (capsuleTables m u.tables).cmds = s.tables.cmds ++ [m] := fun m => by rw [htables]; rfl
  have harrivals : ∀ m, (capsuleTables m u.tables).arrivals = s.tables.arrivals + 1 := fun m => by rw [htables]; rfl
  generalize capsuleCmd u conn q data = m at *
  by_cases hpass : (s.xpt.takes && decide ((spn s n).state ≠ 3)) = true
  · rw [if_pos hpass]
    simp only [Bool.and_eq_true, decide_eq_true_eq] at hpass
    obtain ⟨hyes, hruns⟩ := hpass
    refine ⟨hcmds m, harrivals m, fun _ _ => ?_, fun hno => ?_, acked_congr rfl rfl hack⟩
    · rw [pushRx, spn_modSpn_same, ← hspn]
      rfl
    · rcases hno with hno | hno
      · exact absurd (hyes.symm.trans hno) (by decide)
      · exact absurd hno hruns
  · rw [if_neg hpass]
    refine ⟨hcmds m, harrivals m, fun hyes hruns => ?_, fun _ => ⟨?_, ?_⟩, acked_congr rfl rfl hack⟩
    · exact absurd (by rw [hyes]; simpa using hruns) hpass
    · rw [← hspindles]
      rfl
    · rw [← hheld]
      exact List.length_append

/-- A SEND of a message's first or middle packet, or of one whose capsule it completes. -/
theorem exec_roceSend {op : BitVec 8} {q : BitVec 512} {data : List (BitVec 256)} {ecn : Bool}
    (h : connReady s conn.toNat = true ∧ (connOf s conn.toNat).tcp = false) :
    exec (.roceSend conn op q data ecn) s =
      if op = 0 || op = 1 then .next (handled conn ecn s)
      else if op = 2 || op = 4 then .next (takeCapsule conn q data (handled conn ecn s))
      else .next (refusePacket conn op (rxTake conn.toNat s)) := by
  change execRoceSend conn op q data ecn s = _
  unfold execRoceSend
  rw [if_pos (ready_guard h)]
  rfl

theorem roceSend_part {op : BitVec 8} {q : BitVec 512} {data : List (BitVec 256)} (ecn : Bool)
    (h : connReady s conn.toNat = true ∧ (connOf s conn.toNat).tcp = false) (hop : op = 0 ∨ op = 1) :
    ∃ t, exec (.roceSend conn op q data ecn) s = .next t ∧ t.tables = s.tables ∧ t.spindles = s.spindles ∧ acked conn s ecn t := by
  obtain ⟨hnet, -⟩ := handled_frame conn ecn s
  obtain ⟨hspindles, htables, -⟩ := offNet_fields hnet
  refine ⟨_, (exec_roceSend h).trans (if_pos ?_), htables, hspindles, acked_handled conn ecn s⟩
  simpa using hop

theorem exec_roceSend_last {op : BitVec 8} {q : BitVec 512} {data : List (BitVec 256)} {ecn : Bool}
    (h : connReady s conn.toNat = true ∧ (connOf s conn.toNat).tcp = false) (hop : op = 2 ∨ op = 4) :
    exec (.roceSend conn op q data ecn) s = .next (takeCapsule conn q data (handled conn ecn s)) := by
  rw [exec_roceSend h, if_neg, if_pos]
  · simpa using hop
  · rcases hop with rfl | rfl <;> decide

theorem roceSend_refused {op : BitVec 8} {q : BitVec 512} {data : List (BitVec 256)} {ecn : Bool}
    (h : connReady s conn.toNat = true ∧ (connOf s conn.toNat).tcp = false) (hop : op = 3 ∨ 4 < op.toNat) :
    exec (.roceSend conn op q data ecn) s = .next (refusePacket conn op (rxTake conn.toNat s)) := by
  have hne : ∀ k : BitVec 8, k.toNat ≤ 4 → k ≠ 3 → op ≠ k := by
    rintro k hk hk' rfl
    exact hop.elim hk' (by omega)
  rw [exec_roceSend h, if_neg, if_neg]
  · simpa using ⟨hne 2 (by decide) (by decide), hne 4 (by decide) (by decide)⟩
  · simpa using ⟨hne 0 (by decide) (by decide), hne 1 (by decide) (by decide)⟩

/-- A capsule with a duplicate identifier, or one above its queue's size, closes its queue pair. -/
theorem roceSend_unfit {op : BitVec 8} {q : BitVec 512} {data : List (BitVec 256)} {ecn : Bool}
    (h : connReady s conn.toNat = true ∧ (connOf s conn.toNat).tcp = false) (hop : op = 2 ∨ op = 4) (hfits : ¬ capsuleFits s conn q data) :
    closes (.roceSend conn op q data ecn) conn 0x0811 1 s := by
  obtain ⟨hnet, -, -, hothers⟩ := handled_frame conn ecn s
  obtain ⟨-, hopen, hvc, -, hsize, -⟩ := handled_conn conn ecn s
  obtain ⟨-, htables, -⟩ := offNet_fields hnet
  have hunfit : ¬ capsuleFits (handled conn ecn s) conn q data := by
    unfold capsuleFits liveCmds
    rw [htables, hsize]
    exact hfits
  refine closes_of_closeConnection (reason := 1) ?_ (hopen.trans (connReady_isOpen h.1)) hvc hnet hothers
  rw [exec_roceSend_last h hop, takeCapsule_refused hunfit]

end Sys2Proof.Machine

namespace Sys2Proof.Machine

variable {conn : BitVec 16} {s : State}

/-! ## Packets that a queue pair does not take -/

/-- A connection's headers: its peer and what its packets are addressed with. -/
def addressed (c : Conn) : BitVec 48 × Bool × BitVec 128 × BitVec 6 × BitVec 24 := (c.peer, c.v6, c.ip, c.dscp, c.dqp)

theorem addressed_took (c : Conn) : addressed (took c) = addressed c := by
  unfold took
  split <;> rfl

/-- The bytes of a queue pair's frame depend on the connection's entry by its headers only, and on the state by its sub-ports' addresses. -/
theorem roceBytes_congr {t : State} {c d : Conn} (path : Nat) (h : BitVec 256) (op : BitVec 8) (psn : BitVec 32) (ext : List (BitVec 8))
    (haddrs : t.xpt.addrs = s.xpt.addrs) (hc : addressed d = addressed c) :
    etherHeader t path d ++ rocePacket t path d h op false psn ext [] = etherHeader s path c ++ rocePacket s path c h op false psn ext [] := by
  unfold addressed at hc
  simp only [Prod.mk.injEq] at hc
  obtain ⟨hpeer, hv6, hip, hdscp, hdqp⟩ := hc
  have hsub : ∀ p, subAddr t p = subAddr s p := fun p => by rw [subAddr, haddrs, subAddr]
  unfold etherHeader etherTo rocePacket bth ipHeader maskIp ipAddrs
  simp only [hsub, hpeer, hv6, hip, hdscp, hdqp]

theorem addrs_rxTake (k : Nat) (s : State) : (rxTake k s).xpt.addrs = s.xpt.addrs := by
  unfold rxTake
  split <;> rfl

/-- A negative acknowledgment is queued, and depends on the connection no longer. -/
theorem queueNak_frame (conn : BitVec 16) (cls : Nat) (s : State) :
    offNet (queueNak conn cls s) = offNet s ∧ (∀ j, connOf (queueNak conn cls s) j = connOf s j) ∧
      ∃ (f : TxFrame) (h : BitVec 256) (psn : BitVec 32) (msn : List (BitVec 8)), (queueNak conn cls s).xpt.tx = s.xpt.tx ++ [f] ∧
        f.path = connPath s conn ∧ f.kind = 8 ∧ f.conn = none ∧
        f.raw = etherHeader s (connPath s conn).toNat (connOf s conn.toNat) ++
          rocePacket s (connPath s conn).toNat (connOf s conn.toNat) h 0x11 false psn (0x62 :: msn) [] :=
  ⟨rfl, fun _ => rfl, _, _, _, _, rfl, rfl, rfl, rfl, rfl⟩

theorem refusePacket_eq (op : BitVec 8) (s : State) : refusePacket conn op s =
    closeConnection conn.toNat true (if (6 ≤ op.toNat ∧ op.toNat ≤ 0x0C) ∨ op = 0x13 ∨ op = 0x14 then 4 else 1)
      (if (6 ≤ op.toNat ∧ op.toNat ≤ 0x0C) ∨ op = 0x13 ∨ op = 0x14 then queueNak conn (connClass s conn.toNat) s else s) := by
  unfold refusePacket
  by_cases h : (6 ≤ op.toNat ∧ op.toNat ≤ 0x0C) ∨ op = 0x13 ∨ op = 0x14
  · rw [if_pos (by simpa [or_assoc] using h), if_pos h, if_pos h]
  · rw [if_neg (by simpa [or_assoc] using h), if_neg h, if_neg h]

/-- A queue pair refuses a packet: a request for remote access is answered with a NAK and closes it with reason 4, another opcode closes it as a
protocol error. -/
def refuses (conn : BitVec 16) (s : State) (i : Instr) (op : BitVec 8) : Prop :=
  if (6 ≤ op.toNat ∧ op.toNat ≤ 0x0C) ∨ op = 0x13 ∨ op = 0x14 then
    closes i conn 0x0811 4 s ∧ (s.tables.cmds = [] → (connOf s conn.toNat).vc = none → ∃ (t : State) (f : TxFrame) (h : BitVec 256)
      (psn : BitVec 32) (msn : List (BitVec 8)), exec i s = .next t ∧
      t.xpt.tx = s.xpt.tx.filter (fun g => decide (g.conn ≠ some conn)) ++ [f] ∧ f.path = connPath s conn ∧ f.kind = 8 ∧ f.conn = none ∧
      f.raw = etherHeader s (connPath s conn).toNat (connOf s conn.toNat) ++
        rocePacket s (connPath s conn).toNat (connOf s conn.toNat) h 0x11 false psn (0x62 :: msn) [])
  else closes i conn 0x0811 1 s

theorem refuses_of_exec {i : Instr} {op : BitVec 8} (hopen : (connOf s conn.toNat).isOpen = true)
    (hexec : exec i s = .next (refusePacket conn op (rxTake conn.toNat s))) : refuses conn s i op := by
  obtain ⟨hnet, htx, hothers⟩ := beside_fields (beside_rxTake conn.toNat s)
  have hconn := connOf_rxTake conn.toNat s
  have haddrs := addrs_rxTake conn.toNat s
  obtain ⟨htook, -, hsub, hvc, -⟩ := took_fields (connOf s conn.toNat)
  rw [refusePacket_eq] at hexec
  generalize rxTake conn.toNat s = u at *
  have hvc' : (connOf u conn.toNat).vc = (connOf s conn.toNat).vc := hconn ▸ hvc
  have hopen' : (connOf u conn.toNat).isOpen = true := by rw [hconn, htook, hopen]
  unfold refuses
  split
  · next hop =>
    rw [if_pos hop, if_pos hop] at hexec
    obtain ⟨hnet', hconn', f, h, psn, msn, htx', hpath, hkind, hfree, hraw⟩ := queueNak_frame conn (connClass u conn.toNat) u
    have hself := hconn' conn.toNat
    generalize queueNak conn (connClass u conn.toNat) u = v at *
    have hnetv := hnet'.trans hnet
    refine ⟨closes_of_closeConnection (reason := 4) hexec (by rw [hself, hopen']) (by rw [hself, hvc']) hnetv
      (fun j hj => (hconn' j).trans (hothers j hj)), fun hcmds hnone => ?_⟩
    obtain ⟨-, htables, -⟩ := offNet_fields hnetv
    obtain ⟨-, -, htxw, -⟩ := closeConnection_plain (k := conn.toNat) 4 (by rw [hself, hopen']) (by rw [htables, hcmds]) (by rw [hself, hvc', hnone])
    have hid : BitVec.ofNat 16 conn.toNat = conn := by simp
    have hpath' : connPath u conn = connPath s conn := by rw [connPath, hconn, hsub, connPath]
    refine ⟨_, f, h, psn, msn, hexec, ?_, hpath.trans hpath', hkind, hfree, ?_⟩
    · rw [htxw, hid, htx', htx, List.filter_append]
      simp [hfree]
    · rw [hraw, hpath', hconn]
      exact roceBytes_congr _ h 0x11 psn _ haddrs (addressed_took _)
  · next hop =>
    rw [if_neg hop, if_neg hop] at hexec
    exact closes_of_closeConnection (reason := 1) hexec hopen' hvc' hnet hothers

theorem exec_remoteAccessRequest (h : connReady s conn.toNat = true ∧ (connOf s conn.toNat).tcp = false) :
    exec (.remoteAccessRequest conn) s = .next (refusePacket conn 0x0C (rxTake conn.toNat s)) := by
  change execRemoteAccessRequest conn s = _
  unfold execRemoteAccessRequest
  rw [if_pos (ready_guard h)]

theorem exec_rdmaReadResponse_other {cid : BitVec 16} {op : BitVec 8} {data : List (BitVec 8)} {ecn : Bool}
    (h : connReady s conn.toNat = true ∧ (connOf s conn.toNat).tcp = false) (hop : op.toNat < 0x0D ∨ 0x10 < op.toNat) :
    exec (.rdmaReadResponse conn cid op data ecn) s = .next (refusePacket conn op (rxTake conn.toNat s)) := by
  have hop' : (op.toNat < 0x0D || 0x10 < op.toNat) = true := by simpa using hop
  change execRdmaReadResponse conn cid op data ecn s = _
  unfold execRdmaReadResponse
  rw [if_pos (ready_guard h)]
  extract_lets u
  rw [if_pos hop']

theorem exec_cnpReceive (h : connReady s conn.toNat = true ∧ (connOf s conn.toNat).tcp = false) :
    exec (.cnpReceive conn) s = .next (modXpt (fun u => { u with cnps := u.cnps + 1 }) (rxTake conn.toNat s)) := by
  change execCnpReceive conn s = _
  unfold execCnpReceive
  rw [if_pos (ready_guard h)]

theorem cnps_rxTake (k : Nat) (s : State) : (rxTake k s).xpt.cnps = s.xpt.cnps := by
  unfold rxTake
  split <;> rfl

theorem cnpReceive_counts (h : connReady s conn.toNat = true ∧ (connOf s conn.toNat).tcp = false) :
    ∃ t, exec (.cnpReceive conn) s = .next t ∧ t.xpt.cnps = s.xpt.cnps + 1 ∧ connOf t conn.toNat = took (connOf s conn.toNat) ∧
      (∀ j, j ≠ conn.toNat → connOf t j = connOf s j) ∧ t.xpt.tx = s.xpt.tx ∧ t.tables = s.tables := by
  obtain ⟨hnet, htx, hothers⟩ := beside_fields (beside_rxTake conn.toNat s)
  obtain ⟨-, htables, -⟩ := offNet_fields hnet
  exact ⟨_, exec_cnpReceive h, congrArg (· + 1) (cnps_rxTake conn.toNat s), connOf_rxTake conn.toNat s, hothers, htx, htables⟩

end Sys2Proof.Machine

namespace Sys2Proof.Machine

variable {conn : BitVec 16} {s : State}

/-! ## Sending the oldest frame again -/

/-- A frame's record once it has been sent again, after a receiver-not-ready NAK or not. -/
def triedAgain (rnr : Bool) (r : RtxRec) : RtxRec := if rnr then { r with rnr := r.rnr + 1 } else { r with tries := r.tries + 1 }

/-- How often a record's frame has been sent again, after a receiver-not-ready NAK or not. -/
def triesOf (rnr : Bool) (r : RtxRec) : Nat := if rnr then r.rnr else r.tries

/-- The records of a connection of which one has been sent again. -/
def againConn (rnr : Bool) (r : RtxRec) (c : Conn) : Conn := { c with unack := c.unack.map (fun x => if x = r then triedAgain rnr r else x) }

/-- The request that a record's frame be sent again: of its spindle for read data, else from the record. -/
def resend (conn : BitVec 16) (r : RtxRec) (s : State) : State :=
  match r.frame.src, r.cid with
  | some _, some cid => pushRx (spindleOf s conn.toNat) [rxHeader 3 conn.toNat 0 cid.toNat r.off.toNat r.len.toNat] s
  | _, _ => queueFrame { r.frame with again := true, seq := r.seq } s

theorem retransmit_oldest {r : RtxRec} {rest : List RtxRec} (rnr : Bool) (limit : Nat) (h : (connOf s conn.toNat).unack = r :: rest)
    (hs : r.sacked = false) : retransmit conn rnr limit s =
      if limit ≤ triesOf rnr r then abandon conn s else resend conn r (modConn conn.toNat (againConn rnr r) s) := by
  have hfind : (((r :: rest).find? (fun r => !r.sacked)).orElse (fun _ => (r :: rest).head?)) = some r := by
    rw [List.find?_cons_of_pos (by rw [hs]; rfl)]
    rfl
  unfold retransmit
  simp only [h, hfind]
  rfl

theorem resend_data {r : RtxRec} {cid : BitVec 16} (hcid : r.cid = some cid) (hsrc : r.frame.src ≠ none) :
    resend conn r s = pushRx (spindleOf s conn.toNat) [rxHeader 3 conn.toNat 0 cid.toNat r.off.toNat r.len.toNat] s := by
  obtain ⟨x, hx⟩ := Option.ne_none_iff_exists'.mp hsrc
  unfold resend
  rw [hx, hcid]

theorem resend_record {r : RtxRec} (hsrc : r.frame.src = none) : resend conn r s = queueFrame { r.frame with again := true, seq := r.seq } s := by
  unfold resend
  rw [hsrc]

theorem connOf_resend (r : RtxRec) (j : Nat) : connOf (resend conn r s) j = connOf s j := by
  unfold resend
  split <;> rfl

/-- A queue pair is given up without a further frame. -/
theorem abandon_queuePair (h : (connOf s conn.toNat).tcp = false) : abandon conn s = closeConnection conn.toNat true 3 s := by
  unfold abandon
  simp only [h, Bool.false_eq_true, if_false]

/-- The oldest frame is sent again, up to the limit of its tries; then the queue pair closes. -/
theorem resends_of_retransmit {i : Instr} {u : State} {c : Conn} {rnr : Bool} {limit : Nat} (hexec : exec i s = .next (retransmit conn rnr limit u))
    (hready : (connOf s conn.toNat).isOpen = true ∧ (connOf s conn.toNat).tcp = false) (hc : connOf u conn.toNat = c)
    (hopen : c.isOpen = (connOf s conn.toNat).isOpen) (htcp : c.tcp = (connOf s conn.toNat).tcp) (hvc : c.vc = (connOf s conn.toNat).vc)
    (hothers : ∀ j, j ≠ conn.toNat → connOf u j = connOf s j) (htx : u.xpt.tx = s.xpt.tx) (hspindles : u.spindles = s.spindles)
    (hcmds : u.tables.cmds = s.tables.cmds) (hevr : u.evr = s.evr) (hstore : u.store = s.store) {r : RtxRec} {rest : List RtxRec}
    (h : c.unack = r :: rest) (hs : r.sacked = false) :
    (triesOf rnr r < limit → ∃ t, exec i s = .next t ∧ connOf t conn.toNat = againConn rnr r c ∧
      (∀ cid, r.cid = some cid → r.frame.src ≠ none →
        (spn t (spindleOf s conn.toNat)).rxq = (spn s (spindleOf s conn.toNat)).rxq ++ [rxHeader 3 conn.toNat 0 cid.toNat r.off.toNat r.len.toNat] ∧
          t.xpt.tx = s.xpt.tx) ∧
      (r.frame.src = none → t.xpt.tx = s.xpt.tx ++ [{ r.frame with again := true, seq := r.seq }] ∧ t.spindles = s.spindles)) ∧
    (limit ≤ triesOf rnr r → closes i conn 0x0811 3 s) := by
  subst hc
  rw [retransmit_oldest rnr limit h hs] at hexec
  constructor
  · intro htries
    rw [if_neg (Nat.not_le.mpr htries)] at hexec
    refine ⟨_, hexec, ?_, fun cid hcid hsrc => ?_, fun hsrc => ?_⟩
    · rw [connOf_resend, connOf_modConn_same]
    · have hspindle : spindleOf (modConn conn.toNat (againConn rnr r) u) conn.toNat = spindleOf s conn.toNat := spindleOf_congr hstore _
      rw [resend_data hcid hsrc, hspindle]
      refine ⟨?_, htx⟩
      rw [pushRx, spn_modSpn_same, ← spn_of_spindles hspindles]
      rfl
    · rw [resend_record hsrc, ← htx, ← hspindles]
      exact ⟨rfl, rfl⟩
  · intro htries
    rw [if_pos htries, abandon_queuePair (htcp.trans hready.2)] at hexec
    exact closes_of_alike (reason := 3) hexec (hopen.trans hready.1) hvc hspindles hcmds hevr hstore hothers

theorem exec_localAckTimeout (h : connReady s conn.toNat = true ∧ (connOf s conn.toNat).tcp = false) :
    exec (.localAckTimeout conn) s = .next (retransmit conn false 7 s) := by
  change execLocalAckTimeout conn s = _
  unfold execLocalAckTimeout
  rw [if_pos (ready_guard h)]

theorem exec_receiverNotReadyRetry (ecn : Bool) (h : connReady s conn.toNat = true ∧ (connOf s conn.toNat).tcp = false) :
    exec (.receiverNotReadyRetry conn ecn) s = .next (retransmit conn true 7 (noteEcn conn ecn (rxTake conn.toNat s))) := by
  change execReceiverNotReadyRetry conn ecn s = _
  unfold execReceiverNotReadyRetry
  rw [if_pos (ready_guard h)]

/-- Nothing is sent again where every frame is acknowledged. -/
theorem retransmit_acknowledged (rnr : Bool) (limit : Nat) (h : (connOf s conn.toNat).unack = []) : retransmit conn rnr limit s = s := by
  unfold retransmit
  simp only [h]
  rfl

/-- A marked receiver-not-ready NAK is answered with a CNP. -/
theorem receiverNotReadyRetry_marked (h : connReady s conn.toNat = true ∧ (connOf s conn.toNat).tcp = false)
    (hun : (connOf s conn.toNat).unack = []) (hecn : (connOf s conn.toNat).ecnNs = none) :
    ∃ t, exec (.receiverNotReadyRetry conn true) s = .next t ∧ t.xpt.tx = s.xpt.tx ++ [builtFrame s conn 6] := by
  obtain ⟨-, htx, -⟩ := beside_fields (beside_rxTake conn.toNat s)
  have hconn := connOf_rxTake conn.toNat s
  obtain ⟨-, -, hsub, -, -, htook, hunt, -⟩ := took_fields (connOf s conn.toNat)
  have hexec := exec_receiverNotReadyRetry true h
  have hframe : builtFrame (rxTake conn.toNat s) conn 6 = builtFrame s conn 6 := builtFrame_congr (by rw [hconn, hsub]) 6
  have hun' : (connOf (rxTake conn.toNat s) conn.toNat).unack = [] := by rw [hconn, hunt, hun]
  have hecn' : (connOf (rxTake conn.toNat s) conn.toNat).ecnNs = none := by rw [hconn, htook, hecn]
  generalize rxTake conn.toNat s = u at *
  obtain ⟨-, hmark, -⟩ := noteEcn_frame conn true u
  have hnone : (connOf (noteEcn conn true u) conn.toNat).unack = [] :=
    (congrArg Conn.unack hmark : (unmarked _).unack = (unmarked _).unack).trans hun'
  rw [retransmit_acknowledged true 7 hnone] at hexec
  exact ⟨_, hexec, by rw [noteEcn_marked hecn', htx, hframe]⟩

/-! ## Acknowledgments -/

/-- A frame carries data of a command, or may do so. -/
def carries (cid : BitVec 16) (f : TxFrame) : Prop := f.cid = some cid ∨ f.cid = none ∧ f.pushed = true

theorem awaitsAck_iff (s : State) (conn cid : BitVec 16) :
    awaitsAck s conn cid = true ↔ (∃ y ∈ (connOf s conn.toNat).unack, carries cid y.frame) ∨ ∃ f ∈ s.xpt.tx, f.conn = some conn ∧ carries cid f := by
  unfold awaitsAck carries
  simp only [Bool.or_eq_true, List.any_eq_true, Bool.and_eq_true, decide_eq_true_eq, Option.isNone_iff_eq_none]

/-- A read lock that has nothing to wait for any more: its command has completed, and all its frames are acknowledged. -/
def lockEnds (s : State) (conn : BitVec 16) (l : LockEnt) : Bool :=
  !l.internal && !l.excl && l.conn = conn && (findCmd s conn l.cid).isNone && !awaitsAck s conn l.cid

/-- The numbers of the read locks that end. -/
def endedLocks (s : State) (conn : BitVec 16) : List Nat :=
  s.tables.locks.filterMap (fun e => match e.2 with | some l => if lockEnds s conn l then some e.1 else none | none => none)

theorem releaseReadLocks_eq (conn : BitVec 16) (s : State) : releaseReadLocks conn s = freeLocks (endedLocks s conn) s := rfl

theorem mem_endedLocks {j : Nat} : j ∈ endedLocks s conn ↔ ∃ l, (j, some l) ∈ s.tables.locks ∧ lockEnds s conn l = true := by
  unfold endedLocks
  rw [List.mem_filterMap]
  constructor
  · rintro ⟨⟨k, e⟩, hmem, he⟩
    cases e with
    | none => simp at he
    | some l =>
      simp only [Option.ite_none_right_eq_some, Option.some.injEq] at he
      exact ⟨l, he.2 ▸ hmem, he.1⟩
  · rintro ⟨l, hmem, hl⟩
    exact ⟨(j, some l), hmem, by simp [hl]⟩

end Sys2Proof.Machine

namespace Sys2Proof.Machine

variable {conn : BitVec 16} {s : State}

theorem mget_foldl_clear (l : List Nat) (j : Nat) : ∀ m : SMap (Option LockEnt),
    mget none (l.foldl (fun m k => mset none k none m) m) j = if j ∈ l then none else mget none m j := by
  induction l with
  | nil => intro m; rfl
  | cons k l ih =>
    intro m
    rw [List.foldl_cons, ih]
    by_cases hl : j ∈ l
    · rw [if_pos hl, if_pos (List.mem_cons_of_mem _ hl)]
    · rw [if_neg hl]
      by_cases hk : j = k
      · subst hk
        rw [mget_mset_same, if_pos List.mem_cons_self]
      · rw [mget_mset_other _ _ hk, if_neg (by simp [hk, hl])]

/-- What a read lock's end leaves under a number of a table of locks in canonical form. -/
theorem mget_releaseReadLocks {j : Nat} {l : LockEnt} (hwf : mwf none s.tables.locks = true) (hl : mget none s.tables.locks j = some l) :
    mget none (releaseReadLocks conn s).tables.locks j = if lockEnds s conn l then none else some l := by
  have hmem : j ∈ endedLocks s conn ↔ lockEnds s conn l = true := by
    rw [mem_endedLocks]
    constructor
    · rintro ⟨l', hmem, hends⟩
      have hget := mget_of_mem none ((mwf_iff_keysRise none _).mp hwf).1 hmem
      rw [hl] at hget
      exact Option.some.inj hget ▸ hends
    · intro hends
      rcases mget_default_or_mem none s.tables.locks j with h | h
      · rw [hl] at h
        exact absurd h (by simp)
      · exact ⟨l, hl ▸ h, hends⟩
  rw [releaseReadLocks_eq]
  change mget none ((endedLocks s conn).foldl (fun m k => mset none k none m) s.tables.locks) j = _
  rw [mget_foldl_clear, hl]
  simp only [hmem]

theorem lockEnds_iff (s : State) (conn : BitVec 16) (l : LockEnt) : lockEnds s conn l = true ↔
    l.internal = false ∧ l.excl = false ∧ l.conn = conn ∧ findCmd s conn l.cid = none ∧
      (∀ y ∈ (connOf s conn.toNat).unack, ¬ carries l.cid y.frame) ∧ ∀ f ∈ s.xpt.tx, f.conn = some conn → ¬ carries l.cid f := by
  have hawaits : (!awaitsAck s conn l.cid) = true ↔
      (∀ y ∈ (connOf s conn.toNat).unack, ¬ carries l.cid y.frame) ∧ ∀ f ∈ s.xpt.tx, f.conn = some conn → ¬ carries l.cid f := by
    rw [Bool.not_eq_true', ← Bool.not_eq_true, awaitsAck_iff, not_or]
    simp only [not_exists, not_and]
  unfold lockEnds
  simp only [Bool.and_eq_true, hawaits, Bool.not_eq_true', decide_eq_true_eq, Option.isNone_iff_eq_none, and_assoc]

/-- How many records an acknowledgment up to a sequence number retires; one of a lost frame keeps that frame's. -/
def retired (c : Conn) (seq : BitVec 32) (nak : Bool) : Nat :=
  if c.unack.any (fun r => r.seq = seq) then
    if nak then (c.unack.findIdx? (fun r => r.seq = seq)).getD 0 else (c.unack.findIdx? (fun r => r.seq = seq)).getD 0 + 1
  else 0

/-- The records of a connection after the oldest have been retired. -/
def retire (n : Nat) (c : Conn) : Conn := { c with unack := c.unack.drop n }

/-- A connection's entry with other records. -/
def withUnack (l : List RtxRec) (c : Conn) : Conn := { c with unack := l }

/-- The state once an acknowledgment has retired its records. -/
def acknowledged (conn : BitVec 16) (seq : BitVec 32) (nak : Bool) (s : State) : State :=
  releaseReadLocks conn (modConn conn.toNat (retire (retired (connOf s conn.toNat) seq nak)) s)

theorem exec_acknowledge (seq : BitVec 32) (nak : Bool) (h : connReady s conn.toNat = true ∧ (connOf s conn.toNat).tcp = false) :
    exec (.acknowledge conn seq nak false) s =
      if nak then .next (retransmit conn false 7 (acknowledged conn seq nak (rxTake conn.toNat s)))
      else .next (acknowledged conn seq nak (rxTake conn.toNat s)) := by
  change execAcknowledge conn seq nak false s = _
  unfold execAcknowledge
  rw [if_pos (ready_guard h)]
  rfl

theorem retired_upTo {c : Conn} {pre rest : List RtxRec} {r : RtxRec} (h : c.unack = pre ++ r :: rest) (hpre : ∀ y ∈ pre, y.seq ≠ r.seq) :
    retired c r.seq false = pre.length + 1 := by
  have hfind : c.unack.findIdx? (fun x => x.seq = r.seq) = some pre.length := by
    rw [h, List.findIdx?_append, List.findIdx?_eq_none_iff.mpr (by simpa using hpre), List.findIdx?_cons]
    simp
  have hany : c.unack.any (fun x => x.seq = r.seq) = true := by
    rw [h, List.any_append, List.any_cons]
    simp
  unfold retired
  rw [if_pos hany, hfind]
  rfl

theorem retired_none {c : Conn} {seq : BitVec 32} (h : ∀ y ∈ c.unack, y.seq = seq → c.unack.head? = some y) : retired c seq true = 0 := by
  unfold retired
  split
  · next hany =>
    obtain ⟨y, hy, hseq⟩ := List.any_eq_true.mp hany
    have hseq : y.seq = seq := by simpa using hseq
    obtain ⟨rest, hrest⟩ := List.head?_eq_some_iff.mp (h y hy hseq)
    rw [hrest, List.findIdx?_cons]
    simp [hseq]
  · rfl

/-- What an acknowledgment leaves alone but the records and the locks. -/
theorem acknowledged_frame (seq : BitVec 32) (nak : Bool) (s : State) :
    let t := acknowledged conn seq nak s
    connOf t conn.toNat = retire (retired (connOf s conn.toNat) seq nak) (connOf s conn.toNat) ∧ t.xpt.tx = s.xpt.tx ∧ t.spindles = s.spindles ∧
      t.tables.cmds = s.tables.cmds ∧ t.evr = s.evr ∧ t.store = s.store ∧ ∀ j, j ≠ conn.toNat → connOf t j = connOf s j := by
  intro t
  have hconn : ∀ j, connOf t j = connOf (modConn conn.toNat (retire (retired (connOf s conn.toNat) seq nak)) s) j := fun _ => rfl
  refine ⟨(hconn _).trans (connOf_modConn_same _ _ _), ?_, ?_, ?_, ?_, ?_, fun j hj => (hconn j).trans (connOf_modConn_other _ _ _ hj)⟩
  all_goals simp only [t, acknowledged, releaseReadLocks_eq, freeLocks, modConn, modTables_xpt, modXpt_xpt, modTables_spindles, modXpt_spindles,
    modTables_tables, modXpt_tables, modTables_evr, modXpt_evr, modTables_store, modXpt_store]

/-- An acknowledgment retires the frames up to its number, and with them the read locks that nothing waits on any more. -/
theorem acknowledge_retires {pre rest : List RtxRec} {r : RtxRec} (h : connReady s conn.toNat = true ∧ (connOf s conn.toNat).tcp = false)
    (hun : (connOf s conn.toNat).unack = pre ++ r :: rest) (hpre : ∀ y ∈ pre, y.seq ≠ r.seq) :
    ∃ t, exec (.acknowledge conn r.seq false false) s = .next t ∧ connOf t conn.toNat = withUnack rest (took (connOf s conn.toNat)) ∧
      t.xpt.tx = s.xpt.tx ∧ (∀ j, j ≠ conn.toNat → connOf t j = connOf s j) ∧
      ∀ j l, mwf none s.tables.locks = true → mget none s.tables.locks j = some l →
        let ends := l.internal = false ∧ l.excl = false ∧ l.conn = conn ∧ findCmd s conn l.cid = none ∧ (∀ y ∈ rest, ¬ carries l.cid y.frame) ∧
          ∀ f ∈ s.xpt.tx, f.conn = some conn → ¬ carries l.cid f
        (ends → mget none t.tables.locks j = none) ∧ (¬ ends → mget none t.tables.locks j = some l) := by
  obtain ⟨hnet, htx, hothers⟩ := beside_fields (beside_rxTake conn.toNat s)
  obtain ⟨-, htables, -⟩ := offNet_fields hnet
  have hconn := connOf_rxTake conn.toNat s
  obtain ⟨-, -, -, -, -, -, hunt, -⟩ := took_fields (connOf s conn.toNat)
  have hexec := exec_acknowledge r.seq false h
  rw [if_neg (by decide)] at hexec
  generalize rxTake conn.toNat s = u at *
  have hretired : retired (connOf u conn.toNat) r.seq false = pre.length + 1 := retired_upTo (by rw [hconn, hunt, hun]) hpre
  obtain ⟨hself, htx', -, -, -, -, hothers'⟩ := acknowledged_frame (conn := conn) r.seq false u
  have hrest : retire (pre.length + 1) (took (connOf s conn.toNat)) = withUnack rest (took (connOf s conn.toNat)) := by
    rw [retire, withUnack, hunt, hun, List.drop_append, List.drop_eq_nil_of_le (by omega)]
    simp
  rw [hretired, hconn, hrest] at hself
  refine ⟨_, hexec, hself, htx'.trans htx, fun j hj => (hothers' j hj).trans (hothers j hj), fun j l hwf hl => ?_⟩
  have hv : modConn conn.toNat (retire (retired (connOf u conn.toNat) r.seq false)) u = modConn conn.toNat (retire (pre.length + 1)) u := by rw
      [hretired]
  have hlocks : (modConn conn.toNat (retire (pre.length + 1)) u).tables = s.tables := htables
  have hends : lockEnds (modConn conn.toNat (retire (pre.length + 1)) u) conn l = true ↔
      l.internal = false ∧ l.excl = false ∧ l.conn = conn ∧ findCmd s conn l.cid = none ∧ (∀ y ∈ rest, ¬ carries l.cid y.frame) ∧
        ∀ f ∈ s.xpt.tx, f.conn = some conn → ¬ carries l.cid f := by
    have htxv : (modConn conn.toNat (retire (pre.length + 1)) u).xpt.tx = s.xpt.tx := htx
    have hfind : findCmd (modConn conn.toNat (retire (pre.length + 1)) u) conn l.cid = findCmd s conn l.cid := by
      unfold findCmd liveCmd
      rw [hlocks]
    rw [lockEnds_iff, htxv, connOf_modConn_same, hconn, hrest, hfind]
    rfl
  have hget := mget_releaseReadLocks (s := modConn conn.toNat (retire (pre.length + 1)) u) (conn := conn) (by rw [hlocks]; exact hwf)
    (by rw [hlocks]; exact hl)
  rw [acknowledged, hv, hget]
  exact ⟨fun he => if_pos (hends.mpr he), fun he => if_neg (fun hb => he (hends.mp hb))⟩

end Sys2Proof.Machine

namespace Sys2Proof.Machine

variable {conn : BitVec 16} {s : State}

/-! ## A queue pair that is set up, and one whose acknowledgment fails to come -/

/-- The state once a datagram of queue pair 1 has been passed on. -/
def datagramPassed (sub : BitVec 5) (s : State) : State := modXpt (fun u => { u with qp1 := u.qp1 + 1 }) (rxTakeDev (sub.toNat / 4) s)

/-- The largest path MTU that the device and its peer offer. -/
def pathMtu (mtu : BitVec 13) : Nat := if 4096 ≤ mtu.toNat then 4096 else if 2048 ≤ mtu.toNat then 2048 else 1024

theorem pathMtu_offered (mtu : BitVec 13) : (pathMtu mtu ≤ mtu.toNat ∨ pathMtu mtu = 1024) ∧ pathMtu mtu ∈ [1024, 2048, 4096] := by
  unfold pathMtu
  by_cases h : 4096 ≤ mtu.toNat
  · rw [if_pos h]
    exact ⟨.inl h, by decide⟩
  · by_cases h' : 2048 ≤ mtu.toNat
    · rw [if_neg h, if_pos h']
      exact ⟨.inl h', by decide⟩
    · rw [if_neg h, if_neg h']
      exact ⟨.inr rfl, by decide⟩

/-- The entry of a queue pair that is set up. -/
def pairEntry (sub : BitVec 5) (peer : BitVec 48) (far : Peer) (mtu : BitVec 13) : Conn :=
  { sub := sub, peer := peer, v6 := far.v6, ip := far.ip, dqp := far.qp, dscp := far.dscp, mtu := pathMtu mtu }

theorem exec_datagram (sub : BitVec 5) (peer : BitVec 48) (far : Peer) (mtu : BitVec 13) (ready : Bool) :
    exec (.communicationManagementDatagram sub conn peer far mtu ready) s =
      .next (if ready then openConn conn.toNat (pairEntry sub peer far mtu) (datagramPassed sub s) else datagramPassed sub s) := by
  cases ready <;> rfl

theorem xpt_rxTakeDev (p : Nat) (s : State) : (rxTakeDev p s).xpt = s.xpt := by
  unfold rxTakeDev
  split <;> rfl

theorem xpt_datagramPassed (sub : BitVec 5) (s : State) : (datagramPassed sub s).xpt = { s.xpt with qp1 := s.xpt.qp1 + 1 } := by
  rw [← xpt_rxTakeDev (sub.toNat / 4) s]
  rfl

theorem varB_rxTakeDev (p : Nat) (s : State) : (rxTakeDev p s).varB = s.varB := by
  unfold rxTakeDev
  split <;> rfl

/-- An entry that is free opens with what its set-up gives. -/
theorem openConn_free {k : Nat} {c : Conn} (hfree : (connOf s k).isOpen = false) (hk : k < nConns s) :
    ∃ room, openConn k c s = modConn k (fun _ => { c with isOpen := true, cached := room }) s := by
  unfold openConn
  rw [if_neg (by simpa [hfree] using hk)]
  exact ⟨_, rfl⟩

theorem datagram_opens (sub : BitVec 5) (peer : BitVec 48) (far : Peer) (mtu : BitVec 13) (hfree : (connOf s conn.toNat).isOpen = false)
    (hk : conn.toNat < nConns s) :
    ∃ t room, exec (.communicationManagementDatagram sub conn peer far mtu true) s = .next t ∧ t.xpt.qp1 = s.xpt.qp1 + 1 ∧
      connOf t conn.toNat = { pairEntry sub peer far mtu with isOpen := true, cached := room } ∧ ∀ j, j ≠ conn.toNat → connOf t j = connOf s j := by
  have hxpt := xpt_datagramPassed sub s
  have hvar : (datagramPassed sub s).varB = s.varB := varB_rxTakeDev _ s
  have hexec := exec_datagram (conn := conn) (s := s) sub peer far mtu true
  rw [if_pos rfl] at hexec
  generalize datagramPassed sub s = u at *
  have hconn : ∀ j, connOf u j = connOf s j := fun j => by rw [connOf, hxpt, connOf]
  obtain ⟨room, hopen⟩ := openConn_free (c := pairEntry sub peer far mtu) (s := u) (by rw [hconn, hfree]) (by rw [nConns, hvar]; exact hk)
  rw [hopen] at hexec
  refine ⟨_, room, hexec, ?_, connOf_modConn_same _ _ _, fun j hj => (connOf_modConn_other _ _ _ hj).trans (hconn j)⟩
  change u.xpt.qp1 = _
  rw [hxpt]

/-- An activation request that waits for acknowledged read data gives the queue pair up. -/
theorem acknowledgmentTimeout_closes (hact : s.store.act = .accepted) (hdata : ∃ r ∈ (connOf s conn.toNat).unack, r.frame.src ≠ none)
    (hopen : (connOf s conn.toNat).isOpen = true) : closes (.acknowledgmentTimeout conn) conn 0x0811 3 s := by
  have hany : (connOf s conn.toNat).unack.any (fun r => r.frame.src.isSome) = true := by
    obtain ⟨r, hr, hsrc⟩ := hdata
    exact List.any_eq_true.mpr ⟨r, hr, Option.isSome_iff_ne_none.mpr hsrc⟩
  refine closes_of_closeConnection (reason := 3) ?_ hopen rfl rfl (fun _ _ => rfl)
  change execAcknowledgmentTimeout conn s = _
  unfold execAcknowledgmentTimeout
  rw [if_pos (by rw [hact, hany]; decide)]

end Sys2Proof.Machine

namespace Sys2Proof.Machine

/-! ## Bytes in units, and the header unit of an item (R287) -/

theorem leBytes_zero (k : Nat) : leBytes k 0 = List.replicate k 0 := by
  induction k with
  | zero => rfl
  | succ k ih => rw [leBytes, Nat.zero_div, ih]; rfl

/-- A number's bytes are those that spell it, filled up with zeros. -/
theorem leBytes_leNat (l : List (BitVec 8)) : ∀ k, l.length ≤ k → leBytes k (leNat l) = l ++ List.replicate (k - l.length) 0 := by
  induction l with
  | nil => intro k _; exact leBytes_zero k
  | cons b l ih =>
    intro k hk
    obtain ⟨k, rfl⟩ : ∃ j, k = j + 1 := ⟨k - 1, by simp only [List.length_cons] at hk; omega⟩
    have hb := b.isLt
    have hdiv : (b.toNat + 256 * leNat l) / 256 = leNat l := by omega
    have hbyte : BitVec.ofNat 8 (b.toNat + 256 * leNat l) = b := by
      apply BitVec.eq_of_toNat_eq
      rw [BitVec.toNat_ofNat]
      omega
    rw [leBytes, leNat, hdiv, hbyte, ih k (by simpa using hk)]
    simp

theorem leNat_lt (l : List (BitVec 8)) : leNat l < 256 ^ l.length := by
  induction l with
  | nil => exact Nat.one_pos
  | cons b l ih =>
    have hb := b.isLt
    rw [leNat, List.length_cons, Nat.pow_succ]
    omega

/-- The bytes of a unit made of up to 32 bytes. -/
theorem leBytes_unitOf {l : List (BitVec 8)} (h : l.length ≤ 32) : leBytes 32 (unitOf l).toNat = l ++ List.replicate (32 - l.length) 0 := by
  have hlt : leNat l < 2 ^ 256 := calc
    leNat l < 256 ^ l.length := leNat_lt l
    _ ≤ 256 ^ 32 := Nat.pow_le_pow_right (by decide) h
    _ = 2 ^ 256 := by decide
  rw [unitOf, BitVec.toNat_ofNat, Nat.mod_eq_of_lt hlt, leBytes_leNat l 32 h]

theorem unitsBytes_toUnits (n : Nat) : ∀ l : List (BitVec 8), l.length ≤ 32 * n → (unitsBytes (toUnits n l)).take l.length = l := by
  induction n with
  | zero =>
    intro l h
    rw [List.length_eq_zero_iff.mp (by omega : l.length = 0)]
    rfl
  | succ n ih =>
    intro l h
    have hcons : unitsBytes (toUnits (n + 1) l) = leBytes 32 (unitOf (l.take 32)).toNat ++ unitsBytes (toUnits n (l.drop 32)) := rfl
    rw [hcons, leBytes_unitOf (by rw [List.length_take]; omega), List.length_take]
    by_cases hl : l.length ≤ 32
    · rw [Nat.min_eq_right hl, List.take_of_length_le hl, List.append_assoc, List.take_left]
    · have hfull : (l.take 32).length = 32 := by rw [List.length_take]; omega
      have hrest : (unitsBytes (toUnits n (l.drop 32))).take (l.length - 32) = l.drop 32 := by
        have := ih (l.drop 32) (by rw [List.length_drop]; omega)
        rwa [List.length_drop] at this
      rw [Nat.min_eq_left (by omega), List.replicate_zero, List.append_nil, List.take_append, hfull, hrest, List.take_of_length_le (by omega),
        List.take_append_drop]

/-- The bytes of a string's units begin with the string. -/
theorem unitsBytes_bytesUnits (l : List (BitVec 8)) : (unitsBytes (bytesUnits l)).take l.length = l :=
  unitsBytes_toUnits _ l (by omega)

theorem length_bytesUnits (l : List (BitVec 8)) : (bytesUnits l).length = (l.length + 31) / 32 := by
  unfold bytesUnits
  generalize (l.length + 31) / 32 = n
  induction n generalizing l with
  | zero => rfl
  | succ n ih => rw [toUnits, List.length_cons, ih]

/-- The fields of an item's header unit, each within its width. -/
theorem rxHeader_fields {kind conn units cid off cnt : Nat} (hkind : kind < 2 ^ 8) (hconn : conn < 2 ^ 16) (hunits : units < 2 ^ 16)
    (hcid : cid < 2 ^ 16) (hoff : off < 2 ^ 64) (hcnt : cnt < 2 ^ 32) :
    let h := rxHeader kind conn units cid off cnt
    h.setWidth 8 = BitVec.ofNat 8 kind ∧ rxConn h = BitVec.ofNat 16 conn ∧ ((h >>> 32).setWidth 16).toNat = units ∧
      (h >>> 48).setWidth 16 = BitVec.ofNat 16 cid ∧ (h >>> 64).toNat % 2 ^ 64 = off ∧ (h >>> 128).toNat % 2 ^ 32 = cnt := by
  intro h
  have hval : h.toNat = kind + 2 ^ 16 * conn + 2 ^ 32 * units + 2 ^ 48 * cid + 2 ^ 64 * off + 2 ^ 128 * cnt := by
    simp only [h, rxHeader, BitVec.toNat_ofNat]
    exact Nat.mod_eq_of_lt (by omega)
  refine ⟨?_, ?_, ?_, ?_, ?_, ?_⟩
  · apply BitVec.eq_of_toNat_eq
    rw [BitVec.toNat_setWidth, hval, BitVec.toNat_ofNat]
    omega
  · apply BitVec.eq_of_toNat_eq
    rw [rxConn, BitVec.toNat_setWidth, BitVec.toNat_ushiftRight, hval, BitVec.toNat_ofNat, Nat.shiftRight_eq_div_pow]
    omega
  · rw [BitVec.toNat_setWidth, BitVec.toNat_ushiftRight, hval, Nat.shiftRight_eq_div_pow]
    omega
  · apply BitVec.eq_of_toNat_eq
    rw [BitVec.toNat_setWidth, BitVec.toNat_ushiftRight, hval, BitVec.toNat_ofNat, Nat.shiftRight_eq_div_pow]
    omega
  · rw [BitVec.toNat_ushiftRight, hval, Nat.shiftRight_eq_div_pow]
    omega
  · rw [BitVec.toNat_ushiftRight, hval, Nat.shiftRight_eq_div_pow]
    omega

/-- The one item of a queue, where the test picks it. -/
theorem takeItems_one {f : BitVec 256 → Bool} {h : BitVec 256} {us : List (BitVec 256)} (hn : ((h >>> 32).setWidth 16).toNat = us.length)
    (hf : f h = true) :
    takeItems f (h :: us).length (h :: us) = ([], [(h, us)]) := by
  have hnil : ∀ k, takeItems f k [] = ([], []) := fun k => by cases k <;> rfl
  rw [List.length_cons, takeItems]
  simp only [hn, List.drop_length, List.take_length, hnil, hf, if_true]

end Sys2Proof.Machine

namespace Sys2Proof.Machine

variable {conn : BitVec 16} {s : State}

/-! ## The entry of a command that changes -/

theorem mem_of_liveCmd {cid : BitVec 16} {c : Cmd} (h : liveCmd s conn cid = some c) : c ∈ s.tables.cmds ∧ c.conn = conn ∧ c.cid = cid := by
  have hp := List.find?_some h
  simp only [Bool.and_eq_true, decide_eq_true_eq] at hp
  exact ⟨List.mem_of_find?_eq_some h, hp.1.2, hp.2⟩

/-- What a command is found by. -/
def foundBy (c : Cmd) : Bool × Bool × BitVec 16 × BitVec 16 := (c.internal, c.closed, c.conn, c.cid)

/-- The entry of a command that has changed, where the change keeps what it is found by. -/
theorem liveCmd_updCmd {cid : BitVec 16} {c : Cmd} {f : Cmd → Cmd} (h : liveCmd s conn cid = some c) (hf : foundBy (f c) = foundBy c) :
    liveCmd (updCmd c f s) conn cid = some (f c) := by
  have hkeep : ∀ x, foundBy (if x = c then f x else x) = foundBy x := fun x => by
    split
    · next hx => rw [hx, hf]
    · rfl
  have hpred : ((fun c : Cmd => !c.internal && !c.closed && decide (c.conn = conn) && decide (c.cid = cid)) ∘ fun x => if x = c then f x else x) =
      fun c : Cmd => !c.internal && !c.closed && decide (c.conn = conn) && decide (c.cid = cid) := funext fun x => by
    have hx := hkeep x
    unfold foundBy at hx
    simp only [Prod.mk.injEq] at hx
    obtain ⟨hint, hclosed, hconn, hcid⟩ := hx
    simp only [Function.comp_apply, hint, hclosed, hconn, hcid]
  unfold liveCmd at h ⊢
  change (s.tables.cmds.map (fun x => if x = c then f x else x)).find? _ = _
  rw [List.find?_map, hpred, h, Option.map_some, if_pos rfl]

/-! ## Requests for data (R238, R289) -/

/-- A command's entry but for its requests for data. -/
def unasked (c : Cmd) : Cmd := { c with asked := [], nextAsk := 0 }

/-- What the requests of queue pairs for data leave alone. -/
def offAsk (s : State) : SMap Spindle × SMap (BitVec 8) × Media × SMap Conn × List Cmd :=
  (s.spindles, s.mem, s.media, s.xpt.conns, s.tables.cmds.map unasked)

theorem offAsk_updCmd (c : Cmd) {f : Cmd → Cmd} (hf : ∀ x, unasked (f x) = unasked x) (s : State) : offAsk (updCmd c f s) = offAsk s := by
  have hmap : (updCmd c f s).tables.cmds.map unasked = s.tables.cmds.map unasked := by
    change (s.tables.cmds.map (fun x => if x = c then f x else x)).map unasked = _
    rw [List.map_map]
    refine List.map_congr_left fun x _ => ?_
    rw [Function.comp_apply]
    split
    · exact hf x
    · rfl
  unfold offAsk
  rw [hmap]
  rfl

theorem connOf_of_offAsk {t : State} (h : offAsk t = offAsk s) (j : Nat) : connOf t j = connOf s j := by
  have hconns : t.xpt.conns = s.xpt.conns := congrArg (·.2.2.2.1) h
  rw [connOf, hconns, connOf]

theorem offAsk_sendAsk {c : Cmd} (len addr : Nat) (key : BitVec 32) (h : (connOf s c.conn.toNat).tcp = false) :
    offAsk (sendAsk c len addr key s) = offAsk s := by
  unfold sendAsk
  extract_lets k t
  rw [if_neg (by rw [show k.tcp = false from h]; decide)]
  change offAsk t = _
  refine offAsk_updCmd c ?_ s
  intro x
  rfl

theorem offAsk_askData {cid : BitVec 16} (f : Nat) : ∀ s : State, (connOf s conn.toNat).tcp = false → offAsk (askData conn cid f s) = offAsk s := by
  induction f with
  | zero => intro s _; rfl
  | succ f ih =>
    intro s h
    rw [askData]
    split
    · rfl
    · next c hc =>
      obtain ⟨-, hconn, -⟩ := mem_of_liveCmd hc
      split
      · rfl
      · next len addr key hask =>
        have hsend := offAsk_sendAsk len addr key (hconn ▸ h : (connOf s c.conn.toNat).tcp = false)
        rw [ih _ (by rw [connOf_of_offAsk hsend]; exact h), hsend]

theorem offAsk_askOn (h : (connOf s conn.toNat).tcp = false) : offAsk (askOn conn s) = offAsk s := by
  unfold askOn
  generalize s.tables.cmds.filter _ = l
  induction l generalizing s with
  | nil => rfl
  | cons c l ih =>
    have hone := offAsk_askData (cid := c.cid) 17 s h
    rw [List.foldl_cons, ih (by rw [connOf_of_offAsk hone]; exact h), hone]

/-! ## Write data that answers a request (R231, R287, R288) -/

/-- A command's entry after data has answered one of its requests. -/
def askMoved (r : Nat × Nat) (len : Nat) (c : Cmd) : Cmd := { c with asked := moveAsk r len c.asked }

/-- The state once an item of write data lies in its spindle's RXQ. -/
def dataQueued (c : Cmd) (r : Nat × Nat) (data : List (BitVec 8)) (s : State) : State :=
  pushRx (spindleOf s c.conn.toNat) (rxHeader 2 c.conn.toNat (bytesUnits data).length c.cid.toNat r.1 data.length :: bytesUnits data)
    (updCmd c (askMoved r data.length) s)

theorem connClass_dataQueued (c : Cmd) (r : Nat × Nat) (data : List (BitVec 8)) (s : State) (k : Nat) :
    connClass (dataQueued c r data s) k = connClass s k := rfl

theorem rxq_dataQueued (c : Cmd) (r : Nat × Nat) (data : List (BitVec 8)) (s : State) :
    spn (dataQueued c r data s) (spindleOf s c.conn.toNat) = { spn s (spindleOf s c.conn.toNat) with rxq := (spn s (spindleOf s c.conn.toNat)).rxq ++
      (rxHeader 2 c.conn.toNat (bytesUnits data).length c.cid.toNat r.1 data.length :: bytesUnits data) } := by
  rw [dataQueued, pushRx, spn_modSpn_same]
  rfl

theorem parseRuns_dataQueued (c : Cmd) (r : Nat × Nat) (data : List (BitVec 8)) (s : State) (cls : Nat) :
    parseRuns (dataQueued c r data s) (spindleOf s c.conn.toNat) cls = parseRuns s (spindleOf s c.conn.toNat) cls := by
  unfold parseRuns spindleTakes
  rw [rxq_dataQueued]
  rfl

theorem pushData_eq (c : Cmd) (r : Nat × Nat) (data : List (BitVec 8)) (s : State) : pushData c r data s =
    if parseRuns s (spindleOf s c.conn.toNat) (connClass s c.conn.toNat) = true then
      takeData (fun k => connClass (dataQueued c r data s) k.toNat = connClass s c.conn.toNat) (spindleOf s c.conn.toNat) (dataQueued c r data s)
    else dataQueued c r data s := by
  rw [← parseRuns_dataQueued c r data s]
  rfl

end Sys2Proof.Machine

namespace Sys2Proof.Machine

variable {conn : BitVec 16} {s : State}

/-- A command's entry once data at an offset has been staged. -/
def dataStaged (off : Nat) (data : List (BitVec 8)) (c : Cmd) : Cmd :=
  { c with left := c.left - data.length, staged := c.staged + min data.length c.left, rx := putAt off data c.rx
           came := c.came ++ [(off, off + data.length)] }

/-- Data that does not complete a write is staged in its command's entry. -/
theorem stageData_part {c : Cmd} {off : Nat} {data : List (BitVec 8)} (h : data.length < c.left) (s : State) :
    stageData c off data s = updCmd c (fun _ => dataStaged off data c) s := by
  have hleft : ¬ (dataStaged off data c).left = 0 := by
    change ¬ c.left - data.length = 0
    omega
  unfold stageData
  extract_lets c' t
  exact if_neg hleft

/-- The item that data of a command makes names the command and where the data lies. -/
theorem dataHeader_fields {c : Cmd} {off : Nat} {data : List (BitVec 8)} (hdata : data.length ≤ 9216) (hoff : off < 2 ^ 64) :
    let h := rxHeader 2 c.conn.toNat (bytesUnits data).length c.cid.toNat off data.length
    h.setWidth 8 = 2#8 ∧ rxConn h = c.conn ∧ ((h >>> 32).setWidth 16).toNat = (bytesUnits data).length ∧ (h >>> 48).setWidth 16 = c.cid ∧
      (h >>> 64).toNat % 2 ^ 64 = off ∧ (h >>> 128).toNat % 2 ^ 32 = data.length := by
  intro h
  have hunits := length_bytesUnits data
  obtain ⟨hkind, hconn, hn, hcid, hat, hcnt⟩ := rxHeader_fields (kind := 2) (conn := c.conn.toNat) (units := (bytesUnits data).length)
    (cid := c.cid.toNat) (off := off) (cnt := data.length) (by decide) c.conn.isLt (by omega) c.cid.isLt hoff (by omega)
  exact ⟨hkind, by rw [hconn]; simp, hn, by rw [hcid]; simp, hat, hcnt⟩

/-- An item of write data is staged for the command that waits for it. -/
theorem stageItem_data {c : Cmd} {off : Nat} {data : List (BitVec 8)} (hlive : liveCmd s c.conn c.cid = some c) (hphase : c.phase = .waitData)
    (hdata : data.length ≤ 9216) (hoff : off < 2 ^ 64) :
    stageItem s (rxHeader 2 c.conn.toNat (bytesUnits data).length c.cid.toNat off data.length, bytesUnits data) = stageData c off data s := by
  obtain ⟨-, hconn, -, hcid, hat, hcnt⟩ := dataHeader_fields (c := c) hdata hoff
  unfold stageItem
  simp only [hconn, hcid, hlive, hphase, if_true, hat, hcnt, unitsBytes_bytesUnits]

/-- The one item of an RXQ that a parse slot takes is staged. -/
theorem takeData_one {f : BitVec 16 → Bool} {n : Nat} {h : BitVec 256} {us : List (BitVec 256)} (hrxq : (spn s n).rxq = h :: us)
    (hkind : h.setWidth 8 = 2#8) (hn : ((h >>> 32).setWidth 16).toNat = us.length) (hf : f (rxConn h) = true) :
    takeData f n s = stageItem (modSpn n (fun x => { x with rxq := [] }) s) (h, us) := by
  have htest : (decide (h.setWidth 8 = 2#8) && f (rxConn h)) = true := by rw [hkind, hf]; rfl
  unfold takeData
  rw [hrxq, takeItems_one (f := fun h => decide (h.setWidth 8 = 2#8) && f (rxConn h)) hn htest]
  rfl

theorem spn_updCmd (c : Cmd) (f : Cmd → Cmd) (n : Nat) : spn (updCmd c f s) n = spn s n :=
  spn_of_spindles (modTables_spindles _ s) n

/-- The state once a parse slot has taken the item of data off its RXQ. -/
def itemTaken (c : Cmd) (r : Nat × Nat) (data : List (BitVec 8)) (s : State) : State :=
  modSpn (spindleOf s c.conn.toNat) (fun x => { x with rxq := [] }) (dataQueued c r data s)

theorem liveCmd_itemTaken {c : Cmd} (r : Nat × Nat) (data : List (BitVec 8)) (h : liveCmd s c.conn c.cid = some c) :
    liveCmd (itemTaken c r data s) c.conn c.cid = some (askMoved r data.length c) := by
  have htables : (itemTaken c r data s).tables = (updCmd c (askMoved r data.length) s).tables := by
    simp only [itemTaken, dataQueued, pushRx, modSpn_tables]
  unfold liveCmd
  rw [htables]
  exact liveCmd_updCmd h rfl

/-- The state once an item has been staged that did not complete its write. -/
def itemStaged (c : Cmd) (r : Nat × Nat) (data : List (BitVec 8)) (s : State) : State :=
  let m := askMoved r data.length c
  updCmd m (fun _ => dataStaged r.1 data m) (itemTaken c r data s)

/-- Data of a write that does not complete it is staged at once where a parse slot runs and nothing waits before it. -/
theorem pushData_staged {c : Cmd} {r : Nat × Nat} {data : List (BitVec 8)} (hlive : liveCmd s c.conn c.cid = some c) (hphase : c.phase = .waitData)
    (hruns : parseRuns s (spindleOf s c.conn.toNat) (connClass s c.conn.toNat) = true) (hrxq : (spn s (spindleOf s c.conn.toNat)).rxq = [])
    (hdata : data.length ≤ 9216) (hoff : r.1 < 2 ^ 64) (hleft : data.length < c.left) : pushData c r data s = itemStaged c r data s := by
  obtain ⟨hkind, hconn, hn, -⟩ := dataHeader_fields (c := c) hdata hoff
  have hqueue : (spn (dataQueued c r data s) (spindleOf s c.conn.toNat)).rxq =
      rxHeader 2 c.conn.toNat (bytesUnits data).length c.cid.toNat r.1 data.length :: bytesUnits data := by
    rw [rxq_dataQueued, hrxq]
    rfl
  rw [pushData_eq, if_pos hruns, takeData_one hqueue hkind hn (by rw [hconn]; exact decide_eq_true rfl)]
  exact (stageItem_data (c := askMoved r data.length c) (s := itemTaken c r data s) (liveCmd_itemTaken r data hlive) hphase hdata hoff).trans
    (stageData_part (c := askMoved r data.length c) hleft _)

theorem liveCmd_itemStaged {c : Cmd} {r : Nat × Nat} {data : List (BitVec 8)} (hlive : liveCmd s c.conn c.cid = some c) :
    liveCmd (itemStaged c r data s) c.conn c.cid = some (dataStaged r.1 data (askMoved r data.length c)) :=
  liveCmd_updCmd (liveCmd_itemTaken r data hlive) rfl

theorem rxq_itemStaged (c : Cmd) (r : Nat × Nat) (data : List (BitVec 8)) (s : State) :
    (spn (itemStaged c r data s) (spindleOf s c.conn.toNat)).rxq = [] := by
  rw [itemStaged, spn_updCmd, itemTaken, spn_modSpn_same]

theorem pushData_queued {c : Cmd} {r : Nat × Nat} {data : List (BitVec 8)}
    (hruns : parseRuns s (spindleOf s c.conn.toNat) (connClass s c.conn.toNat) = false) : pushData c r data s = dataQueued c r data s := by
  rw [pushData_eq, if_neg (by rw [hruns]; decide)]

/-! ## A response to an RDMA READ -/

/-- Data that goes beyond its request, or a last packet that falls short of it. -/
def misfits (op : BitVec 8) (r : Nat × Nat) (data : List (BitVec 8)) : Bool :=
  r.2 < r.1 + data.length || ((op = 0x0F || op = 0x10) && r.1 + data.length ≠ r.2)

theorem misfits_iff {op : BitVec 8} {r : Nat × Nat} {data : List (BitVec 8)} :
    misfits op r data = true ↔ r.2 < r.1 + data.length ∨ (op = 0x0F ∨ op = 0x10) ∧ r.1 + data.length ≠ r.2 := by
  simp only [misfits, Bool.or_eq_true, Bool.and_eq_true, decide_eq_true_eq]

/-- The state before a response's data is looked at. -/
def responded (conn : BitVec 16) (ecn : Bool) (s : State) : State := noteEcn conn ecn (rxTake conn.toNat s)

theorem responded_frame (conn : BitVec 16) (ecn : Bool) (s : State) :
    offNet (responded conn ecn s) = offNet s ∧ unmarked (connOf (responded conn ecn s) conn.toNat) = unmarked (took (connOf s conn.toNat)) ∧
      ∀ j, j ≠ conn.toNat → connOf (responded conn ecn s) j = connOf s j := by
  obtain ⟨hnet, -, hothers⟩ := beside_fields (beside_rxTake conn.toNat s)
  obtain ⟨hnet', hself, hothers', -⟩ := noteEcn_frame conn ecn (rxTake conn.toNat s)
  exact ⟨hnet'.trans hnet, hself.trans (congrArg unmarked (connOf_rxTake _ s)), fun j hj => (hothers' j hj).trans (hothers j hj)⟩

theorem exec_rdmaReadResponse {cid : BitVec 16} {op : BitVec 8} {data : List (BitVec 8)} {ecn : Bool} {m : Cmd} {r : Nat × Nat} {rest : List
    (Nat × Nat)}
    (h : connReady s conn.toNat = true ∧ (connOf s conn.toNat).tcp = false) (hlo : 0x0D ≤ op.toNat) (hhi : op.toNat ≤ 0x10)
    (hlive : liveCmd s conn cid = some m) (hasked : m.asked = r :: rest) :
    exec (.rdmaReadResponse conn cid op data ecn) s =
      if misfits op r data = true then .next (closeConnection conn.toNat true 1 (responded conn ecn s))
      else .next (askOn conn (pushData m r data (responded conn ecn s))) := by
  obtain ⟨hnet, -⟩ := responded_frame conn ecn s
  obtain ⟨-, htables, -⟩ := offNet_fields hnet
  have hlive' : liveCmd (responded conn ecn s) conn cid = some m := by
    unfold liveCmd
    rw [htables]
    exact hlive
  have hop : ¬ (op.toNat < 0x0D || 0x10 < op.toNat) = true := by
    simp only [Bool.or_eq_true, decide_eq_true_eq]
    omega
  change execRdmaReadResponse conn cid op data ecn s = _
  unfold execRdmaReadResponse
  rw [if_pos (ready_guard h)]
  extract_lets u v last
  rw [if_neg hop, show liveCmd v conn cid = some m from hlive']
  have hhead : m.asked.head? = some r := by rw [hasked]; rfl
  simp only [hhead]
  rfl

theorem rdmaReadResponse_misfits {cid : BitVec 16} {op : BitVec 8} {data : List (BitVec 8)} {ecn : Bool} {m : Cmd} {r : Nat × Nat} {rest : List
    (Nat × Nat)}
    (h : connReady s conn.toNat = true ∧ (connOf s conn.toNat).tcp = false) (hlo : 0x0D ≤ op.toNat) (hhi : op.toNat ≤ 0x10)
    (hlive : liveCmd s conn cid = some m) (hasked : m.asked = r :: rest) (hmis : misfits op r data = true) :
    closes (.rdmaReadResponse conn cid op data ecn) conn 0x0811 1 s := by
  obtain ⟨hnet, hself, hothers⟩ := responded_frame conn ecn s
  obtain ⟨hopen, -, -, hvc, -⟩ := took_fields (connOf s conn.toNat)
  have f := fun {β : Type} (g : Conn → β) => (congrArg g hself : g (unmarked _) = g (unmarked _))
  exact closes_of_closeConnection (reason := 1) ((exec_rdmaReadResponse h hlo hhi hlive hasked).trans (if_pos hmis))
    ((f Conn.isOpen).trans (hopen.trans (connReady_isOpen h.1))) ((f Conn.vc).trans hvc) hnet hothers

/-- Data that fits its request goes through its spindle's RXQ, and the next requests follow. -/
theorem rdmaReadResponse_fits {cid : BitVec 16} {op : BitVec 8} {data : List (BitVec 8)} {ecn : Bool} {m : Cmd} {r : Nat × Nat} {rest : List
    (Nat × Nat)}
    (h : connReady s conn.toNat = true ∧ (connOf s conn.toNat).tcp = false) (hlo : 0x0D ≤ op.toNat) (hhi : op.toNat ≤ 0x10)
    (hlive : liveCmd s conn cid = some m) (hasked : m.asked = r :: rest) (hfits : ¬ misfits op r data = true)
    (P : State → Prop) (hP : ∀ u, u.spindles = s.spindles → u.tables = s.tables → u.store = s.store → u.mem = s.mem → u.media = s.media →
      u.reel = s.reel → connClass u conn.toNat = connClass s conn.toNat → (connOf u conn.toNat).tcp = false → P (askOn conn (pushData m r data u))) :
    ∃ t, exec (.rdmaReadResponse conn cid op data ecn) s = .next t ∧ P t := by
  obtain ⟨hnet, hself, -⟩ := responded_frame conn ecn s
  obtain ⟨hspindles, htables, -, -, hstore, hmem, hmedia, hreel, hvct, -⟩ := offNet_fields hnet
  obtain ⟨-, htcp, -, hvc, -⟩ := took_fields (connOf s conn.toNat)
  have f := fun {β : Type} (g : Conn → β) => (congrArg g hself : g (unmarked _) = g (unmarked _))
  refine ⟨_, (exec_rdmaReadResponse h hlo hhi hlive hasked).trans (if_neg hfits),
    hP _ hspindles htables hstore hmem hmedia hreel ?_ ((f Conn.tcp).trans (htcp.trans h.2))⟩
  have hvc' : (connOf (responded conn ecn s) conn.toNat).vc = (connOf s conn.toNat).vc := (f Conn.vc).trans hvc
  have hvcOf : ∀ v, vcOf (responded conn ecn s) v = vcOf s v := fun v => by rw [vcOf, hvct, vcOf]
  unfold connClass
  rw [hvc']
  simp only [hvcOf]

end Sys2Proof.Machine

namespace Sys2Proof.Machine

variable {conn : BitVec 16} {s : State}

theorem connOf_dataQueued (c : Cmd) (r : Nat × Nat) (data : List (BitVec 8)) (s : State) (j : Nat) : connOf
    (dataQueued c r data s) j = connOf s j := rfl

/-- Data that waits in its spindle's RXQ: the memory and the media are as they were. -/
theorem askOn_dataQueued {m : Cmd} {r : Nat × Nat} {data : List (BitVec 8)} {u : State} (hconn : m.conn = conn) (htcp :
    (connOf u conn.toNat).tcp = false) :
    let t := askOn conn (dataQueued m r data u)
    t.mem = u.mem ∧ t.media = u.media ∧ (spn t (spindleOf u conn.toNat)).rxq = (spn u (spindleOf u conn.toNat)).rxq ++
      rxHeader 2 conn.toNat (bytesUnits data).length m.cid.toNat r.1 data.length :: bytesUnits data := by
  intro t
  have hoff : offAsk t = offAsk (dataQueued m r data u) := offAsk_askOn htcp
  have hspindles : t.spindles = (dataQueued m r data u).spindles := congrArg (·.1) hoff
  have hmem : t.mem = (dataQueued m r data u).mem := congrArg (·.2.1) hoff
  have hmedia : t.media = (dataQueued m r data u).media := congrArg (·.2.2.1) hoff
  subst hconn
  refine ⟨hmem, hmedia, ?_⟩
  rw [spn_of_spindles hspindles, rxq_dataQueued]

theorem itemStaged_frame (m : Cmd) (r : Nat × Nat) (data : List (BitVec 8)) (u : State) :
    (itemStaged m r data u).mem = u.mem ∧ (itemStaged m r data u).media = u.media ∧ ∀ j, connOf (itemStaged m r data u) j = connOf u j := by
  refine ⟨?_, ?_, connOf_of_xpt ?_⟩
  · simp only [itemStaged, updCmd, putCmds, modTables_mem, itemTaken, modSpn_mem, dataQueued, pushRx]
  · simp only [itemStaged, updCmd, putCmds, modTables_media, itemTaken, modSpn_media, dataQueued, pushRx]
  · simp only [itemStaged, updCmd, putCmds, modTables_xpt, itemTaken, modSpn_xpt, dataQueued, pushRx]

/-- Data that has been staged: the memory and the media are as they were, and the command's entry has the data. -/
theorem askOn_itemStaged {m : Cmd} {r : Nat × Nat} {data : List (BitVec 8)} {u : State} (hconn : m.conn = conn) (htcp :
    (connOf u conn.toNat).tcp = false)
    (hlive : liveCmd u m.conn m.cid = some m) (hleft : data.length < m.left) :
    let t := askOn conn (itemStaged m r data u)
    t.mem = u.mem ∧ t.media = u.media ∧ (spn t (spindleOf u conn.toNat)).rxq = [] ∧
      ∃ y ∈ t.tables.cmds, y.conn = conn ∧ y.cid = m.cid ∧ y.left = m.left - data.length ∧ y.staged = m.staged + data.length ∧
        y.rx = putAt r.1 data m.rx := by
  intro t
  obtain ⟨hmem, hmedia, hconns⟩ := itemStaged_frame m r data u
  have hoff : offAsk t = offAsk (itemStaged m r data u) := offAsk_askOn (by rw [hconns, htcp])
  have hspindles : t.spindles = (itemStaged m r data u).spindles := congrArg (·.1) hoff
  have hmem' : t.mem = (itemStaged m r data u).mem := congrArg (·.2.1) hoff
  have hmedia' : t.media = (itemStaged m r data u).media := congrArg (·.2.2.1) hoff
  have hcmds : t.tables.cmds.map unasked = (itemStaged m r data u).tables.cmds.map unasked := congrArg (·.2.2.2.2) hoff
  subst hconn
  refine ⟨hmem'.trans hmem, hmedia'.trans hmedia, ?_, ?_⟩
  · rw [spn_of_spindles hspindles, rxq_itemStaged]
  · obtain ⟨hin, -⟩ := mem_of_liveCmd (liveCmd_itemStaged (r := r) (data := data) hlive)
    obtain ⟨y, hy, hun⟩ : ∃ y ∈ t.tables.cmds, unasked y = unasked (dataStaged r.1 data (askMoved r data.length m)) :=
      List.mem_map.mp (hcmds ▸ List.mem_map_of_mem hin)
    have f := fun {β : Type} (g : Cmd → β) => (congrArg g hun : g (unasked y) = g (unasked _))
    refine ⟨y, hy, f Cmd.conn, f Cmd.cid, f Cmd.left, (f Cmd.staged).trans ?_, f Cmd.rx⟩
    change m.staged + min data.length m.left = _
    rw [Nat.min_eq_left hleft.le]

end Sys2Proof.Machine

namespace Sys2Proof.Machine

variable {s : State}

/-! ## A frame that leaves (R57, R253, R256, R261, R266) -/

/-- A run of units is pushed into a queue that has room for all of them. -/
theorem pushRun_of_room {x n slot : Nat} (m : Nat) : ∀ (k : Nat) (s : State),
    mget 0 s.reel.xq (crossingKey x n) + (mget [] s.reel.xfly (crossingKey x n)).length + m ≤ crossingDepth x →
      ∃ fly, pushRun x n slot k m s = (true, inFlightTo fly s) := by
  induction m with
  | zero => intro k s _; exact ⟨s.reel.xfly, rfl⟩
  | succ m ih =>
    intro k s h
    have hload : crossingLoad s x n (s.reel.core + k) < crossingDepth x := by
      have := List.length_filter_le (fun t => decide (s.reel.core + k < t ∧ t ≤ s.reel.core + k + crossingMax x)) (mget [] s.reel.xfly
        (crossingKey x n))
      unfold crossingLoad
      omega
    have hfull : crossingFull x n (s.reel.core + k) s = (false, s) := if_pos hload
    have hpush : ∃ fly, pushUnit x n slot k s = (true, inFlightTo fly s) ∧ (mget [] fly (crossingKey x n)).length ≤
        (mget [] s.reel.xfly (crossingKey x n)).length + 1 := by
      unfold pushUnit
      simp only [hfull]
      refine ⟨_, rfl, ?_⟩
      rw [mget_mset_same, List.length_append]
      have := List.length_filter_le (fun t => decide (s.reel.core < t)) (mget [] s.reel.xfly (crossingKey x n))
      simpa using this
    obtain ⟨fly, hfly, hlen⟩ := hpush
    obtain ⟨fly', hrest⟩ := ih (k + 1) (inFlightTo fly s) (by change mget 0 s.reel.xq _ + (mget [] fly _).length + m ≤ _; omega)
    refine ⟨fly', ?_⟩
    rw [pushRun, hfly]
    exact hrest

/-- What the bytes of a frame leave alone: the time, the ports, the entries of the connections and the frames to send. -/
def offWire (s : State) : BitVec 64 × Span × SMap Port × SMap Conn × List TxFrame := (s.now, s.span, s.ports, s.xpt.conns, s.xpt.tx)

theorem offWire_wireBytes (f : TxFrame) (seq : BitVec 32) (s : State) : offWire (wireBytes f seq s).2 = offWire s := by
  unfold wireBytes
  extract_lets send
  split
  · rfl
  · split <;> rfl

theorem offWire_markSent (conn : BitVec 16) (f : TxFrame) (s : State) : offWire (markSent conn f s) = offWire s := by
  unfold markSent
  split <;> rfl

theorem offWire_putOnWire (path : Nat) (f : TxFrame) (seq : BitVec 32) (s : State) :
    offWire (putOnWire path f seq s) = offWire (netCount (path / 4) (path % 4) 1 1 s) := by
  have hbytes := offWire_wireBytes f seq (netCount (path / 4) (path % 4) 1 1 s)
  unfold putOnWire
  generalize netCount (path / 4) (path % 4) 1 1 s = t at *
  have hwire : ∀ l, offWire (modXpt (fun u => { u with wire := mset [] path l u.wire }) (wireBytes f seq t).2) = offWire t := fun l => hbytes
  split
  next w u hw =>
    rw [hw] at hwire
    split
    · exact (offWire_markSent _ _ _).trans (hwire _)
    · exact hwire _

theorem offWire_noteSent_none {path : Nat} {f : TxFrame} (h : f.ptp = none) (s : State) : offWire (noteSent path f s) = offWire s := by
  unfold noteSent
  rw [h]

/-- What a frame leaves on its sub-port: its count, its bytes and, of an event message, its time. -/
def frameOut (path : Nat) (f : TxFrame) (seq : BitVec 32) (fits : Bool) (s : State) : State :=
  if !fits then s
  else if bit (portOf s (path / 4)).up (path % 4) then noteSent path f (putOnWire path f seq s)
  else netCount (path / 4) (path % 4) 5 1 s

end Sys2Proof.Machine

namespace Sys2Proof.Machine

variable {s : State}

theorem offWire_fields {t : State} (h : offWire t = offWire s) : t.now = s.now ∧ t.span = s.span ∧ t.ports = s.ports ∧ t.xpt.conns = s.xpt.conns ∧
    t.xpt.tx = s.xpt.tx := by
  unfold offWire at h
  simpa only [Prod.mk.injEq] using h

theorem portOf_of_ports {t : State} (h : t.ports = s.ports) (p : Nat) : portOf t p = portOf s p := by
  rw [portOf, h, portOf]

/-- A frame that leaves keeps the connections' entries and the frames that wait. -/
theorem frameOut_frame (path : Nat) (f : TxFrame) (seq : BitVec 32) (fits : Bool) (s : State) :
    (frameOut path f seq fits s).xpt.conns = s.xpt.conns ∧ (frameOut path f seq fits s).xpt.tx = s.xpt.tx ∧
      (f.ptp = none → (frameOut path f seq fits s).now = s.now) := by
  obtain ⟨hnow, -, -, hconns, htx⟩ := offWire_fields (offWire_putOnWire path f seq s)
  unfold frameOut
  split
  · exact ⟨rfl, rfl, fun _ => rfl⟩
  · split
    · unfold noteSent
      split
      · exact ⟨hconns, htx, fun _ => hnow⟩
      · next i hptp => exact ⟨hconns, htx, fun h => absurd (hptp.symm.trans h) (by simp)⟩
    · exact ⟨rfl, rfl, fun _ => rfl⟩

theorem netCount_cnt (p sub k n : Nat) (s : State) :
    mget 0 (portOf (netCount p sub k n s) p).cnt (8 * sub + k) = mget 0 (portOf s p).cnt (8 * sub + k) + BitVec.ofNat 64 n := by
  rw [netCount, portOf_modPort_same, mget_mmod_same]

theorem cnt_noteSent (path : Nat) (f : TxFrame) (s : State) : (portOf (noteSent path f s) (path / 4)).cnt = (portOf s (path / 4)).cnt := by
  unfold noteSent
  split
  · rfl
  · rw [portOf_modPort_same]
    rfl

/-- A frame that its windows take is counted: as sent with link, as discarded without. -/
theorem frameOut_counts {path : Nat} {f : TxFrame} {seq : BitVec 32} (s : State) :
    let j := 8 * (path % 4) + if bit (portOf s (path / 4)).up (path % 4) = true then 1 else 5
    mget 0 (portOf (frameOut path f seq true s) (path / 4)).cnt j = mget 0 (portOf s (path / 4)).cnt j + 1 := by
  obtain ⟨-, -, hports, -⟩ := offWire_fields (offWire_putOnWire path f seq s)
  intro j
  unfold frameOut
  rw [if_neg (by decide)]
  by_cases hup : bit (portOf s (path / 4)).up (path % 4) = true
  · simp only [j, if_pos hup]
    rw [cnt_noteSent, portOf_of_ports hports, netCount_cnt]
    rfl
  · simp only [j, if_neg hup]
    rw [netCount_cnt]
    rfl

/-- A port whose time stamp has been set. -/
def stamped (v : BitVec 64) (i : BitVec 18) (x : Port) : Port := { x with txts := v, txtsId := i, txtsWait := true }

/-- An event message that leaves sets its port's time stamp. -/
theorem frameOut_stamps {path : Nat} {f : TxFrame} {i : BitVec 16} {seq : BitVec 32} (hptp : f.ptp = some i)
    (hup : bit (portOf s (path / 4)).up (path % 4) = true) :
    let t := frameOut path f seq true s
    (portOf t (path / 4)).txts = ptpTime t ∧ (portOf t (path / 4)).txtsId = BitVec.ofNat 2 (path % 4) ++ i ∧ (portOf t
      (path / 4)).txtsWait = true := by
  intro t
  have ht : t = modPort (path / 4) (stamped (ptpTime (passTime (putOnWire path f seq s))) (BitVec.ofNat 2 (path % 4) ++ i))
      (passTime (putOnWire path f seq s)) := by
    simp only [t, frameOut, hup, if_true, noteSent, hptp, Bool.not_true, Bool.false_eq_true, if_false]
    rfl
  rw [ht, portOf_modPort_same]
  exact ⟨rfl, rfl, rfl⟩

/-! ## The record of a frame -/

/-- A connection's entry after one of its frames has left under its sequence number. -/
def sentConn (f : TxFrame) (x : Conn) : Conn :=
  let last := freeField f.desc 40 1 = 1
  if !x.isOpen || !keepsRecord f || f.again then x
  else { x with unack := x.unack ++ [recordOf x f], seqNo := x.seqNo + BitVec.ofNat 32 (seqLen x f)
                txSeq := if x.tls && f.src.isNone && f.kind = 1 && last then x.txSeq + 1 else x.txSeq
                pdu := if f.kind = 1 then (if last then [] else x.pdu ++ pushedBytes f) else x.pdu }

theorem afterSend_eq (k : BitVec 16) (f : TxFrame) (s : State) : afterSend k f s = modConn k.toNat (sentConn f) s := rfl

theorem sentConn_kept {f : TxFrame} {x : Conn} (hopen : x.isOpen = true) (hkeep : keepsRecord f = true) (hagain : f.again = false) :
    (sentConn f x).seqNo = x.seqNo + BitVec.ofNat 32 (seqLen x f) ∧ (sentConn f x).unack = x.unack ++ [recordOf x f] := by
  unfold sentConn
  simp only [hopen, hkeep, hagain]
  exact ⟨rfl, rfl⟩

theorem sentConn_other {f : TxFrame} (x : Conn) (h : keepsRecord f = false ∨ f.again = true) : sentConn f x = x := by
  unfold sentConn
  rcases h with h | h <;> simp [h]

/-- A packet of a queue pair other than an RDMA one takes one sequence number. -/
theorem seqLen_packet {c : Conn} {f : TxFrame} (htcp : c.tcp = false) (hkind : f.kind ≠ 0) : seqLen c f = 1 := by
  unfold seqLen
  have hkind' : ¬ (decide (f.kind = 0) && decide (freeField f.desc 32 8 = 0x0C)) = true := by
    rw [decide_eq_false hkind]
    exact Bool.false_ne_true
  rw [if_neg (by rw [htcp]; decide), if_neg hkind']

/-- The connection of a frame has it recorded; a device frame has none. -/
def recorded (f : TxFrame) (s : State) : State :=
  match f.conn with
  | none => s
  | some k => afterSend k f s

theorem recorded_frame (f : TxFrame) (s : State) : (recorded f s).ports = s.ports ∧ (recorded f s).now = s.now ∧ (recorded f s).span = s.span ∧
    (recorded f s).xpt.tx = s.xpt.tx := by
  unfold recorded
  split
  · exact ⟨rfl, rfl, rfl, rfl⟩
  · rw [afterSend_eq]
    exact ⟨rfl, rfl, rfl, rfl⟩

theorem connOf_recorded_some {f : TxFrame} {k : BitVec 16} (h : f.conn = some k) : connOf (recorded f s) k.toNat = sentConn f (connOf s k.toNat) := by
  unfold recorded
  rw [h]
  exact connOf_modConn_same _ _ s

theorem connOf_recorded_same {f : TxFrame} (h : keepsRecord f = false ∨ f.again = true) (j : Nat) : connOf (recorded f s) j = connOf s j := by
  unfold recorded
  split
  · rfl
  · next k _ =>
    rw [afterSend_eq]
    by_cases hj : j = k.toNat
    · rw [hj, connOf_modConn_same, sentConn_other _ h]
    · rw [connOf_modConn_other _ _ _ hj]

end Sys2Proof.Machine

namespace Sys2Proof.Machine

variable {s : State} {path : BitVec 5} {pre rest : List TxFrame} {f : TxFrame}

/-- The windows take a frame of a connection. -/
def windowsTake (s : State) (f : TxFrame) : Bool :=
  match f.conn with
  | some c => windowTakes s c f
  | none => true

theorem windowsTake_iff (s : State) (f : TxFrame) : windowsTake s f = true ↔ ∀ d, f.conn = some d → windowTakes s d f = true := by
  unfold windowsTake
  split
  · next c hc => simp [hc]
  · next hc => simp [hc]

/-- The oldest frame of a path whose class holds the path's slot. -/
def oldest (s : State) (path : BitVec 5) (pre : List TxFrame) (f : TxFrame) : Prop :=
  f.path = path ∧ frameSlot s f = true ∧ ∀ g ∈ pre, g.path = path → frameSlot s g = false

theorem find_oldest (h : oldest s path pre f) :
    (pre ++ f :: rest).find? (fun f => decide (f.path = path) && frameSlot s f) = some f := by
  obtain ⟨hpath, hslot, hpre⟩ := h
  have hnone : pre.find? (fun f => decide (f.path = path) && frameSlot s f) = none := by
    rw [List.find?_eq_none]
    intro g hg
    by_cases hgp : g.path = path
    · simp [hpre g hg hgp]
    · simp [hgp]
  rw [List.find?_append, hnone, List.find?_cons_of_pos (by simp [hpath, hslot])]
  rfl

theorem erase_oldest (h : oldest s path pre f) : (pre ++ f :: rest).erase f = pre ++ rest := by
  obtain ⟨hpath, hslot, hpre⟩ := h
  have hnot : f ∉ pre := fun hmem => Bool.false_ne_true ((hpre f hmem hpath).symm.trans hslot)
  rw [List.erase_append_right _ hnot, List.erase_cons_head]

/-- The state once a frame has left: it waits no longer, it is on its sub-port, and its connection has it recorded. -/
def frameGone (path : BitVec 5) (f : TxFrame) (seq : BitVec 32) (fits : Bool) (u : State) : State :=
  recorded f (frameOut path.toNat f seq fits (modXpt (fun x => { x with tx := x.tx.erase f }) u))

theorem exec_frameTransmit (htx : s.xpt.tx = pre ++ f :: rest) (h : oldest s path pre f)
    (hroom : mget 0 s.reel.xq (crossingKey 2 (path.toNat / 4)) + (mget [] s.reel.xfly (crossingKey 2
      (path.toNat / 4))).length + frameUnits f ≤ crossingDepth 2) :
    ∃ fly seq, exec (.frameTransmit path) s = .next (frameGone path f seq (windowsTake s f) (inFlightTo fly s)) := by
  obtain ⟨fly, hfly⟩ := pushRun_of_room (slot := (frameGrant s f).elim 0 (·.entry)) (frameUnits f) 0 s hroom
  have hfind : s.xpt.tx.find? (fun f => f.path = path && frameSlot s f) = some f := htx ▸ find_oldest h
  refine ⟨fly, if f.again then f.seq else match f.conn with | some c => (connOf s c.toNat).seqNo | none => 0, ?_⟩
  change execFrameTransmit path s = _
  unfold execFrameTransmit
  cases hc : f.conn <;> simp only [hfind, hfly, hc, frameGone, recorded, windowsTake, frameOut]

theorem exec_frameTransmit_none (h : ∀ f ∈ s.xpt.tx, f.path = path → frameSlot s f = false) : exec (.frameTransmit path) s = .next s := by
  have hfind : s.xpt.tx.find? (fun f => f.path = path && frameSlot s f) = none := by
    rw [List.find?_eq_none]
    intro g hg
    by_cases hgp : g.path = path
    · simp [h g hg hgp]
    · simp [hgp]
  change execFrameTransmit path s = _
  unfold execFrameTransmit
  rw [hfind]

/-- What a frame leaves as it goes. -/
theorem frameGone_effects {seq : BitVec 32} (u : State) :
    let q := path.toNat / 4
    let up := bit (portOf u q).up (path.toNat % 4)
    let t := frameGone path f seq (windowsTake s f) u
    let goes := ∀ d, f.conn = some d → windowTakes s d f = true
    t.xpt.tx = u.xpt.tx.erase f ∧
      (goes → mget 0 (portOf t q).cnt (8 * (path.toNat % 4) + if up then 1 else 5) =
        mget 0 (portOf u q).cnt (8 * (path.toNat % 4) + if up then 1 else 5) + 1) ∧
      (f.ptp = none → t.now = u.now) ∧
      (∀ m, f.ptp = some m → goes → up = true → (portOf t q).txts = spanTime t &&& 0xFFFFFFFFFFFFFFFE ∧
        (portOf t q).txtsId = BitVec.ofNat 2 (path.toNat % 4) ++ m ∧ (portOf t q).txtsWait = true) := by
  intro q up t goes
  obtain ⟨-, htx, hnow⟩ := frameOut_frame path.toNat f seq (windowsTake s f) (modXpt (fun x => { x with tx := x.tx.erase f }) u)
  obtain ⟨hports', hnow', hspan', htx'⟩ := recorded_frame f (frameOut path.toNat f seq (windowsTake s f) (modXpt (fun x =>
      { x with tx := x.tx.erase f }) u))
  have hport : portOf t q = portOf (frameOut path.toNat f seq (windowsTake s f) (modXpt (fun x => { x with tx := x.tx.erase f }) u)) q :=
    portOf_of_ports hports' q
  refine ⟨htx'.trans htx, fun hgoes => ?_, fun h => hnow'.trans (hnow h), fun m hm hgoes hup => ?_⟩
  · rw [hport, (windowsTake_iff s f).mpr hgoes]
    exact frameOut_counts (modXpt (fun x => { x with tx := x.tx.erase f }) u)
  · have hstamps := frameOut_stamps (s := modXpt (fun x => { x with tx := x.tx.erase f }) u) (seq := seq) hm hup
    have htime : spanTime t = spanTime (frameOut path.toNat f seq (windowsTake s f) (modXpt (fun x => { x with tx := x.tx.erase f }) u)) := by
      rw [spanTime, spanTime, ← hnow', ← hspan']
      rfl
    rw [hport, htime, (windowsTake_iff s f).mpr hgoes]
    exact hstamps

theorem connOf_frameGone {seq : BitVec 32} {fits : Bool} (u : State) :
    (∀ d : BitVec 16, f.conn = some d → connOf (frameGone path f seq fits u) d.toNat = sentConn f (connOf u d.toNat)) ∧
      (keepsRecord f = false ∨ f.again = true → ∀ j, connOf (frameGone path f seq fits u) j = connOf u j) := by
  obtain ⟨hconns, -⟩ := frameOut_frame path.toNat f seq fits (modXpt (fun x => { x with tx := x.tx.erase f }) u)
  have hconn : ∀ j, connOf (frameOut path.toNat f seq fits (modXpt (fun x => { x with tx := x.tx.erase f }) u)) j = connOf u j := fun j => by
    rw [connOf, hconns]
    rfl
  refine ⟨fun d hd => ?_, fun h j => ?_⟩
  · rw [frameGone, connOf_recorded_some hd, hconn]
  · rw [frameGone, connOf_recorded_same h, hconn]

end Sys2Proof.Machine

namespace Sys2Proof.Machine

variable {conn : BitVec 16} {s : State}

/-! ## The statement's clauses -/

/-- The oldest frame of a connection is sent again up to the limit of its tries, and then the queue pair closes. -/
def resends (conn : BitVec 16) (s : State) (i : Instr) (c : Conn) (limit : Nat) (tries : RtxRec → Nat) (up : RtxRec → RtxRec) : Prop :=
  ∀ r rest, c.unack = r :: rest → r.sacked = false →
    (tries r < limit → ∃ t, exec i s = .next t ∧ connOf t conn.toNat = withUnack (c.unack.map (fun y => if y = r then up r else y)) c ∧
      (∀ cid, r.cid = some cid → r.frame.src ≠ none →
        (spn t (spindleOf s conn.toNat)).rxq = (spn s (spindleOf s conn.toNat)).rxq ++ [rxHeader 3 conn.toNat 0 cid.toNat r.off.toNat r.len.toNat] ∧
          t.xpt.tx = s.xpt.tx) ∧
      (r.frame.src = none → t.xpt.tx = s.xpt.tx ++ [{ r.frame with again := true, seq := r.seq }] ∧ t.spindles = s.spindles)) ∧
    (limit ≤ tries r → closes i conn 0x0811 3 s)

theorem localAckTimeout_resends (h : connReady s conn.toNat = true ∧ (connOf s conn.toNat).tcp = false) :
    resends conn s (.localAckTimeout conn) (connOf s conn.toNat) 7 (·.tries) (fun r => { r with tries := r.tries + 1 }) :=
  fun _ _ hun hs => resends_of_retransmit (rnr := false) (exec_localAckTimeout h) ⟨connReady_isOpen h.1, h.2⟩ rfl rfl rfl rfl (fun _ _ => rfl) rfl rfl
    rfl rfl rfl hun hs

theorem receiverNotReadyRetry_resends (h : connReady s conn.toNat = true ∧ (connOf s conn.toNat).tcp = false) :
    resends conn s (.receiverNotReadyRetry conn false) (took (connOf s conn.toNat)) 7 (·.rnr) (fun r => { r with rnr := r.rnr + 1 }) := by
  obtain ⟨hnet, htx, hothers⟩ := beside_fields (beside_rxTake conn.toNat s)
  obtain ⟨hspindles, htables, hevr, -, hstore, -⟩ := offNet_fields hnet
  obtain ⟨hopen, htcp, -, hvc, -⟩ := took_fields (connOf s conn.toNat)
  intro r rest hun hs
  exact resends_of_retransmit (rnr := true) (exec_receiverNotReadyRetry false h) ⟨connReady_isOpen h.1, h.2⟩
      (connOf_rxTake _ s) hopen htcp hvc hothers htx
    hspindles (congrArg Tables.cmds htables) hevr hstore hun hs

/-- A NAK of a lost frame that names none of the later ones sends the oldest again. -/
theorem acknowledge_resends {seq : BitVec 32} (h : connReady s conn.toNat = true ∧ (connOf s conn.toNat).tcp = false)
    (hseq : ∀ y ∈ (connOf s conn.toNat).unack, y.seq = seq → (connOf s conn.toNat).unack.head? = some y) :
    resends conn s (.acknowledge conn seq true false) (took (connOf s conn.toNat)) 7 (·.tries) (fun r => { r with tries := r.tries + 1 }) := by
  obtain ⟨hnet, htx, hothers⟩ := beside_fields (beside_rxTake conn.toNat s)
  obtain ⟨hspindles, htables, hevr, -, hstore, -⟩ := offNet_fields hnet
  obtain ⟨hopen, htcp, -, hvc, -, -, hunt, -⟩ := took_fields (connOf s conn.toNat)
  have hconn := connOf_rxTake conn.toNat s
  have hexec := exec_acknowledge seq true h
  rw [if_pos rfl] at hexec
  generalize rxTake conn.toNat s = u at *
  obtain ⟨hself, htx', hspindles', hcmds', hevr', hstore', hothers'⟩ := acknowledged_frame (conn := conn) seq true u
  have hnone : retired (connOf u conn.toNat) seq true = 0 := retired_none (by rw [hconn, hunt]; exact hseq)
  have hsame : connOf (acknowledged conn seq true u) conn.toNat = took (connOf s conn.toNat) := by rw [hself, hnone, hconn]; rfl
  intro r rest hun hs
  exact resends_of_retransmit (rnr := false) hexec ⟨connReady_isOpen h.1, h.2⟩ hsame hopen htcp hvc (fun j hj => (hothers' j hj).trans (hothers j hj))
    (htx'.trans htx) (hspindles'.trans hspindles) (hcmds'.trans (congrArg Tables.cmds htables)) (hevr'.trans hevr) (hstore'.trans hstore) hun hs

/-- Data of a READ response that its request has room for, where no parse slot runs. -/
theorem rdmaReadResponse_queued {cid : BitVec 16} {op : BitVec 8} {data : List (BitVec 8)} {ecn : Bool} {m : Cmd} {r : Nat × Nat} {rest : List
    (Nat × Nat)}
    (h : connReady s conn.toNat = true ∧ (connOf s conn.toNat).tcp = false) (hlo : 0x0D ≤ op.toNat) (hhi : op.toNat ≤ 0x10)
    (hlive : liveCmd s conn cid = some m) (hasked : m.asked = r :: rest) (hfits : ¬ misfits op r data = true)
    (hruns : parseRuns s (spindleOf s conn.toNat) (connClass s conn.toNat) = false) :
    ∃ t, exec (.rdmaReadResponse conn cid op data ecn) s = .next t ∧ t.mem = s.mem ∧ t.media = s.media ∧
      (spn t (spindleOf s conn.toNat)).rxq = (spn s (spindleOf s conn.toNat)).rxq ++
        rxHeader 2 conn.toNat (bytesUnits data).length m.cid.toNat r.1 data.length :: bytesUnits data := by
  obtain ⟨-, hconn, -⟩ := mem_of_liveCmd hlive
  refine rdmaReadResponse_fits h hlo hhi hlive hasked hfits (fun t => t.mem = s.mem ∧ t.media = s.media ∧ (spn t (spindleOf s conn.toNat)).rxq =
    (spn s (spindleOf s conn.toNat)).rxq ++ rxHeader 2 conn.toNat (bytesUnits data).length m.cid.toNat r.1 data.length :: bytesUnits data) ?_
  intro u hspindles _ hstore hmem hmedia hreel hcls htcp
  have hspindle : spindleOf u conn.toNat = spindleOf s conn.toNat := spindleOf_congr hstore _
  have hruns' : parseRuns u (spindleOf u m.conn.toNat) (connClass u m.conn.toNat) = false := by
    rw [hconn, hspindle, hcls, ← hruns]
    unfold parseRuns spindleTakes grantRuns
    rw [spn_of_spindles hspindles, hreel]
  obtain ⟨hmem', hmedia', hrxq⟩ := askOn_dataQueued (r := r) (data := data) hconn htcp
  rw [pushData_queued hruns']
  rw [hspindle, spn_of_spindles hspindles] at hrxq
  exact ⟨hmem'.trans hmem, hmedia'.trans hmedia, hrxq⟩

/-- Data of a READ response that does not complete its write is staged at once in a parse slot. -/
theorem rdmaReadResponse_staged {cid : BitVec 16} {op : BitVec 8} {data : List (BitVec 8)} {ecn : Bool} {m : Cmd} {r : Nat × Nat} {rest : List
    (Nat × Nat)}
    (h : connReady s conn.toNat = true ∧ (connOf s conn.toNat).tcp = false) (hlo : 0x0D ≤ op.toNat) (hhi : op.toNat ≤ 0x10)
    (hlive : liveCmd s conn cid = some m) (hasked : m.asked = r :: rest) (hfits : ¬ misfits op r data = true) (hphase : m.phase = .waitData)
    (hleft : data.length < m.left) (hruns : parseRuns s (spindleOf s conn.toNat) (connClass s conn.toNat) = true)
    (hrxq : (spn s (spindleOf s conn.toNat)).rxq = []) (hdata : data.length ≤ 9216) (hoff : r.1 < 2 ^ 64) :
    ∃ t, exec (.rdmaReadResponse conn cid op data ecn) s = .next t ∧ t.mem = s.mem ∧ t.media = s.media ∧ (spn t (spindleOf s conn.toNat)).rxq = [] ∧
      ∃ y ∈ t.tables.cmds, y.conn = conn ∧ y.cid = m.cid ∧ y.left = m.left - data.length ∧ y.staged = m.staged + data.length ∧
        y.rx = putAt r.1 data m.rx := by
  obtain ⟨-, hconn, hcid⟩ := mem_of_liveCmd hlive
  refine rdmaReadResponse_fits h hlo hhi hlive hasked hfits (fun t => t.mem = s.mem ∧ t.media = s.media ∧ (spn t (spindleOf s conn.toNat)).rxq = [] ∧
    ∃ y ∈ t.tables.cmds, y.conn = conn ∧ y.cid = m.cid ∧ y.left = m.left - data.length ∧ y.staged = m.staged + data.length ∧
      y.rx = putAt r.1 data m.rx) ?_
  intro u hspindles htables hstore hmem hmedia hreel hcls htcp
  have hspindle : spindleOf u conn.toNat = spindleOf s conn.toNat := spindleOf_congr hstore _
  have hruns' : parseRuns u (spindleOf u m.conn.toNat) (connClass u m.conn.toNat) = true := by
    rw [hconn, hspindle, hcls, ← hruns]
    unfold parseRuns spindleTakes grantRuns
    rw [spn_of_spindles hspindles, hreel]
  have hlive' : liveCmd u m.conn m.cid = some m := by
    unfold liveCmd at hlive ⊢
    rw [htables, hconn, hcid]
    exact hlive
  have hempty : (spn u (spindleOf u m.conn.toNat)).rxq = [] := by
    rw [hconn, hspindle, spn_of_spindles hspindles]
    exact hrxq
  obtain ⟨hmem', hmedia', hrxq', hy⟩ := askOn_itemStaged (r := r) hconn htcp hlive' hleft
  rw [pushData_staged hlive' hphase hruns' hempty hdata hoff hleft]
  rw [hspindle] at hrxq'
  exact ⟨hmem'.trans hmem, hmedia'.trans hmedia, hrxq', hy⟩

end Sys2Proof.Machine

namespace Sys2Proof.Machine

/-- Settles O47: each packet of a queue pair is followed through the transport's parts that it passes, a packet's frame and acknowledgment first, and
each closing is that of `closes_of_alike`, whose frames and entry the packet alone changes. -/
theorem roceAndSending : Obligations.RoceAndSending := by
  intro conn s N c n P frame ok took' others' live fits acked' resends' refused
  refine ⟨?send, ?response, ?ack, ?nak, ?timeout, ?rnr, ?marked, ?cnp, ?remote, ?datagram, ?late, ?transmit, ?nothing⟩
  case send =>
    intro op q data ecn hok i
    refine ⟨roceSend_part ecn hok, fun hop => ⟨roceSend_unfit hok hop, fun hfits => ?_⟩, fun hop => ?_⟩
    · obtain ⟨hcmds, harrivals, hpassed, hheld, hack⟩ := takeCapsule_handled ecn hfits
      exact ⟨_, exec_roceSend_last hok hop, hcmds.trans (by rw [capsuleCmd_handled]; rfl), harrivals,
        fun htakes hruns => (hpassed htakes hruns).trans (List.append_assoc _ _ _).symm, hheld, hack⟩
    · exact refuses_of_exec (connReady_isOpen hok.1) (roceSend_refused hok hop)
  case response =>
    intro cid op data ecn hok i
    refine ⟨fun hop => refuses_of_exec (connReady_isOpen hok.1) (exec_rdmaReadResponse_other hok hop), ?_⟩
    intro hlo hhi m r rest hlive hasked short
    have hfits : r.1 + data.length ≤ r.2 → ¬ short → ¬ misfits op r data = true := fun hle hshort hmis =>
      (misfits_iff.mp hmis).elim (fun h => absurd hle (Nat.not_le.mpr h)) hshort
    refine ⟨fun hmis => rdmaReadResponse_misfits hok hlo hhi hlive hasked (misfits_iff.mpr hmis), fun hle hshort hruns => ?_,
      fun hphase hle hshort hleft hruns hrxq hdata hend => ?_⟩
    · exact rdmaReadResponse_queued hok hlo hhi hlive hasked (hfits hle hshort) hruns
    · exact rdmaReadResponse_staged hok hlo hhi hlive hasked (hfits hle hshort) hphase hleft hruns hrxq hdata (by omega)
  case ack =>
    intro hok pre r rest hun hpre
    exact acknowledge_retires hok hun hpre
  case nak => exact fun hok seq hseq => acknowledge_resends hok hseq
  case timeout => exact fun hok => localAckTimeout_resends hok
  case rnr => exact fun hok => receiverNotReadyRetry_resends hok
  case marked => exact fun hok hun hecn => receiverNotReadyRetry_marked hok hun hecn
  case cnp => exact fun hok => cnpReceive_counts hok
  case remote => exact fun hok => refuses_of_exec (connReady_isOpen hok.1) (exec_remoteAccessRequest hok)
  case datagram =>
    intro sub peer far mtu
    refine ⟨⟨_, exec_datagram sub peer far mtu false, xpt_datagramPassed sub s⟩, fun hfree hk => ?_⟩
    obtain ⟨t, room, hexec, hqp1, hself, hothers⟩ := datagram_opens sub peer far mtu hfree hk
    obtain ⟨hmtu, hsize⟩ := pathMtu_offered mtu
    refine ⟨t, hexec, hqp1, ?_⟩
    rw [hself]
    exact ⟨rfl, rfl, rfl, rfl, rfl, rfl, rfl, rfl, rfl, hmtu, hsize, hothers⟩
  case late => exact acknowledgmentTimeout_closes
  case transmit =>
    intro path pre f rest htx hpath hslot hpre q hroom up j goes
    have hold : oldest s path pre f := ⟨hpath, hslot, hpre⟩
    obtain ⟨fly, seq, hexec⟩ := exec_frameTransmit htx hold hroom
    obtain ⟨htx', hcount, hnow, hstamp⟩ := frameGone_effects (s := s) (path := path) (f := f) (seq := seq) (inFlightTo fly s)
    obtain ⟨hkept, hother⟩ := connOf_frameGone (path := path) (f := f) (seq := seq) (fits := windowsTake s f) (inFlightTo fly s)
    refine ⟨_, hexec, ?_, hcount, hnow, hstamp, ?_, fun d hd h m => hother h m⟩
    · exact htx'.trans ((congrArg (List.erase · f) htx).trans (erase_oldest hold))
    · intro d hd hopen hkeep hagain e
      obtain ⟨hseq, hunack⟩ := sentConn_kept (x := e) hopen hkeep hagain
      rw [hkept d hd]
      exact ⟨hseq, seqLen_packet, recordOf e f, hunack, rfl, rfl, rfl⟩
  case nothing => exact fun path h => exec_frameTransmit_none h

end Sys2Proof.Machine

/-! # SUPPORT. The parse of a command that moves logical blocks: its entry, its locks and what it leaves alone (R63, R299 to R304) -/

namespace Sys2Proof.Machine

/-! ## What commands on their way through parse and locks leave alone -/

/-- All but the command and lock tables and the spindles. -/
def offQueue (s : State) : State := { s with spindles := [], tables := {} }

/-- What the places of blocks depend on: neither the tables, the buckets, the memory and its events, nor the reads posted. -/
def offPost (s : State) : State :=
  { s with
    spindles := [], tables := {}, vct := {}, mem := [], poison := [], cores := [], drcs := [], evr := {}, intc := {}, now := 0, draws := 0
    piers := { chans := s.piers.chans }
    reel := { s.reel with cls := [] } }

/-- What depends on a view of the state only is the same where the view is. -/
theorem same_of_view {β : Type} (view : State → State) (F : State → β) (hF : ∀ s, F (view s) = F s) {s t : State}
    (h : view t = view s) : F t = F s := by
  rw [← hF t, h, hF]

theorem offQueue_modTables (f : Tables → Tables) (s : State) : offQueue (modTables f s) = offQueue s := rfl

theorem offQueue_modSpn (n : Nat) (f : Spindle → Spindle) (s : State) : offQueue (modSpn n f s) = offQueue s := rfl

theorem offPost_of_offQueue {s t : State} (h : offQueue t = offQueue s) : offPost t = offPost s := same_of_view offQueue offPost (fun _ => rfl) h

theorem freeStart_offQueue (taken : Nat → Bool) (s : State) (e : SlotEntry) (i o : Nat) : ∀ n c,
    freeStart taken (offQueue s) e i o n c = freeStart taken s e i o n c
  | 0, _ => rfl
  | n + 1, c => by
    have hstart : startFrom (offQueue s) e i o c = startFrom s e i o c := rfl
    rw [freeStart, freeStart, hstart]
    simp only [freeStart_offQueue taken s e i o n]

theorem placeable_offQueue (s : State) (d : DieDesc) : placeable (offQueue s) d = placeable s d := by
  have htakes : placeTakes (offQueue s) = placeTakes s := rfl
  have hentry : slotEntry (offQueue s) = slotEntry s := rfl
  unfold placeable placesFor
  simp only [freeStart_offQueue, htakes, hentry]
  rfl

/-- What a read needs of the deck is the same whatever the tables hold. -/
theorem readSlots_offQueue (s : State) (c : Cmd) (l : List DieDesc) (b : Bool) : readSlots (offQueue s) c l b = readSlots s c l b := by
  unfold readSlots
  simp only [funext (placeable_offQueue s)]
  rfl

section
variable {s t : State} (h : offPost t = offPost s)
include h

theorem splitRead_congr : splitRead t = splitRead s := same_of_view offPost splitRead (fun _ => rfl) h
theorem readyLbas_congr : readyLbas t = readyLbas s := same_of_view offPost readyLbas (fun _ => rfl) h
theorem goodRuns_congr : goodRuns t = goodRuns s := same_of_view offPost goodRuns (fun _ => rfl) h
theorem nsOf_congr : nsOf t = nsOf s := same_of_view offPost nsOf (fun _ => rfl) h
theorem isStaged_congr : isStaged t = isStaged s := same_of_view offPost isStaged (fun _ => rfl) h
theorem dramSlot_congr : dramSlot t = dramSlot s := same_of_view offPost dramSlot (fun _ => rfl) h
theorem rangeOffline_congr : rangeOffline t = rangeOffline s := same_of_view offPost rangeOffline (fun _ => rfl) h
theorem rangePoisoned_congr : rangePoisoned t = rangePoisoned s := same_of_view offPost rangePoisoned (fun _ => rfl) h

end

section
variable {s t : State} (h : offQueue t = offQueue s)
include h

theorem readTokens_congr (c : Cmd) (n : Nat) : readTokens t c n = readTokens s c n := same_of_view offQueue (readTokens · c n) (fun _ => rfl) h
theorem readSlots_congr (c : Cmd) (l : List DieDesc) (b : Bool) : readSlots t c l b = readSlots s c l b :=
  same_of_view offQueue (readSlots · c l b) (fun s => readSlots_offQueue s c l b) h
theorem anyStaged_congr : anyStaged t = anyStaged s := same_of_view offQueue anyStaged (fun _ => rfl) h
theorem overdue_congr : overdue t = overdue s := same_of_view offQueue overdue (fun _ => rfl) h
theorem parseStatus_congr (c : Cmd) : parseStatus t c = parseStatus s c := same_of_view offQueue (parseStatus · c) (fun _ => rfl) h
theorem quiesced_congr (c : Cmd) : quiesced t c = quiesced s c := same_of_view offQueue (quiesced · c) (fun _ => rfl) h

end

end Sys2Proof.Machine

namespace Sys2Proof.Machine

variable {s t : State} {c d : Cmd}

/-! ## The entry of a command that runs -/

/-- What a command's entry is found by, and never changes. -/
def tagOf (c : Cmd) : Bool × Bool × BitVec 16 × BitVec 16 × Nat := (c.internal, c.closed, c.conn, c.cid, c.arrival)

theorem tagOf_fields (h : tagOf d = tagOf c) : d.internal = c.internal ∧ d.closed = c.closed ∧ d.conn = c.conn ∧ d.cid = c.cid ∧
    d.arrival = c.arrival := by
  unfold tagOf at h
  simpa only [Prod.mk.injEq] using h

/-- The table with one command's entry exchanged. -/
def swapped (c d : Cmd) (l : List Cmd) : List Cmd := l.map (fun x => if x = c then d else x)

theorem swapped_self (c : Cmd) (l : List Cmd) : swapped c c l = l := by
  have hid : (fun x : Cmd => if x = c then c else x) = id := funext fun x => by
    by_cases h : x = c
    · simp [h]
    · simp [h]
  rw [swapped, hid, List.map_id]

/-- A search of the table that only the command's own entry meets finds what has taken its place. -/
theorem find_swapped {p : Cmd → Bool} {l : List Cmd} (hc : c ∈ l) (hd : p d = true) (hrest : ∀ x ∈ l, p x = true → x = c) :
    (swapped c d l).find? p = some d := by
  rw [swapped, List.find?_map]
  have hex : ∃ x ∈ l, (p ∘ fun x => if x = c then d else x) x = true := ⟨c, hc, by simp [hd]⟩
  obtain ⟨x, hx⟩ := Option.isSome_iff_exists.mp (List.find?_isSome.mpr hex)
  have hpx := List.find?_some hx
  have hxc : x = c := by
    by_contra hne
    rw [Function.comp_apply, if_neg hne] at hpx
    exact hne (hrest x (List.mem_of_find?_eq_some hx) hpx)
  rw [hx, hxc, Option.map_some, if_pos rfl]

/-- The state's table is that of an earlier state with one command's entry exchanged, under the same queue orders. -/
structure Tracks (s t : State) (c d : Cmd) : Prop where
  cmds : t.tables.cmds = swapped c d s.tables.cmds
  tag : tagOf d = tagOf c
  order : t.tables.nextOrder = s.tables.nextOrder

theorem Tracks.refl (s : State) (c : Cmd) : Tracks s s c c := ⟨(swapped_self c _).symm, rfl, rfl⟩

/-- Work that keeps the table and the orders keeps the entry. -/
theorem Tracks.keep {u : State} (h : Tracks s t c d) (hcmds : u.tables.cmds = t.tables.cmds) (horder : u.tables.nextOrder = t.tables.nextOrder) :
    Tracks s u c d := ⟨hcmds.trans h.cmds, h.tag, horder.trans h.order⟩

/-- The one command of the table with this key. -/
theorem alone_only (ha : alone s c) {x : Cmd} (hx : x ∈ s.tables.cmds) (hint : x.internal = false) (hconn : x.conn = c.conn) (hcid : x.cid = c.cid) :
    x = c := ha.2.2.2 x hx hint hconn hcid

theorem tables_updCmd (c : Cmd) (f : Cmd → Cmd) (s : State) :
    (updCmd c f s).tables = { s.tables with cmds := s.tables.cmds.map (fun x => if x = c then f x else x) } := rfl

/-- A change of the entry as it stands. -/
theorem Tracks.upd (ha : alone s c) (h : Tracks s t c d) (f : Cmd → Cmd) (hf : tagOf (f d) = tagOf d) : Tracks s (updCmd d f t) c (f d) := by
  refine ⟨?_, hf.trans h.tag, ?_⟩
  · rw [tables_updCmd]
    change t.tables.cmds.map _ = _
    rw [h.cmds, swapped, swapped, List.map_map]
    refine List.map_congr_left fun x hx => ?_
    rw [Function.comp_apply]
    by_cases hxc : x = c
    · rw [if_pos hxc, if_pos hxc, if_pos rfl]
    · have hxd : x ≠ d := fun hxd => by
        obtain ⟨hint, -, hconn, hcid, -⟩ := tagOf_fields h.tag
        exact hxc (alone_only ha hx (by rw [hxd, hint, ha.2.1]) (by rw [hxd, hconn]) (by rw [hxd, hcid]))
      rw [if_neg hxc, if_neg hxc, if_neg hxd]
  · rw [tables_updCmd]
    exact h.order

theorem Tracks.liveCmd (ha : alone s c) (h : Tracks s t c d) : liveCmd t c.conn c.cid = some d := by
  obtain ⟨hint, hclosed, hconn, hcid, -⟩ := tagOf_fields h.tag
  unfold Machine.liveCmd
  rw [h.cmds]
  refine find_swapped ha.1 (by simp [hint, hclosed, hconn, hcid, ha.2.1, ha.2.2.1]) fun x hx hp => ?_
  simp only [Bool.and_eq_true, Bool.not_eq_true', decide_eq_true_eq] at hp
  obtain ⟨⟨⟨hxint, -⟩, hxconn⟩, hxcid⟩ := hp
  exact alone_only ha hx hxint hxconn hxcid

theorem Tracks.sameCmd {e : Cmd} (ha : alone s c) (h : Tracks s t c d) (he : tagOf e = tagOf c) : sameCmd t e = some d := by
  obtain ⟨hint, hclosed, hconn, hcid, -⟩ := tagOf_fields h.tag
  obtain ⟨heint, -, heconn, hecid, -⟩ := tagOf_fields he
  unfold Machine.sameCmd
  rw [h.cmds]
  refine find_swapped ha.1 (by simp [hint, hclosed, hconn, hcid, heint, heconn, hecid, ha.2.2.1]) fun x hx hp => ?_
  simp only [Bool.and_eq_true, Bool.not_eq_true', decide_eq_true_eq] at hp
  obtain ⟨⟨⟨hxint, hxconn⟩, hxcid⟩, -⟩ := hp
  exact alone_only ha hx (by rw [hxint, heint, ha.2.1]) (by rw [hxconn, heconn]) (by rw [hxcid, hecid])

theorem Tracks.cmdEntry {e : Cmd} (ha : alone s c) (h : Tracks s t c d) (he : tagOf e = tagOf c) : cmdEntry t e = some d := by
  obtain ⟨hint, -, hconn, hcid, harr⟩ := tagOf_fields h.tag
  obtain ⟨-, -, heconn, hecid, hearr⟩ := tagOf_fields he
  unfold Machine.cmdEntry
  rw [h.cmds]
  refine find_swapped ha.1 (by simp [hint, hconn, hcid, harr, heconn, hecid, hearr, ha.2.1]) fun x hx hp => ?_
  simp only [Bool.and_eq_true, Bool.not_eq_true', decide_eq_true_eq] at hp
  obtain ⟨⟨⟨hxint, hxconn⟩, hxcid⟩, -⟩ := hp
  exact alone_only ha hx hxint (by rw [hxconn, heconn]) (by rw [hxcid, hecid])

theorem Tracks.findJob {j : Job} (ha : alone s c) (h : Tracks s t c d) (hj : (j.int, j.conn, j.cid, j.serial) = (c.internal, c.conn, c.cid,
    c.arrival))
    (hphase : d.phase ≠ .ended) : findJob t j = some d := by
  obtain ⟨hint, -, hconn, hcid, harr⟩ := tagOf_fields h.tag
  simp only [Prod.mk.injEq] at hj
  obtain ⟨hjint, hjconn, hjcid, hjser⟩ := hj
  unfold Machine.findJob
  rw [h.cmds]
  refine find_swapped ha.1 (by simp [hint, hconn, hcid, harr, hjint, hjconn, hjcid, hjser, hphase]) fun x hx hp => ?_
  simp only [Bool.and_eq_true, decide_eq_true_eq] at hp
  obtain ⟨⟨⟨⟨hxint, hxconn⟩, hxcid⟩, -⟩, -⟩ := hp
  exact alone_only ha hx (by rw [hxint, hjint, ha.2.1]) (by rw [hxconn, hjconn]) (by rw [hxcid, hjcid])

/-- The entry stands alone as the first one did. -/
theorem Tracks.only (ha : alone s c) (h : Tracks s t c d) {x : Cmd} (hx : x ∈ t.tables.cmds) (hint : x.internal = false) (hconn : x.conn = c.conn)
    (hcid : x.cid = c.cid) : x = d := by
  rw [h.cmds] at hx
  obtain ⟨y, hy, rfl⟩ := List.mem_map.mp hx
  by_cases hyc : y = c
  · rw [if_pos hyc]
  · rw [if_neg hyc] at hint hconn hcid
    exact absurd (alone_only ha hy hint hconn hcid) hyc

end Sys2Proof.Machine

namespace Sys2Proof.Machine

variable {s t : State} {c d : Cmd} {x : Ns}

/-! ## A lock that is granted at once (R303, R304) -/

/-- A command's entry with one more lock. -/
def withLock (k : Nat) (c : Cmd) : Cmd := { c with locks := c.locks ++ [k] }

/-- The tables once a request has been granted: a lock of no blocks takes no entry. -/
def takesLock (e : LockEnt) (u v : Tables) : Prop :=
  v.cmds = u.cmds ∧ v.marks = u.marks ∧ v.nextOrder = u.nextOrder ∧ v.shares = u.shares ∧
    (v.locks = u.locks ∨ ∃ k seq, v.locks = mset none k (some { e with seq := seq, granted := true }) u.locks)

/-- A request can be granted at once. -/
def grantable (s : State) (e : LockEnt) : Prop :=
  lockUse s e.owner < mget 0 s.tables.shares e.owner ∧ freeLockEntry s ≠ none ∧
    ∀ x ∈ s.tables.locks, ∀ l, x.2 = some l → lockConflict l e = false

theorem lockBlocked_none {e : LockEnt} (h : ∀ x ∈ s.tables.locks, ∀ l, x.2 = some l → lockConflict l e = false) : lockBlocked s e = false := by
  unfold lockBlocked
  rw [List.any_eq_false]
  intro x hx
  split
  · next l hl => simp [h x hx l hl]
  · exact Bool.false_ne_true

theorem lockAcquire_granted {e : LockEnt} (hint : e.internal = false) (hlive : liveCmd t e.conn e.cid = some d)
    (hmark : t.tables.marks.contains (e.conn, e.cid) = false) (hgrant : grantable t e) :
    ∃ k f, (lockAcquire e t).1.code = 0 ∧ (lockAcquire e t).2 = updCmd d (withLock k) (modTables f t) ∧ takesLock e t.tables (f t.tables) := by
  obtain ⟨hshare, hfree, hconf⟩ := hgrant
  obtain ⟨k, hk⟩ := Option.ne_none_iff_exists'.mp hfree
  have hcmd : acquireCmd t e.conn e.cid e.internal = some d := by
    rw [acquireCmd, hint, if_neg Bool.false_ne_true, hlive]
  have hmark' : ¬ (!e.internal && t.tables.marks.contains (e.conn, e.cid)) = true := by rw [hmark, Bool.and_false]; exact Bool.false_ne_true
  by_cases hcount : e.count = 0
  · refine ⟨65535, id, ?_, ?_, rfl, rfl, rfl, rfl, .inl rfl⟩
    · simp only [lockAcquire, hcmd, hmark', hcount, if_true]
      rfl
    · simp only [lockAcquire, hcmd, hmark', hcount, if_true]
      rfl
  · have hshare' : ¬ mget 0 t.tables.shares e.owner ≤ lockUse t e.owner := Nat.not_le.mpr hshare
    have hblock : lockBlocked t { e with seq := t.tables.seq, granted := false } = false := lockBlocked_none hconf
    refine ⟨k, fun u => { u with seq := u.seq + 1, locks := mset none k (some { e with seq := t.tables.seq, granted := true }) u.locks }, ?_, ?_,
      rfl, rfl, rfl, rfl, .inr ⟨k, _, rfl⟩⟩
    · simp only [lockAcquire, hcmd, hmark', if_false, hcount, hshare', hk, hblock]
      rfl
    · simp only [lockAcquire, hcmd, hmark', if_false, hcount, hshare', hk, hblock]
      rfl

/-- The lock tables are those of an earlier state. -/
def sameLocks (s t : State) : Prop :=
  t.tables.locks = s.tables.locks ∧ t.tables.marks = s.tables.marks ∧ t.tables.shares = s.tables.shares

/-- A command whose locks are all granted runs. -/
theorem lockAndRun_granted {u : State} {e : Cmd} (hns : nsOf t d.nsid.toNat = some x) (hall : lockAll d (cmdLocks t x d) 0 t = (0, u))
    (hsame : sameCmd u d = some e) : lockAndRun d t = runCmd e u := by
  unfold lockAndRun
  rw [hns]
  simp only [hall, hsame]
  rfl

/-- The request of a command for one lock. -/
def lockOf (c : Cmd) (ex : Bool) (a n : Nat) : LockEnt :=
  { nsid := c.nsid.setWidth 15, excl := ex, start := BitVec.ofNat 64 a, count := BitVec.ofNat 64 n
    owner := c.cls.toNat, conn := c.conn, cid := c.cid, internal := c.internal }

theorem lockAll_cons (c : Cmd) (ex : Bool) (a n : Nat) (rest : List (Bool × Nat × Nat)) (w : Nat) (s : State) :
    lockAll c ((ex, a, n) :: rest) w s = lockAll c rest (max w (lockAcquire (lockOf c ex a n) s).1.code) (lockAcquire (lockOf c ex a n) s).2 := rfl

/-- One lock is taken at once. -/
theorem lockAll_one {ex : Bool} {a n : Nat} (hint : d.internal = false) (hlive : liveCmd t d.conn d.cid = some d)
    (hmark : t.tables.marks.contains (d.conn, d.cid) = false) (hgrant : grantable t (lockOf d ex a n)) :
    ∃ k f, lockAll d [(ex, a, n)] 0 t = (0, updCmd d (withLock k) (modTables f t)) ∧ takesLock (lockOf d ex a n) t.tables (f t.tables) := by
  obtain ⟨k, f, hcode, hstate, htakes⟩ := lockAcquire_granted hint hlive hmark hgrant
  refine ⟨k, f, ?_, htakes⟩
  rw [lockAll_cons, hcode, hstate]
  rfl

/-- What a command looks for in the lock tables is what they were. -/
theorem grantable_of_lockFree {ex : Bool} {a n : Nat} (hoff : offQueue t = offQueue s) (hlocks : sameLocks s t) (hcls : d.cls = c.cls)
    (hnsid : d.nsid = c.nsid) (hfree : lockFree s c ex a n) : grantable t (lockOf d ex a n) := by
  obtain ⟨-, -, huse, hentry, hconf⟩ := hfree
  obtain ⟨hl, -, hsh⟩ := hlocks
  have hvar : t.varB = s.varB := congrArg (·.varB) hoff
  have hn : nLocks t = nLocks s := by rw [nLocks, hvar, nLocks]
  refine ⟨?_, ?_, fun y hy l hyl => ?_⟩
  · have howner : (lockOf d ex a n).owner = c.cls.toNat := by rw [lockOf, hcls]
    rw [lockUse, hl, hsh, howner]
    exact huse
  · rw [freeLockEntry, hl, hn]
    exact hentry
  · rw [hl] at hy
    have h := hconf y hy l hyl
    unfold lockConflict at h ⊢
    rw [lockOf, hnsid]
    exact h

/-- A command that takes one lock, and gets it, runs with its entry's lock noted. -/
theorem lockAndRun_one {ex : Bool} {a n : Nat} (ha : alone s c) (h : Tracks s t c d) (hoff : offQueue t = offQueue s) (hlocks : sameLocks s t)
    (hcls : d.cls = c.cls) (hnsid : d.nsid = c.nsid) (hns : nsOf s c.nsid.toNat = some x) (hl : cmdLocks t x d = [(ex, a, n)])
    (hfree : lockFree s c ex a n) :
    ∃ k u, lockAndRun d t = runCmd (withLock k d) u ∧ Tracks s u c (withLock k d) ∧ offQueue u = offQueue s := by
  obtain ⟨hint, -, hconn, hcid, -⟩ := tagOf_fields h.tag
  have hmark : t.tables.marks.contains (d.conn, d.cid) = false := by
    rw [hlocks.2.1, hconn, hcid]
    exact hfree.1
  obtain ⟨k, f, hall, hcmds, -, horder, -⟩ := lockAll_one (ex := ex) (a := a) (n := n) (hint.trans ha.2.1)
    (by rw [hconn, hcid]; exact h.liveCmd ha) hmark (grantable_of_lockFree hoff hlocks hcls hnsid hfree)
  have htracks : Tracks s (updCmd d (withLock k) (modTables f t)) c (withLock k d) :=
    (h.keep (u := modTables f t) hcmds horder).upd ha (withLock k) rfl
  have hns' : nsOf t d.nsid.toNat = some x := by rw [nsOf_congr (offPost_of_offQueue hoff), hnsid, hns]
  exact ⟨k, _, lockAndRun_granted hns' (by rw [hl]; exact hall) (htracks.sameCmd ha h.tag), htracks, hoff⟩

/-! ## The parse (R299, R300) -/

/-- What a parse has done by the time that the locks are asked for. -/
theorem parseIo_toLocks (hoff : offQueue t = offQueue s) (hlocks : sameLocks s t) (hord : d.ordered = false) (hop : d.opcode ≠ 0)
    (hst : parseStatus s d = none) (hq : quiesced s d = false) (hmark : s.tables.marks.contains (d.conn, d.cid) = false) (hl : d.locks = []) :
    parseIo d t = lockAndRun d (parseRx d.conn d.cid t) := by
  have hoff' : offQueue (parseRx d.conn d.cid t) = offQueue s := hoff
  have hmark' : (parseRx d.conn d.cid t).tables.marks.contains (d.conn, d.cid) = false := by
    rw [parseRx, modSpn_tables, hlocks.2.1]
    exact hmark
  unfold parseIo orderedRun
  generalize parseRx d.conn d.cid t = u at *
  have hst' : parseStatus u d = none := by rw [parseStatus_congr hoff', hst]
  have hq' : quiesced u d = false := by rw [quiesced_congr hoff', hq]
  rw [hord, if_neg (by simp), if_neg (by simp), checkedRun, hst']
  simp only [if_neg hop]
  unfold afterOrder
  rw [if_neg (by rw [hmark']; simp), if_neg (by rw [hq']; decide), if_neg (by simp [hl])]

theorem parseRx_tracks (h : Tracks s t c d) (conn cid : BitVec 16) : Tracks s (parseRx conn cid t) c d :=
  h.keep (by rw [parseRx, modSpn_tables]) (by rw [parseRx, modSpn_tables])

theorem sameLocks_parseRx (h : sameLocks s t) (conn cid : BitVec 16) : sameLocks s (parseRx conn cid t) := by
  unfold sameLocks at h ⊢
  rw [parseRx, modSpn_tables]
  exact h

end Sys2Proof.Machine

/-! # SUPPORT. The completion of a command (R202, R250, R284, R286, R302, R372) -/

namespace Sys2Proof.Machine

variable {s t u : State} {c d : Cmd}

/-! ## The frame of a completion -/

/-- What a completion's frame leaves alone: the tables, the controllers, the zones and the buckets. -/
def accounts (s : State) : Tables × SMap Ctrl × SMap Zone × Vct := (s.tables, s.ctrls, s.media.zones, s.vct)

theorem accounts_of_quiet (h : quiet t = quiet s) : accounts t = accounts s := by
  obtain ⟨-, -, -, -, -, -, -, hmedia, htables, -, hctrls, -, -, hvct, -⟩ := quiet_fields h
  rw [accounts, hmedia, htables, hctrls, hvct, accounts]

theorem accounts_modKey (k : Nat) (f : KeySlot → KeySlot) (s : State) : accounts (modKey k f s) = accounts s := rfl
theorem accounts_modCiph (f : Ciph → Ciph) (s : State) : accounts (modCiph f s) = accounts s := rfl
theorem accounts_event (code : BitVec 16) (ws : List (BitVec 32)) (s : State) : accounts (event code ws s) = accounts s := rfl
theorem accounts_eventC (code : BitVec 16) (n : Nat) (ws : List (BitVec 32)) (s : State) : accounts (eventC code n ws s) = accounts s := rfl

theorem accounts_keyCount (k n : Nat) (s : State) : accounts (keyCount k n s) = accounts s := by
  unfold keyCount
  extract_lets x c warn t
  have ht : accounts t = accounts s := accounts_modKey _ _ s
  clear_value t
  split
  · rfl
  · split
    · rw [accounts_event, accounts_modKey, ht]
    · exact ht

theorem accounts_cinRefused (k r : Nat) (s : State) : accounts (cinRefused k r s) = accounts s := by
  unfold cinRefused
  extract_lets told t v
  have ht : accounts t = accounts s := accounts_modKey _ _ s
  have hv : accounts v = accounts t := accounts_modCiph _ t
  clear_value t v
  rw [accounts_of_quiet (quiet_raiseFault 13 1 _)]
  split
  · rw [hv, ht]
  · rw [accounts_eventC, hv, ht]

theorem accounts_useKey (k n : Nat) (s : State) : accounts (useKey k n s).2 = accounts s := by
  unfold useKey
  cases h : keyRefusal (keyOf s k) <;> simp only [accounts_cinRefused, accounts_keyCount]

theorem accounts_tlsSendOf (typ : BitVec 8) (conn : BitVec 16) (text : List (BitVec 8)) (s : State) :
    accounts (tlsSendOf typ conn text s).2 = accounts s := by
  have huse := accounts_useKey (connOf s conn.toNat).kTx.toNat (tlsBlocks text.length) s
  unfold tlsSendOf
  extract_lets c
  split
  · next v hv => rw [hv] at huse; exact huse
  · next v hv => rw [hv] at huse; exact huse

theorem accounts_queueCompletion (conn cid : BitVec 16) (entry : BitVec 256) (inval : Option (BitVec 32)) (s : State) :
    accounts (queueCompletion conn cid entry inval s) = accounts s := by
  have hsend := accounts_tlsSendOf 0x17 conn (capsuleResp false entry) s
  unfold queueCompletion tlsSend
  extract_lets f
  split
  · split
    · next v hv => rw [hv] at hsend; exact hsend
    · next bs v hv => rw [hv] at hsend; exact hsend
  · rfl

theorem keyCount_tx (k n : Nat) (s : State) : (keyCount k n s).xpt.tx = s.xpt.tx := by
  unfold keyCount
  extract_lets x c warn t
  split
  · rfl
  · split <;> rfl

/-- A record can be sent where its key is not refused. -/
theorem tlsSend_some_iff (conn : BitVec 16) (l : List (BitVec 8)) (s : State) :
    (tlsSend conn l s).1 ≠ none ↔ keyRefusal (keyOf s (connOf s conn.toNat).kTx.toNat) = none := by
  unfold tlsSend tlsSendOf useKey
  cases h : keyRefusal (keyOf s (connOf s conn.toNat).kTx.toNat) with
  | none => simp only [h, ne_eq, reduceCtorEq, not_false_eq_true]
  | some r => simp only [h, ne_eq, not_true_eq_false, reduceCtorEq]

/-- The frame of a completion. -/
def entryFrame (s : State) (conn cid : BitVec 16) (entry : BitVec 256) (inval : Option (BitVec 32)) : TxFrame :=
  { path := connPath s conn, kind := 3, conn := some conn, cid := some cid, desc := entry, inval := inval }

theorem queueCompletion_plain {conn cid : BitVec 16} {entry : BitVec 256} {inval : Option (BitVec 32)} (h : (connOf s conn.toNat).tls = false) :
    (queueCompletion conn cid entry inval s).xpt.tx = s.xpt.tx ++ [entryFrame s conn cid entry inval] := by
  unfold queueCompletion
  extract_lets f
  rw [if_neg (by rw [h]; decide)]
  rfl

theorem queueCompletion_tls {conn cid : BitVec 16} {entry : BitVec 256} {inval : Option (BitVec 32)} (h : (connOf s conn.toNat).tls = true)
    (hkey : keyRefusal (keyOf s (connOf s conn.toNat).kTx.toNat) = none) :
    ∃ us, (queueCompletion conn cid entry inval s).xpt.tx = s.xpt.tx ++ [{ entryFrame s conn cid entry inval with units := us }] := by
  have hsend : ∃ bs, tlsSend conn (capsuleResp false entry) s = (some bs, modConn conn.toNat (fun x => { x with txSeq := x.txSeq + 1 })
      (keyCount (connOf s conn.toNat).kTx.toNat (tlsBlocks (capsuleResp false entry).length) s)) := by
    unfold tlsSend tlsSendOf useKey
    simp only [hkey]
    exact ⟨_, rfl⟩
  obtain ⟨bs, hbs⟩ := hsend
  have htx := keyCount_tx (connOf s conn.toNat).kTx.toNat (tlsBlocks (capsuleResp false entry).length) s
  refine ⟨bytesUnits bs, ?_⟩
  unfold queueCompletion
  extract_lets f
  rw [if_pos h, hbs]
  rw [← htx]
  rfl

end Sys2Proof.Machine

namespace Sys2Proof.Machine

variable {s t u : State} {c d : Cmd}

/-! ## The counts of a completion -/

/-- All but what the counts of a completion change: the controllers, the media's error count and the failures of ordered commands. -/
def uncounted (s : State) : State :=
  { s with ctrls := [], media := { s.media with mediaErrs := 0 }, tables := { s.tables with fails := [] } }

theorem uncounted_modCtrl (v : Nat) (f : Ctrl → Ctrl) (s : State) : uncounted (modCtrl v f s) = uncounted s := rfl

theorem uncounted_logError (v : Nat) (e : ErrEnt) (s : State) : uncounted (logError v e s) = uncounted s := rfl

theorem uncounted_noteOrder (c : Cmd) (st : BitVec 16) (s : State) : uncounted (noteOrder c st s) = uncounted s := by
  unfold noteOrder
  split <;> rfl

theorem uncounted_countDone (c : Cmd) (st : BitVec 16) (s : State) : uncounted (countDone c st s) = uncounted s := by
  unfold countDone
  extract_lets t
  have ht : uncounted t = uncounted s := by
    by_cases h : st.setWidth 11 = 0x281#11
    · rw [show t = modMedia (fun u => { u with mediaErrs := u.mediaErrs + 1 }) s from if_pos h]
      rfl
    · rw [show t = s from if_neg h]
  clear_value t
  split
  · exact ht
  · extract_lets v
    have hv : uncounted v = uncounted t := by
      by_cases h : st = 0
      · rw [show v = t from if_pos h]
      · rw [show v = logError _ _ t from if_neg h, uncounted_logError]
    rw [uncounted_modCtrl, hv, ht]

theorem uncounted_fields (h : uncounted t = uncounted s) :
    t.xpt = s.xpt ∧ t.ciph = s.ciph ∧ t.reel = s.reel ∧ t.vct = s.vct ∧ t.media.zones = s.media.zones ∧ t.tables.cmds = s.tables.cmds ∧
      t.tables.locks = s.tables.locks ∧ t.tables.nextOrder = s.tables.nextOrder := by
  have f := fun {β : Type} (g : State → β) => congrArg g h
  exact ⟨f (·.xpt), f (·.ciph), f (·.reel), f (·.vct), f (·.media.zones), f (·.tables.cmds), f (·.tables.locks), f (·.tables.nextOrder)⟩

theorem ctrls_noteOrder (c : Cmd) (st : BitVec 16) (s : State) : (noteOrder c st s).ctrls = s.ctrls := by
  unfold noteOrder
  split <;> rfl

/-- A completion counts in its controller where it fails. -/
theorem countDone_errs {v : BitVec 12} (st : BitVec 16) (s : State) (hv : c.vc = some v) :
    (ctrlOf (countDone c st s) v.toNat).errs = (ctrlOf s v.toNat).errs + if st = 0 then 0 else 1 := by
  unfold countDone
  extract_lets t
  have ht : ctrlOf t v.toNat = ctrlOf s v.toNat := by
    by_cases h : st.setWidth 11 = 0x281#11
    · rw [show t = modMedia (fun u => { u with mediaErrs := u.mediaErrs + 1 }) s from if_pos h]
      rfl
    · rw [show t = s from if_neg h]
  clear_value t
  rw [hv]
  dsimp only
  rw [ctrlOf_modCtrl_same]
  by_cases hst : st = 0
  · rw [if_pos hst, if_pos hst, ht]
    rfl
  · rw [if_neg hst, if_neg hst, logError, ctrlOf_modCtrl_same, ht]

end Sys2Proof.Machine

namespace Sys2Proof.Machine

variable {s t u : State} {c d e : Cmd}

/-! ## A completion whole -/

/-- The state once a command's locks and its abort mark have gone. -/
def released (c : Cmd) (s : State) : State :=
  modTables (fun u => { u with marks := u.marks.filter (fun m => !(m = (c.conn, c.cid))) })
    (if keepsLocks c then s else freeLocks (locksOf s c.conn c.cid c.internal) s)

theorem released_eq (c : Cmd) (s : State) : ∃ l m, released c s = modTables (fun u => { u with locks := l, marks := m }) s := by
  unfold released
  split
  · exact ⟨s.tables.locks, _, rfl⟩
  · exact ⟨_, _, rfl⟩

/-- No lock of a command is left but those that a read keeps. -/
theorem released_locks {k : Nat} {l : LockEnt} (hkeep : keepsLocks c = false) (hl : mget none (released c s).tables.locks k = some l) :
    ¬ (l.internal = c.internal ∧ l.conn = c.conn ∧ l.cid = c.cid) := by
  rintro ⟨hint, hconn, hcid⟩
  have hlocks : (released c s).tables.locks = (locksOf s c.conn c.cid c.internal).foldl (fun m k => mset none k none m) s.tables.locks := by
    rw [released, hkeep, if_neg Bool.false_ne_true]
    rfl
  rw [hlocks, mget_foldl_clear] at hl
  split at hl
  · exact absurd hl (by simp)
  · next hnot =>
    refine hnot (List.mem_filterMap.mpr ⟨(k, some l), ?_, by simp [hint, hconn, hcid]⟩)
    rcases mget_default_or_mem none s.tables.locks k with h | h
    · rw [hl] at h
      exact absurd h (by simp)
    · exact hl ▸ h

/-- The state once an entry has gone and its completion is counted. -/
def doneCounted (d : Cmd) (st : BitVec 16) (s : State) : State :=
  countDone d (sentStatus s st) (noteOrder d (sentStatus s st) (freeCmd d s))

theorem acceptEntry_open (entry : BitVec 256) (st : BitVec 16) (inval : Option (BitVec 32)) (h : d.closed = false) :
    acceptEntry d entry st false inval s = queueCompletion d.conn d.cid (withHead (withStatus entry (sentStatus s st)) (sqHead
      (doneCounted d st s) d.conn))
      inval (doneCounted d st s) := by
  unfold acceptEntry
  extract_lets st' t v
  rw [if_neg (by rw [h]; decide)]
  rfl

theorem completeCmd_eq (st : BitVec 16) (dw0 dw1 : BitVec 32) (hint : e.internal = false) (hentry : cmdEntry (released e u) e = some d) :
    completeCmd e st dw0 dw1 u = acceptEntry d (cqe dw0 dw1 (connOf (released e u) e.conn.toNat).qid e.cid st) st false (invalidKey (released e u) e)
      (released e u) := by
  unfold completeCmd
  extract_lets v w
  have hw : w = released e u := rfl
  clear_value w
  rw [if_neg (by rw [hint]; decide), hw, hentry]

theorem doneCounted_fields (d : Cmd) (st : BitVec 16) (s : State) :
    (doneCounted d st s).xpt = s.xpt ∧ (doneCounted d st s).ciph = s.ciph ∧ (doneCounted d st s).vct = s.vct ∧
      (doneCounted d st s).media.zones = s.media.zones ∧
      (doneCounted d st s).tables.cmds = s.tables.cmds.filter (fun x => decide (x ≠ d)) ∧ (doneCounted d st s).tables.locks = s.tables.locks ∧
      (doneCounted d st s).tables.nextOrder = s.tables.nextOrder := by
  have h : uncounted (doneCounted d st s) = uncounted (freeCmd d s) := (uncounted_countDone _ _ _).trans (uncounted_noteOrder _ _ _)
  obtain ⟨hxpt, hciph, -, hvct, hzones, hcmds, hlocks, horder⟩ := uncounted_fields h
  exact ⟨hxpt, hciph, hvct, hzones, hcmds, hlocks, horder⟩

theorem doneCounted_errs {v : BitVec 12} (st : BitVec 16) (s : State) (hv : d.vc = some v) :
    (ctrlOf (doneCounted d st s) v.toNat).errs = (ctrlOf s v.toNat).errs + if sentStatus s st = 0 then 0 else 1 := by
  have hctrl : ctrlOf (noteOrder d (sentStatus s st) (freeCmd d s)) v.toNat = ctrlOf s v.toNat := by
    rw [ctrlOf, ctrls_noteOrder]
    rfl
  rw [doneCounted, countDone_errs _ _ hv, hctrl]

/-- A command's completion, from a state that the way to it has left as it was in all that the completion says. -/
theorem completed_of_completeCmd {st : BitVec 16} {dw0 dw1 : BitVec 32} (ha : alone s c) (h : Tracks s u c d) (htag : tagOf e = tagOf c)
    (hvc : d.vc = c.vc) (hsqe : e.sqe = c.sqe) (hkeep : keepsLocks e = keepsLocks c) (hxpt : u.xpt = s.xpt) (hciph : u.ciph = s.ciph)
    (hctrls : u.ctrls = s.ctrls) (hdeck : u.reel.deck = s.reel.deck) :
    completed c st dw0 dw1 s (completeCmd e st dw0 dw1 u) ∧ (completeCmd e st dw0 dw1 u).media.zones = u.media.zones ∧
      (completeCmd e st dw0 dw1 u).vct = u.vct := by
  obtain ⟨hint, hclosed, hconn, hcid, -⟩ := tagOf_fields h.tag
  obtain ⟨heint, -, heconn, hecid, -⟩ := tagOf_fields htag
  obtain ⟨l, m, hrel⟩ := released_eq e u
  have hlocks := fun k l => released_locks (c := e) (s := u) (k := k) (l := l)
  have hrtracks : Tracks s (released e u) c d := by
    rw [hrel]
    exact h.keep rfl rfl
  have hcomplete := completeCmd_eq st dw0 dw1 (heint.trans ha.2.1) (hrtracks.cmdEntry ha htag)
  have hrxpt : (released e u).xpt = s.xpt := by rw [hrel, ← hxpt]; rfl
  have hrciph : (released e u).ciph = s.ciph := by rw [hrel, ← hciph]; rfl
  have hrctrls : (released e u).ctrls = s.ctrls := by rw [hrel, ← hctrls]; rfl
  have hrdeck : (released e u).reel.deck = s.reel.deck := by rw [hrel, ← hdeck]; rfl
  have hrzones : (released e u).media.zones = u.media.zones := by rw [hrel]; rfl
  have hrvct : (released e u).vct = u.vct := by rw [hrel]; rfl
  generalize released e u = w at *
  have hconnOf : ∀ k, connOf w k = connOf s k := connOf_of_xpt hrxpt
  have hsent : sentStatus w st = sentStatus s st := by rw [sentStatus, inHold, hrdeck, sentStatus, inHold]
  obtain ⟨hcxpt, hcciph, hcvct, hczones, hccmds, hclocks, hcorder⟩ := doneCounted_fields d st w
  have hcerrs := fun v => doneCounted_errs (v := v) (d := d) st w
  rw [acceptEntry_open _ _ _ (hclosed.trans ha.2.2.1)] at hcomplete
  generalize doneCounted d st w = y at *
  have hyconn : ∀ k, connOf y k = connOf s k := connOf_of_xpt (hcxpt.trans hrxpt)
  have hhead : sqHead y d.conn = sqHead s c.conn := by rw [sqHead, hyconn, hcorder, hrtracks.order, hconn, sqHead]
  have hinval : invalidKey w e = invalidKey s c := by rw [invalidKey, hconnOf, heconn, hsqe, invalidKey]
  rw [hhead, hsent, hinval, hconnOf, heconn, hecid, hconn, hcid] at hcomplete
  have hframe : ∀ entry inval, entryFrame y c.conn c.cid entry inval = entryFrame s c.conn c.cid entry inval := fun entry inval => by
    rw [entryFrame, connPath, hyconn, entryFrame, connPath]
  have hacc := accounts_queueCompletion c.conn c.cid (withHead (withStatus (cqe dw0 dw1 (connOf s c.conn.toNat).qid c.cid st) (sentStatus s st))
    (sqHead s c.conn)) (invalidKey s c) y
  rw [← hcomplete] at hacc
  unfold accounts at hacc
  simp only [Prod.mk.injEq] at hacc
  obtain ⟨htables, htctrls, htzones, htvct⟩ := hacc
  have hytx : y.xpt.tx = s.xpt.tx := by rw [hcxpt, hrxpt]
  refine ⟨⟨fun x hx hxint hxconn hxcid => ?_, fun htls => ?_, fun htls hkey => ?_, fun hk k l hl => ?_, fun v hv => ?_⟩,
    htzones.trans (hczones.trans hrzones), htvct.trans (hcvct.trans hrvct)⟩
  · rw [htables, hccmds, List.mem_filter] at hx
    exact absurd (hrtracks.only ha hx.1 hxint hxconn hxcid) (of_decide_eq_true hx.2)
  · rw [hcomplete, queueCompletion_plain (by rw [hyconn]; exact htls), hytx, List.drop_left, hframe]
    exact List.mem_singleton_self _
  · have hkey' : keyRefusal (keyOf y (connOf y c.conn.toNat).kTx.toNat) = none := by
      rw [hyconn, keyOf, hcciph, hrciph]
      exact (tlsSend_some_iff _ _ s).mp hkey
    obtain ⟨us, hus⟩ := queueCompletion_tls (cid := c.cid) (entry := withHead (withStatus (cqe dw0 dw1 (connOf s c.conn.toNat).qid c.cid st)
      (sentStatus s st))
      (sqHead s c.conn)) (inval := invalidKey s c) (by rw [hyconn]; exact htls) hkey'
    refine ⟨us, ?_⟩
    rw [hcomplete, hus, hytx, List.drop_left, hframe]
    exact List.mem_singleton_self _
  · rw [htables, hclocks] at hl
    have := hlocks k l (hkeep.trans hk) hl
    rwa [heint, heconn, hecid, ha.2.1] at this
  · have herrs := hcerrs v (hvc.trans hv)
    rw [hsent] at herrs
    rw [ctrlOf, htctrls]
    refine herrs.trans ?_
    rw [ctrlOf, hrctrls]
    rfl

end Sys2Proof.Machine

/-! # SUPPORT. The admission of a read (R63, R283, R290, R352) -/

namespace Sys2Proof.Machine

variable {s t u : State} {c d : Cmd} {x : Ns}

/-! ## What of a command its admission depends on -/

/-- A command's entry without what its parse, its locks and its deferrals change. -/
def core (c : Cmd) : Cmd :=
  { c with phase := .received, ranges := [], inCap := false, bad := false, locks := [], srcs := [], unbound := false, late := false, deferAt := 0 }

theorem tagOf_of_core (h : core d = core c) : tagOf d = tagOf c := (congrArg tagOf h : tagOf (core d) = tagOf (core c))

theorem core_fields (h : core d = core c) : d.nsid = c.nsid ∧ d.slba = c.slba ∧ d.nlb = c.nlb ∧ d.opcode = c.opcode ∧ d.vc = c.vc ∧ d.cls = c.cls ∧
    d.sqe = c.sqe ∧ d.admin = c.admin ∧ d.got = c.got ∧ d.fail = c.fail ∧ d.fua = c.fua ∧ d.ordered = c.ordered := by
  have f := fun {β : Type} (g : Cmd → β) => (congrArg g h : g (core d) = g (core c))
  exact ⟨f Cmd.nsid, f Cmd.slba, f Cmd.nlb, f Cmd.opcode, f Cmd.vc, f Cmd.cls, f Cmd.sqe, f Cmd.admin, f Cmd.got, f Cmd.fail, f Cmd.fua,
      f Cmd.ordered⟩

theorem keepsLocks_of_core (h : core d = core c) : keepsLocks d = keepsLocks c := (congrArg keepsLocks h : keepsLocks (core d) = keepsLocks (core c))

/-- What depends on a command's core only is the same where the core is. -/
theorem same_of_core {β : Type} (F : Cmd → β) (hF : ∀ c, F (core c) = F c) (h : core d = core c) : F d = F c := by
  rw [← hF d, h, hF]

theorem readTokens_core (h : core d = core c) (s : State) (n : Nat) : readTokens s d n = readTokens s c n :=
  same_of_core (readTokens s · n) (fun _ => rfl) h

theorem readSlots_core (h : core d = core c) (s : State) (l : List DieDesc) (b : Bool) : readSlots s d l b = readSlots s c l b :=
  same_of_core (readSlots s · l b) (fun _ => rfl) h

theorem partReads_core (h : core d = core c) (s : State) (x : Ns) : partReads s d x = partReads s c x :=
  same_of_core (partReads s · x) (fun _ => rfl) h

theorem partReads_congr (h : offQueue t = offQueue s) (c : Cmd) (x : Ns) : partReads t c x = partReads s c x :=
  same_of_view offQueue (partReads · c x) (fun _ => rfl) h

/-! ## The transport's room for a read -/

/-- The frames that a command of a connection still has to send. -/
def dueOf (s : State) (conn : BitVec 16) (c : Cmd) : Nat :=
  if c.internal || c.closed || c.conn ≠ conn || c.admin || c.opcode ≠ 2 || c.phase ≠ Phase.posted then 0
  else dataFrames (connOf s conn.toNat) ((c.nlb - c.got) * (match nsOf s c.nsid.toNat with | some x => lbaBytes x | none => 4096))

theorem dueOf_unposted {conn : BitVec 16} (h : c.phase ≠ .posted) : dueOf s conn c = 0 := by
  unfold dueOf
  rw [if_pos (by simp [h])]

theorem framesDue_eq (s : State) (conn : BitVec 16) : framesDue s conn =
    (s.xpt.tx.filter (fun f => f.conn = some conn && !f.again)).length + (s.tables.cmds.map (dueOf s conn)).sum := by
  unfold framesDue dueOf
  rfl

theorem dueOf_congr (h : offQueue t = offQueue s) (conn : BitVec 16) : dueOf t conn = dueOf s conn := same_of_view offQueue (dueOf · conn)
    (fun _ => rfl) h

/-- Commands that are not posted have no frames to come, whatever their entries. -/
theorem framesDue_swapped (h : Tracks s t c d) (hoff : offQueue t = offQueue s) (hc : c.phase ≠ .posted) (hd : d.phase ≠ .posted) (conn : BitVec 16) :
    framesDue t conn = framesDue s conn := by
  have hxpt : t.xpt = s.xpt := congrArg (·.xpt) hoff
  rw [framesDue_eq, framesDue_eq, hxpt, dueOf_congr hoff, h.cmds, swapped, List.map_map]
  refine congrArg (_ + List.sum ·) (List.map_congr_left fun y _ => ?_)
  rw [Function.comp_apply]
  split
  · next hy => rw [dueOf_unposted hd, hy, dueOf_unposted hc]
  · rfl

theorem transportTakes_eq (h : Tracks s t c d) (hoff : offQueue t = offQueue s) (hcore : core d = core c) (hc : c.phase ≠ .posted)
    (hd : d.phase ≠ .posted) (n : Nat) : transportTakes t d n = transportTakes s c n := by
  have hxpt : t.xpt = s.xpt := congrArg (·.xpt) hoff
  obtain ⟨hint, -, hconn, -⟩ := tagOf_fields (tagOf_of_core hcore)
  unfold transportTakes inFlight
  simp only [connOf_of_xpt hxpt, framesDue_swapped h hoff hc hd, hint, hconn]

/-! ## The entries of the write log -/

/-- What the write log's entries and events leave alone. -/
def offLog (s : State) : State :=
  { s with mem := [], poison := [], cores := [], drcs := [], intc := {}, evr := {}, now := 0, draws := 0 }

theorem offLog_of_offMem (h : offMem t = offMem s) : offLog t = offLog s := same_of_view offMem offLog (fun _ => rfl) h

theorem offLog_softEvent (code : BitVec 16) (n : Nat) (ws : List (BitVec 32)) (s : State) : offLog (softEvent code n ws s) = offLog s := by
  unfold softEvent pulse
  split <;> rfl

theorem offLog_writeMem (w : Option Nat) (a : Nat) (bs : List (BitVec 8)) (s : State) : offLog (writeMem w a bs s) = offLog s :=
  offLog_of_offMem (offMem_writeMem w a bs s)

theorem offLog_logAppend (v : Nat) (conn : BitVec 16) (r : BitVec 64 × BitVec 32 × BitVec 32) (s : State) :
    offLog (logAppend v conn r s) = offLog s := by
  unfold logAppend
  extract_lets i a size w rd used n at_ bytes s1 s2
  have h2 : offLog s2 = offLog s := (offLog_writeMem _ _ _ _).trans (offLog_writeMem _ _ _ _)
  clear_value s2
  split
  · rfl
  · split
    · split
      · rfl
      · rw [offLog_softEvent, offLog_writeMem]
    · split
      · rw [offLog_softEvent, h2]
      · exact h2

theorem offLog_logRanges (c : Cmd) (s : State) : offLog (logRanges c s) = offLog s := by
  unfold logRanges
  split
  · rfl
  · split
    · exact look_foldl offLog (fun s r => offLog_logAppend _ _ r s) _ _
    · rfl

theorem offLog_fields (h : offLog t = offLog s) : t.xpt = s.xpt ∧ t.ciph = s.ciph ∧ t.ctrls = s.ctrls ∧ t.reel = s.reel ∧ t.vct = s.vct ∧
    t.media = s.media ∧ t.piers = s.piers ∧ t.tables = s.tables ∧ t.spindles = s.spindles := by
  have f := fun {β : Type} (g : State → β) => congrArg g h
  exact ⟨f (·.xpt), f (·.ciph), f (·.ctrls), f (·.reel), f (·.vct), f (·.media), f (·.piers), f (·.tables), f (·.spindles)⟩

theorem offPost_of_offLog (h : offLog t = offLog s) : offPost t = offPost s := same_of_view offLog offPost (fun _ => rfl) h

end Sys2Proof.Machine

namespace Sys2Proof.Machine

variable {s t u : State} {c d : Cmd} {x : Ns}

/-! ## From a command's parse to its run -/

/-- A command has come through its parse and its locks, or stands before them: all else is as it was. -/
structure Arrived (s u : State) (c d : Cmd) : Prop where
  alone : alone s c
  tracks : Tracks s u c d
  off : offQueue u = offQueue s
  core : core d = core c
  before : c.phase ≠ .posted
  after : d.phase ≠ .posted

/-- What fails a command at parse, but for a descriptor that it cannot use, is the same with other ranges. -/
theorem parseStatus_withRanges {ranges : List (BitVec 64 × BitVec 32 × BitVec 32)} (inCap : Bool) (hlen : ranges.length ≤ 16)
    (h : parseStatus s c = none) : parseStatus s (withRanges c ranges inCap false) = none := by
  have hbad : (withRanges c ranges inCap false).bad = false := by
    change (false || decide (16 < ranges.length)) = false
    simpa using hlen
  cases hb : c.bad with
  | false =>
    have heq : withRanges c ranges inCap false = { c with ranges := ranges, inCap := inCap } := by
      have hc : c = { c with bad := false } := by rw [← hb]
      unfold withRanges at hbad ⊢
      rw [show (false || decide (16 < ranges.length)) = false from hbad, ← hb]
    rw [heq]
    exact h
  | true =>
    have hend : c.opcode = 0 ∧ c.nsid = 0xFFFFFFFF ∧ modeStatus s c = none := by
      unfold parseStatus at h
      simp only [hb, Bool.true_or, if_true] at h
      split at h
      · exact absurd h (by simp)
      · next hmode =>
        split at h
        · next hop =>
          simp only [Bool.and_eq_true, decide_eq_true_eq] at hop
          exact ⟨hop.1, hop.2, hmode⟩
        · split at h
          · exact absurd h (by simp)
          · repeat' split at h
            all_goals exact absurd h (by simp)
    obtain ⟨hop, hnsid, hmode⟩ := hend
    have hmode' : modeStatus s (withRanges c ranges inCap false) = none := hmode
    unfold parseStatus
    rw [hmode']
    exact if_pos (by simp [withRanges, hop, hnsid])

theorem updCmd_id (c : Cmd) (s : State) : updCmd c id s = s := by
  have hid : (fun x : Cmd => if x = c then id x else x) = id := funext fun x => by
    by_cases h : x = c
    · simp [h]
    · simp [h]
  have hmap : s.tables.cmds.map (fun x => if x = c then id x else x) = s.tables.cmds := by rw [hid, List.map_id]
  unfold updCmd
  rw [hmap]
  rfl

/-- A command that may be parsed is found under its key. -/
theorem received_fresh (h : fresh s c) (hadmin : c.admin = false) {ops : List (BitVec 8)} (hop : ops.contains c.opcode = true) :
    received s c.conn c.cid ops = some c := by
  obtain ⟨ha, hturn⟩ := h
  unfold received
  rw [(Tracks.refl s c).liveCmd ha]
  simp only [hturn, hadmin, hop]
  rfl

theorem phase_of_parseTurn (h : parseTurn s c = true) : c.phase = .received := by
  unfold parseTurn at h
  simp only [Bool.and_eq_true, decide_eq_true_eq] at h
  exact h.1.1.1

/-- A command that takes one lock, and gets it, comes to its run. -/
theorem parseIo_arrives {f : Cmd → Cmd} {ex : Bool} {a n : Nat} (hfresh : fresh s c) (hcore : core (f c) = core c) (hphase : (f c).phase = c.phase)
    (hlocks : (f c).locks = c.locks) (hst : parseStatus s (f c) = none) (hns : nsOf s c.nsid.toNat = some x) (hq : quiesced s c = false)
    (hord : c.ordered = false) (hop : c.opcode ≠ 0) (hl : ∀ t, cmdLocks t x (f c) = [(ex, a, n)]) (hfree : lockFree s c ex a n) :
    ∃ k u, parseIo (f c) (updCmd c f s) = runCmd (withLock k (f c)) u ∧ Arrived s u c (withLock k (f c)) := by
  obtain ⟨ha, hturn⟩ := hfresh
  have hphase' : (f c).phase ≠ .posted := by
    rw [hphase, phase_of_parseTurn hturn]
    decide
  obtain ⟨hnsid, -, -, hopc, -, hcls, -, -, -, -, -, hordc⟩ := core_fields hcore
  obtain ⟨-, -, hconn, hcid, -⟩ := tagOf_fields (tagOf_of_core hcore)
  have h := (Tracks.refl s c).upd ha f (tagOf_of_core hcore)
  have hoff : offQueue (updCmd c f s) = offQueue s := offQueue_modTables _ s
  have hsame : sameLocks s (updCmd c f s) := ⟨rfl, rfl, rfl⟩
  have hq' : quiesced s (f c) = false := (same_of_core (quiesced s ·) (fun _ => rfl) hcore).trans hq
  have hmark : s.tables.marks.contains ((f c).conn, (f c).cid) = false := by
    rw [hconn, hcid]
    exact hfree.1
  have hoff' : offQueue (parseRx (f c).conn (f c).cid (updCmd c f s)) = offQueue s := (offQueue_modSpn _ _ _).trans hoff
  obtain ⟨k, u, hrun, htracks, hoffu⟩ := lockAndRun_one ha (parseRx_tracks h (f c).conn (f c).cid) hoff' (sameLocks_parseRx hsame _ _) hcls hnsid hns
    (hl _) hfree
  refine ⟨k, u, ?_, ha, htracks, hoffu, hcore, by rw [phase_of_parseTurn hturn]; decide, hphase'⟩
  rw [parseIo_toLocks hoff hsame (hordc.trans hord) (by rw [hopc]; exact hop) hst hq' hmark (hlocks.trans hfree.2.1), hrun]

end Sys2Proof.Machine

namespace Sys2Proof.Machine

variable {s t u : State} {c d : Cmd} {x : Ns}

/-! ## A read's admission in its parts -/

/-- The units that a read's tokens are counted in. -/
def readUnits (s : State) (x : Ns) (c : Cmd) : Nat := c.nlb * (if (splitRead s x c.nsid c.slba c.nlb).any (overdue s) then 2 else 1)

/-- A read has its places and its transport. -/
def readPlaced (s : State) (x : Ns) (c : Cmd) : Bool :=
  readSlots s c (((splitRead s x c.nsid c.slba c.nlb).map (partReads s c x)).flatten) (anyStaged s x c.nsid c.slba c.nlb) &&
    !(decide (c.opcode = 2) && !transportTakes s c (c.nlb * lbaBytes x))

/-- The entry of a command whose reads are posted. -/
def postedCmd (c : Cmd) : Cmd := { c with phase := .posted }

/-- The state once a read is charged and its entry posted. -/
def readCharged (d : Cmd) (n : Nat) (u : State) : State := updCmd d (fun _ => postedCmd d) (logRanges d (chargeRead d n u))

theorem admitRead_eq (hns : nsOf u d.nsid.toNat = some x) : admitRead d u =
    if rangeOffline u x d.nsid d.slba d.nlb = true then failCmd d (status 1 0xBB) u
    else if (readTokens u d (readUnits u x d) && readPlaced u x d) = true then postReads (postedCmd d) x (readCharged d (readUnits u x d) u)
    else defer d u := by
  unfold admitRead
  rw [hns]
  simp only
  by_cases hoff : rangeOffline u x d.nsid d.slba d.nlb = true
  · rw [if_pos hoff, if_pos hoff]
  · rw [if_neg hoff, if_neg hoff]
    by_cases hcan : (readTokens u d (readUnits u x d) && readPlaced u x d) = true
    · have hcan' := hcan
      rw [if_pos hcan, if_neg]
      · rfl
      · unfold readPlaced readUnits at hcan'
        simp only [Bool.and_eq_true, Bool.not_eq_true', Bool.and_eq_false_iff] at hcan'
        obtain ⟨htokens, hslots, htransport⟩ := hcan'
        rw [htokens, hslots]
        rcases htransport with h | h
        · rw [h]
          exact Bool.false_ne_true
        · rw [h, Bool.and_false]
          exact Bool.false_ne_true
    · rw [if_neg hcan, if_pos]
      unfold readPlaced readUnits at hcan
      cases hto : readTokens u d (d.nlb * (if (splitRead u x d.nsid d.slba d.nlb).any (overdue u) then 2 else 1))
      · rfl
      · cases hsl : readSlots u d (((splitRead u x d.nsid d.slba d.nlb).map (partReads u d x)).flatten) (anyStaged u x d.nsid d.slba d.nlb)
        · rfl
        · rw [hto, hsl] at hcan
          simpa using hcan

theorem Arrived.fields (h : Arrived s u c d) : d.nsid = c.nsid ∧ d.slba = c.slba ∧ d.nlb = c.nlb ∧ d.opcode = c.opcode ∧ d.vc = c.vc := by
  obtain ⟨hnsid, hslba, hnlb, hop, hvc, -⟩ := core_fields h.core
  exact ⟨hnsid, hslba, hnlb, hop, hvc⟩

theorem Arrived.post (h : Arrived s u c d) : offPost u = offPost s := offPost_of_offQueue h.off

theorem readUnits_arrived (h : Arrived s u c d) : readUnits u x d = readUnits s x c := by
  obtain ⟨hnsid, hslba, hnlb, -⟩ := h.fields
  unfold readUnits
  rw [splitRead_congr h.post, overdue_congr h.off, hnsid, hslba, hnlb]

theorem readPlaced_arrived (h : Arrived s u c d) : readPlaced u x d = readPlaced s x c := by
  obtain ⟨hnsid, hslba, hnlb, hop, -⟩ := h.fields
  unfold readPlaced
  rw [splitRead_congr h.post, anyStaged_congr h.off, readSlots_congr h.off, readSlots_core h.core, partReads_congr h.off, partReads_core h.core,
    transportTakes_eq h.tracks h.off h.core h.before h.after, hnsid, hslba, hnlb, hop]

theorem readTokens_arrived (h : Arrived s u c d) (n : Nat) : readTokens u d n = readTokens s c n := by
  rw [readTokens_congr h.off, readTokens_core h.core]

/-- The admission of a read that has come through its locks. -/
theorem admitRead_arrived (h : Arrived s u c d) (hns : nsOf s c.nsid.toNat = some x) : admitRead d u =
    if rangeOffline s x c.nsid c.slba c.nlb = true then failCmd d (status 1 0xBB) u
    else if (readTokens s c (readUnits s x c) && readPlaced s x c) = true then postReads (postedCmd d) x (readCharged d (readUnits s x c) u)
    else defer d u := by
  obtain ⟨hnsid, hslba, hnlb, -⟩ := h.fields
  have hns' : nsOf u d.nsid.toNat = some x := by rw [nsOf_congr h.post, hnsid, hns]
  rw [admitRead_eq hns', readUnits_arrived h, readTokens_arrived h, readPlaced_arrived h, rangeOffline_congr h.post, hnsid, hslba, hnlb]

/-- A read command's run is its admission. -/
theorem runCmd_read (h : isReadOp d.opcode = true) : runCmd d u = admitRead d u := by
  have hne : d.opcode ≠ 0x79 ∧ d.opcode ≠ 0x19 := by
    unfold isReadOp at h
    simp only [Bool.or_eq_true, decide_eq_true_eq] at h
    rcases h with h | h <;> rw [h] <;> decide
  rw [runCmd, if_neg hne.1, if_neg hne.2, if_pos h]

/-! ## What a charge leaves alone -/

/-- What a charge of a read, its log and its entry leave alone. -/
theorem readCharged_frame (h : Arrived s u c d) (n : Nat) :
    let v := readCharged d n u
    Tracks s v c (postedCmd d) ∧ v.xpt = s.xpt ∧ v.ciph = s.ciph ∧ v.ctrls = s.ctrls ∧ v.reel = s.reel ∧ v.media = s.media ∧ offPost v = offPost s ∧
      ∀ k, c.vc = some k → (vcOf v k.toNat).rd = (vcOf s k.toNat).rd - n := by
  intro v
  have hcharge : ∃ f, chargeRead d n u = modVct f u := by
    unfold chargeRead
    split
    · exact ⟨id, rfl⟩
    · exact ⟨_, rfl⟩
  have hrd : ∀ k, c.vc = some k → (vcOf (chargeRead d n u) k.toNat).rd = (vcOf s k.toNat).rd - n := fun k hk => by
    have hvc : d.vc = some k := h.fields.2.2.2.2.trans hk
    have hvct : u.vct = s.vct := congrArg (·.vct) h.off
    unfold chargeRead
    rw [hvc]
    simp only
    rw [vcOf_modVc_same, vcOf, hvct, vcOf]
  obtain ⟨f, hf⟩ := hcharge
  have hlog := offLog_logRanges d (chargeRead d n u)
  rw [hf] at hlog hrd
  obtain ⟨hxpt, hciph, hctrls, hreel, hvct, hmedia, -, htables, -⟩ := offLog_fields hlog
  have hpost := offPost_of_offLog hlog
  have hv : v = updCmd d (fun _ => postedCmd d) (logRanges d (modVct f u)) := by rw [← hf]; rfl
  clear_value v
  generalize logRanges d (modVct f u) = w at *
  have hoff := fun {β : Type} (g : State → β) => (congrArg g h.off : g (offQueue u) = g (offQueue s))
  have htracks : Tracks s w c d := h.tracks.keep (by rw [htables]; rfl) (by rw [htables]; rfl)
  subst hv
  refine ⟨htracks.upd h.alone (fun _ => postedCmd d) rfl, hxpt.trans (hoff (·.xpt)), hciph.trans (hoff (·.ciph)), hctrls.trans (hoff (·.ctrls)),
    hreel.trans (hoff (·.reel)), hmedia.trans (hoff (·.media)), ?_, fun k hk => ?_⟩
  · exact hpost.trans h.post
  · rw [← hrd k hk, vcOf, vcOf, ← hvct]
    rfl

end Sys2Proof.Machine

namespace Sys2Proof.Machine

variable {s t u : State} {c d e : Cmd} {x : Ns}

/-! ## A command that fails or is deferred -/

theorem failCmd_arrived (h : Arrived s u c d) (st : BitVec 16) : completed c st 0 0 s (failCmd d st u) := by
  have hoff := fun {β : Type} (g : State → β) => (congrArg g h.off : g (offQueue u) = g (offQueue s))
  obtain ⟨-, -, -, -, hvc, -, hsqe, -⟩ := core_fields h.core
  exact (completed_of_completeCmd h.alone h.tracks (tagOf_of_core h.core) hvc hsqe (keepsLocks_of_core h.core) (hoff (·.xpt)) (hoff (·.ciph))
    (hoff (·.ctrls)) (hoff (·.reel.deck))).1

theorem defer_arrived (h : Arrived s u c d) :
    ∃ e, liveCmd (defer d u) c.conn c.cid = some e ∧ e.phase = .deferred ∧ (defer d u).vct = s.vct ∧ (defer d u).media = s.media ∧
      (defer d u).piers = s.piers := by
  have hoff := fun {β : Type} (g : State → β) => (congrArg g h.off : g (offQueue u) = g (offQueue s))
  exact ⟨_, (h.tracks.upd h.alone (deferred u) rfl).liveCmd h.alone, rfl, hoff (·.vct), hoff (·.media), hoff (·.piers)⟩

/-! ## The blocks of a range that can be read -/

theorem addRun_append {l : List (Nat × Nat)} {a n : Nat} : addRun ((a, n) :: l) (a + n) = (a, n + 1) :: l :=
  if_pos rfl

/-- Blocks that follow one another make one run. -/
theorem foldl_addRun_range (a : Nat) : ∀ n, 0 < n → ((List.range n).map (a + ·)).foldl addRun [] = [(a, n)]
  | 0, h => absurd h (by decide)
  | 1, _ => rfl
  | n + 2, _ => by
    rw [List.range_succ, List.map_append, List.foldl_append, foldl_addRun_range a (n + 1) (Nat.succ_pos n)]
    exact addRun_append

/-- Runs of blocks of a range lie in it. -/
theorem foldl_addRun_within {lo hi : Nat} (l : List Nat) : ∀ acc : List (Nat × Nat), (∀ i ∈ l, lo ≤ i ∧ i < hi) →
    (∀ r ∈ acc, lo ≤ r.1 ∧ r.1 + r.2 ≤ hi) → ∀ r ∈ l.foldl addRun acc, lo ≤ r.1 ∧ r.1 + r.2 ≤ hi := by
  induction l with
  | nil => exact fun acc _ hacc => hacc
  | cons i l ih =>
    intro acc hl hacc
    obtain ⟨hlo, hhi⟩ := hl i List.mem_cons_self
    refine ih _ (fun j hj => hl j (List.mem_cons_of_mem _ hj)) fun r hr => ?_
    unfold addRun at hr
    split at hr
    · rw [List.mem_singleton] at hr
      subst hr
      exact ⟨hlo, hhi⟩
    · next q rest =>
      split at hr
      · next hq =>
        rcases List.mem_cons.mp hr with rfl | hr
        · exact ⟨(hacc q List.mem_cons_self).1, by simp only; omega⟩
        · exact hacc r (List.mem_cons_of_mem _ hr)
      · rcases List.mem_cons.mp hr with rfl | hr
        · exact ⟨hlo, hhi⟩
        · exact hacc r hr

theorem goodRuns_within {n : BitVec 32} {lba cnt : Nat} {r : Nat × Nat} (hr : r ∈ goodRuns s x n lba cnt) : lba ≤ r.1 ∧ r.1 + r.2 ≤ lba + cnt := by
  unfold goodRuns at hr
  rw [List.mem_reverse] at hr
  refine foldl_addRun_within _ [] (fun i hi => ?_) (fun r hr => absurd hr (by simp)) r hr
  obtain ⟨j, hj, rfl⟩ := List.mem_map.mp (List.mem_of_mem_filter hi)
  have := List.mem_range.mp hj
  omega

theorem zone_mem_rangeZones {lba cnt l : Nat} {z : Nat} (hlo : lba ≤ l) (hhi : l < lba + cnt)
    (hz : z ∈ rangeZones x l 1) : z ∈ rangeZones x lba cnt := by
  unfold rangeZones at hz ⊢
  split at hz
  · exact absurd hz (by simp)
  · next h =>
    rw [if_neg h]
    obtain ⟨i, hi, rfl⟩ := List.mem_map.mp hz
    have hi0 : i = 0 := by
      have := List.mem_range.mp hi
      rw [Nat.add_sub_cancel, Nat.sub_self] at this
      omega
    subst hi0
    have h1 : lba / zszeOf x ≤ l / zszeOf x := Nat.div_le_div_right hlo
    have h2 : l / zszeOf x ≤ (lba + cnt - 1) / zszeOf x := Nat.div_le_div_right (by omega)
    refine List.mem_map.mpr ⟨l / zszeOf x - lba / zszeOf x, List.mem_range.mpr (by omega), by omega⟩

/-- No block of a sound range is poisoned. -/
theorem rangePoisoned_block {n : BitVec 32} {lba cnt l : Nat} (h : rangePoisoned s x n lba cnt = false) (hlo : lba ≤ l) (hhi : l < lba + cnt) :
    rangePoisoned s x n l 1 = false := by
  unfold rangePoisoned at h ⊢
  rw [Bool.or_eq_false_iff] at h ⊢
  simp only [List.any_eq_false, List.any_eq_true, not_exists, Bool.and_eq_true, decide_eq_true_eq, not_and, not_lt] at h ⊢
  obtain ⟨hzones, hlbas⟩ := h
  refine ⟨fun z hz p hp => ?_, fun p hp hn => ?_⟩
  · have := hzones z (zone_mem_rangeZones hlo hhi hz) p hp
    omega
  · have := hlbas p hp hn
    omega

/-- A sound range is one run. -/
theorem goodRuns_sound {n : BitVec 32} {lba cnt : Nat} (h : rangePoisoned s x n lba cnt = false) (hcnt : 0 < cnt) : goodRuns s x n lba cnt =
    [(lba, cnt)] := by
  have hall : ((List.range cnt).map (lba + ·)).filter (fun l => !rangePoisoned s x n l 1) = (List.range cnt).map (lba + ·) := by
    rw [List.filter_eq_self]
    intro l hl
    obtain ⟨j, hj, rfl⟩ := List.mem_map.mp hl
    have := List.mem_range.mp hj
    rw [rangePoisoned_block h (by omega) (by omega)]
    rfl
  unfold goodRuns
  rw [hall, foldl_addRun_range lba cnt hcnt]
  rfl

theorem readyLbas_nil {n : BitVec 32} {lba cnt a k : Nat} (h : readyLbas s x n lba cnt = []) (hlo : lba ≤ a) (hhi : a + k ≤ lba + cnt) :
    readyLbas s x n a k = [] := by
  unfold readyLbas at h ⊢
  rw [List.filter_eq_nil_iff] at h ⊢
  intro l hl
  obtain ⟨j, hj, rfl⟩ := List.mem_map.mp hl
  have := List.mem_range.mp hj
  exact h (a + j) (List.mem_map.mpr ⟨a + j - lba, List.mem_range.mpr (by omega), by omega⟩)

end Sys2Proof.Machine

namespace Sys2Proof.Machine

variable {s t u : State} {c d e : Cmd} {x : Ns}

/-! ## The posting of reads -/

/-- What the posting of reads leaves alone. -/
def offReads (s : State) : State :=
  { s with piers := { chans := s.piers.chans }, tables := { s.tables with cmds := [] }, reel := { s.reel with cls := [] } }

theorem offPost_of_offReads (h : offReads t = offReads s) : offPost t = offPost s := same_of_view offReads offPost (fun _ => rfl) h

theorem offReads_fields (h : offReads t = offReads s) : t.xpt = s.xpt ∧ t.ciph = s.ciph ∧ t.ctrls = s.ctrls ∧ t.vct = s.vct ∧ t.media = s.media ∧
    t.reel.deck = s.reel.deck ∧ t.tables.nextOrder = s.tables.nextOrder := by
  have f := fun {β : Type} (g : State → β) => (congrArg g h : g (offReads t) = g (offReads s))
  exact ⟨f (·.xpt), f (·.ciph), f (·.ctrls), f (·.vct), f (·.media), f (·.reel.deck), f (·.tables.nextOrder)⟩

/-- A command's reads are being posted: its entry may have been counted, and beside it only reads have been posted since a state `u`. -/
structure Posting (s u t : State) (c e : Cmd) : Prop where
  entry : ∃ b, Tracks s t c { e with unbound := b }
  off : offReads t = offReads u

theorem Posting.start (h : Tracks s u c e) : Posting s u u c e := ⟨⟨e.unbound, h⟩, rfl⟩

/-- A change of the entries that a command's key finds. -/
theorem Tracks.map (ha : alone s c) (h : Tracks s t c d) {f : Cmd → Cmd} (hf : tagOf (f d) = tagOf d)
    (hrest : ∀ y, f y ≠ y → y.internal = false ∧ y.conn = c.conn ∧ y.cid = c.cid) {v : State} (hv : v.tables.cmds = t.tables.cmds.map f)
    (horder : v.tables.nextOrder = t.tables.nextOrder) : Tracks s v c (f d) := by
  refine ⟨?_, hf.trans h.tag, horder.trans h.order⟩
  rw [hv, h.cmds, swapped, swapped, List.map_map]
  refine List.map_congr_left fun y hy => ?_
  rw [Function.comp_apply]
  by_cases hyc : y = c
  · rw [if_pos hyc, if_pos hyc]
  · rw [if_neg hyc, if_neg hyc]
    by_contra hne
    obtain ⟨hint, hconn, hcid⟩ := hrest y hne
    exact hyc (alone_only ha hy hint hconn hcid)

/-- The mark of a command whose read is served without a bound. -/
def toldUnbound (x : DieDesc) (c : Cmd) : Cmd := if forCmd x c then { c with unbound := true } else c

theorem countUnbound_eq (x : DieDesc) (s : State) : ∃ f : SMap Cls → SMap Cls, countUnbound x s =
    modReel (fun r => { r with cls := f r.cls }) (modTables (fun u => { u with cmds := u.cmds.map (toldUnbound x) }) s) := by
  unfold countUnbound
  extract_lets told v
  split
  · exact ⟨id, rfl⟩
  · exact ⟨_, rfl⟩

theorem Posting.countUnbound (ha : alone s c) (h : Posting s u t c e) {y : DieDesc} (hy : y.cmd = some (c.conn, c.cid)) :
    Posting s u (countUnbound y t) c e := by
  obtain ⟨⟨b, hb⟩, hoff⟩ := h
  obtain ⟨f, hf⟩ := countUnbound_eq y t
  have hrest : ∀ z, toldUnbound y z ≠ z → z.internal = false ∧ z.conn = c.conn ∧ z.cid = c.cid := fun z hz => by
    unfold toldUnbound at hz
    split at hz
    · next hfor =>
      unfold forCmd at hfor
      rw [hy] at hfor
      simp only [Bool.and_eq_true, Bool.not_eq_true', decide_eq_true_eq, Option.some.injEq, Prod.mk.injEq] at hfor
      obtain ⟨⟨hint, -⟩, hconn, hcid⟩ := hfor
      exact ⟨hint, hconn.symm, hcid.symm⟩
    · exact absurd rfl hz
  have htold : ∃ b', toldUnbound y { e with unbound := b } = { e with unbound := b' } := by
    unfold toldUnbound
    split
    · exact ⟨true, rfl⟩
    · exact ⟨b, rfl⟩
  obtain ⟨b', hb'⟩ := htold
  have htracks := hb.map ha (f := toldUnbound y) (by rw [hb']; rfl) hrest (v := Machine.countUnbound y t) (by rw [hf]; rfl) (by rw [hf]; rfl)
  rw [hb'] at htracks
  refine ⟨⟨b', htracks⟩, ?_⟩
  rw [← hoff, hf]
  rfl

/-- Work on the dies' queues alone keeps a command's entry. -/
theorem Posting.modPiers (h : Posting s u t c e) {f : Piers → Piers} (hf : ∀ p, (f p).chans = p.chans) : Posting s u (modPiers f t) c e := by
  obtain ⟨⟨b, hb⟩, hoff⟩ := h
  refine ⟨⟨b, hb.keep rfl rfl⟩, ?_⟩
  rw [← hoff, offReads, modPiers_piers, hf]
  rfl

theorem onePlyMore_eq (y : DieDesc) (s : State) : ∃ f : Piers → Piers, onePlyMore y s = modPiers f s ∧ ∀ p, (f p).chans = p.chans := by
  unfold onePlyMore
  split
  · exact ⟨id, rfl, fun _ => rfl⟩
  · exact ⟨_, rfl, fun _ => rfl⟩

theorem postSplit_eq (unb : Bool) : ∀ (n : Nat) (y : DieDesc) (s : State),
    ∃ f : Piers → Piers, postSplit unb n y s = modPiers f s ∧ ∀ p, (f p).chans = p.chans
  | 0, _, _ => ⟨_, rfl, fun _ => rfl⟩
  | n + 1, y, s => by
    unfold postSplit
    split
    · unfold postRead
      split <;> exact ⟨_, rfl, fun _ => rfl⟩
    · split
      · exact ⟨_, rfl, fun _ => rfl⟩
      · next b hb =>
        extract_lets k v
        split
        · exact ⟨_, rfl, fun _ => rfl⟩
        · obtain ⟨f, hf, hfc⟩ := postSplit_eq unb n (descSlice y k (descCount y - k)) v
          obtain ⟨g, hg, hgc⟩ := onePlyMore_eq y s
          have hv : ∃ g : Piers → Piers, v = modPiers g s ∧ ∀ p, (g p).chans = p.chans :=
            ⟨_, (congrArg (modPiers _) hg).trans (modPiers_modPiers _ g s), fun p => hgc p⟩
          obtain ⟨q, hq, hqc⟩ := hv
          exact ⟨fun p => f (q p), by rw [hf, hq, modPiers_modPiers], fun p => (hfc _).trans (hqc p)⟩

theorem Posting.postNew (ha : alone s c) (h : Posting s u t c e) (unb : Bool) {y : DieDesc} (hy : y.cmd = some (c.conn, c.cid)) :
    Posting s u (postNew unb y t) c e := by
  unfold Machine.postNew
  extract_lets w
  obtain ⟨f, hf, hfc⟩ := postSplit_eq w 4 y (if w then Machine.countUnbound y t else t)
  rw [hf]
  refine Posting.modPiers ?_ hfc
  split
  · exact h.countUnbound ha hy
  · exact h

theorem Posting.foldl {α : Type} {f : State → α → State} {l : List α} (hf : ∀ (t : State) (a : α), a ∈ l → Posting s u t c e → Posting s u
    (f t a) c e)
    (h : Posting s u t c e) : Posting s u (l.foldl f t) c e := by
  induction l generalizing t with
  | nil => exact h
  | cons a l ih => exact ih (fun t b hb => hf t b (List.mem_cons_of_mem _ hb)) (hf t a List.mem_cons_self h)

theorem plyReads_cmd {y z : DieDesc} {lone : Bool} (h : z ∈ plyReads t y lone) : z.cmd = y.cmd := by
  unfold plyReads at h
  obtain ⟨w, -, rfl⟩ := List.mem_map.mp h
  rfl

theorem Posting.postJob (ha : alone s c) (h : Posting s u t c e) (unb : Bool) {y : DieDesc} (hy : y.cmd = some (c.conn, c.cid)) :
    Posting s u (postJob unb y t) c e := by
  unfold Machine.postJob
  split
  · unfold startRecon
    extract_lets l k v
    have hv : Posting s u v c e := h.modPiers fun _ => rfl
    refine hv.foldl fun t z hz ht => ?_
    exact ht.postNew ha unb ((plyReads_cmd hz).trans hy)
  · exact h.postNew ha unb hy

/-- The reads of a range are posted. -/
theorem Posting.parts (ha : alone s c) (h : Posting s u t c e) (unb : Bool) (htag : tagOf d = tagOf c) (g : Part → Nat) (l : List Part) :
    Posting s u (l.foldl (fun t p => Machine.postJob unb (partDesc t d x p (g p)) t) t) c e := by
  obtain ⟨hint, -, hconn, hcid, -⟩ := tagOf_fields htag
  refine h.foldl fun t p _ ht => ht.postJob ha unb ?_
  change (if d.internal then none else some (d.conn, d.cid)) = _
  rw [hint, ha.2.1, hconn, hcid]
  rfl

/-- A range all of whose blocks are on flash is posted. -/
theorem Posting.postRange (ha : alone s c) (h : Posting s u t c e) (unb : Bool) (htag : tagOf d = tagOf c) {a n off : Nat}
    (hready : readyLbas t x d.nsid a n = []) : Posting s u (postRange unb d x a n off t) c e := by
  unfold Machine.postRange
  rw [hready]
  exact h.parts ha unb htag _ _

end Sys2Proof.Machine

namespace Sys2Proof.Machine

variable {s t u v : State} {c d e : Cmd} {x : Ns}

/-! ## What a completion is made of -/

/-- What of a command its completion depends on. -/
def replyOf (c : Cmd) : (Bool × Bool × BitVec 16 × BitVec 16 × Nat) × Option (BitVec 12) × BitVec 512 × Bool × BitVec 8 :=
  (tagOf c, c.vc, c.sqe, c.admin, c.opcode)

theorem replyOf_fields (h : replyOf d = replyOf c) : tagOf d = tagOf c ∧ d.vc = c.vc ∧ d.sqe = c.sqe ∧ d.admin = c.admin ∧ d.opcode = c.opcode := by
  unfold replyOf at h
  simpa only [Prod.mk.injEq] using h

theorem replyOf_of_core (h : core d = core c) : replyOf d = replyOf c := (congrArg replyOf h : replyOf (core d) = replyOf (core c))

theorem keepsLocks_of_reply (h : replyOf d = replyOf c) : keepsLocks d = keepsLocks c := by
  obtain ⟨htag, -, -, hadmin, hop⟩ := replyOf_fields h
  obtain ⟨hint, hclosed, -⟩ := tagOf_fields htag
  rw [keepsLocks, hint, hadmin, hclosed, hop, keepsLocks]

/-- What of the state a completion depends on, beside the tables. -/
def replyRest (s : State) : Xpt × Ciph × SMap Ctrl × BitVec 4 := (s.xpt, s.ciph, s.ctrls, s.reel.deck)

theorem replyRest_fields (h : replyRest t = replyRest s) : t.xpt = s.xpt ∧ t.ciph = s.ciph ∧ t.ctrls = s.ctrls ∧ t.reel.deck = s.reel.deck := by
  unfold replyRest at h
  simpa only [Prod.mk.injEq] using h

/-- The completion of a command whose entry has been followed. -/
theorem Tracks.completed (ha : alone s c) (h : Tracks s u c d) (hd : replyOf d = replyOf c) (hrest : replyRest u = replyRest s)
    (he : replyOf e = replyOf c)
    (st : BitVec 16) (dw0 dw1 : BitVec 32) :
    completed c st dw0 dw1 s (completeCmd e st dw0 dw1 u) ∧ (completeCmd e st dw0 dw1 u).media.zones = u.media.zones ∧
      (completeCmd e st dw0 dw1 u).vct = u.vct := by
  obtain ⟨hxpt, hciph, hctrls, hdeck⟩ := replyRest_fields hrest
  obtain ⟨-, hvc, -⟩ := replyOf_fields hd
  obtain ⟨hetag, -, hesqe, -⟩ := replyOf_fields he
  exact completed_of_completeCmd ha h hetag hvc hesqe (keepsLocks_of_reply he) hxpt hciph hctrls hdeck

/-! ## The reads of a read command -/

theorem Posting.rest (h : Posting s u t c e) : replyRest t = replyRest u := by
  obtain ⟨hxpt, hciph, hctrls, -, -, hdeck, -⟩ := offReads_fields h.off
  rw [replyRest, hxpt, hciph, hctrls, hdeck, replyRest]

theorem Posting.post (h : Posting s u t c e) : offPost t = offPost u := offPost_of_offReads h.off

/-- The runs of a range that is on flash are posted. -/
theorem Posting.runs (ha : alone s c) (h : Posting s u t c e) (unb : Bool) (htag : tagOf d = tagOf c) (off : Nat × Nat → Nat) {l : List (Nat × Nat)}
    (hready : ∀ r ∈ l, readyLbas u x d.nsid r.1 r.2 = []) :
    Posting s u (l.foldl (fun t r => Machine.postRange unb d x r.1 r.2 (off r) t) t) c e :=
  h.foldl fun t r hr ht => ht.postRange ha unb htag (by rw [readyLbas_congr ht.post]; exact hready r hr)

theorem endRead_last (hop : isReadOp e.opcode = true) (hgot : e.got = e.nlb) :
    endRead e s = completeCmd e (if e.fail then status 2 0x81 else 0) 0 0 s := by
  unfold endRead
  rw [if_pos (by simp [hop, hgot])]

theorem endRead_more (hgot : e.got ≠ e.nlb) : endRead e s = s := by
  unfold endRead
  rw [if_neg (by simp [hgot])]

/-- An entry with blocks that cannot be read. -/
def failedBlocks (n : Nat) (c : Cmd) : Cmd := { c with got := c.got + n, fail := true }

theorem failBlocks_read (hop : isReadOp e.opcode = true) (n : Nat) :
    failBlocks e n s = endRead (failedBlocks n e) (updCmd e (fun _ => failedBlocks n e) s) := by
  unfold failBlocks
  rw [if_neg (by rw [hop]; decide)]
  rfl

/-- A range that can be read whole is posted whole. -/
theorem postReads_sound (ha : alone s c) (h : Tracks s u c e) (hsound : rangePoisoned u x e.nsid e.slba e.nlb = false) (hnlb : 0 < e.nlb) :
    postReads e x u = postRange (!inTime e) e x e.slba e.nlb (e.slba - e.slba) u := by
  unfold postReads
  extract_lets runs bad v
  have hruns : runs = [(e.slba, e.nlb)] := goodRuns_sound hsound hnlb
  have hbad : bad = 0 := by
    unfold bad
    rw [hruns]
    simp
  have hv : v = u := if_pos hbad
  rw [hv, h.sameCmd ha h.tag, hruns]
  rfl

/-- The blocks of a read that cannot be read. -/
def badBlocks (u : State) (x : Ns) (e : Cmd) : Nat := e.nlb - ((goodRuns u x e.nsid e.slba e.nlb).map (·.2)).sum

/-- A range of which something can be read is posted as far as it can be, and fails at its end. -/
theorem postReads_partly (ha : alone s c) (h : Tracks s u c e) (hop : isReadOp e.opcode = true) (hgot : e.got = 0)
    (hsome : 0 < ((goodRuns u x e.nsid e.slba e.nlb).map (·.2)).sum) (hmore : ((goodRuns u x e.nsid e.slba e.nlb).map (·.2)).sum < e.nlb)
    (hready : readyLbas u x e.nsid e.slba e.nlb = []) :
    Posting s (updCmd e (fun _ => failedBlocks (badBlocks u x e) e) u) (postReads e x u) c (failedBlocks (badBlocks u x e) e) := by
  have htracks := h.upd ha (fun _ => failedBlocks (badBlocks u x e) e) rfl
  unfold postReads
  extract_lets runs bad v
  have hbad : bad = badBlocks u x e := rfl
  have hrange : badBlocks u x e ≠ 0 ∧ badBlocks u x e ≠ e.nlb := by
    unfold badBlocks
    omega
  have hv : v = updCmd e (fun _ => failedBlocks (badBlocks u x e) e) u := by
    unfold v
    rw [hbad, if_neg hrange.1, failBlocks_read hop, endRead_more]
    change e.got + badBlocks u x e ≠ e.nlb
    rw [hgot, Nat.zero_add]
    exact hrange.2
  rw [hv, htracks.sameCmd ha h.tag]
  refine (Posting.start htracks).runs ha _ htracks.tag _ fun r hr => ?_
  obtain ⟨hlo, hhi⟩ := goodRuns_within hr
  exact readyLbas_nil hready hlo hhi

/-- A range of which nothing can be read fails its read. -/
theorem postReads_none (hop : isReadOp e.opcode = true) (hgot : e.got = 0) (hnlb : 0 < e.nlb) (hnone : goodRuns u x e.nsid e.slba e.nlb = []) :
    postReads e x u = completeCmd (failedBlocks e.nlb e) (status 2 0x81) 0 0 (updCmd e (fun _ => failedBlocks e.nlb e) u) := by
  unfold postReads
  extract_lets runs bad v
  have hruns : runs = [] := hnone
  have hbad : bad = e.nlb := by
    unfold bad
    rw [hruns]
    rfl
  have hv : v = completeCmd (failedBlocks e.nlb e) (status 2 0x81) 0 0 (updCmd e (fun _ => failedBlocks e.nlb e) u) := by
    unfold v
    rw [hbad, if_neg (Nat.ne_of_gt hnlb), failBlocks_read hop, endRead_last (e := failedBlocks e.nlb e) hop]
    · rfl
    · change e.got + e.nlb = e.nlb
      rw [hgot, Nat.zero_add]
  rw [hruns, hv]
  split <;> rfl

end Sys2Proof.Machine

namespace Sys2Proof.Machine

variable {s t u v : State} {c d e : Cmd} {x : Ns}

/-! ## Blocks that need no media read (R290, R333) -/

/-- A command's entry with blocks that have come. -/
def holding (e : Cmd) (g : Nat) (m : SMap (List (BitVec 8))) : Cmd := { e with got := g, blocks := m }

/-- The job of a block of a command that needs no media read. -/
def blockJob (d : Cmd) (l off : Nat) : Job := partJob d { lba := l } off none

theorem blockJob_key (htag : tagOf d = tagOf c) (l off : Nat) :
    ((blockJob d l off).int, (blockJob d l off).conn, (blockJob d l off).cid, (blockJob d l off).serial) = (c.internal, c.conn, c.cid,
      c.arrival) := by
  obtain ⟨hint, -, hconn, hcid, harr⟩ := tagOf_fields htag
  change (d.internal, d.conn, d.cid, d.arrival) = _
  rw [hint, hconn, hcid, harr]

/-- The blocks of a transfer once one more has come. -/
def blocksWith (e : Cmd) (off : Nat) (b : List (BitVec 8)) : SMap (List (BitVec 8)) :=
  if e.opcode = 0x19 then [b].zipIdx.foldl (fun m b => mset [] (off + b.2) b.1 m) e.blocks else e.blocks

theorem giveStaged_block (htag : tagOf d = tagOf c) (ha : alone s c) (h : Tracks s t c e) (hop : e.opcode ≠ 2) (hphase : e.phase ≠ .ended)
    (l off : Nat)
    (b : List (BitVec 8)) :
    giveStaged (blockJob d l off) x b t = endRead (holding e (e.got + 1) (blocksWith e off b)) (updCmd e (fun _ => holding e (e.got + 1)
      (blocksWith e off b)) t) := by
  have hfind := h.findJob ha (blockJob_key htag l off) hphase
  change giveBlocks (blockJob d l off) x l off [b] t = _
  unfold giveBlocks
  rw [hfind]
  simp only [putBlocks, if_pos hop]
  rfl

/-- A block of a command is read where it needs no slot, or a slot of its class runs. -/
def readNow (s : State) (x : Ns) (n : BitVec 32) (cls : BitVec 8) (l : Nat) : Prop := isStaged s x n l = false ∨ dramSlot s cls.toNat = true

theorem readStaged_now (htag : tagOf d = tagOf c) (ha : alone s c) (h : Tracks s t c e) (hop : e.opcode ≠ 2) (hphase : e.phase ≠ .ended)
    {l : Nat} (off : Nat)
    (hnow : readNow t x d.nsid e.cls l) :
    ∃ m, readStaged (blockJob d l off) x t = endRead (holding e (e.got + 1) m) (updCmd e (fun _ => holding e (e.got + 1) m) t) := by
  have hcls : jobClass t (blockJob d l off) = e.cls.toNat := by
    unfold jobClass
    rw [h.findJob ha (blockJob_key htag l off) hphase]
  refine ⟨blocksWith e off (stagedBlock t x d.nsid l), ?_⟩
  rw [← giveStaged_block (x := x) htag ha h hop hphase l off]
  unfold readStaged
  rw [if_pos]
  · rfl
  · rw [hcls, Bool.or_eq_true, Bool.not_eq_true']
    exact hnow

theorem readStaged_later (htag : tagOf d = tagOf c) (ha : alone s c) (h : Tracks s t c e) (hphase : e.phase ≠ .ended) {l : Nat} (off : Nat)
    (hnow : ¬ readNow t x d.nsid e.cls l) :
    ∃ f : Piers → Piers, readStaged (blockJob d l off) x t = modPiers f t ∧ ∀ p, (f p).chans = p.chans := by
  have hcls : jobClass t (blockJob d l off) = e.cls.toNat := by
    unfold jobClass
    rw [h.findJob ha (blockJob_key htag l off) hphase]
  refine ⟨_, if_neg ?_, fun _ => rfl⟩
  rw [hcls, Bool.or_eq_true, Bool.not_eq_true']
  exact hnow

theorem readNow_congr (h : offPost t = offPost s) (x : Ns) (n : BitVec 32) (cls : BitVec 8)
    (l : Nat) : readNow t x n cls l = readNow s x n cls l := by
  rw [readNow, isStaged_congr h, dramSlot_congr h, readNow]

theorem endRead_open (h : isReadOp e.opcode = false ∨ e.got ≠ e.nlb) : endRead e s = s := by
  rcases h with h | h
  · unfold endRead
    rw [if_neg (by rw [h]; exact Bool.false_ne_true)]
  · exact endRead_more h

/-- A block of a command's range is read, and is not the last of a read. -/
theorem Posting.block (htag : tagOf d = tagOf c) (ha : alone s c) {g : Nat} {m : SMap (List (BitVec 8))} (h : Posting s u t c (holding e g m))
    (hop : e.opcode ≠ 2) (hphase : e.phase ≠ .ended) (hmore : isReadOp e.opcode = false ∨ g + 1 ≠ e.nlb) (l off : Nat) :
    ∃ g' m', Posting s u (readStaged (blockJob d l off) x t) c (holding e g' m') ∧ g' ≤ g + 1 ∧ (readNow u x d.nsid e.cls l → g' = g + 1) := by
  obtain ⟨⟨b, hb⟩, hoff⟩ := id h
  by_cases hnow : readNow u x d.nsid e.cls l
  · rw [← readNow_congr h.post] at hnow
    obtain ⟨m', hm'⟩ := readStaged_now htag ha hb hop hphase off hnow
    refine ⟨g + 1, m', ?_, le_refl _, fun _ => rfl⟩
    rw [hm', endRead_open hmore]
    exact ⟨⟨b, hb.upd ha (fun _ => { holding e (g + 1) m' with unbound := b }) rfl⟩, hoff⟩
  · obtain ⟨f, hf, hfc⟩ := readStaged_later htag ha hb hphase off (by rw [readNow_congr h.post]; exact hnow)
    exact ⟨g, m, hf ▸ h.modPiers hfc, Nat.le_succ g, fun hyes => absurd hyes hnow⟩

/-- The blocks of a list are read, the last of a read not among them. -/
theorem Posting.blocks (htag : tagOf d = tagOf c) (ha : alone s c) (hop : e.opcode ≠ 2) (hphase : e.phase ≠ .ended) (off : Nat → Nat) :
    ∀ (l : List Nat) {t : State} {g : Nat} {m : SMap (List (BitVec 8))}, Posting s u t c (holding e g m) →
      (isReadOp e.opcode = false ∨ g + l.length < e.nlb) →
      ∃ g' m', Posting s u (l.foldl (fun t i => readStaged (blockJob d i (off i)) x t) t) c (holding e g' m') ∧ g' ≤ g + l.length ∧
        ((∀ i ∈ l, readNow u x d.nsid e.cls i) → g' = g + l.length)
  | [], _, g, m, h, _ => ⟨g, m, h, le_refl _, fun _ => rfl⟩
  | i :: l, t, g, m, h, hmore => by
    rw [List.length_cons] at hmore
    obtain ⟨g₁, m₁, h₁, hle₁, heq₁⟩ := h.block (x := x) htag ha hop hphase (hmore.imp_right fun hlt => by omega) i (off i)
    obtain ⟨g₂, m₂, h₂, hle₂, heq₂⟩ := Posting.blocks htag ha hop hphase off l h₁ (hmore.imp_right fun hlt => by omega)
    refine ⟨g₂, m₂, h₂, by rw [List.length_cons]; omega, fun hall => ?_⟩
    have h1 := heq₁ (hall i List.mem_cons_self)
    have h2 := heq₂ fun j hj => hall j (List.mem_cons_of_mem _ hj)
    rw [List.length_cons]
    omega

/-! ## A range that is nowhere on flash -/

theorem foldl_addPart_nil : ∀ (l acc : List Part), l.foldl addPart acc = [] → l = [] ∧ acc = []
  | [], _, h => ⟨rfl, h⟩
  | p :: l, acc, h => by
    have hp : addPart acc p ≠ [] := by
      unfold addPart
      split
      · exact List.cons_ne_nil _ _
      · split <;> exact List.cons_ne_nil _ _
    exact absurd (foldl_addPart_nil l _ h).2 hp

/-- Nothing of a range is on flash where it has no parts. -/
theorem readyLbas_of_splitRead {n : BitVec 32} {lba cnt : Nat} (h : splitRead s x n lba cnt = []) :
    readyLbas s x n lba cnt = (List.range cnt).map (lba + ·) := by
  unfold splitRead at h
  have hnil := (foldl_addPart_nil _ _ (List.reverse_eq_nil_iff.mp h)).1
  rw [List.filterMap_eq_nil_iff] at hnil
  unfold readyLbas
  rw [List.filter_eq_self]
  intro l hl
  obtain ⟨i, hi, rfl⟩ := List.mem_map.mp hl
  rw [hnil i hi]
  rfl

/-- A range has fewer blocks that need no media read than blocks where it has a part. -/
theorem readyLbas_length {n : BitVec 32} {lba cnt : Nat} : (readyLbas s x n lba cnt).length ≤ cnt ∧
    (splitRead s x n lba cnt ≠ [] → (readyLbas s x n lba cnt).length < cnt) := by
  have hlen : ((List.range cnt).map (lba + ·)).length = cnt := by rw [List.length_map, List.length_range]
  have hle : (readyLbas s x n lba cnt).length ≤ cnt := (List.length_filter_le _ _).trans hlen.le
  refine ⟨hle, fun hsplit => lt_of_le_of_ne hle fun heq => hsplit ?_⟩
  have hall : ∀ l ∈ (List.range cnt).map (lba + ·), (lbaPart s x n l).isNone = true :=
    List.filter_eq_self.mp ((List.filter_sublist).eq_of_length (heq.trans hlen.symm))
  unfold splitRead
  rw [List.reverse_eq_nil_iff]
  have hnil : (List.range cnt).filterMap (fun i => lbaPart s x n (lba + i)) = [] := by
    rw [List.filterMap_eq_nil_iff]
    exact fun i hi => Option.isNone_iff_eq_none.mp (hall _ (List.mem_map.mpr ⟨i, hi, rfl⟩))
  rw [hnil]
  rfl

/-- The last block of a Verify completes it. -/
theorem readStaged_last (htag : tagOf d = tagOf c) (ha : alone s c) (h : Tracks s t c e) (hreply : replyOf e = replyOf c)
    (hrest : replyRest t = replyRest s)
    (hop : e.opcode = 0x0C) (hphase : e.phase ≠ .ended) (hlast : e.got + 1 = e.nlb) (hfail : e.fail = false) {l : Nat} (off : Nat)
    (hnow : readNow t x d.nsid e.cls l) : completed c 0 0 0 s (readStaged (blockJob d l off) x t) := by
  obtain ⟨m, hm⟩ := readStaged_now htag ha h (by rw [hop]; decide) hphase off hnow
  have hopr : isReadOp (holding e (e.got + 1) m).opcode = true := by
    change isReadOp e.opcode = true
    rw [hop]
    decide
  rw [hm, endRead_last hopr hlast, if_neg]
  · exact ((h.upd ha (fun _ => holding e (e.got + 1) m) rfl).completed (e := holding e (e.got + 1) m) ha hreply hrest hreply 0 0 0).1
  · change ¬ e.fail = true
    rw [hfail]
    exact Bool.false_ne_true

/-- A verified range that is nowhere on flash completes. -/
theorem postRange_completes (ha : alone s c) (h : Tracks s u c e) (hreply : replyOf e = replyOf c) (hrest : replyRest u = replyRest s)
    (hop : e.opcode = 0x0C)
    (hphase : e.phase ≠ .ended) (hgot : e.got = 0) (hfail : e.fail = false) (hnlb : 0 < e.nlb) (hparts : splitRead u x e.nsid e.slba e.nlb = [])
    (hnow : ∀ i, e.slba ≤ i → i < e.slba + e.nlb → readNow u x e.nsid e.cls i) (unb : Bool) (off : Nat) :
    completed c 0 0 0 s (postRange unb e x e.slba e.nlb off u) := by
  have hop2 : e.opcode ≠ 2 := by rw [hop]; decide
  obtain ⟨k, hk⟩ := Nat.exists_eq_succ_of_ne_zero (Nat.ne_of_gt hnlb)
  have hready : readyLbas u x e.nsid e.slba e.nlb = (List.range k).map (e.slba + ·) ++ [e.slba + k] := by
    rw [readyLbas_of_splitRead hparts, hk, List.range_succ, List.map_append]
    rfl
  have hrange : postRange unb e x e.slba e.nlb off u =
      ((List.range k).map (e.slba + ·) ++ [e.slba + k]).foldl (fun t i => readStaged (blockJob e i (off + (i - e.slba))) x t) u := by
    unfold postRange
    rw [hparts, hready]
    rfl
  have hstart : Posting s u u c (holding e 0 e.blocks) := by
    have : holding e 0 e.blocks = e := by rw [← hgot]; rfl
    rw [this]
    exact Posting.start h
  obtain ⟨g, m, hpost, -, hg⟩ := Posting.blocks (x := x) h.tag ha hop2 hphase (fun i => off + (i - e.slba)) ((List.range k).map (e.slba + ·)) hstart
    (.inr (by rw [List.length_map, List.length_range]; omega))
  have hgk : g = k := by
    have := hg fun i hi => by
      obtain ⟨j, hj, rfl⟩ := List.mem_map.mp hi
      have := List.mem_range.mp hj
      exact hnow _ (by omega) (by omega)
    rwa [List.length_map, List.length_range, Nat.zero_add] at this
  rw [hrange, List.foldl_append, List.foldl_cons, List.foldl_nil]
  generalize ((List.range k).map (e.slba + ·)).foldl (fun t i => readStaged (blockJob e i (off + (i - e.slba))) x t) u = t at *
  obtain ⟨⟨b, hb⟩, hoff⟩ := id hpost
  exact readStaged_last h.tag ha hb hreply (hpost.rest.trans hrest) hop hphase (by change g + 1 = e.nlb; omega) hfail _
    (by rw [readNow_congr hpost.post]; exact hnow (e.slba + k) (by omega) (by omega))

end Sys2Proof.Machine

namespace Sys2Proof.Machine

variable {s t u : State} {c d : Cmd} {x : Ns}

/-! ## A read that has come through its locks (R63, R283) -/

/-- What a read's range can be: in no Offline zone, and nowhere poisoned. -/
def rangeSound (s : State) (x : Ns) (c : Cmd) : Prop :=
  rangeOffline s x c.nsid c.slba c.nlb = false ∧ rangePoisoned s x c.nsid c.slba c.nlb = false

/-- What a read needs beside its range: tokens, places and transport. -/
def readCan (s : State) (x : Ns) (c : Cmd) : Prop := readTokens s c (readUnits s x c) = true ∧ readPlaced s x c = true

/-- A read is posted with its tokens charged. -/
def readPosted (s : State) (x : Ns) (c : Cmd) (t : State) : Prop :=
  ∃ d, liveCmd t c.conn c.cid = some d ∧ d.phase = .posted ∧ t.xpt.tx = s.xpt.tx ∧
    (∀ v, c.vc = some v → (vcOf t v.toNat).rd = (vcOf s v.toNat).rd - readUnits s x c) ∧ t.media = s.media

section
variable (h : Arrived s u c d) (hns : nsOf s c.nsid.toNat = some x) (hop : isReadOp c.opcode = true)
include h hns hop

theorem runCmd_arrived : runCmd d u = if rangeOffline s x c.nsid c.slba c.nlb = true then failCmd d (status 1 0xBB) u
    else if (readTokens s c (readUnits s x c) && readPlaced s x c) = true then postReads (postedCmd d) x (readCharged d (readUnits s x c) u)
    else defer d u := by
  obtain ⟨-, -, -, hopc, -⟩ := h.fields
  rw [runCmd_read (by rw [hopc]; exact hop), admitRead_arrived h hns]

theorem runCmd_offline (hoff : rangeOffline s x c.nsid c.slba c.nlb = true) : completed c (status 1 0xBB) 0 0 s (runCmd d u) := by
  rw [runCmd_arrived h hns hop, if_pos hoff]
  exact failCmd_arrived h _

theorem runCmd_unpaid (hoff : rangeOffline s x c.nsid c.slba c.nlb = false) (htok : readTokens s c (readUnits s x c) = false) :
    ∃ e, liveCmd (runCmd d u) c.conn c.cid = some e ∧ e.phase = .deferred ∧ (runCmd d u).vct = s.vct ∧ (runCmd d u).media = s.media ∧
      (runCmd d u).piers = s.piers := by
  rw [runCmd_arrived h hns hop, hoff, if_neg Bool.false_ne_true, htok, Bool.false_and, if_neg Bool.false_ne_true]
  exact defer_arrived h

/-- An admitted read's reads are posted from the state in which it is charged. -/
theorem runCmd_admitted (hoff : rangeOffline s x c.nsid c.slba c.nlb = false) (hcan : readCan s x c) :
    ∃ v, runCmd d u = postReads (postedCmd d) x v ∧ Tracks s v c (postedCmd d) ∧ replyRest v = replyRest s ∧ offPost v = offPost s ∧
      v.media = s.media ∧ v.xpt = s.xpt ∧ ∀ k, c.vc = some k → (vcOf v k.toNat).rd = (vcOf s k.toNat).rd - readUnits s x c := by
  obtain ⟨htracks, hxpt, hciph, hctrls, hreel, hmedia, hpost, hrd⟩ := readCharged_frame h (readUnits s x c)
  refine ⟨_, ?_, htracks, ?_, hpost, hmedia, hxpt, hrd⟩
  · rw [runCmd_arrived h hns hop, hoff, if_neg Bool.false_ne_true, hcan.1, hcan.2]
    rfl
  · rw [replyRest, hxpt, hciph, hctrls, hreel, replyRest]

theorem runCmd_posts (hsound : rangeSound s x c) (hcan : readCan s x c) (hmedia : readyLbas s x c.nsid c.slba c.nlb = []) (hnlb : 0 < c.nlb) :
    readPosted s x c (runCmd d u) := by
  obtain ⟨v, hrun, htracks, -, hpost, hvmedia, hvxpt, hrd⟩ := runCmd_admitted h hns hop hsound.1 hcan
  obtain ⟨hnsid, hslba, hlen, -⟩ := h.fields
  have hpoison : rangePoisoned v x (postedCmd d).nsid (postedCmd d).slba (postedCmd d).nlb = false := by
    change rangePoisoned v x d.nsid d.slba d.nlb = false
    rw [rangePoisoned_congr hpost, hnsid, hslba, hlen]
    exact hsound.2
  have hready : readyLbas v x (postedCmd d).nsid (postedCmd d).slba (postedCmd d).nlb = [] := by
    change readyLbas v x d.nsid d.slba d.nlb = []
    rw [readyLbas_congr hpost, hnsid, hslba, hlen]
    exact hmedia
  rw [hrun, postReads_sound h.alone htracks hpoison (by change 0 < d.nlb; rw [hlen]; exact hnlb)]
  obtain ⟨⟨b, hb⟩, hoff⟩ := (Posting.start htracks).postRange h.alone (!inTime (postedCmd d)) htracks.tag
    (off := (postedCmd d).slba - (postedCmd d).slba) hready
  generalize postRange _ _ _ _ _ _ _ = w at hb hoff ⊢
  obtain ⟨hxpt, -, -, hvct, hmed, -⟩ := offReads_fields hoff
  exact ⟨_, hb.liveCmd h.alone, rfl, by rw [hxpt, hvxpt], fun k hk => by rw [← hrd k hk, vcOf, hvct, vcOf], by rw [hmed, hvmedia]⟩

theorem runCmd_partly (hoff : rangeOffline s x c.nsid c.slba c.nlb = false) (hcan : readCan s x c) (hgot : c.got = 0)
    (hsome : 0 < ((goodRuns s x c.nsid c.slba c.nlb).map (·.2)).sum) (hmore : ((goodRuns s x c.nsid c.slba c.nlb).map (·.2)).sum < c.nlb)
    (hmedia : readyLbas s x c.nsid c.slba c.nlb = []) :
    ∃ e, liveCmd (runCmd d u) c.conn c.cid = some e ∧ e.phase = .posted ∧ e.fail = true ∧ (runCmd d u).xpt.tx = s.xpt.tx := by
  obtain ⟨v, hrun, htracks, -, hpost, -, hvxpt, -⟩ := runCmd_admitted h hns hop hoff hcan
  obtain ⟨hnsid, hslba, hlen, hopc, -⟩ := h.fields
  have hdgot : d.got = 0 := (core_fields h.core).2.2.2.2.2.2.2.2.1.trans hgot
  rw [← goodRuns_congr hpost, ← hnsid, ← hslba, ← hlen] at hsome hmore
  rw [← readyLbas_congr hpost, ← hnsid, ← hslba, ← hlen] at hmedia
  obtain ⟨⟨b, hb⟩, hread⟩ := postReads_partly h.alone htracks (by change isReadOp d.opcode = true; rw [hopc]; exact hop) hdgot hsome hmore hmedia
  rw [hrun]
  generalize postReads (postedCmd d) x v = w at hb hread ⊢
  obtain ⟨hxpt, -⟩ := offReads_fields hread
  exact ⟨_, hb.liveCmd h.alone, rfl, rfl, by rw [hxpt, ← hvxpt]; rfl⟩

theorem runCmd_unreadable (hoff : rangeOffline s x c.nsid c.slba c.nlb = false) (hcan : readCan s x c) (hgot : c.got = 0) (hnlb : 0 < c.nlb)
    (hnone : goodRuns s x c.nsid c.slba c.nlb = []) : completed c (status 2 0x81) 0 0 s (runCmd d u) := by
  obtain ⟨v, hrun, htracks, hrest, hpost, -⟩ := runCmd_admitted h hns hop hoff hcan
  obtain ⟨hnsid, hslba, hlen, hopc, -⟩ := h.fields
  have hdgot : d.got = 0 := (core_fields h.core).2.2.2.2.2.2.2.2.1.trans hgot
  rw [← goodRuns_congr hpost, ← hnsid, ← hslba, ← hlen] at hnone
  have hreply : replyOf (failedBlocks (postedCmd d).nlb (postedCmd d)) = replyOf c := (replyOf_of_core h.core : replyOf d = replyOf c)
  have hopr : isReadOp (postedCmd d).opcode = true := by
    change isReadOp d.opcode = true
    rw [hopc]
    exact hop
  have hdlen : 0 < (postedCmd d).nlb := by
    change 0 < d.nlb
    rw [hlen]
    exact hnlb
  rw [hrun, postReads_none hopr hdgot hdlen hnone]
  exact ((htracks.upd h.alone (fun _ => failedBlocks (postedCmd d).nlb (postedCmd d)) rfl).completed h.alone hreply hrest hreply _ 0 0).1

theorem runCmd_verified (hsound : rangeSound s x c) (hcan : readCan s x c) (hparts : splitRead s x c.nsid c.slba c.nlb = []) (hnlb : 0 < c.nlb)
    (hgot : c.got = 0) (hfail : c.fail = false) (hverify : c.opcode = 0x0C)
    (hnow : anyStaged s x c.nsid c.slba c.nlb = false ∨ dramSlot s c.cls.toNat = true) : completed c 0 0 0 s (runCmd d u) := by
  obtain ⟨v, hrun, htracks, hrest, hpost, -⟩ := runCmd_admitted h hns hop hsound.1 hcan
  obtain ⟨hnsid, hslba, hlen, hopc, -, hcls, -, -, hgotc, hfailc, -⟩ := core_fields h.core
  have hpoison : rangePoisoned v x (postedCmd d).nsid (postedCmd d).slba (postedCmd d).nlb = false := by
    change rangePoisoned v x d.nsid d.slba d.nlb = false
    rw [rangePoisoned_congr hpost, hnsid, hslba, hlen]
    exact hsound.2
  have hsplit : splitRead v x (postedCmd d).nsid (postedCmd d).slba (postedCmd d).nlb = [] := by
    change splitRead v x d.nsid d.slba d.nlb = []
    rw [splitRead_congr hpost, hnsid, hslba, hlen]
    exact hparts
  have hdlen : 0 < (postedCmd d).nlb := by
    change 0 < d.nlb
    rw [hlen]
    exact hnlb
  have hread : ∀ i, (postedCmd d).slba ≤ i → i < (postedCmd d).slba + (postedCmd d).nlb → readNow v x (postedCmd d).nsid (postedCmd d).cls i := by
    intro i hlo hhi
    change d.slba ≤ i at hlo
    change i < d.slba + d.nlb at hhi
    change readNow v x d.nsid d.cls i
    rw [hslba] at hlo hhi
    rw [hlen] at hhi
    rw [readNow_congr hpost, hnsid, hcls]
    refine hnow.imp_left fun hany => ?_
    unfold anyStaged at hany
    rw [List.any_eq_false] at hany
    refine Bool.eq_false_iff.mpr (hany i ?_)
    rw [readyLbas_of_splitRead hparts]
    exact List.mem_map.mpr ⟨i - c.slba, List.mem_range.mpr (by omega), by omega⟩
  rw [hrun, postReads_sound h.alone htracks hpoison hdlen]
  exact postRange_completes h.alone htracks (replyOf_of_core h.core) hrest (hopc.trans hverify) (show Phase.posted ≠ Phase.ended by decide)
      (hgotc.trans hgot) (hfailc.trans hfail) hdlen
    hsplit hread _ _

end

end Sys2Proof.Machine

/-! # SUPPORT. The admission of a write (R63, R288, R289, R293) -/

namespace Sys2Proof.Machine

variable {s t u : State} {c d e : Cmd} {x : Ns}

/-! ## Requests for a write's data (R238, R241, R289) -/

theorem cinRefused_tx (k r : Nat) (s : State) : (cinRefused k r s).xpt.tx = s.xpt.tx := by
  unfold cinRefused
  extract_lets told v w
  have hw : w.xpt.tx = s.xpt.tx := rfl
  clear_value w
  have hrest : ∀ y, (raiseFault 13 1 y).xpt.tx = y.xpt.tx := fun y =>
    (congrArg Xpt.tx (xptRest_raiseFault 13 1 y) : (xptRest (raiseFault 13 1 y)).tx = (xptRest y).tx)
  rw [hrest, ← hw]
  split <;> rfl

theorem useKey_tx (k n : Nat) (s : State) : (useKey k n s).2.xpt.tx = s.xpt.tx := by
  unfold useKey
  cases keyRefusal (keyOf s k)
  · simp only [keyCount_tx]
  · simp only [cinRefused_tx]

theorem tlsSendOf_tx (typ : BitVec 8) (conn : BitVec 16) (text : List (BitVec 8)) (s : State) : (tlsSendOf typ conn text s).2.xpt.tx = s.xpt.tx := by
  have huse := useKey_tx (connOf s conn.toNat).kTx.toNat (tlsBlocks text.length) s
  unfold tlsSendOf
  extract_lets k
  split
  · next v hv => rw [hv] at huse; exact huse
  · next v hv => rw [hv] at huse; exact huse

theorem accounts_queueStream (conn : BitVec 16) (l : List (BitVec 8)) (s : State) : accounts (queueStream conn l s) = accounts s := rfl

theorem accounts_queuePdu (conn : BitVec 16) (p : List (BitVec 8)) (s : State) : accounts (queuePdu conn p s) = accounts s := by
  have hsend := accounts_tlsSendOf 0x17 conn p s
  unfold queuePdu queueRecord
  split
  · split
    · next v hv => rw [hv] at hsend; exact hsend
    · next l v hv => rw [hv] at hsend; exact hsend
  · exact accounts_queueStream conn p s

/-- Frames of a connection join the transmit queue. -/
def sends (conn : BitVec 16) (s t : State) : Prop := ∃ l, t.xpt.tx = s.xpt.tx ++ l ∧ ∀ f ∈ l, f.conn = some conn

theorem sends_refl (conn : BitVec 16) (h : t.xpt.tx = s.xpt.tx) : sends conn s t := ⟨[], by rw [h, List.append_nil], fun _ h => absurd h (by simp)⟩

theorem sends_trans {conn : BitVec 16} (h : sends conn s t) (h' : sends conn t u) : sends conn s u := by
  obtain ⟨l, hl, hall⟩ := h
  obtain ⟨l', hl', hall'⟩ := h'
  exact ⟨l ++ l', by rw [hl', hl, List.append_assoc], fun f hf => (List.mem_append.mp hf).elim (hall f) (hall' f)⟩

theorem sends_queueFrame {conn : BitVec 16} {f : TxFrame} (hf : f.conn = some conn) (h : t.xpt.tx = s.xpt.tx) : sends conn s (queueFrame f t) :=
  ⟨[f], by rw [← h]; rfl, fun g hg => by rw [List.mem_singleton.mp hg, hf]⟩

theorem sends_queuePdu (conn : BitVec 16) (p : List (BitVec 8)) (s : State) : sends conn s (queuePdu conn p s) := by
  have hsend := tlsSendOf_tx 0x17 conn p s
  unfold queuePdu queueRecord
  split
  · split
    · next v hv =>
      rw [hv] at hsend
      exact sends_refl conn hsend
    · next l v hv =>
      rw [hv] at hsend
      exact sends_queueFrame rfl hsend
  · exact sends_queueFrame rfl rfl

/-- A command's entry with its requests for data. -/
def asking (e : Cmd) (a : List (Nat × Nat)) (n : Nat) : Cmd := { e with asked := a, nextAsk := n }

/-- The state in which a request for a command's data is sent. -/
def askNoted (c : Cmd) (len : Nat) (s : State) : State := updCmd c (fun y => asking y (y.asked ++ [(c.nextAsk, c.nextAsk + len)]) (c.nextAsk + len)) s

/-- A request for a command's data leaves on its connection. -/
theorem sendAsk_frame (c : Cmd) (len addr : Nat) (key : BitVec 32) (s : State) :
    accounts (sendAsk c len addr key s) = accounts (askNoted c len s) ∧ sends c.conn s (sendAsk c len addr key s) := by
  unfold sendAsk
  extract_lets k v
  have hv : v = askNoted c len s := rfl
  have htx : v.xpt.tx = s.xpt.tx := rfl
  rw [← hv]
  clear_value v
  split
  · refine ⟨accounts_queuePdu _ _ _, ?_⟩
    exact sends_trans (sends_refl c.conn htx) (sends_queuePdu c.conn _ { v with draws := v.draws + 1 })
  · exact ⟨rfl, sends_queueFrame rfl htx⟩

/-- A command's requests leave its entry's other fields, the zones and the buckets alone. -/
theorem askData_frame (ha : alone s c) (e : Cmd) : ∀ (f : Nat) (t : State) (a : List (Nat × Nat)) (n : Nat), Tracks s t c (asking e a n) →
    ∃ b m, Tracks s (askData c.conn c.cid f t) c (asking e (a ++ b) m) ∧ sends c.conn t (askData c.conn c.cid f t) ∧
      (askData c.conn c.cid f t).media.zones = t.media.zones ∧ (askData c.conn c.cid f t).vct = t.vct
  | 0, t, a, n, h => ⟨[], n, by rw [List.append_nil]; exact h, sends_refl c.conn rfl, rfl, rfl⟩
  | f + 1, t, a, n, h => by
    obtain ⟨-, -, hconn, -⟩ := tagOf_fields h.tag
    unfold askData
    rw [h.liveCmd ha]
    simp only
    split
    · exact ⟨[], n, by rw [List.append_nil]; exact h, sends_refl c.conn rfl, rfl, rfl⟩
    · next len addr key hnext =>
      obtain ⟨hacc, hsend⟩ := sendAsk_frame (asking e a n) len addr key t
      unfold accounts at hacc
      simp only [Prod.mk.injEq] at hacc
      obtain ⟨htables, -, hzones, hvct⟩ := hacc
      have hnoted : Tracks s (askNoted (asking e a n) len t) c (asking e (a ++ [(n, n + len)]) (n + len)) := h.upd ha _ rfl
      have hsent := hnoted.keep (u := sendAsk (asking e a n) len addr key t) (by rw [htables]) (by rw [htables])
      obtain ⟨b, m, htracks, hsend', hzones', hvct'⟩ := askData_frame ha e f _ _ _ hsent
      refine ⟨(n, n + len) :: b, m, ?_, sends_trans (hconn ▸ hsend) hsend', hzones'.trans (hzones.trans rfl), hvct'.trans (hvct.trans rfl)⟩
      rw [List.append_cons]
      exact htracks

/-- The first request on TCP asks for all the data, as far as one request may. -/
theorem nextAsk_first {e : Cmd} (hopen : (connOf t e.conn.toNat).isOpen = true) (htcp : (connOf t e.conn.toNat).tcp = true)
    (hphase : e.phase = .waitData)
    (hstaged : e.staged = 0) (hleft : 0 < e.left) : nextAsk t (asking e [] 0) = some (min e.left 131072, 0, 0) := by
  unfold nextAsk
  extract_lets k rest
  have hrest : rest = e.left := by
    unfold rest
    change e.left + e.staged - 0 = e.left
    rw [hstaged]
    omega
  rw [hrest]
  have hne : ¬ (decide (e.left = 0) || decide ((asking e [] 0).phase ≠ .waitData) || !k.isOpen) = true := by
    change ¬ (decide (e.left = 0) || decide (e.phase ≠ .waitData) || !(connOf t e.conn.toNat).isOpen) = true
    rw [hopen, hphase]
    simp only [ne_eq, not_true_eq_false, decide_false, Bool.or_false, Bool.not_true, decide_eq_true_eq]
    omega
  rw [if_neg hne, if_pos (show k.tcp = true from htcp), if_pos]
  change 0 < min _ 4
  omega

/-- A command that waits for its data asks for it. -/
theorem askData_first (ha : alone s c) {e : Cmd} {f : Nat} (h : Tracks s t c (asking e [] 0)) :
    ∃ a n, Tracks s (askData c.conn c.cid (f + 1) t) c (asking e a n) ∧ sends c.conn t (askData c.conn c.cid (f + 1) t) ∧
      (askData c.conn c.cid (f + 1) t).media.zones = t.media.zones ∧ (askData c.conn c.cid (f + 1) t).vct = t.vct ∧
      ((connOf t c.conn.toNat).isOpen = true → (connOf t c.conn.toNat).tcp = true → e.phase = .waitData → e.staged = 0 → 0 < e.left →
        a.head? = some (0, min e.left 131072)) := by
  by_cases hfirst : (connOf t c.conn.toNat).isOpen = true ∧ (connOf t c.conn.toNat).tcp = true ∧ e.phase = .waitData ∧ e.staged = 0 ∧ 0 < e.left
  · obtain ⟨hopen, htcp, hphase, hstaged, hleft⟩ := hfirst
    obtain ⟨-, -, hconn, -⟩ := tagOf_fields h.tag
    change e.conn = c.conn at hconn
    have hnext := nextAsk_first (e := e) (by rw [hconn]; exact hopen) (by rw [hconn]; exact htcp) hphase hstaged hleft
    obtain ⟨hacc, hsend⟩ := sendAsk_frame (asking e [] 0) (min e.left 131072) 0 0 t
    unfold accounts at hacc
    simp only [Prod.mk.injEq] at hacc
    obtain ⟨htables, -, hzones, hvct⟩ := hacc
    have hnoted : Tracks s (askNoted (asking e [] 0) (min e.left 131072) t) c (asking e [(0, 0 + min e.left 131072)] (0 + min e.left 131072)) :=
      h.upd ha _ rfl
    have hsent := hnoted.keep (u := sendAsk (asking e [] 0) (min e.left 131072) 0 0 t) (by rw [htables]) (by rw [htables])
    obtain ⟨b, m, htracks, hsend', hzones', hvct'⟩ := askData_frame ha e f _ _ _ hsent
    have hrun : askData c.conn c.cid (f + 1) t = askData c.conn c.cid f (sendAsk (asking e [] 0) (min e.left 131072) 0 0 t) := by
      rw [askData, h.liveCmd ha]
      simp only [hnext]
    rw [hrun]
    exact ⟨_, m, htracks, sends_trans (hconn ▸ hsend) hsend', hzones'.trans (hzones.trans rfl), hvct'.trans (hvct.trans rfl),
      fun _ _ _ _ _ => by rw [Nat.zero_add]; rfl⟩
  · obtain ⟨b, m, htracks, hsend, hzones, hvct⟩ := askData_frame ha e (f + 1) t [] 0 h
    exact ⟨_, m, htracks, hsend, hzones, hvct, fun h1 h2 h3 h4 h5 => absurd ⟨h1, h2, h3, h4, h5⟩ hfirst⟩

end Sys2Proof.Machine

namespace Sys2Proof.Machine

variable {s t u v : State} {c d e : Cmd} {x : Ns}

/-! ## A write at its admission -/

/-- What of a write's entry its admission and its completion depend on, and none of the work before changes. -/
def skeleton (c : Cmd) : Cmd :=
  { conn := c.conn, cid := c.cid, internal := c.internal, opcode := c.opcode, admin := c.admin, cls := c.cls, vc := c.vc, nsid := c.nsid,
      slba := c.slba
    nlb := c.nlb, fua := c.fua, arrival := c.arrival, closed := c.closed, staged := c.staged, sqe := c.sqe }

/-- What of the buckets a write depends on. -/
def writeVct (s : State) (v : Nat) : VcRec × Nat := ((vcOf s v).inForce, (vcOf s v).wr)

/-- A write stands before its admission: what that depends on is as it was. -/
structure Poised (s u : State) (c d : Cmd) : Prop where
  alone : alone s c
  tracks : Tracks s u c d
  post : offPost u = offPost s
  rest : replyRest u = replyRest s
  vct : writeVct u = writeVct s
  skel : skeleton d = skeleton c

theorem skeleton_of_core (h : core d = core c) : skeleton d = skeleton c := (congrArg skeleton h : skeleton (core d) = skeleton (core c))

theorem replyOf_of_skeleton (h : skeleton d = skeleton c) : replyOf d = replyOf c := (congrArg replyOf h : replyOf (skeleton d) = replyOf
    (skeleton c))

theorem skeleton_fields (h : skeleton d = skeleton c) : d.nsid = c.nsid ∧ d.slba = c.slba ∧ d.nlb = c.nlb ∧ d.opcode = c.opcode ∧ d.fua = c.fua ∧
    d.staged = c.staged ∧ d.vc = c.vc ∧ d.cls = c.cls ∧ d.internal = c.internal := by
  have f := fun {β : Type} (g : Cmd → β) => (congrArg g h : g (skeleton d) = g (skeleton c))
  exact ⟨f (·.nsid), f (·.slba), f (·.nlb), f (·.opcode), f (·.fua), f (·.staged), f (·.vc), f (·.cls), f (·.internal)⟩

theorem Arrived.poised (h : Arrived s u c d) : Poised s u c d := by
  have hoff := fun {β : Type} (g : State → β) => (congrArg g h.off : g (offQueue u) = g (offQueue s))
  exact ⟨h.alone, h.tracks, h.post, hoff replyRest, hoff writeVct, skeleton_of_core h.core⟩

/-- A write's zone takes it: open where it writes, neither moving nor parked nor degraded under an active rebuild, with its staging, its program slots
and its pool. -/
def zoneFits (s : State) (x : Ns) (c : Cmd) : Prop :=
  let z := zoneOfLba x c.slba
  let e := zoneOf s c.nsid z
  nsOf s c.nsid.toNat = some x ∧ e.moving = false ∧ e.parked = false ∧ (e.state = 2 ∨ e.state = 3) ∧ canProgram s c = true ∧
    (e.degraded = true → s.media.rebuild = true → s.reel.deck ≠ 5) ∧
    rowNeed (nsGroup x) (toPool s c.cls.toNat) e (e.acc + c.nlb) ≤ stageRoom s c.cls.toNat ∧
    (toPool s c.cls.toNat = true → poolTakes s (nsGroup x) c.cls.toNat e (e.acc + c.nlb) = true) ∧
    zoneCheck s x c.nsid z (if c.opcode = 0x7D then e.acc else c.slba % zszeOf x) c.nlb = none

section
variable (h : offPost t = offPost s)
include h

theorem zoneOf_congr : zoneOf t = zoneOf s := same_of_view offPost zoneOf (fun _ => rfl) h
theorem canProgram_congr : canProgram t = canProgram s := same_of_view offPost canProgram (fun _ => rfl) h
theorem stageRoom_congr : stageRoom t = stageRoom s := same_of_view offPost stageRoom (fun _ => rfl) h
theorem toPool_congr : toPool t = toPool s := same_of_view offPost toPool (fun _ => rfl) h
theorem poolWith_congr : poolWith t = poolWith s := same_of_view offPost poolWith (fun _ => rfl) h
theorem freeSkeins_congr : freeSkeins t = freeSkeins s := same_of_view offPost freeSkeins (fun _ => rfl) h
theorem grpOf_congr : grpOf t = grpOf s := same_of_view offPost grpOf (fun _ => rfl) h
theorem poolOf_congr : poolOf t = poolOf s := same_of_view offPost poolOf (fun _ => rfl) h

theorem poolLimit_congr : poolLimit t = poolLimit s := by
  funext g
  unfold poolLimit
  rw [grpOf_congr h, poolOf_congr h]

theorem poolGrows_congr : poolGrows t = poolGrows s := by
  funext g
  unfold poolGrows
  rw [grpOf_congr h, poolOf_congr h, poolLimit_congr h, freeSkeins_congr h]

theorem poolRoom_congr : poolRoom t = poolRoom s := by
  funext g cls n
  unfold poolRoom
  rw [poolWith_congr h, poolGrows_congr h]

theorem poolTakes_congr : poolTakes t = poolTakes s := by
  funext g cls e last
  unfold poolTakes
  rw [poolRoom_congr h]

theorem zoneCheck_congr : zoneCheck t = zoneCheck s := same_of_view offPost zoneCheck (fun _ => rfl) h
theorem rebuild_congr : t.media.rebuild = s.media.rebuild := same_of_view offPost (·.media.rebuild) (fun _ => rfl) h
theorem deck_congr : t.reel.deck = s.reel.deck := same_of_view offPost (·.reel.deck) (fun _ => rfl) h

end

theorem zoneFits_congr (hs : offPost u = offPost s) (hc : skeleton d = skeleton c) (x : Ns) : zoneFits u x d = zoneFits s x c := by
  have hstate : zoneFits u x d = zoneFits s x d := by
    unfold zoneFits
    rw [zoneOf_congr hs, nsOf_congr hs, canProgram_congr hs, stageRoom_congr hs, toPool_congr hs, poolTakes_congr hs, zoneCheck_congr hs,
      rebuild_congr hs, deck_congr hs]
  rw [hstate]
  exact (congrArg (zoneFits s x) hc : zoneFits s x (skeleton d) = zoneFits s x (skeleton c))

theorem zoneFits_of_zoneTakes (h : zoneTakes s x c) : zoneFits s x c ∧ writeTokens s c c.nlb = true := by
  obtain ⟨-, hns, -, -, -, -, hmoving, hparked, hstate, htok, hprog, hdeg, hneed, hpool, -, hcheck⟩ := h
  exact ⟨⟨hns, hmoving, hparked, hstate, hprog, hdeg, hneed, hpool, hcheck⟩, htok⟩

theorem writeTokens_congr (hs : writeVct u = writeVct s) (hc : d.vc = c.vc) (n : Nat) : writeTokens u d n = writeTokens s c n := by
  change (match d.vc with | none => true | some v => decide (n ≤ (writeVct u v.toNat).2)) =
    (match c.vc with | none => true | some v => decide (n ≤ (writeVct s v.toNat).2))
  rw [hs, hc]

/-- The entry of a write that is admitted. -/
def admittedWrite (x : Ns) (c : Cmd) (z first need : Nat) : Cmd :=
  { c with phase := .waitData, zone := some z, slba := first, charged := c.nlb, resv := need
           left := c.nlb * lbaBytes x
           dw0 := if c.opcode = 0x7D then w32 (z * zszeOf x + first) else 0
           dw1 := if c.opcode = 0x7D then w32 ((z * zszeOf x + first) / 2 ^ 32) else 0 }

/-- The staging that a write reserves. -/
def writeNeed (s : State) (x : Ns) (c : Cmd) : Nat :=
  let e := zoneOf s c.nsid (zoneOfLba x c.slba)
  rowNeed (nsGroup x) (toPool s c.cls.toNat) e (e.acc + c.nlb)

/-- The state once a write is charged and its blocks reserved. -/
def writeCharged (x : Ns) (c : Cmd) (s : State) : State :=
  modMedia (fun u => { u with writeSeq := u.writeSeq + 1 }) (reserve c.cls.toNat (writeNeed s x c) (chargeWrite c c.nlb s))

/-- A zone once a write to it is admitted. -/
def advanced (x : Ns) (pool : Bool) (n : Nat) (t : State) (e : Zone) (y : Zone) : Zone :=
  { y with acc := e.acc + n, resv := max y.resv (coverEnd (nsGroup x) pool (e.acc + n)), lastWrite := hankStamp t, lastSeq := t.media.writeSeq
           state := if e.acc + n = zcapOf x then 0xE else y.state }

/-- The state once a write's zone has advanced. -/
def writeTaken (x : Ns) (c : Cmd) (s : State) : State :=
  let z := zoneOfLba x c.slba
  modZone c.nsid z (advanced x (toPool s c.cls.toNat) c.nlb (writeCharged x c s) (zoneOf s c.nsid z)) (writeCharged x c s)

/-- The entry of a write that its zone takes. -/
def takenWrite (s : State) (x : Ns) (c : Cmd) : Cmd :=
  admittedWrite x c (zoneOfLba x c.slba) (zoneOf s c.nsid (zoneOfLba x c.slba)).acc (writeNeed s x c)

/-- A write is neither deferred for its zone or its tokens nor short of staging. -/
def zoneRoom (s : State) (x : Ns) (c : Cmd) : Prop :=
  let e := zoneOf s c.nsid (zoneOfLba x c.slba)
  e.moving = false ∧ ¬ (e.degraded = true ∧ s.media.rebuild = true ∧ s.reel.deck = 5) ∧ writeTokens s c c.nlb = true ∧ canProgram s c = true ∧
    rowNeed (nsGroup x) (toPool s c.cls.toNat) e (e.acc + c.nlb) ≤ stageRoom s c.cls.toNat

theorem zoneRoom_of_zoneFits (hf : zoneFits s x c) (htok : writeTokens s c c.nlb = true) : zoneRoom s x c := by
  obtain ⟨-, hmoving, -, -, hprog, hdeg, hneed, -⟩ := hf
  exact ⟨hmoving, fun ⟨h1, h2, h3⟩ => hdeg h1 h2 h3, htok, hprog, hneed⟩

/-- The offset at which a write asks to write. -/
def writeAt (s : State) (x : Ns) (c : Cmd) : Nat := if c.opcode = 0x7D then (zoneOf s c.nsid (zoneOfLba x c.slba)).acc else c.slba % zszeOf x

section
variable (h : zoneRoom u x d)
include h

theorem zoneRoom_runs : ¬ ((zoneOf u d.nsid (zoneOfLba x d.slba)).moving || ((zoneOf u d.nsid (zoneOfLba x d.slba)).degraded && u.media.rebuild &&
    decide (u.reel.deck = 5)) || !writeTokens u d d.nlb || !canProgram u d) = true := by
  obtain ⟨hmoving, hdeg, htok, hprog, -⟩ := h
  rw [hmoving, htok, hprog]
  simpa [and_assoc] using hdeg

theorem zoneRoom_stage : ¬ (decide (stageRoom u d.cls.toNat < writeNeed u x d) && !d.internal) = true := by
  obtain ⟨-, -, -, -, hneed⟩ := h
  have : ¬ stageRoom u d.cls.toNat < writeNeed u x d := Nat.not_lt.mpr hneed
  simp [this]

/-- A write that its zone does not take fails. -/
theorem admitZoneWrite_refused {st : BitVec 16} (hcheck : zoneCheck u x d.nsid (zoneOfLba x d.slba) (writeAt u x d) d.nlb = some st) :
    admitZoneWrite x d u = failCmd d st (refundRead d u) := by
  have hruns := zoneRoom_runs h
  unfold admitZoneWrite
  extract_lets z e g at_ pool need s1
  have hstage : ¬ (decide (stageRoom u d.cls.toNat < need) && !d.internal) = true := zoneRoom_stage h
  have hs1 : s1 = u := if_neg hstage
  rw [hs1, if_neg hruns, if_neg hstage, show zoneCheck u x d.nsid z at_ d.nlb = some st from hcheck]

theorem admitZoneWrite_fits (hf : zoneFits u x d) :
    admitZoneWrite x d u = beginData x (takenWrite u x d) (updCmd d (fun _ => takenWrite u x d) (writeTaken x d u)) := by
  have hruns := zoneRoom_runs h
  obtain ⟨-, -, hparked, hstate, -, -, -, hpool, hcheck⟩ := hf
  have hopen : openForWrite x d.nsid (zoneOfLba x d.slba) u = some u := by
    unfold openForWrite
    rw [if_pos (by simpa using hstate)]
  have hunpark : unpark x d.nsid (zoneOfLba x d.slba) u = u := by
    unfold unpark
    rw [if_pos (by rw [hparked]; rfl)]
  unfold admitZoneWrite
  extract_lets z e g at_ pool need s1
  have hstage : ¬ (decide (stageRoom u d.cls.toNat < need) && !d.internal) = true := zoneRoom_stage h
  have hs1 : s1 = u := if_neg hstage
  have hpool' : ¬ (pool && !poolTakes u g d.cls.toNat (zoneOf u d.nsid z) ((zoneOf u d.nsid z).acc + d.nlb)) = true := by
    rw [Bool.and_eq_true, Bool.not_eq_true', not_and, Bool.not_eq_false]
    exact hpool
  rw [hs1, if_neg hruns, if_neg hstage, show zoneCheck u x d.nsid z at_ d.nlb = none from hcheck]
  simp only
  rw [show openForWrite x d.nsid z u = some u from hopen]
  simp only
  rw [show unpark x d.nsid z u = u from hunpark, if_neg hpool']
  rfl

end

/-! ## The zone and the buckets of an admitted write -/

/-- What a write does to its zone and its bucket: its length is accepted and charged. -/
def wroteZone (s : State) (x : Ns) (c : Cmd) (t : State) : Prop :=
  let z := zoneOfLba x c.slba
  let e := zoneOf s c.nsid z
  (zoneOf t c.nsid z).acc = e.acc + c.nlb ∧ (zoneOf t c.nsid z).state = (if e.acc + c.nlb = zcapOf x then 0xE else e.state) ∧
    ∀ v, c.vc = some v → (vcOf t v.toNat).wr = (vcOf s v.toNat).wr - c.nlb

theorem chargeWrite_frame (c : Cmd) (n : Nat) (s : State) : ∃ f, chargeWrite c n s = modVct f s ∧
    (∀ v, (vcOf (chargeWrite c n s) v).inForce = (vcOf s v).inForce) ∧
    ∀ v, c.vc = some v → (vcOf (chargeWrite c n s) v.toNat).wr = (vcOf s v.toNat).wr - n := by
  unfold chargeWrite
  split
  · exact ⟨id, rfl, fun _ => rfl, fun v hv => absurd hv (by simp_all)⟩
  · next v hv =>
    refine ⟨_, rfl, fun w => ?_, fun w hw => ?_⟩
    · by_cases hwv : w = v.toNat
      · rw [hwv, vcOf_modVc_same]
      · rw [vcOf_modVc_other (h := hwv)]
    · rw [hv, Option.some.injEq] at hw
      rw [← hw, vcOf_modVc_same]

theorem zoneOf_writeTaken (x : Ns) (c : Cmd) (s : State) : zoneOf (writeTaken x c s) c.nsid (zoneOfLba x c.slba) =
    advanced x (toPool s c.cls.toNat) c.nlb (writeCharged x c s) (zoneOf s c.nsid (zoneOfLba x c.slba)) (zoneOf s c.nsid (zoneOfLba x c.slba)) := by
  obtain ⟨f, hf, -⟩ := chargeWrite_frame c c.nlb s
  have hzones : (writeCharged x c s).media.zones = s.media.zones := by rw [writeCharged, hf]; rfl
  unfold writeTaken zoneOf modZone
  extract_lets z
  rw [modMedia_media]
  simp only
  rw [mget_mmod_same, hzones]

/-- An admitted write changes its bucket and its media state. -/
theorem writeTaken_eq (x : Ns) (c : Cmd) (s : State) : ∃ f g, writeTaken x c s = modMedia g (chargeWrite c c.nlb s) ∧
    chargeWrite c c.nlb s = modVct f s ∧ ∀ m, (g m).nss = m.nss := by
  obtain ⟨f, hf, -⟩ := chargeWrite_frame c c.nlb s
  have hshape : ∃ p q r, writeTaken x c s = modMedia p (modMedia q (modMedia r (chargeWrite c c.nlb s))) ∧ ∀ m, (p (q (r m))).nss = m.nss := by
    unfold writeTaken writeCharged reserve modZone
    exact ⟨_, _, _, rfl, fun _ => rfl⟩
  obtain ⟨p, q, r, hpqr, hnss⟩ := hshape
  exact ⟨f, fun m => p (q (r m)), by rw [hpqr, modMedia_modMedia, modMedia_modMedia], hf, hnss⟩

/-- The state of an admitted write. -/
theorem writeTaken_frame (h : Poised s u c d) (hns : nsOf s c.nsid.toNat = some x) :
    let v := updCmd d (fun _ => takenWrite u x d) (writeTaken x d u)
    Tracks s v c (takenWrite u x d) ∧ replyRest v = replyRest s ∧ wroteZone s x c v ∧ nsOf v c.nsid.toNat = some x ∧
      ∀ k, (vcOf v k).inForce = (vcOf s k).inForce := by
  obtain ⟨hnsid, hslba, hnlb, -, -, -, hvc, -⟩ := skeleton_fields h.skel
  obtain ⟨-, -, hforce, hwr⟩ := chargeWrite_frame d d.nlb u
  obtain ⟨f, g, hw, hf, hg⟩ := writeTaken_eq x d u
  have hzone := zoneOf_writeTaken x d u
  have hvct : ∀ k, vcOf (writeTaken x d u) k = vcOf (chargeWrite d d.nlb u) k := fun _ => by rw [hw]; rfl
  have htables : (writeTaken x d u).tables = u.tables := by rw [hw, hf]; rfl
  have hrest : replyRest (writeTaken x d u) = replyRest u := by rw [hw, hf]; rfl
  have hnss : (writeTaken x d u).media.nss = u.media.nss := by rw [hw, hf]; exact hg _
  have hsvct := fun k => congrFun h.vct k
  intro v
  have hv : v = updCmd d (fun _ => takenWrite u x d) (writeTaken x d u) := rfl
  clear_value v
  clear hw
  generalize writeTaken x d u = w at *
  subst hv
  refine ⟨(h.tracks.keep (by rw [htables]) (by rw [htables])).upd h.alone (fun _ => takenWrite u x d) rfl, hrest.trans h.rest, ⟨?_, ?_, ?_⟩, ?_, ?_⟩
  · change (zoneOf w c.nsid (zoneOfLba x c.slba)).acc = _
    rw [← hnsid, ← hslba, hzone, zoneOf_congr h.post, hnlb]
    rfl
  · change (zoneOf w c.nsid (zoneOfLba x c.slba)).state = _
    rw [← hnsid, ← hslba, hzone, zoneOf_congr h.post, hnlb]
    rfl
  · intro k hk
    change (vcOf w k.toNat).wr = _
    rw [hvct, hwr k (hvc.trans hk), hnlb]
    exact congrArg (· - c.nlb) (congrArg Prod.snd (hsvct k.toNat))
  · change nsOf w _ = _
    rw [nsOf, hnss]
    exact (congrFun (nsOf_congr h.post) _).trans hns
  · intro k
    change (vcOf w k).inForce = _
    rw [hvct, hforce]
    exact congrArg Prod.fst (hsvct k)

end Sys2Proof.Machine

namespace Sys2Proof.Machine

variable {s t u v w : State} {c d e : Cmd} {x : Ns}

/-! ## Rows and the pointers of zones -/

/-- The accepted pointer and the state of a zone. -/
def zoneShows (s : State) (n : BitVec 32) (z : Nat) : Nat × BitVec 4 := ((zoneOf s n z).acc, (zoneOf s n z).state)

theorem zoneShows_of_zones (h : t.media.zones = s.media.zones) : zoneShows t = zoneShows s := by
  funext n z
  rw [zoneShows, zoneOf, h, zoneShows, zoneOf]

theorem zoneShows_modZone {f : Zone → Zone} (hf : ∀ y, ((f y).acc, (f y).state) = (y.acc, y.state)) (n : BitVec 32) (z : Nat) (s : State) :
    zoneShows (modZone n z f s) = zoneShows s := by
  funext n' z'
  by_cases hkey : zoneKey n' z' = zoneKey n z
  · have hzone : zoneOf (modZone n z f s) n' z' = f (zoneOf s n' z') := by
      rw [zoneOf, zoneOf, hkey]
      exact mget_mmod_same _ _ _ _
    rw [zoneShows, hzone, hf, zoneShows]
  · have hzone : zoneOf (modZone n z f s) n' z' = zoneOf s n' z' := mget_mmod_other _ hkey _ _
    rw [zoneShows, hzone, zoneShows]

theorem zones_addPool {g cls : Nat} (h : addPool g cls s = some t) : t.media.zones = s.media.zones := by
  unfold addPool at h
  split at h
  · exact absurd h (by simp)
  · split at h
    · exact absurd h (by simp)
    · obtain rfl := Option.some.inj h
      rw [modMedia_media]
      dsimp only
      rw [look_foldl (·.media.zones) fun s d => by rw [modBlock, modMedia_media], modGrp, modMedia_media]

theorem zones_takePlies {g cls n k ply : Nat} (h : takePlies g cls n s = some (k, ply, t)) : t.media.zones = s.media.zones := by
  unfold takePlies at h
  split at h
  · obtain ⟨-, rfl⟩ := Prod.mk.inj (Prod.mk.inj (Option.some.inj h)).2
    rfl
  · split at h
    · exact absurd h (by simp)
    · next u hu =>
      obtain ⟨p, -, hp⟩ := Option.map_eq_some_iff.mp h
      obtain ⟨-, rfl⟩ := Prod.mk.inj (Prod.mk.inj hp).2
      rw [modPool, modMedia_media]
      exact zones_addPool hu

theorem zoneShows_addRow (r : Row) (s : State) : zoneShows (addRow r s) = zoneShows s := zoneShows_of_zones (by rw [addRow, modMedia_media])

/-- Rows that go to programming leave a zone's accepted pointer and its state alone. -/
theorem zoneShows_programRows (n : BitVec 32) (z : Nat) : ∀ (f : Nat) (s : State), zoneShows (programRows n z f s) = zoneShows s
  | 0, _ => rfl
  | f + 1, s => by
    unfold programRows
    split
    · rfl
    · extract_lets e g pool at_ upto row
      split
      · rfl
      · split
        · split
          · rfl
          · next h =>
            refine (zoneShows_programRows n z f _).trans ((zoneShows_modZone ?_ _ _ _).trans ?_)
            · intro y
              rfl
            · rw [zoneShows_addRow, zoneShows_of_zones (zones_takePlies h)]
        · refine (zoneShows_programRows n z f _).trans ((zoneShows_modZone ?_ _ _ _).trans (zoneShows_addRow _ _))
          intro y
          rfl

theorem zones_storeBlocks (x : Ns) (c : Cmd) (s : State) : (storeBlocks x c s).media.zones = s.media.zones := by
  unfold storeBlocks
  exact look_foldl (·.media.zones) (fun s i => by rw [modMedia_media]) _ s

/-! ## A write whose data is at hand -/

/-- The entry of a write whose blocks are staged. -/
def stagedWrite (x : Ns) (c : Cmd) : Cmd :=
  { c with phase := .waiting, staged := c.nlb * lbaBytes x, left := 0, rx := [], wait := writeEnds x c }

/-- The state in which a write's blocks are staged and its rows handed to programming. -/
def writeProgrammed (x : Ns) (c : Cmd) (s : State) : State :=
  programWrite x (stagedWrite x c) (updCmd c (fun _ => stagedWrite x c) (countStaged (c.nlb * lbaBytes x) (storeBlocks x c s)))

theorem stageAll_short (hns : nsOf w e.nsid.toNat = some x) (hfdp : x.fdp = false) (hfua : e.fua = false) :
    stageAll e w = completeCmd (stagedWrite x e) 0 e.dw0 e.dw1 (dirtyDone (stagedWrite x e) (noteDone x (stagedWrite x e)
      (writeProgrammed x e w))) := by
  unfold stageAll
  rw [hns]
  dsimp only
  rw [if_neg (by rw [hfua]; exact Bool.false_ne_true), if_neg (by rw [hfdp]; exact Bool.false_ne_true)]
  rfl

theorem offMem_dirtyDone (c : Cmd) (s : State) : offMem (dirtyDone c s) = offMem s := by
  unfold dirtyDone
  split
  · rfl
  · exact offMem_dirtyWrite _ _ _ _ s

/-- The rest of the state is the same where a view that leaves only the media or the memory out is. -/
theorem replyRest_of_offMedia (h : offMedia t = offMedia s) : replyRest t = replyRest s ∧ t.tables = s.tables ∧ t.vct = s.vct := by
  have f := fun {β : Type} (g : State → β) => (congrArg g h : g (offMedia t) = g (offMedia s))
  exact ⟨f replyRest, f (·.tables), f (·.vct)⟩

theorem replyRest_of_offMem (h : offMem t = offMem s) : replyRest t = replyRest s ∧ t.tables = s.tables ∧ t.vct = s.vct ∧ t.media = s.media := by
  have f := fun {β : Type} (g : State → β) => (congrArg g h : g (offMem t) = g (offMem s))
  exact ⟨f replyRest, f (·.tables), f (·.vct), f (·.media)⟩

/-- A write's blocks are staged: its entry follows, and its zone's pointer stays. -/
theorem writeProgrammed_frame (ha : alone s c) (h : Tracks s w c e) (hfdp : x.fdp = false) :
    Tracks s (writeProgrammed x e w) c (stagedWrite x e) ∧ replyRest (writeProgrammed x e w) = replyRest w ∧
      zoneShows (writeProgrammed x e w) = zoneShows w ∧ (writeProgrammed x e w).vct = w.vct := by
  have hstore : offMedia (countStaged (e.nlb * lbaBytes x) (storeBlocks x e w)) = offMedia w := (offMedia_countStaged _ _).trans
      (offMedia_storeBlocks x e w)
  obtain ⟨hrest, htables, hvct⟩ := replyRest_of_offMedia hstore
  have hzones : (countStaged (e.nlb * lbaBytes x) (storeBlocks x e w)).media.zones = w.media.zones := zones_storeBlocks x e w
  unfold writeProgrammed
  generalize countStaged (e.nlb * lbaBytes x) (storeBlocks x e w) = y at *
  have hy := (h.keep (u := y) (by rw [htables]) (by rw [htables])).upd ha (fun _ => stagedWrite x e) rfl
  obtain ⟨hrest', htables', hvct'⟩ := replyRest_of_offMedia (offMedia_programWrite x (stagedWrite x e) (updCmd e (fun _ => stagedWrite x e) y))
  refine ⟨hy.keep (by rw [htables']) (by rw [htables']), hrest'.trans hrest, ?_, hvct'.trans hvct⟩
  unfold programWrite
  extract_lets fuel
  rw [if_neg (by rw [hfdp]; exact Bool.false_ne_true), zoneShows_programRows]
  exact zoneShows_of_zones hzones

/-- A write whose blocks are all at hand completes, its zone's pointer where its admission put it. -/
theorem stageAll_completes (ha : alone s c) (h : Tracks s w c e) (hreply : replyOf e = replyOf c) (hrest : replyRest w = replyRest s)
    (hns : nsOf w e.nsid.toNat = some x) (hfdp : x.fdp = false) (hfua : e.fua = false) :
    completed c 0 e.dw0 e.dw1 s (stageAll e w) ∧ zoneShows (stageAll e w) = zoneShows w ∧ (stageAll e w).vct = w.vct := by
  rw [stageAll_short hns hfdp hfua]
  obtain ⟨htracks, hrest₁, hzones₁, hvct₁⟩ := writeProgrammed_frame (x := x) ha h hfdp
  generalize writeProgrammed x e w = y at *
  obtain ⟨hrest₂, htables₂, hvct₂, hmedia₂⟩ := replyRest_of_offMem (offMem_dirtyDone (stagedWrite x e) (noteDone x (stagedWrite x e) y))
  generalize hv : dirtyDone (stagedWrite x e) (noteDone x (stagedWrite x e) y) = v at *
  have hvtracks : Tracks s v c (stagedWrite x e) := htracks.keep (by rw [htables₂]; rfl) (by rw [htables₂]; rfl)
  have hreply' : replyOf (stagedWrite x e) = replyOf c := hreply
  obtain ⟨hdone, hzones₃, hvct₃⟩ := hvtracks.completed ha hreply' (hrest₂.trans (hrest₁.trans hrest)) hreply' 0 e.dw0 e.dw1
  refine ⟨hdone, ?_, hvct₃.trans (hvct₂.trans hvct₁)⟩
  have hzones₂ : v.media.zones = y.media.zones := (congrArg (·.zones) hmedia₂).trans rfl
  rw [zoneShows_of_zones hzones₃, zoneShows_of_zones hzones₂, hzones₁]

end Sys2Proof.Machine

namespace Sys2Proof.Machine

variable {s t u v : State} {c d e : Cmd} {x : Ns}

/-! ## A write's data: asked for, or at hand (R289, R293) -/

theorem wroteZone_of_shows (h : wroteZone s x c v) (hshows : zoneShows t = zoneShows v) (hvct : t.vct = v.vct) : wroteZone s x c t := by
  obtain ⟨hacc, hstate, hwr⟩ := h
  have hz := congrFun (congrFun hshows c.nsid) (zoneOfLba x c.slba)
  unfold zoneShows at hz
  simp only [Prod.mk.injEq] at hz
  refine ⟨hz.1.trans hacc, hz.2.trans hstate, fun k hk => ?_⟩
  rw [vcOf, hvct]
  exact hwr k hk

/-- A write's data is with the device at its admission. -/
def dataAtHand (c : Cmd) : Bool := c.inCap || c.opcode = 8 || c.opcode = 0x19 || c.internal

/-- The entry of a write that has no data yet. -/
def unfilled (e : Cmd) : Cmd := { e with rx := [] }

theorem beginData_asks (h : dataAtHand e = false) :
    beginData x e v = askData e.conn e.cid 17 (updCmd e (fun _ => asking (unfilled e) [] 0) v) := by
  unfold dataAtHand at h
  unfold beginData
  rw [if_neg (by rw [h]; exact Bool.false_ne_true)]
  rfl

/-- The entry of a write whose data is at hand. -/
def withData (e : Cmd) (rx : List (BitVec 8)) : Cmd := { e with rx := rx, blocks := [] }

theorem beginData_here (h : dataAtHand e = true) :
    beginData x e v = writeStaged (withData e (writeData v x e)) (updCmd e (fun _ => withData e (writeData v x e)) v) := by
  unfold dataAtHand at h
  unfold beginData
  rw [if_pos h]
  rfl

/-- The metadata of a write's data is not what its protection asks for (R441). -/
def tagsSet (s : State) (x : Ns) (rx : List (BitVec 8)) : Bool := tagBytesSet s x { ({} : Cmd) with rx := rx }

theorem tagBytesSet_eq (s : State) (x : Ns) (c : Cmd) : tagBytesSet s x c = tagsSet s x c.rx := rfl

theorem tagsSet_nil (s : State) (x : Ns) : tagsSet s x [] = false := by
  unfold tagsSet tagBytesSet
  simp

theorem tagsSet_congr (h : ∀ k, (vcOf v k).inForce = (vcOf s k).inForce) (rx : List (BitVec 8)) : tagsSet v x rx = tagsSet s x rx := by
  have hhome : homeRecord v x = homeRecord s x := by
    unfold homeRecord
    simp only [h]
  unfold tagsSet tagBytesSet
  rw [hhome]

theorem writeStaged_good (hns : nsOf v e.nsid.toNat = some x) (htags : tagsSet v x e.rx = false) : writeStaged e v = stageAll e v := by
  unfold writeStaged
  rw [hns]
  dsimp only
  rw [if_neg (by rw [tagBytesSet_eq, htags]; exact Bool.false_ne_true)]

theorem writeData_taken (hint : d.internal = false) : writeData v x (takenWrite u x d) = writeData u x d := by
  unfold writeData
  have hopc : (takenWrite u x d).opcode = d.opcode := rfl
  have hinternal : (takenWrite u x d).internal = d.internal := rfl
  rw [hopc, hinternal, hint]
  rfl

section
variable (h : Poised s u c d) (hfits : zoneFits s x c) (htok : writeTokens s c c.nlb = true)
include h hfits htok

/-- A write that its zone takes is admitted in a state with its zone advanced and its tokens charged. -/
theorem admitZoneWrite_poised : ∃ v, admitZoneWrite x d u = beginData x (takenWrite u x d) v ∧ Tracks s v c (takenWrite u x d) ∧
    replyRest v = replyRest s ∧ wroteZone s x c v ∧ nsOf v c.nsid.toNat = some x ∧ ∀ k, (vcOf v k).inForce = (vcOf s k).inForce := by
  obtain ⟨-, -, hnlb, -, -, -, hvc, -⟩ := skeleton_fields h.skel
  have hfits' : zoneFits u x d := (zoneFits_congr h.post h.skel x).mpr hfits
  have htok' : writeTokens u d d.nlb = true := by
    rw [writeTokens_congr h.vct hvc, hnlb]
    exact htok
  exact ⟨_, admitZoneWrite_fits (zoneRoom_of_zoneFits hfits' htok') hfits', writeTaken_frame h hfits.1⟩

/-- A write whose data is at hand completes. -/
theorem admitZoneWrite_ends (hfdp : x.fdp = false) (hfua : c.fua = false) (hhere : dataAtHand d = true) (htags : tagsSet s x
    (writeData u x d) = false) :
    wroteZone s x c (admitZoneWrite x d u) ∧ completed c 0 (takenWrite u x d).dw0 (takenWrite u x d).dw1 s (admitZoneWrite x d u) := by
  obtain ⟨v, hadmit, htracks, hrest, hwrote, hns, hforce⟩ := admitZoneWrite_poised h hfits htok
  obtain ⟨hnsid, -, -, -, hdfua, -, -, -, hint⟩ := skeleton_fields h.skel
  have hreply : replyOf (takenWrite u x d) = replyOf c := (replyOf_of_skeleton h.skel : replyOf d = replyOf c)
  have hdata : writeData v x (takenWrite u x d) = writeData u x d := writeData_taken (hint.trans h.alone.2.1)
  rw [hadmit, beginData_here (show dataAtHand (takenWrite u x d) = true from hhere), hdata]
  have hw := htracks.upd h.alone (fun _ => withData (takenWrite u x d) (writeData u x d)) rfl
  have hnsw : nsOf (updCmd (takenWrite u x d) (fun _ => withData (takenWrite u x d) (writeData u x d)) v)
      (withData (takenWrite u x d) (writeData u x d)).nsid.toNat = some x := by
    change nsOf v d.nsid.toNat = some x
    rw [hnsid]
    exact hns
  have htagw : tagsSet (updCmd (takenWrite u x d) (fun _ => withData (takenWrite u x d) (writeData u x d)) v) x
      (withData (takenWrite u x d) (writeData u x d)).rx = false := (tagsSet_congr hforce _).trans htags
  rw [writeStaged_good hnsw htagw]
  obtain ⟨hdone, hshows, hvct⟩ := stageAll_completes h.alone hw hreply hrest hnsw hfdp (hdfua.trans hfua)
  exact ⟨wroteZone_of_shows hwrote hshows hvct, hdone⟩

/-- A write whose data is not at hand asks for it. -/
theorem admitZoneWrite_asks (hhere : dataAtHand d = false) (hlocks : d.locks ≠ []) (hnlb : 0 < c.nlb) :
    let e := zoneOf s c.nsid (zoneOfLba x c.slba)
    wroteZone s x c (admitZoneWrite x d u) ∧ ∃ y, liveCmd (admitZoneWrite x d u) c.conn c.cid = some y ∧ y.phase = .waitData ∧
      y.left = c.nlb * lbaBytes x ∧ y.zone = some (zoneOfLba x c.slba) ∧ y.slba = e.acc ∧ y.locks ≠ [] ∧
      y.dw0 = (if c.opcode = 0x7D then w32 (zoneOfLba x c.slba * zszeOf x + e.acc) else 0) ∧
      y.dw1 = (if c.opcode = 0x7D then w32 ((zoneOfLba x c.slba * zszeOf x + e.acc) / 2 ^ 32) else 0) ∧ sends c.conn s (admitZoneWrite x d u) ∧
      ((connOf s c.conn.toNat).isOpen = true → (connOf s c.conn.toNat).tcp = true → c.staged = 0 →
        y.asked.head? = some (0, min (c.nlb * lbaBytes x) 131072)) := by
  intro e
  obtain ⟨v, hadmit, htracks, hrest, hwrote, -, -⟩ := admitZoneWrite_poised h hfits htok
  obtain ⟨hnsid, hslba, hlen, hop, -, hstaged, -⟩ := skeleton_fields h.skel
  obtain ⟨-, -, hconn, hcid, -⟩ := tagOf_fields htracks.tag
  obtain ⟨hxpt, -⟩ := replyRest_fields hrest
  have hzone : zoneOf u d.nsid (zoneOfLba x d.slba) = e := by rw [zoneOf_congr h.post, hnsid, hslba]
  rw [hadmit, beginData_asks (show dataAtHand (takenWrite u x d) = false from hhere), hconn, hcid]
  have hw := htracks.upd h.alone (fun _ => asking (unfilled (takenWrite u x d)) [] 0) rfl
  obtain ⟨a, n, hasked, hsends, hzones, hvct, hfirst⟩ := askData_first (f := 16) h.alone hw
  have htx : (updCmd (takenWrite u x d) (fun _ => asking (unfilled (takenWrite u x d)) [] 0) v).xpt = s.xpt := hxpt
  refine ⟨wroteZone_of_shows hwrote (zoneShows_of_zones hzones) hvct, _, hasked.liveCmd h.alone, rfl, ?_, ?_, ?_, hlocks, ?_, ?_, ?_, ?_⟩
  · change d.nlb * lbaBytes x = _
    rw [hlen]
  · change some (zoneOfLba x d.slba) = _
    rw [hslba]
  · change (zoneOf u d.nsid (zoneOfLba x d.slba)).acc = _
    rw [hzone]
  · change (if d.opcode = 0x7D then w32 (zoneOfLba x d.slba * zszeOf x + (zoneOf u d.nsid (zoneOfLba x d.slba)).acc) else 0) = _
    rw [hzone, hslba, hop]
  · change (if d.opcode = 0x7D then w32 ((zoneOfLba x d.slba * zszeOf x + (zoneOf u d.nsid (zoneOfLba x d.slba)).acc) / 2 ^ 32) else 0) = _
    rw [hzone, hslba, hop]
  · exact sends_trans (sends_refl c.conn (congrArg (·.tx) htx)) hsends
  · intro hopen htcp hst
    have hbytes : 0 < c.nlb * lbaBytes x := Nat.mul_pos hnlb (by unfold lbaBytes; split <;> decide)
    have hleft : (takenWrite u x d).left = c.nlb * lbaBytes x := by
      change d.nlb * lbaBytes x = _
      rw [hlen]
    rw [connOf_of_xpt htx] at hfirst
    have := hfirst hopen htcp rfl (hstaged.trans hst) (by change 0 < (takenWrite u x d).left; rw [hleft]; exact hbytes)
    rw [← hleft]
    exact this

end

end Sys2Proof.Machine

/-! # SUPPORT. From the rows to a command's admission (R63, R299, R302) -/

namespace Sys2Proof.Machine

variable {s t u : State} {c d : Cmd} {x : Ns}

/-! ## The rows -/

theorem exec_read (conn cid : BitVec 16) (rg : List (BitVec 64 × BitVec 32 × BitVec 32)) (bad : Bool) (s : State) :
    exec (.read conn cid rg bad) s = execRead conn cid rg bad s := rfl
theorem exec_verify (conn cid : BitVec 16) (s : State) : exec (.verify conn cid) s = execVerify conn cid s := rfl
theorem exec_write (conn cid : BitVec 16) (rg : List (BitVec 64 × BitVec 32 × BitVec 32)) (cap bad : Bool) (s : State) :
    exec (.write conn cid rg cap bad) s = execWrite conn cid rg cap bad s := rfl
theorem exec_writeZeroes (conn cid : BitVec 16) (s : State) : exec (.writeZeroes conn cid) s = execWriteZeroes conn cid s := rfl
theorem exec_zoneAppend (conn cid : BitVec 16) (rg : List (BitVec 64 × BitVec 32 × BitVec 32)) (cap bad : Bool) (s : State) :
    exec (.zoneAppend conn cid rg cap bad) s = execZoneAppend conn cid rg cap bad s := rfl
theorem exec_copy (conn cid : BitVec 16) (srcs : List (BitVec 64 × BitVec 17)) (s : State) : exec
    (.copy conn cid srcs) s = execCopy conn cid srcs s := rfl
theorem exec_deferredCommandRetry (cls : BitVec 8) (s : State) : exec (.deferredCommandRetry cls) s = execDeferredCommandRetry cls s := rfl

/-- The entry of a parsed command with its keyed ranges. -/
def ranged (rg : List (BitVec 64 × BitVec 32 × BitVec 32)) (cap : Bool) (c : Cmd) : Cmd := withRanges c rg cap false

theorem cmdLocks_read (h : isReadOp c.opcode = true) : cmdLocks s x c = [(false, c.slba, c.nlb)] := by
  unfold cmdLocks
  rw [if_pos h]

theorem cmdLocks_write (h : c.opcode = 1 ∨ c.opcode = 8 ∨ c.opcode = 0x7D) : cmdLocks s x c = [(true, c.slba, c.nlb)] := by
  have hr : isReadOp c.opcode = false := by rcases h with h | h | h <;> rw [h] <;> decide
  have hc : c.opcode ≠ 0x19 := by rcases h with h | h | h <;> rw [h] <;> decide
  have hw : isWriteOp c.opcode = true := by rcases h with h | h | h <;> rw [h] <;> decide
  unfold cmdLocks
  rw [if_neg (by rw [hr]; exact Bool.false_ne_true), if_neg hc, if_pos hw]

/-- What the parse of a command that moves blocks finds in order. -/
structure Parsed (s : State) (x : Ns) (c : Cmd) : Prop where
  fresh : fresh s c
  tenant : c.admin = false
  status : parseStatus s c = none
  ns : nsOf s c.nsid.toNat = some x
  going : quiesced s c = false
  unordered : c.ordered = false

section
variable (h : Parsed s x c)
include h

/-- A read's row brings it to its run. -/
theorem read_arrives (hop : c.opcode = 2) (hlen : c.ranges.length ≤ 16) (hfree : lockFree s c false c.slba c.nlb) :
    ∃ d u, exec (.read c.conn c.cid c.ranges false) s = .next (runCmd d u) ∧ Arrived s u c d := by
  obtain ⟨k, u, hrun, harr⟩ := parseIo_arrives (f := ranged c.ranges false) h.fresh rfl rfl rfl
      (parseStatus_withRanges false hlen h.status) h.ns h.going
    h.unordered (by rw [hop]; decide) (fun t => cmdLocks_read (show isReadOp c.opcode = true by rw [hop]; decide)) hfree
  refine ⟨_, u, ?_, harr⟩
  rw [exec_read, execRead, received_fresh h.fresh h.tenant (by rw [hop]; decide), ← hrun]
  rfl

/-- A Verify's row brings it to its run. -/
theorem verify_arrives (hop : c.opcode = 0x0C) (hfree : lockFree s c false c.slba c.nlb) :
    ∃ d u, exec (.verify c.conn c.cid) s = .next (runCmd d u) ∧ Arrived s u c d := by
  obtain ⟨k, u, hrun, harr⟩ := parseIo_arrives (f := id) h.fresh rfl rfl rfl h.status h.ns h.going h.unordered (by rw [hop]; decide)
    (fun t => cmdLocks_read (show isReadOp c.opcode = true by rw [hop]; decide)) hfree
  refine ⟨_, u, ?_, harr⟩
  rw [exec_verify, execVerify, received_fresh h.fresh h.tenant (by rw [hop]; decide), ← hrun, updCmd_id]
  rfl

/-- A Write's row brings it to its run. -/
theorem write_arrives {rg : List (BitVec 64 × BitVec 32 × BitVec 32)} (cap : Bool) (hop : c.opcode = 1) (hlen : rg.length ≤ 16)
    (hfree : lockFree s c true c.slba c.nlb) :
    ∃ k u, exec (.write c.conn c.cid rg cap false) s = .next (runCmd (withLock k (ranged rg cap c)) u) ∧ Arrived s u c (withLock k
      (ranged rg cap c)) := by
  obtain ⟨k, u, hrun, harr⟩ := parseIo_arrives (f := ranged rg cap) h.fresh rfl rfl rfl (parseStatus_withRanges cap hlen h.status) h.ns h.going
    h.unordered (by rw [hop]; decide) (fun t => cmdLocks_write (.inl hop)) hfree
  refine ⟨k, u, ?_, harr⟩
  rw [exec_write, execWrite, received_fresh h.fresh h.tenant (by rw [hop]; decide), ← hrun]
  rfl

/-- A Write Zeroes' row brings it to its run. -/
theorem writeZeroes_arrives (hop : c.opcode = 8) (hfree : lockFree s c true c.slba c.nlb) :
    ∃ k u, exec (.writeZeroes c.conn c.cid) s = .next (runCmd (withLock k c) u) ∧ Arrived s u c (withLock k c) := by
  obtain ⟨k, u, hrun, harr⟩ := parseIo_arrives (f := id) h.fresh rfl rfl rfl h.status h.ns h.going h.unordered (by rw [hop]; decide)
    (fun t => cmdLocks_write (.inr (.inl hop))) hfree
  refine ⟨k, u, ?_, harr⟩
  rw [exec_writeZeroes, execWriteZeroes, received_fresh h.fresh h.tenant (by rw [hop]; decide)]
  rw [updCmd_id] at hrun
  exact congrArg Host.Outcome.next hrun

/-- A Zone Append's row brings it to its run. -/
theorem zoneAppend_arrives {rg : List (BitVec 64 × BitVec 32 × BitVec 32)} (cap : Bool) (hop : c.opcode = 0x7D) (hlen : rg.length ≤ 16)
    (hfree : lockFree s c true c.slba c.nlb) :
    ∃ k u, exec (.zoneAppend c.conn c.cid rg cap false) s = .next (runCmd (withLock k (ranged rg cap c)) u) ∧
      Arrived s u c (withLock k (ranged rg cap c)) := by
  obtain ⟨k, u, hrun, harr⟩ := parseIo_arrives (f := ranged rg cap) h.fresh rfl rfl rfl (parseStatus_withRanges cap hlen h.status) h.ns h.going
    h.unordered (by rw [hop]; decide) (fun t => cmdLocks_write (.inr (.inr hop))) hfree
  refine ⟨k, u, ?_, harr⟩
  rw [exec_zoneAppend, execZoneAppend, received_fresh h.fresh h.tenant (by rw [hop]; decide), ← hrun]
  rfl

end

/-- A write command's run to a zoned namespace is its zone's admission. -/
theorem runCmd_write (hns : nsOf u d.nsid.toNat = some x) (hfdp : x.fdp = false) (hop : d.opcode = 1 ∨ d.opcode = 8 ∨ d.opcode = 0x7D)
    (happend : d.opcode = 0x7D → d.slba % zszeOf x = 0 ∧ d.nlb * lbaBytes x ≤ 131072) : runCmd d u = admitZoneWrite x d u := by
  have hr : isReadOp d.opcode = false := by rcases hop with h | h | h <;> rw [h] <;> decide
  have hz : d.opcode ≠ 0x79 := by rcases hop with h | h | h <;> rw [h] <;> decide
  have hc : d.opcode ≠ 0x19 := by rcases hop with h | h | h <;> rw [h] <;> decide
  have hfits : ¬ (decide (d.opcode = 0x7D) && (decide (d.slba % zszeOf x ≠ 0) || decide (131072 < d.nlb * lbaBytes x))) = true := by
    rw [Bool.and_eq_true, Bool.or_eq_true, decide_eq_true_eq, decide_eq_true_eq, decide_eq_true_eq]
    rintro ⟨h, h'⟩
    obtain ⟨hstart, hshort⟩ := happend h
    exact h'.elim (· hstart) (Nat.not_lt.mpr hshort)
  rw [runCmd, if_neg hz, if_neg hc, if_neg (by rw [hr]; exact Bool.false_ne_true), admitWrite, hns]
  dsimp only
  rw [if_neg hfits, if_neg (by rw [hfdp]; exact Bool.false_ne_true)]

theorem readCan_of
    (h : readTokens s c (readUnits s x c) = true ∧
      readSlots s c (((splitRead s x c.nsid c.slba c.nlb).map (partReads s c x)).flatten) (anyStaged s x c.nsid c.slba c.nlb) = true ∧
      (c.opcode = 2 → transportTakes s c (c.nlb * lbaBytes x) = true)) :
    readCan s x c := by
  obtain ⟨htok, hslots, htrans⟩ := h
  refine ⟨htok, ?_⟩
  unfold readPlaced
  rw [hslots, Bool.true_and, Bool.not_eq_true', Bool.and_eq_false_iff, decide_eq_false_iff_not, Bool.not_eq_false']
  exact (em (c.opcode = 2)).elim (fun hop => .inr (htrans hop)) .inl

end Sys2Proof.Machine

/-! # SUPPORT. Reads, writes and copies by their clauses (R61 to R65, R283, R288 to R302, R307) -/

namespace Sys2Proof.Machine

variable {s t u : State} {c d : Cmd} {x : Ns}

/-! ## Writes -/

theorem Parsed.of_zoneTakes (hfresh : Machine.fresh s c) (hadmin : c.admin = false) (h : zoneTakes s x c) : Parsed s x c := by
  obtain ⟨hst, hns, -, hq, hord, -⟩ := h
  exact ⟨hfresh, hadmin, hst, hns, hq, hord⟩

/-- What a write to a zone answers while it waits for its data. -/
def writeAsks (s : State) (x : Ns) (c : Cmd) (app : Bool) (t : State) : Prop :=
  let z := zoneOfLba x c.slba
  let e := zoneOf s c.nsid z
  let w := z * zszeOf x + e.acc
  ∃ d, liveCmd t c.conn c.cid = some d ∧ d.phase = .waitData ∧ d.left = c.nlb * lbaBytes x ∧ d.zone = some z ∧ d.slba = e.acc ∧ d.locks ≠ [] ∧
    d.dw0 = (if app then BitVec.ofNat 32 w else 0) ∧ d.dw1 = (if app then BitVec.ofNat 32 (w / 2 ^ 32) else 0) ∧
    (∃ l, t.xpt.tx = s.xpt.tx ++ l ∧ ∀ f ∈ l, f.conn = some c.conn) ∧
    ((connOf s c.conn.toNat).isOpen = true → (connOf s c.conn.toNat).tcp = true → c.staged = 0 →
      d.asked.head? = some (0, min (c.nlb * lbaBytes x) 131072))

section
variable (h : Arrived s u c d) (hz : zoneTakes s x c) (hop : c.opcode = 1 ∨ c.opcode = 8 ∨ c.opcode = 0x7D)
include h hz hop

theorem runCmd_zone : runCmd d u = admitZoneWrite x d u := by
  obtain ⟨hnsid, hslba, hnlb, hopc, -⟩ := h.fields
  obtain ⟨-, hns, hfdp, -, -, -, -, -, -, -, -, -, -, -, happend, -⟩ := hz
  refine runCmd_write ?_ hfdp (by rw [hopc]; exact hop) (by rw [hopc, hslba, hnlb]; exact happend)
  rw [nsOf_congr h.post, hnsid]
  exact hns

theorem runCmd_asks (hcap : d.inCap = false) (hzeroes : c.opcode ≠ 8) (hlocks : d.locks ≠ []) :
    wroteZone s x c (runCmd d u) ∧ writeAsks s x c (decide (c.opcode = 0x7D)) (runCmd d u) := by
  obtain ⟨hfits, htok⟩ := zoneFits_of_zoneTakes hz
  obtain ⟨-, -, -, hopc, -⟩ := h.fields
  have hnlb : 0 < c.nlb := hz.2.2.2.2.2.1
  have hint : d.internal = false := (tagOf_fields (tagOf_of_core h.core)).1.trans h.alone.2.1
  have hhere : dataAtHand d = false := by
    unfold dataAtHand
    rw [hcap, hint, hopc]
    rcases hop with hop | hop | hop
    · rw [hop]; decide
    · exact absurd hop hzeroes
    · rw [hop]; decide
  rw [runCmd_zone h hz hop]
  obtain ⟨hwrote, y, hlive, hphase, hleft, hzone, hslba, hylocks, hdw0, hdw1, hsends,
      hasked⟩ := admitZoneWrite_asks h.poised hfits htok hhere hlocks hnlb
  refine ⟨hwrote, y, hlive, hphase, hleft, hzone, hslba, hylocks, ?_, ?_, hsends, hasked⟩
  · rw [hdw0]
    simp only [decide_eq_true_eq]
    rfl
  · rw [hdw1]
    simp only [decide_eq_true_eq]
    rfl

theorem runCmd_ends (hfua : c.fua = false) (hhere : d.inCap = true ∨ c.opcode = 8) (htags : c.opcode ≠ 8 → tagsSet s x d.rx = false) :
    wroteZone s x c (runCmd d u) ∧ completed c 0
      (if c.opcode = 0x7D then BitVec.ofNat 32 (zoneOfLba x c.slba * zszeOf x + (zoneOf s c.nsid (zoneOfLba x c.slba)).acc) else 0)
      (if c.opcode = 0x7D then BitVec.ofNat 32 ((zoneOfLba x c.slba * zszeOf x + (zoneOf s c.nsid (zoneOfLba x c.slba)).acc) / 2 ^ 32) else 0)
      s (runCmd d u) := by
  obtain ⟨hfits, htok⟩ := zoneFits_of_zoneTakes hz
  obtain ⟨hnsid, hslba, -, hopc, -⟩ := h.fields
  have hint : d.internal = false := (tagOf_fields (tagOf_of_core h.core)).1.trans h.alone.2.1
  have hhere' : dataAtHand d = true := by
    unfold dataAtHand
    rw [hopc]
    rcases hhere with hcap | hzero
    · rw [hcap]
      rfl
    · rw [hzero]
      simp
  have hdata : tagsSet s x (writeData u x d) = false := by
    unfold writeData
    rw [hopc, hint]
    by_cases hzero : c.opcode = 8
    · rw [if_pos hzero]
      exact tagsSet_nil s x
    · have hcopy : c.opcode ≠ 0x19 := by rcases hop with hop | hop | hop <;> rw [hop] <;> decide
      rw [if_neg hzero, if_neg hcopy, if_neg Bool.false_ne_true]
      exact htags hzero
  obtain ⟨hwrote, hdone⟩ := admitZoneWrite_ends h.poised hfits htok hz.2.2.1 hfua hhere' hdata
  rw [runCmd_zone h hz hop]
  refine ⟨hwrote, ?_⟩
  have hdw0 : (takenWrite u x d).dw0 = if c.opcode = 0x7D then w32 (zoneOfLba x c.slba * zszeOf x + (zoneOf s c.nsid
      (zoneOfLba x c.slba)).acc) else 0 := by
    change (if d.opcode = 0x7D then w32 (zoneOfLba x d.slba * zszeOf x + (zoneOf u d.nsid (zoneOfLba x d.slba)).acc) else 0) = _
    rw [hopc, hslba, hnsid, zoneOf_congr h.post]
  have hdw1 : (takenWrite u x d).dw1 = if c.opcode = 0x7D then w32 ((zoneOfLba x c.slba * zszeOf x + (zoneOf s c.nsid
      (zoneOfLba x c.slba)).acc) / 2 ^ 32)
      else 0 := by
    change (if d.opcode = 0x7D then w32 ((zoneOfLba x d.slba * zszeOf x + (zoneOf u d.nsid (zoneOfLba x d.slba)).acc) / 2 ^ 32) else 0) = _
    rw [hopc, hslba, hnsid, zoneOf_congr h.post]
  rw [hdw0, hdw1] at hdone
  exact hdone

end

/-- A write that breaks a rule of its zone fails with the status of that rule. -/
theorem runCmd_refused {st : BitVec 16} (h : Arrived s u c d) (hns : nsOf s c.nsid.toNat = some x) (hfdp : x.fdp = false) (hop : c.opcode = 1)
    (hroom : zoneRoom s x c) (hcheck : zoneCheck s x c.nsid (zoneOfLba x c.slba) (c.slba % zszeOf x) c.nlb = some st) :
    completed c st 0 0 s (runCmd d u) := by
  obtain ⟨hnsid, hslba, hnlb, hopc, hvc⟩ := h.fields
  have hpoised := h.poised
  obtain ⟨-, -, -, -, -, -, -, hcls, -⟩ := skeleton_fields hpoised.skel
  have hroom' : zoneRoom u x d := by
    unfold zoneRoom at hroom ⊢
    rw [zoneOf_congr h.post, rebuild_congr h.post, deck_congr h.post, writeTokens_congr hpoised.vct hvc, canProgram_congr h.post, toPool_congr h.post,
      stageRoom_congr h.post, hnsid, hslba, hnlb, hcls]
    have hprog : canProgram s d = canProgram s c := same_of_core (canProgram s ·) (fun _ => rfl) h.core
    rw [hprog]
    exact hroom
  have hcheck' : zoneCheck u x d.nsid (zoneOfLba x d.slba) (writeAt u x d) d.nlb = some st := by
    unfold writeAt
    rw [if_neg (by rw [hopc, hop]; decide), zoneCheck_congr h.post, hnsid, hslba, hnlb]
    exact hcheck
  have hnsu : nsOf u d.nsid.toNat = some x := by
    rw [nsOf_congr h.post, hnsid]
    exact hns
  have hone : d.opcode ≠ 0x7D := by
    rw [hopc, hop]
    decide
  have hrun : runCmd d u = admitZoneWrite x d u := runCmd_write hnsu hfdp (.inl (hopc.trans hop)) (fun happ => absurd happ hone)
  have hrefund : refundRead d u = u := by
    unfold refundRead
    split
    · rw [if_neg (by rw [hopc, hop]; decide)]
    · rfl
  rw [hrun, admitZoneWrite_refused hroom' hcheck', hrefund]
  exact failCmd_arrived h st

end Sys2Proof.Machine

namespace Sys2Proof.Machine

variable {s t u : State} {c d : Cmd} {x : Ns}

/-! ## A deferred command that is tried again (R63) -/

theorem exec_retry_none {cls : BitVec 8} (h : dueDeferred s cls = []) : exec (.deferredCommandRetry cls) s = .next s := by
  rw [exec_deferredCommandRetry, execDeferredCommandRetry, h]
  rfl

theorem failCmd_alone (ha : alone s c) (st : BitVec 16) : completed c st 0 0 s (failCmd c st s) :=
  ((Tracks.refl s c).completed ha rfl rfl rfl st 0 0).1

section
variable (h : dueDeferred s c.cls = [c]) (ha : alone s c)
include h

theorem retry_phase : c.phase ≠ .posted := by
  have hdue : retryDue s c.cls c = true := by
    have : c ∈ dueDeferred s c.cls := by
      rw [h]
      exact List.mem_singleton_self c
    exact (List.mem_filter.mp this).2
  unfold retryDue at hdue
  simp only [Bool.and_eq_true, Bool.or_eq_true, decide_eq_true_eq] at hdue
  obtain ⟨⟨⟨hphase, -⟩, -⟩, -⟩ := hdue
  rcases hphase with hphase | ⟨hphase, -⟩ <;> rw [hphase] <;> decide

theorem exec_retry : exec (.deferredCommandRetry c.cls) s = .next (retryCmd s c) := by
  rw [exec_deferredCommandRetry, execDeferredCommandRetry, h]
  rfl

include ha

theorem retry_barred {st : BitVec 16} (hmode : modeStatus s c = some st) : answered (.deferredCommandRetry c.cls) c st 0 0 s := by
  refine ⟨_, (exec_retry h).trans (congrArg Host.Outcome.next ?_), failCmd_alone ha st⟩
  unfold retryCmd
  rw [(Tracks.refl s c).sameCmd ha rfl]
  dsimp only
  rw [hmode]

variable (hmode : modeStatus s c = none)
include hmode

theorem retry_runs : exec (.deferredCommandRetry c.cls) s = .next (afterOrder c s) := by
  refine (exec_retry h).trans (congrArg Host.Outcome.next ?_)
  unfold retryCmd
  rw [(Tracks.refl s c).sameCmd ha rfl]
  dsimp only
  rw [hmode]

theorem retry_aborted (hmark : s.tables.marks.contains (c.conn, c.cid) = true) : answered (.deferredCommandRetry c.cls) c (status 0 7) 0 0 s := by
  refine ⟨_, retry_runs h ha hmode, ?_⟩
  unfold afterOrder
  rw [if_pos (by rw [ha.2.1, hmark]; rfl)]
  exact failCmd_alone ha _

theorem retry_held (hmark : s.tables.marks.contains (c.conn, c.cid) = false) (hq : quiesced s c = true) :
    ∃ t d, exec (.deferredCommandRetry c.cls) s = .next t ∧ liveCmd t c.conn c.cid = some d ∧ d.phase = .held := by
  have hheld : afterOrder c s = setPhase c .held s := by
    unfold afterOrder
    rw [if_neg (by rw [hmark, Bool.and_false]; exact Bool.false_ne_true), if_pos hq]
  exact ⟨_, _, (retry_runs h ha hmode).trans (congrArg Host.Outcome.next hheld), ((Tracks.refl s c).upd ha _ rfl).liveCmd ha, rfl⟩

theorem retry_arrives (hns : nsOf s c.nsid.toNat = some x) (hq : quiesced s c = false) (hop : isReadOp c.opcode = true)
    (hfree : lockFree s c false c.slba c.nlb) : ∃ d u, exec (.deferredCommandRetry c.cls) s = .next (runCmd d u) ∧ Arrived s u c d := by
  obtain ⟨k, u, hrun, htracks, hoff⟩ := lockAndRun_one ha (Tracks.refl s c) rfl ⟨rfl, rfl, rfl⟩ rfl rfl hns (cmdLocks_read hop) hfree
  refine ⟨withLock k c, u, ?_, ha, htracks, hoff, rfl, retry_phase h, (retry_phase h : c.phase ≠ .posted)⟩
  rw [retry_runs h ha hmode, ← hrun]
  refine congrArg Host.Outcome.next ?_
  unfold afterOrder
  rw [if_neg (by rw [hfree.1, Bool.and_false]; exact Bool.false_ne_true), if_neg (by rw [hq]; exact Bool.false_ne_true), if_neg (by simp [hfree.2.1])]

end

end Sys2Proof.Machine

namespace Sys2Proof.Machine

variable {s t u : State} {c d : Cmd} {x : Ns}

/-! ## The locks of a Copy (R302 to R304, R307) -/

theorem length_mdel {α : Type} (k : Nat) : ∀ m : SMap α, (mdel k m).length ≤ m.length
  | [] => le_refl _
  | (j, v) :: m => by
    unfold mdel
    split
    · exact (length_mdel k m).trans (Nat.le_succ _)
    · exact Nat.succ_le_succ (length_mdel k m)

theorem length_mins {α : Type} (k : Nat) (v : α) : ∀ m : SMap α, (mins k v m).length = m.length + 1
  | [] => rfl
  | (j, w) :: m => by
    unfold mins
    split
    · rfl
    · exact congrArg (· + 1) (length_mins k v m)

theorem length_mset {α : Type} [DecidableEq α] (d : α) (k : Nat) (v : α) (m : SMap α) : (mset d k v m).length ≤ m.length + 1 := by
  unfold mset
  split
  · exact (length_mdel k m).trans (Nat.le_succ _)
  · rw [length_mins]
    exact Nat.succ_le_succ (length_mdel k m)

/-- A lock table with fewer entries than places has a free one. -/
theorem freeLockEntry_of_short (h : t.tables.locks.length < nLocks t) : freeLockEntry t ≠ none := by
  intro hnone
  unfold freeLockEntry at hnone
  rw [List.find?_eq_none] at hnone
  have hsub : List.range (t.tables.locks.length + 1) ⊆ t.tables.locks.map (·.1) := fun k hk => by
    have hle := List.mem_range.mp hk
    have hfull := hnone k hk
    have hlt : k < nLocks t := by omega
    rcases mget_default_or_mem none t.tables.locks k with hget | hmem
    · exact absurd hfull (by simp [hget, hlt])
    · exact List.mem_map.mpr ⟨_, hmem, rfl⟩
  have hlen := (List.subperm_of_subset List.nodup_range hsub).length_le
  rw [List.length_range, List.length_map] at hlen
  omega

/-- A command's entry with some locks. -/
def locked (ks : List Nat) (c : Cmd) : Cmd := { c with locks := ks }

/-- A command is taking shared locks on source ranges: at most `n` so far, in a table that held none. -/
structure Locking (s t : State) (c d : Cmd) (rs : List (Nat × Nat)) (n : Nat) : Prop where
  entry : ∃ ks, Tracks s t c (locked ks d)
  off : offQueue t = offQueue s
  marks : t.tables.marks = s.tables.marks
  shares : t.tables.shares = s.tables.shares
  short : t.tables.locks.length ≤ n
  shared : ∀ e ∈ t.tables.locks, ∀ l, e.2 = some l → l.excl = false ∧ ∃ r ∈ rs, l.start = BitVec.ofNat 64 r.1 ∧ l.count = BitVec.ofNat 64 r.2

section
variable {rs : List (Nat × Nat)} {n : Nat} (h : Locking s t c d rs n) (ha : alone s c) (hmark : s.tables.marks.contains (c.conn, c.cid) = false)
include h

theorem Locking.grantable {ex : Bool} {a k : Nat} (hcls : d.cls = c.cls) (hshare : n < mget 0 s.tables.shares c.cls.toNat) (hplace : n < nLocks s)
    (hconf : ∀ e ∈ t.tables.locks, ∀ l, e.2 = some l → lockConflict l (lockOf d ex a k) = false) : grantable t (lockOf d ex a k) := by
  have hvar : t.varB = s.varB := congrArg (·.varB) h.off
  have hn : nLocks t = nLocks s := by rw [nLocks, hvar, nLocks]
  refine ⟨?_, freeLockEntry_of_short ?_, hconf⟩
  · have howner : (lockOf d ex a k).owner = c.cls.toNat := by rw [lockOf, hcls]
    rw [howner, h.shares]
    exact ((List.length_filter_le _ _).trans h.short).trans_lt hshare
  · rw [hn]
    exact h.short.trans_lt hplace

include ha hmark

/-- A request is granted. -/
theorem Locking.request {ex : Bool} {a k : Nat} (hgrant : Machine.grantable t (lockOf d ex a k)) :
    ∃ t', lockAll d [(ex, a, k)] 0 t = (0, t') ∧ (∀ rest, lockAll d ((ex, a, k) :: rest) 0 t = lockAll d rest 0 t') ∧
      (∃ ks, Tracks s t' c (locked ks d)) ∧ offQueue t' = offQueue s ∧ t'.tables.marks = s.tables.marks ∧ t'.tables.shares = s.tables.shares ∧
      (t'.tables.locks = t.tables.locks ∨
        ∃ i seq, t'.tables.locks = mset none i (some { lockOf d ex a k with seq := seq, granted := true }) t.tables.locks) := by
  obtain ⟨ks, hks⟩ := h.entry
  obtain ⟨hint, -, hconn, hcid, -⟩ := tagOf_fields hks.tag
  change d.internal = c.internal at hint
  change d.conn = c.conn at hconn
  change d.cid = c.cid at hcid
  have hlive : liveCmd t d.conn d.cid = some (locked ks d) := by
    rw [hconn, hcid]
    exact hks.liveCmd ha
  have hmark' : t.tables.marks.contains (d.conn, d.cid) = false := by
    rw [h.marks, hconn, hcid]
    exact hmark
  obtain ⟨i, f, hcode, hstate, hcmds, hmarks, horder, hshares, hlocks⟩ :=
    lockAcquire_granted (e := lockOf d ex a k) (hint.trans ha.2.1) hlive hmark' hgrant
  have hone : ∀ rest, lockAll d ((ex, a, k) :: rest) 0 t = lockAll d rest 0 (updCmd (locked ks d) (withLock i) (modTables f t)) := fun rest => by
    rw [lockAll_cons, hcode, hstate]
    rfl
  exact ⟨_, hone [], hone, ⟨_, (hks.keep (u := modTables f t) hcmds horder).upd ha (withLock i) rfl⟩, h.off, hmarks.trans h.marks,
      hshares.trans h.shares,
    hlocks⟩

/-- One more shared lock is taken. -/
theorem Locking.share {r : Nat × Nat} (hr : r ∈ rs) (hcls : d.cls = c.cls) (hshare : n < mget 0 s.tables.shares c.cls.toNat) (hplace : n < nLocks s) :
    ∃ t', (∀ rest, lockAll d ((false, r.1, r.2) :: rest) 0 t = lockAll d rest 0 t') ∧ Locking s t' c d rs (n + 1) := by
  have hconf : ∀ e ∈ t.tables.locks, ∀ l, e.2 = some l → lockConflict l (lockOf d false r.1 r.2) = false := fun e he l hl => by
    unfold lockConflict
    rw [(h.shared e he l hl).1]
    simp [lockOf]
  obtain ⟨t', -, hnext, hentry, hoff, hmarks, hshares, hlocks⟩ := h.request ha hmark (h.grantable hcls hshare hplace hconf)
  refine ⟨t', hnext, hentry, hoff, hmarks, hshares, ?_, ?_⟩
  · rcases hlocks with hlocks | ⟨i, seq, hlocks⟩
    · rw [hlocks]
      exact h.short.trans (Nat.le_succ n)
    · rw [hlocks]
      exact (length_mset _ _ _ _).trans (Nat.succ_le_succ h.short)
  · intro e he l hl
    rcases hlocks with hlocks | ⟨i, seq, hlocks⟩
    · rw [hlocks] at he
      exact h.shared e he l hl
    · rw [hlocks] at he
      rcases mem_mset he with heq | ⟨hmem, -⟩
      · rw [heq] at hl
        obtain rfl := Option.some.inj hl
        exact ⟨rfl, r, hr, rfl, rfl⟩
      · exact h.shared e hmem l hl

end

/-- A range that no source of a Copy overlaps. -/
def clearOf (rs : List (Nat × Nat)) (a n : Nat) : Prop :=
  ∀ r ∈ rs, r.1 < 2 ^ 64 ∧ r.2 < 2 ^ 64 ∧ a < 2 ^ 64 ∧ n < 2 ^ 64 ∧ ¬ (r.1 < a + n ∧ a < r.1 + r.2)

/-- A Copy takes a shared lock on each source and then an exclusive one on its destination. -/
theorem Locking.all (ha : alone s c) (hmark : s.tables.marks.contains (c.conn, c.cid) = false) (hcls : d.cls = c.cls) {rs : List (Nat × Nat)}
    {a k : Nat}
    (hclear : clearOf rs a k) : ∀ (l : List (Nat × Nat)) {t : State} {n : Nat}, Locking s t c d rs n → (∀ r ∈ l, r ∈ rs) →
      n + l.length < mget 0 s.tables.shares c.cls.toNat → n + l.length < nLocks s →
      ∃ u ks, lockAll d (l.map (fun r => (false, r.1, r.2)) ++ [(true, a, k)]) 0 t = (0, u) ∧ Tracks s u c (locked ks d) ∧ offQueue u = offQueue s
  | [], t, n, h, _, hshare, hplace => by
    have hconf : ∀ e ∈ t.tables.locks, ∀ l, e.2 = some l → lockConflict l (lockOf d true a k) = false := fun e he l hl => by
      obtain ⟨-, r, hr, hstart, hcount⟩ := h.shared e he l hl
      obtain ⟨hr1, hr2, ha64, hk64, hno⟩ := hclear r hr
      unfold lockConflict
      have hs : l.start.toNat = r.1 := by rw [hstart, BitVec.toNat_ofNat, Nat.mod_eq_of_lt hr1]
      have hc : l.count.toNat = r.2 := by rw [hcount, BitVec.toNat_ofNat, Nat.mod_eq_of_lt hr2]
      have hs' : (lockOf d true a k).start.toNat = a := by rw [lockOf, BitVec.toNat_ofNat, Nat.mod_eq_of_lt ha64]
      have hc' : (lockOf d true a k).count.toNat = k := by rw [lockOf, BitVec.toNat_ofNat, Nat.mod_eq_of_lt hk64]
      rw [hs, hc, hs', hc', Bool.and_assoc, Bool.and_eq_false_iff]
      right
      rw [Bool.and_eq_false_iff, decide_eq_false_iff_not, decide_eq_false_iff_not]
      omega
    obtain ⟨u, hall, -, ⟨ks, hks⟩, hoff, -⟩ := h.request ha hmark (h.grantable hcls (by simpa using hshare) (by simpa using hplace) hconf)
    exact ⟨u, ks, hall, hks, hoff⟩
  | r :: l, t, n, h, hl, hshare, hplace => by
    rw [List.length_cons] at hshare hplace
    obtain ⟨t', hnext, h'⟩ := h.share ha hmark (hl r List.mem_cons_self) hcls (by omega) (by omega)
    obtain ⟨u, ks, hall, hks, hoff⟩ := Locking.all ha hmark hcls hclear l h' (fun q hq => hl q (List.mem_cons_of_mem _ hq)) (by omega) (by omega)
    exact ⟨u, ks, by rw [List.map_cons, List.cons_append, hnext, hall], hks, hoff⟩

end Sys2Proof.Machine

namespace Sys2Proof.Machine

variable {s t u : State} {c d e : Cmd} {x : Ns}

/-! ## The sources of a Copy (R307, R308) -/

/-- The parse of a Copy leaves its sources in its entry. -/
def sourced (l : List (Nat × Nat)) (c : Cmd) : Cmd := { c with srcs := l }

theorem cmdLocks_copy (h : c.opcode = 0x19) : cmdLocks s x c = c.srcs.map (fun r => (false, r.1, r.2)) ++ [(true, c.slba, c.nlb)] := by
  unfold cmdLocks
  rw [if_neg (by rw [h]; decide), if_pos h]

/-- The state of a Copy whose read tokens are charged and whose sources are being read. -/
def copyCharged (e : Cmd) (u : State) : State := setPhase e .posted (chargeRead e e.nlb u)

/-- The reads of a Copy's sources. -/
def readSources (e : Cmd) (x : Ns) (u : State) : State :=
  (copyRanges e).foldl (fun t r => postRange (!inTime e) e x r.1.1 r.1.2 r.2 t) u

/-- The parts of a Copy's sources that are on flash. -/
def copyParts (s : State) (x : Ns) (c : Cmd) (l : List (Nat × Nat)) : List Part := (l.map (fun r => splitRead s x c.nsid r.1 r.2)).flatten

/-- A Copy's tokens and slots are there. -/
def copyCan (s : State) (x : Ns) (c : Cmd) (l : List (Nat × Nat)) : Bool :=
  readTokens s c c.nlb && readSlots s c (((copyParts s x c l).map (partReads s c x)).flatten) (l.any (fun r => anyStaged s x c.nsid r.1 r.2))

theorem admitCopy_eq (hns : nsOf u e.nsid.toNat = some x) (hgot : e.got ≠ e.nlb) (hcan : copyCan u x e e.srcs = true)
    (honline : e.srcs.any (fun r => rangeOffline u x e.nsid r.1 r.2) = false) :
    admitCopy e u = if e.srcs.any (fun r => rangePoisoned u x e.nsid r.1 r.2) = true then failCmd e (status 2 0x81) u
      else copyOn e (readSources e x (copyCharged e u)) := by
  unfold copyCan at hcan
  rw [Bool.and_eq_true] at hcan
  have hheld : ¬ (!readTokens u e e.nlb || !readSlots u e (((copyParts u x e e.srcs).map (partReads u e x)).flatten)
      (e.srcs.any (fun r => anyStaged u x e.nsid r.1 r.2))) = true := by
    rw [hcan.1, hcan.2]
    decide
  unfold admitCopy
  rw [hns]
  dsimp only
  rw [if_neg hgot]
  unfold copyParts at hheld
  rw [if_neg hheld, honline, if_neg Bool.false_ne_true]
  rfl

theorem copyRanges_fst : ∀ (l : List (Nat × Nat)) (acc : Nat × List ((Nat × Nat) × Nat)),
    (l.foldl (fun (acc : Nat × List ((Nat × Nat) × Nat)) r => (acc.1 + r.2, acc.2 ++ [(r, acc.1)])) acc).2.map (·.1) = acc.2.map (·.1) ++ l
  | [], acc => (List.append_nil _).symm
  | r :: l, acc => by
    rw [List.foldl_cons, copyRanges_fst l]
    simp

theorem copyRanges_sources (c : Cmd) : (copyRanges c).map (·.1) = c.srcs := copyRanges_fst c.srcs (0, [])

/-- A range of a command that is no read is posted, and its blocks that need no media read are read. -/
theorem Posting.range (htag : tagOf d = tagOf c) (ha : alone s c) (hop : e.opcode ≠ 2) (hphase : e.phase ≠ .ended) (hread : isReadOp e.opcode = false)
    {g : Nat} {m : SMap (List (BitVec 8))} (h : Posting s u t c (holding e g m)) (unb : Bool) (a n off : Nat) :
    ∃ g' m', Posting s u (Machine.postRange unb d x a n off t) c (holding e g' m') ∧ g' ≤ g + (readyLbas u x d.nsid a n).length ∧
      ((∀ i ∈ readyLbas u x d.nsid a n, readNow u x d.nsid e.cls i) → g' = g + (readyLbas u x d.nsid a n).length) := by
  unfold Machine.postRange
  rw [readyLbas_congr h.post]
  exact Posting.blocks htag ha hop hphase (fun i => off + (i - a)) _ (h.parts ha unb htag _ _) (.inl hread)

/-- The sources of a Copy are posted, and their blocks that need no media read are read. -/
theorem Posting.sources (htag : tagOf d = tagOf c) (ha : alone s c) (hop : e.opcode ≠ 2) (hphase : e.phase ≠ .ended)
    (hread : isReadOp e.opcode = false)
    (unb : Bool) : ∀ (l : List ((Nat × Nat) × Nat)) {t : State} {g : Nat} {m : SMap (List (BitVec 8))}, Posting s u t c (holding e g m) →
      ∃ g' m', Posting s u (l.foldl (fun t r => Machine.postRange unb d x r.1.1 r.1.2 r.2 t) t) c (holding e g' m') ∧
        g' ≤ g + ((l.map (·.1)).map (fun r => (readyLbas u x d.nsid r.1 r.2).length)).sum ∧
        ((∀ r ∈ l.map (·.1), ∀ i ∈ readyLbas u x d.nsid r.1 r.2, readNow u x d.nsid e.cls i) →
          g' = g + ((l.map (·.1)).map (fun r => (readyLbas u x d.nsid r.1 r.2).length)).sum)
  | [], _, g, m, h => ⟨g, m, h, le_refl _, fun _ => rfl⟩
  | r :: l, t, g, m, h => by
    obtain ⟨g₁, m₁, h₁, hle₁, heq₁⟩ := h.range (x := x) htag ha hop hphase hread unb r.1.1 r.1.2 r.2
    obtain ⟨g₂, m₂, h₂, hle₂, heq₂⟩ := Posting.sources htag ha hop hphase hread unb l h₁
    simp only [List.map_cons, List.sum_cons, List.forall_mem_cons]
    refine ⟨g₂, m₂, h₂, by omega, fun ⟨hr, hl⟩ => ?_⟩
    have h1 := heq₁ hr
    have h2 := heq₂ hl
    omega

/-- A Copy's sources hold as many blocks that need no media read as blocks at most, and fewer where something is on flash. -/
theorem ready_sources {n : BitVec 32} : ∀ l : List (Nat × Nat), (l.map (fun r => (readyLbas s x n r.1 r.2).length)).sum ≤ (l.map (·.2)).sum ∧
    ((l.map (fun r => splitRead s x n r.1 r.2)).flatten ≠ [] → (l.map (fun r => (readyLbas s x n r.1 r.2).length)).sum < (l.map (·.2)).sum) ∧
    ((l.map (fun r => splitRead s x n r.1 r.2)).flatten = [] → (l.map (fun r => (readyLbas s x n r.1 r.2).length)).sum = (l.map (·.2)).sum)
  | [] => ⟨le_refl _, fun h => absurd rfl h, fun _ => rfl⟩
  | r :: l => by
    obtain ⟨hle, hlt, heq⟩ := ready_sources (n := n) l
    obtain ⟨hle₁, hlt₁⟩ := readyLbas_length (s := s) (x := x) (n := n) (lba := r.1) (cnt := r.2)
    simp only [List.map_cons, List.sum_cons, List.flatten_cons]
    refine ⟨by omega, fun hne => ?_, fun hnil => ?_⟩
    · by_cases hr : splitRead s x n r.1 r.2 = []
      · rw [hr, List.nil_append] at hne
        have := hlt hne
        omega
      · have := hlt₁ hr
        omega
    · obtain ⟨hr, hrest⟩ := List.append_eq_nil_iff.mp hnil
      have h1 : (readyLbas s x n r.1 r.2).length = r.2 := by rw [readyLbas_of_splitRead hr, List.length_map, List.length_range]
      have h2 := heq hrest
      omega

/-! ## A Copy that has come through its locks -/

theorem chargeRead_frame (c : Cmd) (n : Nat) (s : State) : ∃ f, chargeRead c n s = modVct f s ∧ writeVct (chargeRead c n s) = writeVct s ∧
    ∀ v, c.vc = some v → (vcOf (chargeRead c n s) v.toNat).rd = (vcOf s v.toNat).rd - n := by
  unfold chargeRead
  split
  · exact ⟨id, rfl, rfl, fun v hv => absurd hv (by simp_all)⟩
  · next v hv =>
    refine ⟨_, rfl, ?_, fun w hw => ?_⟩
    · funext w
      unfold writeVct
      by_cases hwv : w = v.toNat
      · rw [hwv, vcOf_modVc_same]
      · rw [vcOf_modVc_other (h := hwv)]
    · rw [hv, Option.some.injEq] at hw
      rw [← hw, vcOf_modVc_same]

/-- What the charge of a Copy leaves alone. -/
theorem copyCharged_frame (h : Arrived s u c e) :
    let v := copyCharged e u
    Tracks s v c (postedCmd e) ∧ replyRest v = replyRest s ∧ offPost v = offPost s ∧ v.media = s.media ∧ writeVct v = writeVct s ∧
      ∀ k, c.vc = some k → (vcOf v k.toNat).rd = (vcOf s k.toNat).rd - c.nlb := by
  obtain ⟨-, -, hnlb, -, hvc⟩ := h.fields
  obtain ⟨f, hf, hwrite, hrd⟩ := chargeRead_frame e e.nlb u
  have hoff := fun {β : Type} (g : State → β) => (congrArg g h.off : g (offQueue u) = g (offQueue s))
  have hvct : u.vct = s.vct := hoff (·.vct)
  have hw : writeVct u = writeVct s := hoff writeVct
  intro v
  have hv : v = updCmd e (fun _ => postedCmd e) (chargeRead e e.nlb u) := by
    unfold v copyCharged setPhase updCmd
    congr 1
    refine List.map_congr_left fun y _ => ?_
    split
    · next hy => rw [hy]; rfl
    · rfl
  rw [hf] at hv hwrite hrd
  clear_value v
  subst hv
  refine ⟨(h.tracks.keep (u := modVct f u) rfl rfl).upd h.alone (fun _ => postedCmd e) rfl, hoff replyRest, h.post, hoff (·.media), hwrite.trans hw,
    fun k hk => ?_⟩
  rw [← hnlb]
  refine (hrd k (hvc.trans hk)).trans ?_
  rw [vcOf, hvct, vcOf]

end Sys2Proof.Machine

namespace Sys2Proof.Machine

variable {s t u : State} {c d e : Cmd} {x : Ns} {l : List (Nat × Nat)}

/-- The job that a Copy goes on by. -/
theorem copyOn_eq (ha : alone s c) (h : Tracks s t c d) (htag : tagOf e = tagOf c) (hphase : d.phase ≠ .ended) (hns : nsOf t e.nsid.toNat = some x) :
    copyOn e t = if copyRead d = true then copyWrite x d t else t := by
  unfold copyOn
  have hfind : findJob t (partJob e {} 0 none) = some d := h.findJob ha (blockJob_key htag 0 0) hphase
  rw [hns, hfind]

section
variable (h : Arrived s u c e) (hsrcs : e.srcs = l) (hop : c.opcode = 0x19) (hgot : c.got = 0)
include h hsrcs hop hgot

/-- A Copy's sources are read: what has come of them, and what the state keeps. -/
theorem readSources_arrived : ∃ g m, Posting s (copyCharged e u) (readSources e x (copyCharged e u)) c (holding (postedCmd e) g m) ∧
    (copyParts s x c l ≠ [] → g < (l.map (·.2)).sum) ∧
    (copyParts s x c l = [] → (l.any (fun r => anyStaged s x c.nsid r.1 r.2) = false ∨ dramSlot s c.cls.toNat = true) → g = (l.map (·.2)).sum) := by
  obtain ⟨htracks, -, hpost, -⟩ := copyCharged_frame h
  obtain ⟨hnsid, -, -, hopc, -, hcls, -⟩ := core_fields h.core
  have hegot : e.got = 0 := (core_fields h.core).2.2.2.2.2.2.2.2.1.trans hgot
  have hstart : holding (postedCmd e) 0 e.blocks = postedCmd e := by
    rw [← hegot]
    rfl
  have hop' : (postedCmd e).opcode = 0x19 := hopc.trans hop
  obtain ⟨g, m, hread, hle, heq⟩ := Posting.sources (x := x) (d := e) (e := postedCmd e) (tagOf_of_core h.core) h.alone (by rw [hop']; decide)
    (show Phase.posted ≠ Phase.ended by decide) (by rw [hop']; decide) (!inTime e) (copyRanges e) (m := e.blocks)
      (hstart.symm ▸ Posting.start htracks)
  rw [copyRanges_sources, hsrcs, readyLbas_congr hpost, hnsid, Nat.zero_add] at hle heq
  obtain ⟨-, hsome, hnone⟩ := ready_sources (s := s) (x := x) (n := c.nsid) l
  refine ⟨g, m, hread, fun hparts => hle.trans_lt (hsome hparts), fun hparts hnow => (heq ?_).trans (hnone hparts)⟩
  intro r hr i hi
  change readNow _ x c.nsid e.cls i
  rw [readNow_congr hpost, hcls]
  refine hnow.imp_left fun hany => ?_
  rw [List.any_eq_false] at hany
  have hrange := hany r hr
  unfold anyStaged at hrange
  rw [Bool.not_eq_true, List.any_eq_false] at hrange
  exact Bool.eq_false_iff.mpr (hrange i hi)

variable (hns : nsOf s c.nsid.toNat = some x)
include hns

/-- A Copy with something of its sources on flash waits for it. -/
theorem copyOn_waits (hsum : (l.map (·.2)).sum = c.nlb) (hparts : copyParts s x c l ≠ []) :
    ∃ d, liveCmd (copyOn e (readSources e x (copyCharged e u))) c.conn c.cid = some d ∧ d.phase = .posted ∧ d.srcs = l ∧
      (copyOn e (readSources e x (copyCharged e u))).media = s.media ∧
      ∀ v, c.vc = some v → (vcOf (copyOn e (readSources e x (copyCharged e u))) v.toNat).rd = (vcOf s v.toNat).rd - c.nlb := by
  obtain ⟨g, m, hread, hless, -⟩ := readSources_arrived (x := x) h hsrcs hop hgot
  obtain ⟨-, -, hpost, hmedia, -, hrd⟩ := copyCharged_frame h
  obtain ⟨hnsid, -, hlen, -⟩ := h.fields
  obtain ⟨⟨b, hb⟩, hoff⟩ := id hread
  obtain ⟨-, -, -, hvct, hmed, -⟩ := offReads_fields hoff
  have hnst : nsOf (readSources e x (copyCharged e u)) e.nsid.toNat = some x := by
    rw [nsOf_congr hread.post, nsOf_congr hpost, hnsid]
    exact hns
  have hwait : copyOn e (readSources e x (copyCharged e u)) = readSources e x (copyCharged e u) := by
    rw [copyOn_eq h.alone hb (tagOf_of_core h.core) (show Phase.posted ≠ Phase.ended by decide) hnst, if_neg]
    unfold copyRead
    rw [Bool.and_eq_true, Bool.and_eq_true, decide_eq_true_eq, decide_eq_true_eq]
    rintro ⟨⟨-, hall⟩, -⟩
    change g = e.nlb at hall
    have := hless hparts
    omega
  rw [hwait]
  exact ⟨_, hb.liveCmd h.alone, rfl, hsrcs, hmed.trans hmedia, fun v hv => by rw [← hrd v hv, vcOf, hvct, vcOf]⟩

/-- A Copy whose sources are nowhere on flash goes on to its destination, and completes. -/
theorem copyOn_ends (hsum : (l.map (·.2)).sum = c.nlb) (hfdp : x.fdp = false) (hfits : zoneFits s x c) (htok : writeTokens s c c.nlb = true)
    (hfua : c.fua = false) (hparts : copyParts s x c l = [])
    (hnow : l.any (fun r => anyStaged s x c.nsid r.1 r.2) = false ∨ dramSlot s c.cls.toNat = true)
    (hgcm : bit ((homeRecord s x).getD {}).flags 2 = false) :
    wroteZone s x c (copyOn e (readSources e x (copyCharged e u))) ∧ completed c 0 0 0 s (copyOn e (readSources e x (copyCharged e u))) := by
  obtain ⟨g, m, hread, -, hall⟩ := readSources_arrived (x := x) h hsrcs hop hgot
  obtain ⟨-, hrest, hpost, -, hwrite, -⟩ := copyCharged_frame h
  obtain ⟨hnsid, -, hlen, hopc, -⟩ := h.fields
  obtain ⟨⟨b, hb⟩, hoff⟩ := id hread
  have hpostt := hread.post.trans hpost
  have hnst : nsOf (readSources e x (copyCharged e u)) e.nsid.toNat = some x := by
    rw [nsOf_congr hpostt, hnsid]
    exact hns
  have hgo : copyRead { holding (postedCmd e) g m with unbound := b } = true := by
    unfold copyRead
    rw [Bool.and_eq_true, Bool.and_eq_true, decide_eq_true_eq, decide_eq_true_eq, decide_eq_true_eq]
    exact ⟨⟨hopc.trans hop, (hall hparts hnow).trans (hsum.trans hlen.symm)⟩, rfl⟩
  rw [copyOn_eq h.alone hb (tagOf_of_core h.core) (show Phase.posted ≠ Phase.ended by decide) hnst, if_pos hgo, copyWrite,
    if_neg (by rw [hfdp]; exact Bool.false_ne_true)]
  have hskel : skeleton { holding (postedCmd e) g m with unbound := b } = skeleton c := (skeleton_of_core h.core : skeleton e = skeleton c)
  have hvct : writeVct (readSources e x (copyCharged e u)) = writeVct s := by
    rw [← hwrite]
    exact same_of_view offReads writeVct (fun _ => rfl) hoff
  have hpoised : Poised s (readSources e x (copyCharged e u)) c { holding (postedCmd e) g m with unbound := b } :=
    ⟨h.alone, hb, hpostt, hread.rest.trans hrest, hvct, hskel⟩
  have hhere : dataAtHand { holding (postedCmd e) g m with unbound := b } = true := by
    unfold dataAtHand
    change (e.inCap || decide (e.opcode = 8) || decide (e.opcode = 0x19) || e.internal) = true
    rw [hopc, hop]
    simp
  obtain ⟨hwrote, hdone⟩ := admitZoneWrite_ends hpoised hfits htok hfdp hfua hhere (by unfold tagsSet tagBytesSet; rw [hgcm]; rfl)
  refine ⟨hwrote, ?_⟩
  have hnot : ¬ e.opcode = 0x7D := by rw [hopc, hop]; decide
  have hdw0 : (takenWrite (readSources e x (copyCharged e u)) x { holding (postedCmd e) g m with unbound := b }).dw0 = 0 := if_neg hnot
  have hdw1 : (takenWrite (readSources e x (copyCharged e u)) x { holding (postedCmd e) g m with unbound := b }).dw1 = 0 := if_neg hnot
  rwa [hdw0, hdw1] at hdone

theorem runCmd_copy (hnlb : 0 < c.nlb) (hcan : copyCan s x c l = true) (honline : ∀ r ∈ l, rangeOffline s x c.nsid r.1 r.2 = false) :
    runCmd e u = if l.any (fun r => rangePoisoned s x c.nsid r.1 r.2) = true then failCmd e (status 2 0x81) u
      else copyOn e (readSources e x (copyCharged e u)) := by
  obtain ⟨hnsid, -, hlen, hopc, -⟩ := h.fields
  have hegot : e.got = 0 := (core_fields h.core).2.2.2.2.2.2.2.2.1.trans hgot
  have hcan' : copyCan u x e e.srcs = true := by
    unfold copyCan copyParts at hcan ⊢
    rw [splitRead_congr h.post, anyStaged_congr h.off, readTokens_arrived h, readSlots_congr h.off, readSlots_core h.core, partReads_congr h.off,
      partReads_core h.core, hnsid, hlen, hsrcs]
    exact hcan
  have honline' : e.srcs.any (fun r => rangeOffline u x e.nsid r.1 r.2) = false := by
    rw [rangeOffline_congr h.post, hnsid, hsrcs, List.any_eq_false]
    exact fun r hr => by rw [honline r hr]; exact Bool.false_ne_true
  have hrun : runCmd e u = admitCopy e u := by
    rw [runCmd, if_neg (by rw [hopc, hop]; decide), if_pos (hopc.trans hop)]
  rw [hrun, admitCopy_eq (by rw [nsOf_congr h.post, hnsid]; exact hns) (by rw [hegot, hlen]; omega) hcan' honline', rangePoisoned_congr h.post, hnsid,
    hsrcs]

end

/-- A Copy's row brings it to its run, with its locks taken. -/
theorem copy_arrives {srcs : List (BitVec 64 × BitVec 17)} (hfresh : Machine.fresh s c) (hadmin : c.admin = false) (hop : c.opcode = 0x19)
    (hl : srcs.map (fun r => (r.1.toNat, r.2.toNat)) = l) (hsum : (l.map (·.2)).sum = c.nlb) (hst : parseStatus s (sourced l c) = none)
    (hns : nsOf s c.nsid.toNat = some x) (hq : quiesced s c = false) (hord : c.ordered = false) (hlocks : c.locks = [])
    (hmark : s.tables.marks.contains (c.conn, c.cid) = false) (hempty : s.tables.locks = []) (hshare : l.length < mget 0 s.tables.shares c.cls.toNat)
    (hplace : l.length < nLocks s) (hclear : clearOf l c.slba c.nlb) :
    ∃ e u, exec (.copy c.conn c.cid srcs) s = .next (runCmd e u) ∧ Arrived s u c e ∧ e.srcs = l := by
  obtain ⟨ha, hturn⟩ := id hfresh
  have hphase := phase_of_parseTurn hturn
  have h := (Tracks.refl s c).upd ha (fun _ => sourced l c) rfl
  have hoff : offQueue (updCmd c (fun _ => sourced l c) s) = offQueue s := offQueue_modTables _ s
  have hsame : sameLocks s (updCmd c (fun _ => sourced l c) s) := ⟨rfl, rfl, rfl⟩
  have hparse := parseIo_toLocks (d := sourced l c) hoff hsame hord (show c.opcode ≠ 0 by rw [hop]; decide) hst
    ((same_of_core (quiesced s ·) (fun _ => rfl) (show core (sourced l c) = core c from rfl)).trans hq) hmark hlocks
  have hrx := parseRx_tracks h c.conn c.cid
  have hrxoff : offQueue (parseRx c.conn c.cid (updCmd c (fun _ => sourced l c) s)) = offQueue s := (offQueue_modSpn _ _ _).trans hoff
  obtain ⟨hrxlocks, hrxmarks, hrxshares⟩ := sameLocks_parseRx hsame c.conn c.cid
  generalize hp : parseRx c.conn c.cid (updCmd c (fun _ => sourced l c) s) = p at *
  have hlocking : Locking s p c (sourced l c) l 0 := by
    refine ⟨⟨[], ?_⟩, hrxoff, hrxmarks, hrxshares, ?_, ?_⟩
    · have : locked [] (sourced l c) = sourced l c := by
        rw [← hlocks]
        rfl
      rw [this]
      exact hrx
    · rw [hrxlocks, hempty]
      exact le_refl _
    · rw [hrxlocks, hempty]
      exact fun e he => absurd he (by simp)
  obtain ⟨u, ks, hall, hks, hoffu⟩ := Locking.all (d := sourced l c) ha hmark rfl hclear l (n := 0) hlocking (fun _ hr => hr) (by omega) (by omega)
  have hnsp : nsOf p (sourced l c).nsid.toNat = some x := by
    rw [nsOf_congr (offPost_of_offQueue hrxoff)]
    exact hns
  have hrun : lockAndRun (sourced l c) p = runCmd (locked ks (sourced l c)) u :=
    lockAndRun_granted hnsp (by rw [cmdLocks_copy (show (sourced l c).opcode = 0x19 from hop)]; exact hall) (hks.sameCmd ha rfl)
  refine ⟨locked ks (sourced l c), u, ?_, ⟨ha, hks, hoffu, rfl, by rw [hphase]; decide, ?_⟩, rfl⟩
  · have hsourced : { c with srcs := l, nlb := (l.map (·.2)).sum } = sourced l c := by
      rw [hsum]
      rfl
    rw [exec_copy, execCopy, received_fresh hfresh hadmin (by rw [hop]; decide)]
    dsimp only
    rw [hl, hsourced, hparse]
    refine congrArg Host.Outcome.next ?_
    rw [← hrun, ← hp]
    rfl
  · change c.phase ≠ .posted
    rw [hphase]
    decide

end Sys2Proof.Machine

/-! # SUPPORT. Reads and writes of a tenant: the obligation (R61 to R65, R283, R288 to R302, R307) -/

namespace Sys2Proof.Machine

variable {s t u : State} {c d : Cmd} {x : Ns}

/-! ## The clauses -/

/-- The row posts a read with its tokens charged. -/
theorem posts_of {i : Instr} (hexec : exec i s = .next t) (h : readPosted s x c t) :
    ∃ t d, exec i s = .next t ∧ liveCmd t c.conn c.cid = some d ∧ d.phase = .posted ∧ t.xpt.tx = s.xpt.tx ∧
      (∀ v, c.vc = some v → (vcOf t v.toNat).rd = (vcOf s v.toNat).rd - readUnits s x c) ∧ t.media = s.media := by
  obtain ⟨d, hlive, hphase, htx, hrd, hmedia⟩ := h
  exact ⟨t, d, hexec, hlive, hphase, htx, hrd, hmedia⟩

/-- A read's row, or a Verify's, brings it to its run. -/
theorem reads_arrive (h : Parsed s x c) (hfree : lockFree s c false c.slba c.nlb) (hlen : c.ranges.length ≤ 16) {i : Instr} {op : BitVec 8}
    (hi : (i, op) ∈ [(Instr.read c.conn c.cid c.ranges false, (2 : BitVec 8)), (.verify c.conn c.cid, 0x0C)]) (hop : c.opcode = op) :
    isReadOp c.opcode = true ∧ ∃ d u, exec i s = .next (runCmd d u) ∧ Arrived s u c d := by
  simp only [List.mem_cons, Prod.mk.injEq, List.not_mem_nil, or_false] at hi
  rcases hi with ⟨rfl, rfl⟩ | ⟨rfl, rfl⟩
  · exact ⟨by rw [hop]; decide, read_arrives h hop hlen hfree⟩
  · exact ⟨by rw [hop]; decide, verify_arrives h hop hfree⟩

/-- A write's row asks for its data. -/
theorem asks_of {i : Instr} (app : Bool) (harr : Arrived s u c d) (hexec : exec i s = .next (runCmd d u)) (hz : zoneTakes s x c)
    (hop : c.opcode = if app then 0x7D else 1) (hcap : d.inCap = false) (hlocks : d.locks ≠ []) :
    ∃ t, exec i s = .next t ∧ wroteZone s x c t ∧ writeAsks s x c app t := by
  have hop' : c.opcode = 1 ∨ c.opcode = 8 ∨ c.opcode = 0x7D := by cases app <;> simp [hop]
  have happ : decide (c.opcode = 0x7D) = app := by cases app <;> simp [hop]
  obtain ⟨hwrote, hasks⟩ := runCmd_asks harr hz hop' hcap (by cases app <;> rw [hop] <;> decide) hlocks
  rw [happ] at hasks
  exact ⟨_, hexec, hwrote, hasks⟩

theorem withLock_locks (k : Nat) (c : Cmd) : (withLock k c).locks ≠ [] := List.append_ne_nil_of_right_ne_nil _ (List.cons_ne_nil k [])

/-- The sources of a Copy whose blocks are 65,536 at most lie clear of its destination. -/
theorem clearOf_sources {srcs : List (BitVec 64 × BitVec 17)} {a n : Nat} (ha : a < 2 ^ 63) (hn : n ≤ 65536)
    (hclear : ∀ r ∈ srcs, ¬ (r.1.toNat < a + n ∧ a < r.1.toNat + r.2.toNat)) : clearOf (srcs.map fun r => (r.1.toNat, r.2.toNat)) a n := by
  intro r hr
  obtain ⟨q, hq, rfl⟩ := List.mem_map.mp hr
  have h1 := q.1.isLt
  have h2 := q.2.isLt
  exact ⟨h1, by simp only; omega, by omega, by omega, hclear q hq⟩

/-- Settles O50: a command that takes its lock runs in a state like the one it came in, and its admission is followed from there: a read's to
its posting or its blocks, a write's to its request or its completion, a Copy's through its sources to its destination. -/
theorem readsAndWrites : Obligations.ReadsAndWrites := by
  unfold Obligations.ReadsAndWrites
  intro c x s z e ok parsed parts units media sound can posts defers wrote w asks ends reads free
  refine ⟨?_, ?_, ?_, ?_, ?_, exec_retry_none⟩
  · rintro ⟨hfresh, hadmin⟩ ⟨hst, hns, hq, hord⟩ hfree hlen i op hi hop
    obtain ⟨hread, d, u, hexec, harr⟩ := reads_arrive ⟨hfresh, hadmin, hst, hns, hq, hord⟩ hfree hlen hi hop
    refine ⟨fun hsound hcan hmedia hnlb => ?_, fun hsound hcan hparts hnlb hgot hfail hverify hnow => ?_, fun hsound htok => ?_, fun hoff => ?_,
      fun hoff hcan hnlb hgot => ⟨fun hnone => ?_, fun hsome hmore hmedia => ?_⟩⟩
    · exact posts_of hexec (runCmd_posts harr hns hread hsound (readCan_of hcan) hmedia hnlb)
    · exact ⟨_, hexec, runCmd_verified harr hns hread hsound (readCan_of hcan) hparts hnlb hgot hfail (hop.trans hverify) hnow⟩
    · obtain ⟨e, hlive, hphase, hvct, hmedia, hpiers⟩ := runCmd_unpaid harr hns hread hsound.1 htok
      exact ⟨_, e, hexec, hlive, hphase, hvct, hmedia, hpiers⟩
    · exact ⟨_, hexec, runCmd_offline harr hns hread hoff⟩
    · exact ⟨_, hexec, runCmd_unreadable harr hns hread hoff (readCan_of hcan) hgot hnlb hnone⟩
    · obtain ⟨e, hlive, hphase, hfail, htx⟩ := runCmd_partly harr hns hread hoff (readCan_of hcan) hgot hsome hmore hmedia
      exact ⟨_, e, hexec, hlive, hphase, hfail, htx⟩
  · rintro ⟨hfresh, hadmin⟩ hz hfree
    have hp := Parsed.of_zoneTakes hfresh hadmin hz
    refine ⟨fun rg hrg hop => ?_, fun rg hrg hop => ?_, fun rg hrg hfua hop htags => ?_, fun hfua hop => ?_, fun rg hrg hfua hop htags => ?_⟩
    · obtain ⟨k, u, hexec, harr⟩ := write_arrives hp false hop hrg hfree
      obtain ⟨t, ht, hwrote, d, hasks⟩ := asks_of false harr hexec hz hop rfl (withLock_locks k _)
      exact ⟨t, d, ht, hwrote, hasks⟩
    · obtain ⟨k, u, hexec, harr⟩ := zoneAppend_arrives hp false hop hrg hfree
      obtain ⟨t, ht, hwrote, d, hasks⟩ := asks_of true harr hexec hz hop rfl (withLock_locks k _)
      exact ⟨t, d, ht, hwrote, hasks⟩
    · obtain ⟨k, u, hexec, harr⟩ := write_arrives hp true hop hrg hfree
      obtain ⟨hwrote, hdone⟩ := runCmd_ends harr hz (.inl hop) hfua (.inl rfl) (fun _ => htags)
      rw [if_neg (by rw [hop]; decide), if_neg (by rw [hop]; decide)] at hdone
      exact ⟨_, hexec, hwrote, hdone⟩
    · obtain ⟨k, u, hexec, harr⟩ := writeZeroes_arrives hp hop hfree
      obtain ⟨hwrote, hdone⟩ := runCmd_ends harr hz (.inr (.inl hop)) hfua (.inr hop) (fun h => absurd hop h)
      rw [if_neg (by rw [hop]; decide), if_neg (by rw [hop]; decide)] at hdone
      exact ⟨_, hexec, hwrote, hdone⟩
    · obtain ⟨k, u, hexec, harr⟩ := zoneAppend_arrives hp true hop hrg hfree
      obtain ⟨hwrote, hdone⟩ := runCmd_ends harr hz (.inr (.inr hop)) hfua (.inl rfl) (fun _ => htags)
      rw [if_pos hop, if_pos hop] at hdone
      exact ⟨_, hexec, hwrote, hdone⟩
  · rintro rg cap hrg ⟨hfresh, hadmin⟩ ⟨hst, hns, hq, hord⟩ hfree hfdp hmoving hdeg htok hprog hop hnlb hneed st hcheck
    obtain ⟨k, u, hexec, harr⟩ := write_arrives ⟨hfresh, hadmin, hst, hns, hq, hord⟩ cap hop hrg hfree
    exact ⟨_, hexec, runCmd_refused harr hns hfdp hop ⟨hmoving, hdeg, htok, hprog, hneed⟩ hcheck⟩
  · rintro srcs ⟨hfresh, hadmin⟩ hop hlen hsum hmax hclear l cparts hz hslba hfua hlocks hgot hmark hempty hshare hplace htok hslots honline
    obtain ⟨hst, hns, hfdp, hq, hord, hnlb, -⟩ := id hz
    obtain ⟨hfits, hwtok⟩ := zoneFits_of_zoneTakes hz
    have hsum' : (l.map (·.2)).sum = c.nlb := by
      rw [← hsum, List.map_map]
      rfl
    have hllen : l.length = srcs.length := List.length_map _
    obtain ⟨y, u, hexec, harr, hsrcs⟩ := copy_arrives hfresh hadmin hop rfl hsum' hst hns hq hord hlocks hmark hempty (by rw [hllen]; exact hshare)
      (by rw [hllen]; exact hplace) (clearOf_sources hslba hmax hclear)
    have hcan : copyCan s x c l = true := by
      unfold copyCan
      rw [htok]
      exact hslots
    have hrun := runCmd_copy harr hsrcs hop hgot hns hnlb hcan honline
    refine ⟨fun ⟨r, hr, hpoison⟩ => ?_, fun hsound => ?_⟩
    · refine ⟨_, hexec, ?_⟩
      rw [hrun, if_pos (List.any_eq_true.mpr ⟨r, hr, hpoison⟩)]
      exact failCmd_arrived harr _
    · rw [if_neg (by rw [Bool.not_eq_true, List.any_eq_false]; exact fun r hr => by rw [hsound r hr]; exact Bool.false_ne_true)] at hrun
      rw [hrun] at hexec
      refine ⟨fun hparts hnow hgcm => ?_, fun hparts => ?_⟩
      · exact ⟨_, hexec, copyOn_ends harr hsrcs hop hgot hns hsum' hfdp hfits hwtok hfua hparts hnow hgcm⟩
      · obtain ⟨d, hlive, hphase, hdsrcs, hmedia, hrd⟩ := copyOn_waits harr hsrcs hop hgot hns hsum' hparts
        exact ⟨_, d, hexec, hlive, hphase, hdsrcs, by rw [zoneOf, hmedia]; rfl, hrd⟩
  · intro hdue ha
    refine ⟨fun st hmode => retry_barred hdue ha hmode, fun hmode hmark => retry_aborted hdue ha hmode hmark,
      fun hmode hq hmark => retry_held hdue ha hmode hmark hq, ?_⟩
    rintro hmode ⟨-, hns, hq, -⟩ hread hfree hsound hcan hmedia hnlb
    obtain ⟨d, u, hexec, harr⟩ := retry_arrives hdue ha hmode hns hq hread hfree
    exact posts_of hexec (runCmd_posts harr hns hread hsound (readCan_of hcan) hmedia hnlb)

end Sys2Proof.Machine
